-- ==== Sys2Proof/Word.lean ====
section
/-! DEFINITION. Sys2Proof/Word.lean: the byte and the 64-bit thread register, the two word types the spec names. -/

namespace Sys2Proof

/-- One byte of a memory, a frame or a structure. -/
abbrev Byte := BitVec 8

/-- A Niris general register (R141). -/
abbrev Word := BitVec 64

end Sys2Proof
end

