-- ==== Sys2Proof/Syntax.lean ====
section
/-! DEFINITION. Sys2Proof/Syntax.lean: the commands of the block, one constructor per row of spec/opcode_table.json,
and what a command names besides numbers: who sends it, which BAR it addresses, what a read brought back. -/

namespace Sys2Proof

/-- Who sends a command: a PF's host, a management thread, the BMC over MCTP, or a VF's guest. -/
inductive Who where
  /-- the host of PF `h` -/
  | pf (h : Nat)
  /-- management thread `m` (secure or not by `MC_SEC`) -/
  | fw (m : Nat)
  /-- the board management controller -/
  | bmc
  /-- the guest that owns VF `gfn` -/
  | vf (gfn : Nat)
deriving DecidableEq, Repr

/-- The address space an access goes to. -/
inductive Bar where
  /-- the configuration space of the accessor's own function (R384, R385) -/
  | cfg
  /-- PF BAR0, the device registers (Table OV-5) -/
  | bar0
  /-- PF BAR2: arm page, MSI-X table, PBA (Table HE-3) -/
  | bar2
  /-- VF BAR0 (Table FN-3) -/
  | vfBar
deriving DecidableEq, Repr

/-- What a read of host memory came back with (R401 to R403). -/
inductive ReadResult where
  /-- its data -/
  | data (bytes : List Byte)
  /-- Unsupported Request -/
  | unsupported
  /-- Completer Abort -/
  | abort
  /-- poisoned data -/
  | poisoned
  /-- nothing in time, reissues included (R401) -/
  | timeout
deriving DecidableEq, Repr

/-- What a request to host memory that times out was for (R401). -/
inductive ReadFor where
  /-- a poll of a queue -/
  | poll (q : Nat)
  /-- the fragment table or the data of an accepted entry -/
  | entry (q idx : Nat)
  /-- the consumer word of a ring -/
  | cons (r : Nat)
  /-- the read-back of a DMA channel -/
  | readback (c : Nat)
  /-- a read whose failure its own command reports: the data of a DMA run, an image, a bitmap's read-back -/
  | other
deriving DecidableEq, Repr

/-- What the first cell of a frame shows: its length and the PCP of its first tag (R232, R236). -/
structure FirstCell where
  /-- the bytes of the frame with its FCS, without a tag that is removed -/
  bytes : Nat
  /-- 0: untagged; k + 1: the first tag has PCP k -/
  pcp : Nat
deriving DecidableEq, Repr

/-- A mirror record (Table TW-4). -/
inductive MirRec where
  /-- ACCEPT: queue, first index, count, first acceptance sequence -/
  | accept (q first count seq : Nat)
  /-- DONE_B: queue, first index, the status of each entry -/
  | doneB (q first : Nat) (status : List Nat)
  /-- DONE_R: ring, producer position, the completion record -/
  | doneR (r prod : Nat) (record : List Byte)
  /-- CTX: a queue context, as the numbers of its 64 bytes in the layout of Table FN-9 -/
  | ctxQ (q : Nat) (ctx : List Byte)
  /-- CTX: a completion-ring context, 32 bytes -/
  | ctxR (r : Nat) (ctx : List Byte)
  /-- PAGE: a page record in the layout of Table FN-10 -/
  | page (pg : Nat) (record : List Byte)
deriving DecidableEq, Repr

/-- The payload of a twin frame (Table TW-2). -/
inductive TwinMsg where
  /-- HELLO (R454): strap high, stepping, profile, WIDOWED, in DATAPATH_IDLE, and whether the GMAC of our nonce is right -/
  | hello (strap : Bool) (stepping profile : Nat) (widowed idle gmac : Bool)
  | heartbeat
  | mirror (records : List MirRec)
  /-- ACK: the highest counter applied (R459) -/
  | ack (upTo : Nat)
  /-- SYNC copies and the end-of-copies report (R470) -/
  | sync (records : List MirRec) (last : Bool)
  | goodbye (unpair : Bool)
  /-- MBX: a post to a channel, or its result (R432) -/
  | mbxPost (ch : Nat) (words : List Nat)
  | mbxResult (ch res : Nat)
  | tsync
deriving DecidableEq, Repr

/-- A command of the block: one constructor per row of the table, with the operands the rule of the row needs. -/
inductive Instr where
  /-- REGISTER_WRITE, R3: A write to a register field that has no row of its own takes effect according to the field's access type. -/
  | registerWrite (who : Who) (bar : Bar) (off : Nat) (size : Nat) (val : Nat)
  /-- RC_READ, R5: A read of an RC counter returns its value and clears it; an event counted in the same cycle is kept for the next value. -/
  | rcRead (who : Who) (bar : Bar) (off : Nat) (size : Nat)
  /-- AON_START, R25: VDD_AON comes into range with AON_CLK running, the always-on power-on reset is released and the device enters AON_ONLY. -/
  | aonStart (low : Bool) (rails : Bool) (ms : Nat)
  /-- VDD_AON_LOSS, R25: VDD_AON leaves its range and the device goes OFF. -/
  | vddAonLoss
  /-- RAIL_LEAVES_RANGE, R488: A rail other than VDD_AON falls below its power-on reset level and the device goes to AON_ONLY. -/
  | railLeavesRange (rail : Nat)
  /-- SYS_RST_N_ASSERT, R507: SYS_RST_N held low for at least 1 µs resets every domain except AON and TIME and takes the device to AON_ONLY. -/
  | sysRstNAssert
  /-- SYS_RST_N_RELEASE, R507: The release of SYS_RST_N with every rail in range and uv_hold clear samples TWIN_ROLE and starts BOOTING. -/
  | sysRstNRelease (role : Bool) (ms : Nat)
  /-- GLB_PROFILE_WRITE, R22: A write to GLB_PROFILE changes the profile only in DATAPATH_IDLE and otherwise sets profile_refused. -/
  | glbProfileWrite (who : Who) (val : Nat)
  /-- PROFILE_CHANGE_DONE, R23: The new profile comes into force, profile_busy returns to 0 and a pending dp_en write takes effect. -/
  | profileChangeDone
  /-- DP_EN_SET, R27: A write of 1 to GLB_CTRL.dp_en enters SERVICE from DATAPATH_IDLE, or cancels a drain in progress. -/
  | dpEnSet (who : Who)
  /-- DP_EN_CLEAR, R26: A write of 0 to GLB_CTRL.dp_en in SERVICE stops fetching and ingress admission and starts the drain. -/
  | dpEnClear (who : Who)
  /-- DRAIN_COMPLETE, R26: All buffered frames and accepted entries have finished, dp_draining clears and the state becomes DATAPATH_IDLE. -/
  | drainComplete
  /-- POLL_DUE, R73: A queue falls due and the poll engine, serving functions by deficit round robin, issues a poll read for its entries. -/
  | pollDue (qs : List Nat)
  /-- POLL_DATA_RETURN, R72: A poll read returns and the entries with the right phase, up to the first wrong one, are fetched for acceptance. -/
  | pollDataReturn (q : Nat) (res : ReadResult)
  /-- ENTRY_ACCEPT, R33: QM reserves a completion slot, journals the acceptance sequence, waits for the mirror acknowledgement in twin mode and advances the consumer index past the entry. -/
  | entryAccept (q : Nat)
  /-- FRAGMENT_TABLE_READ_RETURN, R69: The fragment table of an accepted entry returns and is checked, completing the entry with BAD_FRAGMENT if it is invalid. -/
  | fragmentTableReadReturn (q : Nat) (idx : Nat) (res : ReadResult)
  /-- WB_TIMER_EXPIRY, R81: wb_us microseconds after done_idx advanced without a writeback, the writeback word is written. -/
  | wbTimerExpiry (q : Nat)
  /-- DORMANCY_START, R75: The idle count reaches poll_idle_n, the writeback is written with dorm 1 and one last poll is made. -/
  | dormancyStart (q : Nat)
  /-- ARM_WRITE, R76: A write to a queue's arm word makes a DORMANT queue ACTIVE, latches arm_pending for a FROZEN queue, or is ignored. -/
  | armWrite (gfn : Nat) (loc : Nat)
  /-- QUEUE_ENABLE, R62: A write of 1 to QM_QCTX_CTRL.en enables a DISABLED queue, delivering pending recovery reports first, unless the enable is refused. -/
  | queueEnable (who : Who) (q : Nat)
  /-- QUEUE_DISABLE, R91: A write of 0 to QM_QCTX_CTRL.en moves the queue to DRAINING, or FROZEN or ERROR queues toward DISABLED. -/
  | queueDisable (who : Who) (q : Nat)
  /-- QUEUE_DRAIN_COMPLETE, R91: Every accepted entry of a DRAINING queue has finished, RX buffers are returned and the final writeback with final 1 is written; the queue is DISABLED. -/
  | queueDrainComplete (q : Nat)
  /-- START_INDEX_WRITE, R94: A write of QM_QCTX_START.cons to a DISABLED queue sets its consumer index and published head, subject to the recovery window check. -/
  | startIndexWrite (who : Who) (q : Nat) (cons : Nat)
  /-- CRING_ENABLE, R87: A write of 1 to QM_CRCTX_CTRL.en enables a completion ring, zeroing resv, prod and cons, unless refused. -/
  | cringEnable (who : Who) (r : Nat)
  /-- CRING_DISABLE, R87: A write of 0 to QM_CRCTX_CTRL.en disables a ring unless a queue that is not DISABLED names it. -/
  | cringDisable (who : Who) (r : Nat)
  /-- CONSUMER_WORD_READ_RETURN, R85: A read of a ring's consumer word returns and its value, if plausible, returns credits; an implausible value sets cons_bad. -/
  | consumerWordReadReturn (r : Nat) (res : ReadResult)
  /-- CQ_STALL, R86: A credit stall lasting longer than cq_stall_limit writes one CQ_STALL event to the owning PF's event ring. -/
  | cqStall (q : Nat)
  /-- EVRING_WRITE, R89: A PF writes QM_EVRING0 or QM_EVRING1, naming and enabling its event ring, which releases backlog and recovery records. -/
  | evringWrite (who : Who) (pf : Nat) (val : Nat)
  /-- EV_BACKLOG_CONS_READ, R89: Every 1 µs while a PF's event backlog holds records, Brynnan reads the event ring's consumer word. -/
  | evBacklogConsRead (pf : Nat)
  /-- FIRN_FLUSH_DONE, R51: Firn finishes draining staging and writing the checkpoint, then writes the seal record with the cause and Meridian time. -/
  | firnFlushDone
  /-- PWR_WARN, R53: PWR_WARN_N low for at least 200 ns is latched as a warning and the sequence toward the completion seal starts. -/
  | pwrWarn
  /-- COMPLETION_SEAL, R55: 50 µs after a warning, PCIe mastering stops, the Whiteout outputs are applied and Firn's flush proceeds. -/
  | completionSeal
  /-- PACKET_DISPATCH, R109: Dispatch writes the packet window to an idle worker thread, takes an order ticket and starts the thread at its program entry. -/
  | packetDispatch (p : Nat)
  /-- ADD, R147: ADD writes the sum of two registers at the selected width. -/
  | add (t : Nat) (mis : Bool)
  /-- ADDI, R147: ADDI writes the sum of a register and the immediate. -/
  | addi (t : Nat) (mis : Bool)
  /-- SUB, R147: SUB writes the difference of two registers. -/
  | sub (t : Nat) (mis : Bool)
  /-- SUBI, R147: SUBI writes a register minus the immediate. -/
  | subi (t : Nat) (mis : Bool)
  /-- AND, R147: AND writes the bitwise AND of two registers. -/
  | and (t : Nat) (mis : Bool)
  /-- ANDI, R147: ANDI writes the bitwise AND of a register and the immediate. -/
  | andi (t : Nat) (mis : Bool)
  /-- OR, R147: OR writes the bitwise OR of two registers. -/
  | or (t : Nat) (mis : Bool)
  /-- ORI, R147: ORI writes the bitwise OR of a register and the immediate, or its high form. -/
  | ori (t : Nat) (mis : Bool)
  /-- XOR, R147: XOR writes the bitwise XOR of two registers. -/
  | xor (t : Nat) (mis : Bool)
  /-- XORI, R147: XORI writes the bitwise XOR of a register and the immediate. -/
  | xori (t : Nat) (mis : Bool)
  /-- SHL, R147: SHL shifts a register left by a register amount. -/
  | shl (t : Nat) (mis : Bool)
  /-- SHLI, R147: SHLI shifts a register left by an immediate amount. -/
  | shli (t : Nat) (mis : Bool)
  /-- SHR, R147: SHR shifts a register right logically by a register amount. -/
  | shr (t : Nat) (mis : Bool)
  /-- SHRI, R147: SHRI shifts a register right logically by an immediate amount. -/
  | shri (t : Nat) (mis : Bool)
  /-- SAR, R147: SAR shifts a register right arithmetically by a register amount. -/
  | sar (t : Nat) (mis : Bool)
  /-- SARI, R147: SARI shifts a register right arithmetically by an immediate amount. -/
  | sari (t : Nat) (mis : Bool)
  /-- ROT, R147: ROT rotates a register right by a register amount. -/
  | rot (t : Nat) (mis : Bool)
  /-- ROTI, R147: ROTI rotates a register right by an immediate amount. -/
  | roti (t : Nat) (mis : Bool)
  /-- MUL, R147: MUL writes the low bits of the product of two registers. -/
  | mul (t : Nat) (mis : Bool)
  /-- MULI, R147: MULI writes the low bits of the product of a register and the immediate. -/
  | muli (t : Nat) (mis : Bool)
  /-- CMP, R147: CMP sets a condition flag from a comparison of two registers. -/
  | cmp (t : Nat) (mis : Bool)
  /-- CMPI, R148: CMPI sets a condition flag from a comparison of a register with the immediate. -/
  | cmpi (t : Nat) (mis : Bool)
  /-- SEL, R147: SEL writes one of two registers according to a flag. -/
  | sel (t : Nat) (mis : Bool)
  /-- SELI, R147: SELI writes a register or the immediate according to a flag. -/
  | seli (t : Nat) (mis : Bool)
  /-- EXT, R148: EXT extracts a bit field of a register, optionally sign-extended. -/
  | ext (t : Nat) (mis : Bool)
  /-- INS, R148: INS inserts low bits of a register into a bit field of the destination. -/
  | ins (t : Nat) (mis : Bool)
  /-- POPC, R147: POPC writes the number of set bits of a register. -/
  | popc (t : Nat) (mis : Bool)
  /-- CLZ, R147: CLZ writes the number of leading zeros of a register. -/
  | clz (t : Nat) (mis : Bool)
  /-- BSWAP, R147: BSWAP reverses the byte order of a register within the width. -/
  | bswap (t : Nat) (mis : Bool)
  /-- CSUM, R147: CSUM adds halfwords into a 16-bit ones'-complement sum. -/
  | csum (t : Nat) (mis : Bool)
  /-- LD, R149: LD loads from local data or the thread status word. -/
  | ld (t : Nat) (mis : Bool)
  /-- ST, R149: ST stores a register to local data. -/
  | st (t : Nat) (mis : Bool)
  /-- PLD, R149: PLD loads from the packet window in big- or little-endian order. -/
  | pld (t : Nat) (mis : Bool)
  /-- PST, R149: PST stores a register to the packet window. -/
  | pst (t : Nat) (mis : Bool)
  /-- SLD, R149: SLD loads from cluster shared data with its result later. -/
  | sld (t : Nat) (mis : Bool)
  /-- SST, R149: SST stores a register to cluster shared data. -/
  | sst (t : Nat) (mis : Bool)
  /-- SADD, R105: SADD atomically adds to a shared-data word and returns its old value. -/
  | sadd (t : Nat) (mis : Bool)
  /-- SCAS, R105: SCAS atomically compares a shared-data word and swaps it on a match, returning the old value. -/
  | scas (t : Nat) (mis : Bool)
  /-- BR, R151: BR jumps to an immediate or register target. -/
  | br (t : Nat) (mis : Bool)
  /-- BRC, R151: BRC jumps when a test on a register holds. -/
  | brc (t : Nat) (mis : Bool)
  /-- CALL, R152: CALL pushes the return index and jumps, faulting on a full return stack. -/
  | call (t : Nat) (mis : Bool)
  /-- RET, R152: RET pops the return index, or ends a resident program on an empty stack. -/
  | ret (t : Nat) (mis : Bool)
  /-- JMPT, R151: JMPT jumps through a table indexed by a register when it is in range. -/
  | jmpt (t : Nat) (mis : Bool)
  /-- WAITE, R153: WAITE retires when a masked event is pending, returning and clearing the masked bits. -/
  | waite (t : Nat) (mis : Bool)
  /-- EV_TIMEOUT, R154: The timeout of a WAITE expires and EV_TIMEOUT is raised. -/
  | evTimeout (t : Nat)
  /-- SIGE, R155: SIGE raises a software event at a thread of the cluster or of the management group. -/
  | sige (t : Nat) (mis : Bool)
  /-- WAITT, R99: WAITT retires in the thread's first slot at or after its Meridian target. -/
  | waitt (t : Nat) (mis : Bool)
  /-- RDT, R153: RDT reads Meridian nanoseconds or the fraction. -/
  | rdt (t : Nat) (mis : Bool)
  /-- CMDW, R157: CMDW writes a staging word. -/
  | cmdw (t : Nat) (mis : Bool)
  /-- CMDR, R159: CMDR reads a result word of a tag whose result has arrived, faulting otherwise. -/
  | cmdr (t : Nat) (mis : Bool)
  /-- TKT, R117: TKT takes a second order ticket in a domain of the thread's pipeline. -/
  | tkt (t : Nat) (mis : Bool)
  /-- REL_FORWARD, R107: REL in forward form releases the rebuilt frame with its ticket to a leaf or the management port. -/
  | relForward (t : Nat) (mis : Bool)
  /-- REL_DROP, R117: REL in drop form consumes the ticket, discards the packet and completes host work with the given status. -/
  | relDrop (t : Nat) (mis : Bool)
  /-- REL_PASS, R117: REL in pass form consumes a ticket without a packet. -/
  | relPass (t : Nat) (mis : Bool)
  /-- THST, R164: THST starts a parked or idle resident thread at an index with g1 loaded. -/
  | thst (t : Nat) (mis : Bool)
  /-- THRS, R164: THRS resets a thread, disposing of its tickets, packet and results. -/
  | thrs (t : Nat) (mis : Bool)
  /-- FLTR, R164: FLTR moves the oldest fault record of the core into four registers. -/
  | fltr (t : Nat) (mis : Bool)
  /-- LOCKSTEP_RESYNC_DONE, R103: The copy of the lead's state into the checker completes and the pair resumes issuing. -/
  | lockstepResyncDone (k : Nat)
  /-- FLOW_LOOKUP, R192: A TABLE FLOW_LOOKUP command looks a key up in the flow table and returns its action data. -/
  | flowLookup (t : Nat) (mis : Bool) (full : Bool) (bad : Nat)
  /-- FLOW_INSERT, R196: A TABLE FLOW_INSERT command inserts a dynamic flow entry through a displacement chain. -/
  | flowInsert (t : Nat) (mis : Bool) (full : Bool)
  /-- FLOW_DELETE, R197: A TABLE FLOW_DELETE command removes a flow entry. -/
  | flowDelete (t : Nat) (mis : Bool) (full : Bool)
  /-- LPM_LOOKUP, R192: A TABLE LPM_LOOKUP command looks an address up in the pipeline's LPM TCAM. -/
  | lpmLookup (t : Nat) (mis : Bool) (full : Bool) (bad : Bool)
  /-- L2_LOOKUP, R192: A TABLE L2_LOOKUP command looks a MAC up in the pipeline's L2 table. -/
  | l2Lookup (t : Nat) (mis : Bool) (full : Bool) (bad : Nat)
  /-- CIPHER_ENCRYPT, R324: A CIPHER ENCRYPT command encrypts data in the window or shared data. -/
  | cipherEncrypt (t : Nat) (mis : Bool) (full : Bool)
  /-- CIPHER_DECRYPT, R324: A CIPHER DECRYPT command decrypts data and checks a GCM tag. -/
  | cipherDecrypt (t : Nat) (mis : Bool) (full : Bool)
  /-- CIPHER_MAC_GEN, R324: A CIPHER MAC_GEN command writes a MAC tag. -/
  | cipherMacGen (t : Nat) (mis : Bool) (full : Bool)
  /-- CIPHER_MAC_VERIFY, R324: A CIPHER MAC_VERIFY command checks a MAC tag. -/
  | cipherMacVerify (t : Nat) (mis : Bool) (full : Bool)
  /-- DMA_START, R366: A DMA START command runs a channel's stored descriptor. -/
  | dmaStart (t : Nat) (mis : Bool) (full : Bool)
  /-- DMA_COPY, R366: A DMA COPY command runs the descriptor in w1–w4 on a channel. -/
  | dmaCopy (t : Nat) (mis : Bool) (full : Bool)
  /-- COUNTER_ADD, R491: A COUNTER ADD command adds packets and bytes to a program counter pair. -/
  | counterAdd (t : Nat) (mis : Bool) (full : Bool)
  /-- COUNTER_READ, R491: A COUNTER READ command returns a program counter pair. -/
  | counterRead (t : Nat) (mis : Bool) (full : Bool)
  /-- COUNTER_READ_CLEAR, R491: A COUNTER READ_CLEAR command returns a counter pair and zeroes it. -/
  | counterReadClear (t : Nat) (mis : Bool) (full : Bool)
  /-- SEND_FRAME, R157: A SEND FRAME command builds a frame from a memory and transmits it to a leaf without a ticket. -/
  | sendFrame (t : Nat) (mis : Bool) (full : Bool)
  /-- SEND_MBX, R432: A SEND MBX command posts a mailbox message atomically, or returns FULL. -/
  | sendMbx (t : Nat) (mis : Bool) (full : Bool)
  /-- TRIGGER_ARM, R163: A TRIGGER ARM command arms a thread-owned comparator, refused as LATE or busy. -/
  | triggerArm (t : Nat) (mis : Bool) (full : Bool)
  /-- TRIGGER_DISARM, R163: A TRIGGER DISARM command disarms a comparator and ends its pending ARM with DISARMED. -/
  | triggerDisarm (t : Nat) (mis : Bool) (full : Bool)
  /-- CMD_RESULT_ARRIVAL, R114: An engine result arrives for a tag, frees it and makes EV_CMD pending, or is discarded for an abandoned command. -/
  | cmdResultArrival (k : Nat)
  /-- TICKET_HOLD_EXPIRY, R118: A ticket held longer than order_hold_limit outside a debug session is a ticket-misuse fault. -/
  | ticketHoldExpiry (t : Nat) (k : Nat)
  /-- SLOT_BUDGET_EXPIRY, R125: A packet's slot budget runs out and the thread faults with cause 0x4. -/
  | slotBudgetExpiry (t : Nat)
  /-- CLUSTER_DEADLOCK, R124: After 4,096 slots with every worker blocked, EV_DEADLOCK is raised and a contained fault is reported. -/
  | clusterDeadlock (k : Nat)
  /-- SUP_RESTART, R129: A write to FP_CLU_CTRL.sup_restart restarts a parked supervisor at sup_entry. -/
  | supRestart (who : Who) (k : Nat) (val : Nat)
  /-- SESSION_OPEN, R131: A write of open 1 to FP_DBG_SESSION opens a debug session unless the debug fuse is blown. -/
  | sessionOpen (who : Who) (mask : Nat)
  /-- SESSION_CLOSE, R135: Closing the debug session resumes every halted thread and restarts ticket-hold counting. -/
  | sessionClose (who : Who)
  /-- HALT, R132: A debug halt command stops a thread before its next slot. -/
  | halt (who : Who) (t : Nat)
  /-- RESUME, R132: A debug resume command lets a halted thread run again. -/
  | resume (who : Who) (t : Nat)
  /-- STEP, R132: A debug step command executes one instruction of a halted thread and halts again. -/
  | step (who : Who) (t : Nat)
  /-- DEBUG_RELEASE, R134: A debug release command drops a halted thread's tickets and packet, completing host work with DEBUG_ABORTED. -/
  | debugRelease (who : Who) (t : Nat)
  /-- HEARTBEAT, R138: A write to MC_HB is a firmware heartbeat and clears stall. -/
  | heartbeat (who : Who) (val : Nat)
  /-- MGMT_STALL, R138: Three heartbeat periods without a write raise MGMT_STALL, set stall and put Meridian time into Drift. -/
  | mgmtStall
  /-- MGMT_RESTART, R139: A write to MC_CTRL.restart resets the management threads, settles held exception frames and restarts firmware. -/
  | mgmtRestart (who : Who)
  /-- MGMT_RESTART_DONE, R139: Firmware runs again after a restart and MC_CTRL.running reads 1. -/
  | mgmtRestartDone (nor : List Byte)
  /-- FRAME_FIRST_CELL, R249: When a frame's first cell is to be written, the cell buffer admits or refuses it. -/
  | frameFirstCell (id : Nat) (len : FirstCell) (ago : Nat)
  /-- FRAME_END, R232: A frame's last byte arrives and it is checked, tag-processed and metered by the ingress policer, or dropped and counted once. -/
  | frameEnd (m : Nat) (fcsOk : Bool) (bytes : List Byte)
  /-- HOST_FRAME_FETCH, R250: QM fetches an accepted TX entry's frame into the host pool once it has room, within the function's limit and DWRR share. -/
  | hostFrameFetch
  /-- HOST_FRAME_READY, R170: The frame bytes of an accepted TX entry are complete in the cell buffer and it becomes a parser candidate. -/
  | hostFrameReady (q : Nat) (idx : Nat) (src : ReadResult)
  /-- FRAME_PARSE, R173: The parser selects a profile, builds the key, runs checks, classifies and looks up the frame, then offers it to dispatch or exception. -/
  | frameParse (p : Nat) (bad : Nat)
  /-- CLS_WRITE, R186: A push of CLS_WRITE stages a classifier entry write in the update list. -/
  | clsWrite (who : Who) (p : Nat) (index : Nat)
  /-- CLS_INVAL, R186: A push of CLS_INVAL stages a classifier entry invalidation. -/
  | clsInval (who : Who) (p : Nat) (index : Nat)
  /-- SEL_WRITE, R186: A push of SEL_WRITE stages a selector entry write. -/
  | selWrite (who : Who) (p : Nat) (index : Nat)
  /-- PRF_WRITE, R186: A push of PRF_WRITE stages a parse profile write. -/
  | prfWrite (who : Who) (p : Nat) (index : Nat)
  /-- KSEL_WRITE, R186: A push of KSEL_WRITE stages a key-select vector write. -/
  | kselWrite (who : Who) (p : Nat) (index : Nat)
  /-- PCLASS_WRITE, R186: A push of PCLASS_WRITE stages a port class write. -/
  | pclassWrite (who : Who) (p : Nat) (index : Nat)
  /-- UPDATE_COMMIT, R187: A write of 1 to PPL_UPD_CTRL.commit with a non-empty list opens an update window and closes the parser input. -/
  | updateCommit (who : Who) (p : Nat)
  /-- UPDATE_DISCARD, R187: A write of 1 to PPL_UPD_CTRL.discard empties the update list outside a window. -/
  | updateDiscard (who : Who) (p : Nat)
  /-- UPDATE_WINDOW_END, R188: The staged operations are applied in list order, the parser input reopens and last_pause is recorded. -/
  | updateWindowEnd (p : Nat) (ns : Nat)
  /-- CLS_READ, R187: A write to PPL_CLS_RD.index reads a classifier entry into PPL_RD_DATA, after any window in progress. -/
  | clsRead (who : Who) (p : Nat) (index : Nat)
  /-- TBL_FLOW_INSERT, R196: TBL_CMD FLOW_INSERT inserts a flow entry from the stage. -/
  | tblFlowInsert (who : Who)
  /-- FLOW_REPLACE, R213: TBL_CMD FLOW_REPLACE inserts or overwrites a flow entry's action data and static flag. -/
  | flowReplace (who : Who)
  /-- TBL_FLOW_DELETE, R197: TBL_CMD FLOW_DELETE removes a flow entry by key. -/
  | tblFlowDelete (who : Who)
  /-- FLOW_READ, R213: TBL_CMD FLOW_READ reads a flow entry by index. -/
  | flowRead (who : Who)
  /-- TBL_FLOW_LOOKUP, R213: TBL_CMD FLOW_LOOKUP reads a flow entry by key. -/
  | tblFlowLookup (who : Who) (bad : Nat)
  /-- LPM_INSERT, R201: TBL_CMD LPM_INSERT inserts a prefix by moving region boundaries toward a spare. -/
  | lpmInsert (who : Who) (pipes : Nat)
  /-- LPM_DELETE, R202: TBL_CMD LPM_DELETE removes a prefix and compacts its region. -/
  | lpmDelete (who : Who) (pipes : Nat)
  /-- LPM_REPLACE, R202: TBL_CMD LPM_REPLACE changes the next hop of a prefix in one step. -/
  | lpmReplace (who : Who) (pipes : Nat)
  /-- LPM_REWRITE, R212: TBL_CMD LPM_REWRITE restores an invalidated LPM slot. -/
  | lpmRewrite (who : Who) (pipes : Nat) (index : Nat)
  /-- LPM_READ, R213: TBL_CMD LPM_READ reads an LPM slot. -/
  | lpmRead (who : Who) (pipes : Nat) (index : Nat)
  /-- L2_STATIC, R209: TBL_CMD L2_STATIC writes a static L2 entry in each named pipeline. -/
  | l2Static (who : Who) (pipes : Nat)
  /-- L2_DELETE, R213: TBL_CMD L2_DELETE removes an L2 entry. -/
  | l2Delete (who : Who) (pipes : Nat)
  /-- L2_FLUSH, R209: TBL_CMD L2_FLUSH deletes matching dynamic L2 entries in index order. -/
  | l2Flush (who : Who) (pipes : Nat)
  /-- L2_READ, R213: TBL_CMD L2_READ reads an L2 entry. -/
  | l2Read (who : Who) (pipes : Nat) (index : Nat)
  /-- FLOW_AGE_SCAN, R198: The flow age scan visits a slot, clearing hit or deleting an idle dynamic entry with a FLOW_AGED record. -/
  | flowAgeScan (index : Nat) (bad : Bool)
  /-- L2_LEARN, R206: The learn engine takes a queued learn request and inserts, moves or refreshes the L2 entry. -/
  | l2Learn (p : Nat)
  /-- L2_HOLD_END, R207: After 100 ms the flap hold of an L2 entry ends and held and moves clear. -/
  | l2HoldEnd (p : Nat) (index : Nat)
  /-- L2_AGE_SCAN, R208: The L2 age scan visits an entry, clearing hit or deleting an idle dynamic entry. -/
  | l2AgeScan (p : Nat) (index : Nat)
  /-- SCRUB_VISIT, R211: The scrubber reads an entry and invalidates and reports one that fails parity. -/
  | scrubVisit (k : Nat) (p : Nat) (index : Nat) (bad : Bool)
  /-- TBL_EVQ_POP, R214: A write to TBL_EVQ_POP discards the oldest table event record. -/
  | tblEvqPop (who : Who)
  /-- NMODE_WRITE, R217: A write to MAC_NMODE changes quad modes in DATAPATH_IDLE and clears the counters of affected ports, or is refused. -/
  | nmodeWrite (who : Who) (val : Nat)
  /-- LINK_UP, R221: A network port or tenant link locks its PCS and FEC and comes up. -/
  | linkUp (m : Nat)
  /-- LINK_DOWN, R221: A network port or tenant link goes down, zeroing BULK credit. -/
  | linkDown (m : Nat)
  /-- CHPAUSE, R229: A received CHPAUSE stops or resumes selection for the channels in its mask. -/
  | chpause (link : Nat) (mask : Nat) (time : Nat)
  /-- CHPAUSE_EXPIRY, R229: The pause time of a paused channel runs out and its selection resumes. -/
  | chpauseExpiry (link : Nat) (c : Nat)
  /-- CHPAUSE_REFRESH, R230: Every half pause time while a channel stays at or above xon, Brynnan sends CHPAUSE again. -/
  | chpauseRefresh (link : Nat)
  /-- PAUSE, R234: A received PAUSE frame in mode 1 stops the port's transmitter for its pause time. -/
  | pause (n : Nat) (time : Nat)
  /-- PFC, R235: A received PFC frame in mode 2 stops selection of the priorities enabled in its vector. -/
  | pfc (n : Nat) (vec : Nat) (times : List Nat)
  /-- PAUSE_EXPIRY, R234: The pause time of a paused transmitter or priority runs out and it resumes. -/
  | pauseExpiry (n : Nat) (p : Nat)
  /-- PAUSE_REFRESH, R236: Every half pause time while a port or priority stays at or above xon, Brynnan sends PAUSE or PFC again. -/
  | pauseRefresh (n : Nat)
  /-- MGMT_RSP, R246: A received MGMT_RSP with the outstanding seq ends the management request or DMA read-back, or is counted late. -/
  | mgmtRsp (slot : Nat) (seq : Nat) (status : Nat) (data : List Byte)
  /-- MGMT_REQ_TIMEOUT, R246: A management request without a response after 1 ms ends with TIMEOUT. -/
  | mgmtReqTimeout (slot : Nat)
  /-- MGMT_REQ, R246: A write of go to SHL_CMD sends one MGMT_REQ on the slot's link, or is refused while the position is held. -/
  | mgmtReq (who : Who) (slot : Nat) (val : Nat)
  /-- CREDIT, R247: A received CREDIT frame adds BULK credit for the slot. -/
  | credit (link : Nat) (kib : Nat)
  /-- POWER_ON, R241: The POWER_ON slot command raises SLOT_PWREN and opens the power-good window. -/
  | powerOn (who : Who) (slot : Nat)
  /-- POWER_GOOD, R241: SLOT_FAULT_N high for three samples after SLOT_PWREN rose is taken as power good and the reset delay starts. -/
  | powerGood (slot : Nat)
  /-- PG_TIMEOUT, R241: The pg_ms window ends without power good; SLOT_PWREN falls, pg_fail sets and a contained fault is reported. -/
  | pgTimeout (slot : Nat)
  /-- RESET_DELAY_EXPIRY, R241: rst_us elapses in a POWER_ON or RESET sequence and SLOT_RST_N is released as the command directs. -/
  | resetDelayExpiry (slot : Nat)
  /-- POWER_OFF, R241: The POWER_OFF slot command lowers SLOT_RST_N and starts the 10 µs delay before SLOT_PWREN falls. -/
  | powerOff (who : Who) (slot : Nat)
  /-- POWER_OFF_DELAY_EXPIRY, R241: 10 µs after SLOT_RST_N fell, SLOT_PWREN falls and the slot's tenant pages are zeroised. -/
  | powerOffDelayExpiry (slot : Nat)
  /-- RESET, R241: The RESET slot command holds SLOT_RST_N low for rst_us. -/
  | reset (who : Who) (slot : Nat)
  /-- HOLD, R241: The HOLD slot command holds SLOT_RST_N low until RELEASE. -/
  | hold (who : Who) (slot : Nat)
  /-- RELEASE, R241: The RELEASE slot command raises SLOT_RST_N. -/
  | release (who : Who) (slot : Nat)
  /-- SLOT_FAULT, R242: SLOT_FAULT_N going low with SLOT_PWREN high sets fault_lat, reports a fault and optionally powers the slot off. -/
  | slotFault (slot : Nat) (low : Bool)
  /-- SLOT_PRSNT_CHANGE, R242: A settled change of SLOT_PRSNT_N sets prsnt_chg and on removal optionally powers the slot off. -/
  | slotPrsntChange (slot : Nat) (present : Bool)
  /-- I2C_GO, R245: A write of go to SB_I2C_CMD starts a transfer on the slot's I2C controller. -/
  | i2cGo (who : Who) (slot : Nat) (val : Nat)
  /-- I2C_DONE, R245: A slot I2C transfer ends with OK, NACK, ARB_LOST or TIMEOUT and sets done. -/
  | i2cDone (slot : Nat) (status : Nat) (data : List Byte)
  /-- PORT_COUNTER_READ, R238: A read of a port counter's low word returns and clears it and latches its high word for the reader. -/
  | portCounterRead (who : Who) (lnk : Bool) (id : Nat) (k : Nat) (hi : Bool) (size : Nat)
  /-- BUF_CFG_WRITE, R248: A write to SCH_BUF_CFG or SCH_BUF_PORT changes the buffer division in DATAPATH_IDLE or is refused. -/
  | bufCfgWrite (who : Who) (port : Bool) (id : Nat) (val : Nat)
  /-- POLICER_WRITE, R253: A write to a policer sets its token count to the new burst. -/
  | policerWrite (who : Who) (host : Bool) (n : Nat) (val : Nat)
  /-- NODE_WRITE, R254: SCH_NODE_CMD WRITE writes a scheduler node record, reset its buckets, or is refused. -/
  | nodeWrite (who : Who) (level : Nat) (index : Nat)
  /-- NODE_READ, R254: SCH_NODE_CMD READ reads a scheduler node record and its draining state. -/
  | nodeRead (who : Who) (level : Nat) (index : Nat)
  /-- FRAME_SELECT, R259: When a port's MAC can take a frame, the hierarchy selects an eligible head frame by priority, class and DWRR and starts it. -/
  | frameSelect (m : Nat)
  /-- FRAME_TX_END, R233: A frame's last byte leaves its port, freeing its cells and completing a forwarded host TX entry. -/
  | frameTxEnd (m : Nat)
  /-- GATE_COMMIT, R270: A commit of a port's gate list makes the named bank pending, or sets late or refused. -/
  | gateCommit (who : Who) (id : Nat)
  /-- GATE_CANCEL, R273: A cancel before the take-over time drops the pending gate list. -/
  | gateCancel (who : Who) (id : Nat)
  /-- GATE_TAKEOVER, R272: At time T the pending gate bank comes into force and the old bank becomes writable. -/
  | gateTakeover (id : Nat)
  /-- GATE_ENTRY_WRITE, R273: A write to a gate entry of a bank that is neither in force nor pending stores it; otherwise it is refused. -/
  | gateEntryWrite (who : Who) (e : Nat) (val : Nat)
  /-- SAMPLE_PERIOD, R274: At each sampling period start the sampler records the next enabled leaves and hands full halves to the central reader. -/
  | samplePeriod
  /-- NOW_READ, R279: A read of MT_NOW_NS returns the current count and latches the fraction and high word for the reader. -/
  | nowRead (who : Who) (size : Nat)
  /-- MT_INC_WRITE, R280: A write to MT_INC changes the increment per tick, or is refused out of range or in Drift. -/
  | mtIncWrite (who : Who) (val : Nat)
  /-- ADJ_STEP, R281: A go in step mode adds MT_ADJ to the nanosecond count on the next tick. -/
  | adjStep (who : Who) (slew : Nat)
  /-- ADJ_SLEW, R281: A go in slew mode takes up MT_ADJ gradually by slewing the increment. -/
  | adjSlew (who : Who) (slew : Nat)
  /-- SLEW_DONE, R281: The final tick of a slew adds the remainder and slewing clears. -/
  | slewDone
  /-- REF_LOST, R277: A selected TIME_REFCLK with no edge for 1 µs is lost; the PLL switches to SYS_REFCLK and Drift cause REF is set. -/
  | refLost
  /-- REF_LOCK, R277: The TIME PLL locks to the reference that ref_sel selects and ref_lock reads 1. -/
  | refLock
  /-- DRIFT_ENTER, R299: A write of drift_enter puts the clock into Drift with cause FW. -/
  | driftEnter (who : Who)
  /-- DRIFT_EXIT, R301: A write of drift_exit leaves Drift when every cause has ended and applies MT_ADJ as a step or slew. -/
  | driftExit (who : Who) (estep : Bool)
  /-- TRIG_CFG_WRITE, R288: A write to a comparator's configuration, width or target is judged field by field against ownership and arm state. -/
  | trigCfgWrite (who : Who) (k : Nat) (reg : Nat) (val : Nat)
  /-- ARM, R286: A write of arm to MT_TRIG_CTRL loads, stages or refuses a register-owned comparator's target. -/
  | arm (who : Who) (k : Nat) (dis : Bool)
  /-- DISARM, R294: A write of disarm ends an arm or staging with result DISARMED. -/
  | disarm (who : Who) (k : Nat)
  /-- TRIG_STAGE_LOAD, R286: A staged target comes within 2^46 ns and is loaded into the comparator. -/
  | trigStageLoad (k : Nat)
  /-- TRG_LEAD, R292: Meridian time reaches an announced trigger's target minus trg_lead and its TRG frame is sent. -/
  | trgLead (k : Nat)
  /-- TRIG_FIRE, R294: A comparator reaches its target and applies its action to its destination, records the firing time and disarms. -/
  | trigFire (k : Nat)
  /-- PULSE_END, R290: width ns after a pulse rose, the SLOT_TRIG level falls. -/
  | pulseEnd (k : Nat)
  /-- CAPTURE_EDGE, R296: An enabled edge on a capture source records the compensated time, or sets ovr when the latch is valid. -/
  | captureEdge (src : Nat) (q : Nat) (rise : Bool)
  /-- CAPTURE_SW, R296: A write of sw captures the present time in the latch. -/
  | captureSw (who : Who) (j : Nat)
  /-- PPS_WRITE, R298: A write to MT_PPS enables, changes or stops the PPS output. -/
  | ppsWrite (who : Who) (val : Nat)
  /-- PPS_RISE, R298: Meridian ns mod 10^9 reaches off and PPS_OUT rises. -/
  | ppsRise
  /-- PPS_FALL, R298: width µs after its rise PPS_OUT falls. -/
  | ppsFall
  /-- LANE_CFG_WRITE, R308: A write to CPH_LANE_CFG reassigns cipher lanes in DATAPATH_IDLE or is refused. -/
  | laneCfgWrite (who : Who) (val : Nat)
  /-- ENCRYPT, R323: A CPH entry ENCRYPT queues a look-aside encryption job. -/
  | encrypt (q : Nat) (idx : Nat)
  /-- DECRYPT, R323: A CPH entry DECRYPT queues a look-aside decryption job with tag check. -/
  | decrypt (q : Nat) (idx : Nat)
  /-- MAC_GEN, R323: A CPH entry MAC_GEN queues a look-aside MAC generation job. -/
  | macGen (q : Nat) (idx : Nat)
  /-- MAC_VERIFY, R323: A CPH entry MAC_VERIFY queues a look-aside MAC verification job. -/
  | macVerify (q : Nat) (idx : Nat)
  /-- JOB_START, R327: A look-aside job starts in a lane chosen by the share DWRR, fetching its key, suspending a victim for an URGENT job if needed. -/
  | jobStart
  /-- JOB_COMPLETE, R323: A cipher job ends, writes its output and tag and reports its status; the freed lane resumes a suspended job. -/
  | jobComplete (lane : Nat) (src : ReadResult) (tag : ReadResult)
  /-- INLINE_JOB_START, R331: An inline job takes an inline lane and its SA, or the frame is dropped for an invalid SA. -/
  | inlineJobStart (leaf : Nat)
  /-- LOAD_WRAPPED, R317: A key interface LOAD_WRAPPED unwraps a blob under a KEK and installs the key. -/
  | loadWrapped (who : Who)
  /-- LOAD_CLEAR, R318: A secure key interface LOAD_CLEAR installs a clear key. -/
  | loadClear (who : Who)
  /-- CLEAR_SLOT, R320: CLEAR_SLOT zeroises one key slot. -/
  | clearSlot (who : Who) (k : Nat)
  /-- ZEROISE_PAGE, R320: ZEROISE_PAGE zeroises every slot and context of a page. -/
  | zeroisePage (who : Who)
  /-- PAGE_OWNER_WRITE, R314: A write to CPH_PAGE_OWNER claims, gives or releases a page, zeroising it on release. -/
  | pageOwnerWrite (who : Who) (pg : Nat) (val : Nat)
  /-- SA_WRITE, R331: CPH_SA_CMD WRITE writes an SA record atomically against inline use. -/
  | saWrite (who : Who) (index : Nat)
  /-- SA_INVALIDATE, R331: CPH_SA_CMD INVALIDATE invalidates an SA record. -/
  | saInvalidate (who : Who) (index : Nat)
  /-- SA_READ, R331: CPH_SA_CMD READ reads an SA record. -/
  | saRead (who : Who) (index : Nat)
  /-- DRBG_RESEED, R311: The entropy source reseeds the DRBG after 65,536 requests or once per second, running health tests. -/
  | drbgReseed (fails : Nat)
  /-- MASK_RESEED, R311: Every 1 µs the DRBG reseeds each mask generator. -/
  | maskReseed
  /-- EGRESS_STAGE, R335: OFL applies the requested egress steps to a released frame in order before it reaches its leaf. -/
  | egressStage (l : Nat)
  /-- RECEIVE_STAGE, R335: OFL applies the receive steps to a frame bound for an RX queue before the host write. -/
  | receiveStage (h : Nat)
  /-- COAL_TIMEOUT, R346: coal_us after its first segment, an open coalescing context is delivered. -/
  | coalTimeout (k : Nat)
  /-- TMPL_WRITE, R340: OFL_TMPL_CMD WRITE writes a tunnel template or is refused. -/
  | tmplWrite (who : Who) (index : Nat)
  /-- TMPL_READ, R340: OFL_TMPL_CMD READ reads a tunnel template. -/
  | tmplRead (who : Who) (index : Nat)
  /-- NVC_WRITE, R355: OFL_NVC_CMD WRITE writes an NVMe/TCP connection context. -/
  | nvcWrite (who : Who) (index : Nat)
  /-- NVC_READ, R355: OFL_NVC_CMD READ reads an NVMe/TCP connection context. -/
  | nvcRead (who : Who) (index : Nat)
  /-- PLACE, R356: An NVME entry PLACE registers a buffer for placement of C2HData on a connection. -/
  | place (q : Nat) (idx : Nat)
  /-- NVME_CANCEL, R356: An NVME entry CANCEL ends a placement registration. -/
  | nvmeCancel (q : Nat) (idx : Nat)
  /-- OFL_EVQ_POP, R357: A write to OFL_EVQ_POP discards the oldest OFL event record. -/
  | oflEvqPop (who : Who)
  /-- SEND, R61: A TX entry SEND hands its frame to its queue's pipeline once accepted. -/
  | send (q : Nat) (idx : Nat)
  /-- BUFFER, R70: An RX entry BUFFER offers a receive buffer to its queue once accepted. -/
  | buffer (q : Nat) (idx : Nat)
  /-- COPY, R365: A DMA entry COPY runs its own descriptor on a channel. -/
  | copy (q : Nat) (idx : Nat)
  /-- START, R365: A DMA entry START runs a channel's stored descriptor. -/
  | start (q : Nat) (idx : Nat)
  /-- CHANNEL_START, R366: A write of start to DMA_CH_CMD starts an idle channel's stored descriptor or sets refused. -/
  | channelStart (who : Who) (c : Nat)
  /-- DMA_STOP, R379: A write of stop ends a channel's run at its next access boundary with DMA_STOPPED. -/
  | dmaStop (who : Who) (c : Nat)
  /-- EOS, R375: A write of eos marks the end of a streaming channel's stream. -/
  | eos (who : Who) (c : Nat)
  /-- FIFO_PUSH, R375: A firmware write to DMA_CH_FIFO pushes a word into a streaming FIFO or sets ovf. -/
  | fifoPush (who : Who) (c : Nat) (word : Nat)
  /-- SHADOW_ARM, R376: A write of arm marks a channel's shadow set armed, handing it over at once on an idle start. -/
  | shadowArm (who : Who) (c : Nat)
  /-- DMA_STIME_REACHED, R367: A waiting channel's start time is reached and it becomes ready. -/
  | dmaStimeReached (c : Nat)
  /-- DMA_RUN_START, R361: An engine that ends a run chooses the next ready channel by priority, DWRR and max_eng and starts its run. -/
  | dmaRunStart (e : Nat) (src : ReadResult)
  /-- DMA_READBACK_RETURN, R372: The read-back of a run's last write returns and the run completes and reports, with any shadow hand-over. -/
  | dmaReadbackReturn (c : Nat) (rb : ReadResult)
  /-- STREAM_BURST_END, R374: A streaming burst drains the FIFO to lo_mark and releases its engine. -/
  | streamBurstEnd (c : Nat)
  /-- PCIE_LINK_UP, R380: An endpoint's link trains and its data link layer comes up. -/
  | pcieLinkUp (h : Nat) (speed : Nat) (width : Nat) (flit : Bool)
  /-- PERST_ASSERT, R406: An assertion of PCIE_PERSTn_N resets the configuration space of every function of the port and reports a contained fault. -/
  | perstAssert (h : Nat)
  /-- PERST_RELEASE, R508: The release of PERST starts the endpoint's link training. -/
  | perstRelease (h : Nat)
  /-- HOT_RESET, R406: A Hot Reset received on a link resets every function of that port. -/
  | hotReset (h : Nat)
  /-- DL_DOWN, R406: A DL_Down of a link while its PERST is high resets every function of that port. -/
  | dlDown (h : Nat)
  /-- CONFIG_WRITE, R384: A configuration write to a function's header or capability takes effect under the Base Specification. -/
  | configWrite (gfn : Nat) (off : Nat) (be : Nat) (val : Nat)
  /-- BME_CLEAR, R397: Clearing Bus Master Enable stops new requests of the function within 64 ns and holds its queues, runs and vectors. -/
  | bmeClear (gfn : Nat)
  /-- BME_SET, R399: Setting Bus Master Enable again resumes held steps in order. -/
  | bmeSet (gfn : Nat)
  /-- D3HOT_ENTRY, R387: A write entering D3hot treats the function as having BME and Memory Space clear, or is ignored. -/
  | d3hotEntry (gfn : Nat)
  /-- INBOUND_BAD_ACCESS, R389: An inbound BAR request of bad size or alignment is completed with Completer Abort or dropped and logged. -/
  | inboundBadAccess (gfn : Nat) (rd : Bool) (hdr : List Byte)
  /-- COMPLETION_TIMEOUT, R401: A non-posted request times out; its tag is quarantined and the request is reissued or failed. -/
  | completionTimeout (h : Nat) (rtag : Nat) (why : ReadFor) (hdr : List Byte)
  /-- COMPLETION_ARRIVAL, R402: A completion arrives and is used, or discarded as Unexpected Completion for a quarantined or unknown tag. -/
  | completionArrival (h : Nat) (rtag : Nat) (hdr : List Byte)
  /-- TAG_QUARANTINE_END, R402: Quarantine of a timed-out tag ends and the tag returns to the pool. -/
  | tagQuarantineEnd (h : Nat) (rtag : Nat)
  /-- FLR, R416: An FLR stops the function's requests, abandons accepted entries to FN_RESET records and zeroises its keys. -/
  | flr (gfn : Nat)
  /-- FLR_QUIESCE_DONE, R416: The function's work is accounted, final heads are placed in the contexts and the function leaves RESETTING. -/
  | flrQuiesceDone (gfn : Nat)
  /-- VF_ENABLE, R408: Setting VF Enable makes the VFs below NumVFs ACTIVE. -/
  | vfEnable (h : Nat)
  /-- VF_DISABLE, R417: Clearing VF Enable acts as a simultaneous FLR of every VF of the PF. -/
  | vfDisable (h : Nat)
  /-- VMOD_WRITE, R415: A write to FN_VMOD sets a vector's moderation and restarts its tallies. -/
  | vmodWrite (who : Who) (pf : Nat) (val : Nat)
  /-- VMOD_TIMER, R415: A moderated vector's time tally expires and one message is sent. -/
  | vmodTimer (gfn : Nat) (vec : Nat)
  /-- FREEZE, R424: FN_MIG_CMD FREEZE stops a VF's queues and lets its accepted work finish, or is refused. -/
  | freeze (who : Who) (u : Nat) (gfn : Nat)
  /-- FREEZE_WORK_DONE, R424: A freezing VF's accepted work is finished, its queues are FROZEN and the image write starts. -/
  | freezeWorkDone (u : Nat)
  /-- FREEZE_IMAGE_DONE, R424: The freeze image read-back returns and the VF becomes FROZEN. -/
  | freezeImageDone (u : Nat) (rb : ReadResult)
  /-- THAW, R428: FN_MIG_CMD THAW reads and checks an image into a VF, or is refused. -/
  | thaw (who : Who) (u : Nat) (gfn : Nat) (img : ReadResult)
  /-- THAW_DONE, R429: The image is installed, keys unwrapped and queues restored; the VF is ACTIVE. -/
  | thawDone (u : Nat)
  /-- CANCEL, R426: FN_MIG_CMD CANCEL returns a freezing or frozen VF to ACTIVE. -/
  | cancel (who : Who) (u : Nat) (gfn : Nat)
  /-- HARVEST, R427: A write of harvest copies and clears a tracker's dirty-page marks into the bitmap. -/
  | harvest (who : Who) (k : Nat)
  /-- HARVEST_DONE, R427: The harvest read-back returns and busy clears. -/
  | harvestDone (k : Nat) (rb : ReadResult)
  /-- MBX_COMMIT, R431: A lock-holding register sender commits staged words to a channel, ringing the receiver's doorbell. -/
  | mbxCommit (who : Who) (c : Nat) (count : Nat)
  /-- MBX_CH_RX_POP, R434: The receiver's read of MBX_CH_RX_POP returns the header and clears FULL. -/
  | mbxChRxPop (who : Who) (c : Nat)
  /-- MBX_LOCK, R436: A read of MBX_LOCK takes a free lock or returns its owner. -/
  | mbxLock (who : Who) (n : Nat)
  /-- MBX_UNLOCK, R437: A write to MBX_UNLOCK by the owner, or a forced write, frees a lock and clears staging. -/
  | mbxUnlock (who : Who) (n : Nat) (val : Nat)
  /-- MBX_CFG_WRITE, R442: A management write to MBX_CH_CFG or MBX_CH_IRQ is taken while the channel is empty and unlocked, or refused. -/
  | mbxCfgWrite (who : Who) (c : Nat) (irq : Bool) (val : Nat)
  /-- POST, R432: A CTL MBX POST from a shell posts a message atomically and is answered by RESULT. -/
  | post (slot : Nat) (seq : Nat) (chan : Nat) (words : List Nat)
  /-- POP, R434: A CTL MBX POP from a shell with the right epoch clears FULL. -/
  | pop (slot : Nat) (chan : Nat) (epoch : Nat)
  /-- LOCK, R436: A CTL MBX LOCK from a shell reads a general lock and is answered by LOCK_RSP. -/
  | lock (slot : Nat) (n : Nat)
  /-- UNLOCK, R437: A CTL MBX UNLOCK from a shell frees a general lock it holds. -/
  | unlock (slot : Nat) (n : Nat)
  /-- UP_COMMIT, R445: A VF commits an up message, setting its pending bit and raising the PF's vector. -/
  | upCommit (who : Who) (gfn : Nat) (count : Nat)
  /-- DN_COMMIT, R445: A PF commits a down message and raises the VF's vector. -/
  | dnCommit (who : Who) (gfn : Nat) (count : Nat)
  /-- UP_POP, R445: The PF pops an up message, clearing FULL and the pending bit. -/
  | upPop (who : Who) (gfn : Nat)
  /-- DN_POP, R444: The VF pops a down message, clearing FULL. -/
  | dnPop (who : Who) (gfn : Nat)
  /-- REG_READ, R443: An MCTP REG_READ returns a reachable PF BAR0 register to the BMC. -/
  | regRead (off : Nat)
  /-- REG_WRITE, R443: An MCTP REG_WRITE writes a register within the BMC's rights or is refused. -/
  | regWrite (off : Nat) (val : Nat)
  /-- MBX_POST, R443: An MCTP MBX_POST posts a BMC message to a channel atomically. -/
  | mbxPost (chan : Nat) (words : List Nat)
  /-- SET_ENDPOINT_ID, R443: An MCTP Set Endpoint ID assigns the endpoint ID and counts as a reset of the BMC master. -/
  | setEndpointId (op : Nat) (eid : Nat)
  /-- GET_ENDPOINT_ID, R443: An MCTP Get Endpoint ID returns the endpoint ID. -/
  | getEndpointId
  /-- GET_MCTP_VERSION_SUPPORT, R443: An MCTP Get MCTP Version Support returns the supported versions. -/
  | getMctpVersionSupport (typ : Nat)
  /-- GET_MESSAGE_TYPE_SUPPORT, R443: An MCTP Get Message Type Support returns types 0x00 and 0x7E. -/
  | getMessageTypeSupport
  /-- GET_VENDOR_DEFINED_MESSAGE_SUPPORT, R443: An MCTP Get Vendor Defined Message Support returns vendor 0x1B7E. -/
  | getVendorDefinedMessageSupport (idx : Nat)
  /-- WIN_CFG_WRITE, R447: A write to a shared window's configuration enables or disables it, or is refused. -/
  | winCfgWrite (who : Who) (pf : Nat) (w : Nat) (val : Nat)
  /-- WIN_BLOCK_TAKE, R448: The device user reads the next block header and writes and hands back the block if device-owned. -/
  | winBlockTake (pf : Nat) (w : Nat) (hdr : ReadResult) (pay : List Byte)
  /-- WIN_RETRY, R448: retry_us after finding a host-owned block, the device user reads its header again and counts a stall. -/
  | winRetry (pf : Nat) (w : Nat) (hdr : ReadResult) (pay : List Byte)
  /-- PAIR, R454: A write of pair to TWN_CTRL starts PAIRING and the HELLO exchange. -/
  | pair (who : Who)
  /-- HELLO, R454: A received HELLO is checked and either moves the pair to SYNCING or refuses pairing. -/
  | hello (ctr : Nat) (strap : Bool) (rev : Nat) (profile : Nat) (widowed : Bool) (idle : Bool) (gmac : Bool)
  /-- PAIR_TIMEOUT, R454: No valid HELLO within 100 ms refuses pairing with reason 5. -/
  | pairTimeout
  /-- UNPAIR, R474: A write of unpair in DATAPATH_IDLE prepares the device to leave the pair. -/
  | unpair (who : Who)
  /-- UNPAIR_GOODBYE, R474: Once outstanding records are acknowledged or 1 ms passes, GOODBYE with unpair is sent and the device is UNPAIRED. -/
  | unpairGoodbye (late : Bool)
  /-- RESYNC, R456: A write of resync in DEGRADED with W0 up moves the pair to RESYNC. -/
  | resync (who : Who)
  /-- RESYNC_START, R456: After 100 µs of heartbeats in DEGRADED with auto_resync, the pair enters RESYNC. -/
  | resyncStart
  /-- HEARTBEAT_SEND, R461: Every 1 µs a paired device sends a HEARTBEAT frame. -/
  | heartbeatSend (alive : Bool)
  /-- TWIN_HEARTBEAT, R461: A valid HEARTBEAT frame is received from the partner. -/
  | twinHeartbeat (ctr : Nat) (auth : Bool)
  /-- HEARTBEAT_MISS, R461: A 1 µs period without a valid frame is a miss; after eight the partner is judged out of reach or lost. -/
  | heartbeatMiss (alive : Bool) (wbs : List Nat) (cons : List Nat)
  /-- ALIVE_WIRE_FAULT, R461: Valid frames with no TWIN_ALIVE_IN edge for 100 µs report a fault and degrade the pair. -/
  | aliveWireFault
  /-- MIRROR, R459: A received MIRROR frame's records are applied in order and acknowledged. -/
  | mirror (ctr : Nat) (auth : Bool) (recs : List MirRec)
  /-- ACK, R460: A received ACK releases the acceptances and completions waiting for it. -/
  | ack (ctr : Nat) (auth : Bool) (upTo : Nat)
  /-- SYNC, R470: A received SYNC copy of a queue, ring or page is applied. -/
  | sync (ctr : Nat) (auth : Bool) (recs : List MirRec) (final : Bool)
  /-- SYNC_DONE, R470: Both devices have reported their copies applied and the pair is HEALTHY. -/
  | syncDone (skip : List Nat)
  /-- GOODBYE, R462: A valid GOODBYE makes the partner lost at once, or widows the device on unpair. -/
  | goodbye (ctr : Nat) (auth : Bool) (unpair : Bool) (wbs : List Nat) (cons : List Nat)
  /-- TWIN_MBX, R432: A received twin MBX frame posts the partner's message or carries its result. -/
  | twinMbx (ctr : Nat) (auth : Bool) (res : Bool) (chan : Nat) (words : List Nat) (code : Nat)
  /-- TSYNC, R302: A received TSYNC frame is time-stamped for the secondary's servo. -/
  | tsync (ctr : Nat) (auth : Bool) (ago : Nat)
  /-- TWN_KEY_LOAD, R453: TWN_KEY_CMD LOAD installs the link key from the stage. -/
  | twnKeyLoad (who : Who)
  /-- TWN_KEY_CLEAR, R453: TWN_KEY_CMD CLEAR zeroises the link key. -/
  | twnKeyClear (who : Who)
  /-- FAULT_DETECTION, R477: A source detects a fault; the collector sets active, counts, logs it and applies quarantine, interrupts or Whiteout. -/
  | faultDetection (src : Nat) (detail : Nat) (dead : Bool)
  /-- ACTIVE_CLEAR, R479: A write of 1 to a source's active clears it and its count, re-setting it while the cause persists. -/
  | activeClear (who : Who) (src : Nat) (level : Bool)
  /-- FAULT_INJECT, R489: A write to FLT_INJECT makes an injected detection of a source, or sets inj_refused. -/
  | faultInject (who : Who) (src : Nat) (detail : Nat)
  /-- DEV_RESET, R487: A BMC write of dev_reset in WHITEOUT resets the device through AON_ONLY to BOOTING unless uv_hold is set. -/
  | devReset (who : Who) (ms : Nat)
  /-- LOG_POP, R481: A write to FLT_LOG_POP discards the oldest fault record. -/
  | logPop (who : Who)
  /-- RAIL_WARNING, R486: A rail below its warning level for 200 ns starts the warning sequence with cause POWER. -/
  | railWarning (rail : Nat)
  /-- RAIL_UNDERVOLTAGE, R487: A rail below its undervoltage level for 50 ns enters WHITEOUT at once and sets uv_hold. -/
  | railUndervoltage (rail : Nat)
  /-- UV_HOLD_CLEAR, R487: Every rail stays above its warning level for 10 ms and uv_hold clears, letting a held reset act. -/
  | uvHoldClear (ms : Nat)
  /-- SNAP_GO, R496: A write of go to PMU_SNAP_CTRL strobes a snapshot of every counter. -/
  | snapGo (who : Who)
  /-- PERIODIC_STROBE, R498: A periodic strobe time is reached and a snapshot is taken or skipped. -/
  | periodicStrobe
  /-- DUMP_ENABLE, R498: A write of en to PMU_DUMP_CFG enables dumps when the window is set for the PMU, or sets refused. -/
  | dumpEnable (who : Who) (val : Nat)
  /-- SLOT_CLEAR, R495: A write to PMU_SLOT_CLR zeroes the slot counters of the named clusters. -/
  | slotClear (who : Who) (mask : Nat)
  /-- BOOT_STEP_COMPLETE, R511: A boot step completes, its outcome is recorded in the ledger and the next step begins. -/
  | bootStepComplete (ms : Nat) (prim : List Byte) (primOk : Bool) (alter : List Byte) (alterOk : Bool) (fail : Nat)
  /-- BOOT_STEP_FAIL, R513: A boot step exceeds its limit or finds its error and runs its alternative, makes a ledger restart or enters WHITEOUT. -/
  | bootStepFail (ms : Nat) (none_ : Bool)
  /-- READY, R511: Firmware's write of BOOT_CTRL.ready completes S10 and the device enters DATAPATH_IDLE. -/
  | ready (who : Who) (ms : Nat)
  /-- CLEAR_ALT, R515: A write of clear_alt clears boot alternatives from the next start. -/
  | clearAlt (who : Who) (mask : Nat)
  /-- FUSE_ARM, R519: A write of arm with an op to BOOT_FUSE_CMD arms a fuse programming for 1 ms. -/
  | fuseArm (who : Who) (op : Nat) (arg : Nat)
  /-- DEBUG_CLOSE, R519: The go write of DEBUG_CLOSE blows FUSE_DEBUG_CLOSE. -/
  | debugClose (who : Who) (arg : Nat)
  /-- REVOKE, R519: The go write of REVOKE revokes a key slot unless it is the last. -/
  | revoke (who : Who) (arg : Nat)
  /-- SVN, R519: The go write of SVN raises the fuse security version. -/
  | svn (who : Who) (arg : Nat)
  /-- LEDGER_SELECT, R518: A write to BOOT_LEDGER_SEL presents a ledger record in BOOT_LEDGER_DATA. -/
  | ledgerSelect (who : Who) (index : Nat)
  /-- SYS_REFCLK_LOST, R502: SYS_REFCLK shows no edge for 1 µs; core PLLs free-run and sys_ref_lost is set. -/
  | sysRefclkLost
  /-- SYS_REFCLK_RETURN, R502: SYS_REFCLK returns and the PLLs relock within 1 ms. -/
  | sysRefclkReturn
  /-- SDS_CALIBRATION_DONE, R503: A SerDes group that came into use finishes calibrating its lanes. -/
  | sdsCalibrationDone (g : Nat)
  /-- GATE_CFG_WRITE, R506: A write to PWR_GATE_CFG changes gating at the next decision and with en 0 wakes everything. -/
  | gateCfgWrite (who : Who) (val : Nat)
  /-- CLUSTER_GATE, R504: A cluster idle for gate_us stops its clock. -/
  | clusterGate (k : Nat)
  /-- CLUSTER_WAKE, R505: A gated cluster wakes on dispatch depth, an event, a debug access or an approaching WAITT target. -/
  | clusterWake (k : Nat)
  /-- LANE_GATE, R504: A cipher lane without a job for gate_us stops its clock. -/
  | laneGate (l : Nat)
  /-- LANE_WAKE, R505: A gated cipher lane wakes when its pool's queue reaches wake_depth. -/
  | laneWake (l : Nat)
  /-- RAIL_ENTERS_RANGE, R526: The last rail other than VDD_AON comes back into its recommended range, and with SYS_RST_N released and uv_hold clear the device leaves AON_ONLY for BOOTING. -/
  | railEntersRange (ms : Nat)
  /-- EXCEPTION_FRAME_DISPATCH, R150: A management thread takes a frame from the exception queue into its packet window and starts on it. -/
  | exceptionFrameDispatch (m : Nat)
  /-- TBL_CMD_DONE, R213: A TBL_CMD operation such as an L2_FLUSH or a multi-move LPM_INSERT finishes, writes result, moves and fail_pipes, and clears busy. -/
  | tblCmdDone
  /-- AER_ERROR_DETECTED, R393: An endpoint detects a link or TLP error of Table HE-6 or R394 on a received DLLP or TLP, sets the AER status, logs the header and sends the error message. -/
  | aerErrorDetected (gfn : Nat) (cor : Bool) (k : Nat) (hdr : List Byte)
deriving DecidableEq, Repr

end Sys2Proof
end

