-- ==== Sys2Proof/Decode.lean ====
section
/-! DEFINITION. Sys2Proof/Decode.lean: the command a word of the opcode table spells. The table gives no row any bits:
commands are accesses, protocol units, pin edges and instants, so no word spells one. -/

namespace Sys2Proof

/-- The command of a word of `nbits` bits by the table's bits: none, since no row has any. -/
def decodeTableWord (_nbits _w : Nat) : Option Instr := none

end Sys2Proof
end

