-- ==== Sys2Proof/Machine/Bits.lean ====
section
/-! DEFINITION. Sys2Proof/Machine/Bits.lean: bit fields of numbers, and byte orders (R9: structures in memory are
little-endian; wire formats are big-endian where they say so). -/

namespace Sys2Proof.Machine

/-- Bits `lo + w - 1 : lo` of a number. -/
def bits (v lo w : Nat) : Nat := v / 2 ^ lo % 2 ^ w

/-- Bit `i` of a number. -/
def bit (v i : Nat) : Bool := v / 2 ^ i % 2 == 1

/-- A Bool as one bit. -/
def b2n (b : Bool) : Nat := if b then 1 else 0

/-- A number with bits `lo + w - 1 : lo` replaced. -/
def setBits (v lo w x : Nat) : Nat := v - bits v lo w * 2 ^ lo + x % 2 ^ w * 2 ^ lo

/-- The number of `k` at or above `lo` and below `lo + n` with bit `k` set, as a list. -/
def bitsSet (v n : Nat) : List Nat := (List.range n).filter (fun k => bit v k)

/-- A number as `n` bytes, least significant first (R9). -/
def leBytes : Nat → Nat → List Byte
  | 0, _ => []
  | n + 1, v => BitVec.ofNat 8 v :: leBytes n (v / 256)

/-- Little-endian bytes as a number. -/
def leNat : List Byte → Nat
  | [] => 0
  | b :: bs => b.toNat + 256 * leNat bs

/-- Big-endian bytes as a number (wire formats). -/
def beNat (bs : List Byte) : Nat := leNat bs.reverse

/-- A number as `n` bytes, most significant first. -/
def beBytes (n v : Nat) : List Byte := (leBytes n v).reverse

/-- Byte `i` of a list; past its end, zero. -/
def byteAt (bs : List Byte) (i : Nat) : Nat := (bs.getD i 0#8).toNat

/-- `n` bytes from offset `i`; past the end, zero bytes. -/
def slice (bs : List Byte) (i n : Nat) : List Byte := (List.range n).map (fun k => bs.getD (i + k) 0#8)

/-- The little-endian number of `n` bytes at offset `i` of a structure (R9). -/
def leAt (bs : List Byte) (i n : Nat) : Nat := leNat (slice bs i n)

/-- The big-endian number of `n` bytes at offset `i` of a frame. -/
def beAt (bs : List Byte) (i n : Nat) : Nat := beNat (slice bs i n)

/-- Bytes with those from offset `i` replaced; a byte past the end is not stored. -/
def splice (bs : List Byte) (i : Nat) (xs : List Byte) : List Byte :=
  bs.take i ++ xs.take (bs.length - i) ++ bs.drop (i + xs.length)

/-- A list of bytes cut or filled with zeros to `n` bytes. -/
def padTo (n : Nat) (bs : List Byte) : List Byte := slice bs 0 n

end Sys2Proof.Machine
end

