-- ==== Sys2Proof/Machine/Crypto.lean ====
section
/-! DEFINITION. Sys2Proof/Machine/Crypto.lean: AES and the modes that R313 and R317 take from the standards they
name: FIPS 197, NIST SP 800-38A, 38B and 38D, IEEE 1619, RFC 3394; and the CRC-32C of R180. The manual names the
standards and does not repeat them: PRESUMED (log entry 5). -/

namespace Sys2Proof.Machine

/-! ## AES (FIPS 197), on bytes as numbers -/

/-- The S-box of FIPS 197. -/
def aesSbox : List Nat :=
  [99, 124, 119, 123, 242, 107, 111, 197, 48, 1, 103, 43, 254, 215, 171, 118, 202, 130, 201, 125, 250, 89, 71, 240, 173, 212, 162, 175, 156, 164, 114, 192] ++
  [183, 253, 147, 38, 54, 63, 247, 204, 52, 165, 229, 241, 113, 216, 49, 21, 4, 199, 35, 195, 24, 150, 5, 154, 7, 18, 128, 226, 235, 39, 178, 117] ++
  [9, 131, 44, 26, 27, 110, 90, 160, 82, 59, 214, 179, 41, 227, 47, 132, 83, 209, 0, 237, 32, 252, 177, 91, 106, 203, 190, 57, 74, 76, 88, 207] ++
  [208, 239, 170, 251, 67, 77, 51, 133, 69, 249, 2, 127, 80, 60, 159, 168, 81, 163, 64, 143, 146, 157, 56, 245, 188, 182, 218, 33, 16, 255, 243, 210] ++
  [205, 12, 19, 236, 95, 151, 68, 23, 196, 167, 126, 61, 100, 93, 25, 115, 96, 129, 79, 220, 34, 42, 144, 136, 70, 238, 184, 20, 222, 94, 11, 219] ++
  [224, 50, 58, 10, 73, 6, 36, 92, 194, 211, 172, 98, 145, 149, 228, 121, 231, 200, 55, 109, 141, 213, 78, 169, 108, 86, 244, 234, 101, 122, 174, 8] ++
  [186, 120, 37, 46, 28, 166, 180, 198, 232, 221, 116, 31, 75, 189, 139, 138, 112, 62, 181, 102, 72, 3, 246, 14, 97, 53, 87, 185, 134, 193, 29, 158] ++
  [225, 248, 152, 17, 105, 217, 142, 148, 155, 30, 135, 233, 206, 85, 40, 223, 140, 161, 137, 13, 191, 230, 66, 104, 65, 153, 45, 15, 176, 84, 187, 22]

/-- The inverse S-box. -/
def aesInv : List Nat := (List.range 256).map (fun y => aesSbox.findIdx (fun v => v == y))

/-- Multiplication by x in GF(2^8). -/
def xtime (b : Nat) : Nat := if b < 128 then 2 * b else (2 * b) % 256 ^^^ 0x1B

/-- Multiplication in GF(2^8) by one of the constants of the standard. -/
def gf8 (c b : Nat) : Nat :=
  let b2 := xtime b
  let b4 := xtime b2
  let b8 := xtime b4
  (if bit c 0 then b else 0) ^^^ (if bit c 1 then b2 else 0) ^^^ (if bit c 2 then b4 else 0) ^^^
    (if bit c 3 then b8 else 0)

def xorN (a b : List Nat) : List Nat := List.zipWith (fun x y => x ^^^ y) a b

/-- Next word of the key schedule from the words so far, newest first. -/
def aesNextWord (nk i rcon : Nat) (ws : List (List Nat)) : List Nat :=
  let prev := ws.headD []
  let t :=
    if i % nk = 0 then
      let r := (prev.drop 1 ++ prev.take 1).map (fun b => aesSbox.getD b 0)
      xorN r [rcon, 0, 0, 0]
    else if nk = 8 ∧ i % nk = 4 then prev.map (fun b => aesSbox.getD b 0)
    else prev
  xorN (ws.getD (nk - 1) []) t

/-- The schedule's words, newest first. -/
def aesSchedule (nk : Nat) : Nat → Nat → Nat → List (List Nat) → List (List Nat)
  | 0, _, _, ws => ws
  | n + 1, i, rcon, ws =>
    aesSchedule nk n (i + 1) (if i % nk = 0 then xtime rcon else rcon) (aesNextWord nk i rcon ws :: ws)

/-- Lists of `n` elements each. -/
def chunksN {α : Type} (n : Nat) : Nat → List α → List (List α)
  | 0, _ => []
  | fuel + 1, l => if l.isEmpty then [] else l.take n :: chunksN n fuel (l.drop n)

/-- Pieces of `n` elements, the last one holding the rest. -/
def chunks {α : Type} (n : Nat) (l : List α) : List (List α) := chunksN (max n 1) (l.length + 1) l

/-- Round keys of 16 bytes, first round first. -/
def aesKeys (key : List Nat) : List (List Nat) :=
  let nk := key.length / 4
  let ws := (aesSchedule nk (4 * (nk + 7) - nk) nk 1 (chunks 4 key).reverse).reverse
  (chunks 4 ws).map (fun g => g.flatten)

def aesShift (st : List Nat) : List Nat :=
  (List.range 16).map (fun k => st.getD ((k % 4) + 4 * ((k / 4 + k % 4) % 4)) 0)

def aesUnshift (st : List Nat) : List Nat :=
  (List.range 16).map (fun k => st.getD ((k % 4) + 4 * ((k / 4 + 4 - k % 4) % 4)) 0)

/-- A column transform with the coefficients of its first row. -/
def aesMixWith (m : List Nat) (st : List Nat) : List Nat :=
  (List.range 16).map (fun k =>
    (List.range 4).foldl (fun a j => a ^^^ gf8 (m.getD ((j + 4 - k % 4) % 4) 0) (st.getD (4 * (k / 4) + j) 0)) 0)

def aesMix (st : List Nat) : List Nat := aesMixWith [2, 3, 1, 1] st
def aesUnmix (st : List Nat) : List Nat := aesMixWith [14, 11, 13, 9] st

/-- The forward cipher with its round keys. -/
def aesEncRounds : List (List Nat) → List Nat → List Nat
  | [], st => st
  | [k], st => xorN (aesShift (st.map (fun b => aesSbox.getD b 0))) k
  | k :: ks, st => aesEncRounds ks (xorN (aesMix (aesShift (st.map (fun b => aesSbox.getD b 0)))) k)

/-- The inverse cipher with its round keys, last round first. -/
def aesDecRounds (inv : List Nat) : List (List Nat) → List Nat → List Nat
  | [], st => st
  | [k], st => xorN (aesUnshift st |>.map (fun b => inv.getD b 0)) k
  | k :: ks, st => aesDecRounds inv ks (aesUnmix (xorN (aesUnshift st |>.map (fun b => inv.getD b 0)) k))

def toNats (l : List Byte) : List Nat := l.map (fun b => b.toNat)
def ofNats (l : List Nat) : List Byte := l.map (fun b => BitVec.ofNat 8 b)

/-- AES encryption of a 16-byte block under a 16- or 32-byte key. -/
def aesEnc (key blk : List Byte) : List Byte :=
  match aesKeys (toNats key) with
  | k0 :: ks => ofNats (aesEncRounds ks (xorN (toNats blk) k0))
  | [] => blk

/-- AES decryption of a block. -/
def aesDec (key blk : List Byte) : List Byte :=
  match (aesKeys (toNats key)).reverse with
  | k0 :: ks => ofNats (aesDecRounds aesInv ks (xorN (toNats blk) k0))
  | [] => blk

/-! ## Modes -/

def xorB (a b : List Byte) : List Byte := List.zipWith (fun x y => x ^^^ y) a b

/-- Zero bytes up to a multiple of 16. -/
def pad16 (l : List Byte) : List Byte := l ++ List.replicate ((16 - l.length % 16) % 16) 0#8

/-- XOR data with the keystream of consecutive counter blocks; `inc` counts the block up. -/
def ctrWith (key : List Byte) (inc : Nat → Nat) (c : Nat) : List (List Byte) → List Byte
  | [] => []
  | b :: bs => xorB b (aesEnc key (beBytes 16 c)) ++ ctrWith key inc (inc c) bs

/-- CTR with the whole block counted up (R313). -/
def aesCtr (key iv data : List Byte) : List Byte :=
  ctrWith key (fun c => (c + 1) % 2 ^ 128) (beNat iv) (chunks 16 data)

/-- The low 32 bits of a GCM counter block count up. -/
def inc32 (c : Nat) : Nat := c / 2 ^ 32 * 2 ^ 32 + (c + 1) % 2 ^ 32

/-- Multiplication in GF(2^128) of SP 800-38D. -/
def ghMul : Nat → Nat → Nat → Nat → Nat
  | 0, _, _, z => z
  | i + 1, x, v, z =>
    ghMul i x (if bit v 0 then v / 2 ^^^ (0xE1 * 2 ^ 120) else v / 2) (if bit x i then z ^^^ v else z)

/-- GHASH of whole blocks. -/
def ghash (h : Nat) (bs : List (List Byte)) : Nat := bs.foldl (fun y b => ghMul 128 (y ^^^ beNat b) h 0) 0

/-- The GCM tag over AAD and ciphertext. -/
def gcmTag (key iv aad ct : List Byte) : List Byte :=
  let h := beNat (aesEnc key (List.replicate 16 0#8))
  let s := ghash h (chunks 16 (pad16 aad) ++ chunks 16 (pad16 ct) ++ [beBytes 8 (8 * aad.length) ++ beBytes 8 (8 * ct.length)])
  xorB (beBytes 16 s) (aesEnc key (iv.take 12 ++ [0#8, 0#8, 0#8, 1#8]))

/-- The GCM transform of the data. -/
def gcmCrypt (key iv data : List Byte) : List Byte :=
  ctrWith key inc32 (inc32 (beNat (iv.take 12 ++ [0#8, 0#8, 0#8, 1#8]))) (chunks 16 data)

/-- Doubling of SP 800-38B. -/
def cmacDbl (x : Nat) : Nat := (2 * x) % 2 ^ 128 ^^^ (if bit x 127 then 0x87 else 0)

/-- CMAC of a message. -/
def aesCmac (key msg : List Byte) : List Byte :=
  let k1 := cmacDbl (beNat (aesEnc key (List.replicate 16 0#8)))
  let bs := if msg.isEmpty then [[]] else chunks 16 msg
  let last := bs.getLastD []
  let fin := if last.length = 16 then xorB last (beBytes 16 k1)
    else xorB (padTo 16 (last ++ [0x80#8])) (beBytes 16 (cmacDbl k1))
  (bs.dropLast ++ [fin]).foldl (fun y b => aesEnc key (xorB y b)) (List.replicate 16 0#8)

/-- Multiplication of an XTS tweak by the primitive element, little-endian. -/
def xtsDbl (t : Nat) : Nat := (2 * t) % 2 ^ 128 ^^^ (if bit t 127 then 0x87 else 0)

/-- One XTS block with its tweak. -/
def xtsBlk (dec : Bool) (key : List Byte) (t : Nat) (b : List Byte) : List Byte :=
  let m := leBytes 16 t
  xorB m (if dec then aesDec key (xorB b m) else aesEnc key (xorB b m))

/-- The blocks of one data unit, with ciphertext stealing for a last block that is short (IEEE 1619). -/
def xtsBlocks (dec : Bool) (key : List Byte) : Nat → List (List Byte) → List Byte
  | _, [] => []
  | t, [b] => xtsBlk dec key t b
  | t, [a, b] =>
    if b.length = 16 then xtsBlk dec key t a ++ xtsBlk dec key (xtsDbl t) b
    else
      let (t1, t2) := if dec then (xtsDbl t, t) else (t, xtsDbl t)
      let c := xtsBlk dec key t1 a
      xtsBlk dec key t2 (b ++ c.drop b.length) ++ c.take b.length
  | t, a :: bs => xtsBlk dec key t a ++ xtsBlocks dec key (xtsDbl t) bs

/-- One data unit; the pair's first half is the data key, the second the tweak key (Table CP-3). -/
def xtsUnit (dec : Bool) (key : List Byte) (tweak : Nat) (data : List Byte) : List Byte :=
  let n := key.length / 2
  xtsBlocks dec (key.take n) (leNat (aesEnc (key.drop n) (leBytes 16 tweak))) (chunks 16 data)

/-- The data units of a job; each further unit's tweak is one more (Table CP-1). -/
def xtsUnits (dec : Bool) (key : List Byte) : Nat → List (List Byte) → List Byte
  | _, [] => []
  | t, u :: us => xtsUnit dec key (t % 2 ^ 128) u ++ xtsUnits dec key (t + 1) us

/-- XTS with data units of 2^`du` bytes, or one unit for `du` 0 (Table CP-5). -/
def aesXts (dec : Bool) (key iv : List Byte) (du : Nat) (data : List Byte) : List Byte :=
  xtsUnits dec key (leNat iv) (if du = 0 then [data] else chunks (2 ^ du) data)

/-- One step of the RFC 3394 unwrap, with the step number `t`. -/
def kwUnstep (kek : List Byte) (t : Nat) (a : List Byte) (r : List Byte) : List Byte × List Byte :=
  let b := aesDec kek (xorB a (beBytes 8 t) ++ r)
  (b.take 8, b.drop 8)

/-- The unwrap's steps from the last to the first over the registers. -/
def kwUnsteps (kek : List Byte) (n : Nat) : Nat → List Byte → List (List Byte) → List Byte × List (List Byte)
  | 0, a, rs => (a, rs)
  | t + 1, a, rs =>
    let i := t % n
    let (a', r') := kwUnstep kek (t + 1) a (rs.getD i [])
    kwUnsteps kek n t a' (rs.set i r')

/-- AES-KW unwrap (RFC 3394); none when the integrity value is wrong. -/
def kwUnwrap (kek blob : List Byte) : Option (List Byte) :=
  let rs := chunks 8 (blob.drop 8)
  let (a, out) := kwUnsteps kek rs.length (6 * rs.length) (blob.take 8) rs
  if a = List.replicate 8 0xA6#8 then some out.flatten else none

/-- The wrap's steps over the registers. -/
def kwSteps (kek : List Byte) (n : Nat) : Nat → Nat → List Byte → List (List Byte) → List Byte × List (List Byte)
  | 0, _, a, rs => (a, rs)
  | f + 1, t, a, rs =>
    let i := t % n
    let b := aesEnc kek (a ++ rs.getD i [])
    kwSteps kek n f (t + 1) (xorB (b.take 8) (beBytes 8 (t + 1))) (rs.set i (b.drop 8))

/-- AES-KW wrap (RFC 3394). -/
def kwWrap (kek key : List Byte) : List Byte :=
  let rs := chunks 8 key
  let (a, out) := kwSteps kek rs.length (6 * rs.length) 0 (List.replicate 8 0xA6#8) rs
  a ++ out.flatten

/-! ## CTR_DRBG (NIST SP 800-90A) with AES-256 and the derivation function -/

/-- `n` enciphered counter blocks after `v`. -/
def drbgBlocks (key : List Byte) : Nat → Nat → List Byte
  | 0, _ => []
  | n + 1, v => aesEnc key (beBytes 16 ((v + 1) % 2 ^ 128)) ++ drbgBlocks key n ((v + 1) % 2 ^ 128)

/-- CTR_DRBG_Update of a state, `Key` before `V`, with 48 bytes of data. -/
def drbgUpdate (st data : List Byte) : List Byte := xorB (drbgBlocks (st.take 32) 3 (beNat (st.drop 32))) data

/-- 32 bytes from a state, and the state after. -/
def drbgGenerate (st : List Byte) : List Byte × List Byte :=
  let v := beNat (st.drop 32)
  (drbgBlocks (st.take 32) 2 v, drbgUpdate (st.take 32 ++ beBytes 16 ((v + 2) % 2 ^ 128)) (List.replicate 48 0#8))

/-- BCC of SP 800-90A over whole blocks. -/
def drbgBcc (key : List Byte) (bs : List (List Byte)) : List Byte :=
  bs.foldl (fun y b => aesEnc key (xorB y b)) (List.replicate 16 0#8)

/-- Block_Cipher_df of SP 800-90A to 48 bytes. -/
def drbgDf (input : List Byte) : List Byte :=
  let s := chunks 16 (pad16 (beBytes 4 input.length ++ beBytes 4 48 ++ input ++ [0x80#8]))
  let k := (List.range 32).map (fun i => BitVec.ofNat 8 i)
  let t := (List.range 3).flatMap (fun i => drbgBcc k ((beBytes 4 i ++ List.replicate 12 0#8) :: s))
  let k := t.take 32
  let x1 := aesEnc k (t.drop 32)
  let x2 := aesEnc k x1
  x1 ++ x2 ++ aesEnc k x2

/-- The state after entropy input is taken in. -/
def drbgReseed (st entropy : List Byte) : List Byte := drbgUpdate st (drbgDf entropy)

/-! ## CRC-32C (polynomial 0x1EDC6F41, reflected) -/

/-- Eight steps of the reflected CRC. -/
def crcBits : Nat → Nat → Nat
  | 0, c => c
  | n + 1, c => crcBits n (if bit c 0 then c / 2 ^^^ 0x82F63B78 else c / 2)

/-- CRC-32C of bytes from an initial value, without final inversion (R180). -/
def crc32c (init : Nat) (bs : List Byte) : Nat := bs.foldl (fun c b => crcBits 8 (c ^^^ b.toNat)) init

/-- The CRC32C digest of NVMe/TCP: initial value and final inversion of all ones (log entry 5). -/
def crcDigest (bs : List Byte) : Nat := crc32c 0xFFFFFFFF bs ^^^ 0xFFFFFFFF

end Sys2Proof.Machine
end

