-- ==== Sys2Proof/Machine/Operands.lean ====
section
/-! DEFINITION. Sys2Proof/Machine/Operands.lean: the fields of work entries, fragment descriptors and DMA address
forms, and the checks that need nothing but their bytes (Tables WQ-2 to WQ-5, CP-5, OF-12, DM-2, DM-4, DM-5). -/

namespace Sys2Proof.Machine

/-! ## Work entries, common fields (Table WQ-2) -/

def weOpcode (e : List Byte) : Nat := byteAt e 0
def weIndirect (e : List Byte) : Bool := bit (byteAt e 1) 0
def weBatchCq (e : List Byte) : Bool := bit (byteAt e 1) 1
def weFence (e : List Byte) : Bool := bit (byteAt e 1) 2
def weRo (e : List Byte) : Bool := bit (byteAt e 1) 3
def weNs (e : List Byte) : Bool := bit (byteAt e 1) 4
def weNfrag (e : List Byte) : Nat := leAt e 2 2
def weTag (e : List Byte) : Nat := leAt e 4 4
def weAddr (e : List Byte) : Nat := leAt e 8 8
def wePhase (e : List Byte) : Nat := bits (byteAt e 63) 7 1

/-! ## TX body (Table WQ-4) -/

def txLen (e : List Byte) : Nat := leAt e 16 2
def txEgress (e : List Byte) : Nat := bits (leAt e 18 2) 0 11
def txOffl (e : List Byte) : Nat := leAt e 20 4
def txMss (e : List Byte) : Nat := leAt e 24 2
def txL3 (e : List Byte) : Nat := byteAt e 26
def txL4 (e : List Byte) : Nat := byteAt e 27
def txSa (e : List Byte) : Nat := bits (leAt e 28 4) 0 20
def txSaEn (e : List Byte) : Bool := bit (leAt e 28 4) 31
def txLaunch (e : List Byte) : Nat := leAt e 32 6
def txTc (e : List Byte) : Nat := bits (byteAt e 38) 0 3
def txMeta (e : List Byte) : Nat := leAt e 40 8

/-- RX buffer length (Table WQ-5). -/
def rxLen (e : List Byte) : Nat := leAt e 16 4

/-! ## CPH body (Table CP-5) -/

def cpLen (e : List Byte) : Nat := bits (leAt e 16 4) 0 24
def cpSlot (e : List Byte) : Nat := bits (leAt e 16 4) 24 6
def cpUrgent (e : List Byte) : Bool := bit (leAt e 16 4) 30
def cpAad (e : List Byte) : Nat := bits (leAt e 20 2) 0 12
def cpDu (e : List Byte) : Nat := bits (leAt e 20 2) 12 4
def cpPage (e : List Byte) : Nat := bits (leAt e 22 2) 0 13
def cpMode (e : List Byte) : Nat := bits (leAt e 22 2) 13 3
def cpDst (e : List Byte) : Nat := leAt e 24 8
def cpTag (e : List Byte) : Nat := leAt e 32 8 / 16 * 16
def cpTagLen (e : List Byte) : Nat := bits (leAt e 32 8) 0 4
def cpIv (e : List Byte) : List Byte := slice e 40 16

/-! ## NVME body (Table OF-12) -/

def nvLen (e : List Byte) : Nat := bits (leAt e 16 4) 0 24
def nvConn (e : List Byte) : Nat := bits (leAt e 20 2) 0 14
def nvCid (e : List Byte) : Nat := leAt e 22 2
def nvSa (e : List Byte) : Nat := bits (leAt e 24 4) 0 20
def nvSaEn (e : List Byte) : Bool := bit (leAt e 24 4) 31
def nvDu (e : List Byte) : Nat := bits (byteAt e 28) 0 4
def nvTweak (e : List Byte) : List Byte := slice e 32 16

/-! ## DMA body (Table DM-5) -/

def dmLen (e : List Byte) : Nat := leAt e 16 4
def dmChan (e : List Byte) : Nat := bits (leAt e 20 2) 0 10
def dmSrcW (e : List Byte) : Nat := bits (byteAt e 22) 0 3
def dmDstW (e : List Byte) : Nat := bits (byteAt e 22) 3 3
def dmSwap (e : List Byte) : Nat := bits (byteAt e 23) 0 3
def dmDst (e : List Byte) : Nat := leAt e 24 8
def dmStime (e : List Byte) : Nat := leAt e 32 6

/-! ## Cipher operations and modes (Table CP-1) -/

def cmGcm : Nat := 0
def cmGmac : Nat := 1
def cmXts : Nat := 2
def cmCtr : Nat := 3
def cmCmac : Nat := 4

def coEncrypt : Nat := 1
def coDecrypt : Nat := 2
def coMacGen : Nat := 3
def coMacVerify : Nat := 4

/-- The operation and mode are a pair of Table CP-1. -/
def cipherPair (op mode : Nat) : Bool :=
  if op == coEncrypt || op == coDecrypt then mode == cmGcm || mode == cmXts || mode == cmCtr
  else if op == coMacGen || op == coMacVerify then mode == cmGmac || mode == cmCmac
  else false

/-- The IV keeps the form of Table CP-1. -/
def ivOk (mode : Nat) (iv : List Byte) : Bool :=
  if mode == cmGcm || mode == cmGmac then leNat (iv.drop 12) == 0
  else if mode == cmCmac then leNat iv == 0
  else true

/-- The data unit of an XTS job is one R322 allows for the length; other modes have none. -/
def duOk (mode du len : Nat) : Bool :=
  if mode == cmXts then du == 0 || (decide (9 ≤ du ∧ du ≤ 12) && len % 2 ^ du == 0) else du == 0

/-- A CPH entry that R322 completes with BAD_ENTRY. -/
def cphBad (e : List Byte) : Bool :=
  let op := weOpcode e
  let mode := cpMode e
  let mac := op == coMacGen || op == coMacVerify
  let needTag := mode == cmGcm || mode == cmGmac || mode == cmCmac
  !cipherPair op mode ||
  (if mac then cpDst e != 0 else cpDst e == 0) ||
  (if needTag then cpTag e == 0 || cpTagLen e < 3 else cpTag e != 0) ||
  (mode != cmGcm && cpAad e != 0) ||
  (mode == cmXts && decide (cpLen e < 16)) ||
  !duOk mode (cpDu e) (cpLen e) ||
  !ivOk mode (cpIv e)

/-! ## DMA address forms (Table DM-2) -/

/-- The spaces an address form names. -/
inductive DmaSpace where
  | host | shared | mgmt | window | shell | saStore | reserved
deriving DecidableEq, Repr

/-- The space of an address form, by bits 63:56. -/
def dmaSpace (a : Nat) : DmaSpace :=
  let c := bits a 56 8
  if c < 0x80 then .host
  else if c = 0x81 then .shared
  else if c = 0x82 then .mgmt
  else if c = 0x83 then .window
  else if c = 0x84 then .shell
  else if c = 0x85 then .saStore
  else .reserved

/-- The range of `n` bytes lies wholly in its space (R362); shared data is 2 MiB a cluster, management memory 8 MiB,
a window 1 KiB, shell space 2^40 bytes, the SA store 2^20 records of 128 bytes. -/
def dmaRangeOk (a n : Nat) : Bool :=
  match dmaSpace a with
  | .host => decide (a + n ≤ 2 ^ 63)
  | .shared => decide (bits a 0 21 + n ≤ 2 ^ 21) && bits a 25 31 == 0
  | .mgmt => decide (bits a 0 56 + n ≤ 2 ^ 23)
  | .window => decide (bits a 0 56 + n ≤ 1024)
  | .shell => decide (bits a 0 40 + n ≤ 2 ^ 40) && bits a 44 12 == 0
  | .saStore => decide (bits a 0 56 + n ≤ 2 ^ 27)
  | .reserved => false

/-- The unit a swap works in (Table DM-6). -/
def swapUnit (sw : Nat) : Nat := if sw = 1 then 2 else if sw = 2 then 4 else if sw = 3 then 8 else if sw = 4 then 4 else 1

/-- A descriptor of source, destination, length, widths and swap that R364 calls invalid, requester rights apart. -/
def dmaDescBad (src dst len sw dw swap : Nat) : Bool :=
  len == 0 || sw == 7 || dw == 7 || decide (4 < swap) || len % swapUnit swap != 0 ||
  !dmaRangeOk src len || !dmaRangeOk dst len ||
  dmaSpace src == .shell || dmaSpace src == .saStore ||
  (dmaSpace dst == .saStore && (bits dst 0 7 != 0 || len % 128 != 0))

/-- A DMA entry that R364 or R365 completes with BAD_ENTRY on its own bytes: a COPY with an invalid descriptor (an
INDIRECT source is host memory), a START with anything but `chan` non-zero. -/
def dmaEntryBad (e : List Byte) : Bool :=
  if weOpcode e == 2 then
    weAddr e != 0 || dmLen e != 0 || byteAt e 22 != 0 || byteAt e 23 != 0 || dmDst e != 0 || dmStime e != 0
  else
    dmaDescBad (if weIndirect e then 0 else weAddr e) (dmDst e) (dmLen e) (dmSrcW e) (dmDstW e) (dmSwap e)

/-! ## Checks of R68 -/

def qcTx : Nat := 0
def qcRx : Nat := 1
def qcCph : Nat := 2
def qcNvme : Nat := 3
def qcDma : Nat := 4

/-- The opcode is defined for the class (Table WQ-2 and the classes' chapters). -/
def opcodeOk (c op : Nat) : Bool :=
  if c = qcTx ∨ c = qcRx then op == 1
  else if c = qcCph then decide (1 ≤ op ∧ op ≤ 4)
  else op == 1 || op == 2

/-- A length field of the class lies outside its range (Tables WQ-4, WQ-5; NVME CANCEL takes 0). -/
def lengthBad (c : Nat) (e : List Byte) : Bool :=
  if c = qcTx then decide (txLen e < 60 ∨ 16356 < txLen e)
  else if c = qcRx then decide (rxLen e < 256 ∨ 1048576 < rxLen e)
  else if c = qcNvme then weOpcode e == 2 && nvLen e != 0
  else false

/-- The entry is completed with BAD_ENTRY (R37, R68, R70, R322, R364). -/
def entryBad (c : Nat) (e : List Byte) : Bool :=
  !opcodeOk c (weOpcode e) ||
  (weIndirect e && decide (weNfrag e = 0 ∨ 256 < weNfrag e)) ||
  (!weIndirect e && weNfrag e != 0) ||
  (weIndirect e && weAddr e % 16 != 0) ||
  (c == qcRx && weIndirect e) ||
  lengthBad c e ||
  (c == qcCph && cphBad e) ||
  (c == qcDma && dmaEntryBad e)

/-- The length field R69 compares the fragments with. -/
def entryLen (c : Nat) (e : List Byte) : Nat :=
  if c = qcTx then txLen e
  else if c = qcRx then rxLen e
  else if c = qcCph then cpAad e + cpLen e
  else if c = qcNvme then nvLen e
  else dmLen e

/-! ## Fragment tables (Table WQ-3) -/

/-- Descriptor `k` of a table: address, length, ro, ns. -/
def fragAt (t : List Byte) (k : Nat) : Nat × Nat × Bool × Bool × Bool :=
  (leAt t (16 * k) 8, bits (leAt t (16 * k + 8) 4) 0 24, bit (byteAt t (16 * k + 12)) 1,
   bit (byteAt t (16 * k + 12)) 2, bit (byteAt t (16 * k + 12)) 0)

/-- The table of `n` descriptors is valid for an entry of length `len` (R69). -/
def fragsOk (t : List Byte) (n len : Nat) : Bool :=
  let ds := (List.range n).map (fragAt t)
  ds.all (fun d => d.2.1 != 0) &&
  (List.range n).all (fun k => ((fragAt t k).2.2.2.2 == decide (k + 1 = n))) &&
  (ds.map (fun d => d.2.1)).sum == len

/-- The fragments' addresses, lengths and attributes. -/
def fragList (t : List Byte) (n : Nat) : List (Nat × Nat × Bool × Bool) :=
  (List.range n).map (fun k => let d := fragAt t k; (d.1, d.2.1, d.2.2.1, d.2.2.2.1))

end Sys2Proof.Machine
end

