-- ==== Sys2Proof/Config.lean ====
section
/-! DEFINITION. Sys2Proof/Config.lean: what the manual leaves open, as constants without a body. Nothing can evaluate
them, so a statement about them holds whatever they are. The free values are applied to a counter of the state
(log entry 1); the primitives of external standards to their operands (log entry 5). -/

namespace Sys2Proof.Config

/-- A fresh free number for each value of the counter (log entry 1). -/
opaque freeNat : Nat → Nat

/-- Free bytes: the `n` bytes of the free value with the given counter (log entry 1). -/
opaque freeBytes : Nat → Nat → List Byte

/-- The data-unit size of a `proto` 0x4 SA, which R354 uses and no table places in the record: log2 of its bytes, less
9, modulo 4 (log entry 1). -/
opaque saUnit : List Byte → Nat

/-- The Device Serial Number, a 64-bit number from fuses (Table HE-2). -/
opaque serialNumber : Nat

/-- The key hash in a fuse key slot, 48 bytes, as the device was manufactured (R510). -/
opaque keyHash : Nat → List Byte

/-- A doubleword of a PF's or a VF's configuration space as the Base Specification and the implementation fix it, where
the manual gives neither its value nor a register that shows in it (log entry 20). -/
opaque cfgWord : Bool → Nat → Nat

/-- The payload of a twin frame before encryption: the manual gives what each frame carries and not the places of its bytes
(log entry 22). -/
opaque twinPayload : TwinMsg → List Byte

end Sys2Proof.Config
end

