-- ==== Sys2Proof/Machine/RegReset.lean ====
section
/-! DEFINITION. Sys2Proof/Machine/RegReset.lean: what a register field is, and the reset values that depend on the
index of the register. -/

namespace Sys2Proof.Machine

/-- The access types of Table SC-4. -/
inductive Access where
  | rw | ro | rc | w1c | w1s | wo | rwl
deriving DecidableEq, Repr

/-- A register field: its number, its width, its access type (R3) and its reset value for each instance of the
register. Numbers below 3000 are reset with the CORE domain, 3000 to 3499 belong to the TIME domain (R278), 3500 to 3899
to the always-on domain (R501, R534), and 3900 upwards to the MRAM die and the fuses, which outlive every loss of supply. -/
structure Fld where
  id  : Nat
  w   : Nat
  acc : Access
  rst : Nat → Nat

/-- Class of a fault source, R475 and Table FC-1: 0 CORRECTED, 1 CONTAINED, 2 FATAL, 3 reserved (R476). -/
def fltClass (n : Nat) : Nat :=
  if n ≤ 0x010 then 1
  else if n = 0x011 then 2
  else if n = 0x012 then 0
  else if 0x020 ≤ n ∧ n ≤ 0x027 then 2
  else if n = 0x028 then 0
  else if n = 0x029 then 1
  else if n = 0x02A then 2
  else if 0x040 ≤ n ∧ n ≤ 0x060 then 1
  else if n = 0x061 then 0
  else if n = 0x062 then 2
  else if 0x070 ≤ n ∧ n ≤ 0x072 then 1
  else if n = 0x073 then 0
  else if 0x080 ≤ n ∧ n ≤ 0x08F then 1
  else if 0x0A0 ≤ n ∧ n ≤ 0x0BF then 1
  else if n = 0x0C0 ∨ n = 0x0C1 ∨ n = 0x0D0 then 2
  else if n = 0x0E0 ∨ n = 0x0E1 then 1
  else if n = 0x0E2 ∨ n = 0x0E3 then 2
  else if 0x0F0 ≤ n ∧ n ≤ 0x0F2 then 1
  else if 0x100 ≤ n ∧ n ≤ 0x15F then 1
  else if n = 0x160 then 2
  else if 0x1C0 ≤ n ∧ n ≤ 0x1C6 then 2
  else if 0x1C8 ≤ n ∧ n ≤ 0x1CE then 2
  else if n = 0x1D0 then 2
  else if n = 0x1D8 then 0
  else if n = 0x1D9 then 2
  else if n = 0x1F0 then 2
  else 3

/-- Scope of a fault source, Table FC-1 in the code of `FLT_SRC_CFG.scope`: 0 NONE, 1 ENTRY, 2 FRAME, 3 QUEUE,
4 RING, 5 FUNCTION, 6 PORT, 7 LANE, 8 ENGINE, 9 SLOT. -/
def fltScope (n : Nat) : Nat :=
  if n = 0x029 then 2
  else if 0x040 ≤ n ∧ n ≤ 0x060 then 1
  else if n = 0x070 then 3
  else if n = 0x071 then 4
  else if n = 0x072 then 5
  else if 0x080 ≤ n ∧ n ≤ 0x08F then 9
  else if 0x0A0 ≤ n ∧ n ≤ 0x0BF then 7
  else if 0x100 ≤ n ∧ n ≤ 0x11F then 6
  else if 0x120 ≤ n ∧ n ≤ 0x15F then 8
  else 0

/-- `TBL_LPM_RGN.spares` after reset, R199: every slot of a section is a spare of its pool (region 33 of IPv4's
65,536 slots, region 163 of IPv6's). -/
def lpmSparesReset (i : Nat) : Nat := if i % 164 = 33 ∨ i % 164 = 163 then 65536 else 0

/-- `TBL_LPM_RGN.start` after reset, R199: the pools take their whole sections, so every region starts at its
section's end. -/
def lpmStartReset (i : Nat) : Nat := if i % 164 ≤ 33 then 65536 else 131072

/-- Shared cells free in an empty buffer (R248): 786,432 cells of 256 bytes less the host pool of 16,384 KiB and
the minima of 64 KiB for 1,040 external ports. -/
def schFreeReset : Nat := 786432 - 16384 * 4 - 1040 * 64 * 4

end Sys2Proof.Machine
end

