-- ==== Sys2Proof/Machine/Regs.lean ====
section
/-! DEFINITION. Sys2Proof/Machine/Regs.lean: every field of every register table of the spec, one definition each:
its number in the model, its width, its access type and its reset value. Reserved bits are not held (R7). -/

namespace Sys2Proof.Machine.Reg

-- `GLB_ID` at 0x0 (01_device_overview.md)
def GLB_ID_device : Fld := ⟨0, 16, .ro, fun _ => 4160⟩
def GLB_ID_stepping : Fld := ⟨1, 8, .ro, fun _ => 177⟩
-- `GLB_STATE` at 0x8 (01_device_overview.md)
def GLB_STATE_boot_step : Fld := ⟨2, 4, .ro, fun _ => 0⟩
def GLB_STATE_state : Fld := ⟨3, 3, .ro, fun _ => 2⟩
-- `GLB_PROFILE` at 0x10 (01_device_overview.md)
def GLB_PROFILE_profile : Fld := ⟨4, 2, .rw, fun _ => 0⟩
-- `GLB_CTRL` at 0x18 (01_device_overview.md)
def GLB_CTRL_dp_en : Fld := ⟨5, 1, .rw, fun _ => 0⟩
-- `GLB_STATUS` at 0x20 (01_device_overview.md)
def GLB_STATUS_twin_mode : Fld := ⟨6, 1, .ro, fun _ => 0⟩
def GLB_STATUS_dp_draining : Fld := ⟨7, 1, .ro, fun _ => 0⟩
def GLB_STATUS_profile_busy : Fld := ⟨8, 1, .ro, fun _ => 0⟩
def GLB_STATUS_profile_refused : Fld := ⟨9, 1, .w1c, fun _ => 0⟩
-- `QM_CFG` at 0x100000 (03_work_queues.md)
def QM_CFG_cq_stall_limit : Fld := ⟨10, 16, .rw, fun _ => 1000⟩
-- `QM_EVRING` at 0x100010 (03_work_queues.md)
def QM_EVRING_en : Fld := ⟨11, 1, .rw, fun _ => 0⟩
def QM_EVRING_ring : Fld := ⟨12, 16, .rw, fun _ => 0⟩
-- `QM_POLL_LATE` at 0x100020 (03_work_queues.md)
def QM_POLL_LATE_late : Fld := ⟨13, 32, .rc, fun _ => 0⟩
-- `QM_EV_BACKLOG` at 0x100030 (03_work_queues.md)
def QM_EV_BACKLOG_pf1 : Fld := ⟨14, 16, .ro, fun _ => 0⟩
def QM_EV_BACKLOG_pf0 : Fld := ⟨15, 16, .ro, fun _ => 0⟩
-- `QM_RECOV` at 0x100040 (03_work_queues.md)
def QM_RECOV_done1 : Fld := ⟨16, 1, .ro, fun _ => 0⟩
def QM_RECOV_done0 : Fld := ⟨17, 1, .ro, fun _ => 0⟩
def QM_RECOV_pending : Fld := ⟨18, 18, .ro, fun _ => 0⟩
-- `QM_QCTX_CTRL` at 0x2000000 (03_work_queues.md)
def QM_QCTX_CTRL_en : Fld := ⟨19, 1, .rw, fun _ => 0⟩
def QM_QCTX_CTRL_pipe : Fld := ⟨20, 3, .rw, fun _ => 0⟩
def QM_QCTX_CTRL_cmode : Fld := ⟨21, 1, .rw, fun _ => 0⟩
def QM_QCTX_CTRL_qclass : Fld := ⟨22, 3, .rw, fun _ => 0⟩
def QM_QCTX_CTRL_log2size : Fld := ⟨23, 4, .rw, fun _ => 0⟩
def QM_QCTX_CTRL_poll_class : Fld := ⟨24, 3, .rw, fun _ => 2⟩
def QM_QCTX_CTRL_burst : Fld := ⟨25, 3, .rw, fun _ => 0⟩
-- `QM_QCTX_OWNER` at 0x2000004 (03_work_queues.md)
def QM_QCTX_OWNER_local : Fld := ⟨26, 13, .rw, fun _ => 0⟩
def QM_QCTX_OWNER_gfn : Fld := ⟨27, 13, .rw, fun _ => 8191⟩
-- `QM_QCTX_BASE` at 0x2000008 (03_work_queues.md)
def QM_QCTX_BASE_base : Fld := ⟨28, 52, .rw, fun _ => 0⟩
-- `QM_QCTX_WB` at 0x2000010 (03_work_queues.md)
def QM_QCTX_WB_wb : Fld := ⟨29, 61, .rw, fun _ => 0⟩
-- `QM_QCTX_STS` at 0x2000018 (03_work_queues.md)
def QM_QCTX_STS_sts : Fld := ⟨30, 58, .rw, fun _ => 0⟩
-- `QM_QCTX_CQ` at 0x2000020 (03_work_queues.md)
def QM_QCTX_CQ_cq : Fld := ⟨31, 16, .rw, fun _ => 0⟩
-- `QM_QCTX_IRQ` at 0x2000024 (03_work_queues.md)
def QM_QCTX_IRQ_irq_en : Fld := ⟨32, 1, .rw, fun _ => 0⟩
def QM_QCTX_IRQ_vec : Fld := ⟨33, 11, .rw, fun _ => 0⟩
-- `QM_QCTX_POLL` at 0x2000028 (03_work_queues.md)
def QM_QCTX_POLL_wb_us : Fld := ⟨34, 8, .rw, fun _ => 0⟩
def QM_QCTX_POLL_poll_idle_n : Fld := ⟨35, 16, .rw, fun _ => 64⟩
-- `QM_QCTX_START` at 0x200002C (03_work_queues.md)
def QM_QCTX_START_done : Fld := ⟨36, 16, .ro, fun _ => 0⟩
def QM_QCTX_START_cons : Fld := ⟨37, 16, .rw, fun _ => 0⟩
-- `QM_QCTX_SEQ` at 0x2000030 (03_work_queues.md)
def QM_QCTX_SEQ_acc_seq : Fld := ⟨38, 48, .ro, fun _ => 0⟩
-- `QM_QCTX_STATUS` at 0x2000038 (03_work_queues.md)
def QM_QCTX_STATUS_err_cause : Fld := ⟨39, 4, .ro, fun _ => 0⟩
def QM_QCTX_STATUS_cfg_refused : Fld := ⟨40, 1, .w1c, fun _ => 0⟩
def QM_QCTX_STATUS_arm_pending : Fld := ⟨41, 1, .ro, fun _ => 0⟩
def QM_QCTX_STATUS_win_exposed : Fld := ⟨42, 1, .ro, fun _ => 0⟩
def QM_QCTX_STATUS_recov_pend : Fld := ⟨43, 1, .ro, fun _ => 0⟩
def QM_QCTX_STATUS_cq_stall : Fld := ⟨44, 1, .ro, fun _ => 0⟩
def QM_QCTX_STATUS_master_hold : Fld := ⟨45, 1, .ro, fun _ => 0⟩
def QM_QCTX_STATUS_state : Fld := ⟨46, 3, .ro, fun _ => 0⟩
-- `QM_QCTX_STALLS` at 0x200003C (03_work_queues.md)
def QM_QCTX_STALLS_stalls : Fld := ⟨47, 32, .rc, fun _ => 0⟩
-- `QM_CRCTX_CTRL` at 0x3000000 (03_work_queues.md)
def QM_CRCTX_CTRL_en : Fld := ⟨48, 1, .rw, fun _ => 0⟩
def QM_CRCTX_CTRL_evring : Fld := ⟨49, 1, .ro, fun _ => 0⟩
def QM_CRCTX_CTRL_log2size : Fld := ⟨50, 4, .rw, fun _ => 0⟩
def QM_CRCTX_CTRL_gfn : Fld := ⟨51, 13, .rw, fun _ => 8191⟩
-- `QM_CRCTX_BASE` at 0x3000008 (03_work_queues.md)
def QM_CRCTX_BASE_base : Fld := ⟨52, 52, .rw, fun _ => 0⟩
-- `QM_CRCTX_CONS` at 0x3000010 (03_work_queues.md)
def QM_CRCTX_CONS_cons : Fld := ⟨53, 61, .rw, fun _ => 0⟩
-- `QM_CRCTX_IDX` at 0x3000018 (03_work_queues.md)
def QM_CRCTX_IDX_prod : Fld := ⟨54, 16, .ro, fun _ => 0⟩
def QM_CRCTX_IDX_resv : Fld := ⟨55, 16, .ro, fun _ => 0⟩
-- `QM_CRCTX_IRQ` at 0x300001C (03_work_queues.md)
def QM_CRCTX_IRQ_irq_en : Fld := ⟨56, 1, .rw, fun _ => 0⟩
def QM_CRCTX_IRQ_cons_bad : Fld := ⟨57, 1, .w1c, fun _ => 0⟩
def QM_CRCTX_IRQ_cfg_refused : Fld := ⟨58, 1, .w1c, fun _ => 0⟩
def QM_CRCTX_IRQ_vec : Fld := ⟨59, 11, .rw, fun _ => 0⟩
-- `FP_CLU_MODE` at 0x200000 (04_flow_processors.md)
def FP_CLU_MODE_mode : Fld := ⟨60, 1, .rw, fun _ => 1⟩
-- `FP_CLU_CFG` at 0x200004 (04_flow_processors.md)
def FP_CLU_CFG_order_hold_limit : Fld := ⟨61, 10, .rw, fun _ => 50⟩
def FP_CLU_CFG_budget_def : Fld := ⟨62, 8, .rw, fun _ => 64⟩
-- `FP_CLU_CTRL` at 0x200008 (04_flow_processors.md)
def FP_CLU_CTRL_sup_restart : Fld := ⟨63, 16, .w1s, fun _ => 0⟩
def FP_CLU_CTRL_sup_entry : Fld := ⟨64, 15, .rw, fun _ => 0⟩
-- `FP_CLU_STATUS` at 0x20000C (04_flow_processors.md)
def FP_CLU_STATUS_parked : Fld := ⟨65, 8, .ro, fun _ => 0⟩
def FP_CLU_STATUS_dbg_order_hold : Fld := ⟨66, 1, .ro, fun _ => 0⟩
def FP_CLU_STATUS_deadlock : Fld := ⟨67, 1, .w1c, fun _ => 0⟩
-- `FP_CLU_FCNT` at 0x200010 (04_flow_processors.md)
def FP_CLU_FCNT_faults : Fld := ⟨68, 32, .rc, fun _ => 0⟩
-- `FP_CLU_FDROP` at 0x200014 (04_flow_processors.md)
def FP_CLU_FDROP_drops : Fld := ⟨69, 32, .rc, fun _ => 0⟩
-- `FP_CORE_DISP` at 0x200100 (04_flow_processors.md)
def FP_CORE_DISP_disp_mask : Fld := ⟨70, 16, .rw, fun _ => 65534⟩
-- `FP_PROG` at 0x210000 (04_flow_processors.md)
def FP_PROG_valid : Fld := ⟨71, 1, .rw, fun _ => 0⟩
def FP_PROG_budget : Fld := ⟨72, 8, .rw, fun _ => 0⟩
def FP_PROG_entry : Fld := ⟨73, 15, .rw, fun _ => 0⟩
-- `FP_DISP_STATUS` at 0x218000 (04_flow_processors.md)
def FP_DISP_STATUS_depth : Fld := ⟨74, 14, .ro, fun _ => 0⟩
-- `FP_WIN_SEL` at 0x219000 (04_flow_processors.md)
def FP_WIN_SEL_pair : Fld := ⟨75, 1, .rw, fun _ => 0⟩
def FP_WIN_SEL_page : Fld := ⟨76, 2, .rw, fun _ => 0⟩
-- `FP_THR_TVEC` at 0x230000 (04_flow_processors.md)
def FP_THR_TVEC_tvec : Fld := ⟨77, 15, .rw, fun _ => 0⟩
-- `FP_DBG_SESSION` at 0x220000 (04_flow_processors.md)
def FP_DBG_SESSION_open : Fld := ⟨78, 1, .rw, fun _ => 0⟩
def FP_DBG_SESSION_fuse_closed : Fld := ⟨79, 1, .ro, fun _ => 0⟩
def FP_DBG_SESSION_clusters : Fld := ⟨80, 16, .rw, fun _ => 0⟩
-- `FP_DBG_CMD` at 0x220004 (04_flow_processors.md)
def FP_DBG_CMD_cmd : Fld := ⟨81, 4, .wo, fun _ => 0⟩
def FP_DBG_CMD_thread : Fld := ⟨82, 12, .wo, fun _ => 0⟩
-- `FP_DBG_STATUS` at 0x220008 (04_flow_processors.md)
def FP_DBG_STATUS_refused : Fld := ⟨83, 1, .w1c, fun _ => 0⟩
def FP_DBG_STATUS_halted : Fld := ⟨84, 1, .ro, fun _ => 0⟩
def FP_DBG_STATUS_tickets : Fld := ⟨85, 2, .ro, fun _ => 0⟩
def FP_DBG_STATUS_pc : Fld := ⟨86, 15, .ro, fun _ => 0⟩
-- `MC_CTRL` at 0x280000 (04_flow_processors.md)
def MC_CTRL_running : Fld := ⟨87, 1, .ro, fun _ => 0⟩
def MC_CTRL_restart : Fld := ⟨88, 1, .w1s, fun _ => 0⟩
-- `MC_HB` at 0x280008 (04_flow_processors.md)
def MC_HB_stall : Fld := ⟨89, 1, .ro, fun _ => 0⟩
def MC_HB_misses : Fld := ⟨90, 3, .ro, fun _ => 0⟩
def MC_HB_hb_period : Fld := ⟨91, 12, .rw, fun _ => 10⟩
def MC_HB_beat : Fld := ⟨92, 16, .wo, fun _ => 0⟩
-- `MC_EXC_RATE` at 0x280010 (04_flow_processors.md)
def MC_EXC_RATE_burst : Fld := ⟨93, 16, .rw, fun _ => 4096⟩
def MC_EXC_RATE_rate : Fld := ⟨94, 15, .rw, fun _ => 2000⟩
-- `MC_EXC_DROP` at 0x280050 (04_flow_processors.md)
def MC_EXC_DROP_drops : Fld := ⟨95, 32, .rc, fun _ => 0⟩
-- `MC_SEC` at 0x280080 (04_flow_processors.md)
def MC_SEC_secure_mask : Fld := ⟨96, 64, .rwl, fun _ => 0⟩
-- `PPL_CFG` at 0x300000 (06_pipelines.md)
def PPL_CFG_sel_def_en : Fld := ⟨97, 1, .rw, fun _ => 0⟩
def PPL_CFG_sel_def : Fld := ⟨98, 6, .rw, fun _ => 0⟩
-- `PPL_HASH_SEED` at 0x300008 (06_pipelines.md)
def PPL_HASH_SEED_seed : Fld := ⟨99, 32, .rw, fun _ => 4294967295⟩
-- `PPL_STATUS` at 0x300010 (06_pipelines.md)
def PPL_STATUS_pending : Fld := ⟨100, 10, .ro, fun _ => 0⟩
def PPL_STATUS_upd_busy : Fld := ⟨101, 1, .ro, fun _ => 0⟩
def PPL_STATUS_paused : Fld := ⟨102, 1, .ro, fun _ => 0⟩
-- `PPL_UPD_PUSH` at 0x300020 (06_pipelines.md)
def PPL_UPD_PUSH_op : Fld := ⟨103, 4, .wo, fun _ => 0⟩
def PPL_UPD_PUSH_index : Fld := ⟨104, 15, .wo, fun _ => 0⟩
-- `PPL_UPD_CTRL` at 0x300024 (06_pipelines.md)
def PPL_UPD_CTRL_discard : Fld := ⟨105, 1, .w1s, fun _ => 0⟩
def PPL_UPD_CTRL_commit : Fld := ⟨106, 1, .w1s, fun _ => 0⟩
-- `PPL_UPD_STATUS` at 0x300028 (06_pipelines.md)
def PPL_UPD_STATUS_refused : Fld := ⟨107, 1, .w1c, fun _ => 0⟩
def PPL_UPD_STATUS_reason : Fld := ⟨108, 3, .ro, fun _ => 0⟩
def PPL_UPD_STATUS_last_pause : Fld := ⟨109, 16, .ro, fun _ => 0⟩
-- `PPL_UPD_MAXP` at 0x30002C (06_pipelines.md)
def PPL_UPD_MAXP_max_pause : Fld := ⟨110, 16, .rc, fun _ => 0⟩
-- `PPL_CLS_RD` at 0x300030 (06_pipelines.md)
def PPL_CLS_RD_done : Fld := ⟨111, 1, .ro, fun _ => 0⟩
def PPL_CLS_RD_valid : Fld := ⟨112, 1, .ro, fun _ => 0⟩
def PPL_CLS_RD_index : Fld := ⟨113, 15, .rw, fun _ => 0⟩
-- `PPL_DROP` at 0x300040 (06_pipelines.md)
def PPL_DROP_count : Fld := ⟨114, 32, .rc, fun _ => 0⟩
-- `PPL_FRAG` at 0x300044 (06_pipelines.md)
def PPL_FRAG_count : Fld := ⟨115, 32, .rc, fun _ => 0⟩
-- `PPL_SHORT` at 0x300048 (06_pipelines.md)
def PPL_SHORT_count : Fld := ⟨116, 32, .rc, fun _ => 0⟩
-- `PPL_EXC_CNT` at 0x300060 (06_pipelines.md)
def PPL_EXC_CNT_count : Fld := ⟨117, 32, .rc, fun _ => 0⟩
-- `PPL_UPD_STAGE` at 0x300100 (06_pipelines.md)
def PPL_UPD_STAGE_byte : Fld := ⟨118, 8, .rw, fun _ => 0⟩
-- `PPL_RD_DATA` at 0x300200 (06_pipelines.md)
def PPL_RD_DATA_byte : Fld := ⟨119, 8, .ro, fun _ => 0⟩
-- `PPL_PCLASS` at 0x300400 (06_pipelines.md)
def PPL_PCLASS_pclass : Fld := ⟨120, 4, .ro, fun _ => 0⟩
-- `PPL_SEL` at 0x301000 (06_pipelines.md)
def PPL_SEL_byte : Fld := ⟨121, 8, .ro, fun _ => 0⟩
-- `PPL_KSEL` at 0x302000 (06_pipelines.md)
def PPL_KSEL_byte : Fld := ⟨122, 8, .ro, fun _ => 0⟩
-- `PPL_PRF` at 0x304000 (06_pipelines.md)
def PPL_PRF_byte : Fld := ⟨123, 8, .ro, fun _ => 0⟩
-- `TBL_CMD` at 0x400000 (07_forwarding_tables.md)
def TBL_CMD_op : Fld := ⟨124, 6, .wo, fun _ => 0⟩
def TBL_CMD_pipes : Fld := ⟨125, 8, .wo, fun _ => 0⟩
def TBL_CMD_index : Fld := ⟨126, 18, .wo, fun _ => 0⟩
-- `TBL_CMD_STATUS` at 0x400004 (07_forwarding_tables.md)
def TBL_CMD_STATUS_busy : Fld := ⟨127, 1, .ro, fun _ => 0⟩
def TBL_CMD_STATUS_refused : Fld := ⟨128, 1, .w1c, fun _ => 0⟩
def TBL_CMD_STATUS_fail_pipes : Fld := ⟨129, 8, .ro, fun _ => 0⟩
def TBL_CMD_STATUS_moves : Fld := ⟨130, 8, .ro, fun _ => 0⟩
def TBL_CMD_STATUS_result : Fld := ⟨131, 8, .ro, fun _ => 0⟩
-- `TBL_CMD_STAGE` at 0x400100 (07_forwarding_tables.md)
def TBL_CMD_STAGE_byte : Fld := ⟨132, 8, .rw, fun _ => 0⟩
-- `TBL_CMD_RESULT` at 0x400200 (07_forwarding_tables.md)
def TBL_CMD_RESULT_byte : Fld := ⟨133, 8, .ro, fun _ => 0⟩
-- `TBL_FLOW_SEED` at 0x401000 (07_forwarding_tables.md)
def TBL_FLOW_SEED_seed : Fld := ⟨134, 32, .rw, fun i => [0x5A17C3E1, 0x9D420B6F, 0x3E8C71A4, 0xE1F52D08].getD i 0⟩
-- `TBL_FLOW_COUNT` at 0x401010 (07_forwarding_tables.md)
def TBL_FLOW_COUNT_count : Fld := ⟨135, 27, .ro, fun _ => 0⟩
-- `TBL_FLOW_AGE` at 0x401014 (07_forwarding_tables.md)
def TBL_FLOW_AGE_period : Fld := ⟨136, 16, .rw, fun _ => 0⟩
-- `TBL_FLOW_AGED` at 0x401018 (07_forwarding_tables.md)
def TBL_FLOW_AGED_count : Fld := ⟨137, 32, .rc, fun _ => 0⟩
-- `TBL_FLOW_NOROOM` at 0x40101C (07_forwarding_tables.md)
def TBL_FLOW_NOROOM_count : Fld := ⟨138, 32, .rc, fun _ => 0⟩
-- `TBL_FLOW_XRD` at 0x401020 (07_forwarding_tables.md)
def TBL_FLOW_XRD_count : Fld := ⟨139, 32, .rc, fun _ => 0⟩
-- `TBL_LPM_CFG` at 0x402000 (07_forwarding_tables.md)
def TBL_LPM_CFG_v4_size : Fld := ⟨140, 18, .rw, fun _ => 65536⟩
-- `TBL_LPM_USED` at 0x402008 (07_forwarding_tables.md)
def TBL_LPM_USED_v6 : Fld := ⟨141, 18, .ro, fun _ => 0⟩
def TBL_LPM_USED_v4 : Fld := ⟨142, 18, .ro, fun _ => 0⟩
-- `TBL_LPM_RGN` at 0x403000 (07_forwarding_tables.md)
def TBL_LPM_RGN_spares : Fld := ⟨143, 18, .ro, lpmSparesReset⟩
def TBL_LPM_RGN_used : Fld := ⟨144, 14, .ro, fun _ => 0⟩
def TBL_LPM_RGN_start : Fld := ⟨145, 18, .ro, lpmStartReset⟩
-- `TBL_L2_CFG` at 0x404000 (07_forwarding_tables.md)
def TBL_L2_CFG_age_ms : Fld := ⟨146, 16, .rw, fun _ => 300⟩
-- `TBL_L2_LRN` at 0x404010 (07_forwarding_tables.md)
def TBL_L2_LRN_lrn : Fld := ⟨147, 32, .rw, fun i => if i % 5 = 4 then 3 else 0xFFFFFFFF⟩
-- `TBL_L2_COUNT` at 0x404030 (07_forwarding_tables.md)
def TBL_L2_COUNT_count : Fld := ⟨148, 19, .ro, fun _ => 0⟩
-- `TBL_L2_MOVES` at 0x404040 (07_forwarding_tables.md)
def TBL_L2_MOVES_count : Fld := ⟨149, 32, .rc, fun _ => 0⟩
-- `TBL_L2_LDROP` at 0x404044 (07_forwarding_tables.md)
def TBL_L2_LDROP_count : Fld := ⟨150, 32, .rc, fun _ => 0⟩
-- `TBL_L2_HDROP` at 0x404048 (07_forwarding_tables.md)
def TBL_L2_HDROP_count : Fld := ⟨151, 32, .rc, fun _ => 0⟩
-- `TBL_L2_SCONF` at 0x40404C (07_forwarding_tables.md)
def TBL_L2_SCONF_count : Fld := ⟨152, 32, .rc, fun _ => 0⟩
-- `TBL_SCRUB_ERR` at 0x408000 (07_forwarding_tables.md)
def TBL_SCRUB_ERR_count : Fld := ⟨153, 32, .rc, fun _ => 0⟩
-- `TBL_PORT_LEAF` at 0x40A000 (07_forwarding_tables.md)
def TBL_PORT_LEAF_leaf : Fld := ⟨154, 18, .rw, fun _ => 0⟩
-- `TBL_EVQ_DATA` at 0x40C000 (07_forwarding_tables.md)
def TBL_EVQ_DATA_byte : Fld := ⟨155, 8, .ro, fun _ => 0⟩
-- `TBL_EVQ_POP` at 0x40C040 (07_forwarding_tables.md)
def TBL_EVQ_POP_pop : Fld := ⟨156, 32, .wo, fun _ => 0⟩
-- `TBL_EVQ_STATUS` at 0x40C044 (07_forwarding_tables.md)
def TBL_EVQ_STATUS_count : Fld := ⟨157, 13, .ro, fun _ => 0⟩
-- `TBL_EVQ_LOST` at 0x40C048 (07_forwarding_tables.md)
def TBL_EVQ_LOST_lost : Fld := ⟨158, 32, .rc, fun _ => 0⟩
-- `MAC_NMODE` at 0x500000 (08_ports.md)
def MAC_NMODE_refused : Fld := ⟨159, 1, .w1c, fun _ => 0⟩
def MAC_NMODE_quad : Fld := ⟨160, 12, .rw, fun _ => 0⟩
-- `MAC_NPORT_CFG` at 0x501000 (08_ports.md)
def MAC_NPORT_CFG_en : Fld := ⟨161, 1, .rw, fun _ => 0⟩
def MAC_NPORT_CFG_an_en : Fld := ⟨162, 1, .rw, fun _ => 1⟩
def MAC_NPORT_CFG_max_len : Fld := ⟨163, 14, .rw, fun _ => 16360⟩
-- `MAC_NPORT_STATUS` at 0x501004 (08_ports.md)
def MAC_NPORT_STATUS_link_chg : Fld := ⟨164, 1, .w1c, fun _ => 0⟩
def MAC_NPORT_STATUS_link : Fld := ⟨165, 1, .ro, fun _ => 0⟩
def MAC_NPORT_STATUS_tx_paused : Fld := ⟨166, 1, .ro, fun _ => 0⟩
def MAC_NPORT_STATUS_pfc_paused : Fld := ⟨167, 8, .ro, fun _ => 0⟩
-- `MAC_NPORT_FC` at 0x501008 (08_ports.md)
def MAC_NPORT_FC_pause_time : Fld := ⟨168, 16, .rw, fun _ => 65535⟩
def MAC_NPORT_FC_xon : Fld := ⟨169, 16, .rw, fun _ => 0⟩
def MAC_NPORT_FC_xoff : Fld := ⟨170, 16, .rw, fun _ => 0⟩
def MAC_NPORT_FC_def_prio : Fld := ⟨171, 3, .rw, fun _ => 0⟩
def MAC_NPORT_FC_fc_mode : Fld := ⟨172, 2, .rw, fun _ => 0⟩
-- `MAC_NPORT_PCPMAP` at 0x501010 (08_ports.md)
def MAC_NPORT_PCPMAP_map : Fld := ⟨173, 24, .rw, fun _ => 16434824⟩
-- `MAC_NPORT_ADDR` at 0x501018 (08_ports.md)
def MAC_NPORT_ADDR_addr : Fld := ⟨174, 48, .rw, fun _ => 0⟩
-- `MAC_NPORT_TSCOMP` at 0x501020 (08_ports.md)
def MAC_NPORT_TSCOMP_tx_comp : Fld := ⟨175, 16, .rw, fun _ => 0⟩
def MAC_NPORT_TSCOMP_rx_comp : Fld := ⟨176, 16, .rw, fun _ => 0⟩
-- `TLK_CFG` at 0x510000 (08_ports.md)
def TLK_CFG_cp_time : Fld := ⟨177, 16, .rw, fun _ => 65535⟩
def TLK_CFG_trg_ch : Fld := ⟨178, 6, .rw, fun _ => 0⟩
def TLK_CFG_en : Fld := ⟨179, 1, .rw, fun _ => 0⟩
def TLK_CFG_max_len : Fld := ⟨180, 14, .rw, fun _ => 16360⟩
-- `TLK_STATUS` at 0x510008 (08_ports.md)
def TLK_STATUS_credit : Fld := ⟨181, 32, .ro, fun _ => 0⟩
def TLK_STATUS_split : Fld := ⟨182, 1, .ro, fun _ => 0⟩
def TLK_STATUS_link_chg : Fld := ⟨183, 1, .w1c, fun _ => 0⟩
def TLK_STATUS_link : Fld := ⟨184, 1, .ro, fun _ => 0⟩
-- `TLK_MAC` at 0x510010 (08_ports.md)
def TLK_MAC_addr : Fld := ⟨185, 48, .rw, fun _ => 0⟩
-- `TLK_TSCOMP` at 0x510018 (08_ports.md)
def TLK_TSCOMP_tx_comp : Fld := ⟨186, 16, .rw, fun _ => 0⟩
def TLK_TSCOMP_rx_comp : Fld := ⟨187, 16, .rw, fun _ => 0⟩
-- `TLK_TSAUX` at 0x510020 (08_ports.md)
def TLK_TSAUX_arr : Fld := ⟨188, 48, .ro, fun _ => 0⟩
def TLK_TSAUX_aux : Fld := ⟨189, 32, .ro, fun _ => 0⟩
-- `TLK_CH_CFG` at 0x520000 (08_ports.md)
def TLK_CH_CFG_en : Fld := ⟨190, 1, .rw, fun _ => 0⟩
def TLK_CH_CFG_paused : Fld := ⟨191, 1, .ro, fun _ => 0⟩
def TLK_CH_CFG_xon : Fld := ⟨192, 14, .rw, fun _ => 0⟩
def TLK_CH_CFG_xoff : Fld := ⟨193, 14, .rw, fun _ => 0⟩
-- `MAC_CNT` at 0x540000 (08_ports.md)
def MAC_CNT_cnt : Fld := ⟨194, 64, .rc, fun _ => 0⟩
-- `TLK_CNT` at 0x590000 (08_ports.md)
def TLK_CNT_cnt : Fld := ⟨195, 64, .rc, fun _ => 0⟩
-- `SB_CFG` at 0x5A0000 (08_ports.md)
def SB_CFG_pg_ms : Fld := ⟨3500, 10, .rw, fun _ => 100⟩
def SB_CFG_rst_us : Fld := ⟨3501, 16, .rw, fun _ => 100⟩
def SB_CFG_auto_rel : Fld := ⟨3502, 1, .rw, fun _ => 1⟩
def SB_CFG_fault_off : Fld := ⟨3503, 1, .rw, fun _ => 1⟩
def SB_CFG_surprise_off : Fld := ⟨3504, 1, .rw, fun _ => 1⟩
def SB_CFG_cap_en : Fld := ⟨3505, 1, .rw, fun _ => 0⟩
def SB_CFG_i2c_fast : Fld := ⟨3506, 1, .rw, fun _ => 0⟩
-- `SB_CTRL` at 0x5A0004 (08_ports.md)
def SB_CTRL_cmd : Fld := ⟨3507, 3, .wo, fun _ => 0⟩
-- `SB_STATUS` at 0x5A0008 (08_ports.md)
def SB_STATUS_refused : Fld := ⟨3508, 1, .w1c, fun _ => 0⟩
def SB_STATUS_pg_fail : Fld := ⟨3509, 1, .w1c, fun _ => 0⟩
def SB_STATUS_fault_lat : Fld := ⟨3510, 1, .w1c, fun _ => 0⟩
def SB_STATUS_prsnt_chg : Fld := ⟨3511, 1, .w1c, fun _ => 0⟩
def SB_STATUS_busy : Fld := ⟨3512, 1, .ro, fun _ => 0⟩
def SB_STATUS_prsnt : Fld := ⟨3513, 1, .ro, fun _ => 0⟩
def SB_STATUS_fault : Fld := ⟨3514, 1, .ro, fun _ => 0⟩
def SB_STATUS_pwren : Fld := ⟨3515, 1, .ro, fun _ => 0⟩
def SB_STATUS_rst_n : Fld := ⟨3516, 1, .ro, fun _ => 0⟩
def SB_STATUS_trig : Fld := ⟨3517, 1, .ro, fun _ => 0⟩
-- `SB_I2C_CMD` at 0x5A0010 (08_ports.md)
def SB_I2C_CMD_go : Fld := ⟨3518, 1, .w1s, fun _ => 0⟩
def SB_I2C_CMD_done : Fld := ⟨3519, 1, .ro, fun _ => 0⟩
def SB_I2C_CMD_status : Fld := ⟨3520, 2, .ro, fun _ => 0⟩
def SB_I2C_CMD_rlen : Fld := ⟨3521, 4, .rw, fun _ => 0⟩
def SB_I2C_CMD_len : Fld := ⟨3522, 4, .rw, fun _ => 0⟩
def SB_I2C_CMD_taddr : Fld := ⟨3523, 7, .rw, fun _ => 0⟩
def SB_I2C_CMD_rd : Fld := ⟨3524, 1, .rw, fun _ => 0⟩
-- `SB_I2C_DATA` at 0x5A0018 (08_ports.md)
def SB_I2C_DATA_data : Fld := ⟨3525, 64, .rw, fun _ => 0⟩
-- `SHL_CMD` at 0x5B0000 (08_ports.md)
def SHL_CMD_addr : Fld := ⟨196, 32, .rw, fun _ => 0⟩
def SHL_CMD_go : Fld := ⟨197, 1, .w1s, fun _ => 0⟩
def SHL_CMD_busy : Fld := ⟨198, 1, .ro, fun _ => 0⟩
def SHL_CMD_refused : Fld := ⟨199, 1, .w1c, fun _ => 0⟩
def SHL_CMD_result : Fld := ⟨200, 2, .ro, fun _ => 0⟩
def SHL_CMD_status : Fld := ⟨201, 8, .ro, fun _ => 0⟩
def SHL_CMD_len : Fld := ⟨202, 3, .rw, fun _ => 0⟩
def SHL_CMD_dma : Fld := ⟨203, 1, .ro, fun _ => 0⟩
def SHL_CMD_wr : Fld := ⟨204, 1, .rw, fun _ => 0⟩
def SHL_CMD_seq : Fld := ⟨205, 8, .ro, fun _ => 0⟩
-- `SHL_DATA` at 0x5B0008 (08_ports.md)
def SHL_DATA_data : Fld := ⟨206, 64, .rw, fun _ => 0⟩
-- `SCH_BUF_CFG` at 0x600000 (09_scheduling.md)
def SCH_BUF_CFG_refused : Fld := ⟨207, 1, .w1c, fun _ => 0⟩
def SCH_BUF_CFG_host_kib : Fld := ⟨208, 17, .rw, fun _ => 16384⟩
-- `SCH_BUF_STATUS` at 0x600008 (09_scheduling.md)
def SCH_BUF_STATUS_free : Fld := ⟨209, 20, .ro, fun _ => schFreeReset⟩
-- `SCH_BUF_PORT` at 0x601000 (09_scheduling.md)
def SCH_BUF_PORT_charge : Fld := ⟨210, 20, .ro, fun _ => 0⟩
def SCH_BUF_PORT_alpha : Fld := ⟨211, 3, .rw, fun _ => 3⟩
def SCH_BUF_PORT_min : Fld := ⟨212, 16, .rw, fun _ => 64⟩
-- `SCH_POL` at 0x610000 (09_scheduling.md)
def SCH_POL_en : Fld := ⟨213, 1, .rw, fun _ => 0⟩
def SCH_POL_rate : Fld := ⟨214, 21, .rw, fun _ => 0⟩
def SCH_POL_burst : Fld := ⟨215, 16, .rw, fun _ => 0⟩
-- `SCH_HPOL` at 0x620000 (09_scheduling.md)
def SCH_HPOL_en : Fld := ⟨216, 1, .rw, fun _ => 0⟩
def SCH_HPOL_rate : Fld := ⟨217, 21, .rw, fun _ => 0⟩
def SCH_HPOL_burst : Fld := ⟨218, 16, .rw, fun _ => 0⟩
-- `SCH_HPOL_DROP` at 0x630000 (09_scheduling.md)
def SCH_HPOL_DROP_drops : Fld := ⟨219, 32, .rc, fun _ => 0⟩
-- `SCH_NODE_CMD` at 0x640000 (09_scheduling.md)
def SCH_NODE_CMD_op : Fld := ⟨220, 4, .wo, fun _ => 0⟩
def SCH_NODE_CMD_level : Fld := ⟨221, 2, .wo, fun _ => 0⟩
def SCH_NODE_CMD_index : Fld := ⟨222, 18, .wo, fun _ => 0⟩
-- `SCH_NODE_STATUS` at 0x640004 (09_scheduling.md)
def SCH_NODE_STATUS_busy : Fld := ⟨223, 1, .ro, fun _ => 0⟩
def SCH_NODE_STATUS_draining : Fld := ⟨224, 1, .ro, fun _ => 0⟩
def SCH_NODE_STATUS_result : Fld := ⟨225, 8, .ro, fun _ => 0⟩
-- `SCH_NODE_STAGE` at 0x640040 (09_scheduling.md)
def SCH_NODE_STAGE_byte : Fld := ⟨226, 8, .rw, fun _ => 0⟩
-- `SCH_NODE_RESULT` at 0x640060 (09_scheduling.md)
def SCH_NODE_RESULT_byte : Fld := ⟨227, 8, .ro, fun _ => 0⟩
-- `SCH_DROP_QLIM` at 0x640100 (09_scheduling.md)
def SCH_DROP_QLIM_count : Fld := ⟨228, 32, .rc, fun _ => 0⟩
-- `SCH_DROP_INVAL` at 0x640104 (09_scheduling.md)
def SCH_DROP_INVAL_count : Fld := ⟨229, 32, .rc, fun _ => 0⟩
-- `SCH_DROP_RXQ` at 0x640108 (09_scheduling.md)
def SCH_DROP_RXQ_count : Fld := ⟨230, 32, .rc, fun _ => 0⟩
-- `SCH_GATE_BASE` at 0x650000 (09_scheduling.md)
def SCH_GATE_BASE_base : Fld := ⟨231, 48, .rw, fun _ => 0⟩
-- `SCH_GATE_CYCLE` at 0x650008 (09_scheduling.md)
def SCH_GATE_CYCLE_cycle : Fld := ⟨232, 32, .rw, fun _ => 1000000⟩
-- `SCH_GATE_LIST` at 0x65000C (09_scheduling.md)
def SCH_GATE_LIST_bank : Fld := ⟨233, 1, .rw, fun _ => 0⟩
def SCH_GATE_LIST_len : Fld := ⟨234, 11, .rw, fun _ => 1⟩
-- `SCH_GATE_CTRL` at 0x650010 (09_scheduling.md)
def SCH_GATE_CTRL_cancel : Fld := ⟨235, 1, .w1s, fun _ => 0⟩
def SCH_GATE_CTRL_commit : Fld := ⟨236, 1, .w1s, fun _ => 0⟩
-- `SCH_GATE_STATUS` at 0x650014 (09_scheduling.md)
def SCH_GATE_STATUS_reason : Fld := ⟨237, 4, .ro, fun _ => 0⟩
def SCH_GATE_STATUS_late : Fld := ⟨238, 1, .w1c, fun _ => 0⟩
def SCH_GATE_STATUS_refused : Fld := ⟨239, 1, .w1c, fun _ => 0⟩
def SCH_GATE_STATUS_pending : Fld := ⟨240, 1, .ro, fun _ => 0⟩
def SCH_GATE_STATUS_active_valid : Fld := ⟨241, 1, .ro, fun _ => 0⟩
def SCH_GATE_STATUS_active_bank : Fld := ⟨242, 1, .ro, fun _ => 0⟩
-- `SCH_GATE_TOOLONG` at 0x650018 (09_scheduling.md)
def SCH_GATE_TOOLONG_count : Fld := ⟨243, 32, .rc, fun _ => 0⟩
-- `SCH_GATE_OPER_BASE` at 0x650020 (09_scheduling.md)
def SCH_GATE_OPER_BASE_base : Fld := ⟨244, 48, .ro, fun _ => 0⟩
-- `SCH_GATE_OPER_CYCLE` at 0x650028 (09_scheduling.md)
def SCH_GATE_OPER_CYCLE_cycle : Fld := ⟨245, 32, .ro, fun _ => 0⟩
-- `SCH_GATE_SEL` at 0x670000 (09_scheduling.md)
def SCH_GATE_SEL_bank : Fld := ⟨246, 1, .rw, fun _ => 0⟩
def SCH_GATE_SEL_port : Fld := ⟨247, 11, .rw, fun _ => 0⟩
-- `SCH_SMP_CFG` at 0x680000 (09_scheduling.md)
def SCH_SMP_CFG_en : Fld := ⟨248, 1, .rw, fun _ => 0⟩
def SCH_SMP_CFG_period : Fld := ⟨249, 20, .rw, fun _ => 1000⟩
-- `SCH_SMP_STATUS` at 0x680008 (09_scheduling.md)
def SCH_SMP_STATUS_half : Fld := ⟨250, 1, .ro, fun _ => 0⟩
def SCH_SMP_STATUS_fill : Fld := ⟨251, 13, .ro, fun _ => 0⟩
-- `SCH_SMP_LOST` at 0x68000C (09_scheduling.md)
def SCH_SMP_LOST_lost : Fld := ⟨252, 32, .rc, fun _ => 0⟩
-- `MT_NOW_NS` at 0x700000 (10_meridian_time.md)
def MT_NOW_NS_ns : Fld := ⟨3000, 64, .ro, fun _ => 0⟩
-- `MT_NOW_FRAC` at 0x700008 (10_meridian_time.md)
def MT_NOW_FRAC_frac : Fld := ⟨253, 32, .ro, fun _ => 0⟩
-- `MT_CFG` at 0x700010 (10_meridian_time.md)
def MT_CFG_trg_lead : Fld := ⟨3001, 16, .rw, fun _ => 5000⟩
def MT_CFG_ref_sel : Fld := ⟨3002, 2, .rw, fun _ => 0⟩
-- `MT_INC` at 0x700018 (10_meridian_time.md)
def MT_INC_inc : Fld := ⟨3003, 40, .rw, fun _ => 4294967296⟩
-- `MT_ADJ` at 0x700020 (10_meridian_time.md)
def MT_ADJ_offset : Fld := ⟨254, 64, .rw, fun _ => 0⟩
-- `MT_ADJ_CTRL` at 0x700028 (10_meridian_time.md)
def MT_ADJ_CTRL_go : Fld := ⟨255, 1, .w1s, fun _ => 0⟩
def MT_ADJ_CTRL_mode : Fld := ⟨256, 1, .rw, fun _ => 0⟩
def MT_ADJ_CTRL_slew : Fld := ⟨257, 23, .rw, fun _ => 429497⟩
-- `MT_ADJ_REM` at 0x700030 (10_meridian_time.md)
def MT_ADJ_REM_rem : Fld := ⟨258, 64, .ro, fun _ => 0⟩
-- `MT_STATUS` at 0x700038 (10_meridian_time.md)
def MT_STATUS_drift_cause : Fld := ⟨3004, 4, .ro, fun _ => 8⟩
def MT_STATUS_big_step : Fld := ⟨3005, 1, .w1c, fun _ => 0⟩
def MT_STATUS_refused : Fld := ⟨3006, 1, .w1c, fun _ => 0⟩
def MT_STATUS_slewing : Fld := ⟨3007, 1, .ro, fun _ => 0⟩
def MT_STATUS_ref_lock : Fld := ⟨3008, 1, .ro, fun _ => 0⟩
def MT_STATUS_drift : Fld := ⟨3009, 1, .ro, fun _ => 1⟩
def MT_STATUS_set : Fld := ⟨3010, 1, .ro, fun _ => 0⟩
-- `MT_DRIFT_AGE` at 0x700040 (10_meridian_time.md)
def MT_DRIFT_AGE_age_ms : Fld := ⟨3011, 32, .ro, fun _ => 0⟩
-- `MT_CTRL` at 0x700048 (10_meridian_time.md)
def MT_CTRL_exit_step : Fld := ⟨259, 1, .rw, fun _ => 0⟩
def MT_CTRL_drift_enter : Fld := ⟨260, 1, .w1s, fun _ => 0⟩
def MT_CTRL_drift_exit : Fld := ⟨261, 1, .w1s, fun _ => 0⟩
-- `MT_PPS` at 0x700050 (10_meridian_time.md)
def MT_PPS_en : Fld := ⟨262, 1, .rw, fun _ => 0⟩
def MT_PPS_off : Fld := ⟨263, 30, .rw, fun _ => 0⟩
def MT_PPS_width : Fld := ⟨264, 20, .rw, fun _ => 100000⟩
-- `MT_IRQ` at 0x700058 (10_meridian_time.md)
def MT_IRQ_en : Fld := ⟨265, 1, .rw, fun _ => 0⟩
def MT_IRQ_vec : Fld := ⟨266, 11, .rw, fun _ => 0⟩
-- `MT_TRIG_CFG` at 0x710000 (10_meridian_time.md)
def MT_TRIG_CFG_own : Fld := ⟨267, 1, .rw, fun i => if i < 192 then 0 else 1⟩
def MT_TRIG_CFG_irq : Fld := ⟨268, 2, .rw, fun _ => 0⟩
def MT_TRIG_CFG_quarter : Fld := ⟨269, 2, .rw, fun _ => 0⟩
def MT_TRIG_CFG_action : Fld := ⟨270, 4, .rw, fun _ => 0⟩
def MT_TRIG_CFG_dest : Fld := ⟨271, 16, .rw, fun _ => 65535⟩
-- `MT_TRIG_CTRL` at 0x710004 (10_meridian_time.md)
def MT_TRIG_CTRL_disarm : Fld := ⟨272, 1, .w1s, fun _ => 0⟩
def MT_TRIG_CTRL_arm : Fld := ⟨273, 1, .w1s, fun _ => 0⟩
-- `MT_TRIG_TGT` at 0x710008 (10_meridian_time.md)
def MT_TRIG_TGT_target : Fld := ⟨274, 64, .rw, fun _ => 0⟩
-- `MT_TRIG_STATUS` at 0x710010 (10_meridian_time.md)
def MT_TRIG_STATUS_done : Fld := ⟨275, 1, .w1c, fun _ => 0⟩
def MT_TRIG_STATUS_armed : Fld := ⟨276, 1, .ro, fun _ => 0⟩
def MT_TRIG_STATUS_staged : Fld := ⟨277, 1, .ro, fun _ => 0⟩
def MT_TRIG_STATUS_thread : Fld := ⟨278, 1, .ro, fun _ => 0⟩
def MT_TRIG_STATUS_result : Fld := ⟨279, 8, .ro, fun _ => 0⟩
-- `MT_TRIG_WIDTH` at 0x710014 (10_meridian_time.md)
def MT_TRIG_WIDTH_width : Fld := ⟨280, 16, .rw, fun _ => 100⟩
-- `MT_TRIG_FIRED` at 0x710018 (10_meridian_time.md)
def MT_TRIG_FIRED_fired : Fld := ⟨281, 64, .ro, fun _ => 0⟩
-- `MT_SLOT_COMP` at 0x720000 (10_meridian_time.md)
def MT_SLOT_COMP_trig_comp : Fld := ⟨282, 16, .rw, fun _ => 0⟩
def MT_SLOT_COMP_cap_comp : Fld := ⟨283, 16, .rw, fun _ => 0⟩
-- `MT_IN_COMP` at 0x720040 (10_meridian_time.md)
def MT_IN_COMP_comp : Fld := ⟨284, 16, .rw, fun _ => 0⟩
-- `MT_CAP_CFG` at 0x730000 (10_meridian_time.md)
def MT_CAP_CFG_en : Fld := ⟨285, 1, .rw, fun _ => 0⟩
def MT_CAP_CFG_sw : Fld := ⟨286, 1, .w1s, fun _ => 0⟩
def MT_CAP_CFG_edge : Fld := ⟨287, 2, .rw, fun _ => 1⟩
def MT_CAP_CFG_irq : Fld := ⟨288, 2, .rw, fun _ => 0⟩
def MT_CAP_CFG_src : Fld := ⟨289, 5, .rw, fun _ => 0⟩
def MT_CAP_CFG_dest : Fld := ⟨290, 16, .rw, fun _ => 65535⟩
-- `MT_CAP_TS` at 0x730008 (10_meridian_time.md)
def MT_CAP_TS_ns : Fld := ⟨291, 64, .ro, fun _ => 0⟩
-- `MT_CAP_STATUS` at 0x730010 (10_meridian_time.md)
def MT_CAP_STATUS_valid : Fld := ⟨292, 1, .w1c, fun _ => 0⟩
def MT_CAP_STATUS_ovr : Fld := ⟨293, 1, .w1c, fun _ => 0⟩
def MT_CAP_STATUS_quarter : Fld := ⟨294, 2, .ro, fun _ => 0⟩
def MT_CAP_STATUS_rise : Fld := ⟨295, 1, .ro, fun _ => 0⟩
def MT_CAP_STATUS_ovr_cnt : Fld := ⟨296, 16, .rc, fun _ => 0⟩
-- `MT_PTP_CFG` at 0x740000 (10_meridian_time.md)
def MT_PTP_CFG_os_en : Fld := ⟨297, 1, .rw, fun _ => 1⟩
def MT_PTP_CFG_tc_en : Fld := ⟨298, 1, .rw, fun _ => 0⟩
-- `MT_PTP_MISS` at 0x742000 (10_meridian_time.md)
def MT_PTP_MISS_count : Fld := ⟨299, 32, .rc, fun _ => 0⟩
-- `CPH_LANE_CFG` at 0x800000 (11_cipher.md)
def CPH_LANE_CFG_lookaside : Fld := ⟨300, 32, .rw, fun _ => 4261412864⟩
-- `CPH_LANE_STATUS` at 0x800030 (11_cipher.md)
def CPH_LANE_STATUS_refused : Fld := ⟨301, 1, .w1c, fun _ => 0⟩
def CPH_LANE_STATUS_failed : Fld := ⟨302, 32, .ro, fun _ => 0⟩
-- `CPH_RNG_STATUS` at 0x80000C (11_cipher.md)
def CPH_RNG_STATUS_ready : Fld := ⟨303, 1, .ro, fun _ => 0⟩
def CPH_RNG_STATUS_health_fail : Fld := ⟨304, 16, .rc, fun _ => 0⟩
-- `CPH_MIG` at 0x800010 (11_cipher.md)
def CPH_MIG_en : Fld := ⟨305, 1, .rw, fun _ => 0⟩
def CPH_MIG_slot : Fld := ⟨306, 6, .rw, fun _ => 0⟩
def CPH_MIG_page : Fld := ⟨307, 13, .rw, fun _ => 0⟩
-- `CPH_FP_SHARE` at 0x800018 (11_cipher.md)
def CPH_FP_SHARE_urgent_en : Fld := ⟨308, 1, .rw, fun _ => 1⟩
def CPH_FP_SHARE_max_lanes : Fld := ⟨309, 5, .rw, fun _ => 7⟩
def CPH_FP_SHARE_weight : Fld := ⟨310, 8, .rw, fun _ => 1⟩
-- `CPH_FN_SHARE` at 0x80A000 (11_cipher.md)
def CPH_FN_SHARE_urgent_en : Fld := ⟨311, 1, .rw, fun i => if i < 2 then 1 else 0⟩
def CPH_FN_SHARE_max_lanes : Fld := ⟨312, 5, .rw, fun _ => 7⟩
def CPH_FN_SHARE_weight : Fld := ⟨313, 8, .rw, fun _ => 1⟩
-- `CPH_SUSP` at 0x800020 (11_cipher.md)
def CPH_SUSP_count : Fld := ⟨314, 32, .rc, fun _ => 0⟩
-- `CPH_AUTH_FAIL` at 0x800024 (11_cipher.md)
def CPH_AUTH_FAIL_count : Fld := ⟨315, 32, .rc, fun _ => 0⟩
-- `CPH_POST_ERR` at 0x800028 (11_cipher.md)
def CPH_POST_ERR_count : Fld := ⟨316, 32, .rc, fun _ => 0⟩
-- `CPH_INLINE_DROP` at 0x80002C (11_cipher.md)
def CPH_INLINE_DROP_count : Fld := ⟨317, 32, .rc, fun _ => 0⟩
-- `CPH_SA_CMD` at 0x800100 (11_cipher.md)
def CPH_SA_CMD_op : Fld := ⟨318, 4, .wo, fun _ => 0⟩
def CPH_SA_CMD_index : Fld := ⟨319, 20, .wo, fun _ => 0⟩
-- `CPH_SA_STATUS` at 0x800104 (11_cipher.md)
def CPH_SA_STATUS_busy : Fld := ⟨320, 1, .ro, fun _ => 0⟩
def CPH_SA_STATUS_result : Fld := ⟨321, 8, .ro, fun _ => 0⟩
-- `CPH_SA_STAGE` at 0x800180 (11_cipher.md)
def CPH_SA_STAGE_byte : Fld := ⟨322, 8, .rw, fun _ => 0⟩
-- `CPH_SA_RESULT` at 0x800200 (11_cipher.md)
def CPH_SA_RESULT_byte : Fld := ⟨323, 8, .ro, fun _ => 0⟩
-- `CPH_KEY_SEL` at 0x800400 (11_cipher.md)
def CPH_KEY_SEL_sel : Fld := ⟨324, 13, .rw, fun _ => 0⟩
-- `CPH_KEY_CMD` at 0x800408 (11_cipher.md)
def CPH_KEY_CMD_op : Fld := ⟨325, 4, .wo, fun _ => 0⟩
def CPH_KEY_CMD_slot : Fld := ⟨326, 6, .wo, fun _ => 0⟩
-- `CPH_KEY_STATUS` at 0x80040C (11_cipher.md)
def CPH_KEY_STATUS_busy : Fld := ⟨327, 1, .ro, fun _ => 0⟩
def CPH_KEY_STATUS_status : Fld := ⟨328, 4, .ro, fun _ => 0⟩
-- `CPH_KEY_STAGE` at 0x800440 (11_cipher.md)
def CPH_KEY_STAGE_byte : Fld := ⟨329, 8, .rw, fun _ => 0⟩
-- `CPH_KEY_ATTR` at 0x800500 (11_cipher.md)
def CPH_KEY_ATTR_gen : Fld := ⟨330, 8, .ro, fun _ => 0⟩
def CPH_KEY_ATTR_valid : Fld := ⟨331, 1, .ro, fun _ => 0⟩
def CPH_KEY_ATTR_attr : Fld := ⟨332, 8, .ro, fun _ => 0⟩
-- `CPH_PAGE_OWNER` at 0x802000 (11_cipher.md)
def CPH_PAGE_OWNER_fp_access : Fld := ⟨333, 1, .rw, fun _ => 0⟩
def CPH_PAGE_OWNER_busy : Fld := ⟨334, 1, .ro, fun _ => 0⟩
def CPH_PAGE_OWNER_owner : Fld := ⟨335, 13, .rw, fun _ => 8191⟩
-- `OFL_CFG` at 0x880000 (12_offloads.md)
def OFL_CFG_geneve_port : Fld := ⟨336, 16, .rw, fun _ => 6081⟩
def OFL_CFG_vxlan_port : Fld := ⟨337, 16, .rw, fun _ => 4789⟩
-- `OFL_TMPL_CMD` at 0x880010 (12_offloads.md)
def OFL_TMPL_CMD_op : Fld := ⟨338, 4, .wo, fun _ => 0⟩
def OFL_TMPL_CMD_index : Fld := ⟨339, 14, .wo, fun _ => 0⟩
-- `OFL_TMPL_STATUS` at 0x880014 (12_offloads.md)
def OFL_TMPL_STATUS_busy : Fld := ⟨340, 1, .ro, fun _ => 0⟩
def OFL_TMPL_STATUS_result : Fld := ⟨341, 8, .ro, fun _ => 0⟩
-- `OFL_NVC_STATUS` at 0x880024 (12_offloads.md)
def OFL_NVC_STATUS_busy : Fld := ⟨342, 1, .ro, fun _ => 0⟩
def OFL_NVC_STATUS_result : Fld := ⟨343, 8, .ro, fun _ => 0⟩
-- `OFL_NVC_CMD` at 0x880020 (12_offloads.md)
def OFL_NVC_CMD_op : Fld := ⟨344, 4, .wo, fun _ => 0⟩
def OFL_NVC_CMD_index : Fld := ⟨345, 14, .wo, fun _ => 0⟩
-- `OFL_EVQ_POP` at 0x880310 (12_offloads.md)
def OFL_EVQ_POP_pop : Fld := ⟨346, 32, .wo, fun _ => 0⟩
-- `OFL_EVQ_STATUS` at 0x880314 (12_offloads.md)
def OFL_EVQ_STATUS_count : Fld := ⟨347, 11, .ro, fun _ => 0⟩
-- `OFL_EVQ_LOST` at 0x880318 (12_offloads.md)
def OFL_EVQ_LOST_lost : Fld := ⟨348, 32, .rc, fun _ => 0⟩
-- `OFL_CNT` at 0x880400 (12_offloads.md)
def OFL_CNT_count : Fld := ⟨349, 32, .rc, fun _ => 0⟩
-- `OFL_FN_RX` at 0x884000 (12_offloads.md)
def OFL_FN_RX_hdr_en : Fld := ⟨350, 1, .rw, fun _ => 0⟩
def OFL_FN_RX_csum_en : Fld := ⟨351, 1, .rw, fun _ => 0⟩
def OFL_FN_RX_coal_en : Fld := ⟨352, 1, .rw, fun _ => 0⟩
def OFL_FN_RX_coal_us : Fld := ⟨353, 12, .rw, fun _ => 50⟩
def OFL_FN_RX_coal_max : Fld := ⟨354, 16, .rw, fun _ => 65000⟩
-- `DMA_ERR` at 0x900000 (13_dma.md)
def DMA_ERR_count : Fld := ⟨355, 32, .rc, fun _ => 0⟩
-- `DMA_FN_SHARE` at 0x904000 (13_dma.md)
def DMA_FN_SHARE_max_eng : Fld := ⟨356, 6, .rw, fun _ => 63⟩
def DMA_FN_SHARE_weight : Fld := ⟨357, 8, .rw, fun _ => 1⟩
-- `DMA_CH_OWNER` at 0x910000 (13_dma.md)
def DMA_CH_OWNER_fp : Fld := ⟨358, 1, .rw, fun _ => 0⟩
def DMA_CH_OWNER_hport : Fld := ⟨359, 1, .rw, fun _ => 0⟩
def DMA_CH_OWNER_owner : Fld := ⟨360, 13, .rw, fun _ => 8191⟩
-- `DMA_CH_CMD` at 0x910004 (13_dma.md)
def DMA_CH_CMD_start : Fld := ⟨361, 1, .w1s, fun _ => 0⟩
def DMA_CH_CMD_stop : Fld := ⟨362, 1, .w1s, fun _ => 0⟩
def DMA_CH_CMD_eos : Fld := ⟨363, 1, .w1s, fun _ => 0⟩
-- `DMA_CH_STATUS` at 0x910008 (13_dma.md)
def DMA_CH_STATUS_done : Fld := ⟨364, 1, .w1c, fun _ => 0⟩
def DMA_CH_STATUS_start_ovr : Fld := ⟨365, 1, .w1c, fun _ => 0⟩
def DMA_CH_STATUS_late : Fld := ⟨366, 1, .w1c, fun _ => 0⟩
def DMA_CH_STATUS_refused : Fld := ⟨367, 1, .w1c, fun _ => 0⟩
def DMA_CH_STATUS_master_hold : Fld := ⟨368, 1, .ro, fun _ => 0⟩
def DMA_CH_STATUS_state : Fld := ⟨369, 3, .ro, fun _ => 0⟩
def DMA_CH_STATUS_result : Fld := ⟨370, 8, .ro, fun _ => 0⟩
-- `DMA_CH_IRQ` at 0x91000C (13_dma.md)
def DMA_CH_IRQ_irq_en : Fld := ⟨371, 1, .rw, fun _ => 0⟩
def DMA_CH_IRQ_vec : Fld := ⟨372, 11, .rw, fun _ => 0⟩
-- `DMA_CH_XFER` at 0x910010 (13_dma.md)
def DMA_CH_XFER_bytes : Fld := ⟨373, 32, .ro, fun _ => 0⟩
-- `DMA_CH_SRC` at 0x910020 (13_dma.md)
def DMA_CH_SRC_addr : Fld := ⟨374, 64, .rw, fun _ => 0⟩
-- `DMA_CH_DST` at 0x910028 (13_dma.md)
def DMA_CH_DST_addr : Fld := ⟨375, 64, .rw, fun _ => 0⟩
-- `DMA_CH_LEN` at 0x910030 (13_dma.md)
def DMA_CH_LEN_len : Fld := ⟨376, 32, .rw, fun _ => 0⟩
-- `DMA_CH_CFG` at 0x910034 (13_dma.md)
def DMA_CH_CFG_cfg : Fld := ⟨377, 32, .rw, fun _ => 65536⟩
-- `DMA_CH_STIME` at 0x910038 (13_dma.md)
def DMA_CH_STIME_stime : Fld := ⟨378, 48, .rw, fun _ => 0⟩
-- `DMA_CH_SH_SRC` at 0x910040 (13_dma.md)
def DMA_CH_SH_SRC_addr : Fld := ⟨379, 64, .rw, fun _ => 0⟩
-- `DMA_CH_SH_DST` at 0x910048 (13_dma.md)
def DMA_CH_SH_DST_addr : Fld := ⟨380, 64, .rw, fun _ => 0⟩
-- `DMA_CH_SH_LEN` at 0x910050 (13_dma.md)
def DMA_CH_SH_LEN_len : Fld := ⟨381, 32, .rw, fun _ => 0⟩
-- `DMA_CH_SH_CFG` at 0x910054 (13_dma.md)
def DMA_CH_SH_CFG_cfg : Fld := ⟨382, 32, .rw, fun _ => 65536⟩
-- `DMA_CH_SH_STIME` at 0x910058 (13_dma.md)
def DMA_CH_SH_STIME_stime : Fld := ⟨383, 48, .rw, fun _ => 0⟩
-- `DMA_CH_SH_CTRL` at 0x910060 (13_dma.md)
def DMA_CH_SH_CTRL_last_gen : Fld := ⟨384, 16, .ro, fun _ => 0⟩
def DMA_CH_SH_CTRL_active_gen : Fld := ⟨385, 16, .ro, fun _ => 0⟩
def DMA_CH_SH_CTRL_arm : Fld := ⟨386, 1, .w1s, fun _ => 0⟩
def DMA_CH_SH_CTRL_armed : Fld := ⟨387, 1, .ro, fun _ => 0⟩
def DMA_CH_SH_CTRL_shadow_gen : Fld := ⟨388, 16, .ro, fun _ => 1⟩
-- `DMA_CH_FIFO` at 0x910068 (13_dma.md)
def DMA_CH_FIFO_data : Fld := ⟨389, 32, .wo, fun _ => 0⟩
-- `DMA_CH_FIFO_STATUS` at 0x91006C (13_dma.md)
def DMA_CH_FIFO_STATUS_eos : Fld := ⟨390, 1, .ro, fun _ => 0⟩
def DMA_CH_FIFO_STATUS_ovf : Fld := ⟨391, 1, .w1c, fun _ => 0⟩
def DMA_CH_FIFO_STATUS_fill : Fld := ⟨392, 15, .ro, fun _ => 0⟩
-- `HE_LINK` at 0x8000 (14_host_endpoints.md)
def HE_LINK_reset_seen : Fld := ⟨393, 1, .w1c, fun _ => 0⟩
def HE_LINK_degraded : Fld := ⟨394, 1, .ro, fun _ => 0⟩
def HE_LINK_flit : Fld := ⟨395, 1, .ro, fun _ => 0⟩
def HE_LINK_up : Fld := ⟨396, 1, .ro, fun _ => 0⟩
def HE_LINK_width : Fld := ⟨397, 5, .ro, fun _ => 0⟩
def HE_LINK_speed : Fld := ⟨398, 3, .ro, fun _ => 0⟩
-- `HE_LINK_CHG` at 0x8004 (14_host_endpoints.md)
def HE_LINK_CHG_count : Fld := ⟨399, 32, .rc, fun _ => 0⟩
-- `HE_CFG` at 0x8008 (14_host_endpoints.md)
def HE_CFG_cto_retry : Fld := ⟨400, 2, .rw, fun _ => 1⟩
def HE_CFG_max_reads : Fld := ⟨401, 14, .rw, fun _ => 8192⟩
-- `HE_STATUS` at 0x8010 (14_host_endpoints.md)
def HE_STATUS_quar : Fld := ⟨402, 14, .ro, fun _ => 0⟩
def HE_STATUS_outst : Fld := ⟨403, 14, .ro, fun _ => 0⟩
-- `HE_CTO` at 0x8018 (14_host_endpoints.md)
def HE_CTO_count : Fld := ⟨404, 32, .rc, fun _ => 0⟩
-- `HE_LATE` at 0x801C (14_host_endpoints.md)
def HE_LATE_count : Fld := ⟨405, 32, .rc, fun _ => 0⟩
-- `HE_IN_ERR` at 0x8020 (14_host_endpoints.md)
def HE_IN_ERR_count : Fld := ⟨406, 32, .rc, fun _ => 0⟩
-- `HE_FN_HOLD` at 0x8100 (14_host_endpoints.md)
def HE_FN_HOLD_hold : Fld := ⟨407, 32, .ro, fun _ => 0⟩
-- `FN_PF_CFG` at 0x20000 (15_functions.md)
def FN_PF_CFG_refused : Fld := ⟨408, 1, .w1c, fun _ => 0⟩
def FN_PF_CFG_vf_vectors : Fld := ⟨409, 7, .rw, fun _ => 64⟩
-- `FN_PF_LOST` at 0x20004 (15_functions.md)
def FN_PF_LOST_count : Fld := ⟨410, 32, .rc, fun _ => 0⟩
-- `FN_MIG_CMD` at 0x21000 (15_functions.md)
def FN_MIG_CMD_op : Fld := ⟨411, 4, .wo, fun _ => 0⟩
def FN_MIG_CMD_gfn : Fld := ⟨412, 13, .wo, fun _ => 0⟩
-- `FN_MIG_STATUS` at 0x21004 (15_functions.md)
def FN_MIG_STATUS_busy : Fld := ⟨413, 1, .ro, fun _ => 0⟩
def FN_MIG_STATUS_pf : Fld := ⟨414, 1, .ro, fun _ => 0⟩
def FN_MIG_STATUS_key_fail : Fld := ⟨415, 1, .ro, fun _ => 0⟩
def FN_MIG_STATUS_outst : Fld := ⟨416, 21, .ro, fun _ => 0⟩
def FN_MIG_STATUS_result : Fld := ⟨417, 8, .ro, fun _ => 0⟩
-- `FN_MIG_BUF` at 0x21008 (15_functions.md)
def FN_MIG_BUF_buf : Fld := ⟨418, 58, .rw, fun _ => 0⟩
-- `FN_MIG_BUFLEN` at 0x21010 (15_functions.md)
def FN_MIG_BUFLEN_len : Fld := ⟨419, 32, .rw, fun _ => 0⟩
-- `FN_MIG_ILEN` at 0x21014 (15_functions.md)
def FN_MIG_ILEN_len : Fld := ⟨420, 32, .ro, fun _ => 0⟩
-- `FN_VMOD_SEL` at 0x22000 (15_functions.md)
def FN_VMOD_SEL_gfn : Fld := ⟨421, 13, .rw, fun _ => 0⟩
def FN_VMOD_SEL_vec : Fld := ⟨422, 11, .rw, fun _ => 0⟩
-- `FN_VMOD` at 0x22004 (15_functions.md)
def FN_VMOD_cnt : Fld := ⟨423, 8, .rw, fun _ => 0⟩
def FN_VMOD_us : Fld := ⟨424, 10, .rw, fun _ => 0⟩
-- `FN_DLOG_BASE` at 0x23000 (15_functions.md)
def FN_DLOG_BASE_base : Fld := ⟨425, 64, .rw, fun _ => 0⟩
-- `FN_DLOG_PAGES` at 0x23008 (15_functions.md)
def FN_DLOG_PAGES_pages : Fld := ⟨426, 64, .rw, fun _ => 0⟩
-- `FN_DLOG_MAP` at 0x23010 (15_functions.md)
def FN_DLOG_MAP_map : Fld := ⟨427, 64, .rw, fun _ => 0⟩
-- `FN_DLOG_CTRL` at 0x23018 (15_functions.md)
def FN_DLOG_CTRL_en : Fld := ⟨428, 1, .rw, fun _ => 0⟩
def FN_DLOG_CTRL_harvest : Fld := ⟨429, 1, .w1s, fun _ => 0⟩
def FN_DLOG_CTRL_busy : Fld := ⟨430, 1, .ro, fun _ => 0⟩
def FN_DLOG_CTRL_outside : Fld := ⟨431, 1, .w1c, fun _ => 0⟩
def FN_DLOG_CTRL_gfn : Fld := ⟨432, 13, .rw, fun _ => 8191⟩
-- `FN_STATE` at 0x40000 (15_functions.md)
def FN_STATE_fmask : Fld := ⟨433, 1, .ro, fun _ => 0⟩
def FN_STATE_d3 : Fld := ⟨434, 1, .ro, fun _ => 0⟩
def FN_STATE_bme : Fld := ⟨435, 1, .ro, fun _ => 0⟩
def FN_STATE_state : Fld := ⟨436, 3, .ro, fun i => if i < 2 then 1 else 0⟩
-- `FN_QOS` at 0x40004 (15_functions.md)
def FN_QOS_poll_w : Fld := ⟨437, 8, .rw, fun _ => 1⟩
def FN_QOS_tx_w : Fld := ⟨438, 8, .rw, fun _ => 1⟩
def FN_QOS_host_kib : Fld := ⟨439, 15, .rw, fun _ => 1024⟩
-- `FN_ABAND` at 0x40008 (15_functions.md)
def FN_ABAND_count : Fld := ⟨440, 32, .rc, fun _ => 0⟩
-- `FN_BADVEC` at 0x4000C (15_functions.md)
def FN_BADVEC_count : Fld := ⟨441, 32, .rc, fun _ => 0⟩
-- `MBX_CH_CFG` at 0xA00000 (16_mailboxes.md)
def MBX_CH_CFG_rx : Fld := ⟨442, 16, .rw, fun _ => 0⟩
def MBX_CH_CFG_purge : Fld := ⟨443, 1, .rw, fun _ => 0⟩
def MBX_CH_CFG_tx_mask : Fld := ⟨444, 7, .rw, fun _ => 0⟩
-- `MBX_CH_IRQ` at 0xA00004 (16_mailboxes.md)
def MBX_CH_IRQ_en : Fld := ⟨445, 1, .rw, fun _ => 0⟩
def MBX_CH_IRQ_vec : Fld := ⟨446, 11, .rw, fun _ => 0⟩
-- `MBX_CH_STATUS` at 0xA00008 (16_mailboxes.md)
def MBX_CH_STATUS_full : Fld := ⟨447, 1, .ro, fun _ => 0⟩
def MBX_CH_STATUS_tx_full : Fld := ⟨448, 1, .w1c, fun _ => 0⟩
def MBX_CH_STATUS_refused : Fld := ⟨449, 1, .w1c, fun _ => 0⟩
def MBX_CH_STATUS_purged : Fld := ⟨450, 1, .w1c, fun _ => 0⟩
def MBX_CH_STATUS_sender_epoch : Fld := ⟨451, 8, .ro, fun _ => 0⟩
-- `MBX_LOCK` at 0xA04000 (16_mailboxes.md)
def MBX_LOCK_owner : Fld := ⟨452, 16, .ro, fun _ => 0⟩
-- `MBX_UNLOCK` at 0xA04100 (16_mailboxes.md)
def MBX_UNLOCK_force : Fld := ⟨453, 1, .wo, fun _ => 0⟩
def MBX_UNLOCK_owner : Fld := ⟨454, 16, .wo, fun _ => 0⟩
-- `MBX_REFUSED` at 0xA04200 (16_mailboxes.md)
def MBX_REFUSED_count : Fld := ⟨455, 32, .rc, fun _ => 0⟩
-- `MBX_PV_SEL` at 0xA08000 (16_mailboxes.md)
def MBX_PV_SEL_pf : Fld := ⟨456, 1, .rw, fun _ => 0⟩
def MBX_PV_SEL_vf : Fld := ⟨457, 11, .rw, fun _ => 0⟩
-- `MBX_PV_IRQ` at 0xA08004 (16_mailboxes.md)
def MBX_PV_IRQ_en : Fld := ⟨458, 1, .rw, fun _ => 0⟩
def MBX_PV_IRQ_vec : Fld := ⟨459, 11, .rw, fun _ => 0⟩
-- `MBX_PV_PEND` at 0xA08200 (16_mailboxes.md)
def MBX_PV_PEND_pend : Fld := ⟨460, 32, .ro, fun _ => 0⟩
-- `MBX_WIN_BASE` at 0xA10000 (16_mailboxes.md)
def MBX_WIN_BASE_base : Fld := ⟨461, 52, .rw, fun _ => 0⟩
-- `MBX_WIN_CFG` at 0xA10008 (16_mailboxes.md)
def MBX_WIN_CFG_en : Fld := ⟨462, 1, .rw, fun _ => 0⟩
def MBX_WIN_CFG_refused : Fld := ⟨463, 1, .w1c, fun _ => 0⟩
def MBX_WIN_CFG_retry_us : Fld := ⟨464, 10, .rw, fun _ => 1⟩
def MBX_WIN_CFG_user : Fld := ⟨465, 4, .rw, fun _ => 0⟩
def MBX_WIN_CFG_blk : Fld := ⟨466, 4, .rw, fun _ => 12⟩
def MBX_WIN_CFG_nblk : Fld := ⟨467, 18, .rw, fun _ => 1⟩
-- `MBX_WIN_STATUS` at 0xA10010 (16_mailboxes.md)
def MBX_WIN_STATUS_stalls : Fld := ⟨468, 32, .rc, fun _ => 0⟩
def MBX_WIN_STATUS_cursor : Fld := ⟨469, 18, .ro, fun _ => 0⟩
-- `TWN_CTRL` at 0xB00000 (17_twin.md)
def TWN_CTRL_pair : Fld := ⟨470, 1, .w1s, fun _ => 0⟩
def TWN_CTRL_unpair : Fld := ⟨471, 1, .w1s, fun _ => 0⟩
def TWN_CTRL_resync : Fld := ⟨472, 1, .w1s, fun _ => 0⟩
def TWN_CTRL_auto_resync : Fld := ⟨473, 1, .rw, fun _ => 1⟩
-- `TWN_STATUS` at 0xB00004 (17_twin.md)
def TWN_STATUS_refused : Fld := ⟨474, 1, .w1c, fun _ => 0⟩
def TWN_STATUS_reason : Fld := ⟨475, 3, .ro, fun _ => 0⟩
def TWN_STATUS_alive : Fld := ⟨476, 1, .ro, fun _ => 0⟩
def TWN_STATUS_primary : Fld := ⟨477, 1, .ro, fun _ => 0⟩
def TWN_STATUS_strap : Fld := ⟨3526, 1, .ro, fun _ => 0⟩
def TWN_STATUS_key_ok : Fld := ⟨478, 1, .ro, fun _ => 0⟩
def TWN_STATUS_link : Fld := ⟨479, 1, .ro, fun _ => 0⟩
def TWN_STATUS_state : Fld := ⟨480, 3, .ro, fun _ => 0⟩
-- `TWN_SBMASK` at 0xB00008 (17_twin.md)
def TWN_SBMASK_drive : Fld := ⟨481, 16, .rw, fun _ => 65535⟩
-- `TWN_LAT` at 0xB0000C (17_twin.md)
def TWN_LAT_max_ns : Fld := ⟨482, 16, .rc, fun _ => 0⟩
-- `TWN_AUTH_FAIL` at 0xB00010 (17_twin.md)
def TWN_AUTH_FAIL_count : Fld := ⟨483, 32, .rc, fun _ => 0⟩
-- `TWN_HB_MISS` at 0xB00014 (17_twin.md)
def TWN_HB_MISS_count : Fld := ⟨484, 32, .rc, fun _ => 0⟩
-- `TWN_SYNC_SKIP` at 0xB00018 (17_twin.md)
def TWN_SYNC_SKIP_count : Fld := ⟨485, 32, .rc, fun _ => 0⟩
-- `TWN_ORPHAN` at 0xB0001C (17_twin.md)
def TWN_ORPHAN_count : Fld := ⟨486, 32, .rc, fun _ => 0⟩
-- `TWN_KEY_CMD` at 0xB00020 (17_twin.md)
def TWN_KEY_CMD_op : Fld := ⟨487, 4, .wo, fun _ => 0⟩
-- `TWN_KEY_STAGE` at 0xB00040 (17_twin.md)
def TWN_KEY_STAGE_byte : Fld := ⟨488, 8, .wo, fun _ => 0⟩
-- `TWN_QMASK` at 0xB10000 (17_twin.md)
def TWN_QMASK_mir : Fld := ⟨489, 32, .rw, fun _ => 0⟩
-- `TWN_PMASK` at 0xB18000 (17_twin.md)
def TWN_PMASK_mir : Fld := ⟨490, 32, .rw, fun _ => 0⟩
-- `TWN_FN_VEC` at 0xB20000 (17_twin.md)
def TWN_FN_VEC_en : Fld := ⟨491, 1, .rw, fun _ => 0⟩
def TWN_FN_VEC_vec : Fld := ⟨492, 11, .rw, fun _ => 0⟩
-- `FLT_CFG` at 0xB80000 (18_faults.md)
def FLT_CFG_fault_n_cont : Fld := ⟨3527, 1, .rw, fun _ => 0⟩
-- `FLT_IRQ` at 0xB80008 (18_faults.md)
def FLT_IRQ_en : Fld := ⟨3528, 1, .rw, fun _ => 0⟩
def FLT_IRQ_vec : Fld := ⟨3529, 11, .rw, fun _ => 0⟩
-- `FLT_CTRL` at 0xB80010 (18_faults.md)
def FLT_CTRL_dev_reset : Fld := ⟨3530, 1, .w1s, fun _ => 0⟩
def FLT_CTRL_inj_refused : Fld := ⟨3531, 1, .w1c, fun _ => 0⟩
-- `FLT_INJECT` at 0xB80018 (18_faults.md)
def FLT_INJECT_detail : Fld := ⟨3532, 32, .wo, fun _ => 0⟩
def FLT_INJECT_go : Fld := ⟨3533, 1, .wo, fun _ => 0⟩
def FLT_INJECT_source : Fld := ⟨3534, 9, .wo, fun _ => 0⟩
-- `FLT_WO_REC` at 0xB80020 (18_faults.md)
def FLT_WO_REC_valid : Fld := ⟨3535, 1, .w1c, fun _ => 0⟩
def FLT_WO_REC_multi : Fld := ⟨3536, 1, .ro, fun _ => 0⟩
def FLT_WO_REC_paired : Fld := ⟨3537, 1, .ro, fun _ => 0⟩
def FLT_WO_REC_cause : Fld := ⟨3538, 3, .ro, fun _ => 0⟩
def FLT_WO_REC_state : Fld := ⟨3539, 3, .ro, fun _ => 0⟩
def FLT_WO_REC_later : Fld := ⟨3540, 7, .ro, fun _ => 0⟩
def FLT_WO_REC_source : Fld := ⟨3541, 9, .ro, fun _ => 0⟩
-- `FLT_WO_TS` at 0xB80028 (18_faults.md)
def FLT_WO_TS_ts : Fld := ⟨3542, 64, .ro, fun _ => 0⟩
-- `FLT_LOG_DATA` at 0xB80040 (18_faults.md)
def FLT_LOG_DATA_byte : Fld := ⟨3543, 8, .ro, fun _ => 0⟩
-- `FLT_LOG_POP` at 0xB80050 (18_faults.md)
def FLT_LOG_POP_pop : Fld := ⟨3544, 32, .wo, fun _ => 0⟩
-- `FLT_LOG_STATUS` at 0xB80054 (18_faults.md)
def FLT_LOG_STATUS_count : Fld := ⟨3545, 32, .ro, fun _ => 0⟩
-- `FLT_LOG_LOST` at 0xB80058 (18_faults.md)
def FLT_LOG_LOST_lost : Fld := ⟨3546, 32, .rc, fun _ => 0⟩
-- `FLT_FRAME_DROP` at 0xB8005C (18_faults.md)
def FLT_FRAME_DROP_drops : Fld := ⟨3547, 32, .rc, fun _ => 0⟩
-- `FLT_RAIL` at 0xB80060 (18_faults.md)
def FLT_RAIL_uv_hold : Fld := ⟨3548, 1, .ro, fun _ => 0⟩
def FLT_RAIL_below_uv : Fld := ⟨3549, 7, .ro, fun _ => 0⟩
def FLT_RAIL_below_warn : Fld := ⟨3550, 7, .ro, fun _ => 0⟩
-- `FLT_ACTIVE` at 0xB80100 (18_faults.md)
def FLT_ACTIVE_active : Fld := ⟨3551, 32, .ro, fun _ => 0⟩
-- `FLT_SRC_CFG` at 0xB81000 (18_faults.md)
def FLT_SRC_CFG_class : Fld := ⟨3552, 2, .ro, fltClass⟩
def FLT_SRC_CFG_scope : Fld := ⟨3553, 4, .ro, fltScope⟩
def FLT_SRC_CFG_whiteout : Fld := ⟨3554, 1, .rw, fun i => if fltClass i = 2 then 1 else 0⟩
def FLT_SRC_CFG_failover : Fld := ⟨3555, 1, .rw, fun _ => 0⟩
def FLT_SRC_CFG_irq_bmc : Fld := ⟨3556, 1, .rw, fun i => if fltClass i = 2 then 1 else 0⟩
def FLT_SRC_CFG_irq_pf1 : Fld := ⟨3557, 1, .rw, fun _ => 1⟩
def FLT_SRC_CFG_irq_pf0 : Fld := ⟨3558, 1, .rw, fun _ => 1⟩
-- `FLT_SRC_STATUS` at 0xB81004 (18_faults.md)
def FLT_SRC_STATUS_active : Fld := ⟨3559, 1, .w1c, fun _ => 0⟩
def FLT_SRC_STATUS_cause : Fld := ⟨3560, 1, .ro, fun _ => 0⟩
def FLT_SRC_STATUS_inj : Fld := ⟨3561, 1, .ro, fun _ => 0⟩
def FLT_SRC_STATUS_count : Fld := ⟨3562, 16, .ro, fun _ => 0⟩
-- `PMU_DUMP_CFG` at 0xC00000 (19_performance.md)
def PMU_DUMP_CFG_en : Fld := ⟨493, 1, .rw, fun _ => 0⟩
def PMU_DUMP_CFG_refused : Fld := ⟨494, 1, .w1c, fun _ => 0⟩
def PMU_DUMP_CFG_busy : Fld := ⟨495, 1, .ro, fun _ => 0⟩
def PMU_DUMP_CFG_pf : Fld := ⟨496, 1, .rw, fun _ => 0⟩
def PMU_DUMP_CFG_win : Fld := ⟨497, 4, .rw, fun _ => 0⟩
def PMU_DUMP_CFG_set : Fld := ⟨498, 4, .rw, fun _ => 0⟩
-- `PMU_DUMP_START` at 0xC00008 (19_performance.md)
def PMU_DUMP_START_start : Fld := ⟨499, 64, .rw, fun _ => 0⟩
-- `PMU_SNAP_TS` at 0xC00030 (19_performance.md)
def PMU_SNAP_TS_ts : Fld := ⟨500, 64, .ro, fun _ => 0⟩
-- `PMU_DUMP_PERIOD` at 0xC00010 (19_performance.md)
def PMU_DUMP_PERIOD_period : Fld := ⟨501, 24, .rw, fun _ => 0⟩
-- `PMU_SNAP_CTRL` at 0xC00020 (19_performance.md)
def PMU_SNAP_CTRL_go : Fld := ⟨502, 1, .w1s, fun _ => 0⟩
-- `PMU_SKIP` at 0xC00028 (19_performance.md)
def PMU_SKIP_count : Fld := ⟨503, 32, .rc, fun _ => 0⟩
-- `PMU_SLOT_CLR` at 0xC00040 (19_performance.md)
def PMU_SLOT_CLR_clusters : Fld := ⟨504, 17, .wo, fun _ => 0⟩
-- `PMU_BLK_EVSEL` at 0xC10000 (19_performance.md)
def PMU_BLK_EVSEL_ovf : Fld := ⟨505, 1, .w1c, fun _ => 0⟩
def PMU_BLK_EVSEL_event : Fld := ⟨506, 8, .rw, fun _ => 0⟩
-- `PMU_BLK_CTR` at 0xC10008 (19_performance.md)
def PMU_BLK_CTR_value : Fld := ⟨507, 48, .rw, fun _ => 0⟩
-- `PMU_CORE_CYC` at 0xC40000 (19_performance.md)
def PMU_CORE_CYC_cycles : Fld := ⟨508, 64, .ro, fun _ => 0⟩
-- `PMU_CORE_CFG` at 0xC40010 (19_performance.md)
def PMU_CORE_CFG_ovf : Fld := ⟨509, 1, .w1c, fun _ => 0⟩
def PMU_CORE_CFG_chain : Fld := ⟨510, 1, .rw, fun _ => 0⟩
def PMU_CORE_CFG_tmask : Fld := ⟨511, 16, .rw, fun _ => 65535⟩
def PMU_CORE_CFG_event : Fld := ⟨512, 8, .rw, fun _ => 0⟩
-- `PMU_CORE_CTR` at 0xC40018 (19_performance.md)
def PMU_CORE_CTR_value : Fld := ⟨513, 48, .rw, fun _ => 0⟩
-- `PMU_SLOT_RETIRED` at 0xC80000 (19_performance.md)
def PMU_SLOT_RETIRED_retired : Fld := ⟨514, 48, .ro, fun _ => 0⟩
-- `PMU_SLOT_WASTED` at 0xC80008 (19_performance.md)
def PMU_SLOT_WASTED_wasted : Fld := ⟨515, 48, .ro, fun _ => 0⟩
-- `PMU_SLOT_FRONT` at 0xC80010 (19_performance.md)
def PMU_SLOT_FRONT_front : Fld := ⟨516, 48, .ro, fun _ => 0⟩
-- `PMU_SLOT_BACK` at 0xC80018 (19_performance.md)
def PMU_SLOT_BACK_back : Fld := ⟨517, 48, .ro, fun _ => 0⟩
-- `PWR_DOMAIN` at 0xD00000 (20_power_and_startup.md)
def PWR_DOMAIN_sds : Fld := ⟨3563, 11, .ro, fun _ => 0⟩
def PWR_DOMAIN_hbm : Fld := ⟨3564, 1, .ro, fun _ => 1⟩
def PWR_DOMAIN_sram : Fld := ⟨3565, 1, .ro, fun _ => 1⟩
def PWR_DOMAIN_core : Fld := ⟨3566, 1, .ro, fun _ => 1⟩
def PWR_DOMAIN_time : Fld := ⟨3567, 1, .ro, fun _ => 1⟩
-- `PWR_GATE_CFG` at 0xD00008 (20_power_and_startup.md)
def PWR_GATE_CFG_en : Fld := ⟨518, 1, .rw, fun _ => 1⟩
def PWR_GATE_CFG_wake_depth : Fld := ⟨519, 10, .rw, fun _ => 16⟩
def PWR_GATE_CFG_gate_us : Fld := ⟨520, 16, .rw, fun _ => 20⟩
-- `PWR_GATE_STATUS` at 0xD00010 (20_power_and_startup.md)
def PWR_GATE_STATUS_lanes : Fld := ⟨521, 32, .ro, fun _ => 0⟩
def PWR_GATE_STATUS_clusters : Fld := ⟨522, 16, .ro, fun _ => 0⟩
-- `PWR_WAKE_CNT` at 0xD00018 (20_power_and_startup.md)
def PWR_WAKE_CNT_count : Fld := ⟨523, 32, .rc, fun _ => 0⟩
-- `PWR_CLK_STATUS` at 0xD00020 (20_power_and_startup.md)
def PWR_CLK_STATUS_sys_ref_lost : Fld := ⟨3568, 1, .w1c, fun _ => 0⟩
def PWR_CLK_STATUS_pll_dma : Fld := ⟨3569, 1, .ro, fun _ => 0⟩
def PWR_CLK_STATUS_pll_ppl : Fld := ⟨3570, 1, .ro, fun _ => 0⟩
def PWR_CLK_STATUS_pll_core : Fld := ⟨3571, 1, .ro, fun _ => 0⟩
-- `PWR_SDS_FAIL` at 0xD00024 (20_power_and_startup.md)
def PWR_SDS_FAIL_group : Fld := ⟨524, 11, .ro, fun _ => 0⟩
-- `PWR_TEMP` at 0xD00028 (20_power_and_startup.md)
def PWR_TEMP_max : Fld := ⟨3572, 16, .rc, fun _ => 0⟩
def PWR_TEMP_now : Fld := ⟨3573, 16, .ro, fun _ => 0⟩
-- `BOOT_CTRL` at 0xD01000 (20_power_and_startup.md)
def BOOT_CTRL_ready : Fld := ⟨525, 1, .w1s, fun _ => 0⟩
def BOOT_CTRL_clear_alt : Fld := ⟨526, 10, .w1s, fun _ => 0⟩
-- `BOOT_STATUS` at 0xD01008 (20_power_and_startup.md)
def BOOT_STATUS_firn_formatted : Fld := ⟨3574, 1, .w1c, fun _ => 0⟩
def BOOT_STATUS_image : Fld := ⟨3575, 1, .ro, fun _ => 0⟩
def BOOT_STATUS_restarts : Fld := ⟨3576, 4, .ro, fun _ => 0⟩
def BOOT_STATUS_alt : Fld := ⟨3577, 10, .ro, fun _ => 0⟩
-- `BOOT_CFG` at 0xD01010 (20_power_and_startup.md)
def BOOT_CFG_firn_reset : Fld := ⟨3578, 1, .rw, fun _ => 0⟩
def BOOT_CFG_long_test : Fld := ⟨3579, 1, .rw, fun _ => 1⟩
-- `BOOT_IMG` at 0xD01018 (20_power_and_startup.md)
def BOOT_IMG_img_ver : Fld := ⟨3580, 32, .ro, fun _ => 0⟩
def BOOT_IMG_svn : Fld := ⟨3581, 7, .ro, fun _ => 0⟩
-- `BOOT_FUSE` at 0xD01020 (20_power_and_startup.md)
def BOOT_FUSE_debug_closed : Fld := ⟨3582, 1, .ro, fun _ => 0⟩
def BOOT_FUSE_revoked : Fld := ⟨3583, 4, .ro, fun _ => 0⟩
def BOOT_FUSE_svn : Fld := ⟨3584, 7, .ro, fun _ => 0⟩
-- `BOOT_FUSE_CMD` at 0xD01028 (20_power_and_startup.md)
def BOOT_FUSE_CMD_arm : Fld := ⟨527, 1, .wo, fun _ => 0⟩
def BOOT_FUSE_CMD_go : Fld := ⟨528, 1, .wo, fun _ => 0⟩
def BOOT_FUSE_CMD_refused : Fld := ⟨529, 1, .w1c, fun _ => 0⟩
def BOOT_FUSE_CMD_busy : Fld := ⟨530, 1, .ro, fun _ => 0⟩
def BOOT_FUSE_CMD_op : Fld := ⟨531, 4, .wo, fun _ => 0⟩
def BOOT_FUSE_CMD_arg : Fld := ⟨532, 7, .wo, fun _ => 0⟩
-- `BOOT_LEDGER_SEL` at 0xD01040 (20_power_and_startup.md)
def BOOT_LEDGER_SEL_index : Fld := ⟨533, 6, .rw, fun _ => 0⟩
-- `BOOT_LEDGER_DATA` at 0xD01060 (20_power_and_startup.md)
def BOOT_LEDGER_DATA_byte : Fld := ⟨534, 8, .ro, fun _ => 0⟩
-- `SCH_GATE_ENTRY` (09_scheduling.md)
def SCH_GATE_ENTRY_byte : Fld := ⟨535, 8, .rw, fun _ => 0⟩
-- `OFL_TMPL_STAGE` at 0x880100 (12_offloads.md)
def OFL_TMPL_STAGE_byte : Fld := ⟨536, 8, .rw, fun _ => 0⟩
-- `OFL_TMPL_RESULT` at 0x880180 (12_offloads.md)
def OFL_TMPL_RESULT_byte : Fld := ⟨537, 8, .ro, fun _ => 0⟩
-- `OFL_NVC_STAGE` at 0x880200 (12_offloads.md)
def OFL_NVC_STAGE_byte : Fld := ⟨538, 8, .rw, fun _ => 0⟩
-- `OFL_NVC_RESULT` at 0x880240 (12_offloads.md)
def OFL_NVC_RESULT_byte : Fld := ⟨539, 8, .ro, fun _ => 0⟩
-- `OFL_EVQ_DATA` at 0x880300 (12_offloads.md)
def OFL_EVQ_DATA_byte : Fld := ⟨540, 8, .ro, fun _ => 0⟩
-- `MBX_CH_TX` at 0xA00020 (16_mailboxes.md)
def MBX_CH_TX_word : Fld := ⟨541, 32, .wo, fun _ => 0⟩
-- `MBX_CH_COMMIT` at 0xA00040 (16_mailboxes.md)
def MBX_CH_COMMIT_count : Fld := ⟨542, 4, .wo, fun _ => 0⟩
-- `MBX_CH_RX_HDR` at 0xA00060 (16_mailboxes.md)
def MBX_CH_RX_HDR_hdr : Fld := ⟨543, 32, .ro, fun _ => 0⟩
-- `MBX_CH_RX_DATA` at 0xA00080 (16_mailboxes.md)
def MBX_CH_RX_DATA_word : Fld := ⟨544, 32, .ro, fun _ => 0⟩
-- `MBX_CH_RX_POP` at 0xA000A0 (16_mailboxes.md)
def MBX_CH_RX_POP_hdr : Fld := ⟨545, 32, .rc, fun _ => 0⟩

-- State that no register shows, and the configuration space, held in the same way.
/-- Memory Space Enable of the function (R389). (14_host_endpoints.md) -/
def CFG_mse : Fld := ⟨546, 1, .rw, fun _ => 0⟩
/-- Device Control Max_Payload_Size code, 128 << code bytes (R383). (14_host_endpoints.md) -/
def CFG_mps : Fld := ⟨547, 3, .rw, fun _ => 0⟩
/-- Device Control Max_Read_Request_Size code (R383). (14_host_endpoints.md) -/
def CFG_mrrs : Fld := ⟨548, 3, .rw, fun _ => 2⟩
/-- Enable Relaxed Ordering (R391). (14_host_endpoints.md) -/
def CFG_ro_en : Fld := ⟨549, 1, .rw, fun _ => 1⟩
/-- Enable No Snoop (R391). (14_host_endpoints.md) -/
def CFG_ns_en : Fld := ⟨550, 1, .rw, fun _ => 1⟩
/-- Extended Tag Enable (R382). (14_host_endpoints.md) -/
def CFG_ext_tag : Fld := ⟨551, 1, .rw, fun _ => 1⟩
/-- 10-bit tag requester enable (R382). (14_host_endpoints.md) -/
def CFG_tag10 : Fld := ⟨552, 1, .rw, fun _ => 0⟩
/-- 14-bit tag requester enable, Device Control 3 (R382). (14_host_endpoints.md) -/
def CFG_tag14 : Fld := ⟨553, 1, .rw, fun _ => 0⟩
/-- Device Control error reporting enables: correctable, non-fatal, fatal, unsupported request (R394). (14_host_endpoints.md) -/
def CFG_err_en : Fld := ⟨554, 4, .rw, fun _ => 0⟩
/-- Completion Timeout Value, Device Control 2 (R400). (14_host_endpoints.md) -/
def CFG_cto : Fld := ⟨555, 4, .rw, fun _ => 0⟩
/-- MSI-X Enable (R414). (14_host_endpoints.md) -/
def CFG_msix_en : Fld := ⟨556, 1, .rw, fun _ => 0⟩
/-- SR-IOV VF Enable (index: PF, R408). (14_host_endpoints.md) -/
def CFG_vf_en : Fld := ⟨557, 1, .rw, fun _ => 0⟩
/-- SR-IOV NumVFs (index: PF, R407). (14_host_endpoints.md) -/
def CFG_numvfs : Fld := ⟨558, 12, .rw, fun _ => 0⟩
/-- SR-IOV VF MSE (index: PF). (14_host_endpoints.md) -/
def CFG_vf_mse : Fld := ⟨559, 1, .rw, fun _ => 0⟩
/-- AER Uncorrectable Error Status (R393). (14_host_endpoints.md) -/
def CFG_unc_sts : Fld := ⟨560, 32, .rw, fun _ => 0⟩
/-- AER Uncorrectable Error Mask, reset 0 (R393). (14_host_endpoints.md) -/
def CFG_unc_mask : Fld := ⟨561, 32, .rw, fun _ => 0⟩
/-- AER Uncorrectable Error Severity, reset 0x0046_2010 (R393). (14_host_endpoints.md) -/
def CFG_unc_sev : Fld := ⟨562, 32, .rw, fun _ => 0x00462010⟩
/-- AER Correctable Error Status (R394). (14_host_endpoints.md) -/
def CFG_cor_sts : Fld := ⟨563, 32, .rw, fun _ => 0⟩
/-- AER Correctable Error Mask, reset 0x0000_E000 (R394). (14_host_endpoints.md) -/
def CFG_cor_mask : Fld := ⟨564, 32, .rw, fun _ => 0xE000⟩
/-- Multiple Header Recording Enable (R396). (14_host_endpoints.md) -/
def CFG_mhr_en : Fld := ⟨565, 1, .rw, fun _ => 0⟩
/-- ECRC generation and checking enables (Table HE-2). (14_host_endpoints.md) -/
def CFG_ecrc_en : Fld := ⟨566, 2, .rw, fun _ => 0⟩
/-- Link Control ASPM control (R386). (14_host_endpoints.md) -/
def CFG_aspm : Fld := ⟨567, 2, .rw, fun _ => 0⟩
/-- ATS Enable (Table HE-2). (14_host_endpoints.md) -/
def CFG_ats_en : Fld := ⟨568, 1, .rw, fun _ => 0⟩
/-- Base address of BAR0 (Table HE-3). (14_host_endpoints.md) -/
def CFG_bar0 : Fld := ⟨569, 64, .rw, fun _ => 0⟩
/-- Base address of BAR2 (Table HE-3). (14_host_endpoints.md) -/
def CFG_bar2 : Fld := ⟨570, 64, .rw, fun _ => 0⟩
/-- Expansion ROM base (Table HE-3). (14_host_endpoints.md) -/
def CFG_rom : Fld := ⟨571, 32, .rw, fun _ => 0⟩
/-- ACS control, which changes nothing (R386). (14_host_endpoints.md) -/
def CFG_acs : Fld := ⟨572, 16, .rw, fun _ => 0⟩
/-- MSI-X table message address (index 2048·GFN + vector, R413). (14_host_endpoints.md) -/
def MSIX_addr : Fld := ⟨573, 64, .rw, fun _ => 0⟩
/-- MSI-X table message data. (14_host_endpoints.md) -/
def MSIX_data : Fld := ⟨574, 32, .rw, fun _ => 0⟩
/-- MSI-X table Mask bit; set by reset as the Base Specification requires (R415). (14_host_endpoints.md) -/
def MSIX_mask : Fld := ⟨575, 1, .rw, fun _ => 1⟩
/-- MSI-X pending bit (R414). (14_host_endpoints.md) -/
def MSIX_pba : Fld := ⟨576, 1, .rw, fun _ => 0⟩
/-- Moderation count of a vector (R415, index 2048·GFN + vector). (15_functions.md) -/
def VMOD_cnt : Fld := ⟨577, 8, .rw, fun _ => 0⟩
/-- Moderation time of a vector (R415). (15_functions.md) -/
def VMOD_us : Fld := ⟨578, 10, .rw, fun _ => 0⟩
/-- Events of a vector not yet signalled (R415). (15_functions.md) -/
def VMOD_tally : Fld := ⟨579, 64, .rw, fun _ => 0⟩
/-- The time tally of a vector runs (R415). (15_functions.md) -/
def VMOD_timer : Fld := ⟨580, 1, .rw, fun _ => 0⟩
/-- The function is quarantined with scope FUNCTION (Table FC-2). (15_functions.md) -/
def FN_quar : Fld := ⟨581, 1, .rw, fun _ => 0⟩
/-- Entries of the function are counted in FN_PF_LOST while it is RESETTING (R417). (15_functions.md) -/
def FN_lost : Fld := ⟨582, 1, .rw, fun _ => 0⟩
/-- Idle count of a queue (R75). (03_work_queues.md) -/
def QX_idle : Fld := ⟨583, 16, .rw, fun _ => 0⟩
/-- The last poll before dormancy is in flight (R75). (03_work_queues.md) -/
def QX_last : Fld := ⟨584, 1, .rw, fun _ => 0⟩
/-- A poll read of the queue is in flight (R72). (03_work_queues.md) -/
def QX_poll : Fld := ⟨585, 1, .rw, fun _ => 0⟩
/-- Entries the poll in flight reads. (03_work_queues.md) -/
def QX_polln : Fld := ⟨586, 4, .rw, fun _ => 0⟩
/-- The queue is due (R73). (03_work_queues.md) -/
def QX_due : Fld := ⟨587, 1, .rw, fun _ => 0⟩
/-- Tick of the time clock at which the queue fell due (R73). (03_work_queues.md) -/
def QX_duens : Fld := ⟨588, 64, .rw, fun _ => 0⟩
/-- The dorm bit of the last writeback (R75). (03_work_queues.md) -/
def QX_dorm : Fld := ⟨589, 1, .rw, fun _ => 0⟩
/-- Highest status done_idx passed since the previous writeback (Table WQ-7). (03_work_queues.md) -/
def QX_sum : Fld := ⟨590, 8, .rw, fun _ => 0⟩
/-- Done_idx advanced without a writeback (R81). (03_work_queues.md) -/
def QX_wbdue : Fld := ⟨591, 1, .rw, fun _ => 0⟩
/-- Done_idx of the last writeback (R88). (03_work_queues.md) -/
def QX_wbdone : Fld := ⟨592, 16, .rw, fun _ => 0⟩
/-- Published head as last written (R34). (03_work_queues.md) -/
def QX_pub : Fld := ⟨593, 16, .rw, fun _ => 0⟩
/-- Step 1 of R33 is taken for the oldest fetched entry. (02_accepted_work.md) -/
def QX_resv : Fld := ⟨594, 1, .rw, fun _ => 0⟩
/-- Step 2 of R33 is taken for the oldest fetched entry. (02_accepted_work.md) -/
def QX_jrnl : Fld := ⟨595, 1, .rw, fun _ => 0⟩
/-- Step 3 of R33: the mirror acknowledgement is awaited. (02_accepted_work.md) -/
def QX_mwait : Fld := ⟨596, 1, .rw, fun _ => 0⟩
/-- Tick of the time clock at which the credit stall began (R86). (03_work_queues.md) -/
def QX_stallns : Fld := ⟨597, 64, .rw, fun _ => 0⟩
/-- The CQ_STALL event of this stall is written (R86). (03_work_queues.md) -/
def QX_stallev : Fld := ⟨598, 1, .rw, fun _ => 0⟩
/-- A write of 0 to en waits in ERROR for the outstanding entries (Table WQ-10). (03_work_queues.md) -/
def QX_offreq : Fld := ⟨599, 1, .rw, fun _ => 0⟩
/-- The queue is quarantined by a contained fault (Table FC-2). (03_work_queues.md) -/
def QX_quar : Fld := ⟨600, 1, .rw, fun _ => 0⟩
/-- Firn's published head of a recovery-pending queue (R58). (02_accepted_work.md) -/
def QX_firn_head : Fld := ⟨601, 16, .rw, fun _ => 0⟩
/-- State a frozen queue returns to, as its record holds (R424, R426). (15_functions.md) -/
def QX_frz : Fld := ⟨602, 3, .rw, fun _ => 0⟩
/-- Last consumer index read of a completion ring (R83; index: ring). (03_work_queues.md) -/
def RX_cons : Fld := ⟨603, 16, .rw, fun _ => 0⟩
/-- A consumer-word read is in flight (R85; index: ring). (03_work_queues.md) -/
def RX_read : Fld := ⟨604, 1, .rw, fun _ => 0⟩
/-- Function the poll engine is serving (R73). (03_work_queues.md) -/
def QM_pollfn : Fld := ⟨605, 13, .rw, fun _ => 0⟩
/-- Polls left to that function in this turn (R73). (03_work_queues.md) -/
def QM_polldef : Fld := ⟨606, 8, .rw, fun _ => 0⟩
/-- RECOVERY records written for the PF (R58; index: PF). (02_accepted_work.md) -/
def EV_recn : Fld := ⟨607, 18, .rw, fun _ => 0⟩
/-- The start formatted Firn, so that no RECOVERY_DONE follows (R517). (20_power_and_startup.md) -/
def BOOT_formatted : Fld := ⟨608, 1, .rw, fun _ => 0⟩
/-- A warning is latched (R53). (02_accepted_work.md) -/
def PW_warn : Fld := ⟨609, 1, .rw, fun _ => 0⟩
/-- The completion seal has passed: no PCIe mastering (R55). (02_accepted_work.md) -/
def PW_seal : Fld := ⟨610, 1, .rw, fun _ => 0⟩
/-- Acceptance is stopped on every queue (R55 step 1). (02_accepted_work.md) -/
def PW_stopacc : Fld := ⟨611, 1, .rw, fun _ => 0⟩
/-- Firn holds a valid seal record (R51). (02_accepted_work.md) -/
def FIRN_sealed : Fld := ⟨3900, 1, .rw, fun _ => 0⟩
/-- Cause of the seal: 0x10 power, 0x11 whiteout (R51, R52). (02_accepted_work.md) -/
def FIRN_cause : Fld := ⟨3901, 8, .rw, fun _ => 0⟩
/-- Meridian time of the seal (R51). (02_accepted_work.md) -/
def FIRN_sealns : Fld := ⟨3902, 64, .rw, fun _ => 0⟩
/-- A flush toward the seal is in progress (R51). (02_accepted_work.md) -/
def FIRN_flush : Fld := ⟨612, 1, .rw, fun _ => 0⟩
/-- Frame counter of the last twin frame sent (Table TW-2). (17_twin.md) -/
def TWX_txctr : Fld := ⟨613, 64, .rw, fun _ => 0⟩
/-- Highest frame counter accepted from the partner (R452). (17_twin.md) -/
def TWX_rxctr : Fld := ⟨614, 64, .rw, fun _ => 0⟩
/-- Dirty mark of a page of a tracker (R427; index 2^40·tracker + page). (15_functions.md) -/
def DLOG_mark : Fld := ⟨615, 1, .rw, fun _ => 0⟩
/-- A frame has been written in part into the RX queue's buffers (R70, R71). (03_work_queues.md) -/
def QX_rxbusy : Fld := ⟨616, 1, .rw, fun _ => 0⟩
/-- Cause of the recovery reports: 0x10 POWER or 0x11 WHITEOUT (R58). (02_accepted_work.md) -/
def RECOV_cause : Fld := ⟨617, 8, .rw, fun _ => 0⟩
/-- Firn was sealed at boot step S7 (R58). (02_accepted_work.md) -/
def RECOV_sealed : Fld := ⟨618, 1, .rw, fun _ => 0⟩
/-- Step 3 of R33 is passed: the mirror record was acknowledged, or nothing waits for it any more. (02_accepted_work.md) -/
def QX_mack : Fld := ⟨619, 1, .rw, fun _ => 0⟩
/-- Tick of the time clock at which a frame that something waits for was sent (R460; index: its counter). (17_twin.md) -/
def TWX_sent : Fld := ⟨620, 64, .rw, fun _ => 0⟩
/-- State in which PAIRING began: 0 UNPAIRED or 6 WIDOWED. (17_twin.md) -/
def TWX_prev : Fld := ⟨621, 3, .rw, fun _ => 0⟩
/-- The partner has applied every copy of this device (R470). (17_twin.md) -/
def TWX_mine : Fld := ⟨622, 1, .rw, fun _ => 0⟩
/-- The partner has reported its copies (R470). (17_twin.md) -/
def TWX_theirs : Fld := ⟨623, 1, .rw, fun _ => 0⟩
/-- Consecutive misses (R461). (17_twin.md) -/
def TWX_miss : Fld := ⟨624, 8, .rw, fun _ => 0⟩
/-- Tick of the time clock, plus one, of the first heartbeat since the pair entered DEGRADED or the last miss; 0 for none (Table TW-3). (17_twin.md) -/
def TWX_hb : Fld := ⟨625, 64, .rw, fun _ => 0⟩
/-- An unpair was taken and waits for its GOODBYE (R474). (17_twin.md) -/
def TWX_unp : Fld := ⟨626, 1, .rw, fun _ => 0⟩
/-- Receive time-stamp of the last TSYNC frame, quarter ns (R220). (17_twin.md) -/
def TWX_tsync : Fld := ⟨627, 64, .rw, fun _ => 0⟩
/-- The context is standby for the partner (R458; index: queue). (17_twin.md) -/
def TWX_standby : Fld := ⟨628, 1, .rw, fun _ => 0⟩
/-- Mode of a thread: 0 idle, 1 running, 2 parked (R127). (04_flow_processors.md) -/
def TH_mode : Fld := ⟨629, 2, .rw, fun _ => 0⟩
/-- Halted by the debugger (R132). (04_flow_processors.md) -/
def TH_halt : Fld := ⟨630, 1, .rw, fun _ => 0⟩
/-- The debug session released the packet of the halted thread (R134). (04_flow_processors.md) -/
def TH_hsess : Fld := ⟨631, 1, .rw, fun _ => 0⟩
/-- Runs a program started by THST (Table NI-2 resident). (05_niris_isa.md) -/
def TH_res : Fld := ⟨632, 1, .rw, fun _ => 0⟩
/-- Frame the thread holds, plus one; 0 for none (Table NI-2 pkt). (05_niris_isa.md) -/
def TH_frame : Fld := ⟨633, 32, .rw, fun _ => 0⟩
/-- General register (index 32·thread + r, Table NI-1). (05_niris_isa.md) -/
def TH_g : Fld := ⟨634, 64, .rw, fun _ => 0⟩
/-- Condition flag (index 8·thread + k). (05_niris_isa.md) -/
def TH_c : Fld := ⟨635, 1, .rw, fun _ => 0⟩
/-- Instruction index of the thread. (05_niris_isa.md) -/
def TH_pc : Fld := ⟨636, 15, .rw, fun _ => 0⟩
/-- Return-stack entry (index 8·thread + k). (05_niris_isa.md) -/
def TH_rs : Fld := ⟨637, 15, .rw, fun _ => 0⟩
/-- Return-stack entries in use. (05_niris_isa.md) -/
def TH_rsd : Fld := ⟨638, 4, .rw, fun _ => 0⟩
/-- Staging word (index 8·thread + k). (05_niris_isa.md) -/
def TH_w : Fld := ⟨639, 64, .rw, fun _ => 0⟩
/-- A command is outstanding on the tag (index 4·thread + n). (05_niris_isa.md) -/
def TH_tag : Fld := ⟨640, 1, .rw, fun _ => 0⟩
/-- Commands committed on the tag, so that an abandoned result is told from a present one (index 4·thread + n, R115). (04_flow_processors.md) -/
def TH_tagseq : Fld := ⟨641, 64, .rw, fun _ => 0⟩
/-- The tag has a result to read (index 4·thread + n, R159). (05_niris_isa.md) -/
def TH_rok : Fld := ⟨642, 1, .rw, fun _ => 0⟩
/-- Result word (index 16·thread + 4·tag + word). (05_niris_isa.md) -/
def TH_r : Fld := ⟨643, 64, .rw, fun _ => 0⟩
/-- Pending events (Table FP-6). (04_flow_processors.md) -/
def TH_ev : Fld := ⟨644, 32, .rw, fun _ => 0⟩
/-- Trap_pc of the status word. (05_niris_isa.md) -/
def TH_tpc : Fld := ⟨645, 15, .rw, fun _ => 0⟩
/-- Trap_cause of the status word. (05_niris_isa.md) -/
def TH_tcause : Fld := ⟨646, 4, .rw, fun _ => 0⟩
/-- The thread has trapped and still holds the same packet (R128). (04_flow_processors.md) -/
def TH_trap : Fld := ⟨647, 1, .rw, fun _ => 0⟩
/-- Ticket handle held, plus one (index 2·thread + k). (04_flow_processors.md) -/
def TH_tkt : Fld := ⟨648, 33, .rw, fun _ => 0⟩
/-- Pipeline and domain of that ticket (index 2·thread + k). (04_flow_processors.md) -/
def TH_tktdom : Fld := ⟨649, 19, .rw, fun _ => 0⟩
/-- Tick of the time clock at which the ticket was issued or its limit restarted (R118, R135). (04_flow_processors.md) -/
def TH_tktns : Fld := ⟨650, 64, .rw, fun _ => 0⟩
/-- Slots left until the result of a shared-memory load arrives (index 32·thread + r, R98). (04_flow_processors.md) -/
def TH_hz : Fld := ⟨651, 4, .rw, fun _ => 0⟩
/-- Slots since dispatch or THST (Table FP-8). (04_flow_processors.md) -/
def TH_slots : Fld := ⟨652, 32, .rw, fun _ => 0⟩
/-- Slot budget of the packet (R125). (04_flow_processors.md) -/
def TH_budget : Fld := ⟨653, 16, .rw, fun _ => 0⟩
/-- Waits in a WAITE without timeout 1, with timeout 2, or in a WAITT 3. (05_niris_isa.md) -/
def TH_wait : Fld := ⟨654, 2, .rw, fun _ => 0⟩
/-- Slots left until the timeout of the WAITE that waits (R154). (05_niris_isa.md) -/
def TH_left : Fld := ⟨655, 32, .rw, fun _ => 0⟩
/-- Dispatched to an invalid entry of FP_PROG (index: thread). (04_flow_processors.md) -/
def TH_bad : Fld := ⟨656, 1, .rw, fun _ => 0⟩
/-- The hold limit of a ticket has been reported (index 2·thread + k, R118). (04_flow_processors.md) -/
def TH_texp : Fld := ⟨657, 1, .rw, fun _ => 0⟩
/-- Programs of the thread that were cut short, so that what they left behind is told apart (R115). (04_flow_processors.md) -/
def TH_gen : Fld := ⟨658, 16, .rw, fun _ => 0⟩
/-- Target of the WAITT that waits. (05_niris_isa.md) -/
def TH_twait : Fld := ⟨659, 48, .rw, fun _ => 0⟩
/-- The deadlock detector of the cluster has fired and not re-armed (R124). (04_flow_processors.md) -/
def CLU_dlk : Fld := ⟨660, 1, .rw, fun _ => 0⟩
/-- Records of the core lost since the last one written (R130; index: core). (04_flow_processors.md) -/
def FFIFO_lost : Fld := ⟨661, 8, .rw, fun _ => 0⟩
/-- The lockstep pair copies the lead into the checker (R103; index: pair). (04_flow_processors.md) -/
def LKS_copy : Fld := ⟨662, 1, .rw, fun _ => 0⟩
/-- Core that dispatch takes first among equals: 16·(cluster mod 2) + core (R108; index: pipeline). (04_flow_processors.md) -/
def DSP_next : Fld := ⟨663, 6, .rw, fun _ => 0⟩
/-- Thread of the last debug command taken. (04_flow_processors.md) -/
def DBG_thr : Fld := ⟨664, 12, .rw, fun _ => 0⟩
/-- Packets in the reorder buffer of a pipeline (R116). (04_flow_processors.md) -/
def ORD_rob : Fld := ⟨665, 12, .rw, fun _ => 0⟩
/-- Frames in an exception bucket (index: pipeline, 8 for the global bucket; R137). (04_flow_processors.md) -/
def EXC_tok : Fld := ⟨666, 32, .rw, fun i => if i = 8 then 16384 else 4096⟩
/-- Fraction of an exception bucket in 1/1000000 frame. (04_flow_processors.md) -/
def EXC_acc : Fld := ⟨667, 64, .rw, fun _ => 0⟩
/-- Meridian ns of its last visit. (04_flow_processors.md) -/
def EXC_last : Fld := ⟨668, 64, .rw, fun _ => 0⟩
/-- Fraction of the Meridian count (R276). (10_meridian_time.md) -/
def MTX_frac : Fld := ⟨3012, 32, .rw, fun _ => 0⟩
/-- Latched high word of a reader: PF0, PF1, firmware, BMC (R279). (10_meridian_time.md) -/
def MTX_hi : Fld := ⟨669, 32, .rw, fun _ => 0⟩
/-- Ticks of the running millisecond of Drift (R300). (10_meridian_time.md) -/
def MTX_dtick : Fld := ⟨3013, 20, .rw, fun _ => 0⟩
/-- The TIME PLL has locked since the always-on start (R277). (10_meridian_time.md) -/
def MTX_first : Fld := ⟨3014, 1, .rw, fun _ => 0⟩
/-- The selected TIME_REFCLK is lost (R277). (10_meridian_time.md) -/
def MTX_lost : Fld := ⟨3015, 1, .rw, fun _ => 0⟩
/-- A step is due on the next tick (R281, R301). (10_meridian_time.md) -/
def MTX_step : Fld := ⟨670, 1, .rw, fun _ => 0⟩
/-- The signed offset of that step. (10_meridian_time.md) -/
def MTX_stepns : Fld := ⟨671, 64, .rw, fun _ => 0⟩
/-- Slew remainder in 2^-32 ns. (10_meridian_time.md) -/
def MTX_srem : Fld := ⟨672, 96, .rw, fun _ => 0⟩
/-- The slew is negative. (10_meridian_time.md) -/
def MTX_sneg : Fld := ⟨673, 1, .rw, fun _ => 0⟩
/-- Level of PPS_OUT (R298). (10_meridian_time.md) -/
def MTX_pps : Fld := ⟨674, 1, .rw, fun _ => 0⟩
/-- Meridian time of the last rise of PPS_OUT in quarter nanoseconds. (10_meridian_time.md) -/
def MTX_ppsq : Fld := ⟨675, 66, .rw, fun _ => 0⟩
/-- Count of PPS instants passed at the last rise. (10_meridian_time.md) -/
def MTX_ppsidx : Fld := ⟨676, 64, .rw, fun _ => 0⟩
/-- Off in force until the next rise, plus one; 0 for none (R298). (10_meridian_time.md) -/
def MTX_ppsoff : Fld := ⟨677, 31, .rw, fun _ => 0⟩
/-- Width of the pulse in progress in µs. (10_meridian_time.md) -/
def MTX_ppsw : Fld := ⟨678, 20, .rw, fun _ => 0⟩
/-- Target of an armed comparator, ns[47:0]. (10_meridian_time.md) -/
def TRX_tgt : Fld := ⟨679, 48, .rw, fun _ => 0⟩
/-- Its quarter. (10_meridian_time.md) -/
def TRX_q : Fld := ⟨680, 2, .rw, fun _ => 0⟩
/-- Its action. (10_meridian_time.md) -/
def TRX_act : Fld := ⟨681, 4, .rw, fun _ => 0⟩
/-- Its destination. (10_meridian_time.md) -/
def TRX_dest : Fld := ⟨682, 16, .rw, fun _ => 0⟩
/-- Its pulse width in ns. (10_meridian_time.md) -/
def TRX_width : Fld := ⟨683, 16, .rw, fun _ => 0⟩
/-- The edge is driven late: 1 on the next tick, 2 at TRX_fns (R283, R293). (10_meridian_time.md) -/
def TRX_late : Fld := ⟨684, 2, .rw, fun _ => 0⟩
/-- Meridian ns of the tick that fires it late. (10_meridian_time.md) -/
def TRX_fns : Fld := ⟨685, 64, .rw, fun _ => 0⟩
/-- Its TRG frame has been sent (R292). (10_meridian_time.md) -/
def TRX_sent : Fld := ⟨686, 1, .rw, fun _ => 0⟩
/-- Thread that armed it. (10_meridian_time.md) -/
def TRX_thr : Fld := ⟨687, 13, .rw, fun _ => 0⟩
/-- Tag of that ARM, plus one; 0 when posted. (10_meridian_time.md) -/
def TRX_tag : Fld := ⟨688, 3, .rw, fun _ => 0⟩
/-- The tag sequence of that ARM. (10_meridian_time.md) -/
def TRX_tseq : Fld := ⟨689, 64, .rw, fun _ => 0⟩
/-- Function quarantined by source 0x072 and not yet reset (R479; index: GFN). (18_faults.md) -/
def FLT_fn : Fld := ⟨690, 1, .rw, fun _ => 0⟩
/-- Port held down by a quarantine: network n, link 16+n (Table FC-2). (18_faults.md) -/
def FLT_porth : Fld := ⟨691, 1, .rw, fun _ => 0⟩
/-- DMA engine quarantined (Table FC-2). (18_faults.md) -/
def FLT_eng : Fld := ⟨692, 1, .rw, fun _ => 0⟩
/-- Completion ring quarantined (Table FC-2). (18_faults.md) -/
def FLT_ring : Fld := ⟨693, 1, .rw, fun _ => 0⟩
/-- TWIN_ALIVE_OUT driven. (17_twin.md) -/
def PAD_alive : Fld := ⟨694, 1, .rw, fun _ => 0⟩
/-- Latched high word of a reader of port counters (R238; index: reader). (08_ports.md) -/
def CNT_hi : Fld := ⟨695, 32, .rw, fun _ => 0⟩
/-- Latched upper half of TLK_TSAUX of a reader (index 4·link + reader). (08_ports.md) -/
def TSX_hi : Fld := ⟨696, 64, .rw, fun _ => 0⟩
/-- Tick of the time clock at which a pause ends: network port n and priority i at 16·n+i, PAUSE at 16·n+8, channel at 4096+64·link+c. (08_ports.md) -/
def PT_paused : Fld := ⟨697, 64, .rw, fun _ => 0⟩
/-- Tick of the time clock from which the paused time of a port is still to be counted (index: port ID). (08_ports.md) -/
def PT_psince : Fld := ⟨698, 64, .rw, fun _ => 0⟩
/-- A pause holds the port (index: port ID). (08_ports.md) -/
def PT_held : Fld := ⟨699, 1, .rw, fun _ => 0⟩
/-- Xoff has been sent and not released (same index). (08_ports.md) -/
def PT_xoff : Fld := ⟨700, 1, .rw, fun _ => 0⟩
/-- Frame a port is sending, plus one (index: port ID; links send at 0x100+64·n). (08_ports.md) -/
def PT_tx : Fld := ⟨701, 32, .rw, fun _ => 0⟩
/-- Frame a port is receiving, plus one (index: network port n, link 16+n). (08_ports.md) -/
def PT_rx : Fld := ⟨702, 32, .rw, fun _ => 0⟩
/-- Seq of the last MGMT_REQ of a slot (R246). (08_ports.md) -/
def CTL_seq : Fld := ⟨703, 8, .rw, fun _ => 0⟩
/-- DMA channel whose read-back holds the request position, plus one; 2047 once that run has ended otherwise (R373). (08_ports.md) -/
def SHX_dma : Fld := ⟨704, 11, .rw, fun _ => 0⟩
/-- Slot sequence: 0 none, 1 power-good window, 2 reset delay of POWER_ON, 3 RESET pulse, 4 power-off delay (Table PT-9). (08_ports.md) -/
def SBX_seq : Fld := ⟨3585, 3, .rw, fun _ => 0⟩
/-- Cells of the host pool in use (R250). (09_scheduling.md) -/
def SCX_host : Fld := ⟨705, 20, .rw, fun _ => 0⟩
/-- Tokens of a policer: port ID, or 4096+GFN (R251). (09_scheduling.md) -/
def POL_tok : Fld := ⟨706, 32, .rw, fun _ => 0⟩
/-- Its fraction in 1/8000 byte. (09_scheduling.md) -/
def POL_acc : Fld := ⟨707, 64, .rw, fun _ => 0⟩
/-- Meridian ns of its last visit. (09_scheduling.md) -/
def POL_last : Fld := ⟨708, 64, .rw, fun _ => 0⟩
/-- Parent of a node (index 2^18·level + index, Table SH-2). (09_scheduling.md) -/
def ND_parent : Fld := ⟨709, 18, .rw, fun _ => 0⟩
/-- Priority at the parent. (09_scheduling.md) -/
def ND_prio : Fld := ⟨710, 3, .rw, fun _ => 0⟩
/-- Node valid; always 1 at level 0. (09_scheduling.md) -/
def ND_valid : Fld := ⟨711, 1, .rw, fun i => if i < 262144 then 1 else 0⟩
/-- DWRR weight. (09_scheduling.md) -/
def ND_weight : Fld := ⟨712, 8, .rw, fun _ => 1⟩
/-- Leaf included in sampling. (09_scheduling.md) -/
def ND_smp : Fld := ⟨713, 1, .rw, fun _ => 0⟩
/-- Owning GFN. (09_scheduling.md) -/
def ND_owner : Fld := ⟨714, 13, .rw, fun i => if i < 262144 then 0x1FFE else 0x1FFF⟩
/-- Committed rate in Mb/s. (09_scheduling.md) -/
def ND_cir : Fld := ⟨715, 21, .rw, fun _ => 0⟩
/-- Peak rate in Mb/s. (09_scheduling.md) -/
def ND_pir : Fld := ⟨716, 21, .rw, fun _ => 0⟩
/-- Committed burst in 64 bytes. (09_scheduling.md) -/
def ND_cbs : Fld := ⟨717, 16, .rw, fun _ => 0⟩
/-- Peak burst in 64 bytes. (09_scheduling.md) -/
def ND_pbs : Fld := ⟨718, 16, .rw, fun _ => 0⟩
/-- Queue limit in KiB; level 0: ovh. (09_scheduling.md) -/
def ND_qlim : Fld := ⟨719, 16, .rw, fun i => if i < 16 then 20 else 0⟩
/-- RX queue of a leaf under H0 or H1. (09_scheduling.md) -/
def ND_rxq : Fld := ⟨720, 18, .rw, fun _ => 0⟩
/-- Bytes queued below the node. (09_scheduling.md) -/
def ND_depth : Fld := ⟨721, 40, .rw, fun _ => 0⟩
/-- Committed tokens, plus 2^62 (R262). (09_scheduling.md) -/
def ND_tc : Fld := ⟨722, 64, .rw, fun _ => 4611686018427387904⟩
/-- Peak tokens, plus 2^62 (R262). (09_scheduling.md) -/
def ND_tp : Fld := ⟨723, 64, .rw, fun _ => 4611686018427387904⟩
/-- Fraction of the committed bucket. (09_scheduling.md) -/
def ND_ac : Fld := ⟨724, 64, .rw, fun _ => 0⟩
/-- Fraction of the peak bucket. (09_scheduling.md) -/
def ND_ap : Fld := ⟨725, 64, .rw, fun _ => 0⟩
/-- Meridian ns of the last refill. (09_scheduling.md) -/
def ND_last : Fld := ⟨726, 64, .rw, fun _ => 0⟩
/-- DWRR deficit in bytes (R260). (09_scheduling.md) -/
def ND_def : Fld := ⟨727, 32, .rw, fun _ => 0⟩
/-- A leaf written invalid that still holds frames (R257). (09_scheduling.md) -/
def ND_drain : Fld := ⟨728, 1, .rw, fun _ => 0⟩
/-- DWRR pointer, plus one (index 16·node + 2·priority + class; the link arbiter uses node 2^20+link; R260). (09_scheduling.md) -/
def ND_ring : Fld := ⟨729, 19, .rw, fun _ => 0⟩
/-- Entries of a gate list (index 2·port + bank). (09_scheduling.md) -/
def GTX_len : Fld := ⟨730, 11, .rw, fun _ => 0⟩
/-- Take-over time of the pending list (index: port). (09_scheduling.md) -/
def GTX_base : Fld := ⟨731, 48, .rw, fun _ => 0⟩
/-- Cycle of the pending list. (09_scheduling.md) -/
def GTX_cycle : Fld := ⟨732, 32, .rw, fun _ => 0⟩
/-- Bank of the pending list. (09_scheduling.md) -/
def GTX_bank : Fld := ⟨733, 1, .rw, fun _ => 0⟩
/-- Last leaf sampled, plus one (R274). (09_scheduling.md) -/
def SMP_cur : Fld := ⟨734, 19, .rw, fun _ => 0⟩
/-- A half awaits dump (index: half, R275). (09_scheduling.md) -/
def SMP_full : Fld := ⟨735, 1, .rw, fun _ => 0⟩
/-- The next record carries gap (R275). (09_scheduling.md) -/
def SMP_gap : Fld := ⟨736, 1, .rw, fun _ => 0⟩
/-- Deficit of a function for the host pool (R421; index: GFN). (15_functions.md) -/
def FHX_def : Fld := ⟨737, 32, .rw, fun _ => 0⟩
/-- Function the host-pool DWRR serves next. (15_functions.md) -/
def FHX_ptr : Fld := ⟨738, 13, .rw, fun _ => 0⟩
/-- Queue of the function last served. (15_functions.md) -/
def FHX_q : Fld := ⟨739, 18, .rw, fun _ => 0⟩
/-- Source the parser served last, plus one (R170; index: pipeline). (06_pipelines.md) -/
def PRS_last : Fld := ⟨740, 8, .rw, fun _ => 0⟩
/-- Attribute byte of a key slot (index 64·page + slot, Table CP-2). (11_cipher.md) -/
def KY_attr : Fld := ⟨741, 8, .rw, fun _ => 0⟩
/-- The slot holds a key. (11_cipher.md) -/
def KY_valid : Fld := ⟨742, 1, .rw, fun _ => 0⟩
/-- Load and zeroisation count of the slot (R315). (11_cipher.md) -/
def KY_gen : Fld := ⟨743, 8, .rw, fun _ => 0⟩
/-- Deficit of a function (or 0x2000, threads) for look-aside lanes, plus 2^31 (R330). (11_cipher.md) -/
def CPX_def : Fld := ⟨744, 33, .rw, fun _ => 2147483648⟩
/-- Jobs that have arrived so far. (11_cipher.md) -/
def CPX_seq : Fld := ⟨745, 48, .rw, fun _ => 0⟩
/-- Function the look-aside DWRR serves next. (11_cipher.md) -/
def CPX_ptr : Fld := ⟨746, 14, .rw, fun _ => 0⟩
/-- Suspensions so far (R328). (11_cipher.md) -/
def CPX_sus : Fld := ⟨747, 32, .rw, fun _ => 0⟩
/-- Generate requests since the last reseed (R311). (11_cipher.md) -/
def RNG_req : Fld := ⟨748, 17, .rw, fun _ => 0⟩
/-- Outer IPv4 identification of a template (R341; index: template). (12_offloads.md) -/
def OFX_ipid : Fld := ⟨749, 16, .rw, fun _ => 0⟩
/-- SA_NEAR has been written for the SA (R348). (12_offloads.md) -/
def OFX_near : Fld := ⟨750, 1, .rw, fun _ => 0⟩
/-- SA_EXHAUSTED has been written for the SA (R357). (12_offloads.md) -/
def OFX_exh : Fld := ⟨751, 1, .rw, fun _ => 0⟩
/-- What started the run: 0 none, 1 register, 2 trigger, 3 entry, 4 command (R378; index: channel). (13_dma.md) -/
def DMX_kind : Fld := ⟨752, 3, .rw, fun _ => 0⟩
/-- Queue of the entry that started it. (13_dma.md) -/
def DMX_q : Fld := ⟨753, 18, .rw, fun _ => 0⟩
/-- Its index. (13_dma.md) -/
def DMX_idx : Fld := ⟨754, 16, .rw, fun _ => 0⟩
/-- Thread of the command that started it. (13_dma.md) -/
def DMX_thr : Fld := ⟨755, 13, .rw, fun _ => 0⟩
/-- Its tag plus one; 0 when posted. (13_dma.md) -/
def DMX_tag : Fld := ⟨756, 3, .rw, fun _ => 0⟩
/-- The tag sequence of the command. (13_dma.md) -/
def DMX_tseq : Fld := ⟨757, 64, .rw, fun _ => 0⟩
/-- Source address form of the run. (13_dma.md) -/
def DMX_src : Fld := ⟨758, 64, .rw, fun _ => 0⟩
/-- Destination address form of the run. (13_dma.md) -/
def DMX_dst : Fld := ⟨759, 64, .rw, fun _ => 0⟩
/-- Bytes of the run. (13_dma.md) -/
def DMX_len : Fld := ⟨760, 32, .rw, fun _ => 0⟩
/-- Configuration of the run. (13_dma.md) -/
def DMX_cfg : Fld := ⟨761, 32, .rw, fun _ => 0⟩
/-- Start time of the run. (13_dma.md) -/
def DMX_stime : Fld := ⟨762, 48, .rw, fun _ => 0⟩
/-- Late of the run (R367). (13_dma.md) -/
def DMX_rl : Fld := ⟨763, 1, .rw, fun _ => 0⟩
/-- Result the run ends with once read back. (13_dma.md) -/
def DMX_res : Fld := ⟨764, 8, .rw, fun _ => 0⟩
/-- The start time is still to come (R367). (13_dma.md) -/
def DMX_wait : Fld := ⟨765, 1, .rw, fun _ => 0⟩
/-- Deficit of an owner (index 0x2000·engine + owner, R361). (13_dma.md) -/
def DMX_def : Fld := ⟨766, 34, .rw, fun _ => 0⟩
/-- Owner the engine serves next (index: engine). (13_dma.md) -/
def DMX_ptr : Fld := ⟨767, 13, .rw, fun _ => 0⟩
/-- Local index the engine served last (index 0x2000·engine + owner). (13_dma.md) -/
def DMX_ch : Fld := ⟨768, 4, .rw, fun _ => 0⟩
/-- Base of the list in force, all its bits (index: port, R272). (09_scheduling.md) -/
def GTX_now : Fld := ⟨769, 64, .rw, fun _ => 0⟩
/-- Entries of the list in force (index: port). (09_scheduling.md) -/
def GTX_opl : Fld := ⟨770, 11, .rw, fun _ => 0⟩
/-- Flow entry (Table FT-2) as a little-endian number (index 2^24·way + slot). (07_forwarding_tables.md) -/
def FLX_ent : Fld := ⟨771, 512, .rw, fun _ => 0⟩
/-- Hinted way of a flow hash (R194; index h_0). (07_forwarding_tables.md) -/
def FLX_hint : Fld := ⟨772, 2, .rw, fun _ => 0⟩
/-- LPM slot (Table FT-3) as a little-endian number (index 2^17·pipeline + slot). (07_forwarding_tables.md) -/
def LPX_slot : Fld := ⟨773, 256, .rw, fun _ => 0⟩
/-- Slots of a region behind its start, invalidated ones too (R199, R212; index 164·pipeline + region). (07_forwarding_tables.md) -/
def LPX_len : Fld := ⟨774, 18, .rw, fun _ => 0⟩
/-- Invalidated slots among them (R212). (07_forwarding_tables.md) -/
def LPX_bad : Fld := ⟨775, 18, .rw, fun _ => 0⟩
/-- L2 entry (Table FT-5) as a little-endian number (index 2^18·pipeline + entry). (07_forwarding_tables.md) -/
def L2X_ent : Fld := ⟨776, 128, .rw, fun _ => 0⟩
/-- Tick of the time clock at which its move window began (R207). (07_forwarding_tables.md) -/
def L2X_win : Fld := ⟨777, 64, .rw, fun _ => 0⟩
/-- Status of the TBL_CMD operation in progress (R213). (07_forwarding_tables.md) -/
def TBX_result : Fld := ⟨778, 8, .rw, fun _ => 0⟩
/-- Its moves. (07_forwarding_tables.md) -/
def TBX_moves : Fld := ⟨779, 8, .rw, fun _ => 0⟩
/-- Its failed pipelines. (07_forwarding_tables.md) -/
def TBX_fail : Fld := ⟨780, 8, .rw, fun _ => 0⟩
/-- Position of the L2 flush in progress, plus one: 2^18·pipeline + entry (R209). (07_forwarding_tables.md) -/
def TBX_flush : Fld := ⟨781, 22, .rw, fun _ => 0⟩
/-- Pipelines of the flush. (07_forwarding_tables.md) -/
def TBX_fpipes : Fld := ⟨782, 8, .rw, fun _ => 0⟩
/-- Filters of the flush: bd, port. (07_forwarding_tables.md) -/
def TBX_fsel : Fld := ⟨783, 2, .rw, fun _ => 0⟩
/-- Bridge domain of the filter. (07_forwarding_tables.md) -/
def TBX_fbd : Fld := ⟨784, 16, .rw, fun _ => 0⟩
/-- Port of the filter. (07_forwarding_tables.md) -/
def TBX_fport : Fld := ⟨785, 11, .rw, fun _ => 0⟩
/-- Classifier entry: value, mask, action record as a little-endian number, and its valid bit (Table PP-9; index 2^15·pipeline + entry). (06_pipelines.md) -/
def CLX_ent : Fld := ⟨786, 1537, .rw, fun _ => 0⟩
/-- A read of PPL_CLS_RD waits for the end of the window (index: pipeline). (06_pipelines.md) -/
def CLX_rdp : Fld := ⟨787, 1, .rw, fun _ => 0⟩
/-- Source of the latched warning (R484). (18_faults.md) -/
def PW_src : Fld := ⟨788, 9, .rw, fun _ => 0⟩
/-- Meridian ns of its detection (R484). (18_faults.md) -/
def PW_ns : Fld := ⟨789, 64, .rw, fun _ => 0⟩
/-- Owner of a tunnel template, its record's bytes 8-9 (Table OF-6). (12_offloads.md) -/
def TPX_owner : Fld := ⟨790, 13, .rw, fun _ => 0x1FFF⟩
/-- Owner of an NVMe/TCP connection context, its record's bytes 0-1 (Table OF-11). (12_offloads.md) -/
def NVX_owner : Fld := ⟨791, 13, .rw, fun _ => 0x1FFF⟩
/-- The doorbell is rung once more when the reset receiver can take it (R440; index: channel). (16_mailboxes.md) -/
def MBS_owed : Fld := ⟨792, 1, .rw, fun _ => 0⟩
/-- Staged word of a VF's up direction (index 8·GFN + word, R444). (16_mailboxes.md) -/
def PVU_tx : Fld := ⟨793, 32, .rw, fun _ => 0⟩
/-- Header of its message. (16_mailboxes.md) -/
def PVU_hdr : Fld := ⟨794, 32, .rw, fun _ => 0⟩
/-- Word of its message (index 8·GFN + word). (16_mailboxes.md) -/
def PVU_data : Fld := ⟨795, 32, .rw, fun _ => 0⟩
/-- Its FULL. (16_mailboxes.md) -/
def PVU_full : Fld := ⟨796, 1, .rw, fun _ => 0⟩
/-- Its commit that found FULL. (16_mailboxes.md) -/
def PVU_txfull : Fld := ⟨797, 1, .rw, fun _ => 0⟩
/-- Its sender epoch. (16_mailboxes.md) -/
def PVU_epoch : Fld := ⟨798, 8, .rw, fun _ => 0⟩
/-- Its sender has staged or committed since the epoch last changed (R439). (16_mailboxes.md) -/
def PVU_rec : Fld := ⟨799, 1, .rw, fun _ => 0⟩
/-- Purge_up. (16_mailboxes.md) -/
def PVU_purge : Fld := ⟨800, 1, .rw, fun _ => 0⟩
/-- Its doorbell is owed after a reset of the PF (R440). (16_mailboxes.md) -/
def PVU_owed : Fld := ⟨801, 1, .rw, fun _ => 0⟩
/-- Staged word of a VF's down direction (index 8·GFN + word, R444). (16_mailboxes.md) -/
def PVD_tx : Fld := ⟨802, 32, .rw, fun _ => 0⟩
/-- Header of its message. (16_mailboxes.md) -/
def PVD_hdr : Fld := ⟨803, 32, .rw, fun _ => 0⟩
/-- Word of its message (index 8·GFN + word). (16_mailboxes.md) -/
def PVD_data : Fld := ⟨804, 32, .rw, fun _ => 0⟩
/-- Its FULL. (16_mailboxes.md) -/
def PVD_full : Fld := ⟨805, 1, .rw, fun _ => 0⟩
/-- Its commit that found FULL. (16_mailboxes.md) -/
def PVD_txfull : Fld := ⟨806, 1, .rw, fun _ => 0⟩
/-- Its sender epoch. (16_mailboxes.md) -/
def PVD_epoch : Fld := ⟨807, 8, .rw, fun _ => 0⟩
/-- Its sender has staged or committed since the epoch last changed (R439). (16_mailboxes.md) -/
def PVD_rec : Fld := ⟨808, 1, .rw, fun _ => 0⟩
/-- Purge_dn. (16_mailboxes.md) -/
def PVD_purge : Fld := ⟨809, 1, .rw, fun _ => 0⟩
/-- Its doorbell is owed after a reset of the VF (R440). (16_mailboxes.md) -/
def PVD_owed : Fld := ⟨810, 1, .rw, fun _ => 0⟩
/-- VF_IRQ.en of a VF's mailbox page. (16_mailboxes.md) -/
def PVM_irq_en : Fld := ⟨811, 1, .rw, fun _ => 0⟩
/-- VF_IRQ.vec of a VF's mailbox page. (16_mailboxes.md) -/
def PVM_irq_vec : Fld := ⟨812, 6, .rw, fun _ => 0⟩
/-- Endpoint ID of the MCTP endpoint (R443). (16_mailboxes.md) -/
def MCTP_eid : Fld := ⟨3586, 8, .rw, fun _ => 0⟩
/-- Blocks of a window handed back since en was set (Table MB-8; index 16·pf + window). (16_mailboxes.md) -/
def WNX_seq : Fld := ⟨813, 32, .rw, fun _ => 0⟩
/-- The device user found the block host-owned and reads its header again after retry_us (R448). (16_mailboxes.md) -/
def WNX_wait : Fld := ⟨814, 1, .rw, fun _ => 0⟩
/-- What a migration unit does: 0 nothing, 1 FREEZE waiting for work, 2 its image written, 3 THAW (R424, R428). (15_functions.md) -/
def MGX_op : Fld := ⟨815, 2, .rw, fun _ => 0⟩
/-- VF a migration unit works on. (15_functions.md) -/
def MGX_gfn : Fld := ⟨816, 13, .rw, fun _ => 0⟩
/-- PCIE_PERSTn_N is low (R406; index: endpoint). (14_host_endpoints.md) -/
def HEX_perst : Fld := ⟨3587, 1, .rw, fun _ => 0⟩
/-- Base address of VF BAR0 in the SR-IOV capability (index: PF). (14_host_endpoints.md) -/
def CFG_vfbar : Fld := ⟨817, 64, .rw, fun _ => 0⟩
/-- SYS_RST_N is low (R487, R507). (20_power_and_startup.md) -/
def RST_low : Fld := ⟨3588, 1, .rw, fun _ => 0⟩
/-- A rail other than VDD_AON is out of its range (R488). (20_power_and_startup.md) -/
def RAIL_out : Fld := ⟨3589, 1, .rw, fun _ => 0⟩
/-- What the next start is entered by (Table PS-5): 1 power-on, 2 SYS_RST_N, 3 dev_reset, 4 ledger restart. (20_power_and_startup.md) -/
def BTX_entry : Fld := ⟨3590, 3, .rw, fun _ => 1⟩
/-- The AON copy of the ledger is held, so that S2 has nothing to restore (Table PS-4). (20_power_and_startup.md) -/
def BTX_led : Fld := ⟨3591, 1, .rw, fun _ => 0⟩
/-- SYS_REFCLK shows no edge (R502). (20_power_and_startup.md) -/
def CLK_lost : Fld := ⟨3592, 1, .rw, fun _ => 0⟩
/-- SerDes groups whose lanes are calibrated (R503). (20_power_and_startup.md) -/
def SDS_cal : Fld := ⟨818, 11, .rw, fun _ => 0⟩
/-- A fuse op is armed (R519). (20_power_and_startup.md) -/
def BFX_armed : Fld := ⟨819, 1, .rw, fun _ => 0⟩
/-- That op. (20_power_and_startup.md) -/
def BFX_op : Fld := ⟨820, 4, .rw, fun _ => 0⟩
/-- Its argument. (20_power_and_startup.md) -/
def BFX_arg : Fld := ⟨821, 7, .rw, fun _ => 0⟩
/-- Tick of the time clock of the arm. (20_power_and_startup.md) -/
def BFX_ns : Fld := ⟨822, 64, .rw, fun _ => 0⟩
/-- Profile that a change in progress applies (R23). (01_device_overview.md) -/
def GLX_profile : Fld := ⟨823, 2, .rw, fun _ => 0⟩
/-- Neither copy of the collector's registers passes its check (R485). (18_faults.md) -/
def FLT_dead : Fld := ⟨3593, 1, .rw, fun _ => 0⟩
/-- FUSE_DEBUG_CLOSE is programmed (R519). (20_power_and_startup.md) -/
def FZ_debug : Fld := ⟨3903, 1, .rw, fun _ => 0⟩
/-- Key slots whose revocation is programmed. (20_power_and_startup.md) -/
def FZ_revoked : Fld := ⟨3904, 4, .rw, fun _ => 0⟩
/-- Security version programmed in the fuses. (20_power_and_startup.md) -/
def FZ_svn : Fld := ⟨3905, 7, .rw, fun _ => 0⟩
/-- Alternatives of later starts, in MRAM (R515). (20_power_and_startup.md) -/
def MRX_alt : Fld := ⟨3906, 10, .rw, fun _ => 0⟩
/-- Starts since manufacture (Table PS-5). (20_power_and_startup.md) -/
def MRX_start : Fld := ⟨3907, 32, .rw, fun _ => 0⟩
/-- The pair was HEALTHY at the stop (R467). (17_twin.md) -/
def MRX_healthy : Fld := ⟨3908, 1, .rw, fun _ => 0⟩
/-- Dump number since en was set (R499). (19_performance.md) -/
def PMX_seq : Fld := ⟨824, 32, .rw, fun _ => 0⟩
/-- Strobes skipped since the previous dump (R497). (19_performance.md) -/
def PMX_skips : Fld := ⟨825, 32, .rw, fun _ => 0⟩
/-- The dump in progress follows skipped strobes (Table PM-4). (19_performance.md) -/
def PMX_gap : Fld := ⟨826, 1, .rw, fun _ => 0⟩
/-- Period in force, µs; 0 for none (R498). (19_performance.md) -/
def PMX_per : Fld := ⟨827, 24, .rw, fun _ => 0⟩
/-- Meridian ns of the next periodic strobe. (19_performance.md) -/
def PMX_next : Fld := ⟨828, 64, .rw, fun _ => 0⟩
/-- Core cycles of a cluster in fifths (R493; index: cluster). (19_performance.md) -/
def PMX_cyc : Fld := ⟨829, 64, .rw, fun _ => 0⟩
/-- Records of the half being dumped that are written (R499). (19_performance.md) -/
def PMX_smp : Fld := ⟨830, 12, .rw, fun _ => 0⟩
/-- Packet count of a program counter pair (R491; index 2^20·bank + index). (19_performance.md) -/
def CTR_pkts : Fld := ⟨831, 64, .rw, fun _ => 0⟩
/-- Its byte count. (19_performance.md) -/
def CTR_bytes : Fld := ⟨832, 64, .rw, fun _ => 0⟩
/-- The clock left Drift in the present tick (R301). (10_meridian_time.md) -/
def MTX_exit : Fld := ⟨833, 1, .rw, fun _ => 0⟩
/-- A write of 1 to dp_en waits for the end of a profile change (R23). (01_device_overview.md) -/
def GLX_defer : Fld := ⟨834, 1, .rw, fun _ => 0⟩
/-- The poll interval in force when the due time was set, ns (R73, R95). (03_work_queues.md) -/
def QX_ival : Fld := ⟨835, 32, .rw, fun _ => 0⟩
/-- A writeback waits for Bus Master Enable of the owner (R397). (03_work_queues.md) -/
def QX_wbowed : Fld := ⟨836, 1, .rw, fun _ => 0⟩
/-- The RECOVERY record of the queue is still to be written (R58). (02_accepted_work.md) -/
def QX_recow : Fld := ⟨837, 1, .rw, fun _ => 0⟩
/-- Reports that Firn owed for the queue at boot step S7 (R58). (02_accepted_work.md) -/
def QX_recn : Fld := ⟨838, 16, .rw, fun _ => 0⟩
/-- Acceptance sequence that Firn held at boot step S7 (R58). (02_accepted_work.md) -/
def QX_fseq : Fld := ⟨839, 48, .rw, fun _ => 0⟩
/-- Owner that Firn held at boot step S7 (R58). (02_accepted_work.md) -/
def QX_fgfn : Fld := ⟨840, 13, .rw, fun _ => 0⟩
/-- Ticks of the time clock, by which the lag of the drain of staging is measured (R50). (02_accepted_work.md) -/
def CLK_ticks : Fld := ⟨3016, 64, .rw, fun _ => 0⟩
/-- Tick and quarter of the last edge driven on SLOT_TRIG, and whether it rose (R291; index: slot). (10_meridian_time.md) -/
def SBX_edge : Fld := ⟨841, 80, .rw, fun _ => 0⟩
/-- Tick of the last take-over, plus one (R273; index: port). (09_scheduling.md) -/
def GTX_tick : Fld := ⟨842, 65, .rw, fun _ => 0⟩
/-- Leaf last read through SCH_NODE_CMD, plus one; 0 where a node of another level was (R257). (09_scheduling.md) -/
def NDX_read : Fld := ⟨843, 19, .rw, fun _ => 0⟩
/-- Runs of placed data that were deciphered so far (R356). (11_cipher.md) -/
def CPX_dec : Fld := ⟨844, 48, .rw, fun _ => 0⟩
/-- Tick of the last fault or removal of the slot, plus one (R243). (08_ports.md) -/
def SBX_hit : Fld := ⟨3594, 65, .rw, fun _ => 0⟩
/-- Subsystem Vendor ID from the header of the image, 0x1B7E where it supplies none (R384). (14_host_endpoints.md) -/
def IMG_ssvid : Fld := ⟨845, 16, .rw, fun _ => 0x1B7E⟩
/-- Subsystem ID from the header of the image (R384). (14_host_endpoints.md) -/
def IMG_ssid : Fld := ⟨846, 16, .rw, fun _ => 0⟩
/-- Errors that an engine found in posted commands and no register counts (R158; index: engine of Table NI-12). (05_niris_isa.md) -/
def ENG_err : Fld := ⟨847, 32, .rw, fun _ => 0⟩
/-- A restart of the management threads is under way (R139). (04_flow_processors.md) -/
def MCX_restart : Fld := ⟨848, 1, .rw, fun _ => 0⟩
/-- Tick of the next step of the table operation in progress (R200). (07_forwarding_tables.md) -/
def TBX_next : Fld := ⟨849, 64, .rw, fun _ => 0⟩
/-- Tick at which the time tally of a vector began (R415; index: vector). (15_functions.md) -/
def VMOD_at : Fld := ⟨850, 64, .rw, fun _ => 0⟩
/-- Tick of the last reset of the function, plus one (R419). (15_functions.md) -/
def FN_flr : Fld := ⟨851, 65, .rw, fun _ => 0⟩
/-- Tick of the last command to a migration unit, plus one (R419). (15_functions.md) -/
def MGX_at : Fld := ⟨852, 65, .rw, fun _ => 0⟩
/-- The VF that it named (R419). (15_functions.md) -/
def MGX_cmd : Fld := ⟨853, 13, .rw, fun _ => 0⟩
/-- Tick of the last snapshot, plus one (R497). (19_performance.md) -/
def PMX_tick : Fld := ⟨854, 65, .rw, fun _ => 0⟩
/-- `PMU_DUMP_START` as it was when the periodic strobes began (R498). (19_performance.md) -/
def PMX_base : Fld := ⟨855, 64, .rw, fun _ => 0⟩
/-- Tick at which the block at the cursor was last found host-owned (R448; index: window). (16_mailboxes.md) -/
def WNX_at : Fld := ⟨856, 64, .rw, fun _ => 0⟩
/-- Tick at which PAIRING, or an unpair, began (R454, R474). (17_twin.md) -/
def TWX_at : Fld := ⟨857, 64, .rw, fun _ => 0⟩
/-- Tick of the last detection of the source, plus one (R480; index: source). (18_faults.md) -/
def FLT_at : Fld := ⟨3595, 65, .rw, fun _ => 0⟩
/-- Tick of the last entry to WHITEOUT, plus one (R484). (18_faults.md) -/
def FLT_wot : Fld := ⟨3596, 65, .rw, fun _ => 0⟩
/-- The `err_cause` of the quarantine of the queue: 2 QUEUE, 3 RING (Table FC-2). (18_faults.md) -/
def QX_quarc : Fld := ⟨858, 2, .rw, fun _ => 0⟩
/-- Tick of the time clock at S1 of the current start (Table PS-5). (20_power_and_startup.md) -/
def BTX_s1 : Fld := ⟨3597, 64, .rw, fun _ => 0⟩
/-- Tick at which the boot step in progress, or its alternative, began (R511). (20_power_and_startup.md) -/
def BTX_at : Fld := ⟨3598, 64, .rw, fun _ => 0⟩

end Sys2Proof.Machine.Reg
end

