-- ==== Sys2Proof/Machine/Mem.lean ====
section
/-! DEFINITION. Sys2Proof/Machine/Mem.lean: a byte memory of the block as a list of cells in one canonical form. -/

namespace Sys2Proof.Machine

/-- A byte memory: the cells that differ from the unlisted byte, addresses strictly rising. -/
abbrev Mem := List Host.Cell

namespace Memory

/-- What an unlisted address reads as: zero. R144 gives an instruction store of zeros after boot step S5;
for the other memories of the block this is the model's DESIGN CHOICE (log entry 3, unsafe). -/
def empty : Byte := 0#8

/-- The byte at an address. -/
def read : Mem → Nat → Byte
  | [], _ => empty
  | (k, v) :: m, a => if a = k then v else if a < k then empty else read m a

/-- List a cell, keeping the addresses rising. -/
def ins : Mem → Nat → Byte → Mem
  | [], a, x => [(a, x)]
  | (k, v) :: m, a, x =>
    if a = k then (k, x) :: m else if a < k then (a, x) :: (k, v) :: m else (k, v) :: ins m a x

/-- Take an address off the list. -/
def del : Mem → Nat → Mem
  | [], _ => []
  | (k, v) :: m, a => if a = k then m else if a < k then (k, v) :: m else (k, v) :: del m a

/-- Store one byte, keeping the canonical form. -/
def write (m : Mem) (a : Nat) (x : Byte) : Mem := if x = empty then del m a else ins m a x

/-- Store bytes at consecutive addresses, the first at `a`. -/
def writeBytes : Mem → Nat → List Byte → Mem
  | m, _, [] => m
  | m, a, x :: xs => writeBytes (write m a x) (a + 1) xs

/-- Read `n` bytes at consecutive addresses, the first at `a`. -/
def readBytes (m : Mem) (a n : Nat) : List Byte := (List.range n).map (fun k => read m (a + k))

/-- Every address of the list is above `b`. -/
def above (b : Nat) : Mem → Bool
  | [] => true
  | (k, _) :: m => decide (b < k) && above b m

/-- The addresses rise strictly. -/
def sorted : Mem → Bool
  | [] => true
  | (k, _) :: m => above k m && sorted m

/-- The canonical form: addresses strictly rising, no cell equal to the unlisted byte. -/
def wf (m : Mem) : Bool := sorted m && m.all (fun c => decide (c.2 ≠ empty))

end Memory

end Sys2Proof.Machine
end

