-- ==== Sys2Proof/Machine/SMap.lean ====
section
/-! DEFINITION. Sys2Proof/Machine/SMap.lean: sparse maps from a number to plain data, as a list of pairs in one
canonical form (numbers strictly rising, no entry equal to the default), so that equal maps are equal data. -/

namespace Sys2Proof.Machine

/-- A sparse map: (key, value) pairs, keys strictly rising. -/
abbrev SMap (α : Type) := List (Nat × α)

namespace SM

variable {α : Type}

/-- The entry of a key, if it is listed. -/
def find? : SMap α → Nat → Option α
  | [], _ => none
  | (k, v) :: m, i => if i = k then some v else if i < k then none else find? m i

/-- List a key with a value, keeping the keys rising. -/
def ins : SMap α → Nat → α → SMap α
  | [], i, x => [(i, x)]
  | (k, v) :: m, i, x =>
    if i = k then (k, x) :: m else if i < k then (i, x) :: (k, v) :: m else (k, v) :: ins m i x

/-- Take a key off the list. -/
def del : SMap α → Nat → SMap α
  | [], _ => []
  | (k, v) :: m, i => if i = k then m else if i < k then (k, v) :: m else (k, v) :: del m i

/-- The value of a key; an unlisted key has the default. -/
def get (d : α) (m : SMap α) (i : Nat) : α := (find? m i).getD d

/-- Give a key a value; the default is not listed. -/
def put [DecidableEq α] (d : α) (m : SMap α) (i : Nat) (x : α) : SMap α :=
  if x = d then del m i else ins m i x

/-- Every key of the list is above `b`. -/
def above (b : Nat) : SMap α → Bool
  | [] => true
  | (k, _) :: m => decide (b < k) && above b m

/-- The keys rise strictly. -/
def sorted : SMap α → Bool
  | [] => true
  | (k, _) :: m => above k m && sorted m

/-- The canonical form for a default value. -/
def wf [DecidableEq α] (d : α) (m : SMap α) : Bool :=
  sorted m && m.all (fun e => decide (e.2 ≠ d))

end SM

end Sys2Proof.Machine
end

