-- ==== Sys2Proof/Machine/State.lean ====
section
/-! DEFINITION. Sys2Proof/Machine/State.lean: everything the manual gives the device, as plain data. Every number a
register shows, and every number it does not show, is an entry of `fld` (Regs.lean defines which); what is a queue,
a record or a memory has a field of its own. -/

namespace Sys2Proof.Machine

/-- What the device drives on one of its faces. -/
inductive Out where
  /-- a posted write to host memory for a function (R34, R383); `ro`, `ns` as R391 gives -/
  | hostWrite (gfn addr : Nat) (bytes : List Byte) (ro ns : Bool)
  /-- a read request to host memory with its tag (R382) -/
  | hostRead (gfn tag addr len : Nat) (ro ns : Bool)
  /-- an MSI-X message of a vector of a function (R414) -/
  | msix (gfn vec addr data : Nat)
  /-- an error message on an endpoint's link: 0 ERR_COR, 1 ERR_NONFATAL, 2 ERR_FATAL (R394, R395) -/
  | errMsg (h gfn sev : Nat)
  /-- the data a register read returns -/
  | regData (who : Who) (size val : Nat)
  /-- a completion with Completer Abort or Unsupported Request to an inbound request (R389) -/
  | badCpl (gfn : Nat) (ur : Bool)
  /-- a frame on an external port, FCS left out -/
  | frame (port : Nat) (bytes : List Byte)
  /-- a twin frame on W0 (Table TW-2): its counter, what it says, and its bytes on the wire, FCS left out -/
  | twin (ctr : Nat) (msg : TwinMsg) (wire : List Byte)
  /-- an MCTP response to the BMC (R443) -/
  | mctp (bytes : List Byte)
  /-- a transfer on a slot's I2C bus (R245): slot, address, the bytes it writes, and how many it reads, after a repeated
  start where it writes too -/
  | i2c (slot addr : Nat) (bytes : List Byte) (reads : Nat)
  /-- nine clocks and a STOP on a slot's I2C bus, after TIMEOUT (R245) -/
  | i2cClear (slot : Nat)
deriving DecidableEq, Repr

/-- A completion ready to be written: its entry's status and results (Tables WQ-7 and WQ-8). -/
structure Compl where
  q : Nat
  idx : Nat
  status : Nat
  rlen : Nat := 0
  result : Nat := 0
  ts : Nat := 0
  more : Bool := false
deriving DecidableEq, Repr

/-- An accepted work entry that is not yet accounted (R33). -/
structure Ent where
  /-- queue index -/
  idx : Nat
  /-- acceptance sequence (R36) -/
  seq : Nat
  /-- the entry's 64 bytes (Table WQ-2) -/
  bytes : List Byte
  /-- fragments once the fragment table is read: address, length, ro, ns (R69); empty for a direct entry -/
  frags : List (Nat × Nat × Bool × Bool)
  /-- a fragment table is still to be read (R69) -/
  tab : Bool
  /-- handed to a pipeline, thread or engine -/
  way : Bool
  /-- a TX entry whose frame waits for the host pool or for its pipeline, which has not taken it yet (R170, R250) -/
  sent : Bool := false
  /-- status, for an entry that is finished but not yet passed by `done_idx` -/
  done : Option Nat
  /-- the completion waits: for the partner's acknowledgement (R48), or for Bus Master Enable of the owner -/
  mirr : Bool
  /-- the completion that waits for Bus Master Enable of the owner (R397) -/
  hold : Option Compl := none
  /-- Meridian ns of its acceptance -/
  acc : Nat := 0
deriving DecidableEq, Repr

/-- What Firn holds of an outstanding entry (R56, R59). -/
structure FirnEnt where
  idx : Nat
  seq : Nat
  tag : Nat
deriving DecidableEq, Repr

/-- What Firn holds of a queue (R58): the published head and sequence, the outstanding entries, whether an entry was
accepted since the last final head, and the configuration a re-created queue is compared with (R59). -/
structure FirnQ where
  head : Nat := 0
  seq  : Nat := 0
  live : List FirnEnt := []
  since : Bool := false
  gfn : Nat := 0x1FFF
  base : Nat := 0
  log2size : Nat := 0
  cmode : Nat := 0
  cq : Nat := 0
  /-- mirrored in HEALTHY: the partner owes its accounting (R467) -/
  twin : Bool := false
deriving DecidableEq, Repr

/-- A record of Firn's stream (R50). -/
inductive FirnRec where
  /-- an acceptance: queue, entry, and the configuration of the queue -/
  | accept (q : Nat) (e : FirnEnt) (gfn base log2size cmode cq : Nat) (twin : Bool)
  /-- a completion: queue and index -/
  | done (q idx : Nat)
  /-- a final published head (R58): queue, head -/
  | final (q head : Nat)
  /-- a journalled entry was discarded before step 4 of R33 (R91): queue, its index, its sequence -/
  | undo (q idx seq : Nat)
deriving DecidableEq, Repr

/-- A registered NVMe/TCP placement (R356): connection, command, the entry it belongs to, bytes placed, and whether a
data digest failed. -/
structure Place where
  conn : Nat
  cid : Nat
  q : Nat
  idx : Nat
  placed : Nat
  bad : Bool
deriving DecidableEq, Repr

/-- Where a frame is. -/
inductive Stage where
  /-- its bytes are arriving at its port, or being fetched from host memory -/
  | arriving
  /-- complete in the cell buffer, a parser candidate (R170) -/
  | parse
  /-- waits for a thread in its pipeline's dispatch queue (R111) -/
  | dispatch
  /-- held by a thread (R109) -/
  | thread (t : Nat)
  /-- released, waits in the reorder buffer for its ticket (R116) -/
  | reorder
  /-- in the exception queue (R137) -/
  | exception
  /-- in the egress stage before its leaf (R335) -/
  | egress (l : Nat)
  /-- queued on an egress leaf (Table SH-1) -/
  | leaf (l : Nat)
  /-- being sent by a port, or written into RX buffers -/
  | sending (port : Nat)
deriving DecidableEq, Repr

/-- What the receive header will say of a frame (Table OF-7). -/
structure RxInfo where
  /-- checksum codes: 0 not checked, 1 good, 2 bad -/
  l3 : Nat := 0
  l4 : Nat := 0
  decap : Bool := false
  /-- protection step: 0 none, 1 ESP, 2 MACsec, 3 TLS -/
  sec : Nat := 0
  secOk : Bool := false
  secFail : Bool := false
  tlsPart : Bool := false
  nvPlaced : Bool := false
  nvBad : Bool := false
  /-- TLS or NVMe/TCP tracking processed it (R345) -/
  tracked : Bool := false
  segs : Nat := 1
  mss : Nat := 0
  vni : Nat := 0
  tun : Nat := 0
deriving DecidableEq, Repr

/-- A frame in the cell buffer. -/
structure Frame where
  /-- the frame as stored: no FCS, no channel tag of ingress -/
  bytes : List Byte := []
  /-- ingress port ID; 0x020, 0x021 host; 0x7FF built by SEND FRAME -/
  src : Nat := 0x7FF
  pipe : Nat := 0
  /-- arrival, or acceptance for host work, in quarter nanoseconds -/
  arrq : Nat := 0
  /-- host work: its queue, plus one, and its entry's index and sequence -/
  qp1 : Nat := 0
  idx : Nat := 0
  seq : Nat := 0
  stage : Stage := .arriving
  /-- bytes still to come from host memory -/
  need : Nat := 0
  /-- cells charged (R248) -/
  cells : Nat := 0
  /-- ingress priority (R236) -/
  iprio : Nat := 0
  /-- the window the pipeline builds (Table FP-4); empty before that -/
  win : List Byte := []
  prog : Nat := 0
  domain : Nat := 0
  tc : Nat := 0
  /-- `egress` of the TX entry; 0x7FF otherwise -/
  egress : Nat := 0x7FF
  /-- egress: launch time in ns, 0 for none -/
  launch : Nat := 0
  /-- egress: SA index plus one, whether a thread or the entry named it, the `offl` word applied, `mss`, header
  offsets of the entry as adjusted, window `meta`, `flow_hash`, and whether a one-step time-stamp is asked -/
  sa : Nat := 0
  saThr : Bool := false
  offl : Nat := 0
  mss : Nat := 0
  l3 : Nat := 0
  l4 : Nat := 0
  meta_ : Nat := 0
  hash : Nat := 0
  ts : Bool := false
  /-- bytes of a channel tag that the MAC inserted, which no length counts (R224, R232) -/
  tagged : Nat := 0
  /-- Meridian ns of its enqueue on a leaf (R274) -/
  enq : Nat := 0
  /-- the leaf it left by; 0 before -/
  from_ : Nat := 0
  /-- the completion of the host entry is settled elsewhere: a frame cut from it that is not the last (R338) -/
  part : Bool := false
  /-- a segment that is not the last of its entry (R338) -/
  seg : Bool := false
  /-- place in the offload steps: 0 entered; 1 waits for its inline job before the other steps, 2 that job has ended;
  4 waits for its inline job after them, 3 all steps are done; 6 waits for the inline job of its placement, 5 that job has
  ended (R356) -/
  phase : Nat := 0
  rxi : RxInfo := {}
deriving DecidableEq, Repr

/-- A ticket of an order domain (R116): held by a thread, or released with its frame or without one. -/
structure Ticket where
  handle : Nat
  /-- presented by a REL, or consumed -/
  done : Bool
  /-- the frame and its leaf, plus one each; 0 for none -/
  frame : Nat
  leaf : Nat
deriving DecidableEq, Repr

/-- A value in three shares, whose XOR it is (R310). -/
structure Shares where
  a : List Byte := []
  b : List Byte := []
  c : List Byte := []
deriving DecidableEq, Repr

/-- A cipher job (R323, R324, R331): from a CPH entry, a thread's CIPHER command, or a frame with an SA. -/
structure Job where
  /-- its number in order of arrival -/
  id : Nat := 0
  /-- 0 entry, 1 thread command, 2 inline frame -/
  kind : Nat := 0
  /-- function whose share it takes; 0x2000 the thread class -/
  owner : Nat := 0
  q : Nat := 0
  idx : Nat := 0
  thr : Nat := 0
  /-- tag of the command plus one (0 posted) and the tag's sequence -/
  tagp1 : Nat := 0
  tseq : Nat := 0
  frame : Nat := 0
  op : Nat := 0
  mode : Nat := 0
  page : Nat := 0
  slot : Nat := 0
  urgent : Bool := false
  /-- a thread's data space: 0 window, 1 shared data -/
  space : Nat := 0
  src : Nat := 0
  dst : Nat := 0
  tag : Nat := 0
  tagLen : Nat := 0
  aad : Nat := 0
  len : Nat := 0
  du : Nat := 0
  iv : List Byte := []
  /-- lane it runs in, plus one -/
  lane : Nat := 0
  /-- number of its suspension while it is suspended, plus one (R328) -/
  sus : Nat := 0
  /-- it was suspended at least once -/
  was : Bool := false
  /-- the key, as its lane fetched it at the start, in shares (R310, R321) -/
  shares : Shares := {}
  /-- the AES state of its lane in shares: the counter, tweak or accumulator it goes on from (R310, R327) -/
  lstate : Shares := {}
  /-- bytes of AAD and data taken up to its last suspension, at a block boundary (R327) -/
  pos : Nat := 0
  /-- its slot was zeroised while it, an inline job, ran (R321) -/
  zeroed : Bool := false
  /-- Meridian ns of its start -/
  start : Nat := 0
deriving DecidableEq, Repr

/-- An open coalescing context (R345). -/
structure Coal where
  /-- RX queue, leaf and the flow: addresses, ports and the fields that must stay equal -/
  q : Nat
  leaf : Nat
  flow : List Byte
  /-- the merged frame so far, its next sequence, payload bytes, segments and largest payload -/
  frame : Nat
  next : Nat
  payload : Nat
  segs : Nat
  mss : Nat
  /-- Meridian ns of the first segment -/
  first : Nat
deriving DecidableEq, Repr

/-- What waits for the partner's acknowledgement of a twin frame (R33 step 3, R48, R460). -/
inductive TwinWait where
  /-- acceptance of the oldest fetched entry of a queue -/
  | accept (q : Nat)
  /-- the issue of a completion -/
  | compl (c : Compl)
  /-- a context write, reported done only then -/
  | ctx (q : Nat)
  /-- a key load: interface instance (R319) -/
  | key (inst : Nat)
  /-- a page ownership change (R319) -/
  | owner (pg : Nat)
  /-- the report that every copy of this device is applied (R470) -/
  | sync
deriving DecidableEq, Repr

/-- The standby copy of a queue (R458, R459): its context, the entries whose ACCEPT it holds (index and acceptance
sequence), the statuses of its DONE_B records, the next acceptance sequence, and whether a record was missing. -/
structure TwinQ where
  ctx : List Byte
  live : List (Nat × Nat)
  doneB : List (Nat × Nat)
  next : Nat
  broken : Bool
deriving DecidableEq, Repr

/-- A step of the table operation in progress (R200 to R203): an entry of the TCAM is written, copied, validated or
invalidated; the region table follows; the operation begins in a pipeline, with its code of Table FT-7. -/
inductive TblStep where
  /-- value and mask of a slot, not yet valid: index of the slot over all pipelines, record -/
  | write (k rec : Nat)
  /-- `nh` of a valid slot -/
  | replace (k rec : Nat)
  /-- slot `b` takes the contents of `a`, not yet valid -/
  | copy (a b : Nat)
  | validate (k : Nat)
  | invalidate (k : Nat)
  /-- the region table takes up the insertion, deletion or rewrite of a record in a pipeline -/
  | regions (p op slot : Nat) (rec : List Byte)
  | start (p op index : Nat) (rec : List Byte)
deriving DecidableEq, Repr

/-- A non-posted request that is outstanding (R382, R400): its endpoint and tag, what it asks for, and how often it has been
reissued (R401). -/
structure Rd where
  h : Nat
  tag : Nat
  gfn : Nat
  addr : Nat
  len : Nat
  ro : Bool
  ns : Bool
  att : Nat
  /-- what the read is for (R401) -/
  why : ReadFor
  /-- `CLK_ticks` at its issue, and its function's time-out then, in ns (R400) -/
  at0 : Nat
  cto : Nat
deriving DecidableEq, Repr

/-- A tag in quarantine (R401, R402): its endpoint, the function whose request timed out, and until when. -/
structure TagQuar where
  h : Nat
  tag : Nat
  gfn : Nat
  until_ : Nat
deriving DecidableEq, Repr

/-- The state of the block. -/
structure State where
  /-- commands that are waiting, first in, first out -/
  pending : List Instr
  /-- every register field and every other number: key of field and index to value; unlisted fields hold their
  reset values (R3) -/
  fld : SMap Nat
  /-- the model's own counter of free values used (DESIGN CHOICE, log entry 1) -/
  free : Nat
  /-- what the device has driven on its faces, oldest first -/
  out : List Out
  /-- requests held for Bus Master Enable (R397), oldest first, with the function and what a read is for -/
  held : List (Nat × Out × ReadFor)
  /-- accepted, outstanding entries of each queue, by index (R33) -/
  ents : SMap (List Ent)
  /-- batch mode: finished entries that `done_idx` has passed and no writeback has covered yet (R80) -/
  passed : SMap (List Ent)
  /-- fetched, unaccepted entries of each queue, oldest first (R32) -/
  fetched : SMap (List (List Byte))
  /-- event records held for each PF, oldest first (R89) -/
  backlog : SMap (List (List Byte))
  /-- Firn: records in the staging buffer with the ticks of the time clock at their append, oldest first (R50) -/
  firnStage : List (Nat × FirnRec)
  /-- Firn: accounting of each queue on the MRAM die -/
  firn : SMap FirnQ
  /-- recovery reports owed by each recovery-pending queue, in acceptance-sequence order (R59) -/
  recov : SMap (List FirnEnt)
  /-- twin frames not yet acknowledged and what waits for each, in `ctr` order (R460) -/
  twinWait : List (Nat × TwinWait)
  /-- headers of logged errors of each function with their bit of Table HE-6, oldest first (R396) -/
  hdrLog : SMap (List (Nat × List Byte))
  /-- NVMe/TCP placements in force (R356) -/
  places : List Place
  /-- the byte memories: instruction stores, local and shared data, packet windows, management memory, and the
  records that tables hold as bytes (the regions of Ops.lean) -/
  mem : Mem
  /-- frames in the cell buffer by number -/
  frames : SMap Frame
  /-- packets awaiting a thread, by pipeline, oldest first (R111) -/
  dispq : SMap (List Nat)
  /-- the exception queue, oldest first (R137) -/
  excq : List Nat
  /-- frames on a leaf, oldest first (Table SH-1) -/
  leafq : SMap (List Nat)
  /-- order domains (65536·pipeline + domain): tickets in the order they were taken (R116) -/
  domq : SMap (List Ticket)
  /-- engine results on their way: thread, tag, the tag's sequence, result words (R114) -/
  flight : List (Nat × Nat × Nat × List Nat)
  /-- fault FIFO of each core, oldest first (R130) -/
  faultq : SMap (List (List Byte))
  /-- the fault log, oldest first (R481) -/
  fltLog : List (List Byte)
  /-- staged pipeline updates of each pipeline: op, index, record (R186) -/
  updq : SMap (List (Nat × Nat × List Byte))
  /-- the number the next frame takes -/
  nextFrame : Nat
  /-- cipher jobs that wait, run or are suspended, in order of arrival -/
  jobs : List Job
  /-- frames in the egress stage of each leaf, in the order they entered (R335) -/
  egq : SMap (List Nat)
  /-- open coalescing contexts, least recently merged first (R346) -/
  coal : List Coal
  /-- OFL event records, oldest first (R357) -/
  oflEvq : List (List Byte)
  /-- table event records, oldest first (R214) -/
  tblEvq : List (List Byte)
  /-- entries waiting for a DMA channel: queue and index, in order of acceptance (R365) -/
  dmaWait : SMap (List (Nat × Nat))
  /-- source FIFO of a streaming channel (R374) -/
  fifo : SMap (List Byte)
  /-- BULK data of a slot still to be sent: channel, offset, bytes (R247, R373) -/
  bulk : SMap (List (Nat × Nat × List Byte))
  /-- frames that a MAC sends of its own (CTL, TRG, PAUSE and PFC), waiting for its next frame boundary, oldest first; key:
  network port `n`, tenant link 16 + `n` (R228, R236) -/
  ctlq : SMap (List (List Byte))
  /-- pulses whose fall is still to come: comparator, slot, quarter nanoseconds of the fall (R290) -/
  falls : List (Nat × Nat × Nat)
  /-- steps of the table operation in progress that are still to be made, one each 5 ns (R200, R203) -/
  tblq : List TblStep
  /-- sampler records of each half, in order (R275) -/
  samples : SMap (List (List Byte))
  /-- learn requests of each pipeline, oldest first: bridge domain, MAC, port (R206) -/
  learnq : SMap (List (Nat × List Byte × Nat))
  /-- frames on their way into an RX queue's buffers, oldest first (R70, R346); `need` of the first counts its bytes
  written -/
  rxdel : SMap (List Nat)
  /-- TLS: bytes of the record in progress of an ingress SA (R353) -/
  tls : SMap (List Byte)
  /-- NVMe/TCP: bytes of the PDU in progress of a connection (R355) -/
  nvp : SMap (List Byte)
  /-- senders that have staged on a channel or committed to it since its epoch last changed (R439), by owner number -/
  mbxSnd : SMap (List Nat)
  /-- the image a migration unit has read for a THAW (R428) -/
  migImg : SMap (List Byte)
  /-- outstanding non-posted requests, oldest first (R382) -/
  reads : List Rd
  /-- tags in quarantine (R401) -/
  tagQuar : List TagQuar
  /-- reads that wait for a tag, oldest first, with the function (R382) -/
  rdWait : List (Nat × Rd)
  /-- what is left of the PMU dump in progress: record type, index of the first item, items (R499) -/
  dump : List (Nat × Nat × List (List Byte))
  /-- records of the boot ledger, the current start first (R518, Table PS-5) -/
  ledger : List (List Byte)
  /-- the Worhan image chosen at boot step S4 (R512) -/
  bootImg : List Byte
  /-- standby copies of the partner's queues (R458) -/
  twinQ : SMap TwinQ
  /-- standby copies of its completion-ring contexts -/
  twinR : SMap (List Byte)
  /-- DONE_R records of each such ring, oldest first: producer position and record (Table TW-4) -/
  twinRD : SMap (List (Nat × List Byte))
  /-- standby copies of its pages: page records wrapped under the link key -/
  twinP : SMap (List Byte)
deriving DecidableEq, Repr

/-- Why a step may stop as a fault: the model has no such step, since every command of the table has an effect the
manual gives (this constructor is raised by no meaning; safe). -/
inductive Fault where
  | none
deriving DecidableEq, Repr

/-- Why a command may be refused. `notModelled` is raised only by an arm of Dispatch.lean whose command has no
meaning yet; safe. -/
inductive Refusal where
  | notModelled (mnemonic : String)
deriving DecidableEq, Repr

/-- The device right after reset: BOOTING with no boot step completed (`GLB_STATE` resets to 0b010), every register
at its reset value, every queue and memory empty. -/
def State.reset : State where
  pending := []
  fld := []
  free := 0
  out := []
  held := []
  ents := []
  passed := []
  fetched := []
  backlog := []
  firnStage := []
  firn := []
  recov := []
  twinWait := []
  hdrLog := []
  places := []
  mem := []
  frames := []
  dispq := []
  excq := []
  leafq := []
  domq := []
  flight := []
  faultq := []
  fltLog := []
  updq := []
  nextFrame := 0
  jobs := []
  egq := []
  coal := []
  oflEvq := []
  tblEvq := []
  dmaWait := []
  fifo := []
  bulk := []
  ctlq := []
  falls := []
  tblq := []
  samples := []
  learnq := []
  rxdel := []
  tls := []
  nvp := []
  mbxSnd := []
  migImg := []
  reads := []
  tagQuar := []
  rdWait := []
  dump := []
  ledger := [[0#8, 0#8, 0#8, 0#8, 1#8, 0#8, 0#8, 0#8, 1#8] ++ List.replicate 23 0#8]
  bootImg := []
  twinQ := []
  twinR := []
  twinRD := []
  twinP := []

end Sys2Proof.Machine
end

