-- ==== Sys2Proof/Machine/Ops.lean ====
section
/-! DEFINITION. Sys2Proof/Machine/Ops.lean: the named operations over the state that every family uses: register
fields, the faces, functions and their requests (R383, R397, R416), interrupt vectors (R413 to R415). -/

namespace Sys2Proof.Machine

/-- The outcome of a command. -/
abbrev Res := Host.Outcome State Fault Refusal

/-- The key of instance `i` of a field in `State.fld`. -/
def fkey (f : Fld) (i : Nat) : Nat := i * 4096 + f.id

/-- The value of a field of instance `i` of its register. -/
def State.get (s : State) (f : Fld) (i : Nat) : Nat :=
  match SM.find? s.fld (fkey f i) with
  | some v => v
  | none => f.rst i

/-- Give a field a value, cut to its width; a value equal to the reset value is not listed. -/
def State.set (s : State) (f : Fld) (i v : Nat) : State :=
  if v % 2 ^ f.w = f.rst i then { s with fld := SM.del s.fld (fkey f i) }
  else { s with fld := SM.ins s.fld (fkey f i) (v % 2 ^ f.w) }

/-- A one-bit field as a Bool. -/
def State.flag (s : State) (f : Fld) (i : Nat) : Bool := s.get f i == 1

/-- Set a one-bit field. -/
def State.put (s : State) (f : Fld) (i : Nat) (b : Bool) : State := s.set f i (b2n b)

/-- Count one event; a counter wraps at its width (log entry 6). -/
def State.inc (s : State) (f : Fld) (i : Nat) : State := s.set f i (s.get f i + 1)

/-- Count `n` events. -/
def State.add (s : State) (f : Fld) (i n : Nat) : State := s.set f i (s.get f i + n)

/-- Return every instance of a field to its reset value. -/
def State.resetAll (s : State) (f : Fld) : State :=
  { s with fld := s.fld.filter (fun e => e.1 % 4096 != f.id) }

/-- The instances of a field that do not hold their reset value, in rising order. -/
def State.instances (s : State) (f : Fld) : List Nat :=
  (s.fld.filter (fun e => e.1 % 4096 == f.id)).map (fun e => e.1 / 4096)

/-- The instances of a field whose value is `v`, where `v` is not the reset value. -/
def State.having (s : State) (f : Fld) (v : Nat) : List Nat :=
  (s.fld.filter (fun e => e.1 % 4096 == f.id && e.2 == v)).map (fun e => e.1 / 4096)

/-- Do something for each element of a list, in order. -/
def forEach {α : Type} (l : List α) (f : α → State → State) (s : State) : State := l.foldl (fun t a => f a t) s

/-- Drive something on a face. -/
def State.emit (s : State) (o : Out) : State := { s with out := s.out ++ [o] }

/-- Take a free number (log entry 1). -/
def State.fresh (s : State) : Nat × State := (Config.freeNat s.free, { s with free := s.free + 1 })

/-- Take `n` free bytes (log entry 1). -/
def State.freshBytes (s : State) (n : Nat) : List Byte × State :=
  (padTo n (Config.freeBytes s.free n), { s with free := s.free + 1 })

/-! ## Byte memories: where each region lies in `State.mem` -/

/-- Instruction store of cluster `k`: 256 KiB (Table FP-3). -/
def baseI (k : Nat) : Nat := k * 2 ^ 18
/-- Local data of core `c` (16·cluster + core): 16 KiB. -/
def baseL (c : Nat) : Nat := 2 ^ 22 + c * 2 ^ 14
/-- Shared data of cluster `k`: 2 MiB. -/
def baseS (k : Nat) : Nat := 2 ^ 25 + k * 2 ^ 21
/-- Packet window of thread `t`: 1 KiB. -/
def baseW (t : Nat) : Nat := 2 ^ 26 + t * 1024
/-- Management memory: 8 MiB. -/
def baseM : Nat := 2 ^ 27
/-- SA store: 2^20 records of 128 bytes (R313). -/
def baseSA : Nat := 2 ^ 28
/-- Key bytes of slot `k` of page `pg` (at most 64, Table CP-2). -/
def baseKey (pg k : Nat) : Nat := 2 ^ 29 + (pg * 64 + k) * 64
/-- The second share of that key at rest (R310). -/
def baseKeyMask (pg k : Nat) : Nat := 2 ^ 29 + 2 ^ 28 + (pg * 64 + k) * 64
/-- Tunnel template `i`: 128 bytes (Table OF-6). -/
def baseTmpl (i : Nat) : Nat := 2 ^ 30 + i * 128
/-- NVMe/TCP connection context `i`: 64 bytes (Table OF-11). -/
def baseNvc (i : Nat) : Nat := 2 ^ 30 + 2 ^ 22 + i * 64
/-- The pairing key of the twin link (Table TW-1). -/
def baseLink : Nat := 2 ^ 30 + 2 ^ 24
/-- `Key` and `V` of the DRBG, 48 bytes, and the seed of mask generator `g` (R311). -/
def baseDrbg : Nat := 2 ^ 30 + 2 ^ 24 + 4096
def baseMaskGen (g : Nat) : Nat := 2 ^ 30 + 2 ^ 24 + 8192 + 32 * g
/-- The resource table, 64 KiB, and the expansion ROM, 1 MiB (R390). -/
def baseRes : Nat := 2 ^ 30 + 2 ^ 25
def baseRom : Nat := 2 ^ 30 + 2 ^ 26
/-- Read `n` bytes of memory. -/
def State.rd (s : State) (a n : Nat) : List Byte := Memory.readBytes s.mem a n

/-- Write bytes of memory. -/
def State.wr (s : State) (a : Nat) (bs : List Byte) : State := { s with mem := Memory.writeBytes s.mem a bs }

/-- The bytes of a staging or view area from instance `b` of its field. -/
def State.area (s : State) (f : Fld) (b n : Nat) : List Byte :=
  (List.range n).map (fun k => BitVec.ofNat 8 (s.get f (b + k)))

/-- Store bytes in such an area. -/
def State.putArea (s : State) (f : Fld) : Nat → List Byte → State
  | _, [] => s
  | b, x :: xs => State.putArea (s.set f b x.toNat) f (b + 1) xs

/-- Meridian nanoseconds (R276). -/
def State.now (s : State) : Nat := s.get Reg.MT_NOW_NS_ns 0

/-- Ticks of the 1 GHz time clock: the lengths of time that no rule measures on Meridian time are counted in them, so that
no step of it moves them (R276, R283; log entry 9). -/
def State.clk (s : State) : Nat := s.get Reg.CLK_ticks 0

/-- `a` has been reached at time `t` by signed difference modulo 2^64 (R285). -/
def reached64 (t a : Nat) : Bool := (t + 2 ^ 64 - a % 2 ^ 64) % 2 ^ 64 < 2 ^ 63

/-- A 48-bit target has been reached at time `t` by signed difference modulo 2^48: one exactly 2^47 ns ahead reads as
reached (R285, Table MT-1). -/
def reached48 (t a : Nat) : Bool :=
  let d := (a % 2 ^ 48 + 2 ^ 48 - t % 2 ^ 48) % 2 ^ 48
  d == 0 || decide (2 ^ 47 ≤ d)

/-- Signed difference of two 48-bit acceptance sequences: `a` is before `b` (R36). -/
def seqBefore (a b : Nat) : Bool :=
  let d := (b % 2 ^ 48 + 2 ^ 48 - a % 2 ^ 48) % 2 ^ 48
  d != 0 && decide (d < 2 ^ 47)

/-! ## Device states (Table OV-4) -/

def dsAonOnly : Nat := 1
def dsBooting : Nat := 2
def dsService : Nat := 3
def dsIdle : Nat := 4
def dsWhiteout : Nat := 5

/-- `GLB_STATE.state`; 0 stands for OFF, which no register read shows. -/
def State.dev (s : State) : Nat := s.get Reg.GLB_STATE_state 0

/-- The datapath takes in new work: SERVICE, and no drain in progress (R26). -/
def State.open_ (s : State) : Bool :=
  s.dev == dsService && !s.flag Reg.GLB_STATUS_dp_draining 0 && !s.flag Reg.PW_seal 0

/-- Frames still move: SERVICE, draining or not, before a completion seal (R55). -/
def State.moving (s : State) : Bool := s.dev == dsService && !s.flag Reg.PW_seal 0

/-- No request leaves the device: WHITEOUT, or past the completion seal (R55, R482). -/
def State.masterStop (s : State) : Bool :=
  s.dev == dsWhiteout || s.dev == dsAonOnly || s.dev == 0 || s.flag Reg.PW_seal 0

/-! ## Functions (R407 to R411) -/

/-- The PF of a GFN. -/
def pfOf (g : Nat) : Nat := if g < 2 then g else if g < 2050 then 0 else 1

/-- The GFN is a VF of PF `h`. -/
def isVfOf (h g : Nat) : Bool := decide (2 ≤ g) && decide (g < 4098) && pfOf g == h

/-- The GFN is PF `h` or one of its VFs. -/
def inPf (h g : Nat) : Bool := g == h || isVfOf h g

/-- The GFNs of the VFs of PF `h` below NumVFs. -/
def vfsOf (s : State) (h : Nat) : List Nat :=
  (List.range (s.get Reg.CFG_numvfs h)).map (fun v => if h == 0 then 2 + v else 2050 + v)

def fsAbsent : Nat := 0
def fsActive : Nat := 1
def fsResetting : Nat := 2
def fsFreezing : Nat := 3
def fsFrozen : Nat := 4
def fsThawing : Nat := 5

/-- `FN_STATE.state` of a function. -/
def State.fnState (s : State) (g : Nat) : Nat := s.get Reg.FN_STATE_state g

/-- The function exists (R407). -/
def State.fnExists (s : State) (g : Nat) : Bool := decide (g < 4098) && s.fnState g != fsAbsent

/-- A management thread is secure: its bit of `MC_SEC` (R318). -/
def secure (s : State) : Who → Bool
  | .fw m => bit (s.get Reg.MC_SEC_secure_mask 0) m
  | _ => false

/-- Write rights under R96 over a resource with owner `g`: its PF, and firmware; the BMC holds none. -/
def ownerMay (w : Who) (g : Nat) : Bool :=
  match w with
  | .pf h => inPf h g
  | .fw _ => true
  | .bmc => false
  | .vf _ => false

/-- Rights to write an owner field that holds `g`: as `ownerMay`, and either PF may claim a free resource (R96). -/
def claimMay (w : Who) (g : Nat) : Bool :=
  match w with
  | .pf h => g == 0x1FFF || inPf h g
  | _ => ownerMay w g

/-- New requests of the function are held: its Bus Master Enable, or its PF's, is clear, or it is in D3hot
(R387, R397, R398). A device-owned resource follows the PF of its port. -/
def State.fnHeld (s : State) (g : Nat) : Bool :=
  !s.flag Reg.FN_STATE_bme g || s.flag Reg.FN_STATE_d3 g ||
  (decide (2 ≤ g) && (!s.flag Reg.FN_STATE_bme (pfOf g) || s.flag Reg.FN_STATE_d3 (pfOf g)))

/-- No request may be issued for the function at all (R416 step 1, R482). -/
def State.fnDead (s : State) (g : Nat) : Bool := s.masterStop || s.fnState g == fsResetting

/-- Cut a transfer into requests that cross no 4 KiB boundary and are at most `m` bytes (R383). -/
def splitReq : Nat → Nat → Nat → Nat → List (Nat × Nat)
  | 0, _, _, _ => []
  | fuel + 1, m, a, n =>
    if n = 0 then []
    else
      let k := min n (min (max m 1) (4096 - a % 4096))
      (a, k) :: splitReq fuel m (a + k) (n - k)

/-! ## Block event counters (R492) -/

/-- `n` events of code `e` in block `b`: every counter that selects the code counts them, wrapping at 2^48 and
setting `ovf`. -/
def State.pmu (s : State) (b e n : Nat) : State :=
  forEach (List.range 8) (fun j t =>
    let i := b * 8 + j
    if t.get Reg.PMU_BLK_EVSEL_event i == e then
      let v := t.get Reg.PMU_BLK_CTR_value i + n
      let t := t.set Reg.PMU_BLK_CTR_value i v
      if 2 ^ 48 ≤ v then t.put Reg.PMU_BLK_EVSEL_ovf i true else t
    else t) s

/-! ## Tags of non-posted requests (R382) -/

/-- Requests a function's endpoint may keep outstanding with the tag size the function enables on the link. -/
def State.tagLimit (s : State) (g : Nat) : Nat :=
  if s.flag Reg.CFG_tag14 g && s.flag Reg.HE_LINK_flit (pfOf g) then s.get Reg.HE_CFG_max_reads (pfOf g)
  else if s.flag Reg.CFG_tag10 g then 768 else 256

/-- Tags there are of the tag size the function enables. -/
def State.tagSpace (s : State) (g : Nat) : Nat :=
  if s.flag Reg.CFG_tag14 g && s.flag Reg.HE_LINK_flit (pfOf g) then 2 ^ 14
  else if s.flag Reg.CFG_tag10 g then 768 else 256

/-- Tags of an endpoint in use: outstanding or in quarantine. -/
def State.tagsUsed (s : State) (h : Nat) : List Nat :=
  ((s.reads.filter (fun r => r.h == h)).map (fun r => r.tag)) ++ ((s.tagQuar.filter (fun p => p.h == h)).map (fun p => p.tag))

/-- Non-posted requests of an endpoint that are outstanding. -/
def State.outst (s : State) (h : Nat) : Nat := (s.reads.filter (fun r => r.h == h)).length

/-- Time-out, in ns, of a Completion Timeout Value (Table HE-8). -/
def ctoNs (v : Nat) : Nat :=
  if v = 1 then 100000
  else if v = 5 then 50000000
  else if v = 6 then 200000000
  else if v = 9 then 900000000
  else if v = 10 then 3500000000
  else 10000000

/-- The lowest free tag of an endpoint. -/
def State.freeTag (s : State) (h : Nat) : Nat :=
  let l := s.tagsUsed h
  ((List.range (l.length + 1)).find? (fun t => !l.contains t)).getD l.length

/-- Send a read under a free tag, or let it wait for one; its time-out is that of its function at its issue (R400). -/
def State.sendRead (s : State) (g : Nat) (r : Rd) : State :=
  let h := pfOf g
  if s.tagLimit g ≤ s.outst h ∨ s.tagSpace g ≤ s.freeTag h then { s with rdWait := s.rdWait ++ [(g, r)] }
  else
    let t := s.freeTag h
    ({ (s.pmu (17 + h) 1 1) with
      reads := s.reads ++ [{ r with h := h, tag := t, at0 := s.clk, cto := ctoNs (s.get Reg.CFG_cto g) }] }).emit
      (.hostRead g t r.addr r.len r.ro r.ns)

/-- A request leaves on its endpoint's link and is counted there (Table PM-1, blocks 17 and 18). -/
def State.issueReq (s : State) (g : Nat) (o : Out) (why : ReadFor) : State :=
  match o with
  | .hostRead gfn _ addr len ro ns =>
    s.sendRead g { h := pfOf g, tag := 0, gfn := gfn, addr := addr, len := len, ro := ro, ns := ns, att := 0, why := why, at0 := 0, cto := 0 }
  | .hostWrite .. => (s.pmu (17 + pfOf g) 2 1).emit o
  | _ => s.emit o

/-- Issue a request of a function, or hold it while Bus Master Enable is clear (R397); `why` says what a read is for. -/
def State.request (s : State) (g : Nat) (o : Out) (why : ReadFor) : State :=
  if s.fnDead g then s
  else if s.fnHeld g then { s with held := s.held ++ [(g, o, why)] }
  else s.issueReq g o why

/-- Mark the page of a write in the trackers of its function (R427). -/
def State.markDirty (s : State) (g a : Nat) : State :=
  forEach (List.range 16) (fun k t =>
    if t.flag Reg.FN_DLOG_CTRL_en k && t.get Reg.FN_DLOG_CTRL_gfn k == g then
      let base := t.get Reg.FN_DLOG_BASE_base k
      let pg := (a - base) / 4096
      if base ≤ a ∧ pg < t.get Reg.FN_DLOG_PAGES_pages k then t.put Reg.DLOG_mark (k * 2 ^ 40 + pg) true
      else t.put Reg.FN_DLOG_CTRL_outside k true
    else t) s

/-- Write bytes to host memory for a function, within its Max_Payload_Size (R383), with Relaxed Ordering and No Snoop
only where its enables allow (R391). Nothing is written for a function that is RESETTING (R416). -/
def State.hostWriteCut (s : State) (g a : Nat) (bs : List Byte) (cut : List (Nat × Nat)) (ro ns : Bool) : State :=
  if s.fnDead g then s
  else
    forEach cut (fun p t =>
      (t.markDirty g p.1).request g (.hostWrite g p.1 (slice bs (p.1 - a) p.2)
        (ro && t.flag Reg.CFG_ro_en g) (ns && t.flag Reg.CFG_ns_en g)) .other) s

/-- Such a write in requests of at most Max_Payload_Size. -/
def State.hostWrite (s : State) (g a : Nat) (bs : List Byte) (ro ns : Bool) : State :=
  s.hostWriteCut g a bs (splitReq bs.length (128 * 2 ^ s.get Reg.CFG_mps g) a bs.length) ro ns

/-- Read host memory for a function in the requests of a list. -/
def State.hostReadCut (s : State) (g : Nat) (cut : List (Nat × Nat)) (ro ns : Bool) (why : ReadFor) : State :=
  forEach cut (fun p t =>
    t.request g (.hostRead g 0 p.1 p.2 (ro && t.flag Reg.CFG_ro_en g) (ns && t.flag Reg.CFG_ns_en g)) why) s

/-- Read host memory for a function, within its Max_Read_Request_Size (R383). -/
def State.hostRead (s : State) (g a n : Nat) (ro ns : Bool) (why : ReadFor) : State :=
  s.hostReadCut g (splitReq n (128 * 2 ^ s.get Reg.CFG_mrrs g) a n) ro ns why

/-- A VF decodes memory requests: VF Memory Space Enable of its PF is set, and it is not in D3hot (R387). -/
def State.vfMem (s : State) (g : Nat) : Bool := s.flag Reg.CFG_vf_mse (pfOf g) && !s.flag Reg.FN_STATE_d3 g

/-- A register write of this accessor outside GLB, PWR and BOOT reaches its block: the host's only in SERVICE or
DATAPATH_IDLE (R405, R483) and with Memory Space Enable set (R389), a guest's only while its VF is not RESETTING
(R412), firmware's and the BMC's while the CORE domain runs outside WHITEOUT. -/
def State.busOpen (s : State) (w : Who) : Bool :=
  let run := s.dev == dsService || s.dev == dsIdle
  match w with
  | .pf h => run && s.flag Reg.CFG_mse h && !s.flag Reg.FN_STATE_d3 h
  | .vf g => run && s.vfMem g && s.fnExists g && s.fnState g != fsResetting
  | .fw _ => run || s.dev == dsBooting
  | .bmc => run || s.dev == dsBooting

/-! ## Interrupt vectors (R413 to R415) -/

/-- Vectors of a function (R413). -/
def State.nvec (s : State) (g : Nat) : Nat := if g < 2 then 2048 else s.get Reg.FN_PF_CFG_vf_vectors (pfOf g)

/-- Index of a vector's table entry. -/
def vix (g v : Nat) : Nat := g * 2048 + v

/-- A vector is held (R414). -/
def State.vecHeld (s : State) (g v : Nat) : Bool :=
  s.flag Reg.MSIX_mask (vix g v) || s.flag Reg.FN_STATE_fmask g || !s.flag Reg.CFG_msix_en g || s.fnHeld g ||
  s.fnState g == fsFreezing || s.fnState g == fsFrozen || s.fnState g == fsThawing || s.flag Reg.FN_quar g

/-- Send the message of a vector, or set its PBA bit while it is held (R414). -/
def State.sendVec (s : State) (g v : Nat) : State :=
  if s.masterStop || s.fnState g == fsResetting then s
  else if s.vecHeld g v then s.put Reg.MSIX_pba (vix g v) true
  else s.emit (.msix g v (s.get Reg.MSIX_addr (vix g v)) (s.get Reg.MSIX_data (vix g v)))

/-- The time tally of a vector begins, where its moderation has a time (R415). -/
def State.vmodStart (s : State) (i : Nat) : State :=
  (s.put Reg.VMOD_timer i (s.get Reg.VMOD_us i != 0)).set Reg.VMOD_at i s.clk

/-- An event of a vector: it sends at once, or is tallied under moderation (R415); a vector beyond the table counts
in `FN_BADVEC` (R413). -/
def State.raiseVec (s : State) (g v : Nat) : State :=
  if s.nvec g ≤ v then s.inc Reg.FN_BADVEC_count g
  else
    let i := vix g v
    let cnt := s.get Reg.VMOD_cnt i
    if cnt == 0 && s.get Reg.VMOD_us i == 0 then s.sendVec g v
    else
      let n := s.get Reg.VMOD_tally i + 1
      if cnt != 0 && cnt ≤ n then
        ((s.set Reg.VMOD_tally i 0).put Reg.VMOD_timer i false).sendVec g v
      else (if s.flag Reg.VMOD_timer i then s else s.vmodStart i).set Reg.VMOD_tally i n

/-- Send the held vectors of a function that are held no longer, in vector order (R414). -/
def State.releaseVecs (s : State) (g : Nat) : State :=
  forEach ((s.instances Reg.MSIX_pba).filter (fun i => i / 2048 == g && s.flag Reg.MSIX_pba i)) (fun i t =>
    if t.vecHeld g (i % 2048) then t else (t.put Reg.MSIX_pba i false).sendVec g (i % 2048)) s

/-- Issue the held requests of the functions that are held no longer, in their original order (R399). -/
def State.releaseHeld (s : State) : State :=
  let go := s.held.filter (fun p => !s.fnHeld p.1)
  let stay := s.held.filter (fun p => s.fnHeld p.1)
  forEach go (fun p t => if t.fnDead p.1 then t else t.issueReq p.1 p.2.1 p.2.2) { s with held := stay }

/-! ## Advanced Error Reporting (R393 to R396) -/

/-- An uncorrectable error of Table HE-6, by its bit, in a function: its status bit is set, the header is logged
(R396), and a message is sent unless it is masked or not enabled; an error that Brynnan contains is advisory
(R395). -/
def State.aer (s : State) (g b : Nat) (advisory : Bool) (hdr : List Byte) : State :=
  let log := SM.get [] s.hdrLog g
  let full := (if s.flag Reg.CFG_mhr_en g then 4 else 1) ≤ log.length
  let s := s.set Reg.CFG_unc_sts g (s.get Reg.CFG_unc_sts g ||| 2 ^ b)
  let s := if full then s.set Reg.CFG_cor_sts g (s.get Reg.CFG_cor_sts g ||| 2 ^ 15)
    else { s with hdrLog := SM.put [] s.hdrLog g (log ++ [(b, hdr)]) }
  let en := s.get Reg.CFG_err_en g
  if advisory && !bit (s.get Reg.CFG_unc_sev g) b then
    let s := s.set Reg.CFG_cor_sts g (s.get Reg.CFG_cor_sts g ||| 2 ^ 13)
    if bit (s.get Reg.CFG_cor_mask g) 13 || !bit en 0 then s else s.emit (.errMsg (pfOf g) g 0)
  else if bit (s.get Reg.CFG_unc_mask g) b then s
  else if bit (s.get Reg.CFG_unc_sev g) b then (if bit en 2 then s.emit (.errMsg (pfOf g) g 2) else s)
  else if bit en 1 then s.emit (.errMsg (pfOf g) g 1) else s

/-- A correctable error of R394, by its bit. -/
def State.aerCor (s : State) (g b : Nat) : State :=
  let s := s.set Reg.CFG_cor_sts g (s.get Reg.CFG_cor_sts g ||| 2 ^ b)
  if bit (s.get Reg.CFG_cor_mask g) b || !bit (s.get Reg.CFG_err_en g) 0 then s else s.emit (.errMsg (pfOf g) g 0)

/-- The AER bit of a read that failed: Unsupported Request 20, Completer Abort 15, Completion Timeout 14, poisoned 12
(R401, R403). -/
def ReadResult.aerBit : ReadResult → Nat
  | .unsupported => 20
  | .abort => 15
  | .timeout => 14
  | _ => 12

/-! ## Twin frames (R452) -/

/-- The pair mirrors and waits: HEALTHY (R456). -/
def State.healthy (s : State) : Bool := s.get Reg.TWN_STATUS_state 0 == 3

/-- A queue's bit in `TWN_QMASK` (R457). -/
def State.qmask (s : State) (q : Nat) : Bool := bit (s.get Reg.TWN_QMASK_mir (q / 32)) (q % 32)

/-- Step 3 of R33 and R48 apply to the queue. -/
def State.mirrored (s : State) (q : Nat) : Bool := s.healthy && s.qmask q

/-- The pair is in SYNCING or RESYNC: records are sent, and nothing waits for them (R456, R470). -/
def State.syncing (s : State) : Bool := s.get Reg.TWN_STATUS_state 0 == 2 || s.get Reg.TWN_STATUS_state 0 == 5

/-- `type` of a twin frame (Table TW-2). -/
def twinType : TwinMsg → Nat
  | .hello .. => 1
  | .heartbeat => 2
  | .mirror _ => 3
  | .ack _ => 4
  | .sync .. => 5
  | .goodbye _ => 6
  | .mbxPost .. => 7
  | .mbxResult .. => 7
  | .tsync => 8

/-- The bytes of a twin frame in wire order (Table TW-2, R9): encrypted under the link key with the sender's nonce; a HELLO is
authenticated only (R452). -/
def State.twinWire (s : State) (c : Nat) (m : TwinMsg) : List Byte :=
  let pl := (Config.twinPayload m).take 9000
  let head := beBytes 2 0x88B6 ++ beBytes 1 (twinType m) ++ [0#8] ++ beBytes 2 pl.length ++ beBytes 8 c
  let iv := beBytes 4 (if s.flag Reg.TWN_STATUS_primary 0 then 1 else 2) ++ beBytes 8 c
  let key := s.rd baseLink 32
  let ct := gcmCrypt key iv pl
  List.replicate 12 0#8 ++ head ++
    (match m with
    | .hello .. => pl ++ gcmTag key iv (head ++ pl) []
    | _ => ct ++ gcmTag key iv head ct)

/-- Send a twin frame with the next counter; it is lost while W0 is down. -/
def State.twinSend (s : State) (m : TwinMsg) : State :=
  let c := s.get Reg.TWX_txctr 0 + 1
  let s := s.set Reg.TWX_txctr 0 c
  let s := match m with
    | .mirror recs => s.pmu 16 1 recs.length
    | _ => s
  if s.flag Reg.TWN_STATUS_link 0 then s.emit (.twin c m (s.twinWire c m)) else s

/-- Send a twin frame and let something wait for its acknowledgement (R460). -/
def State.twinAwait (s : State) (m : TwinMsg) (w : TwinWait) : State :=
  let t := s.twinSend m
  let c := t.get Reg.TWX_txctr 0
  { (t.set Reg.TWX_sent c t.clk) with twinWait := t.twinWait ++ [(c, w)] }

end Sys2Proof.Machine
end

