-- ==== Sys2Proof/Machine/RegTable.lean ====
section
/-! DEFINITION. Sys2Proof/Machine/RegTable.lean: where each register lies in PF BAR0 and which bits its fields take
(Table OV-5 and the register tables of the chapters). -/

namespace Sys2Proof.Machine

/-- One register or register array: its name, its offset, the (count, stride) of each index, its size in bytes and
the lowest bit of each field. -/
structure RegDesc where
  name   : String
  base   : Nat
  dims   : List (Nat × Nat)
  bytes  : Nat
  fields : List (Nat × Fld)

namespace RegTable

def glb : List RegDesc := [
  ⟨"GLB_ID", 0x0, [], 4, [(16, Reg.GLB_ID_device), (8, Reg.GLB_ID_stepping)]⟩,
  ⟨"GLB_STATE", 0x8, [], 4, [(4, Reg.GLB_STATE_boot_step), (0, Reg.GLB_STATE_state)]⟩,
  ⟨"GLB_PROFILE", 0x10, [], 4, [(0, Reg.GLB_PROFILE_profile)]⟩,
  ⟨"GLB_CTRL", 0x18, [], 4, [(0, Reg.GLB_CTRL_dp_en)]⟩,
  ⟨"GLB_STATUS", 0x20, [], 4, [(3, Reg.GLB_STATUS_twin_mode), (2, Reg.GLB_STATUS_dp_draining), (1, Reg.GLB_STATUS_profile_busy), (0, Reg.GLB_STATUS_profile_refused)]⟩]

def qm0 : List RegDesc := [
  ⟨"QM_CFG", 0x100000, [], 4, [(0, Reg.QM_CFG_cq_stall_limit)]⟩,
  ⟨"QM_EVRING", 0x100010, [(2, 4)], 4, [(31, Reg.QM_EVRING_en), (0, Reg.QM_EVRING_ring)]⟩,
  ⟨"QM_POLL_LATE", 0x100020, [], 4, [(0, Reg.QM_POLL_LATE_late)]⟩,
  ⟨"QM_EV_BACKLOG", 0x100030, [], 4, [(16, Reg.QM_EV_BACKLOG_pf1), (0, Reg.QM_EV_BACKLOG_pf0)]⟩,
  ⟨"QM_RECOV", 0x100040, [], 4, [(31, Reg.QM_RECOV_done1), (30, Reg.QM_RECOV_done0), (0, Reg.QM_RECOV_pending)]⟩,
  ⟨"QM_QCTX_CTRL", 0x2000000, [(262144, 64)], 4, [(31, Reg.QM_QCTX_CTRL_en), (26, Reg.QM_QCTX_CTRL_pipe), (25, Reg.QM_QCTX_CTRL_cmode), (22, Reg.QM_QCTX_CTRL_qclass), (18, Reg.QM_QCTX_CTRL_log2size), (15, Reg.QM_QCTX_CTRL_poll_class), (12, Reg.QM_QCTX_CTRL_burst)]⟩,
  ⟨"QM_QCTX_OWNER", 0x2000004, [(262144, 64)], 4, [(16, Reg.QM_QCTX_OWNER_local), (0, Reg.QM_QCTX_OWNER_gfn)]⟩,
  ⟨"QM_QCTX_BASE", 0x2000008, [(262144, 64)], 8, [(12, Reg.QM_QCTX_BASE_base)]⟩,
  ⟨"QM_QCTX_WB", 0x2000010, [(262144, 64)], 8, [(3, Reg.QM_QCTX_WB_wb)]⟩,
  ⟨"QM_QCTX_STS", 0x2000018, [(262144, 64)], 8, [(6, Reg.QM_QCTX_STS_sts)]⟩,
  ⟨"QM_QCTX_CQ", 0x2000020, [(262144, 64)], 4, [(0, Reg.QM_QCTX_CQ_cq)]⟩,
  ⟨"QM_QCTX_IRQ", 0x2000024, [(262144, 64)], 4, [(31, Reg.QM_QCTX_IRQ_irq_en), (0, Reg.QM_QCTX_IRQ_vec)]⟩]

def qm1 : List RegDesc := [
  ⟨"QM_QCTX_POLL", 0x2000028, [(262144, 64)], 4, [(16, Reg.QM_QCTX_POLL_wb_us), (0, Reg.QM_QCTX_POLL_poll_idle_n)]⟩,
  ⟨"QM_QCTX_START", 0x200002C, [(262144, 64)], 4, [(16, Reg.QM_QCTX_START_done), (0, Reg.QM_QCTX_START_cons)]⟩,
  ⟨"QM_QCTX_SEQ", 0x2000030, [(262144, 64)], 8, [(0, Reg.QM_QCTX_SEQ_acc_seq)]⟩,
  ⟨"QM_QCTX_STATUS", 0x2000038, [(262144, 64)], 4, [(12, Reg.QM_QCTX_STATUS_err_cause), (8, Reg.QM_QCTX_STATUS_cfg_refused), (7, Reg.QM_QCTX_STATUS_arm_pending), (6, Reg.QM_QCTX_STATUS_win_exposed), (5, Reg.QM_QCTX_STATUS_recov_pend), (4, Reg.QM_QCTX_STATUS_cq_stall), (3, Reg.QM_QCTX_STATUS_master_hold), (0, Reg.QM_QCTX_STATUS_state)]⟩,
  ⟨"QM_QCTX_STALLS", 0x200003C, [(262144, 64)], 4, [(0, Reg.QM_QCTX_STALLS_stalls)]⟩,
  ⟨"QM_CRCTX_CTRL", 0x3000000, [(65536, 32)], 4, [(31, Reg.QM_CRCTX_CTRL_en), (30, Reg.QM_CRCTX_CTRL_evring), (18, Reg.QM_CRCTX_CTRL_log2size), (0, Reg.QM_CRCTX_CTRL_gfn)]⟩,
  ⟨"QM_CRCTX_BASE", 0x3000008, [(65536, 32)], 8, [(12, Reg.QM_CRCTX_BASE_base)]⟩,
  ⟨"QM_CRCTX_CONS", 0x3000010, [(65536, 32)], 8, [(3, Reg.QM_CRCTX_CONS_cons)]⟩,
  ⟨"QM_CRCTX_IDX", 0x3000018, [(65536, 32)], 4, [(16, Reg.QM_CRCTX_IDX_prod), (0, Reg.QM_CRCTX_IDX_resv)]⟩,
  ⟨"QM_CRCTX_IRQ", 0x300001C, [(65536, 32)], 4, [(31, Reg.QM_CRCTX_IRQ_irq_en), (30, Reg.QM_CRCTX_IRQ_cons_bad), (29, Reg.QM_CRCTX_IRQ_cfg_refused), (0, Reg.QM_CRCTX_IRQ_vec)]⟩]

def fp0 : List RegDesc := [
  ⟨"FP_CLU_MODE", 0x200000, [(16, 4096)], 4, [(0, Reg.FP_CLU_MODE_mode)]⟩,
  ⟨"FP_CLU_CFG", 0x200004, [(16, 4096)], 4, [(22, Reg.FP_CLU_CFG_order_hold_limit), (14, Reg.FP_CLU_CFG_budget_def)]⟩,
  ⟨"FP_CLU_CTRL", 0x200008, [(16, 4096)], 4, [(16, Reg.FP_CLU_CTRL_sup_restart), (0, Reg.FP_CLU_CTRL_sup_entry)]⟩,
  ⟨"FP_CLU_STATUS", 0x20000C, [(16, 4096)], 4, [(2, Reg.FP_CLU_STATUS_parked), (1, Reg.FP_CLU_STATUS_dbg_order_hold), (0, Reg.FP_CLU_STATUS_deadlock)]⟩,
  ⟨"FP_CLU_FCNT", 0x200010, [(16, 4096)], 4, [(0, Reg.FP_CLU_FCNT_faults)]⟩,
  ⟨"FP_CLU_FDROP", 0x200014, [(16, 4096)], 4, [(0, Reg.FP_CLU_FDROP_drops)]⟩,
  ⟨"FP_CORE_DISP", 0x200100, [(16, 4096), (16, 4)], 4, [(0, Reg.FP_CORE_DISP_disp_mask)]⟩,
  ⟨"FP_PROG", 0x210000, [(8, 4096), (1024, 4)], 4, [(31, Reg.FP_PROG_valid), (16, Reg.FP_PROG_budget), (0, Reg.FP_PROG_entry)]⟩,
  ⟨"FP_DISP_STATUS", 0x218000, [(8, 16)], 4, [(0, Reg.FP_DISP_STATUS_depth)]⟩,
  ⟨"FP_WIN_SEL", 0x219000, [], 4, [(2, Reg.FP_WIN_SEL_pair), (0, Reg.FP_WIN_SEL_page)]⟩,
  ⟨"FP_THR_TVEC", 0x230000, [(4096, 4)], 4, [(0, Reg.FP_THR_TVEC_tvec)]⟩,
  ⟨"FP_DBG_SESSION", 0x220000, [], 4, [(31, Reg.FP_DBG_SESSION_open), (30, Reg.FP_DBG_SESSION_fuse_closed), (0, Reg.FP_DBG_SESSION_clusters)]⟩]

def fp1 : List RegDesc := [
  ⟨"FP_DBG_CMD", 0x220004, [], 4, [(28, Reg.FP_DBG_CMD_cmd), (0, Reg.FP_DBG_CMD_thread)]⟩,
  ⟨"FP_DBG_STATUS", 0x220008, [], 4, [(31, Reg.FP_DBG_STATUS_refused), (30, Reg.FP_DBG_STATUS_halted), (28, Reg.FP_DBG_STATUS_tickets), (0, Reg.FP_DBG_STATUS_pc)]⟩]

def mc : List RegDesc := [
  ⟨"MC_CTRL", 0x280000, [], 4, [(1, Reg.MC_CTRL_running), (0, Reg.MC_CTRL_restart)]⟩,
  ⟨"MC_HB", 0x280008, [], 4, [(31, Reg.MC_HB_stall), (28, Reg.MC_HB_misses), (16, Reg.MC_HB_hb_period), (0, Reg.MC_HB_beat)]⟩,
  ⟨"MC_EXC_RATE", 0x280010, [(8, 8)], 8, [(32, Reg.MC_EXC_RATE_burst), (0, Reg.MC_EXC_RATE_rate)]⟩,
  ⟨"MC_EXC_DROP", 0x280050, [(8, 4)], 4, [(0, Reg.MC_EXC_DROP_drops)]⟩,
  ⟨"MC_SEC", 0x280080, [], 8, [(0, Reg.MC_SEC_secure_mask)]⟩]

def ppl0 : List RegDesc := [
  ⟨"PPL_CFG", 0x300000, [(8, 131072)], 4, [(31, Reg.PPL_CFG_sel_def_en), (0, Reg.PPL_CFG_sel_def)]⟩,
  ⟨"PPL_HASH_SEED", 0x300008, [(8, 131072)], 4, [(0, Reg.PPL_HASH_SEED_seed)]⟩,
  ⟨"PPL_STATUS", 0x300010, [(8, 131072)], 4, [(16, Reg.PPL_STATUS_pending), (1, Reg.PPL_STATUS_upd_busy), (0, Reg.PPL_STATUS_paused)]⟩,
  ⟨"PPL_UPD_PUSH", 0x300020, [(8, 131072)], 4, [(28, Reg.PPL_UPD_PUSH_op), (0, Reg.PPL_UPD_PUSH_index)]⟩,
  ⟨"PPL_UPD_CTRL", 0x300024, [(8, 131072)], 4, [(1, Reg.PPL_UPD_CTRL_discard), (0, Reg.PPL_UPD_CTRL_commit)]⟩,
  ⟨"PPL_UPD_STATUS", 0x300028, [(8, 131072)], 4, [(31, Reg.PPL_UPD_STATUS_refused), (28, Reg.PPL_UPD_STATUS_reason), (0, Reg.PPL_UPD_STATUS_last_pause)]⟩,
  ⟨"PPL_UPD_MAXP", 0x30002C, [(8, 131072)], 4, [(0, Reg.PPL_UPD_MAXP_max_pause)]⟩,
  ⟨"PPL_CLS_RD", 0x300030, [(8, 131072)], 4, [(31, Reg.PPL_CLS_RD_done), (30, Reg.PPL_CLS_RD_valid), (0, Reg.PPL_CLS_RD_index)]⟩,
  ⟨"PPL_DROP", 0x300040, [(8, 131072)], 4, [(0, Reg.PPL_DROP_count)]⟩,
  ⟨"PPL_FRAG", 0x300044, [(8, 131072)], 4, [(0, Reg.PPL_FRAG_count)]⟩,
  ⟨"PPL_SHORT", 0x300048, [(8, 131072)], 4, [(0, Reg.PPL_SHORT_count)]⟩,
  ⟨"PPL_EXC_CNT", 0x300060, [(8, 131072), (8, 4)], 4, [(0, Reg.PPL_EXC_CNT_count)]⟩]

def ppl1 : List RegDesc := [
  ⟨"PPL_UPD_STAGE", 0x300100, [(8, 131072), (256, 1)], 1, [(0, Reg.PPL_UPD_STAGE_byte)]⟩,
  ⟨"PPL_RD_DATA", 0x300200, [(8, 131072), (192, 1)], 1, [(0, Reg.PPL_RD_DATA_byte)]⟩,
  ⟨"PPL_PCLASS", 0x300400, [(8, 131072), (132, 4)], 4, [(0, Reg.PPL_PCLASS_pclass)]⟩,
  ⟨"PPL_SEL", 0x301000, [(8, 131072), (4096, 1)], 1, [(0, Reg.PPL_SEL_byte)]⟩,
  ⟨"PPL_KSEL", 0x302000, [(8, 131072), (8192, 1)], 1, [(0, Reg.PPL_KSEL_byte)]⟩,
  ⟨"PPL_PRF", 0x304000, [(8, 131072), (16384, 1)], 1, [(0, Reg.PPL_PRF_byte)]⟩]

def tbl0 : List RegDesc := [
  ⟨"TBL_CMD", 0x400000, [], 4, [(26, Reg.TBL_CMD_op), (18, Reg.TBL_CMD_pipes), (0, Reg.TBL_CMD_index)]⟩,
  ⟨"TBL_CMD_STATUS", 0x400004, [], 4, [(31, Reg.TBL_CMD_STATUS_busy), (30, Reg.TBL_CMD_STATUS_refused), (16, Reg.TBL_CMD_STATUS_fail_pipes), (8, Reg.TBL_CMD_STATUS_moves), (0, Reg.TBL_CMD_STATUS_result)]⟩,
  ⟨"TBL_CMD_STAGE", 0x400100, [(128, 1)], 1, [(0, Reg.TBL_CMD_STAGE_byte)]⟩,
  ⟨"TBL_CMD_RESULT", 0x400200, [(128, 1)], 1, [(0, Reg.TBL_CMD_RESULT_byte)]⟩,
  ⟨"TBL_FLOW_SEED", 0x401000, [(4, 4)], 4, [(0, Reg.TBL_FLOW_SEED_seed)]⟩,
  ⟨"TBL_FLOW_COUNT", 0x401010, [], 4, [(0, Reg.TBL_FLOW_COUNT_count)]⟩,
  ⟨"TBL_FLOW_AGE", 0x401014, [], 4, [(0, Reg.TBL_FLOW_AGE_period)]⟩,
  ⟨"TBL_FLOW_AGED", 0x401018, [], 4, [(0, Reg.TBL_FLOW_AGED_count)]⟩,
  ⟨"TBL_FLOW_NOROOM", 0x40101C, [], 4, [(0, Reg.TBL_FLOW_NOROOM_count)]⟩,
  ⟨"TBL_FLOW_XRD", 0x401020, [], 4, [(0, Reg.TBL_FLOW_XRD_count)]⟩,
  ⟨"TBL_LPM_CFG", 0x402000, [(8, 256)], 4, [(0, Reg.TBL_LPM_CFG_v4_size)]⟩,
  ⟨"TBL_LPM_USED", 0x402008, [(8, 256)], 8, [(32, Reg.TBL_LPM_USED_v6), (0, Reg.TBL_LPM_USED_v4)]⟩]

def tbl1 : List RegDesc := [
  ⟨"TBL_L2_CFG", 0x404000, [(8, 256)], 4, [(0, Reg.TBL_L2_CFG_age_ms)]⟩,
  ⟨"TBL_L2_LRN", 0x404010, [(8, 256), (5, 4)], 4, [(0, Reg.TBL_L2_LRN_lrn)]⟩,
  ⟨"TBL_L2_COUNT", 0x404030, [(8, 256)], 4, [(0, Reg.TBL_L2_COUNT_count)]⟩,
  ⟨"TBL_L2_MOVES", 0x404040, [(8, 256)], 4, [(0, Reg.TBL_L2_MOVES_count)]⟩,
  ⟨"TBL_L2_LDROP", 0x404044, [(8, 256)], 4, [(0, Reg.TBL_L2_LDROP_count)]⟩,
  ⟨"TBL_L2_HDROP", 0x404048, [(8, 256)], 4, [(0, Reg.TBL_L2_HDROP_count)]⟩,
  ⟨"TBL_L2_SCONF", 0x40404C, [(8, 256)], 4, [(0, Reg.TBL_L2_SCONF_count)]⟩,
  ⟨"TBL_SCRUB_ERR", 0x408000, [(8, 4)], 4, [(0, Reg.TBL_SCRUB_ERR_count)]⟩,
  ⟨"TBL_PORT_LEAF", 0x40A000, [(2048, 4)], 4, [(0, Reg.TBL_PORT_LEAF_leaf)]⟩,
  ⟨"TBL_EVQ_DATA", 0x40C000, [(64, 1)], 1, [(0, Reg.TBL_EVQ_DATA_byte)]⟩,
  ⟨"TBL_EVQ_POP", 0x40C040, [], 4, [(0, Reg.TBL_EVQ_POP_pop)]⟩,
  ⟨"TBL_EVQ_STATUS", 0x40C044, [], 4, [(0, Reg.TBL_EVQ_STATUS_count)]⟩]

def tbl2 : List RegDesc := [
  ⟨"TBL_EVQ_LOST", 0x40C048, [], 4, [(0, Reg.TBL_EVQ_LOST_lost)]⟩,
  ⟨"TBL_LPM_RGN", 0x403000, [(8, 2048), (164, 8)], 8, [(32, Reg.TBL_LPM_RGN_spares), (18, Reg.TBL_LPM_RGN_used), (0, Reg.TBL_LPM_RGN_start)]⟩]

def mac : List RegDesc := [
  ⟨"MAC_NMODE", 0x500000, [], 4, [(31, Reg.MAC_NMODE_refused), (0, Reg.MAC_NMODE_quad)]⟩,
  ⟨"MAC_NPORT_CFG", 0x501000, [(16, 256)], 4, [(31, Reg.MAC_NPORT_CFG_en), (30, Reg.MAC_NPORT_CFG_an_en), (0, Reg.MAC_NPORT_CFG_max_len)]⟩,
  ⟨"MAC_NPORT_STATUS", 0x501004, [(16, 256)], 4, [(10, Reg.MAC_NPORT_STATUS_link_chg), (9, Reg.MAC_NPORT_STATUS_link), (8, Reg.MAC_NPORT_STATUS_tx_paused), (0, Reg.MAC_NPORT_STATUS_pfc_paused)]⟩,
  ⟨"MAC_NPORT_FC", 0x501008, [(16, 256)], 8, [(48, Reg.MAC_NPORT_FC_pause_time), (32, Reg.MAC_NPORT_FC_xon), (16, Reg.MAC_NPORT_FC_xoff), (2, Reg.MAC_NPORT_FC_def_prio), (0, Reg.MAC_NPORT_FC_fc_mode)]⟩,
  ⟨"MAC_NPORT_PCPMAP", 0x501010, [(16, 256)], 4, [(0, Reg.MAC_NPORT_PCPMAP_map)]⟩,
  ⟨"MAC_NPORT_ADDR", 0x501018, [(16, 256)], 8, [(0, Reg.MAC_NPORT_ADDR_addr)]⟩,
  ⟨"MAC_NPORT_TSCOMP", 0x501020, [(16, 256)], 4, [(16, Reg.MAC_NPORT_TSCOMP_tx_comp), (0, Reg.MAC_NPORT_TSCOMP_rx_comp)]⟩,
  ⟨"MAC_CNT", 0x540000, [(1280, 256), (32, 8)], 8, [(0, Reg.MAC_CNT_cnt)]⟩]

def tlk : List RegDesc := [
  ⟨"TLK_CFG", 0x510000, [(16, 1024)], 8, [(48, Reg.TLK_CFG_cp_time), (32, Reg.TLK_CFG_trg_ch), (31, Reg.TLK_CFG_en), (0, Reg.TLK_CFG_max_len)]⟩,
  ⟨"TLK_STATUS", 0x510008, [(16, 1024)], 8, [(32, Reg.TLK_STATUS_credit), (2, Reg.TLK_STATUS_split), (1, Reg.TLK_STATUS_link_chg), (0, Reg.TLK_STATUS_link)]⟩,
  ⟨"TLK_MAC", 0x510010, [(16, 1024)], 8, [(0, Reg.TLK_MAC_addr)]⟩,
  ⟨"TLK_TSCOMP", 0x510018, [(16, 1024)], 4, [(16, Reg.TLK_TSCOMP_tx_comp), (0, Reg.TLK_TSCOMP_rx_comp)]⟩,
  ⟨"TLK_TSAUX", 0x510020, [(16, 1024)], 16, [(32, Reg.TLK_TSAUX_arr), (0, Reg.TLK_TSAUX_aux)]⟩,
  ⟨"TLK_CH_CFG", 0x520000, [(16, 256), (64, 4)], 4, [(31, Reg.TLK_CH_CFG_en), (30, Reg.TLK_CH_CFG_paused), (14, Reg.TLK_CH_CFG_xon), (0, Reg.TLK_CH_CFG_xoff)]⟩,
  ⟨"TLK_CNT", 0x590000, [(16, 256), (32, 8)], 8, [(0, Reg.TLK_CNT_cnt)]⟩]

def sb : List RegDesc := [
  ⟨"SB_CFG", 0x5A0000, [(16, 64)], 4, [(22, Reg.SB_CFG_pg_ms), (6, Reg.SB_CFG_rst_us), (5, Reg.SB_CFG_auto_rel), (4, Reg.SB_CFG_fault_off), (3, Reg.SB_CFG_surprise_off), (2, Reg.SB_CFG_cap_en), (1, Reg.SB_CFG_i2c_fast)]⟩,
  ⟨"SB_CTRL", 0x5A0004, [(16, 64)], 4, [(0, Reg.SB_CTRL_cmd)]⟩,
  ⟨"SB_STATUS", 0x5A0008, [(16, 64)], 4, [(9, Reg.SB_STATUS_refused), (8, Reg.SB_STATUS_pg_fail), (7, Reg.SB_STATUS_fault_lat), (6, Reg.SB_STATUS_prsnt_chg), (5, Reg.SB_STATUS_busy), (4, Reg.SB_STATUS_prsnt), (3, Reg.SB_STATUS_fault), (2, Reg.SB_STATUS_pwren), (1, Reg.SB_STATUS_rst_n), (0, Reg.SB_STATUS_trig)]⟩,
  ⟨"SB_I2C_CMD", 0x5A0010, [(16, 64)], 4, [(31, Reg.SB_I2C_CMD_go), (30, Reg.SB_I2C_CMD_done), (28, Reg.SB_I2C_CMD_status), (16, Reg.SB_I2C_CMD_rlen), (12, Reg.SB_I2C_CMD_len), (1, Reg.SB_I2C_CMD_taddr), (0, Reg.SB_I2C_CMD_rd)]⟩,
  ⟨"SB_I2C_DATA", 0x5A0018, [(16, 64)], 8, [(0, Reg.SB_I2C_DATA_data)]⟩]

def shl : List RegDesc := [
  ⟨"SHL_CMD", 0x5B0000, [(16, 64)], 8, [(32, Reg.SHL_CMD_addr), (31, Reg.SHL_CMD_go), (30, Reg.SHL_CMD_busy), (29, Reg.SHL_CMD_refused), (27, Reg.SHL_CMD_result), (19, Reg.SHL_CMD_status), (16, Reg.SHL_CMD_len), (9, Reg.SHL_CMD_dma), (8, Reg.SHL_CMD_wr), (0, Reg.SHL_CMD_seq)]⟩,
  ⟨"SHL_DATA", 0x5B0008, [(16, 64)], 8, [(0, Reg.SHL_DATA_data)]⟩]

def sch0 : List RegDesc := [
  ⟨"SCH_BUF_CFG", 0x600000, [], 4, [(31, Reg.SCH_BUF_CFG_refused), (0, Reg.SCH_BUF_CFG_host_kib)]⟩,
  ⟨"SCH_BUF_STATUS", 0x600008, [], 4, [(0, Reg.SCH_BUF_STATUS_free)]⟩,
  ⟨"SCH_BUF_PORT", 0x601000, [(1280, 8)], 8, [(24, Reg.SCH_BUF_PORT_charge), (16, Reg.SCH_BUF_PORT_alpha), (0, Reg.SCH_BUF_PORT_min)]⟩,
  ⟨"SCH_POL", 0x610000, [(1280, 8)], 8, [(63, Reg.SCH_POL_en), (32, Reg.SCH_POL_rate), (0, Reg.SCH_POL_burst)]⟩,
  ⟨"SCH_HPOL", 0x620000, [(4098, 8)], 8, [(63, Reg.SCH_HPOL_en), (32, Reg.SCH_HPOL_rate), (0, Reg.SCH_HPOL_burst)]⟩,
  ⟨"SCH_HPOL_DROP", 0x630000, [(4098, 4)], 4, [(0, Reg.SCH_HPOL_DROP_drops)]⟩,
  ⟨"SCH_NODE_CMD", 0x640000, [], 4, [(28, Reg.SCH_NODE_CMD_op), (26, Reg.SCH_NODE_CMD_level), (0, Reg.SCH_NODE_CMD_index)]⟩,
  ⟨"SCH_NODE_STATUS", 0x640004, [], 4, [(31, Reg.SCH_NODE_STATUS_busy), (30, Reg.SCH_NODE_STATUS_draining), (0, Reg.SCH_NODE_STATUS_result)]⟩,
  ⟨"SCH_NODE_STAGE", 0x640040, [(32, 1)], 1, [(0, Reg.SCH_NODE_STAGE_byte)]⟩,
  ⟨"SCH_NODE_RESULT", 0x640060, [(32, 1)], 1, [(0, Reg.SCH_NODE_RESULT_byte)]⟩,
  ⟨"SCH_DROP_QLIM", 0x640100, [], 4, [(0, Reg.SCH_DROP_QLIM_count)]⟩,
  ⟨"SCH_DROP_INVAL", 0x640104, [], 4, [(0, Reg.SCH_DROP_INVAL_count)]⟩]

def sch1 : List RegDesc := [
  ⟨"SCH_DROP_RXQ", 0x640108, [], 4, [(0, Reg.SCH_DROP_RXQ_count)]⟩,
  ⟨"SCH_GATE_BASE", 0x650000, [(1280, 64)], 8, [(0, Reg.SCH_GATE_BASE_base)]⟩,
  ⟨"SCH_GATE_CYCLE", 0x650008, [(1280, 64)], 4, [(0, Reg.SCH_GATE_CYCLE_cycle)]⟩,
  ⟨"SCH_GATE_LIST", 0x65000C, [(1280, 64)], 4, [(31, Reg.SCH_GATE_LIST_bank), (0, Reg.SCH_GATE_LIST_len)]⟩,
  ⟨"SCH_GATE_CTRL", 0x650010, [(1280, 64)], 4, [(1, Reg.SCH_GATE_CTRL_cancel), (0, Reg.SCH_GATE_CTRL_commit)]⟩,
  ⟨"SCH_GATE_STATUS", 0x650014, [(1280, 64)], 4, [(8, Reg.SCH_GATE_STATUS_reason), (5, Reg.SCH_GATE_STATUS_late), (4, Reg.SCH_GATE_STATUS_refused), (3, Reg.SCH_GATE_STATUS_pending), (2, Reg.SCH_GATE_STATUS_active_valid), (1, Reg.SCH_GATE_STATUS_active_bank)]⟩,
  ⟨"SCH_GATE_TOOLONG", 0x650018, [(1280, 64)], 4, [(0, Reg.SCH_GATE_TOOLONG_count)]⟩,
  ⟨"SCH_GATE_OPER_BASE", 0x650020, [(1280, 64)], 8, [(0, Reg.SCH_GATE_OPER_BASE_base)]⟩,
  ⟨"SCH_GATE_OPER_CYCLE", 0x650028, [(1280, 64)], 4, [(0, Reg.SCH_GATE_OPER_CYCLE_cycle)]⟩,
  ⟨"SCH_GATE_SEL", 0x670000, [], 4, [(12, Reg.SCH_GATE_SEL_bank), (0, Reg.SCH_GATE_SEL_port)]⟩,
  ⟨"SCH_SMP_CFG", 0x680000, [], 4, [(31, Reg.SCH_SMP_CFG_en), (0, Reg.SCH_SMP_CFG_period)]⟩,
  ⟨"SCH_SMP_STATUS", 0x680008, [], 4, [(13, Reg.SCH_SMP_STATUS_half), (0, Reg.SCH_SMP_STATUS_fill)]⟩]

def sch2 : List RegDesc := [
  ⟨"SCH_SMP_LOST", 0x68000C, [], 4, [(0, Reg.SCH_SMP_LOST_lost)]⟩]

def mt0 : List RegDesc := [
  ⟨"MT_NOW_NS", 0x700000, [], 8, [(0, Reg.MT_NOW_NS_ns)]⟩,
  ⟨"MT_NOW_FRAC", 0x700008, [], 4, [(0, Reg.MT_NOW_FRAC_frac)]⟩,
  ⟨"MT_CFG", 0x700010, [], 4, [(16, Reg.MT_CFG_trg_lead), (0, Reg.MT_CFG_ref_sel)]⟩,
  ⟨"MT_INC", 0x700018, [], 8, [(0, Reg.MT_INC_inc)]⟩,
  ⟨"MT_ADJ", 0x700020, [], 8, [(0, Reg.MT_ADJ_offset)]⟩,
  ⟨"MT_ADJ_CTRL", 0x700028, [], 4, [(31, Reg.MT_ADJ_CTRL_go), (30, Reg.MT_ADJ_CTRL_mode), (0, Reg.MT_ADJ_CTRL_slew)]⟩,
  ⟨"MT_ADJ_REM", 0x700030, [], 8, [(0, Reg.MT_ADJ_REM_rem)]⟩,
  ⟨"MT_STATUS", 0x700038, [], 4, [(8, Reg.MT_STATUS_drift_cause), (7, Reg.MT_STATUS_big_step), (6, Reg.MT_STATUS_refused), (5, Reg.MT_STATUS_slewing), (4, Reg.MT_STATUS_ref_lock), (1, Reg.MT_STATUS_drift), (0, Reg.MT_STATUS_set)]⟩,
  ⟨"MT_DRIFT_AGE", 0x700040, [], 4, [(0, Reg.MT_DRIFT_AGE_age_ms)]⟩,
  ⟨"MT_CTRL", 0x700048, [], 4, [(2, Reg.MT_CTRL_exit_step), (1, Reg.MT_CTRL_drift_enter), (0, Reg.MT_CTRL_drift_exit)]⟩,
  ⟨"MT_PPS", 0x700050, [], 8, [(63, Reg.MT_PPS_en), (32, Reg.MT_PPS_off), (0, Reg.MT_PPS_width)]⟩,
  ⟨"MT_IRQ", 0x700058, [(2, 4)], 4, [(31, Reg.MT_IRQ_en), (0, Reg.MT_IRQ_vec)]⟩]

def mt1 : List RegDesc := [
  ⟨"MT_TRIG_CFG", 0x710000, [(256, 32)], 4, [(31, Reg.MT_TRIG_CFG_own), (29, Reg.MT_TRIG_CFG_irq), (24, Reg.MT_TRIG_CFG_quarter), (20, Reg.MT_TRIG_CFG_action), (0, Reg.MT_TRIG_CFG_dest)]⟩,
  ⟨"MT_TRIG_CTRL", 0x710004, [(256, 32)], 4, [(1, Reg.MT_TRIG_CTRL_disarm), (0, Reg.MT_TRIG_CTRL_arm)]⟩,
  ⟨"MT_TRIG_TGT", 0x710008, [(256, 32)], 8, [(0, Reg.MT_TRIG_TGT_target)]⟩,
  ⟨"MT_TRIG_STATUS", 0x710010, [(256, 32)], 4, [(31, Reg.MT_TRIG_STATUS_done), (30, Reg.MT_TRIG_STATUS_armed), (29, Reg.MT_TRIG_STATUS_staged), (28, Reg.MT_TRIG_STATUS_thread), (0, Reg.MT_TRIG_STATUS_result)]⟩,
  ⟨"MT_TRIG_WIDTH", 0x710014, [(256, 32)], 4, [(0, Reg.MT_TRIG_WIDTH_width)]⟩,
  ⟨"MT_TRIG_FIRED", 0x710018, [(256, 32)], 8, [(0, Reg.MT_TRIG_FIRED_fired)]⟩,
  ⟨"MT_SLOT_COMP", 0x720000, [(16, 4)], 4, [(16, Reg.MT_SLOT_COMP_trig_comp), (0, Reg.MT_SLOT_COMP_cap_comp)]⟩,
  ⟨"MT_IN_COMP", 0x720040, [(6, 4)], 4, [(0, Reg.MT_IN_COMP_comp)]⟩,
  ⟨"MT_CAP_CFG", 0x730000, [(64, 32)], 4, [(31, Reg.MT_CAP_CFG_en), (30, Reg.MT_CAP_CFG_sw), (28, Reg.MT_CAP_CFG_edge), (26, Reg.MT_CAP_CFG_irq), (16, Reg.MT_CAP_CFG_src), (0, Reg.MT_CAP_CFG_dest)]⟩,
  ⟨"MT_CAP_TS", 0x730008, [(64, 32)], 8, [(0, Reg.MT_CAP_TS_ns)]⟩,
  ⟨"MT_CAP_STATUS", 0x730010, [(64, 32)], 4, [(31, Reg.MT_CAP_STATUS_valid), (30, Reg.MT_CAP_STATUS_ovr), (28, Reg.MT_CAP_STATUS_quarter), (24, Reg.MT_CAP_STATUS_rise), (0, Reg.MT_CAP_STATUS_ovr_cnt)]⟩,
  ⟨"MT_PTP_CFG", 0x740000, [(1280, 4)], 4, [(1, Reg.MT_PTP_CFG_os_en), (0, Reg.MT_PTP_CFG_tc_en)]⟩]

def mt2 : List RegDesc := [
  ⟨"MT_PTP_MISS", 0x742000, [], 4, [(0, Reg.MT_PTP_MISS_count)]⟩]

def cph0 : List RegDesc := [
  ⟨"CPH_LANE_CFG", 0x800000, [], 4, [(0, Reg.CPH_LANE_CFG_lookaside)]⟩,
  ⟨"CPH_LANE_STATUS", 0x800030, [], 8, [(63, Reg.CPH_LANE_STATUS_refused), (0, Reg.CPH_LANE_STATUS_failed)]⟩,
  ⟨"CPH_RNG_STATUS", 0x80000C, [], 4, [(31, Reg.CPH_RNG_STATUS_ready), (0, Reg.CPH_RNG_STATUS_health_fail)]⟩,
  ⟨"CPH_MIG", 0x800010, [(2, 4)], 4, [(31, Reg.CPH_MIG_en), (13, Reg.CPH_MIG_slot), (0, Reg.CPH_MIG_page)]⟩,
  ⟨"CPH_FP_SHARE", 0x800018, [], 4, [(31, Reg.CPH_FP_SHARE_urgent_en), (8, Reg.CPH_FP_SHARE_max_lanes), (0, Reg.CPH_FP_SHARE_weight)]⟩,
  ⟨"CPH_FN_SHARE", 0x80A000, [(4098, 4)], 4, [(31, Reg.CPH_FN_SHARE_urgent_en), (8, Reg.CPH_FN_SHARE_max_lanes), (0, Reg.CPH_FN_SHARE_weight)]⟩,
  ⟨"CPH_SUSP", 0x800020, [], 4, [(0, Reg.CPH_SUSP_count)]⟩,
  ⟨"CPH_AUTH_FAIL", 0x800024, [], 4, [(0, Reg.CPH_AUTH_FAIL_count)]⟩,
  ⟨"CPH_POST_ERR", 0x800028, [], 4, [(0, Reg.CPH_POST_ERR_count)]⟩,
  ⟨"CPH_INLINE_DROP", 0x80002C, [], 4, [(0, Reg.CPH_INLINE_DROP_count)]⟩,
  ⟨"CPH_SA_CMD", 0x800100, [], 4, [(28, Reg.CPH_SA_CMD_op), (0, Reg.CPH_SA_CMD_index)]⟩,
  ⟨"CPH_SA_STATUS", 0x800104, [], 4, [(31, Reg.CPH_SA_STATUS_busy), (0, Reg.CPH_SA_STATUS_result)]⟩]

def cph1 : List RegDesc := [
  ⟨"CPH_SA_STAGE", 0x800180, [(128, 1)], 1, [(0, Reg.CPH_SA_STAGE_byte)]⟩,
  ⟨"CPH_SA_RESULT", 0x800200, [(128, 1)], 1, [(0, Reg.CPH_SA_RESULT_byte)]⟩,
  ⟨"CPH_KEY_SEL", 0x800400, [(4, 1024)], 4, [(0, Reg.CPH_KEY_SEL_sel)]⟩,
  ⟨"CPH_KEY_CMD", 0x800408, [(4, 1024)], 4, [(28, Reg.CPH_KEY_CMD_op), (0, Reg.CPH_KEY_CMD_slot)]⟩,
  ⟨"CPH_KEY_STATUS", 0x80040C, [(4, 1024)], 4, [(31, Reg.CPH_KEY_STATUS_busy), (0, Reg.CPH_KEY_STATUS_status)]⟩,
  ⟨"CPH_KEY_STAGE", 0x800440, [(4, 1024), (128, 1)], 1, [(0, Reg.CPH_KEY_STAGE_byte)]⟩,
  ⟨"CPH_KEY_ATTR", 0x800500, [(4, 1024), (64, 4)], 4, [(16, Reg.CPH_KEY_ATTR_gen), (8, Reg.CPH_KEY_ATTR_valid), (0, Reg.CPH_KEY_ATTR_attr)]⟩,
  ⟨"CPH_PAGE_OWNER", 0x802000, [(8192, 4)], 4, [(31, Reg.CPH_PAGE_OWNER_fp_access), (30, Reg.CPH_PAGE_OWNER_busy), (0, Reg.CPH_PAGE_OWNER_owner)]⟩]

def ofl0 : List RegDesc := [
  ⟨"OFL_CFG", 0x880000, [], 4, [(16, Reg.OFL_CFG_geneve_port), (0, Reg.OFL_CFG_vxlan_port)]⟩,
  ⟨"OFL_TMPL_CMD", 0x880010, [], 4, [(28, Reg.OFL_TMPL_CMD_op), (0, Reg.OFL_TMPL_CMD_index)]⟩,
  ⟨"OFL_TMPL_STATUS", 0x880014, [], 4, [(31, Reg.OFL_TMPL_STATUS_busy), (0, Reg.OFL_TMPL_STATUS_result)]⟩,
  ⟨"OFL_NVC_STATUS", 0x880024, [], 4, [(31, Reg.OFL_NVC_STATUS_busy), (0, Reg.OFL_NVC_STATUS_result)]⟩,
  ⟨"OFL_NVC_CMD", 0x880020, [], 4, [(28, Reg.OFL_NVC_CMD_op), (0, Reg.OFL_NVC_CMD_index)]⟩,
  ⟨"OFL_EVQ_POP", 0x880310, [], 4, [(0, Reg.OFL_EVQ_POP_pop)]⟩,
  ⟨"OFL_EVQ_STATUS", 0x880314, [], 4, [(0, Reg.OFL_EVQ_STATUS_count)]⟩,
  ⟨"OFL_EVQ_LOST", 0x880318, [], 4, [(0, Reg.OFL_EVQ_LOST_lost)]⟩,
  ⟨"OFL_CNT", 0x880400, [(8, 4)], 4, [(0, Reg.OFL_CNT_count)]⟩,
  ⟨"OFL_FN_RX", 0x884000, [(4098, 4)], 4, [(31, Reg.OFL_FN_RX_hdr_en), (30, Reg.OFL_FN_RX_csum_en), (29, Reg.OFL_FN_RX_coal_en), (17, Reg.OFL_FN_RX_coal_us), (0, Reg.OFL_FN_RX_coal_max)]⟩,
  ⟨"OFL_TMPL_STAGE", 0x880100, [(128, 1)], 1, [(0, Reg.OFL_TMPL_STAGE_byte)]⟩,
  ⟨"OFL_TMPL_RESULT", 0x880180, [(128, 1)], 1, [(0, Reg.OFL_TMPL_RESULT_byte)]⟩]

def ofl1 : List RegDesc := [
  ⟨"OFL_NVC_STAGE", 0x880200, [(64, 1)], 1, [(0, Reg.OFL_NVC_STAGE_byte)]⟩,
  ⟨"OFL_NVC_RESULT", 0x880240, [(64, 1)], 1, [(0, Reg.OFL_NVC_RESULT_byte)]⟩,
  ⟨"OFL_EVQ_DATA", 0x880300, [(16, 1)], 1, [(0, Reg.OFL_EVQ_DATA_byte)]⟩]

def dma0 : List RegDesc := [
  ⟨"DMA_ERR", 0x900000, [], 4, [(0, Reg.DMA_ERR_count)]⟩,
  ⟨"DMA_FN_SHARE", 0x904000, [(4098, 4)], 4, [(8, Reg.DMA_FN_SHARE_max_eng), (0, Reg.DMA_FN_SHARE_weight)]⟩,
  ⟨"DMA_CH_OWNER", 0x910000, [(1024, 128)], 4, [(31, Reg.DMA_CH_OWNER_fp), (30, Reg.DMA_CH_OWNER_hport), (0, Reg.DMA_CH_OWNER_owner)]⟩,
  ⟨"DMA_CH_CMD", 0x910004, [(1024, 128)], 4, [(31, Reg.DMA_CH_CMD_start), (30, Reg.DMA_CH_CMD_stop), (29, Reg.DMA_CH_CMD_eos)]⟩,
  ⟨"DMA_CH_STATUS", 0x910008, [(1024, 128)], 4, [(31, Reg.DMA_CH_STATUS_done), (30, Reg.DMA_CH_STATUS_start_ovr), (29, Reg.DMA_CH_STATUS_late), (28, Reg.DMA_CH_STATUS_refused), (27, Reg.DMA_CH_STATUS_master_hold), (24, Reg.DMA_CH_STATUS_state), (0, Reg.DMA_CH_STATUS_result)]⟩,
  ⟨"DMA_CH_IRQ", 0x91000C, [(1024, 128)], 4, [(31, Reg.DMA_CH_IRQ_irq_en), (0, Reg.DMA_CH_IRQ_vec)]⟩,
  ⟨"DMA_CH_XFER", 0x910010, [(1024, 128)], 4, [(0, Reg.DMA_CH_XFER_bytes)]⟩,
  ⟨"DMA_CH_SRC", 0x910020, [(1024, 128)], 8, [(0, Reg.DMA_CH_SRC_addr)]⟩,
  ⟨"DMA_CH_DST", 0x910028, [(1024, 128)], 8, [(0, Reg.DMA_CH_DST_addr)]⟩,
  ⟨"DMA_CH_LEN", 0x910030, [(1024, 128)], 4, [(0, Reg.DMA_CH_LEN_len)]⟩,
  ⟨"DMA_CH_CFG", 0x910034, [(1024, 128)], 4, [(0, Reg.DMA_CH_CFG_cfg)]⟩,
  ⟨"DMA_CH_STIME", 0x910038, [(1024, 128)], 8, [(0, Reg.DMA_CH_STIME_stime)]⟩]

def dma1 : List RegDesc := [
  ⟨"DMA_CH_SH_SRC", 0x910040, [(1024, 128)], 8, [(0, Reg.DMA_CH_SH_SRC_addr)]⟩,
  ⟨"DMA_CH_SH_DST", 0x910048, [(1024, 128)], 8, [(0, Reg.DMA_CH_SH_DST_addr)]⟩,
  ⟨"DMA_CH_SH_LEN", 0x910050, [(1024, 128)], 4, [(0, Reg.DMA_CH_SH_LEN_len)]⟩,
  ⟨"DMA_CH_SH_CFG", 0x910054, [(1024, 128)], 4, [(0, Reg.DMA_CH_SH_CFG_cfg)]⟩,
  ⟨"DMA_CH_SH_STIME", 0x910058, [(1024, 128)], 8, [(0, Reg.DMA_CH_SH_STIME_stime)]⟩,
  ⟨"DMA_CH_SH_CTRL", 0x910060, [(1024, 128)], 8, [(48, Reg.DMA_CH_SH_CTRL_last_gen), (32, Reg.DMA_CH_SH_CTRL_active_gen), (31, Reg.DMA_CH_SH_CTRL_arm), (30, Reg.DMA_CH_SH_CTRL_armed), (0, Reg.DMA_CH_SH_CTRL_shadow_gen)]⟩,
  ⟨"DMA_CH_FIFO", 0x910068, [(1024, 128)], 4, [(0, Reg.DMA_CH_FIFO_data)]⟩,
  ⟨"DMA_CH_FIFO_STATUS", 0x91006C, [(1024, 128)], 4, [(31, Reg.DMA_CH_FIFO_STATUS_eos), (30, Reg.DMA_CH_FIFO_STATUS_ovf), (0, Reg.DMA_CH_FIFO_STATUS_fill)]⟩]

def he : List RegDesc := [
  ⟨"HE_LINK", 0x8000, [(2, 4096)], 4, [(11, Reg.HE_LINK_reset_seen), (10, Reg.HE_LINK_degraded), (9, Reg.HE_LINK_flit), (8, Reg.HE_LINK_up), (3, Reg.HE_LINK_width), (0, Reg.HE_LINK_speed)]⟩,
  ⟨"HE_LINK_CHG", 0x8004, [(2, 4096)], 4, [(0, Reg.HE_LINK_CHG_count)]⟩,
  ⟨"HE_CFG", 0x8008, [(2, 4096)], 4, [(14, Reg.HE_CFG_cto_retry), (0, Reg.HE_CFG_max_reads)]⟩,
  ⟨"HE_STATUS", 0x8010, [(2, 4096)], 4, [(14, Reg.HE_STATUS_quar), (0, Reg.HE_STATUS_outst)]⟩,
  ⟨"HE_CTO", 0x8018, [(2, 4096)], 4, [(0, Reg.HE_CTO_count)]⟩,
  ⟨"HE_LATE", 0x801C, [(2, 4096)], 4, [(0, Reg.HE_LATE_count)]⟩,
  ⟨"HE_IN_ERR", 0x8020, [(2, 4096)], 4, [(0, Reg.HE_IN_ERR_count)]⟩,
  ⟨"HE_FN_HOLD", 0x8100, [(2, 4096), (65, 4)], 4, [(0, Reg.HE_FN_HOLD_hold)]⟩]

def fn0 : List RegDesc := [
  ⟨"FN_PF_CFG", 0x20000, [(2, 256)], 4, [(31, Reg.FN_PF_CFG_refused), (0, Reg.FN_PF_CFG_vf_vectors)]⟩,
  ⟨"FN_PF_LOST", 0x20004, [(2, 256)], 4, [(0, Reg.FN_PF_LOST_count)]⟩,
  ⟨"FN_MIG_CMD", 0x21000, [(4, 256)], 4, [(28, Reg.FN_MIG_CMD_op), (0, Reg.FN_MIG_CMD_gfn)]⟩,
  ⟨"FN_MIG_STATUS", 0x21004, [(4, 256)], 4, [(31, Reg.FN_MIG_STATUS_busy), (30, Reg.FN_MIG_STATUS_pf), (29, Reg.FN_MIG_STATUS_key_fail), (8, Reg.FN_MIG_STATUS_outst), (0, Reg.FN_MIG_STATUS_result)]⟩,
  ⟨"FN_MIG_BUF", 0x21008, [(4, 256)], 8, [(6, Reg.FN_MIG_BUF_buf)]⟩,
  ⟨"FN_MIG_BUFLEN", 0x21010, [(4, 256)], 4, [(0, Reg.FN_MIG_BUFLEN_len)]⟩,
  ⟨"FN_MIG_ILEN", 0x21014, [(4, 256)], 4, [(0, Reg.FN_MIG_ILEN_len)]⟩,
  ⟨"FN_VMOD_SEL", 0x22000, [(2, 256)], 4, [(16, Reg.FN_VMOD_SEL_gfn), (0, Reg.FN_VMOD_SEL_vec)]⟩,
  ⟨"FN_VMOD", 0x22004, [(2, 256)], 4, [(16, Reg.FN_VMOD_cnt), (0, Reg.FN_VMOD_us)]⟩,
  ⟨"FN_DLOG_BASE", 0x23000, [(16, 64)], 8, [(0, Reg.FN_DLOG_BASE_base)]⟩,
  ⟨"FN_DLOG_PAGES", 0x23008, [(16, 64)], 8, [(0, Reg.FN_DLOG_PAGES_pages)]⟩,
  ⟨"FN_DLOG_MAP", 0x23010, [(16, 64)], 8, [(0, Reg.FN_DLOG_MAP_map)]⟩]

def fn1 : List RegDesc := [
  ⟨"FN_DLOG_CTRL", 0x23018, [(16, 64)], 4, [(31, Reg.FN_DLOG_CTRL_en), (30, Reg.FN_DLOG_CTRL_harvest), (29, Reg.FN_DLOG_CTRL_busy), (28, Reg.FN_DLOG_CTRL_outside), (0, Reg.FN_DLOG_CTRL_gfn)]⟩,
  ⟨"FN_STATE", 0x40000, [(4098, 32)], 4, [(5, Reg.FN_STATE_fmask), (4, Reg.FN_STATE_d3), (3, Reg.FN_STATE_bme), (0, Reg.FN_STATE_state)]⟩,
  ⟨"FN_QOS", 0x40004, [(4098, 32)], 4, [(24, Reg.FN_QOS_poll_w), (16, Reg.FN_QOS_tx_w), (0, Reg.FN_QOS_host_kib)]⟩,
  ⟨"FN_ABAND", 0x40008, [(4098, 32)], 4, [(0, Reg.FN_ABAND_count)]⟩,
  ⟨"FN_BADVEC", 0x4000C, [(4098, 32)], 4, [(0, Reg.FN_BADVEC_count)]⟩]

def mbx0 : List RegDesc := [
  ⟨"MBX_CH_CFG", 0xA00000, [(32, 256)], 4, [(16, Reg.MBX_CH_CFG_rx), (15, Reg.MBX_CH_CFG_purge), (8, Reg.MBX_CH_CFG_tx_mask)]⟩,
  ⟨"MBX_CH_IRQ", 0xA00004, [(32, 256)], 4, [(31, Reg.MBX_CH_IRQ_en), (0, Reg.MBX_CH_IRQ_vec)]⟩,
  ⟨"MBX_CH_STATUS", 0xA00008, [(32, 256)], 4, [(31, Reg.MBX_CH_STATUS_full), (30, Reg.MBX_CH_STATUS_tx_full), (29, Reg.MBX_CH_STATUS_refused), (28, Reg.MBX_CH_STATUS_purged), (20, Reg.MBX_CH_STATUS_sender_epoch)]⟩,
  ⟨"MBX_LOCK", 0xA04000, [(64, 4)], 4, [(0, Reg.MBX_LOCK_owner)]⟩,
  ⟨"MBX_UNLOCK", 0xA04100, [(64, 4)], 4, [(31, Reg.MBX_UNLOCK_force), (0, Reg.MBX_UNLOCK_owner)]⟩,
  ⟨"MBX_REFUSED", 0xA04200, [], 4, [(0, Reg.MBX_REFUSED_count)]⟩,
  ⟨"MBX_PV_SEL", 0xA08000, [], 4, [(31, Reg.MBX_PV_SEL_pf), (0, Reg.MBX_PV_SEL_vf)]⟩,
  ⟨"MBX_PV_IRQ", 0xA08004, [], 4, [(31, Reg.MBX_PV_IRQ_en), (0, Reg.MBX_PV_IRQ_vec)]⟩,
  ⟨"MBX_PV_PEND", 0xA08200, [(128, 4)], 4, [(0, Reg.MBX_PV_PEND_pend)]⟩,
  ⟨"MBX_WIN_BASE", 0xA10000, [(2, 1024), (16, 64)], 8, [(12, Reg.MBX_WIN_BASE_base)]⟩,
  ⟨"MBX_WIN_CFG", 0xA10008, [(2, 1024), (16, 64)], 8, [(63, Reg.MBX_WIN_CFG_en), (62, Reg.MBX_WIN_CFG_refused), (40, Reg.MBX_WIN_CFG_retry_us), (36, Reg.MBX_WIN_CFG_user), (32, Reg.MBX_WIN_CFG_blk), (0, Reg.MBX_WIN_CFG_nblk)]⟩,
  ⟨"MBX_WIN_STATUS", 0xA10010, [(2, 1024), (16, 64)], 8, [(32, Reg.MBX_WIN_STATUS_stalls), (0, Reg.MBX_WIN_STATUS_cursor)]⟩]

def mbx1 : List RegDesc := [
  ⟨"MBX_CH_TX", 0xA00020, [(32, 256), (8, 4)], 4, [(0, Reg.MBX_CH_TX_word)]⟩,
  ⟨"MBX_CH_COMMIT", 0xA00040, [(32, 256)], 4, [(0, Reg.MBX_CH_COMMIT_count)]⟩,
  ⟨"MBX_CH_RX_HDR", 0xA00060, [(32, 256)], 4, [(0, Reg.MBX_CH_RX_HDR_hdr)]⟩,
  ⟨"MBX_CH_RX_DATA", 0xA00080, [(32, 256), (8, 4)], 4, [(0, Reg.MBX_CH_RX_DATA_word)]⟩,
  ⟨"MBX_CH_RX_POP", 0xA000A0, [(32, 256)], 4, [(0, Reg.MBX_CH_RX_POP_hdr)]⟩]

def twn0 : List RegDesc := [
  ⟨"TWN_CTRL", 0xB00000, [], 4, [(31, Reg.TWN_CTRL_pair), (30, Reg.TWN_CTRL_unpair), (29, Reg.TWN_CTRL_resync), (28, Reg.TWN_CTRL_auto_resync)]⟩,
  ⟨"TWN_STATUS", 0xB00004, [], 4, [(31, Reg.TWN_STATUS_refused), (28, Reg.TWN_STATUS_reason), (27, Reg.TWN_STATUS_alive), (26, Reg.TWN_STATUS_primary), (25, Reg.TWN_STATUS_strap), (24, Reg.TWN_STATUS_key_ok), (23, Reg.TWN_STATUS_link), (0, Reg.TWN_STATUS_state)]⟩,
  ⟨"TWN_SBMASK", 0xB00008, [], 4, [(0, Reg.TWN_SBMASK_drive)]⟩,
  ⟨"TWN_LAT", 0xB0000C, [], 4, [(0, Reg.TWN_LAT_max_ns)]⟩,
  ⟨"TWN_AUTH_FAIL", 0xB00010, [], 4, [(0, Reg.TWN_AUTH_FAIL_count)]⟩,
  ⟨"TWN_HB_MISS", 0xB00014, [], 4, [(0, Reg.TWN_HB_MISS_count)]⟩,
  ⟨"TWN_SYNC_SKIP", 0xB00018, [], 4, [(0, Reg.TWN_SYNC_SKIP_count)]⟩,
  ⟨"TWN_ORPHAN", 0xB0001C, [], 4, [(0, Reg.TWN_ORPHAN_count)]⟩,
  ⟨"TWN_KEY_CMD", 0xB00020, [], 4, [(28, Reg.TWN_KEY_CMD_op)]⟩,
  ⟨"TWN_KEY_STAGE", 0xB00040, [(32, 1)], 1, [(0, Reg.TWN_KEY_STAGE_byte)]⟩,
  ⟨"TWN_QMASK", 0xB10000, [(8192, 4)], 4, [(0, Reg.TWN_QMASK_mir)]⟩,
  ⟨"TWN_PMASK", 0xB18000, [(8192, 4)], 4, [(0, Reg.TWN_PMASK_mir)]⟩]

def twn1 : List RegDesc := [
  ⟨"TWN_FN_VEC", 0xB20000, [(4098, 4)], 4, [(31, Reg.TWN_FN_VEC_en), (0, Reg.TWN_FN_VEC_vec)]⟩]

def flt0 : List RegDesc := [
  ⟨"FLT_CFG", 0xB80000, [], 4, [(0, Reg.FLT_CFG_fault_n_cont)]⟩,
  ⟨"FLT_IRQ", 0xB80008, [(2, 4)], 4, [(31, Reg.FLT_IRQ_en), (0, Reg.FLT_IRQ_vec)]⟩,
  ⟨"FLT_CTRL", 0xB80010, [], 4, [(31, Reg.FLT_CTRL_dev_reset), (30, Reg.FLT_CTRL_inj_refused)]⟩,
  ⟨"FLT_INJECT", 0xB80018, [], 8, [(32, Reg.FLT_INJECT_detail), (31, Reg.FLT_INJECT_go), (0, Reg.FLT_INJECT_source)]⟩,
  ⟨"FLT_WO_REC", 0xB80020, [], 8, [(63, Reg.FLT_WO_REC_valid), (62, Reg.FLT_WO_REC_multi), (61, Reg.FLT_WO_REC_paired), (58, Reg.FLT_WO_REC_cause), (55, Reg.FLT_WO_REC_state), (48, Reg.FLT_WO_REC_later), (0, Reg.FLT_WO_REC_source)]⟩,
  ⟨"FLT_WO_TS", 0xB80028, [], 8, [(0, Reg.FLT_WO_TS_ts)]⟩,
  ⟨"FLT_LOG_DATA", 0xB80040, [(16, 1)], 1, [(0, Reg.FLT_LOG_DATA_byte)]⟩,
  ⟨"FLT_LOG_POP", 0xB80050, [], 4, [(0, Reg.FLT_LOG_POP_pop)]⟩,
  ⟨"FLT_LOG_STATUS", 0xB80054, [], 4, [(0, Reg.FLT_LOG_STATUS_count)]⟩,
  ⟨"FLT_LOG_LOST", 0xB80058, [], 4, [(0, Reg.FLT_LOG_LOST_lost)]⟩,
  ⟨"FLT_FRAME_DROP", 0xB8005C, [], 4, [(0, Reg.FLT_FRAME_DROP_drops)]⟩,
  ⟨"FLT_RAIL", 0xB80060, [], 4, [(31, Reg.FLT_RAIL_uv_hold), (16, Reg.FLT_RAIL_below_uv), (0, Reg.FLT_RAIL_below_warn)]⟩]

def flt1 : List RegDesc := [
  ⟨"FLT_ACTIVE", 0xB80100, [(16, 4)], 4, [(0, Reg.FLT_ACTIVE_active)]⟩,
  ⟨"FLT_SRC_CFG", 0xB81000, [(512, 8)], 4, [(30, Reg.FLT_SRC_CFG_class), (26, Reg.FLT_SRC_CFG_scope), (4, Reg.FLT_SRC_CFG_whiteout), (3, Reg.FLT_SRC_CFG_failover), (2, Reg.FLT_SRC_CFG_irq_bmc), (1, Reg.FLT_SRC_CFG_irq_pf1), (0, Reg.FLT_SRC_CFG_irq_pf0)]⟩,
  ⟨"FLT_SRC_STATUS", 0xB81004, [(512, 8)], 4, [(31, Reg.FLT_SRC_STATUS_active), (30, Reg.FLT_SRC_STATUS_cause), (29, Reg.FLT_SRC_STATUS_inj), (0, Reg.FLT_SRC_STATUS_count)]⟩]

def pmu0 : List RegDesc := [
  ⟨"PMU_DUMP_CFG", 0xC00000, [], 4, [(31, Reg.PMU_DUMP_CFG_en), (30, Reg.PMU_DUMP_CFG_refused), (29, Reg.PMU_DUMP_CFG_busy), (8, Reg.PMU_DUMP_CFG_pf), (4, Reg.PMU_DUMP_CFG_win), (0, Reg.PMU_DUMP_CFG_set)]⟩,
  ⟨"PMU_DUMP_START", 0xC00008, [], 8, [(0, Reg.PMU_DUMP_START_start)]⟩,
  ⟨"PMU_SNAP_TS", 0xC00030, [], 8, [(0, Reg.PMU_SNAP_TS_ts)]⟩,
  ⟨"PMU_DUMP_PERIOD", 0xC00010, [], 4, [(0, Reg.PMU_DUMP_PERIOD_period)]⟩,
  ⟨"PMU_SNAP_CTRL", 0xC00020, [], 4, [(0, Reg.PMU_SNAP_CTRL_go)]⟩,
  ⟨"PMU_SKIP", 0xC00028, [], 4, [(0, Reg.PMU_SKIP_count)]⟩,
  ⟨"PMU_SLOT_CLR", 0xC00040, [], 4, [(0, Reg.PMU_SLOT_CLR_clusters)]⟩,
  ⟨"PMU_BLK_EVSEL", 0xC10000, [(20, 256), (8, 16)], 4, [(31, Reg.PMU_BLK_EVSEL_ovf), (0, Reg.PMU_BLK_EVSEL_event)]⟩,
  ⟨"PMU_BLK_CTR", 0xC10008, [(20, 256), (8, 16)], 8, [(0, Reg.PMU_BLK_CTR_value)]⟩,
  ⟨"PMU_CORE_CYC", 0xC40000, [(256, 256)], 8, [(0, Reg.PMU_CORE_CYC_cycles)]⟩,
  ⟨"PMU_CORE_CFG", 0xC40010, [(256, 256), (8, 16)], 4, [(31, Reg.PMU_CORE_CFG_ovf), (30, Reg.PMU_CORE_CFG_chain), (8, Reg.PMU_CORE_CFG_tmask), (0, Reg.PMU_CORE_CFG_event)]⟩,
  ⟨"PMU_CORE_CTR", 0xC40018, [(256, 256), (8, 16)], 8, [(0, Reg.PMU_CORE_CTR_value)]⟩]

def pmu1 : List RegDesc := [
  ⟨"PMU_SLOT_RETIRED", 0xC80000, [(4160, 32)], 8, [(0, Reg.PMU_SLOT_RETIRED_retired)]⟩,
  ⟨"PMU_SLOT_WASTED", 0xC80008, [(4160, 32)], 8, [(0, Reg.PMU_SLOT_WASTED_wasted)]⟩,
  ⟨"PMU_SLOT_FRONT", 0xC80010, [(4160, 32)], 8, [(0, Reg.PMU_SLOT_FRONT_front)]⟩,
  ⟨"PMU_SLOT_BACK", 0xC80018, [(4160, 32)], 8, [(0, Reg.PMU_SLOT_BACK_back)]⟩]

def pwr : List RegDesc := [
  ⟨"PWR_DOMAIN", 0xD00000, [], 4, [(4, Reg.PWR_DOMAIN_sds), (3, Reg.PWR_DOMAIN_hbm), (2, Reg.PWR_DOMAIN_sram), (1, Reg.PWR_DOMAIN_core), (0, Reg.PWR_DOMAIN_time)]⟩,
  ⟨"PWR_GATE_CFG", 0xD00008, [], 4, [(31, Reg.PWR_GATE_CFG_en), (16, Reg.PWR_GATE_CFG_wake_depth), (0, Reg.PWR_GATE_CFG_gate_us)]⟩,
  ⟨"PWR_GATE_STATUS", 0xD00010, [], 8, [(32, Reg.PWR_GATE_STATUS_lanes), (0, Reg.PWR_GATE_STATUS_clusters)]⟩,
  ⟨"PWR_WAKE_CNT", 0xD00018, [], 4, [(0, Reg.PWR_WAKE_CNT_count)]⟩,
  ⟨"PWR_CLK_STATUS", 0xD00020, [], 4, [(31, Reg.PWR_CLK_STATUS_sys_ref_lost), (2, Reg.PWR_CLK_STATUS_pll_dma), (1, Reg.PWR_CLK_STATUS_pll_ppl), (0, Reg.PWR_CLK_STATUS_pll_core)]⟩,
  ⟨"PWR_SDS_FAIL", 0xD00024, [], 4, [(0, Reg.PWR_SDS_FAIL_group)]⟩,
  ⟨"PWR_TEMP", 0xD00028, [], 4, [(16, Reg.PWR_TEMP_max), (0, Reg.PWR_TEMP_now)]⟩]

def boot : List RegDesc := [
  ⟨"BOOT_CTRL", 0xD01000, [], 4, [(31, Reg.BOOT_CTRL_ready), (0, Reg.BOOT_CTRL_clear_alt)]⟩,
  ⟨"BOOT_STATUS", 0xD01008, [], 4, [(31, Reg.BOOT_STATUS_firn_formatted), (30, Reg.BOOT_STATUS_image), (26, Reg.BOOT_STATUS_restarts), (0, Reg.BOOT_STATUS_alt)]⟩,
  ⟨"BOOT_CFG", 0xD01010, [], 4, [(1, Reg.BOOT_CFG_firn_reset), (0, Reg.BOOT_CFG_long_test)]⟩,
  ⟨"BOOT_IMG", 0xD01018, [], 8, [(32, Reg.BOOT_IMG_img_ver), (0, Reg.BOOT_IMG_svn)]⟩,
  ⟨"BOOT_FUSE", 0xD01020, [], 4, [(31, Reg.BOOT_FUSE_debug_closed), (8, Reg.BOOT_FUSE_revoked), (0, Reg.BOOT_FUSE_svn)]⟩,
  ⟨"BOOT_FUSE_CMD", 0xD01028, [], 4, [(31, Reg.BOOT_FUSE_CMD_arm), (30, Reg.BOOT_FUSE_CMD_go), (29, Reg.BOOT_FUSE_CMD_refused), (28, Reg.BOOT_FUSE_CMD_busy), (24, Reg.BOOT_FUSE_CMD_op), (0, Reg.BOOT_FUSE_CMD_arg)]⟩,
  ⟨"BOOT_LEDGER_SEL", 0xD01040, [], 4, [(0, Reg.BOOT_LEDGER_SEL_index)]⟩,
  ⟨"BOOT_LEDGER_DATA", 0xD01060, [(32, 1)], 1, [(0, Reg.BOOT_LEDGER_DATA_byte)]⟩]

/-- Every register of PF BAR0. Where `TBL_LPM_RGN` of pipelines 2 and up would overlap the L2 registers, the L2
registers stand first (log entry 4). -/
def all : List RegDesc :=
  glb ++ qm0 ++ qm1 ++ fp0 ++ fp1 ++ mc ++ ppl0 ++ ppl1 ++ tbl0 ++ tbl1 ++ tbl2 ++ mac ++ tlk ++ sb ++ shl ++ sch0 ++ sch1 ++ sch2 ++ mt0 ++ mt1 ++ mt2 ++ cph0 ++ cph1 ++ ofl0 ++ ofl1 ++ dma0 ++ dma1 ++ he ++ fn0 ++ fn1 ++ mbx0 ++ mbx1 ++ twn0 ++ twn1 ++ flt0 ++ flt1 ++ pmu0 ++ pmu1 ++ pwr ++ boot

end RegTable

end Sys2Proof.Machine
end

