-- ==== Sys2Proof/Machine/RegIO.lean ====
section
/-! DEFINITION. Sys2Proof/Machine/RegIO.lean: which register an offset of PF BAR0 names, and registers as numbers. -/

namespace Sys2Proof.Machine

/-- The number a list of fields spells: each field at its lowest bit. -/
def State.pack (s : State) (fs : List (Nat × Fld)) (i : Nat) : Nat :=
  fs.foldl (fun a p => a + s.get p.2 i * 2 ^ p.1) 0

/-- Store a number in a list of fields. -/
def State.unpack (s : State) (fs : List (Nat × Fld)) (i v : Nat) : State :=
  fs.foldl (fun t p => t.set p.2 i (bits v p.1 p.2.w)) s

/-- The flat index an offset in an array names, and the offset within the register. -/
def dimIx : List (Nat × Nat) → Nat → Nat → Option (Nat × Nat)
  | [], rel, acc => some (acc, rel)
  | (n, st) :: ds, rel, acc => if rel / st < n then dimIx ds (rel % st) (acc * n + rel / st) else none

/-- The instance of a register that holds the byte at an offset, and the place of the byte in it. -/
def RegDesc.at (d : RegDesc) (off : Nat) : Option (Nat × Nat) :=
  if off < d.base then none
  else
    match dimIx d.dims (off - d.base) 0 with
    | some (i, r) => if r < d.bytes then some (i, r) else none
    | none => none

/-- The first register of a list that holds the byte at an offset: register, instance, place. -/
def findIn : List RegDesc → Nat → Option (RegDesc × Nat × Nat)
  | [], _ => none
  | d :: ds, off =>
    match d.at off with
    | some (i, r) => some (d, i, r)
    | none => findIn ds off

/-- The register of PF BAR0 that holds the byte at an offset. -/
def findReg (off : Nat) : Option (RegDesc × Nat × Nat) := findIn RegTable.all off

end Sys2Proof.Machine
end

