-- ==== Sys2Proof/Machine/QueueOps.lean ====
section
/-! DEFINITION. Sys2Proof/Machine/QueueOps.lean: the shared operations of work queues, completion rings, event rings
and Firn (chapters "The Accepted-Work Contract" and "Work Queues, Entries and Completions"). -/

namespace Sys2Proof.Machine

def qsDisabled : Nat := 0
def qsActive : Nat := 1
def qsDormant : Nat := 2
def qsDraining : Nat := 3
def qsFrozen : Nat := 4
def qsError : Nat := 5

def State.qState (s : State) (q : Nat) : Nat := s.get Reg.QM_QCTX_STATUS_state q
def State.qOwner (s : State) (q : Nat) : Nat := s.get Reg.QM_QCTX_OWNER_gfn q
def State.qSize (s : State) (q : Nat) : Nat := 2 ^ s.get Reg.QM_QCTX_CTRL_log2size q
def State.qClass (s : State) (q : Nat) : Nat := s.get Reg.QM_QCTX_CTRL_qclass q
def State.ringMode (s : State) (q : Nat) : Bool := s.flag Reg.QM_QCTX_CTRL_cmode q
def State.qRing (s : State) (q : Nat) : Nat := s.get Reg.QM_QCTX_CQ_cq q
def State.qCons (s : State) (q : Nat) : Nat := s.get Reg.QM_QCTX_START_cons q
def State.entsOf (s : State) (q : Nat) : List Ent := SM.get [] s.ents q
def State.fetchedOf (s : State) (q : Nat) : List (List Byte) := SM.get [] s.fetched q

def State.setEnts (s : State) (q : Nat) (l : List Ent) : State := { s with ents := SM.put [] s.ents q l }
def State.setFetched (s : State) (q : Nat) (l : List (List Byte)) : State := { s with fetched := SM.put [] s.fetched q l }

/-- Change one outstanding entry of a queue. -/
def State.updEnt (s : State) (q idx : Nat) (f : Ent → Ent) : State :=
  s.setEnts q ((s.entsOf q).map (fun e => if e.idx = idx then f e else e))

/-- Take an outstanding entry out of a queue. -/
def State.dropEnt (s : State) (q idx : Nat) : State := s.setEnts q ((s.entsOf q).filter (fun e => e.idx != idx))

/-- An outstanding entry. -/
def State.entAt (s : State) (q idx : Nat) : Option Ent := (s.entsOf q).find? (fun e => e.idx == idx)

/-- The queues a function owns, among those whose context says so (R96). -/
def State.queuesOf (s : State) (g : Nat) : List Nat := s.having Reg.QM_QCTX_OWNER_gfn g

/-- The completion rings a function owns. -/
def State.ringsOf (s : State) (g : Nat) : List Nat := s.having Reg.QM_CRCTX_CTRL_gfn g

/-- The queues that name a ring and are not DISABLED. -/
def State.queuesOfRing (s : State) (r : Nat) : List Nat :=
  (s.instances Reg.QM_QCTX_STATUS_state).filter (fun q => s.qState q != qsDisabled && s.ringMode q && s.qRing q == r)

/-- `master_hold`: the queue is held for Bus Master Enable of its owner (R397). -/
def State.qHeld (s : State) (q : Nat) : Bool := decide (s.qOwner q < 4098) && s.fnHeld (s.qOwner q)

/-- A queue context in the layout of offsets 0x00 to 0x3F (Table FN-9). -/
def State.qCtx (s : State) (q : Nat) : List Byte :=
  let g := fun f => s.get f q
  leBytes 4 (g Reg.QM_QCTX_CTRL_en * 2 ^ 31 + g Reg.QM_QCTX_CTRL_pipe * 2 ^ 26 + g Reg.QM_QCTX_CTRL_cmode * 2 ^ 25 +
      g Reg.QM_QCTX_CTRL_qclass * 2 ^ 22 + g Reg.QM_QCTX_CTRL_log2size * 2 ^ 18 +
      g Reg.QM_QCTX_CTRL_poll_class * 2 ^ 15 + g Reg.QM_QCTX_CTRL_burst * 2 ^ 12) ++
  leBytes 4 (g Reg.QM_QCTX_OWNER_local * 2 ^ 16 + g Reg.QM_QCTX_OWNER_gfn) ++
  leBytes 8 (g Reg.QM_QCTX_BASE_base * 4096) ++ leBytes 8 (g Reg.QM_QCTX_WB_wb * 8) ++
  leBytes 8 (g Reg.QM_QCTX_STS_sts * 64) ++ leBytes 4 (g Reg.QM_QCTX_CQ_cq) ++
  leBytes 4 (g Reg.QM_QCTX_IRQ_irq_en * 2 ^ 31 + g Reg.QM_QCTX_IRQ_vec) ++
  leBytes 4 (g Reg.QM_QCTX_POLL_wb_us * 2 ^ 16 + g Reg.QM_QCTX_POLL_poll_idle_n) ++
  leBytes 4 (g Reg.QM_QCTX_START_done * 2 ^ 16 + g Reg.QM_QCTX_START_cons) ++
  leBytes 8 (g Reg.QM_QCTX_SEQ_acc_seq) ++
  leBytes 4 (g Reg.QM_QCTX_STATUS_err_cause * 2 ^ 12 + g Reg.QM_QCTX_STATUS_cfg_refused * 256 +
      g Reg.QM_QCTX_STATUS_arm_pending * 128 + g Reg.QM_QCTX_STATUS_win_exposed * 64 +
      g Reg.QM_QCTX_STATUS_recov_pend * 32 + g Reg.QM_QCTX_STATUS_cq_stall * 16 +
      b2n (s.qHeld q) * 8 + g Reg.QM_QCTX_STATUS_state) ++
  leBytes 4 (g Reg.QM_QCTX_STALLS_stalls)

/-- The words of a ring context but `gfn`. The last consumer index read stands in bytes 4–5, for which the layout has no
register (DESIGN CHOICE, log entry 21). -/
def crCtxWords : List (Nat × Nat × List (Nat × Fld)) :=
  [(0x00, 4, [(31, Reg.QM_CRCTX_CTRL_en), (30, Reg.QM_CRCTX_CTRL_evring), (18, Reg.QM_CRCTX_CTRL_log2size)]),
   (0x04, 4, [(0, Reg.RX_cons)]), (0x08, 8, [(12, Reg.QM_CRCTX_BASE_base)]), (0x10, 8, [(3, Reg.QM_CRCTX_CONS_cons)]),
   (0x18, 4, [(16, Reg.QM_CRCTX_IDX_prod), (0, Reg.QM_CRCTX_IDX_resv)]),
   (0x1C, 4, [(31, Reg.QM_CRCTX_IRQ_irq_en), (30, Reg.QM_CRCTX_IRQ_cons_bad), (29, Reg.QM_CRCTX_IRQ_cfg_refused),
      (0, Reg.QM_CRCTX_IRQ_vec)])]

/-- A ring's context, 32 bytes. -/
def State.crCtx (s : State) (r : Nat) : List Byte :=
  let bs := crCtxWords.flatMap (fun w => leBytes w.2.1 (s.pack w.2.2 r))
  splice bs 0 (leBytes 4 (leAt bs 0 4 + s.get Reg.QM_CRCTX_CTRL_gfn r))

/-- The context records of a queue: its own, and in ring mode its ring's (R457, Table TW-4). -/
def State.ctxRecs (s : State) (q : Nat) : List MirRec :=
  .ctxQ q (s.qCtx q) :: (if s.ringMode q then [.ctxR (s.qRing q) (s.crCtx (s.qRing q))] else [])

/-- A context write or state change of a mirrored queue is mirrored (Table TW-4, R460, R470). -/
def State.mirrorCtx (s : State) (q : Nat) : State :=
  if s.mirrored q then s.twinAwait (.mirror (s.ctxRecs q)) (.ctx q)
  else if s.syncing && s.qmask q then s.twinSend (.mirror (s.ctxRecs q))
  else s

/-- Move a queue to a state; `en` reads 1 in ACTIVE, DORMANT, FROZEN and ERROR (R62). -/
def State.setQ (s : State) (q st : Nat) : State :=
  let s := s.set Reg.QM_QCTX_STATUS_state q st
  (s.put Reg.QM_QCTX_CTRL_en q (st == qsActive || st == qsDormant || st == qsFrozen || st == qsError)).mirrorCtx q

/-! ## Firn (R50 to R58) -/

/-- What one record makes of Firn's accounting. -/
def firnApply (m : SMap FirnQ) : FirnRec → SMap FirnQ
  | .accept q e gfn base log2size cmode cq twin =>
    let x := SM.get {} m q
    SM.put {} m q { x with head := (e.idx + 1) % 65536, seq := (e.seq + 1) % 2 ^ 48, live := x.live ++ [e], since := true,
                           gfn := gfn, base := base, log2size := log2size, cmode := cmode, cq := cq, twin := twin }
  | .done q idx =>
    let x := SM.get {} m q
    SM.put {} m q { x with live := x.live.filter (fun e => e.idx != idx) }
  | .final q head =>
    let x := SM.get {} m q
    SM.put {} m q { x with head := head, since := false }
  | .undo q idx seq =>
    let x := SM.get {} m q
    SM.put {} m q { x with head := idx, seq := seq, live := x.live.filter (fun e => e.idx != idx) }

/-- A record appended at a tick of the time clock has reached the MRAM die: 128 µs have passed since, whatever Meridian
time was stepped to (R50). -/
def State.firnOld (s : State) (tick : Nat) : Bool := decide (tick + 128000 ≤ s.get Reg.CLK_ticks 0)

/-- Append a record to staging; records older than 128 µs have reached the MRAM die (R50). -/
def State.firnAppend (s : State) (r : FirnRec) : State :=
  let old := s.firnStage.filter (fun p => s.firnOld p.1)
  let new := s.firnStage.filter (fun p => !s.firnOld p.1)
  { s with firn := old.foldl (fun m p => firnApply m p.2) s.firn, firnStage := new ++ [(s.get Reg.CLK_ticks 0, r)] }

/-- Drain all of staging to the MRAM die (R51). -/
def State.firnDrain (s : State) : State :=
  { s with firn := s.firnStage.foldl (fun m p => firnApply m p.2) s.firn, firnStage := [] }

/-! ## Completion and event rings (R83 to R89) -/

def State.ringSize (s : State) (r : Nat) : Nat := 2 ^ s.get Reg.QM_CRCTX_CTRL_log2size r

/-- The credits available (R83). -/
def State.credits (s : State) (r : Nat) : Nat :=
  s.ringSize r - (s.get Reg.QM_CRCTX_IDX_resv r + 65536 - s.get Reg.RX_cons r) % 65536

/-- Read the consumer word of a ring (R85). -/
def State.readCons (s : State) (r : Nat) : State :=
  (s.hostRead (s.get Reg.QM_CRCTX_CTRL_gfn r) (s.get Reg.QM_CRCTX_CONS_cons r * 8) 8 false false (.cons r)).put Reg.RX_read r true

/-- Take a credit of a ring; its consumer word is read when fewer than one quarter of the credits are left and no read of
it is in flight (R83, R85). -/
def State.takeCredit (s : State) (r : Nat) : State :=
  let s := s.inc Reg.QM_CRCTX_IDX_resv r
  if 4 * s.credits r < s.ringSize r ∧ s.flag Reg.RX_read r = false then s.readCons r else s

/-- A record of Table WQ-8; its phase bit is set when it is written. -/
def mkRec (tag q status seq idx rlen result ts rtype : Nat) (more : Bool) : List Byte :=
  leBytes 4 tag ++ leBytes 3 q ++ leBytes 1 status ++ leBytes 6 seq ++ leBytes 2 idx ++ leBytes 4 rlen ++
  leBytes 4 result ++ leBytes 6 ts ++ leBytes 1 rtype ++ leBytes 1 (b2n more)

/-- Write a record at a ring's producer position, with its phase, and raise the ring's vector (R83, R84, R88). -/
def State.ringWrite (s : State) (r : Nat) (rec : List Byte) : State :=
  let p := s.get Reg.QM_CRCTX_IDX_prod r
  let ph := bits p (s.get Reg.QM_CRCTX_CTRL_log2size r) 1
  let bs := rec.take 31 ++ [BitVec.ofNat 8 (byteAt rec 31 % 128 + 128 * ph)]
  let g := s.get Reg.QM_CRCTX_CTRL_gfn r
  let s := s.hostWrite g (s.get Reg.QM_CRCTX_BASE_base r * 4096 + 32 * (p % s.ringSize r)) bs false false
  let s := s.set Reg.QM_CRCTX_IDX_prod r (p + 1)
  if s.flag Reg.QM_CRCTX_IRQ_irq_en r then s.raiseVec g (s.get Reg.QM_CRCTX_IRQ_vec r) else s

/-- The records held for a PF, and their number in `QM_EV_BACKLOG`. -/
def State.setBacklog (s : State) (pf : Nat) (l : List (List Byte)) : State :=
  ({ s with backlog := SM.put [] s.backlog pf l }).set
    (if pf = 0 then Reg.QM_EV_BACKLOG_pf0 else Reg.QM_EV_BACKLOG_pf1) 0 l.length

/-- The PF has an enabled event ring, which it still owns (R89). -/
def State.evOpen (s : State) (pf : Nat) : Bool :=
  s.flag Reg.QM_EVRING_en pf && s.flag Reg.QM_CRCTX_CTRL_en (s.get Reg.QM_EVRING_ring pf) &&
  s.get Reg.QM_CRCTX_CTRL_gfn (s.get Reg.QM_EVRING_ring pf) == pf

/-- Write one event record, which takes one credit (R89). -/
def State.evPut (s : State) (pf : Nat) (rec : List Byte) : State :=
  let r := s.get Reg.QM_EVRING_ring pf
  (s.takeCredit r).ringWrite r rec

/-- An event record of a PF: written at once, or held in the backlog while no ring is enabled or no credit is left,
behind the records already held (R89). -/
def State.evRecord (s : State) (pf : Nat) (rec : List Byte) : State :=
  let bl := SM.get [] s.backlog pf
  if s.evOpen pf && bl.isEmpty && s.credits (s.get Reg.QM_EVRING_ring pf) != 0 then s.evPut pf rec
  else s.setBacklog pf (bl ++ [rec])

/-- Write the held event records of a PF in order while credits last (R89). -/
def evDrain : List (List Byte) → Nat → State → State
  | [], pf, s => s.setBacklog pf []
  | rec :: rest, pf, s =>
    if s.evOpen pf && s.credits (s.get Reg.QM_EVRING_ring pf) != 0 then evDrain rest pf (s.evPut pf rec)
    else s.setBacklog pf (rec :: rest)

/-- FN_RESET record of an entry (Table WQ-9). The bytes of an event record that the table does not name, `ts` among them,
are written as zero (DESIGN CHOICE, log entry 41). -/
def fnResetRec (tag q status seq idx g : Nat) : List Byte := mkRec tag q status seq idx g 0 0 0x1 false

/-- RECOVERY record of a queue (Table WQ-9). -/
def recoveryRec (n q cause seq head g : Nat) (sealed exposed : Bool) : List Byte :=
  mkRec n q cause seq head (g + 65536 * (b2n sealed + 2 * b2n exposed)) 0 0 0x2 false

/-- RECOVERY_DONE record (Table WQ-9). -/
def recoveryDoneRec (n : Nat) : List Byte := mkRec n 0 0 0 0 0 0 0 0x3 false

/-- CQ_STALL record (Table WQ-9): queue, ring, stall length in µs. -/
def cqStallRec (q r us : Nat) : List Byte := mkRec 0 q 0 0 0 r us 0 0x4 false

/-- QUEUE_ERROR record (Table WQ-9). -/
def queueErrorRec (q cause g : Nat) : List Byte := mkRec 0 q cause 0 0 g 0 0 0x5 false

/-! ## Completions (R38 to R48, R79 to R81) -/

/-- Index of the first entry of a queue not yet finished. -/
def State.firstOpen (s : State) (q : Nat) : Nat :=
  match s.entsOf q with
  | [] => s.qCons q
  | e :: _ => e.idx

/-- Batch-mode entries that a writeback has covered are finished: their completion records go to Firn (R80). -/
def State.settle (s : State) (q : Nat) : State :=
  let l := SM.get [] s.passed q
  forEach l (fun e t => t.firnAppend (.done q e.idx)) { s with passed := SM.put [] s.passed q [] }

/-- Write the writeback word (Table WQ-7, R79); in batch mode a vector follows it when `done_idx` advanced (R88). -/
def State.writebackNow (s : State) (q : Nat) (final recov : Bool) : State :=
  let g := s.qOwner q
  let d := s.get Reg.QM_QCTX_START_done q
  let flags := bits d (s.get Reg.QM_QCTX_CTRL_log2size q) 1 + 2 * s.get Reg.QX_dorm q + 4 * b2n final + 8 * b2n recov
  let word := leBytes 2 (s.qCons q) ++ leBytes 2 d ++ leBytes 1 (s.get Reg.QX_sum q) ++ leBytes 1 flags ++ leBytes 2 0
  let s := s.hostWrite g (s.get Reg.QM_QCTX_WB_wb q * 8) word false false
  let adv := d != s.get Reg.QX_wbdone q
  let s := ((((s.set Reg.QX_pub q (s.qCons q)).set Reg.QX_sum q 0).put Reg.QX_wbdue q false).set Reg.QX_wbdone q d)
  let s := (s.put Reg.QX_wbowed q false).settle q
  if !s.ringMode q && s.flag Reg.QM_QCTX_IRQ_irq_en q && adv then s.raiseVec g (s.get Reg.QM_QCTX_IRQ_vec q) else s

/-- The writeback of a queue; while its owner is held for Bus Master Enable it is owed (R397). -/
def State.writeback (s : State) (q : Nat) (final recov : Bool) : State :=
  if s.fnHeld (s.qOwner q) then s.put Reg.QX_wbowed q true else s.writebackNow q final recov

/-- `done_idx` passes the leading finished entries. In batch mode their status bytes are written, in queue order, and a
passed entry with BATCH_CQ or a status other than 0x00 causes a writeback (R41, R80, R81). -/
def State.advanceDone (s : State) (q : Nat) : State :=
  let l := s.entsOf q
  let passed := l.takeWhile (fun e => e.done.isSome)
  if passed.isEmpty then s
  else
    let s := s.setEnts q (l.dropWhile (fun e => e.done.isSome))
    let s := s.set Reg.QM_QCTX_START_done q (s.firstOpen q)
    let s := s.set Reg.QX_sum q (passed.foldl (fun m e => max m (e.done.getD 0)) (s.get Reg.QX_sum q))
    if s.ringMode q then s
    else
      let s := forEach passed (fun e t => t.hostWrite (t.qOwner q) (t.get Reg.QM_QCTX_STS_sts q * 64 + e.idx % t.qSize q)
        [BitVec.ofNat 8 (e.done.getD 0)] false false) s
      let s := ({ s with passed := SM.put [] s.passed q (SM.get [] s.passed q ++ passed) }).put Reg.QX_wbdue q true
      if passed.any (fun e => weBatchCq e.bytes || e.done.getD 0 != 0) then s.writeback q false false else s

/-- Account an entry of a function that is being reset: one FN_RESET record, or one count in `FN_PF_LOST` (R416,
R417). -/
def State.accountReset (s : State) (q : Nat) (e : Ent) (status : Nat) : State :=
  let g := s.qOwner q
  let s := (s.dropEnt q e.idx).firnAppend (.done q e.idx)
  if s.flag Reg.FN_lost g then s.inc Reg.FN_PF_LOST_count (pfOf g)
  else (s.inc Reg.FN_ABAND_count g).evRecord (pfOf g) (fnResetRec (weTag e.bytes) q status e.seq e.idx g)

/-- Account an entry of a quarantined queue as a record of type 0x1 on the owner's PF event ring (Table FC-2). -/
def State.quarRecord (s : State) (q : Nat) (e : Ent) (status : Nat) : State :=
  let g := s.qOwner q
  ((s.dropEnt q e.idx).firnAppend (.done q e.idx)).evRecord (pfOf g) (fnResetRec (weTag e.bytes) q status e.seq e.idx g)

/-- Issue a completion to the host: for a function being reset its accounting record, for a quarantined queue its record
of Table FC-2, in ring mode a record in the queue's completion ring; then what `done_idx` passes (R38, R80, R83). -/
def State.issue (s : State) (c : Compl) : State :=
  match s.entAt c.q c.idx with
  | none => s
  | some e =>
    let fin := fun t : State => (t.updEnt c.q c.idx (fun e => { e with done := some c.status })).advanceDone c.q
    if e.done.isSome then s
    else if s.fnState (s.qOwner c.q) == fsResetting then s.accountReset c.q e c.status
    else if s.flag Reg.QX_quar c.q then s.quarRecord c.q e c.status
    else if s.ringMode c.q then
      fin (((s.firnAppend (.done c.q c.idx)).pmu 0 4 1).ringWrite (s.qRing c.q)
        (mkRec (weTag e.bytes) c.q c.status e.seq e.idx c.rlen c.result c.ts 0 c.more))
    else fin (s.pmu 0 4 1)

/-- Completions that wait for the partner and take places of a ring before the next (R48). -/
def State.doneAhead (s : State) (r : Nat) : Nat :=
  (s.twinWait.filter (fun w => match w.2 with
    | .compl c => s.ringMode c.q && s.qRing c.q == r
    | _ => false)).length

/-- The mirror record of a finished entry (Table TW-4); where its record does not go to the queue's completion ring, the
form without one (log entry 22). -/
def State.doneRec (s : State) (e : Ent) (c : Compl) : MirRec :=
  let r := s.qRing c.q
  if s.ringMode c.q && s.fnState (s.qOwner c.q) != fsResetting && !s.flag Reg.QX_quar c.q then .doneR r ((s.get Reg.QM_CRCTX_IDX_prod r + s.doneAhead r) % 65536)
    (mkRec (weTag e.bytes) c.q c.status e.seq e.idx c.rlen c.result c.ts 0 c.more)
  else .doneB c.q c.idx [c.status]

/-- The completions of a queue wait: its function is held for Bus Master Enable (R397, Table AW-2), and they do not go
to an event ring instead. -/
def State.complHeld (s : State) (q : Nat) : Bool :=
  s.fnHeld (s.qOwner q) && s.fnState (s.qOwner q) != fsResetting && !s.flag Reg.QX_quar q

/-- Finish an accepted entry once (R38): its completion is issued at once, or after the partner's acknowledgement of its
mirror record (R48), or once its function is held no longer. Past the completion seal and in WHITEOUT nothing is
finished: Firn reports the entry after the restart (R55, R56). -/
def State.complete (s : State) (c : Compl) : State :=
  match s.entAt c.q c.idx with
  | none => s
  | some e =>
    if e.done.isSome || e.mirr || s.masterStop then s
    else if s.complHeld c.q then s.updEnt c.q c.idx (fun e => { e with mirr := true, hold := some c })
    else if s.syncing && s.qmask c.q then (s.twinSend (.mirror [s.doneRec e c])).issue c
    else if s.mirrored c.q then
      let m := s.doneRec e c
      (s.updEnt c.q c.idx (fun e => { e with mirr := true })).twinAwait (.mirror [m]) (.compl c)
    else s.issue c

/-- A completion that waited for Bus Master Enable goes on. -/
def State.unhold (s : State) (c : Compl) : State :=
  (s.updEnt c.q c.idx (fun e => { e with mirr := false, hold := none })).complete c

/-- The completions and writebacks of the functions that are held no longer go on, after their other requests (R399). -/
def State.releaseCompl (s : State) : State :=
  let s := forEach ((s.ents.flatMap (fun e => e.2)).filterMap (fun e => e.hold)) (fun c t =>
    if t.complHeld c.q then t else t.unhold c) s
  forEach (s.having Reg.QX_wbowed 1) (fun q t => t.writeback q false false) s

/-- A completion with its finish time (Table WQ-8). -/
def State.finish (s : State) (q idx status rlen result : Nat) : State :=
  s.complete { q := q, idx := idx, status := status, rlen := rlen, result := result, ts := s.now }

/-- An entry may start: FENCE orders it against the others of its queue (R42), and hand-over has not stopped
(R55 step 2). -/
def State.mayStart (s : State) (q idx : Nat) : Bool :=
  match s.entAt q idx with
  | none => false
  | some e =>
    let earlier := (s.entsOf q).filter (fun x => seqBefore x.seq e.seq && x.done.isNone)
    !e.way && !e.tab && e.done.isNone && !e.mirr && !s.flag Reg.PW_warn 0 &&
    (if weFence e.bytes then earlier.isEmpty else earlier.all (fun x => !weFence x.bytes))

/-- An accepted entry may be handed to its pipeline or engine: it may start, the datapath moves frames, and its function
neither is held nor is being reset (Table AW-2). -/
def State.entGo (s : State) (q idx : Nat) : Bool :=
  s.mayStart q idx && s.moving && !s.fnHeld (s.qOwner q) && s.fnState (s.qOwner q) != fsResetting

/-- The earlier outstanding entries of the queue have all been sent to their pipeline before this one (R40). -/
def State.sendTurn (s : State) (q : Nat) (e : Ent) : Bool :=
  (s.entsOf q).all (fun x => !seqBefore x.seq e.seq || x.done.isSome || x.mirr || x.sent || x.way)

/-- A TX entry's frame joins those that wait for the host pool; the entry is not under way yet (R250). -/
def State.markSent (s : State) (q idx : Nat) : State := s.updEnt q idx (fun e => { e with sent := true })

/-- Mark an entry under way. -/
def State.markWay (s : State) (q idx : Nat) : State := s.updEnt q idx (fun e => { e with way := true })

/-! ## Polling and acceptance -/

/-- Interval of a poll class in ns (Table WQ-6). -/
def pollInterval (c : Nat) : Nat := [250, 500, 1000, 4000, 16000, 64000, 250000, 1000000].getD c 0

/-- A queue falls due at a time; the interval of its present class stays with the due time (R73, R95). -/
def State.dueAt (s : State) (q t : Nat) : State :=
  ((s.put Reg.QX_due q true).set Reg.QX_duens q t).set Reg.QX_ival q (pollInterval (s.get Reg.QM_QCTX_CTRL_poll_class q))

/-- The function may be polled: it is ACTIVE, not held and not quarantined, and the datapath takes in work. -/
def State.mayFetch (s : State) (q : Nat) : Bool :=
  s.open_ && !s.flag Reg.PW_stopacc 0 && s.fnState (s.qOwner q) == fsActive && !s.fnHeld (s.qOwner q) &&
  !s.flag Reg.FN_quar (s.qOwner q)

/-- The queue may be polled (R72, R73): ACTIVE, no poll in flight, nothing fetched that still waits. -/
def State.mayPoll (s : State) (q : Nat) : Bool :=
  s.mayFetch q && s.qState q == qsActive && !s.flag Reg.QX_poll q && (s.fetchedOf q).isEmpty &&
  (SM.get [] s.recov q).isEmpty

/-- Entries one poll reads: `burst` + 1, never across the end of the ring. -/
def State.pollCount (s : State) (q : Nat) : Nat :=
  min (s.get Reg.QM_QCTX_CTRL_burst q + 1) (s.qSize q - s.qCons q % s.qSize q)

/-- Issue a poll read at the consumer index, and remember when (R66, R72). -/
def State.pollIssue (s : State) (q : Nat) : State :=
  let n := s.pollCount q
  let s := s.hostRead (s.qOwner q) (s.get Reg.QM_QCTX_BASE_base q * 4096 + 64 * (s.qCons q % s.qSize q)) (64 * n) false false (.poll q)
  ((((s.put Reg.QX_poll q true).set Reg.QX_polln q n).put Reg.QX_due q false).set Reg.QX_duens q s.clk).pmu 0 1 1

/-- Return the credit and the journal mark of a stalled step and discard what is fetched (R91). An ACCEPT record that
went to the partner is taken back by a context record (DESIGN CHOICE, log entry 22). The queue is due again, so that what
was discarded is fetched again (R32). -/
def State.discardFetched (s : State) (q : Nat) : State :=
  let s := if (s.fetchedOf q).isEmpty then s else s.dueAt q s.clk
  let s := if s.flag Reg.QX_resv q then
      s.set Reg.QM_CRCTX_IDX_resv (s.qRing q) (s.get Reg.QM_CRCTX_IDX_resv (s.qRing q) + 65535)
    else s
  let s := if s.flag Reg.QX_jrnl q then s.firnAppend (.undo q (s.qCons q) (s.get Reg.QM_QCTX_SEQ_acc_seq q)) else s
  let s := { s with twinWait := s.twinWait.filter (fun p => p.2 != TwinWait.accept q) }
  let sent := s.flag Reg.QX_mwait q || s.flag Reg.QX_mack q
  let s := ((((s.setFetched q []).put Reg.QX_resv q false).put Reg.QX_jrnl q false).put Reg.QX_mwait q false).put
    Reg.QM_QCTX_STATUS_cq_stall q false
  let s := s.put Reg.QX_mack q false
  if sent then s.mirrorCtx q else s

/-- SA record `i` (Table CP-8). -/
def State.saRec (s : State) (i : Nat) : List Byte := s.rd (baseSA + 128 * i) 128

/-- The page of an SA record, and its `valid` bit (Table CP-8). -/
def saPage (r : List Byte) : Nat := bits (leAt r 0 2) 0 13
def saValid (r : List Byte) : Bool := bit (byteAt r 3) 3

/-- Owner of a resource an entry names is not the entry's function (R37, R315, R333, R359, R363); a template or connection
that an `offl` word names is judged where the word's layout is known (R334). -/
def State.entryDenied (s : State) (q : Nat) (e : List Byte) : Bool :=
  let g := s.qOwner q
  let c := s.qClass q
  if c = qcTx then txSaEn e && saValid (s.saRec (txSa e)) && s.get Reg.CPH_PAGE_OWNER_owner (saPage (s.saRec (txSa e))) != g
  else if c = qcCph then s.get Reg.CPH_PAGE_OWNER_owner (cpPage e) != g
  else if c = qcDma then
    s.get Reg.DMA_CH_OWNER_owner (dmChan e) != g ||
    (weOpcode e == 1 && (dmaSpace (if weIndirect e then 0 else weAddr e) != .host ||
      !(dmaSpace (dmDst e) == .host || (decide (g < 2) && (dmaSpace (dmDst e) == .shell || dmaSpace (dmDst e) == .saStore)))))
  else false

/-- A DMA entry that names a streaming channel is bad (R365). -/
def State.entryStream (s : State) (q : Nat) (e : List Byte) : Bool :=
  s.qClass q == qcDma && bit (s.get Reg.DMA_CH_CFG_cfg (dmChan e)) 9

/-- Step 4 of R33: the consumer index advances past the oldest fetched entry, which is accepted; the published head
is written (R34); an invalid entry is completed at once (R37); a fragment table is asked for (R69). -/
def State.acceptNow (s : State) (q : Nat) : State :=
  match s.fetchedOf q with
  | [] => s
  | e :: rest =>
    let idx := s.qCons q
    let ent : Ent := { idx := idx, seq := s.get Reg.QM_QCTX_SEQ_acc_seq q, bytes := e, frags := [],
                       tab := weIndirect e, way := false, done := none, mirr := false, acc := s.now }
    let s := (s.setFetched q rest).setEnts q (s.entsOf q ++ [ent])
    let s := ((s.set Reg.QM_QCTX_START_cons q (idx + 1)).inc Reg.QM_QCTX_SEQ_acc_seq q)
    let s := (((s.put Reg.QX_resv q false).put Reg.QX_jrnl q false).put Reg.QX_mwait q false).put Reg.QX_mack q false
    let s := s.set Reg.QM_QCTX_START_done q (s.firstOpen q)
    let s := (s.pmu 0 3 1).writeback q false false
    if entryBad (s.qClass q) e || s.entryStream q e then s.finish q idx 0x20 0 0
    else if s.entryDenied q e then s.finish q idx 0x22 0 0
    else if weIndirect e then
      (s.hostRead (s.qOwner q) (weAddr e) (16 * weNfrag e) false false (.entry q idx))
    else s

/-- The entries accepted and not yet passed by `done_idx` fill the ring: `pub_head` may not run further ahead (R79). -/
def State.ringFull (s : State) (q : Nat) : Bool :=
  decide (s.qSize q ≤ (s.qCons q + 65536 - s.get Reg.QM_QCTX_START_done q) % 65536)

/-- The steps of R33 for the oldest fetched entry, as far as they can be taken. -/
def State.acceptSteps (s : State) (q : Nat) : State :=
  match s.fetchedOf q with
  | [] => s
  | e :: _ =>
    if s.flag Reg.QX_mwait q || s.ringFull q then s
    else if s.ringMode q && !s.flag Reg.QX_resv q && s.credits (s.qRing q) == 0 then
      if s.flag Reg.QM_QCTX_STATUS_cq_stall q then s
      else ((((s.put Reg.QM_QCTX_STATUS_cq_stall q true).inc Reg.QM_QCTX_STALLS_stalls q).set Reg.QX_stallns q s.clk).put
        Reg.QX_stallev q false).pmu 0 5 1
    else
      let s := if s.ringMode q && !s.flag Reg.QX_resv q then
          ((s.takeCredit (s.qRing q)).put Reg.QX_resv q true).put Reg.QM_QCTX_STATUS_cq_stall q false
        else s
      let seq := s.get Reg.QM_QCTX_SEQ_acc_seq q
      let s := if s.flag Reg.QX_jrnl q then s
        else (s.firnAppend (.accept q { idx := s.qCons q, seq := seq, tag := weTag e } (s.qOwner q)
          (s.get Reg.QM_QCTX_BASE_base q) (s.get Reg.QM_QCTX_CTRL_log2size q) (s.get Reg.QM_QCTX_CTRL_cmode q)
          (s.qRing q) (s.mirrored q))).put Reg.QX_jrnl q true
      if s.mirrored q && !s.flag Reg.QX_mack q then
        (s.put Reg.QX_mwait q true).twinAwait (.mirror [.accept q (s.qCons q) 1 seq]) (.accept q)
      else if s.syncing && s.qmask q then (s.twinSend (.mirror [.accept q (s.qCons q) 1 seq])).acceptNow q
      else s.acceptNow q

/-- A queue goes to ERROR: polling stops and one QUEUE_ERROR event is written (R93). -/
def State.queueError (s : State) (q cause : Nat) : State :=
  let s := s.discardFetched q
  let s := ((s.put Reg.QX_poll q false).put Reg.QX_due q false).put Reg.QX_last q false
  let s := (s.set Reg.QM_QCTX_STATUS_err_cause q cause).setQ q qsError
  s.evRecord (pfOf (s.qOwner q)) (queueErrorRec q cause (s.qOwner q))

/-- A queue becomes DISABLED with its final published head (R45, R58); the writeback with `final` 1 is written where
`wb` says so (not for an FLR or VF disable). `err_cause` is cleared, as no error stands any more (DESIGN CHOICE, log entry
41). -/
def State.disableNow (s : State) (q : Nat) (wb : Bool) : State :=
  let s := s.firnAppend (.final q (s.qCons q))
  let s := if wb then s.writeback q true false else s
  (((s.put Reg.QX_offreq q false).put Reg.QX_poll q false).set Reg.QM_QCTX_STATUS_err_cause q 0).setQ q qsDisabled

end Sys2Proof.Machine
end

