-- ==== Sys2Proof/Machine/ThreadCore.lean ====
section
/-! DEFINITION. Sys2Proof/Machine/ThreadCore.lean: what other units do to a thread: raise an event and send a result
(R114, R120), and which units a register write reaches. -/

namespace Sys2Proof.Machine

/-- The device runs in GUARD (Table OV-3; profile 3). -/
def State.guard (s : State) : Bool := s.get Reg.GLB_PROFILE_profile 0 == 3

/-- A flat index names a thread: in GUARD a checker's index names none (R102). -/
def State.threadNamed (s : State) (t : Nat) : Bool :=
  decide (t < 4160) && !(s.guard && decide (t < 4096) && bit t 4)

/-- Raise an event at a thread; events merge (R120). -/
def State.raiseEv (s : State) (t b : Nat) : State :=
  if s.threadNamed t then s.set Reg.TH_ev t (s.get Reg.TH_ev t ||| 2 ^ b) else s

/-- Send a result toward a thread's tag; it arrives with CMD_RESULT_ARRIVAL (R114). A posted command has no result
(R158). -/
def State.toThread (s : State) (t tagp1 : Nat) (words : List Nat) : State :=
  if tagp1 = 0 then s
  else { s with flight := s.flight ++ [(t, tagp1 - 1, s.get Reg.TH_tagseq (4 * t + (tagp1 - 1)), words)] }

/-- The thread a destination code of Table MT-2 names: 0x0200 + flat index, 0x1200 + management thread. -/
def destThread (d : Nat) : Option Nat :=
  if 0x200 ≤ d ∧ d < 0x1200 then some (d - 0x200)
  else if 0x1200 ≤ d ∧ d < 0x1240 then some (4096 + (d - 0x1200)) else none

/-- The detector of a cluster re-arms: one of its workers has left the condition (R124). -/
def State.rearm (s : State) (t : Nat) : State :=
  if t < 4096 ∧ t % 16 ≠ 0 then s.put Reg.CLU_dlk (t / 256) false else s

/-- A register write by a PF or firmware reaches its block (R405, R443). -/
def State.mayWrite (s : State) (w : Who) : Bool :=
  s.busOpen w && (match w with | .pf _ => true | .fw _ => true | _ => false)

/-- What a BAR read of `size` bytes returns in WHITEOUT (R483). -/
def deadWords (size : Nat) : Nat := leNat ((List.range (size / 4)).flatMap (fun _ => leBytes 4 0xDEAD5AFE))

/-- A read request that a function with Memory Space Enable clear does not decode: Unsupported Request, with the header of
the request, which is the requester's (R389, log entry 1). -/
def State.urRead (s : State) (g : Nat) : State :=
  let r := s.freshBytes 16
  ((r.2.inc Reg.HE_IN_ERR_count (pfOf g)).aer g 20 true r.1).emit (.badCpl g true)

/-- Return the data of a read of a block: the block's value and the state the read leaves, where the accessor reaches
it; 0xDEAD5AFE words in WHITEOUT (R483), zero while the block does not answer in BOOTING (R405), Unsupported Request
with Memory Space Enable clear (R389). -/
def State.answer (s : State) (w : Who) (size : Nat) (r : State × Nat) : State :=
  if s.busOpen w then r.1.emit (.regData w size r.2)
  else
    match w with
    | .pf h =>
      if s.flag Reg.CFG_mse h && !s.flag Reg.FN_STATE_d3 h then
        if s.dev == dsWhiteout then s.emit (.regData w size (deadWords size)) else s.emit (.regData w size 0)
      else s.urRead h
    | .vf g =>
      if s.fnExists g && s.vfMem g then
        if s.dev == dsWhiteout then s.emit (.regData w size (deadWords size)) else s.emit (.regData w size 0)
      else s.urRead g
    | _ => s

/-- The latch of a reader: PF0, PF1, firmware, BMC (R238, R279). -/
def readerOf : Who → Option Nat
  | .pf h => some h
  | .fw _ => some 2
  | .bmc => some 3
  | .vf _ => none

/-- A 16-bit value as a signed number. -/
def sgn16 (v : Nat) : Int := if v < 2 ^ 15 then (v : Int) else (v : Int) - 2 ^ 16

/-- A 64-bit value as a signed number. -/
def sgn64 (v : Nat) : Int := if v < 2 ^ 63 then (v : Int) else (v : Int) - 2 ^ 64

/-- The 64-bit Meridian time nearest to `now` whose low 48 bits are `t`. -/
def widen48 (now t : Nat) : Nat :=
  let d := (t + 2 ^ 48 - now % 2 ^ 48) % 2 ^ 48
  if d < 2 ^ 47 then (now + d) % 2 ^ 64 else (now + d + 2 ^ 64 - 2 ^ 48) % 2 ^ 64

end Sys2Proof.Machine
end

