-- ==== Sys2Proof/Machine/CipherOps.lean ====
section
/-! DEFINITION. Sys2Proof/Machine/CipherOps.lean: user pages, key slots, SA records and cipher jobs (chapter "Masked
Cipher Lanes and User Pages"). -/

namespace Sys2Proof.Machine

/-- Index of slot `k` of page `pg` in the key fields. -/
def kix (pg k : Nat) : Nat := 64 * pg + k

def State.pageOwner (s : State) (pg : Nat) : Nat := s.get Reg.CPH_PAGE_OWNER_owner pg

/-- An owner value that is a tenant slot (R314). -/
def isTenant (g : Nat) : Bool := decide (0x1E00 ≤ g ∧ g < 0x1E10)

/-- The owner is the PF, one of its VFs or a tenant slot (R314). -/
def pageInPf (h g : Nat) : Bool := inPf h g || isTenant g

/-- The accessor reaches a page: a PF its own, its VFs' and the tenants' pages, a guest its own, firmware and the BMC
every page (R314, R315). -/
def State.pageReach (s : State) (w : Who) (pg : Nat) : Bool :=
  let g := s.pageOwner pg
  match w with
  | .pf h => pageInPf h g
  | .fw _ => true
  | .bmc => true
  | .vf v => g == v

/-- The key interface instance of an accessor: PF0, PF1, secure management threads, the BMC, and one for each VF. -/
def State.keyInst (s : State) (w : Who) : Option Nat :=
  match w with
  | .pf h => some h
  | .fw m => if secure s (.fw m) then some 2 else none
  | .bmc => some 3
  | .vf g => some (4 + g)

/-! ## Attributes (Table CP-2) -/

/-- Bytes of the key an attribute byte describes. -/
def keyBytes (attr : Nat) : Nat := (if bit attr 0 then 32 else 16) * (if bit attr 1 then 2 else 1)

/-- The attribute byte is refused by R316. -/
def attrBad (a : Nat) : Bool :=
  (bit a 5 && (bit a 2 || bit a 3 || bit a 4 || bit a 6 || bit a 1)) || (bit a 1 && bit a 4) ||
  !(bit a 2 || bit a 3 || bit a 4 || bit a 5 || bit a 6)

def State.slotValid (s : State) (pg k : Nat) : Bool := s.flag Reg.KY_valid (kix pg k)
def State.slotAttr (s : State) (pg k : Nat) : Nat := s.get Reg.KY_attr (kix pg k)

/-- The true value of what a slot holds at rest in two shares (R310). -/
def State.slotKey (s : State) (pg k : Nat) : List Byte :=
  (xorB (s.rd (baseKey pg k) 64) (s.rd (baseKeyMask pg k) 64)).take (keyBytes (s.slotAttr pg k))

/-- Write both shares of a slot. -/
def State.keyShares (s : State) (pg k : Nat) (a b : List Byte) : State := (s.wr (baseKey pg k) a).wr (baseKeyMask pg k) b

/-- Install a key in a slot, split under a fresh mask (R310); `gen` counts the load (R315). -/
def State.loadKey (s : State) (pg k attr : Nat) (key : List Byte) : State :=
  let m := s.freshBytes 64
  let s := (m.2.keyShares pg k (xorB (padTo 64 key) m.1) m.1).set Reg.KY_attr (kix pg k) attr
  (s.put Reg.KY_valid (kix pg k) true).inc Reg.KY_gen (kix pg k)

/-- Re-randomise the two shares of a slot, as each fetch of its key by a lane does (R310). -/
def State.remask (s : State) (pg k : Nat) : State :=
  let m := s.freshBytes 64
  m.2.keyShares pg k (xorB (s.rd (baseKey pg k) 64) m.1) (xorB (s.rd (baseKeyMask pg k) 64) m.1)

/-- A value split into three shares by fresh masks (R310). -/
def State.split3 (s : State) (v : List Byte) : Shares × State :=
  let m := s.freshBytes v.length
  let n := m.2.freshBytes v.length
  ({ a := xorB (xorB v m.1) n.1, b := m.1, c := n.1 }, n.2)

/-- The true value of three shares. -/
def Shares.value (x : Shares) : List Byte := xorB (xorB x.a x.b) x.c

/-- A lane fetches the key of a slot: the shares at rest are re-randomised, and the lane holds it in three (R310). -/
def State.fetchKey (s : State) (pg k : Nat) : Shares × State := (s.remask pg k).split3 (s.slotKey pg k)

/-- The slot serves an operation and mode (Table CP-1). -/
def State.slotServes (s : State) (pg k op mode : Nat) : Bool :=
  let a := s.slotAttr pg k
  s.slotValid pg k && (bit a 1 == (mode == cmXts)) &&
  (if op == coEncrypt then bit a 2 else if op == coDecrypt then bit a 3 else bit a 4)

/-! ## Jobs -/

def State.setJobs (s : State) (l : List Job) : State := { s with jobs := l }

/-- A job arrives at CPH. -/
def State.addJob (s : State) (j : Job) : State :=
  (s.inc Reg.CPX_seq 0).setJobs (s.jobs ++ [{ j with id := s.get Reg.CPX_seq 0 }])

/-! ### The transform of a job (R322, R323) -/

/-- Output and tag of a job over its AAD and data. -/
def jobOut (op mode du : Nat) (key iv aad data : List Byte) : List Byte × List Byte :=
  if mode = cmGcm then
    let out := gcmCrypt key iv data
    (out, gcmTag key iv aad (if op = coEncrypt then out else data))
  else if mode = cmGmac then ([], gcmTag key iv data [])
  else if mode = cmXts then (aesXts (op == coDecrypt) key iv du data, [])
  else if mode = cmCtr then (aesCtr key iv data, [])
  else ([], aesCmac key data)

/-- The key of a job's lane. -/
def Job.key (j : Job) : List Byte := j.shares.value

/-- The block that a lane goes on from after `n` bytes of AAD and data: counter, tweak of the data unit, or 16 bytes of an
accumulator (R327); `acc` stands for a GHASH or CMAC accumulator, which only the data gives. -/
def Job.next (j : Job) (n : Nat) (acc : List Byte) : List Byte :=
  if j.mode = cmCtr then beBytes 16 ((beNat j.iv + n / 16) % 2 ^ 128)
  else if j.mode = cmXts then leBytes 16 ((leNat j.iv + (if j.du = 0 then 0 else n / 2 ^ j.du)) % 2 ^ 128)
  else if j.mode = cmGcm ∧ j.aad ≤ n then beBytes 16 (beNat (j.iv.take 12) * 2 ^ 32 + (2 + (n - j.aad) / 16) % 2 ^ 32)
  else if n = 0 then List.replicate 16 0#8
  else acc

/-- Where a thread's data space begins (R324, Table NI-8). -/
def spaceBase (thr space : Nat) : Nat := if space = 0 then baseW thr else if thr < 4096 then baseS (thr / 256) else baseM

/-- The command of the job was abandoned: its tag has moved on (R115, R325). -/
def State.jobDead (s : State) (j : Job) : Bool :=
  if j.tagp1 = 0 then s.get Reg.TH_gen j.thr != j.tseq else s.get Reg.TH_tagseq (4 * j.thr + (j.tagp1 - 1)) != j.tseq

/-- Write bytes of a job's result at an address of its entry or an offset of its thread's space. -/
def State.jobWrite (s : State) (j : Job) (a : Nat) (bs : List Byte) (ro ns : Bool) : State :=
  if j.kind = 0 then s.hostWrite (s.qOwner j.q) a bs ro ns
  else if j.space = 0 ∧ s.jobDead j = true then s
  else s.wr (spaceBase j.thr j.space + a) bs

/-- The Relaxed Ordering and No Snoop flags of a job's entry. -/
def State.jobFlags (s : State) (j : Job) : Bool × Bool :=
  match s.entAt j.q j.idx with
  | some e => if j.kind = 0 then (weRo e.bytes, weNs e.bytes) else (false, false)
  | none => (false, false)

/-- Report a job's end to what asked for it: a completion, or a thread's result (R323, R324). The `result` carries
the lane and whether the job was suspended. Of an abandoned MAC_VERIFY nothing is kept, its failure neither (R325). -/
def State.jobReport (s : State) (j : Job) (status rlen : Nat) : State :=
  let lost := j.kind == 1 && j.op == coMacVerify && s.jobDead j
  let s := if status = 0x40 ∧ lost = false then s.inc Reg.CPH_AUTH_FAIL_count 0 else s
  if j.kind = 0 then s.finish j.q j.idx status rlen ((j.lane - 1) % 32 + 256 * b2n j.was)
  else if j.kind = 1 then
    if j.tagp1 = 0 then (if status = 0 ∨ lost = true then s else s.inc Reg.CPH_POST_ERR_count 0)
    else { s with flight := s.flight ++ [(j.thr, j.tagp1 - 1, j.tseq, [status])] }
  else s

/-- A running job stops at its next 16-byte block boundary: which one is a free value, never before one it had reached
(R321, R327; log entry 1). A suspended job stays where it stopped. -/
def State.jobStop (s : State) (j : Job) : Nat × State :=
  if j.sus ≠ 0 then (j.pos, s)
  else
    let (n, s) := s.fresh
    (min (j.aad + j.len) (j.pos + 16 * n), s)

/-- The output of a job up to where it stopped, and its length: a thread's is made from its own data, an entry's is of
bytes the host returned, which the model does not see before the job's end: free bytes (log entry 1). -/
def State.jobPart (s : State) (j : Job) : Nat × State :=
  let (p, s) := s.jobStop j
  let n := if j.op == coEncrypt || j.op == coDecrypt then p - j.aad else 0
  if n = 0 then (0, s)
  else if j.kind = 1 then
    let d := s.rd (spaceBase j.thr j.space + j.src) (j.aad + j.len)
    (n, s.jobWrite j j.dst ((jobOut j.op j.mode j.du j.key j.iv (d.take j.aad) (d.drop j.aad)).1.take n) false false)
  else
    let b := s.freshBytes n
    (n, b.2.jobWrite j j.dst b.1 (s.jobFlags j).1 (s.jobFlags j).2)

/-- End a running or suspended job before its time: what it had made is written, and `result_len` counts it (R321, R323,
R326). -/
def State.jobAbort (s : State) (j : Job) (status : Nat) : State :=
  let (n, s) := s.jobPart j
  (s.setJobs (s.jobs.filter (fun x => x != j))).jobReport j status n

/-- A job runs or is suspended on a slot. -/
def Job.onSlot (j : Job) (pg k : Nat) : Bool := (j.lane != 0 || j.sus != 0) && j.kind != 2 && j.page == pg && j.slot == k

/-- An inline job runs on a slot. -/
def Job.inlineOn (j : Job) (pg k : Nat) : Bool := j.kind == 2 && j.lane != 0 && j.page == pg && j.slot == k

/-- Overwrite both shares of a slot. -/
def State.wipeKey (s : State) (pg k : Nat) : State :=
  s.keyShares pg k (List.replicate 64 0#8) (List.replicate 64 0#8)

/-- Zeroise a slot (R320, R321): both shares and the attributes go, `gen` counts, and jobs on it end with KEY_ZEROISED, a
suspended one with its context; an inline job ends so at its JOB_COMPLETE. -/
def State.zeroSlot (s : State) (pg k : Nat) : State :=
  let s := (s.wipeKey pg k).set Reg.KY_attr (kix pg k) 0
  let s := (s.put Reg.KY_valid (kix pg k) false).inc Reg.KY_gen (kix pg k)
  let s := s.setJobs (s.jobs.map (fun j => if j.inlineOn pg k then { j with zeroed := true } else j))
  forEach (s.jobs.filter (fun j => j.onSlot pg k)) (fun j t => t.jobAbort j 0x44) s

/-- Zeroise every slot of a page (R320). -/
def State.zeroPage (s : State) (pg : Nat) : State := forEach (List.range 64) (fun k t => t.zeroSlot pg k) s

/-- The pages whose owner is `g`. -/
def State.pagesOf (s : State) (g : Nat) : List Nat := s.having Reg.CPH_PAGE_OWNER_owner g

/-- Zeroise the valid slots of every page an owner holds; the pages stay owned (Table CP-4). -/
def State.zeroOwner (s : State) (g : Nat) : State :=
  forEach (s.pagesOf g) (fun pg t => t.zeroPage pg) s

/-- Zeroise the mask generators and the DRBG, which is no longer instantiated (Table CP-4). -/
def State.zeroRng (s : State) : State :=
  let s := (s.wr baseDrbg (List.replicate 48 0#8)).wr (baseMaskGen 0) (List.replicate 2048 0#8)
  (s.set Reg.RNG_req 0 0).put Reg.CPH_RNG_STATUS_ready 0 false

/-- Zeroise every slot that holds a key, every lane, the mask generators and the DRBG (WHITEOUT, Table CP-4); `gen` of an
empty slot is seen by no one before the reset that follows. No job reports: the lanes stop. -/
def State.zeroAll (s : State) : State :=
  ((forEach (s.having Reg.KY_valid 1) (fun i t =>
    let t := (t.wipeKey (i / 64) (i % 64)).set Reg.KY_attr i 0
    (t.put Reg.KY_valid i false).inc Reg.KY_gen i) s).setJobs []).zeroRng

/-- The DRBG takes in entropy, which is free, and counts its requests from zero (R311, R312; log entry 1). -/
def State.drbgEntropy (s : State) : State :=
  let e := s.freshBytes 48
  (e.2.wr baseDrbg (drbgReseed (s.rd baseDrbg 48) e.1)).set Reg.RNG_req 0 0

/-- Zeroise the link key of the twin (R453). -/
def State.zeroLink (s : State) : State := (s.wr baseLink (List.replicate 32 0#8)).put Reg.TWN_STATUS_key_ok 0 false

/-! ## Key material of a page, wrapped (Table FN-10) -/

/-- Slot `k` of a page record: attribute word, blob length, key wrapped under `kek`. -/
def State.slotRecord (s : State) (pg k : Nat) (kek : List Byte) : List Byte :=
  let v := s.slotValid pg k
  let blob := if v then kwWrap kek (s.slotKey pg k) else []
  padTo 96 (leBytes 4 (s.slotAttr pg k + 256 * b2n v + 65536 * s.get Reg.KY_gen (kix pg k)) ++
    leBytes 4 blob.length ++ blob)

/-- A page record (Table FN-10). -/
def State.pageRecord (s : State) (pg : Nat) (kek : List Byte) : List Byte :=
  padTo 64 (leBytes 2 pg ++ leBytes 1 (s.get Reg.CPH_PAGE_OWNER_fp_access pg)) ++
  (List.range 64).flatMap (fun k => s.slotRecord pg k kek)

/-- The key of the twin link, under which mirrored pages are wrapped (Table TW-4). -/
def State.linkKey (s : State) : List Byte := s.rd baseLink 32

/-- A page is mirrored (R457). -/
def State.pageMirrored (s : State) (pg : Nat) : Bool :=
  s.healthy && bit (s.get Reg.TWN_PMASK_mir (pg / 32)) (pg % 32)

/-- A page that is not waited for, in SYNCING and RESYNC (R470). -/
def State.pageSyncs (s : State) (pg : Nat) : Bool := s.syncing && bit (s.get Reg.TWN_PMASK_mir (pg / 32)) (pg % 32)


/-- A key or owner event of a mirrored page is mirrored; the interface stays busy until its acknowledgement
(R319, R459). -/
def State.mirrorPage (s : State) (pg inst : Nat) : State :=
  if s.pageMirrored pg then
    (s.put Reg.CPH_KEY_STATUS_busy inst true).twinAwait (.mirror [.page pg (s.pageRecord pg s.linkKey)]) (.key inst)
  else if s.pageSyncs pg then s.twinSend (.mirror [.page pg (s.pageRecord pg s.linkKey)])
  else s

/-! ## SA records (Table CP-8) -/

/-- Replace an SA record: running inline jobs finish under the old one (R331), and what OFL held for it ends. -/
def State.saPut (s : State) (i : Nat) (r : List Byte) : State :=
  let s := ((s.wr (baseSA + 128 * i) r).put Reg.OFX_near i false).put Reg.OFX_exh i false
  { s with
    tls := SM.del s.tls i
    jobs := s.jobs.map (fun j => if j.kind = 2 ∧ j.tag = i then { j with was := true } else j) }

def saSlot (r : List Byte) : Nat := bits (byteAt r 2) 0 6
def saMode (r : List Byte) : Nat := bits (byteAt r 3) 0 3
def saIngress (r : List Byte) : Bool := bit (byteAt r 3) 4
def saProto (r : List Byte) : Nat := byteAt r 4
def saTag (r : List Byte) : Nat := bits (byteAt r 5) 0 4 + 1
def saSalt (r : List Byte) : List Byte := slice r 8 12

/-- A record that SA_WRITE refuses with 0x2: a mode or protocol that Table CP-8 does not list, a tag below four
bytes where the mode has one (DEDUCED, log entry 11). -/
def saBad (r : List Byte) : Bool :=
  decide (3 < saMode r) || decide (saProto r = 0 ∨ 4 < saProto r) || (decide (saMode r < 2) && decide (saTag r < 4))

/-- The writer owns the page a record names: a PF, or firmware acting for a PF that does (R331). -/
def State.saMay (s : State) (w : Who) (r : List Byte) : Bool :=
  let g := s.pageOwner (saPage r)
  match w with
  | .pf h => pageInPf h g
  | .fw _ => pageInPf 0 g || pageInPf 1 g
  | _ => false

/-! ## Lanes -/

/-- The lane is in a pool, serves and is free (R308, R326). -/
def State.laneIdle (s : State) (look : Bool) (l : Nat) : Bool :=
  bit (s.get Reg.CPH_LANE_CFG_lookaside 0) l == look && !bit (s.get Reg.CPH_LANE_STATUS_failed 0) l &&
  !bit (s.get Reg.PWR_GATE_STATUS_lanes 0) l &&
  s.jobs.all (fun j => j.lane != l + 1)

/-- The lowest idle lane of a pool. -/
def State.idleLane (s : State) (look : Bool) : Option Nat := (List.range 32).find? (fun l => s.laneIdle look l)

/-- The job that runs in a lane. -/
def State.laneJob (s : State) (l : Nat) : Option Job := s.jobs.find? (fun j => j.lane == l + 1)

/-- A lane leaves service; its job completes once with LANE_FAULT (R326). -/
def State.laneFail (s : State) (l : Nat) : State :=
  let s := s.set Reg.CPH_LANE_STATUS_failed 0 (s.get Reg.CPH_LANE_STATUS_failed 0 ||| 2 ^ l)
  match s.laneJob l with
  | some j => if j.kind = 2 then s.setJobs (s.jobs.filter (fun x => x != j)) else s.jobAbort j 0x43
  | none => s

/-- Start, or resume, a job in a lane: its key is fetched, and the lane takes the state the job goes on from (R310, R321,
R328). -/
def State.jobRun (s : State) (j : Job) (l : Nat) : State :=
  let k := s.fetchKey j.page j.slot
  let v := k.2.split3 (if j.sus = 0 then j.next 0 [] else j.lstate.value)
  v.2.setJobs (s.jobs.map (fun x => if x = j then
    { j with lane := l + 1, sus := 0, shares := k.1, lstate := v.1, start := if j.sus = 0 then s.clk else j.start }
    else x))

/-- Suspend a running job at its next block boundary into its page's context: the position it had reached, from which the
source and output positions and the lengths that remain follow, and the counter, tweak or accumulator; the key leaves the
lane (R327). A GHASH or CMAC accumulator is of data the model sees at the job's end only: a free value (log entry 1). -/
def State.jobSuspend (s : State) (j : Job) : State :=
  let n := s.get Reg.CPX_sus 0 + 1
  let (p, t) := s.jobStop j
  let a := t.freshBytes 16
  let v := a.2.split3 (j.next p a.1)
  let s := ((v.2.set Reg.CPX_sus 0 n).inc Reg.CPH_SUSP_count 0).pmu 12 3 1
  s.setJobs (s.jobs.map (fun x => if x = j then
    { j with lane := 0, sus := n, was := true, pos := p, shares := {}, lstate := v.1 } else x))

/-- Suspended jobs hold a page's contexts, of which it has two (R327). -/
def State.ctxFree (s : State) (pg : Nat) : Bool := decide ((s.jobs.filter (fun j => j.sus != 0 && j.page == pg)).length < 2)

/-- The share of an owner: weight and lanes at once; 0x2000 is the thread class. -/
def State.cphShare (s : State) (g : Nat) : Nat × Nat :=
  if g = 0x2000 then (s.get Reg.CPH_FP_SHARE_weight 0, s.get Reg.CPH_FP_SHARE_max_lanes 0)
  else (s.get Reg.CPH_FN_SHARE_weight g, s.get Reg.CPH_FN_SHARE_max_lanes g)

/-- An owner holds fewer lanes than its limit. -/
def State.lanesLeft (s : State) (g : Nat) : Bool :=
  decide ((s.jobs.filter (fun j => j.lane != 0 && j.kind != 2 && j.owner == g)).length < (s.cphShare g).2)

/-- The victim of an URGENT job of an owner: of the running jobs that are not URGENT and whose page has a free context,
the one that has run longest; of its own jobs only, where the owner holds its `max_lanes` (R327, R330). -/
def State.victim (s : State) (g : Nat) : Option Job :=
  (s.jobs.filter (fun j => j.lane != 0 && !j.urgent && j.kind != 2 && s.ctxFree j.page && (s.lanesLeft g || j.owner == g))).foldl
    (fun a j => match a with | none => some j | some b => if j.start < b.start then some j else a) none

/-- The job of an owner that starts next: the oldest that has not started. -/
def State.nextJob (s : State) (g : Nat) : Option Job :=
  s.jobs.find? (fun j => j.kind != 2 && j.owner == g && j.lane == 0 && j.sus == 0)

/-- The owner after `g` in a rotation, among those given. -/
def rotNext (l : List Nat) (g : Nat) : Nat :=
  let up := l.filter (fun x => decide (g < x))
  (if up.isEmpty then l else up).foldl min (2 ^ 20)

/-- The owner at, or after, `g` in a rotation. -/
def rotAt (l : List Nat) (g : Nat) : Nat := if l.contains g then g else rotNext l g

/-- Deficits are held with this offset, so that work charged ahead of its turn leaves a debt (R330). -/
def cphZero : Nat := 2 ^ 31

/-- Deficit round robin over owners with queued jobs (R330): the pointer stays while the deficit covers the job. -/
def cphDwrr (owners : List Nat) : Nat → Nat → State → Option Job × State
  | 0, _, s => (none, s)
  | n + 1, g, s =>
    match s.nextJob g with
    | none => (none, s)
    | some j =>
      if j.len + j.aad + cphZero ≤ s.get Reg.CPX_def g then (some j, s.set Reg.CPX_ptr 0 g)
      else cphDwrr owners n (rotNext owners g)
        (s.set Reg.CPX_def g (s.get Reg.CPX_def g + 4096 * max 1 (s.cphShare g).1))

/-- The bytes of a job are charged when it starts (R330). -/
def State.cphCharge (s : State) (j : Job) : State :=
  s.set Reg.CPX_def j.owner (s.get Reg.CPX_def j.owner - (j.len + j.aad))

/-- Owners without queued jobs build up no credit beyond one round (R330). -/
def State.cphIdle (s : State) : State :=
  forEach ((s.instances Reg.CPX_def).filter (fun g => (s.nextJob g).isNone)) (fun g t =>
    t.set Reg.CPX_def g (min (t.get Reg.CPX_def g) cphZero)) s

/-- The reads of a job of an entry: its AAD and data, and the tag it checks (R322, R323). -/
def State.jobReads (s : State) (j : Job) : State :=
  match s.entAt j.q j.idx with
  | none => s
  | some e =>
    let g := s.qOwner j.q
    let s := if weIndirect e.bytes then
        forEach e.frags (fun f t => t.hostRead g f.1 f.2.1 f.2.2.1 f.2.2.2 (.entry j.q j.idx)) s
      else s.hostRead g j.src (j.aad + j.len) (weRo e.bytes) (weNs e.bytes) (.entry j.q j.idx)
    if (j.op == coDecrypt && j.mode == cmGcm) || j.op == coMacVerify then s.hostRead g j.tag j.tagLen false false (.entry j.q j.idx) else s

/-- Take a job out of the lanes and queues. -/
def State.jobDrop (s : State) (j : Job) : State := s.setJobs (s.jobs.filter (fun x => x != j))

/-- The job may use its page (R315): the owner's own entry, or a thread while `fp_access` is 1. -/
def State.jobMay (s : State) (j : Job) : Bool :=
  if j.kind = 0 then s.pageOwner j.page == j.owner else s.flag Reg.CPH_PAGE_OWNER_fp_access j.page

/-- Start a job in a lane, or complete it when its page or its key does not serve (R315, R321, R322). -/
def State.jobBegin (s : State) (j : Job) (l : Nat) : State :=
  let s := (s.pmu 12 1 1).cphCharge j
  if !s.jobMay j then (s.jobDrop j).jobReport { j with lane := l + 1 } 0x22 0
  else if !s.slotServes j.page j.slot j.op j.mode then (s.jobDrop j).jobReport { j with lane := l + 1 } 0x41 0
  else
    let s := (s.jobRun j l).pmu 12 4 ((j.aad + j.len) / 64)
    if j.kind = 0 then s.jobReads j else s

end Sys2Proof.Machine
end

