-- ==== Sys2Proof/Machine/Cipher.lean ====
section
/-! DEFINITION. Sys2Proof/Machine/Cipher.lean: the commands of CPH: entries, job starts, the key interfaces, pages and
the SA store (chapter "Masked Cipher Lanes and User Pages"). The end of a job and inline jobs are in Inline.lean. -/

namespace Sys2Proof.Machine

/-- `CPH_LANE_STATUS.refused`. -/
def State.cphRefuse (s : State) : State := s.put Reg.CPH_LANE_STATUS_refused 0 true

def execLaneCfgWrite (who : Who) (val : Nat) (s : State) : Res :=
  if !s.mayWrite who then .next s
  else if s.dev == dsIdle then .next (s.set Reg.CPH_LANE_CFG_lookaside 0 val)
  else .next s.cphRefuse

/-! ## Entries (R322, R323, R329) -/

/-- The job an entry asks for; URGENT is honoured only where the function's share allows it (R329). -/
def State.cphJob (s : State) (q idx : Nat) (e : List Byte) : Job :=
  let g := s.qOwner q
  { kind := 0, owner := g, q := q, idx := idx, op := weOpcode e, mode := cpMode e, page := cpPage e, slot := cpSlot e,
    urgent := cpUrgent e && s.flag Reg.CPH_FN_SHARE_urgent_en g, src := weAddr e, dst := cpDst e, tag := cpTag e,
    tagLen := if cpTag e = 0 then 0 else cpTagLen e + 1, aad := cpAad e, len := cpLen e, du := cpDu e, iv := cpIv e }

/-- Hand an accepted entry of an operation to CPH as a look-aside job. -/
def State.cphQueue (s : State) (q idx op : Nat) : State :=
  match s.entAt q idx with
  | none => s
  | some e =>
    if s.entGo q idx && s.qClass q == qcCph && weOpcode e.bytes == op then
      (s.markWay q idx).addJob (s.cphJob q idx e.bytes)
    else s

def execEncrypt (q idx : Nat) (s : State) : Res := .next (s.cphQueue q idx coEncrypt)
def execDecrypt (q idx : Nat) (s : State) : Res := .next (s.cphQueue q idx coDecrypt)
def execMacGen (q idx : Nat) (s : State) : Res := .next (s.cphQueue q idx coMacGen)
def execMacVerify (q idx : Nat) (s : State) : Res := .next (s.cphQueue q idx coMacVerify)

/-! ## Starts, suspensions and resumptions (R327 to R330) -/

/-- The oldest URGENT job that waits and that an idle lane or a victim can serve (R327). -/
def State.urgentJob (s : State) : Option Job :=
  s.jobs.find? (fun j => j.urgent && j.kind != 2 && j.lane == 0 && j.sus == 0 &&
    ((s.lanesLeft j.owner && (s.idleLane true).isSome) || (s.victim j.owner).isSome))

/-- The job suspended first of those whose owner may hold another lane. -/
def State.suspendedJob (s : State) : Option Job :=
  (s.jobs.filter (fun j => j.sus != 0 && s.lanesLeft j.owner)).foldl
    (fun a j => match a with | none => some j | some b => if j.sus < b.sus then some j else a) none

/-- The owners with a queued job that may hold another lane. -/
def State.cphOwners (s : State) : List Nat :=
  ((s.jobs.filter (fun j => j.kind != 2 && j.lane == 0 && j.sus == 0 && s.lanesLeft j.owner)).map (fun j => j.owner)).eraseDups

/-- Visits that the round robin may need: the debt and length of any job, in quanta, for each owner. -/
def cphVisits (owners : List Nat) : Nat := owners.length * 16384

/-- A lane without URGENT work resumes a suspended job, or starts the next by shares. -/
def State.jobNormal (s : State) (l : Nat) : State :=
  match s.suspendedJob with
  | some j => s.jobRun j l
  | none =>
    let os := s.cphOwners
    match cphDwrr os (cphVisits os) (rotAt os (s.get Reg.CPX_ptr 0)) s.cphIdle with
    | (some j, t) => t.jobBegin j l
    | (none, t) => t

/-- An URGENT job takes the lane of its victim (R327). -/
def State.jobPreempt (s : State) (j : Job) : State :=
  match s.victim j.owner with
  | some v => (s.jobSuspend v).jobBegin j (v.lane - 1)
  | none => s

/-- An URGENT job takes an idle lane, or the lane of a victim (R327); without one, it waits. -/
def execJobStart (s : State) : Res :=
  if s.dev == dsWhiteout then .next s
  else
    match s.urgentJob, s.idleLane true with
    | some j, some l => .next (if s.lanesLeft j.owner then s.jobBegin j l else s.jobPreempt j)
    | some j, none => .next (s.jobPreempt j)
    | none, some l => .next (s.jobNormal l)
    | none, none => .next s

/-! ## Key interfaces (R314 to R320) -/

def ksDone : Nat := 0
def ksPage : Nat := 1
def ksValid : Nat := 2
def ksAttr : Nat := 3
def ksUnwrap : Nat := 4
def ksInst : Nat := 5

/-- The stage of an instance (Table CP-3). -/
def State.keyStage (s : State) (i : Nat) : List Byte := s.area Reg.CPH_KEY_STAGE_byte (128 * i) 128

/-- A key command of an accessor at its own instance, on the page its `sel` names, while the interface is not busy;
it answers with the status, and the state after when it is done. -/
def State.keyCmd (s : State) (w : Who) (f : Nat → Nat → List Byte → State → Nat × State) : State :=
  match s.keyInst w with
  | none => s
  | some i =>
    if !s.busOpen w || s.flag Reg.CPH_KEY_STATUS_busy i then s
    else
      let pg := s.get Reg.CPH_KEY_SEL_sel i
      if !s.pageReach w pg then s.set Reg.CPH_KEY_STATUS_status i ksPage
      else
        let r := f i pg (s.keyStage i) s
        let t := r.2.set Reg.CPH_KEY_STATUS_status i r.1
        if r.1 = ksDone then t.mirrorPage pg i else t

/-- The attribute byte of a stage; bit 7 is reserved. -/
def stageAttr (st : List Byte) : Nat := byteAt st 1 % 128

/-- A load's checks that both forms share (R316, R319). -/
def State.loadBad (s : State) (pg : Nat) (st : List Byte) : Option Nat :=
  if s.slotValid pg (byteAt st 0 % 64) then some ksValid else if attrBad (stageAttr st) then some ksAttr else none

/-- LOAD_WRAPPED of a stage into a page (R317). -/
def State.loadWrapped (s : State) (pg : Nat) (st : List Byte) : Nat × State :=
  match s.loadBad pg st with
  | some e => (e, s)
  | none =>
    let k := byteAt st 2 % 64
    let n := byteAt st 3
    if !(s.slotValid pg k && bit (s.slotAttr pg k) 5) || n != keyBytes (stageAttr st) + 8 then (ksUnwrap, s)
    else
      match kwUnwrap (s.slotKey pg k) (slice st 8 n) with
      | none => (ksUnwrap, s)
      | some key => (ksDone, s.loadKey pg (byteAt st 0 % 64) (stageAttr st) key)

/-- LOAD_CLEAR of a stage into a page (R318). -/
def State.loadClear (s : State) (i pg : Nat) (st : List Byte) : Nat × State :=
  if i ≠ 2 ∧ i ≠ 3 then (ksInst, s)
  else
    match s.loadBad pg st with
    | some e => (e, s)
    | none => (ksDone, s.loadKey pg (byteAt st 0 % 64) (stageAttr st) (slice st 8 (keyBytes (stageAttr st))))

def execLoadWrapped (who : Who) (s : State) : Res := .next (s.keyCmd who (fun _ pg st t => t.loadWrapped pg st))

def execLoadClear (who : Who) (s : State) : Res := .next (s.keyCmd who (fun i pg st t => t.loadClear i pg st))

def execClearSlot (who : Who) (slot : Nat) (s : State) : Res :=
  .next (s.keyCmd who (fun _ pg _ t => (ksDone, t.zeroSlot pg slot)))

def execZeroisePage (who : Who) (s : State) : Res := .next (s.keyCmd who (fun _ pg _ t => (ksDone, t.zeroPage pg)))

/-- An owner value of R314. -/
def ownerValue (g : Nat) : Bool := decide (g < 4098) || isTenant g || g == 0x1FFF

/-- The accessor may change a page's owner from `old` to `new` (R314). -/
def pageMay (w : Who) (old new : Nat) : Bool :=
  match w with
  | .pf h =>
    if old = new then pageInPf h old else if old = 0x1FFF then pageInPf h new else new == 0x1FFF && pageInPf h old
  | .fw _ => true
  | _ => false

/-- The fields of a write to `CPH_PAGE_OWNER`; a release zeroises the page first (R314). In twin mode the change stays
busy until the partner acknowledges it (R319). -/
def State.pageWrite (s : State) (pg val : Nat) : State :=
  let new := bits val 0 13
  let old := s.pageOwner pg
  let chg := decide (new ≠ old) || s.flag Reg.CPH_PAGE_OWNER_fp_access pg != bit val 31
  let s := if new = 0x1FFF ∧ old ≠ new then s.zeroPage pg else s
  let s := (s.set Reg.CPH_PAGE_OWNER_owner pg new).put Reg.CPH_PAGE_OWNER_fp_access pg (bit val 31)
  if chg && s.pageMirrored pg then
    (s.put Reg.CPH_PAGE_OWNER_busy pg true).twinAwait (.mirror [.page pg (s.pageRecord pg s.linkKey)]) (.owner pg)
  else if chg && s.pageSyncs pg then s.twinSend (.mirror [.page pg (s.pageRecord pg s.linkKey)])
  else s

def execPageOwnerWrite (who : Who) (pg val : Nat) (s : State) : Res :=
  if !s.mayWrite who then .next s
  else if !ownerValue (bits val 0 13) || !pageMay who (s.pageOwner pg) (bits val 0 13) then .next s.cphRefuse
  else .next (s.pageWrite pg val)

/-! ## The SA store (R331) -/

def State.saStatus (s : State) (r : Nat) : State := s.set Reg.CPH_SA_STATUS_result 0 r

/-- The writer may replace a record: it owns the page the present record names, where that record is valid. -/
def State.saOver (s : State) (w : Who) (i : Nat) : Bool := !saValid (s.saRec i) || s.saMay w (s.saRec i)

/-- An SA command is in progress until the next tick (DESIGN CHOICE, log entry 9); one written meanwhile is ignored with
result 0x6. -/
def State.saCmd (s : State) (w : Who) (f : State → State) : State :=
  if !s.mayWrite w then s
  else if s.flag Reg.CPH_SA_STATUS_busy 0 then s.saStatus 0x6
  else f (s.put Reg.CPH_SA_STATUS_busy 0 true)

def execSaWrite (who : Who) (index : Nat) (s : State) : Res :=
  let r := s.area Reg.CPH_SA_STAGE_byte 0 128
  .next (s.saCmd who (fun t =>
    if !t.saMay who r || !t.saOver who index then t.saStatus 0x5
    else if saBad r then t.saStatus 0x2
    else (t.saPut index r).saStatus 0))

def execSaInvalidate (who : Who) (index : Nat) (s : State) : Res :=
  let r := s.saRec index
  .next (s.saCmd who (fun t =>
    if !t.saMay who r then t.saStatus 0x5
    else (t.saPut index (splice r 3 [BitVec.ofNat 8 (setBits (byteAt r 3) 3 1 0)])).saStatus 0))

def execSaRead (who : Who) (index : Nat) (s : State) : Res :=
  let r := s.saRec index
  .next (s.saCmd who (fun t =>
    if !t.saMay who r then t.saStatus 0x5
    else (t.putArea Reg.CPH_SA_RESULT_byte 0 (if saProto r = 3 then splice r 56 (List.replicate 48 0#8) else r)).saStatus 0))

/-! ## Randomness (R311, R312) -/

/-- One mask generator is reseeded by one generate request (R311). -/
def State.maskSeed (s : State) (g : Nat) : State :=
  let r := drbgGenerate (s.rd baseDrbg 48)
  ((s.wr (baseMaskGen g) r.1).wr baseDrbg r.2).inc Reg.RNG_req 0

/-- The 64 mask generators are reseeded; the DRBG takes new entropy after 65,536 requests (R311). -/
def execMaskReseed (s : State) : Res :=
  if s.flag Reg.CPH_RNG_STATUS_ready 0 then
    let t := forEach (List.range 64) (fun g t => t.maskSeed g) s
    .next (if 65536 ≤ t.get Reg.RNG_req 0 then t.drbgEntropy else t)
  else .next s

end Sys2Proof.Machine
end

