-- ==== Sys2Proof/Machine/TableOps.lean ====
section
/-! DEFINITION. Sys2Proof/Machine/TableOps.lean: the flow table, the LPM TCAMs, the L2 tables and the table event queue
(chapter "Forwarding Tables, Moves and Learning"). -/

namespace Sys2Proof.Machine

/-- A list turned left, where the manual leaves the order open (log entry 15). -/
def turn {α : Type} (k : Nat) (l : List α) : List α := l.drop (k % l.length) ++ l.take (k % l.length)

/-! ## Table events (R214) -/

/-- Append a record of Table FT-8, or count it as lost. -/
def State.tblEvent (s : State) (typ pipe index port : Nat) (key : List Byte) : State :=
  if 4096 ≤ s.tblEvq.length then s.inc Reg.TBL_EVQ_LOST_lost 0
  else
    let rec_ := padTo 64 (leBytes 1 typ ++ leBytes 1 pipe ++ leBytes 4 index ++ leBytes 6 s.now ++ leBytes 4 port ++ key)
    { s with tblEvq := s.tblEvq ++ [rec_] }

/-! ## The flow table (Table FT-2, R193 to R198) -/

/-- `h_w` of a 40-byte key (R193). -/
def State.flowHash (s : State) (w : Nat) (key : List Byte) : Nat :=
  crc32c (s.get Reg.TBL_FLOW_SEED_seed w) key % 2 ^ 24

/-- The slot of way `w` that may hold a key, as an entry index. -/
def State.flowIx (s : State) (w : Nat) (key : List Byte) : Nat := 2 ^ 24 * w + s.flowHash w key

def State.flowRec (s : State) (i : Nat) : List Byte := leBytes 64 (s.get Reg.FLX_ent i)
def feValid (r : List Byte) : Bool := bit (byteAt r 56) 0
def feStatic (r : List Byte) : Bool := bit (byteAt r 56) 1
def feHit (r : List Byte) : Bool := bit (byteAt r 56) 2
def feKey (r : List Byte) : List Byte := slice r 0 40
def feData (r : List Byte) : List Byte := slice r 40 16

/-- An entry of a key, its action data and its flags. -/
def feMake (key adata : List Byte) (static hit : Bool) : List Byte :=
  padTo 64 (padTo 40 key ++ padTo 16 adata ++ leBytes 1 (1 + 2 * b2n static + 4 * b2n hit))

/-- Store an entry, or zeros for none; `TBL_FLOW_COUNT` counts the valid ones. -/
def State.putFlow (s : State) (i : Nat) (r : List Byte) : State :=
  let n := s.get Reg.TBL_FLOW_COUNT_count 0 + b2n (feValid r) - b2n (feValid (s.flowRec i))
  (s.set Reg.FLX_ent i (leNat r)).set Reg.TBL_FLOW_COUNT_count 0 n

/-- Even parity of bytes. -/
def parity (bs : List Byte) : Nat := bs.foldl (fun a b => (a + ((List.range 8).filter (fun k => bit b.toNat k)).length) % 2) 0

/-- The entry as it is read, with its parity bits (Table FT-2). -/
def feRead (r : List Byte) : List Byte :=
  slice r 0 63 ++ leBytes 1 (((List.range 7).map (fun i => parity (slice r (8 * i) 8) * 2 ^ i)).sum + 128 * parity (slice r 56 7))

/-- The ways in the order a lookup reads them (R194). -/
def State.flowWays (s : State) (key : List Byte) : List Nat :=
  let h := s.get Reg.FLX_hint (s.flowHash 0 key)
  h :: (List.range 4).filter (fun w => w != h)

/-- The slot of way `w` holds the key. -/
def State.flowHas (s : State) (key : List Byte) (w : Nat) : Bool :=
  let r := s.flowRec (s.flowIx w key)
  feValid r && feKey r == key

/-- The entry that holds a key. -/
def State.flowFind (s : State) (key : List Byte) : Option Nat :=
  ((List.range 4).find? (s.flowHas key)).map (fun w => s.flowIx w key)

/-- What a lookup returns: its status of Table NI-14, result word, action data and entry index, and the entries it read that
failed parity. -/
structure Look where
  status : Nat
  word : Nat := 0
  adata : List Byte := []
  idx : Nat := 0
  bads : List Nat := []

/-- A flow lookup (R192, R194): reads beyond the first are counted, and a hit sets `hit` (R198). `bad`: the ways whose entry
fails parity when it is read; each is treated as a miss (R210, R211), and its invalidation is the caller's. -/
def State.flowLookup (s : State) (key : List Byte) (bad : Nat) : Look × State :=
  let ws := s.flowWays key
  let good := fun (w : Nat) => s.flowHas key w && !bit bad w
  let reads := min 4 ((ws.takeWhile (fun w => !good w)).length + 1)
  let bads := ((ws.take reads).filter (bit bad)).map (fun w => s.flowIx w key)
  let s := ((s.add Reg.TBL_FLOW_XRD_count 0 (reads - 1)).pmu 9 1 1).pmu 9 2 (reads - 1)
  match ws.find? good with
  | none =>
    ({ status := if bads.isEmpty then 1 else 4, word := (if bads.isEmpty then 0 else 2) + reads * 2 ^ 28,
       adata := padTo 16 [], idx := bads.headD 0, bads := bads }, s)
  | some w =>
    let i := s.flowIx w key
    let r := s.flowRec i
    ({ status := 0, word := 1 + 4 * i + reads * 2 ^ 28 + 2 ^ 31 * b2n (feStatic r), adata := feData r, idx := i, bads := bads },
     s.putFlow i (feMake (feKey r) (feData r) (feStatic r) true))

/-- The four slots a key may lie in. -/
def State.flowSlots (s : State) (key : List Byte) : List Nat := (List.range 4).map (fun w => s.flowIx w key)

def State.flowFree (s : State) (i : Nat) : Bool := !feValid (s.flowRec i)

/-- One step of the search for a chain (R196): chains, their last slot first, are lengthened by one displacement; the
first that reaches a free slot is the result. -/
def State.chainStep (s : State) (k : Nat) : List (List Nat) → List Nat → List (List Nat) →
    Option (List Nat) × List (List Nat) × List Nat
  | [], seen, acc => (none, acc, seen)
  | p :: ps, seen, acc =>
    let i := p.headD 0
    let js := (turn k (s.flowSlots (feKey (s.flowRec i)))).filter (fun j => j / 2 ^ 24 != i / 2 ^ 24 && !seen.contains j)
    match js.find? s.flowFree with
    | some j => (some (j :: p), [], seen)
    | none => s.chainStep k ps (js ++ seen) (acc ++ js.map (fun j => j :: p))

/-- Search chains of up to `n` displacements. -/
def State.chainSearch (s : State) (k : Nat) : Nat → List (List Nat) → List Nat → Option (List Nat)
  | 0, _, _ => none
  | n + 1, fr, seen =>
    match s.chainStep k fr seen [] with
    | (some c, _, _) => some c
    | (none, fr, seen) => if fr.isEmpty then none else s.chainSearch k n fr seen

/-- A chain for a key: a free slot of its own, or at most 128 displacements that end at a free slot (R196). -/
def State.chainFor (s : State) (k : Nat) (key : List Byte) : Option (List Nat) :=
  let own := turn k (s.flowSlots key)
  match own.find? s.flowFree with
  | some i => some [i]
  | none => s.chainSearch k 128 (own.map (fun i => [i])) own

/-- Place an entry and hint its way (R194). -/
def State.flowPlace (s : State) (i : Nat) (r : List Byte) : State :=
  (s.putFlow i r).set Reg.FLX_hint (s.flowHash 0 (feKey r)) (i / 2 ^ 24)

/-- Move the entries of a chain from its free end backwards, and answer the slot left free. -/
def State.flowMoves (s : State) : List Nat → Nat × State
  | [] => (0, s)
  | [i] => (i, s)
  | d :: o :: rest =>
    let t := (s.flowPlace d (s.flowRec o)).putFlow o []
    t.flowMoves (o :: rest)

/-- An insertion (R196, R197): its status. Which chain the engine finds is free where several serve (log entry 15). -/
def State.flowInsert (s : State) (key adata : List Byte) (static : Bool) : Nat × State :=
  if (s.flowFind key).isSome then (2, s)
  else
    let (k, s) := s.fresh
    match s.chainFor k key with
    | none => (3, s.inc Reg.TBL_FLOW_NOROOM_count 0)
    | some c =>
      let m := s.flowMoves c
      (0, m.2.flowPlace m.1 (feMake key adata static false))

/-- A deletion (R197): its status. -/
def State.flowDelete (s : State) (key : List Byte) : Nat × State :=
  match s.flowFind key with
  | none => (1, s)
  | some i => (0, s.putFlow i [])

/-! ## The LPM TCAM (Table FT-3, R199 to R202) -/

def lpix (p slot : Nat) : Nat := 2 ^ 17 * p + slot
/-- Register index of a region of a section: the pool is one longer than the longest length (R199). -/
def rgix (p : Nat) (v6 : Bool) (r : Nat) : Nat := 164 * p + (if v6 then 34 + r else r)
/-- Number of a section's pool. -/
def lpPool (v6 : Bool) : Nat := if v6 then 129 else 33

def State.lpRec (s : State) (p slot : Nat) : List Byte := leBytes 32 (s.get Reg.LPX_slot (lpix p slot))
def lpAddr (r : List Byte) : Nat := beAt r 0 16
def lpVrf (r : List Byte) : Nat := leAt r 16 2
def lpPlen (r : List Byte) : Nat := byteAt r 18
def lpV6 (r : List Byte) : Bool := bit (byteAt r 19) 0
def lpValid (r : List Byte) : Bool := bit (byteAt r 19) 1
def lpNh (r : List Byte) : Nat := leAt r 20 3

/-- A record as a slot holds it. -/
def lpMake (r : List Byte) (valid : Bool) (nh : Nat) : List Byte :=
  slice r 0 19 ++ leBytes 1 (b2n (lpV6 r) + 2 * b2n valid) ++ leBytes 3 nh ++ padTo 9 []

/-- An invalid record (R200). -/
def lpBad (r : List Byte) : Bool :=
  decide ((if lpV6 r then 128 else 32) < lpPlen r) || lpAddr r % 2 ^ (128 - lpPlen r) != 0

/-- The prefix of a valid entry holds an address of a VRF. -/
def lpMatch (r : List Byte) (vrf : Nat) (v6 : Bool) (addr : Nat) : Bool :=
  lpValid r && lpVrf r == vrf && lpV6 r == v6 && lpAddr r / 2 ^ (128 - lpPlen r) == addr / 2 ^ (128 - lpPlen r)

def State.rgStart (s : State) (p : Nat) (v6 : Bool) (r : Nat) : Nat := s.get Reg.TBL_LPM_RGN_start (rgix p v6 r)
def State.rgLen (s : State) (p : Nat) (v6 : Bool) (r : Nat) : Nat := s.get Reg.LPX_len (rgix p v6 r)
def State.rgSpares (s : State) (p : Nat) (v6 : Bool) (r : Nat) : Nat := s.get Reg.TBL_LPM_RGN_spares (rgix p v6 r)

/-- `used` shows the valid entries of a region, saturating (`TBL_LPM_RGN`). -/
def State.rgSync (s : State) (p : Nat) (v6 : Bool) (r : Nat) : State :=
  let i := rgix p v6 r
  s.set Reg.TBL_LPM_RGN_used i (min 16383 (s.get Reg.LPX_len i - s.get Reg.LPX_bad i))

/-- The valid entries of a section. -/
def State.lpUsed (s : State) (p : Nat) (v6 : Bool) (f : Nat → Nat) : State :=
  let fl := if v6 then Reg.TBL_LPM_USED_v6 else Reg.TBL_LPM_USED_v4
  s.set fl p (f (s.get fl p))

/-- A pipeline's slots that are written, in rising order. -/
def State.lpSlots (s : State) (p : Nat) : List Nat :=
  ((s.instances Reg.LPX_slot).filter (fun i => i / 2 ^ 17 == p)).map (fun i => i % 2 ^ 17)

/-- The slot that holds a prefix. -/
def State.lpFind (s : State) (p : Nat) (r : List Byte) : Option Nat :=
  (s.lpSlots p).find? (fun k =>
    let e := s.lpRec p k
    lpValid e && lpAddr e == lpAddr r && lpVrf e == lpVrf r && lpPlen e == lpPlen r && lpV6 e == lpV6 r)

/-- An LPM lookup (R192, R199): the lowest-numbered match wins; where its parity is bad the lookup misses (R211). -/
def State.lpmLookup (s : State) (p vrf : Nat) (v6 : Bool) (addr : Nat) (bad : Bool) : Look :=
  match (s.lpSlots p).find? (fun k => lpMatch (s.lpRec p k) vrf v6 addr) with
  | none => { status := 1 }
  | some k =>
    let r := s.lpRec p k
    if bad then { status := 4, word := 2, idx := k, bads := [k] }
    else { status := 0, word := 1 + 4 * lpPlen r + 2 ^ 10 * lpNh r + 2 ^ 34 * k, idx := k }

/-- The steps of a move from slot `a` to slot `b` of a pipeline (R200). -/
def moveSteps (p : Nat) (m : Nat × Nat) : List TblStep :=
  [.copy (lpix p m.1) (lpix p m.2), .validate (lpix p m.2), .invalidate (lpix p m.1)]

/-- Change a region's start. -/
def State.rgShift (s : State) (p : Nat) (v6 : Bool) (r : Nat) (f : Nat → Nat) : State :=
  s.set Reg.TBL_LPM_RGN_start (rgix p v6 r) (f (s.rgStart p v6 r))

/-- Moves with a spare of region `m`, for a new prefix of length `l` (R201). -/
def State.lpCost (s : State) (p : Nat) (v6 : Bool) (l m : Nat) : Nat :=
  ((List.range 130).filter (fun r => s.rgLen p v6 r != 0 &&
    (if l ≤ m then decide (l < r ∧ r ≤ m) else decide (m < r ∧ r < l)))).length

/-- The region whose spare is taken: the nearest on each side needs the fewest moves there, and the longer side is
taken where both need equally few (R201). -/
def State.lpPick (s : State) (p : Nat) (v6 : Bool) (l : Nat) : Option Nat :=
  let up := ((List.range (lpPool v6 + 1)).filter (fun r => decide (l ≤ r))).find? (fun r => s.rgSpares p v6 r != 0)
  let dn := ((List.range l).reverse).find? (fun r => s.rgSpares p v6 r != 0)
  match up, dn with
  | some a, some b => if s.lpCost p v6 l b < s.lpCost p v6 l a then some b else some a
  | some a, none => some a
  | none, x => x

/-- The longer side, from region `r` over `k` regions down: the moves, and the slot they leave free (R201). -/
def State.lpUp (s : State) (p : Nat) (v6 : Bool) : Nat → Nat → Nat → List (Nat × Nat) × Nat
  | 0, _, hole => ([], hole)
  | k + 1, r, hole =>
    if s.rgLen p v6 r = 0 then s.lpUp p v6 k (r - 1) hole
    else
      let last := s.rgStart p v6 r + s.rgLen p v6 r - 1
      let x := s.lpUp p v6 k (r - 1) last
      ((last, hole) :: x.1, x.2)

/-- The shorter side, from region `r` over `k` regions up. -/
def State.lpDown (s : State) (p : Nat) (v6 : Bool) : Nat → Nat → Nat → List (Nat × Nat) × Nat
  | 0, _, hole => ([], hole)
  | k + 1, r, hole =>
    if s.rgLen p v6 r = 0 then s.lpDown p v6 k (r + 1) hole
    else
      let x := s.lpDown p v6 k (r + 1) (s.rgStart p v6 r)
      ((s.rgStart p v6 r, hole) :: x.1, x.2)

/-- What an operation does in a pipeline: its status, its moves and its steps. -/
abbrev TblPlan := Nat × Nat × List TblStep

/-- LPM_INSERT of a pipeline (R201, R202). -/
def State.lpmInsert (s : State) (p : Nat) (r : List Byte) : TblPlan :=
  if lpBad r then (5, 0, [])
  else if (s.lpFind p r).isSome then (2, 0, [])
  else
    let v6 := lpV6 r
    let l := lpPlen r
    match s.lpPick p v6 l with
    | none => (3, 0, [])
    | some m =>
      let x := if l ≤ m then s.lpUp p v6 (m - l) m (s.rgStart p v6 m - 1)
        else s.lpDown p v6 (l - 1 - m) (m + 1) (s.rgStart p v6 m - s.rgSpares p v6 m)
      (0, x.1.length, x.1.flatMap (moveSteps p) ++
        [.write (lpix p x.2) (leNat (lpMake r false (lpNh r))), .validate (lpix p x.2), .regions p 0x10 x.2 r])

/-- LPM_DELETE (R202). -/
def State.lpmDelete (s : State) (p : Nat) (r : List Byte) : TblPlan :=
  if lpBad r then (5, 0, [])
  else
    match s.lpFind p r with
    | none => (1, 0, [])
    | some x =>
      let a := s.rgStart p (lpV6 r) (lpPlen r)
      (0, if x = a then 0 else 1, [.invalidate (lpix p x)] ++ (if x = a then [] else moveSteps p (a, x)) ++ [.regions p 0x11 x r])

/-- LPM_REPLACE (R202): one step. -/
def State.lpmReplace (s : State) (p : Nat) (r : List Byte) : TblPlan :=
  if lpBad r then (5, 0, [])
  else
    match s.lpFind p r with
    | none => (1, 0, [])
    | some x => (0, 0, [.replace (lpix p x) (leNat (lpMake (s.lpRec p x) true (lpNh r)))])

/-- The region whose entries take in a slot: family and prefix length. -/
def State.lpRegion (s : State) (p slot : Nat) : Option (Bool × Nat) :=
  let inside (v6 : Bool) (r : Nat) : Bool :=
    decide (s.rgStart p v6 r ≤ slot ∧ slot < s.rgStart p v6 r + s.rgLen p v6 r)
  match (List.range 33).find? (inside false) with
  | some r => some (false, r)
  | none => ((List.range 129).find? (inside true)).map (fun r => (true, r))

/-- LPM_REWRITE of an invalidated slot with a record of its region (R212); any other record is refused. -/
def State.lpmRewrite (s : State) (p slot : Nat) (r : List Byte) : TblPlan :=
  match s.lpRegion p slot with
  | none => (5, 0, [])
  | some (v6, l) =>
    if decide (131072 ≤ slot) || lpBad r || lpValid (s.lpRec p slot) || lpV6 r != v6 || lpPlen r != l then (5, 0, [])
    else
      (0, 0, [.write (lpix p slot) (leNat (lpMake r false (lpNh r))), .validate (lpix p slot), .regions p 0x13 slot r])

/-- The region table after an insertion: the spare of region `m` has moved to the end of the new prefix's region (R201). -/
def State.rgInsert (s : State) (p : Nat) (v6 : Bool) (l : Nat) : State :=
  match s.lpPick p v6 l with
  | none => s
  | some m =>
    let s := if l ≤ m then forEach ((List.range (m + 1)).filter (fun r => decide (l ≤ r))) (fun r t => t.rgShift p v6 r (fun x => x - 1)) s
      else forEach ((List.range l).filter (fun r => decide (m < r))) (fun r t => t.rgShift p v6 r (fun x => x + 1)) s
    let s := s.set Reg.TBL_LPM_RGN_spares (rgix p v6 m) (s.rgSpares p v6 m - 1)
    let s := s.set Reg.LPX_len (rgix p v6 l) (s.rgLen p v6 l + 1)
    (s.rgSync p v6 l).lpUsed p v6 (fun n => n + 1)

/-- The region table after a deletion: `start` advances, and `spares` grows by one (R202). -/
def State.rgDelete (s : State) (p : Nat) (v6 : Bool) (l : Nat) : State :=
  let s := s.rgShift p v6 l (fun y => y + 1)
  let s := s.set Reg.TBL_LPM_RGN_spares (rgix p v6 l) (s.rgSpares p v6 l + 1)
  let s := s.set Reg.LPX_len (rgix p v6 l) (s.rgLen p v6 l - 1)
  (s.rgSync p v6 l).lpUsed p v6 (fun n => n - 1)

/-- The region table after the rewrite of an invalidated slot (R212). -/
def State.rgRewrite (s : State) (p : Nat) (v6 : Bool) (l : Nat) : State :=
  let s := s.set Reg.LPX_bad (rgix p v6 l) (s.get Reg.LPX_bad (rgix p v6 l) - 1)
  (s.rgSync p v6 l).lpUsed p v6 (fun n => n + 1)

/-- A slot's contents with their `valid` bit (Table FT-3). -/
def slotAs (v : Nat) (on : Bool) : Nat := setBits v (8 * 19 + 1) 1 (b2n on)

/-- Invalidate a slot that failed parity; it stays in its region (R212). -/
def State.lpmKill (s : State) (p slot : Nat) : State :=
  if !lpValid (s.lpRec p slot) then s
  else
    let r := s.lpRec p slot
    let s := s.set Reg.LPX_slot (lpix p slot) (leNat (lpMake r false (lpNh r)))
    let i := rgix p (lpV6 r) (lpPlen r)
    ((s.inc Reg.LPX_bad i).rgSync p (lpV6 r) (lpPlen r)).lpUsed p (lpV6 r) (fun n => n - 1)

/-- A write of `v4_size`: taken only while the pipeline's LPM holds no entry, an invalidated one or one that is being inserted
among them (DEDUCED from R212, log entry 17), and every slot is then a spare of its pool (R199). -/
def State.lpmResize (s : State) (p v : Nat) : State :=
  if (List.range 164).all (fun r => s.get Reg.LPX_len (164 * p + r) == 0) && s.tblq.isEmpty && decide (v ≤ 131072) then
    let s := s.set Reg.TBL_LPM_CFG_v4_size p v
    let s := forEach (List.range 34) (fun r t =>
      ((t.set Reg.TBL_LPM_RGN_start (164 * p + r) v).set Reg.TBL_LPM_RGN_spares (164 * p + r) (if r = 33 then v else 0))) s
    forEach (List.range 130) (fun r t =>
      ((t.set Reg.TBL_LPM_RGN_start (164 * p + 34 + r) 131072).set Reg.TBL_LPM_RGN_spares (164 * p + 34 + r)
        (if r = 129 then 131072 - v else 0))) s
  else s

/-! ## The L2 table (Table FT-5, R204 to R209) -/

def l2ix (p i : Nat) : Nat := 2 ^ 18 * p + i
def State.l2Rec (s : State) (p i : Nat) : List Byte := leBytes 16 (s.get Reg.L2X_ent (l2ix p i))
def leMac (r : List Byte) : List Byte := slice r 0 6
def leBd (r : List Byte) : Nat := leAt r 6 2
def lePort (r : List Byte) : Nat := bits (leAt r 8 2) 0 11
def leLeaf (r : List Byte) : Nat := bits (leAt r 10 3) 0 18
def leValid (r : List Byte) : Bool := bit (byteAt r 13) 0
def leStatic (r : List Byte) : Bool := bit (byteAt r 13) 1
def leHit (r : List Byte) : Bool := bit (byteAt r 13) 2
def leHeld (r : List Byte) : Bool := bit (byteAt r 13) 3
def leMoves (r : List Byte) : Nat := bits (byteAt r 13) 4 2

/-- A valid entry. -/
def leMake (mac : List Byte) (bd port leaf : Nat) (static hit held : Bool) (moves : Nat) : List Byte :=
  padTo 16 (padTo 6 mac ++ leBytes 2 bd ++ leBytes 2 (port % 2 ^ 11) ++ leBytes 3 (leaf % 2 ^ 18) ++
    leBytes 1 (1 + 2 * b2n static + 4 * b2n hit + 8 * b2n held + 16 * (moves % 4)))

/-- Store an entry, or zeros for none; `TBL_L2_COUNT` counts the valid ones. -/
def State.putL2 (s : State) (p i : Nat) (r : List Byte) : State :=
  let n := s.get Reg.TBL_L2_COUNT_count p + b2n (leValid r) - b2n (leValid (s.l2Rec p i))
  (s.set Reg.L2X_ent (l2ix p i) (leNat r)).set Reg.TBL_L2_COUNT_count p n

/-- An entry with other flags, the rest kept. -/
def leFlags (r : List Byte) (hit held : Bool) (moves : Nat) : List Byte :=
  leMake (leMac r) (leBd r) (lePort r) (leLeaf r) (leStatic r) hit held moves

/-- The four entries of the set of a bridge domain and a MAC (R204). -/
def l2Set (bd : Nat) (mac : List Byte) : List Nat :=
  let k := crc32c 0xFFFFFFFF (beBytes 2 bd ++ padTo 6 mac) % 2 ^ 16
  (List.range 4).map (fun w => 4 * k + w)

/-- The entry that holds an address. -/
def State.l2Find (s : State) (p bd : Nat) (mac : List Byte) : Option Nat :=
  (l2Set bd mac).find? (fun i =>
    let r := s.l2Rec p i
    leValid r && leBd r == bd && leMac r == mac)

/-- Result word of an entry (Table FT-1). -/
def l2Word (i : Nat) (r : List Byte) : Nat :=
  1 + 4 * b2n (leStatic r) + 8 * b2n (leHeld r) + 16 * lePort r + 2 ^ 15 * leLeaf r + 2 ^ 33 * i

/-- The entries of a set that fail parity, by their ways. -/
def l2Bads (bd : Nat) (mac : List Byte) (bad : Nat) : List Nat := (l2Set bd mac).filter (fun i => bit bad (i % 4))

/-- An L2 lookup (R192, R205); it changes no entry. `bad`: the ways of the set that fail parity; each is treated as a miss
(R210, R211). -/
def State.l2Lookup (s : State) (p bd : Nat) (mac : List Byte) (bad : Nat) : Look :=
  let bads := l2Bads bd mac bad
  match (s.l2Find p bd mac).filter (fun i => !bads.contains i) with
  | none =>
    { status := if bads.isEmpty then 1 else 4, word := if bads.isEmpty then 0 else 2, idx := bads.headD 0, bads := bads }
  | some i => { status := 0, word := l2Word i (s.l2Rec p i), idx := i, bads := bads }

/-- Free entries of a set. -/
def State.l2Free (s : State) (p : Nat) (set : List Nat) : List Nat := set.filter (fun i => !leValid (s.l2Rec p i))

/-- One of several entries, where the manual says only that one is taken (log entry 15). -/
def State.oneOf (s : State) (l : List Nat) : Nat × State :=
  let r := s.fresh
  (l.getD (r.1 % l.length) 0, r.2)

/-- Write a new entry; its move window is over. -/
def State.l2New (s : State) (p i : Nat) (r : List Byte) : State := (s.putL2 p i r).set Reg.L2X_win (l2ix p i) 0

/-- A learned entry takes its leaf from `TBL_PORT_LEAF` of its port (R204). -/
def State.portLeaf (s : State) (port : Nat) : Nat := s.get Reg.TBL_PORT_LEAF_leaf (port % 2048)

/-- A learn request's insertion: a free entry of the set, or the request is dropped (R206). -/
def State.l2Insert (s : State) (p bd : Nat) (mac : List Byte) (port : Nat) : State :=
  let free := s.l2Free p (l2Set bd mac)
  if free.isEmpty then s.inc Reg.TBL_L2_LDROP_count p
  else
    let c := s.oneOf free
    (c.2.l2New p c.1 (leMake mac bd port (s.portLeaf port) false true false 0)).pmu 9 4 1

/-- A move request for an entry (R207). -/
def State.l2Move (s : State) (p i port : Nat) : State :=
  let r := s.l2Rec p i
  let k := l2ix p i
  if leStatic r then s.inc Reg.TBL_L2_SCONF_count p
  else if leHeld r then s.inc Reg.TBL_L2_HDROP_count p
  else
    let win := s.get Reg.L2X_win k
    let fresh := leMoves r == 0 || decide (1000000 ≤ s.clk - win)
    let n := if fresh then 0 else leMoves r
    if n = 3 then
      (s.putL2 p i (leFlags r (leHit r) true 3)).tblEvent 0x7 p i (lePort r) (slice r 0 8)
    else
      let s := if fresh then s.set Reg.L2X_win k s.clk else s
      ((s.putL2 p i (leMake (leMac r) (leBd r) port (s.portLeaf port) false true false (n + 1))).inc Reg.TBL_L2_MOVES_count p).pmu 9 4 1

/-- Carry out a learn request against the table as it stands (R206). -/
def State.l2Learn (s : State) (p bd : Nat) (mac : List Byte) (port : Nat) : State :=
  match s.l2Find p bd mac with
  | none => s.l2Insert p bd mac port
  | some i =>
    let r := s.l2Rec p i
    if lePort r = port then (s.putL2 p i (leFlags r true (leHeld r) (leMoves r))).pmu 9 4 1 else s.l2Move p i port

/-- The source lookup of a frame makes a learn request where R206 lists a case (R205, R206); an entry that fails parity is
treated as a miss (R211). -/
def State.l2Source (s : State) (p bd : Nat) (mac : List Byte) (loc port bad : Nat) : State :=
  let on := bit (s.get Reg.TBL_L2_LRN_lrn (5 * p + loc / 32)) (loc % 32) && !bit (byteAt mac 0) 0 && leNat mac != 0
  let ask := match (s.l2Find p bd mac).filter (fun i => !(l2Bads bd mac bad).contains i) with
    | none => true
    | some i => lePort (s.l2Rec p i) != port || !leHit (s.l2Rec p i)
  if !on || !ask then s
  else
    let q := SM.get [] s.learnq p
    if 1024 ≤ q.length then s.inc Reg.TBL_L2_LDROP_count p
    else { s with learnq := SM.put [] s.learnq p (q ++ [(bd, mac, port)]) }

/-- L2_STATIC in a pipeline (R209): its status. -/
def State.l2Static (s : State) (p : Nat) (r : List Byte) : Nat × State :=
  let mac := leMac r
  let bd := leBd r
  let e := leMake mac bd (lePort r) (leLeaf r) true true false 0
  match s.l2Find p bd mac with
  | some i => (0, s.l2New p i e)
  | none =>
    let set := l2Set bd mac
    let free := s.l2Free p set
    let dyn := set.filter (fun i => !leStatic (s.l2Rec p i))
    let cold := dyn.filter (fun i => !leHit (s.l2Rec p i))
    if !free.isEmpty then let c := s.oneOf free; (0, c.2.l2New p c.1 e)
    else if !cold.isEmpty then let c := s.oneOf cold; (0, c.2.l2New p c.1 e)
    else
      match dyn with
      | i :: _ => (0, s.l2New p i e)
      | [] => (3, s)

/-- L2_DELETE in a pipeline: its status. -/
def State.l2Delete (s : State) (p : Nat) (r : List Byte) : Nat × State :=
  match s.l2Find p (leBd r) (leMac r) with
  | none => (1, s)
  | some i => (0, s.l2New p i [])

/-- The flush in progress reaches position `stop`: it has visited every entry below in index order (R203, R209). -/
def State.flushTo (s : State) (stop : Nat) : State :=
  let at_ := s.get Reg.TBX_flush 0
  if at_ = 0 then s
  else
    let sel := s.get Reg.TBX_fsel 0
    let hit (k : Nat) : Bool :=
      let r := leBytes 16 (s.get Reg.L2X_ent k)
      decide (at_ - 1 ≤ k ∧ k < stop) && bit (s.get Reg.TBX_fpipes 0) (k / 2 ^ 18) && leValid r && !leStatic r &&
      (!bit sel 0 || leBd r == s.get Reg.TBX_fbd 0) && (!bit sel 1 || lePort r == s.get Reg.TBX_fport 0)
    (forEach ((s.instances Reg.L2X_ent).filter hit) (fun k t => t.l2New (k / 2 ^ 18) (k % 2 ^ 18) []) s).set Reg.TBX_flush 0
      (max (at_ - 1) stop + 1)

/-- The end of the L2 tables in flush positions. -/
def l2End : Nat := 8 * 2 ^ 18

/-- How far a flush has come when something else happens is free (log entry 15). -/
def State.flushSome (s : State) : State :=
  let at_ := s.get Reg.TBX_flush 0
  if at_ = 0 then s
  else
    let (n, s) := s.fresh
    s.flushTo (min l2End (at_ - 1 + n))

end Sys2Proof.Machine
end

