-- ==== Sys2Proof/Machine/PipeOps.lean ====
section
/-! DEFINITION. Sys2Proof/Machine/PipeOps.lean: what a pipeline's update list changes: classifier, selector, profiles,
key-select vectors (chapter "Pipelines: Fixed-Offset Parsing and Classification"). -/

namespace Sys2Proof.Machine

/-! ## The classifier (R178, Table PP-9) -/

def clix (p i : Nat) : Nat := 2 ^ 15 * p + i

/-- A classifier entry: value, mask and action record. -/
def State.clsRec (s : State) (p i : Nat) : List Byte := leBytes 192 (s.get Reg.CLX_ent (clix p i))
def State.clsValid (s : State) (p i : Nat) : Bool := bit (s.get Reg.CLX_ent (clix p i)) 1536
def clValue (r : List Byte) : Nat := leNat (slice r 0 80)
def clMask (r : List Byte) : Nat := leNat (slice r 80 80)
def clAction (r : List Byte) : List Byte := slice r 160 32

/-- Write an entry, which becomes valid. -/
def State.clsWrite (s : State) (p i : Nat) (r : List Byte) : State :=
  s.set Reg.CLX_ent (clix p i) (leNat (padTo 192 r) + 2 ^ 1536)

/-- Invalidate an entry; its contents stay. -/
def State.clsInval (s : State) (p i : Nat) : State :=
  s.set Reg.CLX_ent (clix p i) (s.get Reg.CLX_ent (clix p i) % 2 ^ 1536)

/-- The lowest-numbered valid entry that matches a key (R178). -/
def State.clsMatch (s : State) (p : Nat) (key : List Byte) : Option Nat :=
  let k := leNat key
  ((s.instances Reg.CLX_ent).find? (fun i =>
    i / 2 ^ 15 == p && s.clsValid p (i % 2 ^ 15) &&
    (let r := s.clsRec p (i % 2 ^ 15); k &&& clMask r == clValue r))).map (fun i => i % 2 ^ 15)

/-! ## Selector entries, profiles and vectors -/

def State.selRec (s : State) (p i : Nat) : List Byte := s.area Reg.PPL_SEL_byte (4096 * p + 16 * i) 16
def State.prfRec (s : State) (p j : Nat) : List Byte := s.area Reg.PPL_PRF_byte (16384 * p + 256 * j) 256
def State.kselRec (s : State) (p v : Nat) : List Byte := s.area Reg.PPL_KSEL_byte (8192 * p + 16 * v) 16
def State.putSel (s : State) (p i : Nat) (r : List Byte) : State := s.putArea Reg.PPL_SEL_byte (4096 * p + 16 * i) (padTo 16 r)
def State.putPrf (s : State) (p j : Nat) (r : List Byte) : State := s.putArea Reg.PPL_PRF_byte (16384 * p + 256 * j) (padTo 256 r)
def State.putKsel (s : State) (p v : Nat) (r : List Byte) : State := s.putArea Reg.PPL_KSEL_byte (8192 * p + 16 * v) (padTo 16 r)

/-- Invalidate a selector entry. -/
def State.selInval (s : State) (p i : Nat) : State :=
  let k := 4096 * p + 16 * i + 13
  s.set Reg.PPL_SEL_byte k (s.get Reg.PPL_SEL_byte k % 128)

/-! ## Bad entries (R211, R212, Table FT-6) -/

/-- The structures whose entries fail parity. -/
inductive BadEntry where
  | cls | lpm | l2 | sel | prf | ksel
deriving DecidableEq, Repr

/-- `t` of Table FT-6. -/
def BadEntry.t : BadEntry → Nat
  | .cls => 0
  | .lpm => 1
  | .l2 => 2
  | _ => 3

/-- Invalidate a bad entry of a pipeline, count it and report it to the event queue (R211); a bad profile or vector
reads as zero (R212). -/
def State.badEntry (s : State) (b : BadEntry) (p i : Nat) : State :=
  let s := s.inc Reg.TBL_SCRUB_ERR_count p
  let key := if b = .l2 then slice (s.l2Rec p (i % 2 ^ 18)) 0 8 else []
  let s := s.tblEvent (3 + b.t) p i 0 key
  match b with
  | .cls => s.clsInval p (i % 2 ^ 15)
  | .lpm => s.lpmKill p (i % 2 ^ 17)
  | .l2 => s.l2New p (i % 2 ^ 18) []
  | .sel => s.selInval p (i % 256)
  | .prf => s.putPrf p (i % 64) []
  | .ksel => s.putKsel p (i % 16) []

/-- Invalidate a bad flow entry and report it. -/
def State.badFlow (s : State) (i : Nat) : State := (s.tblEvent 2 0 (i % 2 ^ 26) 0 []).putFlow (i % 2 ^ 26) []

end Sys2Proof.Machine
end

