-- ==== Sys2Proof/Machine/FrameOps.lean ====
section
/-! DEFINITION. Sys2Proof/Machine/FrameOps.lean: frames in the cell buffer: charges (R248, R249), flow control that
follows them (R230, R236), policers (R251), the buckets of the scheduler (R263), and the ends of a frame. -/

namespace Sys2Proof.Machine

/-! ## Ports (Table PT-1) -/

/-- An external port (R12). -/
def isExt (id : Nat) : Bool := decide (id < 16) || decide (0x100 ≤ id ∧ id < 0x500)

/-- A tenant port: its link. -/
def linkOf (id : Nat) : Nat := (id - 0x100) / 64

/-- A tenant port: its channel. -/
def chanOf (id : Nat) : Nat := (id - 0x100) % 64

/-- The pipeline that receives a port's frames (R13). -/
def pipeOfPort (id : Nat) : Nat := if id < 16 then id / 2 else linkOf id / 2

/-- The external ports, in the order of port IDs. -/
def extPorts : List Nat := List.range 16 ++ (List.range 1024).map (fun k => 0x100 + k)

/-- The MAC that serves a port: network port `n`, link `16 + n`, host port `32 + h`. -/
def macOf (id : Nat) : Nat := if id < 16 then id else if id < 0x100 then 32 + id % 2 else 16 + linkOf id

/-- The index of a MAC in `PT_tx`. -/
def macIx (m : Nat) : Nat := if m < 16 then m else if m < 32 then 0x100 + 64 * (m - 16) else 0x020 + (m - 32)

/-- The MAC sends a frame. -/
def State.macBusy (s : State) (m : Nat) : Bool := s.get Reg.PT_tx (macIx m) != 0

/-- A network port exists in the lane mode in force (Table PT-2). -/
def State.netPresent (s : State) (n : Nat) : Bool :=
  let m := bits (s.get Reg.MAC_NMODE_quad 0) (3 * (n / 4)) 3
  if m = 1 ∨ m = 2 then true else if m = 3 then n % 2 == 0 else if m = 4 then n % 4 == 0 else m == 5 && n % 8 == 0

/-- The link of an external port is up, and no quarantine holds its MAC down (Table FC-2). -/
def State.portUp (s : State) (id : Nat) : Bool :=
  if id < 16 then s.netPresent id && s.flag Reg.MAC_NPORT_STATUS_link id && !s.flag Reg.FLT_porth id
  else s.flag Reg.TLK_STATUS_link (linkOf id) && !s.flag Reg.FLT_porth (16 + linkOf id)

/-- `max_len` of an external port (R232). -/
def State.maxLen (s : State) (id : Nat) : Nat :=
  if id < 16 then s.get Reg.MAC_NPORT_CFG_max_len id else s.get Reg.TLK_CFG_max_len (linkOf id)

/-! ## Counters (Tables PT-6 and PT-7); number `k` lies at offset 8·`k` -/

def cRxFrames : Nat := 0
def cRxBytes : Nat := 1
def cRxDropBuf : Nat := 2
def cRxDropPol : Nat := 3
def cRxFcs : Nat := 4
def cRxRunt : Nat := 5
def cRxOversize : Nat := 6
def cRxPause : Nat := 7
def cRxPauseIgn : Nat := 8
def cTxFrames : Nat := 9
def cTxBytes : Nat := 10
def cTxPause : Nat := 11
def cTxDrop : Nat := 12
def cTxLate : Nat := 13
def cTxTs : Nat := 14
def cPausedNs : Nat := 15
def cRxPfc : Nat := 16

def lRxFcs : Nat := 0
def lRxRunt : Nat := 1
def lRxOversize : Nat := 2
def lRxBadTag : Nat := 3
def lRxChDis : Nat := 4
def lRxCtl : Nat := 5
def lRxCtlBad : Nat := 6
def lTxCtl : Nat := 8
def lTxCtlDrop : Nat := 9
def lRxTrgDrop : Nat := 10
def lRxMacCtl : Nat := 11
def lMgmtLate : Nat := 14

/-- Count in a port's block. -/
def State.cnt (s : State) (id k n : Nat) : State := s.add Reg.MAC_CNT_cnt (32 * id + k) n

/-- Count in a tenant link's block. -/
def State.lcnt (s : State) (n k : Nat) : State := s.inc Reg.TLK_CNT_cnt (32 * n + k)

/-! ## Frames -/

def State.frame (s : State) (f : Nat) : Frame := SM.get {} s.frames f
def State.setFrame (s : State) (f : Nat) (x : Frame) : State := { s with frames := SM.put {} s.frames f x }

/-- Change a frame that is in the buffer. -/
def State.updFrame (s : State) (f : Nat) (g : Frame → Frame) : State := s.setFrame f (g (s.frame f))

/-- Put a new frame into the buffer; its number is the value of `nextFrame` before. -/
def State.newFrame (s : State) (x : Frame) : State :=
  { s with frames := SM.put {} s.frames s.nextFrame x, nextFrame := s.nextFrame + 1 }

/-- Cells of a frame of a stored length (R248). -/
def cellsOf (len : Nat) : Nat := (len + 32 + 255) / 256

/-- Cells of a port's charge above its minimum. -/
def State.overMin (s : State) (id c : Nat) : Nat := c - 4 * s.get Reg.SCH_BUF_PORT_min id

/-- Set a port's charge; what lies above its minimum is taken from the shared pool. -/
def State.setCharge (s : State) (id c : Nat) : State :=
  let old := s.overMin id (s.get Reg.SCH_BUF_PORT_charge id)
  let s := s.set Reg.SCH_BUF_STATUS_free 0 (s.get Reg.SCH_BUF_STATUS_free 0 + old - s.overMin id c)
  s.set Reg.SCH_BUF_PORT_charge id c

/-- An external port admits a frame of `n` cells (R249). -/
def State.admits (s : State) (id n : Nat) : Bool :=
  let c := s.get Reg.SCH_BUF_PORT_charge id + n
  let free := s.get Reg.SCH_BUF_STATUS_free 0
  let need := s.overMin id c
  need == 0 ||
  (decide (need - s.overMin id (c - n) ≤ free) && decide (8 * need ≤ free * 2 ^ s.get Reg.SCH_BUF_PORT_alpha id))

/-! ## Frames that a MAC sends of its own (R227, R228, R231, R236) -/

/-- The frame a MAC sends of its own leaves: a CTL frame is counted on its link and, as CHPAUSE, for each channel it names;
PAUSE and PFC are counted on their port (Tables PT-6 and PT-7). -/
def State.ownFrame (s : State) (m : Nat) (bs : List Byte) : State :=
  if m < 16 then (s.emit (.frame m bs)).cnt m cTxPause 1
  else
    let n := m - 16
    let s := s.emit (.frame (0x100 + 64 * n + byteAt bs 14 % 64) bs)
    if bit (byteAt bs 15) 6 then
      let s := s.lcnt n lTxCtl
      if byteAt bs 20 = 1 then forEach (bitsSet (beAt bs 24 8) 64) (fun c t => t.cnt (0x100 + 64 * n + c) cTxPause 1) s else s
    else s

/-- Send such a frame at the next frame boundary: at once where the MAC sends nothing (R228). -/
def State.sendOwn (s : State) (m : Nat) (bs : List Byte) : State :=
  if s.macBusy m then { s with ctlq := SM.put [] s.ctlq m (SM.get [] s.ctlq m ++ [bs]) } else s.ownFrame m bs

/-- The boundary has come: what waited goes out ahead of queued data (R228). -/
def State.flushOwn (s : State) (m : Nat) : State :=
  forEach (SM.get [] s.ctlq m) (fun bs t => t.ownFrame m bs) { s with ctlq := SM.del s.ctlq m }

/-- A CTL frame of a tenant link: channel 0, the addresses of R227, type, `seq`, body, and padding to 60 bytes. -/
def ctlBytes (mac typ seq : Nat) (body : List Byte) : List Byte :=
  let bs := List.replicate 6 0xFF#8 ++ beBytes 6 mac ++ [0x88#8, 0xB5#8, 0x40#8, 0x40#8, 0#8, 0#8, 0#8, 0#8] ++
    [BitVec.ofNat 8 typ, BitVec.ofNat 8 seq] ++ beBytes 2 body.length ++ body
  padTo (max 60 bs.length) bs

/-- Send a CTL frame on tenant link `n`; the `seq` of a type to which the manual gives none is free (log entry 1). -/
def State.sendCtl (s : State) (n typ : Nat) (seq : Option Nat) (body : List Byte) : State :=
  match seq with
  | some q => s.sendOwn (16 + n) (ctlBytes (s.get Reg.TLK_MAC_addr n) typ q body)
  | none =>
    let (q, s) := s.fresh
    s.sendOwn (16 + n) (ctlBytes (s.get Reg.TLK_MAC_addr n) typ (q % 256) body)

/-- A PAUSE frame (IEEE 802.3 Annex 31B). -/
def pauseBytes (mac time : Nat) : List Byte :=
  padTo 60 ([0x01#8, 0x80#8, 0xC2#8, 0x00#8, 0x00#8, 0x01#8] ++ beBytes 6 mac ++ [0x88#8, 0x08#8, 0#8, 1#8] ++ beBytes 2 time)

/-- A PFC frame of the priorities in `vec` (IEEE 802.1Qbb). -/
def pfcBytes (mac vec time : Nat) : List Byte :=
  padTo 60 ([0x01#8, 0x80#8, 0xC2#8, 0x00#8, 0x00#8, 0x01#8] ++ beBytes 6 mac ++ [0x88#8, 0x08#8, 1#8, 1#8] ++ beBytes 2 vec ++
    (List.range 8).flatMap (fun i => beBytes 2 (if bit vec i then time else 0)))

/-! ## Flow control sent (R230, R236) -/

/-- KiB of a channel's or a network port's ingress frames in the cell buffer, those still arriving among them (R230, R232,
R236). -/
def State.storedKib (s : State) (id : Nat) : Nat := s.get Reg.SCH_BUF_PORT_charge id / 4

/-- KiB of the ingress frames of one priority of a network port. -/
def State.prioKib (s : State) (n p : Nat) : Nat :=
  s.frames.foldl (fun a e => if e.2.src == n && e.2.iprio == p then a + e.2.cells else a) 0 / 4

/-- Send CHPAUSE for channels of a link with a time (R230). -/
def State.sendChpause (s : State) (n mask time : Nat) : State :=
  if s.flag Reg.TLK_STATUS_link n then s.sendCtl n 0x01 none (beBytes 8 mask ++ beBytes 2 time) else s

/-- Send PAUSE (`vec` 0), or PFC of the priorities in `vec`, with a time (R236). -/
def State.sendPause (s : State) (n vec time : Nat) : State :=
  if s.portUp n then
    s.sendOwn n (if vec = 0 then pauseBytes (s.get Reg.MAC_NPORT_ADDR_addr n) time
      else pfcBytes (s.get Reg.MAC_NPORT_ADDR_addr n) vec time)
  else s

/-- Judge one threshold: at `xoff` the pause is sent once, below `xon` it is released with a time of zero; an `xoff` of 0
sends nothing. -/
def State.judgeXoff (s : State) (i kib xoff xon : Nat) (send : Nat → State → State) (time : Nat) : State :=
  if xoff = 0 then s.put Reg.PT_xoff i false
  else if s.flag Reg.PT_xoff i then
    if kib < xon then send 0 (s.put Reg.PT_xoff i false) else s
  else if xoff ≤ kib then send time (s.put Reg.PT_xoff i true) else s

/-- Judge the thresholds of a port whose charge or whose thresholds have changed (R230, R236); what was sent in another
mode is over. -/
def State.judgePort (s : State) (id : Nat) : State :=
  if id < 16 then
    let s := if s.get Reg.MAC_NPORT_FC_fc_mode id = 1 then s else s.put Reg.PT_xoff (16 * id + 8) false
    let s := if s.get Reg.MAC_NPORT_FC_fc_mode id = 2 then s
      else forEach (List.range 8) (fun p t => t.put Reg.PT_xoff (16 * id + p) false) s
    let m := s.get Reg.MAC_NPORT_FC_fc_mode id
    let xoff := s.get Reg.MAC_NPORT_FC_xoff id
    let xon := s.get Reg.MAC_NPORT_FC_xon id
    let time := s.get Reg.MAC_NPORT_FC_pause_time id
    if m = 1 then s.judgeXoff (16 * id + 8) (s.storedKib id) xoff xon (fun t u => u.sendPause id 0 t) time
    else if m = 2 then
      forEach (List.range 8) (fun p u =>
        u.judgeXoff (16 * id + p) (u.prioKib id p) xoff xon (fun t v => v.sendPause id (2 ^ p) t) time) s
    else s
  else if 0x100 ≤ id ∧ id < 0x500 then
    let c := id - 0x100
    s.judgeXoff (4096 + c) (s.storedKib id) (s.get Reg.TLK_CH_CFG_xoff c) (s.get Reg.TLK_CH_CFG_xon c)
      (fun t u => u.sendChpause (linkOf id) (2 ^ chanOf id) t) (s.get Reg.TLK_CFG_cp_time (linkOf id))
  else s

/-- Free a frame's cells and take it out of the buffer. -/
def State.freeFrame (s : State) (f : Nat) : State :=
  let x := s.frame f
  let s := { s with frames := SM.put {} s.frames f {} }
  if isExt x.src then (s.setCharge x.src (s.get Reg.SCH_BUF_PORT_charge x.src - x.cells)).judgePort x.src
  else if x.src = 0x020 ∨ x.src = 0x021 then s.set Reg.SCX_host 0 (s.get Reg.SCX_host 0 - x.cells)
  else s

/-- A frame ends: host work completes once with a status (R38), unless another part answers for it; a segment that is
not the last completes its entry only where it is dropped (R339). A success form reports the bytes of the entry's frame
(Table WQ-8). -/
def State.endFrame (s : State) (f status : Nat) : State :=
  let x := s.frame f
  let s := s.freeFrame f
  if x.qp1 = 0 ∨ x.part ∨ (x.seg ∧ status = 0) then s
  else
    match s.entAt (x.qp1 - 1) x.idx with
    | some e => if e.seq = x.seq then s.finish (x.qp1 - 1) x.idx status (if status < 0x10 then txLen e.bytes else 0) 0 else s
    | none => s

/-- DROPPED_POLICY (chapter "The Accepted-Work Contract"). -/
def stDropped : Nat := 0x01

/-! ## Policers (R251 to R253) -/

/-- Refill a policer by Meridian time; a negative elapsed time adds nothing (R263, R264, R283). -/
def State.polRefill (s : State) (i rate burst : Nat) : State :=
  let now := s.now
  let last := s.get Reg.POL_last i
  let acc := s.get Reg.POL_acc i + (if last ≤ now then rate * (now - last) else 0)
  let tok := s.get Reg.POL_tok i + acc / 8000
  let s := s.set Reg.POL_last i now
  if 64 * burst ≤ tok then (s.set Reg.POL_tok i (64 * burst)).set Reg.POL_acc i 0
  else (s.set Reg.POL_tok i tok).set Reg.POL_acc i (acc % 8000)

/-- Meter `len` bytes: the frame is green, and the state after (R251). -/
def State.meter (s : State) (i : Nat) (en : Bool) (rate burst len : Nat) : Bool × State :=
  if !en then (true, s)
  else
    let s := s.polRefill i rate burst
    let t := s.get Reg.POL_tok i
    if len ≤ t then (true, s.set Reg.POL_tok i (t - len)) else (false, s)

/-! ## Exceptions (R137, R184) -/

/-- Refill an exception bucket: rate in kpps, depth in frames. -/
def State.excRefill (s : State) (i rate burst : Nat) : State :=
  let now := s.now
  let last := s.get Reg.EXC_last i
  let acc := s.get Reg.EXC_acc i + (if last ≤ now then rate * (now - last) else 0)
  let tok := s.get Reg.EXC_tok i + acc / 1000000
  let s := s.set Reg.EXC_last i now
  if burst ≤ tok then (s.set Reg.EXC_tok i burst).set Reg.EXC_acc i 0
  else (s.set Reg.EXC_tok i tok).set Reg.EXC_acc i (acc % 1000000)

/-- Send a frame for exception with a cause of Table PP-8: both buckets and the queue admit it, or it is refused. -/
def State.toException (s : State) (f cause : Nat) : State :=
  let x := s.frame f
  let p := x.pipe
  let s := (s.inc Reg.PPL_EXC_CNT_count (8 * p + cause)).pmu (1 + p) 3 1
  let s := (s.excRefill p (s.get Reg.MC_EXC_RATE_rate p) (s.get Reg.MC_EXC_RATE_burst p)).excRefill 8 16000 16384
  if s.get Reg.EXC_tok p = 0 then (s.inc Reg.MC_EXC_DROP_drops p).endFrame f 0x71
  else
    let s := s.set Reg.EXC_tok p (s.get Reg.EXC_tok p - 1)
    if s.get Reg.EXC_tok 8 = 0 ∨ 16384 ≤ s.excq.length then (s.inc Reg.MC_EXC_DROP_drops p).endFrame f 0x71
    else
      let s := s.set Reg.EXC_tok 8 (s.get Reg.EXC_tok 8 - 1)
      let s := s.updFrame f (fun x => { x with stage := .exception })
      { s with excq := s.excq ++ [f] }

/-! ## Enqueue on a leaf (R256) -/

/-- Index of a node of a level in the node fields. -/
def ndix (level i : Nat) : Nat := level * 2 ^ 18 + i

/-- The path of a leaf upward: level 2, level 1, port ID. -/
def State.leafPath (s : State) (l : Nat) : Nat × Nat × Nat :=
  let a := s.get Reg.ND_parent (ndix 3 l)
  let b := s.get Reg.ND_parent (ndix 2 a)
  (a, b, bits (s.get Reg.ND_parent (ndix 1 b)) 0 11)

/-- Change the queued bytes of a leaf and of every node above it. -/
def State.addDepth (s : State) (l : Nat) (f : Nat → Nat) : State :=
  let (a, b, p) := s.leafPath l
  forEach [ndix 3 l, ndix 2 a, ndix 1 b, ndix 0 p] (fun i t => t.set Reg.ND_depth i (f (t.get Reg.ND_depth i))) s

/-- `SCH_NODE_STATUS.draining` shows whether the leaf last read is draining (R257). -/
def State.drainShow (s : State) : State :=
  s.put Reg.SCH_NODE_STATUS_draining 0
    (s.get Reg.NDX_read 0 != 0 && s.flag Reg.ND_drain (ndix 3 (s.get Reg.NDX_read 0 - 1)))

/-- After a frame has left a leaf: a node of its path that is empty loses its deficit (R261), and a draining leaf that is
empty becomes invalid (R257). -/
def State.leafTidy (s : State) (l : Nat) : State :=
  let (a, b, p) := s.leafPath l
  let s := forEach [ndix 3 l, ndix 2 a, ndix 1 b, ndix 0 p] (fun i t => if t.get Reg.ND_depth i = 0 then t.set Reg.ND_def i 0 else t) s
  if s.flag Reg.ND_drain (ndix 3 l) && (SM.get [] s.leafq l).isEmpty then
    ((s.put Reg.ND_drain (ndix 3 l) false).put Reg.ND_valid (ndix 3 l) false).drainShow
  else s

/-- Put a frame at the end of a leaf's queue. -/
def State.putLeaf (s : State) (l f : Nat) : State :=
  let n := (s.frame f).bytes.length
  let s := (s.updFrame f (fun x => { x with stage := .leaf l, enq := s.now })).addDepth l (fun d => d + n)
  { (s.pmu 10 1 1) with leafq := SM.put [] s.leafq l (SM.get [] s.leafq l ++ [f]) }

/-- Frames are queued on a leaf together, or dropped there and counted; the sum of their bytes is judged (R256, R257,
R339). -/
def State.enqueueAll (s : State) (fs : List Nat) (l : Nat) : State :=
  let i := ndix 3 l
  let n := fs.foldl (fun a f => a + (s.frame f).bytes.length) 0
  let drop := fun (c : Fld) => forEach fs (fun f t => ((t.inc c 0).pmu 10 3 1).endFrame f stDropped) s
  if !s.flag Reg.ND_valid i || s.flag Reg.ND_drain i then drop Reg.SCH_DROP_INVAL_count
  else if s.get Reg.ND_qlim i ≠ 0 ∧ 1024 * s.get Reg.ND_qlim i < s.get Reg.ND_depth i + n then drop Reg.SCH_DROP_QLIM_count
  else forEach fs (fun f t => t.putLeaf l f) s

/-- One frame is queued on a leaf, or dropped there. -/
def State.enqueue (s : State) (f l : Nat) : State := s.enqueueAll [f] l

end Sys2Proof.Machine
end

