-- ==== Sys2Proof/Machine/DmaOps.lean ====
section
/-! DEFINITION. Sys2Proof/Machine/DmaOps.lean: channels, runs and their ends (chapter "DMA Engines and Channels"). -/

namespace Sys2Proof.Machine

/-! ## Channels -/

def chIdle : Nat := 0
def chWait : Nat := 1
def chReady : Nat := 2
def chRunning : Nat := 3
def chReadback : Nat := 4
def chHeld : Nat := 5

def State.chState (s : State) (c : Nat) : Nat := s.get Reg.DMA_CH_STATUS_state c
def State.setCh (s : State) (c st : Nat) : State :=
  (s.set Reg.DMA_CH_STATUS_state c st).put Reg.DMA_CH_STATUS_master_hold c (st == chHeld)
def State.chOwner (s : State) (c : Nat) : Nat := s.get Reg.DMA_CH_OWNER_owner c

/-- Hardware channels are those of engine 63 (R358). -/
def chHard (c : Nat) : Bool := decide (1008 ≤ c)

/-- The function whose requester ID a channel's host requests carry (R363); none for a free channel. -/
def State.chFn (s : State) (c : Nat) : Option Nat :=
  let g := s.chOwner c
  if g = 0x1FFE then some (s.get Reg.DMA_CH_OWNER_hport c) else if g < 4098 then some g else none

/-! ## Requesters (Table DM-3) -/

/-- Who asks for a run. -/
inductive DmaReq where
  | vf | pf | thread (t : Nat) | fw
  /-- a management thread, whose window is its exception frame's -/
  | mgmt (t : Nat)
deriving DecidableEq, Repr

/-- The requester may name the space of an address form. -/
def DmaReq.may (r : DmaReq) (a : Nat) : Bool :=
  match r, dmaSpace a with
  | _, .host => true
  | _, .reserved => false
  | .vf, _ => false
  | .pf, sp => sp == .shell || sp == .saStore
  | .thread t, .shared => decide (bits a 21 4 = t / 256)
  | .thread _, sp => sp == .window || sp == .shell
  | .fw, sp => sp != .window
  | .mgmt _, _ => true

/-- The requester that a start without a command stands for: the owner (R359, R363). -/
def State.chReq (s : State) (c : Nat) : DmaReq :=
  let g := s.chOwner c
  if g < 2 then .pf else if g = 0x1FFE then .fw else .vf

/-! ## Descriptors (R364) -/

/-- A descriptor is invalid for a requester. -/
def State.dmaBad (s : State) (c : Nat) (r : DmaReq) (src dst len cfg : Nat) : Bool :=
  let stream := bit cfg 9
  (if stream then decide (3 < c % 16) || src != 0 || decide (bits cfg 16 8 ≤ bits cfg 24 8) ||
      dmaDescBad 0 dst len (bits cfg 0 3) (bits cfg 3 3) (bits cfg 6 3)
    else dmaDescBad src dst len (bits cfg 0 3) (bits cfg 3 3) (bits cfg 6 3) || !r.may src) ||
  !r.may dst || (s.chFn c).isNone

/-- Bytes a FIFO must hold for a start (R374). -/
def fifoHi (cfg : Nat) : Nat := 128 * bits cfg 16 8
def fifoLo (cfg : Nat) : Nat := 128 * bits cfg 24 8

def State.fifoOf (s : State) (c : Nat) : List Byte := SM.get [] s.fifo c

/-- The bytes of a FIFO and their number in `DMA_CH_FIFO_STATUS`. -/
def State.setFifo (s : State) (c : Nat) (l : List Byte) : State :=
  ({ s with fifo := SM.put [] s.fifo c l }).set Reg.DMA_CH_FIFO_STATUS_fill c l.length

/-- A started channel is ready, but for its start time (R374). -/
def State.fifoReady (s : State) (c : Nat) : Bool :=
  let cfg := s.get Reg.DMX_cfg c
  let n := (s.fifoOf c).length
  !bit cfg 9 || decide (fifoHi cfg ≤ n) || (s.flag Reg.DMA_CH_FIFO_STATUS_eos c && n != 0)

/-- A started channel that does not run is in WAIT until its start time is reached and its FIFO serves, then READY
(R367, R374; DEDUCED, log entry 12). -/
def State.chSettle (s : State) (c : Nat) : State :=
  if s.chState c = chWait ∨ s.chState c = chReady then
    let s := if s.flag Reg.DMX_wait c && reached48 s.now (s.get Reg.DMX_stime c) then s.put Reg.DMX_wait c false else s
    s.setCh c (if s.flag Reg.DMX_wait c || !s.fifoReady c then chWait else chReady)
  else s

/-! ## The end of a run (R376, R378) -/

/-- What started a run. -/
inductive DmaBy where
  | reg | trigger
  | entry (q idx : Nat)
  | cmd (thr tagp1 tseq : Nat)
deriving DecidableEq, Repr

def DmaBy.code : DmaBy → Nat
  | .reg => 1
  | .trigger => 2
  | .entry .. => 3
  | .cmd .. => 4

/-- What started the present run of a channel. -/
def State.chBy (s : State) (c : Nat) : DmaBy :=
  let k := s.get Reg.DMX_kind c
  if k = 3 then .entry (s.get Reg.DMX_q c) (s.get Reg.DMX_idx c)
  else if k = 4 then .cmd (s.get Reg.DMX_thr c) (s.get Reg.DMX_tag c) (s.get Reg.DMX_tseq c)
  else if k = 2 then .trigger else .reg

def State.setBy (s : State) (c : Nat) (b : DmaBy) : State :=
  let s := s.set Reg.DMX_kind c b.code
  match b with
  | .entry q idx => (s.set Reg.DMX_q c q).set Reg.DMX_idx c idx
  | .cmd t g n => ((s.set Reg.DMX_thr c t).set Reg.DMX_tag c g).set Reg.DMX_tseq c n
  | _ => s

/-- Report a run to what started it (R378). -/
def State.dmaReport (s : State) (c : Nat) (b : DmaBy) (res : Nat) : State :=
  let n := s.get Reg.DMA_CH_XFER_bytes c
  match b with
  | .entry q idx => s.finish q idx res n (c + 65536 * s.get Reg.DMX_rl c)
  | .cmd t g k =>
    if g = 0 then (if res = 0 then s else s.inc Reg.DMA_ERR_count 0)
    else { s with flight := s.flight ++ [(t, g - 1, k, [res, n])] }
  | _ =>
    let s := (s.put Reg.DMA_CH_STATUS_done c true).set Reg.DMA_CH_STATUS_result c res
    match s.chFn c with
    | some g => if s.flag Reg.DMA_CH_IRQ_irq_en c then s.raiseVec g (s.get Reg.DMA_CH_IRQ_vec c) else s
    | none => s

/-- Hand-over of an armed shadow set (R376). -/
def State.handOver (s : State) (c : Nat) : State :=
  if s.flag Reg.DMA_CH_SH_CTRL_armed c then
    let s := (s.set Reg.DMA_CH_SRC_addr c (s.get Reg.DMA_CH_SH_SRC_addr c)).set Reg.DMA_CH_DST_addr c
      (s.get Reg.DMA_CH_SH_DST_addr c)
    let s := ((s.set Reg.DMA_CH_LEN_len c (s.get Reg.DMA_CH_SH_LEN_len c)).set Reg.DMA_CH_CFG_cfg c
      (s.get Reg.DMA_CH_SH_CFG_cfg c)).set Reg.DMA_CH_STIME_stime c (s.get Reg.DMA_CH_SH_STIME_stime c)
    let g := s.get Reg.DMA_CH_SH_CTRL_shadow_gen c
    ((s.put Reg.DMA_CH_SH_CTRL_armed c false).set Reg.DMA_CH_SH_CTRL_active_gen c g).set Reg.DMA_CH_SH_CTRL_shadow_gen c
      (g + 1)
  else s

/-- Take a start of an idle channel with a descriptor that is valid (R367); the engine of a quarantined channel ends
it at once (Table FC-2). -/
def State.dmaBegin (s : State) (c : Nat) (b : DmaBy) (src dst len cfg stime : Nat) : State :=
  let s := (s.setBy c b).set Reg.DMA_CH_XFER_bytes c 0
  let s := ((s.set Reg.DMX_src c src).set Reg.DMX_dst c dst).set Reg.DMX_len c len
  let s := (((s.set Reg.DMX_cfg c cfg).set Reg.DMX_stime c stime).set Reg.DMX_rl c 0).set Reg.DMX_res c 0
  if s.flag Reg.FLT_eng (c / 16) then s.dmaReport c b 0x66
  else ((s.put Reg.DMX_wait c (stime != 0)).setCh c chWait).chSettle c

/-- Run the stored descriptor of an idle channel for a requester (R364, R366). -/
def State.dmaStored (s : State) (c : Nat) (r : DmaReq) (b : DmaBy) : State :=
  let src := s.get Reg.DMA_CH_SRC_addr c
  let dst := s.get Reg.DMA_CH_DST_addr c
  let len := s.get Reg.DMA_CH_LEN_len c
  let cfg := s.get Reg.DMA_CH_CFG_cfg c
  if s.dmaBad c r src dst len cfg then (s.set Reg.DMA_CH_XFER_bytes c 0).dmaReport c b 0x65
  else s.dmaBegin c b src dst len cfg (s.get Reg.DMA_CH_STIME_stime c)

/-- Start an idle channel on its stored descriptor: an armed shadow set is handed over first (R376). -/
def State.dmaStart (s : State) (c : Nat) (r : DmaReq) (b : DmaBy) : State := (s.handOver c).dmaStored c r b

/-- An entry waits for a channel (R365). -/
def State.dmaWaits (s : State) (c : Nat) : List (Nat × Nat) := SM.get [] s.dmaWait c

/-- An accepted DMA entry starts its idle channel: COPY its own descriptor, START the stored one. -/
def State.dmaEntry (s : State) (c q idx : Nat) : State :=
  match s.entAt q idx with
  | none => s
  | some e =>
    let s := ({ s with dmaWait := SM.put [] s.dmaWait c ((s.dmaWaits c).filter (fun p => p != (q, idx))) }).markWay q idx
    let r := if s.qOwner q < 2 then DmaReq.pf else DmaReq.vf
    if s.chOwner c ≠ s.qOwner q then s.finish q idx 0x22 0 0
    else if weOpcode e.bytes = 2 then s.dmaStart c r (.entry q idx)
    else
      let s := s.handOver c
      let cfg := dmSrcW e.bytes + 8 * dmDstW e.bytes + 64 * dmSwap e.bytes + s.get Reg.DMA_CH_CFG_cfg c / 1024 % 2 * 1024
      s.dmaBegin c (.entry q idx) (weAddr e.bytes) (dmDst e.bytes) (dmLen e.bytes) cfg (dmStime e.bytes)

/-- A channel that became idle takes the entry that has waited longest, if it may start now (R366). -/
def State.dmaNext (s : State) (c : Nat) : State :=
  match s.dmaWaits c with
  | [] => s
  | p :: rest =>
    if (s.entAt p.1 p.2).isNone then { s with dmaWait := SM.put [] s.dmaWait c rest }
    else if s.chState c == chIdle && s.entGo p.1 p.2 then s.dmaEntry c p.1 p.2 else s

/-- A run ends: it is reported; an armed shadow set is handed over and runs without a further start, unless the run
was stopped; otherwise a waiting entry is handed the channel (R366, R376, R379). -/
def State.dmaEnd (s : State) (c res : Nat) : State :=
  let b := s.chBy c
  let again := s.flag Reg.DMA_CH_SH_CTRL_armed c && res != 0x66
  let s := (s.setCh c chIdle).set Reg.DMX_kind c 0
  let s := if bit (s.get Reg.DMX_cfg c) 9 then s.put Reg.DMA_CH_FIFO_STATUS_eos c false else s
  let s := s.dmaReport c b res
  if again then (s.handOver c).dmaStored c (s.chReq c) .reg else s.dmaNext c

/-! ## Accesses (R368) -/

/-- The largest power of two below `w` that `a` is aligned to and that is at most `r`. -/
def headSize (a r : Nat) : Nat → Nat
  | 0 => 1
  | k + 1 => if a % 2 ^ k = 0 ∧ 2 ^ k ≤ r then 2 ^ k else headSize a r k

/-- The accesses of one side of a run: width `2^k`, next address `a`, `r` bytes remaining. -/
def accesses (k : Nat) : Nat → Nat → Nat → List (Nat × Nat)
  | 0, _, _ => []
  | n + 1, a, r =>
    if r = 0 then []
    else
      let z := if a % 2 ^ k = 0 ∧ 2 ^ k ≤ r then 2 ^ k
        else if a % 2 ^ k ≠ 0 then headSize a r k else 2 ^ Nat.log2 r
      (a, z) :: accesses k n (a + z) (r - z)

/-- The host requests that accesses are combined into, in order: at most `m` bytes, whole accesses, none across a 4 KiB
boundary (R370). -/
def reqCut (m : Nat) : List (Nat × Nat) → Nat → Nat → List (Nat × Nat)
  | [], o, n => if n = 0 then [] else [(o, n)]
  | (a, z) :: l, o, n =>
    if n = 0 then reqCut m l a z
    else if n + z ≤ m ∧ (o + n) % 4096 ≠ 0 then reqCut m l o (n + z)
    else (o, n) :: reqCut m l a z

/-- Stream byte `k` of a swapped stream takes this source stream byte (Table DM-6). -/
def swapIx (sw k : Nat) : Nat :=
  if sw = 1 then 2 * (k / 2) + 1 - k % 2
  else if sw = 2 then 4 * (k / 4) + 3 - k % 4
  else if sw = 3 then 8 * (k / 8) + 7 - k % 8
  else if sw = 4 then 4 * (k / 4) + (k + 2) % 4
  else k

/-- A stream with a swap applied (R371). -/
def swapBytes (sw : Nat) (bs : List Byte) : List Byte :=
  if sw = 0 then bs else (List.range bs.length).map (fun k => bs.getD (swapIx sw k) 0#8)

/-! ## Shell space (R246, R247, R373) -/

def shellSlot (a : Nat) : Nat := bits a 40 4
def shellOff (a : Nat) : Nat := bits a 0 40

/-- BULK frames: whole accesses of at most 8,192 bytes together, as offset and length. -/
def bulkCut : List (Nat × Nat) → Nat → Nat → List (Nat × Nat)
  | [], o, n => if n = 0 then [] else [(o, n)]
  | (a, z) :: l, o, n => if n = 0 then bulkCut l a z else if n + z ≤ 8192 then bulkCut l o (n + z) else (o, n) :: bulkCut l a z

/-- Bytes of a run that lie at a destination address: its last access. -/
def State.lastAccess (s : State) (c : Nat) : Nat × Nat :=
  let n := s.get Reg.DMA_CH_XFER_bytes c
  ((accesses (bits (s.get Reg.DMX_cfg c) 3 3) (n + 1) (s.get Reg.DMX_dst c) n).getLast?).getD (s.get Reg.DMX_dst c, 0)

/-- Send a MGMT_REQ of a slot with the next `seq` (R246): read or write of `n` bytes at an address. -/
def State.sendMgmt (s : State) (sl : Nat) (wr : Bool) (addr n : Nat) (data : List Byte) : State :=
  let seq := s.get Reg.CTL_seq sl + 1
  let s := s.set Reg.CTL_seq sl seq
  let s := s.put Reg.SHL_CMD_busy sl true
  s.sendCtl sl 0x03 (some (seq % 256)) ([if wr then 2#8 else 1#8, BitVec.ofNat 8 n, 0#8, 0#8] ++ beBytes 4 addr ++ data)

/-- The channel's read-back waits for, or holds, the request position of a slot. -/
def State.shellRb (s : State) (c sl : Nat) : Bool :=
  s.chState c == chReadback && dmaSpace (s.get Reg.DMX_dst c) == .shell && shellSlot (s.get Reg.DMX_dst c) == sl

/-- A read-back that waits takes the free request position of a slot, the lowest channel first (R373; log entry 7). -/
def State.shlKick (s : State) (sl : Nat) : State :=
  if s.flag Reg.SHL_CMD_busy sl then s
  else
    match (s.having Reg.DMA_CH_STATUS_state chReadback).find? (fun c => s.shellRb c sl) with
    | none => s
    | some c =>
      let (a, z) := s.lastAccess c
      let n := min z 8
      ((s.set Reg.SHX_dma sl (c + 1)).put Reg.SHL_CMD_dma sl true).sendMgmt sl false (shellOff a + z - n) n
        (List.replicate 8 0#8)

/-- A streaming channel has more to move: it has neither moved `len` bytes nor met the end of its stream (R374). -/
def State.streamMore (s : State) (c : Nat) : Bool :=
  bit (s.get Reg.DMX_cfg c) 9 && s.get Reg.DMA_CH_XFER_bytes c != s.get Reg.DMX_len c &&
  !(s.flag Reg.DMA_CH_FIFO_STATUS_eos c && (s.fifoOf c).isEmpty)

/-- The last BULK frame of a channel has left: a burst releases the engine, and a run reads back. -/
def State.bulkDone (s : State) (c : Nat) : State :=
  if s.streamMore c then (s.setCh c chReady).chSettle c else s.setCh c chReadback

/-- Send the BULK frames of a slot while its credit lasts and its link is at a frame boundary (R228, R247, R373). -/
def bulkSend : List (Nat × Nat × List Byte) → Nat → State → State
  | [], sl, s => { s with bulk := SM.put [] s.bulk sl [] }
  | (c, o, bs) :: l, sl, s =>
    let need := (bs.length + 1023) / 1024
    let cr := s.get Reg.TLK_STATUS_credit sl
    if s.flag Reg.TLK_STATUS_link sl && decide (need ≤ cr) && !s.macBusy (16 + sl) then
      let s := (s.set Reg.TLK_STATUS_credit sl (cr - need)).sendCtl sl 0x05 none (beBytes 8 o ++ bs)
      let s := s.add Reg.DMA_CH_XFER_bytes c bs.length
      bulkSend l sl (if l.any (fun x => x.1 == c) then s else s.bulkDone c)
    else { s with bulk := SM.put [] s.bulk sl ((c, o, bs) :: l) }

/-- Send what the credit allows, then a read-back that waits. -/
def State.bulkKick (s : State) (sl : Nat) : State := (bulkSend (SM.get [] s.bulk sl) sl s).shlKick sl

/-- A run into shell space ends otherwise than by its read-back: what is unsent is dropped, and a request that it has
outstanding answers to no one. -/
def State.shellDrop (s : State) (c : Nat) : State :=
  let sl := shellSlot (s.get Reg.DMX_dst c)
  if dmaSpace (s.get Reg.DMX_dst c) == .shell then
    let s := { s with bulk := SM.put [] s.bulk sl ((SM.get [] s.bulk sl).filter (fun x => x.1 != c)) }
    if s.get Reg.SHX_dma sl = c + 1 then s.set Reg.SHX_dma sl 2047 else s
  else s

/-! ## Moving data -/

/-- The PF or firmware that a store of SA records counts as (Table DM-3). -/
def State.saWho (s : State) (c : Nat) : Who := if s.chOwner c < 2 then .pf (s.chOwner c) else .fw 0

/-- Store SA records one by one under the checks of R331; the first refused ends the run (R373). The bytes stored and
whether all were. -/
def saStore (w : Who) : Nat → List Byte → Nat → State → Nat × Bool × State
  | 0, _, _, s => (0, true, s)
  | n + 1, bs, i, s =>
    let r := bs.take 128
    if !s.saMay w r || saBad r || !(!saValid (s.saRec i) || s.saMay w (s.saRec i)) then (0, false, s)
    else
      let (m, ok, s) := saStore w n (bs.drop 128) (i + 1) (s.saPut i r)
      (m + 128, ok, s)

/-- Relaxed Ordering and No Snoop of a run (R370). -/
def State.runAttr (s : State) (c : Nat) : Bool × Bool :=
  match s.chBy c with
  | .entry q idx =>
    match s.entAt q idx with
    | some e => (weRo e.bytes, weNs e.bytes)
    | none => (false, false)
  | _ => (false, false)

/-- The command that started the run was abandoned: its tag has moved on, so its window writes are suppressed
(R379). -/
def State.windowDead (s : State) (c : Nat) : Bool :=
  match s.chBy c with
  | .cmd t g k => if g = 0 then s.get Reg.TH_gen t != k else s.get Reg.TH_tagseq (4 * t + (g - 1)) != k
  | _ => false

/-- Write `bs` to the destination of a run, `o` bytes into it; the result the run so far ends with. -/
def State.dmaPut (s : State) (c o : Nat) (bs : List Byte) : Nat × State :=
  let a := s.get Reg.DMX_dst c + o
  let n := bs.length
  let s := s.pmu 14 2 (n / 64)
  match dmaSpace a with
  | .host =>
    match s.chFn c with
    | some g =>
      let cut := reqCut (128 * 2 ^ s.get Reg.CFG_mps g) (accesses (bits (s.get Reg.DMX_cfg c) 3 3) (n + 1) a n) 0 0
      (0, (s.hostWriteCut g a bs cut (s.runAttr c).1 (s.runAttr c).2).add Reg.DMA_CH_XFER_bytes c n)
    | none => (0, s)
  | .shared => (0, (s.wr (baseS (bits a 21 4) + bits a 0 21) bs).add Reg.DMA_CH_XFER_bytes c n)
  | .mgmt => (0, (s.wr (baseM + bits a 0 23) bs).add Reg.DMA_CH_XFER_bytes c n)
  | .window =>
    let s := if s.windowDead c then s else s.wr (baseW (s.get Reg.DMX_thr c) + bits a 0 10) bs
    (0, s.add Reg.DMA_CH_XFER_bytes c n)
  | .shell =>
    let sl := shellSlot a
    if !s.flag Reg.TLK_STATUS_link sl then (0x67, s)
    else
      let fs := (bulkCut (accesses (bits (s.get Reg.DMX_cfg c) 3 3) (n + 1) (shellOff a) n) 0 0).map (fun p =>
        (c, p.1, slice bs (p.1 - shellOff a) p.2))
      (0, { s with bulk := SM.put [] s.bulk sl (SM.get [] s.bulk sl ++ fs) })
  | .saStore =>
    let (m, ok, s) := saStore (s.saWho c) (n / 128) bs (bits a 7 20) s
    (if ok then 0 else 0x62, s.add Reg.DMA_CH_XFER_bytes c m)
  | .reserved => (0, s)

/-- The channel has BULK frames that are not sent. -/
def State.unsent (s : State) (c : Nat) : Bool :=
  dmaSpace (s.get Reg.DMX_dst c) == .shell &&
  (SM.get [] s.bulk (shellSlot (s.get Reg.DMX_dst c))).any (fun x => x.1 == c)

/-- After the last write of a run, read back its last access, or end at once when nothing was written or the link is
down (R372, R373). -/
def State.dmaBack (s : State) (c res : Nat) : State :=
  let s := s.set Reg.DMX_res c res
  let dst := s.get Reg.DMX_dst c
  if res = 0x67 then s.dmaEnd c res
  else if s.unsent c then (s.setCh c chRunning).bulkKick (shellSlot dst)
  else if s.get Reg.DMA_CH_XFER_bytes c = 0 then s.dmaEnd c res
  else
    let s := s.setCh c chReadback
    match dmaSpace dst, s.chFn c with
    | .host, some g => let (a, z) := s.lastAccess c; s.hostRead g a z false false (.readback c)
    | .shell, _ => s.shlKick (shellSlot dst)
    | _, _ => s

/-- The bytes of an internal source. -/
def State.dmaSource (s : State) (c : Nat) : List Byte :=
  let a := s.get Reg.DMX_src c
  let n := s.get Reg.DMX_len c
  match dmaSpace a with
  | .shared => s.rd (baseS (bits a 21 4) + bits a 0 21) n
  | .mgmt => s.rd (baseM + bits a 0 23) n
  | .window => s.rd (baseW (s.get Reg.DMX_thr c) + bits a 0 10) n
  | _ => []

/-- The reads of a host source: the entry's fragments, or the range (R365, R370). -/
def State.dmaReads (s : State) (c : Nat) : State :=
  match s.chFn c with
  | none => s
  | some g =>
    let cut := fun (a n : Nat) =>
      reqCut (128 * 2 ^ s.get Reg.CFG_mrrs g) (accesses (bits (s.get Reg.DMX_cfg c) 0 3) (n + 1) a n) 0 0
    let all := cut (s.get Reg.DMX_src c) (s.get Reg.DMX_len c)
    match s.chBy c with
    | .entry q idx =>
      match s.entAt q idx with
      | some e =>
        if weIndirect e.bytes then forEach e.frags (fun f t => t.hostReadCut g (cut f.1 f.2.1) f.2.2.1 f.2.2.2 .other) s
        else s.hostReadCut g all (weRo e.bytes) (weNs e.bytes) .other
      | none => s
    | _ => s.hostReadCut g all false false .other

/-- A run names host memory. -/
def State.dmaHost (s : State) (c : Nat) : Bool :=
  (dmaSpace (s.get Reg.DMX_src c) == .host && !bit (s.get Reg.DMX_cfg c) 9) || dmaSpace (s.get Reg.DMX_dst c) == .host

/-! ## The choice of an engine (R361) -/

/-- The engine has a run in progress. -/
def State.engBusy (s : State) (e : Nat) : Bool :=
  (List.range 16).any (fun k => s.chState (16 * e + k) == chRunning || s.chState (16 * e + k) == chReadback)

/-- Engines on which channels of an owner run. -/
def State.engsOf (s : State) (g : Nat) : Nat :=
  ((List.range 64).filter (fun e => (List.range 16).any (fun k =>
    s.chOwner (16 * e + k) == g &&
    (s.chState (16 * e + k) == chRunning || s.chState (16 * e + k) == chReadback)))).length

/-- A ready channel that may run now: its owner is below `max_eng`. -/
def State.chMay (s : State) (c : Nat) : Bool :=
  let g := s.chOwner c
  s.chState c == chReady && (g == 0x1FFE || decide (s.engsOf g < s.get Reg.DMA_FN_SHARE_max_eng g))

/-- The channels an engine chooses from: those of the higher priority where there are any. -/
def State.chPick (s : State) (e : Nat) : List Nat :=
  let l := ((List.range 16).map (fun k => 16 * e + k)).filter s.chMay
  let hi := l.filter (fun c => bit (s.get Reg.DMX_cfg c) 10)
  if hi.isEmpty then l else hi

/-- Bytes a run is charged with: what it moves now. -/
def State.runBytes (s : State) (c : Nat) : Nat :=
  if bit (s.get Reg.DMX_cfg c) 9 then
    min (s.fifoOf c).length (s.get Reg.DMX_len c - s.get Reg.DMA_CH_XFER_bytes c)
  else s.get Reg.DMX_len c

/-- DWRR weight of an owner. -/
def State.dmaWeight (s : State) (g : Nat) : Nat := if g = 0x1FFE then 16 else max 1 (s.get Reg.DMA_FN_SHARE_weight g)

/-- Index of an owner at an engine. -/
def dix (e g : Nat) : Nat := 0x2000 * e + g

/-- The channel of an owner that an engine serves next, round robin. -/
def State.chNextOf (s : State) (e g : Nat) (l : List Nat) : Option Nat :=
  let mine := l.filter (fun c => s.chOwner c == g)
  let last := s.get Reg.DMX_ch (dix e g)
  let up := mine.filter (fun c => decide (last < c % 16))
  if up.isEmpty then mine.head? else up.head?

/-- Deficit round robin over owners with ready channels. -/
def dmaDwrr (e : Nat) (owners l : List Nat) : Nat → Nat → State → Option Nat × State
  | 0, _, s => (none, s)
  | n + 1, g, s =>
    match s.chNextOf e g l with
    | none => (none, s)
    | some c =>
      let d := s.get Reg.DMX_def (dix e g)
      if s.runBytes c ≤ d then
        (some c, ((s.set Reg.DMX_def (dix e g) (d - s.runBytes c)).set Reg.DMX_ptr e g).set Reg.DMX_ch (dix e g) (c % 16))
      else dmaDwrr e owners l n (rotNext owners g) (s.set Reg.DMX_def (dix e g) (d + 4096 * s.dmaWeight g))

/-- The next channel of an idle engine; owners without ready channels keep no credit. -/
def State.engPick (s : State) (e : Nat) : Option Nat × State :=
  let l := s.chPick e
  let os := (l.map s.chOwner).eraseDups
  let ready := (((List.range 16).map (fun k => 16 * e + k)).filter (fun c => s.chState c == chReady)).map s.chOwner
  let s := forEach ((s.instances Reg.DMX_def).filter (fun i => i / 0x2000 == e && !ready.contains (i % 0x2000))) (fun i t =>
    t.set Reg.DMX_def i 0) s
  let most := (l.map s.runBytes).foldl max 0
  dmaDwrr e os l (os.length * (most / 4096 + 2)) (rotAt os (s.get Reg.DMX_ptr e)) s

/-- A trigger starts a channel (R358, R366). -/
def State.dmaTrigger (s : State) (c : Nat) : State :=
  if chHard c then s.inc Reg.DMA_ERR_count 0
  else if s.chState c ≠ chIdle ∨ s.dmaWaits c ≠ [] then s.put Reg.DMA_CH_STATUS_start_ovr c true
  else s.dmaStart c (s.chReq c) .trigger

/-- A run ends before its time with a result (R379, Table FC-2, R247). -/
def State.dmaCut (s : State) (c res : Nat) : State := (s.shellDrop c).dmaEnd c res

end Sys2Proof.Machine
end

