-- ==== Sys2Proof/Machine/MbxOps.lean ====
section
/-! DEFINITION. Sys2Proof/Machine/MbxOps.lean: messages, doorbells, locks and the resets of masters (chapter "Mailboxes,
Lock Registers and Shared Windows"). -/

namespace Sys2Proof.Machine

/-! ## Owner numbers (Table MB-1) -/

def ownerNo : Who → Nat
  | .pf h => h + 1
  | .fw m => 0x8000 + m
  | .bmc => 0xF001
  | .vf g => g + 1

/-- Sender class of an owner number, as its bit of `tx_mask` counted from bit 8. -/
def senderClass (o : Nat) : Option Nat :=
  if o = 1 then some 0 else if o = 2 then some 1
  else if 0x8000 ≤ o ∧ o < 0x8040 then some 2
  else if 0xA000 ≤ o ∧ o < 0xB000 then some 3
  else if 0xE000 ≤ o ∧ o < 0xE010 then some 4
  else if o = 0xF000 then some 5 else if o = 0xF001 then some 6 else none

/-- A receiver R430 allows. -/
def receiverOk (o : Nat) : Bool :=
  o == 0 || o == 1 || o == 2 || decide (0x8000 ≤ o ∧ o < 0x8040) || decide (0xE000 ≤ o ∧ o < 0xE010) || o == 0xF001

/-- The accessor reaches channel or lock `c` (R150, R441): of 0 to 7, secure threads and the BMC. -/
def State.mbxReach (s : State) (w : Who) (c : Nat) : Bool :=
  match w with
  | .pf _ => decide (8 ≤ c)
  | .fw m => decide (8 ≤ c) || secure s (.fw m)
  | .bmc => true
  | .vf _ => false

/-- Count an ignored write, commit or release. -/
def State.mbxIgnore (s : State) : State := s.inc Reg.MBX_REFUSED_count 0

/-! ## Messages (R431 to R434) -/

/-- The header word (Table MB-2). -/
def msgHdr (sender epoch count : Nat) : Nat := sender * 65536 + 32768 + epoch * 16 + count

/-- The body of a CTL MBX frame (Table MB-4). -/
def ctlMbx (op chan status count hdr : Nat) (words : List Nat) : List Byte :=
  [BitVec.ofNat 8 op, BitVec.ofNat 8 chan, BitVec.ofNat 8 status, BitVec.ofNat 8 count] ++ beBytes 4 hdr ++
  words.flatMap (fun w => beBytes 4 w)

/-- Send a CTL frame of type MBX on an up link. -/
def State.sendMbx (s : State) (sl : Nat) (seq : Option Nat) (body : List Byte) : State :=
  if s.flag Reg.TLK_STATUS_link sl then s.sendCtl sl 0x02 seq body else s

/-- The words of the message a channel holds. -/
def State.mbxWords (s : State) (c : Nat) : List Nat :=
  (List.range (s.get Reg.MBX_CH_RX_HDR_hdr c % 16)).map (fun k => s.get Reg.MBX_CH_RX_DATA_word (8 * c + k))

/-- Ring the doorbell of a channel (R433). The level of `BMC_ALERT_N` follows FULL. -/
def State.doorbell (s : State) (c : Nat) : State :=
  let rx := s.get Reg.MBX_CH_CFG_rx c
  if rx = 1 ∨ rx = 2 then
    (if s.flag Reg.MBX_CH_IRQ_en c then s.raiseVec (rx - 1) (s.get Reg.MBX_CH_IRQ_vec c) else s)
  else if 0x8000 ≤ rx ∧ rx < 0x8040 then s.raiseEv (4096 + (rx - 0x8000)) 6
  else if 0xE000 ≤ rx ∧ rx < 0xE010 then
    let h := s.get Reg.MBX_CH_RX_HDR_hdr c
    s.sendMbx (rx - 0xE000) none (ctlMbx 3 c 0 (h % 16) h (s.mbxWords c))
  else s

/-- The class of a sender may post to the channel, which has a receiver. -/
def State.mbxTakes (s : State) (c sender : Nat) : Bool :=
  s.get Reg.MBX_CH_CFG_rx c != 0 &&
  (match senderClass sender with
   | some k => bit (s.get Reg.MBX_CH_CFG_tx_mask c) k
   | none => false)

/-- Store words in a field from an index. -/
def State.putWords (s : State) (f : Fld) : Nat → List Nat → State
  | _, [] => s
  | i, w :: ws => State.putWords (s.set f i w) f (i + 1) ws

/-- Remember a sender (R439). -/
def State.mbxSeen (s : State) (c sender : Nat) : State :=
  let l := SM.get [] s.mbxSnd c
  if l.contains sender then s else { s with mbxSnd := SM.put [] s.mbxSnd c (l ++ [sender]) }

/-- Take a message into a channel and ring its doorbell (R431, R433). -/
def State.mbxTake (s : State) (c sender : Nat) (words : List Nat) : State :=
  let s := s.putWords Reg.MBX_CH_RX_DATA_word (8 * c) words
  let s := s.set Reg.MBX_CH_RX_HDR_hdr c (msgHdr sender (s.get Reg.MBX_CH_STATUS_sender_epoch c) words.length)
  ((((s.put Reg.MBX_CH_STATUS_full c true).mbxSeen c sender).put Reg.MBS_owed c false).pmu 15 1 1).doorbell c

/-- Post a message: 0 posted, 1 FULL, 2 refused (R431, Table MB-3). -/
def State.mbxPost (s : State) (c sender : Nat) (words : List Nat) : Nat × State :=
  if 32 ≤ c then (2, s.pmu 15 3 1)
  else if s.flag Reg.MBX_CH_STATUS_full c then (1, s.pmu 15 3 1)
  else if words.length = 0 ∨ 8 < words.length ∨ s.mbxTakes c sender = false then (2, s.pmu 15 3 1)
  else (0, s.mbxTake c sender words)

/-- Clear FULL; the data is undefined then (R434; log entry 1). -/
def State.mbxEmpty (s : State) (c : Nat) : State :=
  let s := forEach (List.range 8) (fun k t => (t.fresh.2).set Reg.MBX_CH_RX_DATA_word (8 * c + k) t.fresh.1) s
  (s.set Reg.MBX_CH_RX_HDR_hdr c 0).put Reg.MBX_CH_STATUS_full c false

/-- Pop a channel. -/
def State.mbxPop (s : State) (c : Nat) : State := (s.mbxEmpty c).pmu 15 2 1

/-- Clear the staging of a channel. -/
def State.mbxUnstage (s : State) (c : Nat) : State := s.putWords Reg.MBX_CH_TX_word (8 * c) (List.replicate 8 0)

/-! ## Locks (R436 to R438) -/

/-- Free a lock, with the staging of its channel. -/
def State.lockFree (s : State) (n : Nat) : State :=
  let s := s.set Reg.MBX_LOCK_owner n 0
  if n < 32 then s.mbxUnstage n else s

/-- A read of a lock by an owner number: the value read, and the state after. -/
def State.lockRead (s : State) (n o : Nat) : Nat × State :=
  if s.get Reg.MBX_LOCK_owner n = 0 then (0, s.set Reg.MBX_LOCK_owner n o) else (s.get Reg.MBX_LOCK_owner n, s)

/-! ## Resets (R438 to R440, R446) -/

/-- A sender of a channel is reset: the epoch moves on, and its message may be purged. -/
def State.mbxSenderAt (s : State) (c o : Nat) : State :=
  if (SM.get [] s.mbxSnd c).contains o then
    let s := { s with mbxSnd := SM.put [] s.mbxSnd c [] }
    let s := s.inc Reg.MBX_CH_STATUS_sender_epoch c
    if s.flag Reg.MBX_CH_STATUS_full c && s.flag Reg.MBX_CH_CFG_purge c && s.get Reg.MBX_CH_RX_HDR_hdr c / 65536 == o then
      (s.mbxEmpty c).put Reg.MBX_CH_STATUS_purged c true
    else s
  else s

/-- A master is reset: its locks are freed with what it staged, and it is reset as a sender of every channel. -/
def State.mbxReset (s : State) (o : Nat) : State :=
  let s := forEach (s.having Reg.MBX_LOCK_owner o) (fun n t => t.lockFree n) s
  forEach (List.range 32) (fun c t => t.mbxSenderAt c o) s

/-- Channels with a message for a receiver. -/
def State.mbxFor (s : State) (o : Nat) : List Nat :=
  (List.range 32).filter (fun c => s.flag Reg.MBX_CH_STATUS_full c && s.get Reg.MBX_CH_CFG_rx c == o)

/-- A receiver is reset: its doorbells are owed (R440). -/
def State.mbxOwe (s : State) (o : Nat) : State := forEach (s.mbxFor o) (fun c t => t.put Reg.MBS_owed c true) s

/-- The receiver can take doorbells again: those owed are rung. -/
def State.mbxRing (s : State) (o : Nat) : State :=
  forEach (s.mbxFor o) (fun c t => if t.flag Reg.MBS_owed c then (t.put Reg.MBS_owed c false).doorbell c else t) s

/-- A tenant link comes up: DELIVER for every message its shell has to take (R433). -/
def State.mbxLinkUp (s : State) (sl : Nat) : State :=
  forEach (s.mbxFor (0xE000 + sl)) (fun c t => t.doorbell c) s

/-! ## PF–VF mailboxes (R444 to R446) -/

/-- A VF's place among those of its PF. -/
def vfIndex (g : Nat) : Nat := if g < 2050 then g - 2 else g - 2050

/-- The GFN of VF `v` of PF `h`. -/
def vfGfn (h v : Nat) : Nat := if h = 0 then 2 + v else 2050 + v

/-- Set or clear a VF's bit in `MBX_PV_PEND` of its PF. -/
def State.pvPend (s : State) (g : Nat) (b : Bool) : State :=
  let v := vfIndex g
  let i := 64 * pfOf g + v / 32
  s.set Reg.MBX_PV_PEND_pend i (setBits (s.get Reg.MBX_PV_PEND_pend i) (v % 32) 1 (b2n b))

/-- The up doorbell of a VF's PF. -/
def State.pvUpRing (s : State) (g : Nat) : State :=
  let h := pfOf g
  if s.flag Reg.MBX_PV_IRQ_en h then s.raiseVec h (s.get Reg.MBX_PV_IRQ_vec h) else s

/-- The down doorbell of a VF. -/
def State.pvDnRing (s : State) (g : Nat) : State :=
  if s.flag Reg.PVM_irq_en g then s.raiseVec g (s.get Reg.PVM_irq_vec g) else s

/-- Copy a field's eight words to another. -/
def State.copyWords (s : State) (src dst : Fld) (g n : Nat) : State :=
  s.putWords dst (8 * g) ((List.range n).map (fun k => s.get src (8 * g + k)))

/-- Fill eight words with free values (R434). -/
def State.loseWords (s : State) (f : Fld) (g : Nat) : State :=
  forEach (List.range 8) (fun k t => (t.fresh.2).set f (8 * g + k) t.fresh.1) s

/-- The up message is discarded. -/
def State.pvUpEmpty (s : State) (g : Nat) : State :=
  (((s.loseWords Reg.PVU_data g).set Reg.PVU_hdr g 0).put Reg.PVU_full g false).pvPend g false

/-- The down message is discarded. -/
def State.pvDnEmpty (s : State) (g : Nat) : State :=
  ((s.loseWords Reg.PVD_data g).set Reg.PVD_hdr g 0).put Reg.PVD_full g false

/-- The VF is reset: a sender reset of the up direction and a receiver reset of the down direction (R446). -/
def State.pvVfReset (s : State) (g : Nat) : State :=
  let s := s.putWords Reg.PVU_tx (8 * g) (List.replicate 8 0)
  let s := if s.flag Reg.PVU_rec g then
      let s := (s.put Reg.PVU_rec g false).inc Reg.PVU_epoch g
      if s.flag Reg.PVU_full g && s.flag Reg.PVU_purge g then s.pvUpEmpty g else s
    else s
  if s.flag Reg.PVD_full g then s.put Reg.PVD_owed g true else s

/-- The PF is reset: a sender reset of each down direction and a receiver reset of each up direction. -/
def State.pvPfReset (s : State) (h : Nat) : State :=
  let act := ((s.instances Reg.PVD_rec) ++ (s.instances Reg.PVU_full)).eraseDups.filter (fun g => isVfOf h g)
  forEach act (fun g t =>
    let t := t.putWords Reg.PVD_tx (8 * g) (List.replicate 8 0)
    let t := if t.flag Reg.PVD_rec g then
        let t := (t.put Reg.PVD_rec g false).inc Reg.PVD_epoch g
        if t.flag Reg.PVD_full g && t.flag Reg.PVD_purge g then t.pvDnEmpty g else t
      else t
    if t.flag Reg.PVU_full g then t.put Reg.PVU_owed g true else t) s

/-- The page of a VF that becomes ABSENT is cleared (R446). -/
def State.pvClear (s : State) (g : Nat) : State :=
  let z := List.replicate 8 0
  let s := ((s.putWords Reg.PVU_tx (8 * g) z).putWords Reg.PVU_data (8 * g) z).putWords Reg.PVD_tx (8 * g) z
  let s := s.putWords Reg.PVD_data (8 * g) z
  let s := forEach [Reg.PVU_hdr, Reg.PVU_full, Reg.PVU_txfull, Reg.PVU_epoch, Reg.PVU_rec, Reg.PVU_purge, Reg.PVU_owed,
    Reg.PVD_hdr, Reg.PVD_full, Reg.PVD_txfull, Reg.PVD_epoch, Reg.PVD_rec, Reg.PVD_purge, Reg.PVD_owed, Reg.PVM_irq_en,
    Reg.PVM_irq_vec] (fun f t => t.set f g 0) s
  s.pvPend g false

/-- MSI-X Enable of a function is set: the doorbells owed to it are rung (R440). -/
def State.pvRing (s : State) (g : Nat) : State :=
  if g < 2 then
    forEach ((s.having Reg.PVU_owed 1).filter (fun v => isVfOf g v)) (fun v t => (t.put Reg.PVU_owed v false).pvUpRing v) s
  else if s.flag Reg.PVD_owed g then (s.put Reg.PVD_owed g false).pvDnRing g else s

end Sys2Proof.Machine
end

