-- ==== Sys2Proof/Machine/PortOps.lean ====
section
/-! DEFINITION. Sys2Proof/Machine/PortOps.lean: pauses, links, slot outputs and the shell's request position (chapter
"Network Ports, Tenant Links and the Channel Tag"). -/

namespace Sys2Proof.Machine

/-- The ports and links run: the CORE domain is up and the device is in SERVICE or DATAPATH_IDLE, before a completion
seal (R55, Table FC-4). -/
def State.portsOn (s : State) : Bool := (s.dev == dsService || s.dev == dsIdle) && !s.flag Reg.PW_seal 0

/-! ## Links (R220, R221) -/

/-- Mode of a quad in the value of `MAC_NMODE.quad` (Table PT-2). -/
def quadMode (v q : Nat) : Nat := bits v (3 * q) 3

/-- A group is in use: a quad mode, an enabled tenant link, or pairing names one of its lanes. -/
def State.sdsUsed (s : State) (g : Nat) : Bool :=
  if g < 4 then quadMode (s.get Reg.MAC_NMODE_quad 0) g != 0
  else if g < 8 then (List.range 4).any (fun k => s.flag Reg.TLK_CFG_en (4 * (g - 4) + k))
  else g == 8 && s.get Reg.TWN_STATUS_state 0 != 0

/-- The group of MAC `m` (network port `m`, tenant link `m` - 16, W0 32). -/
def sdsOf (m : Nat) : Nat := if m < 32 then m / 4 else 8

/-- The lanes of the MAC's group are calibrated (R503). -/
def State.sdsReady (s : State) (m : Nat) : Bool := s.sdsUsed (sdsOf m) && bit (s.get Reg.SDS_cal 0) (sdsOf m)

/-- A group that leaves use is powered down: it has to be calibrated again. -/
def State.sdsTidy (s : State) : State :=
  s.set Reg.SDS_cal 0 ((List.range 9).foldl (fun a g => if s.sdsUsed g && bit (s.get Reg.SDS_cal 0) g then a + 2 ^ g else a) 0)

/-- Rate of a network port in Gb/s (Table PT-2). -/
def State.netRate (s : State) (n : Nat) : Nat :=
  [100, 100, 200, 400, 800, 1600].getD (bits (s.get Reg.MAC_NMODE_quad 0) (3 * (n / 4)) 3) 100

/-- Rate of a tenant link in Gb/s (R221). -/
def State.linkRate (s : State) (n : Nat) : Nat := if s.flag Reg.TLK_STATUS_split n then 200 else 400

/-- The rate of an external port. -/
def State.portRate (s : State) (id : Nat) : Nat := if id < 16 then s.netRate id else s.linkRate (linkOf id)

/-- Nanoseconds of a pause time in quanta of 512 bit times, rounded up. -/
def pauseNs (rate q : Nat) : Nat := (512 * q + rate - 1) / rate

/-- The slot's request position is free again, and a read-back that waits takes it. -/
def State.shlFree (s : State) (sl : Nat) : State :=
  (((s.put Reg.SHL_CMD_busy sl false).put Reg.SHL_CMD_go sl false).put Reg.SHL_CMD_dma sl false).set Reg.SHX_dma sl 0

/-- The outstanding request of a slot ends without a response: 1 TIMEOUT, 2 LINK_DOWN (R246, R373). -/
def State.shlEnd (s : State) (sl res : Nat) : State :=
  if !s.flag Reg.SHL_CMD_busy sl then s
  else
    let d := s.get Reg.SHX_dma sl
    let s := s.shlFree sl
    if d = 0 then (s.set Reg.SHL_CMD_result sl res).shlKick sl
    else if d ≤ 1024 ∧ s.chState (d - 1) = chReadback then (s.dmaEnd (d - 1) 0x67).shlKick sl
    else s.shlKick sl

/-- The channels whose runs into a slot's shell space are not over: frames unsent, or a read-back to come. -/
def State.shellRuns (s : State) (sl : Nat) : List Nat :=
  (List.range 1024).filter (fun c => s.unsent c && shellSlot (s.get Reg.DMX_dst c) == sl || s.shellRb c sl)

/-- A tenant link goes down (R221, R246, R247). -/
def State.tlinkDown (s : State) (n : Nat) : State :=
  if !s.flag Reg.TLK_STATUS_link n then s
  else
    let s := ((s.put Reg.TLK_STATUS_link n false).put Reg.TLK_STATUS_link_chg n true).set Reg.TLK_STATUS_credit n 0
    let s := ({ s with ctlq := SM.del s.ctlq (16 + n) }).shlEnd n 2
    forEach (s.shellRuns n) (fun c t => t.dmaCut c 0x67) s

/-- A network port's link goes down. -/
def State.nlinkDown (s : State) (n : Nat) : State :=
  if s.flag Reg.MAC_NPORT_STATUS_link n then
    ({ s with ctlq := SM.del s.ctlq n }.put Reg.MAC_NPORT_STATUS_link n false).put Reg.MAC_NPORT_STATUS_link_chg n true
  else s

/-- The link of MAC `m` goes down. -/
def State.linkDown (s : State) (m : Nat) : State := if m < 16 then s.nlinkDown m else s.tlinkDown (m - 16)

/-- What an up link or port hears while its MAC admits nothing is counted as an ingress drop: on a tenant link, whose CTL
frames have no port of their own, in the block of channel 0 (R26, Table PT-4; DESIGN CHOICE, log entry 19). -/
def State.linkDrop (s : State) (n : Nat) : State :=
  if s.portsOn && s.flag Reg.TLK_STATUS_link n then (s.cnt (0x100 + 64 * n) cRxDropBuf 1).pmu 19 2 1 else s

def State.netDrop (s : State) (n : Nat) : State :=
  if s.portsOn && s.portUp n then (s.cnt n cRxDropBuf 1).pmu 19 2 1 else s

/-- Frames are received on an up link while the ingress MACs admit them (R26, Table PT-4; log entry 19). -/
def State.linkHears (s : State) (n : Nat) : Bool := s.open_ && s.flag Reg.TLK_STATUS_link n

/-- As `linkHears`, for a network port. -/
def State.netHears (s : State) (n : Nat) : Bool := s.open_ && s.portUp n

/-! ## Pauses received (R229, R234, R235, R237) -/

/-- A pause holds the port: index ranges of `PT_paused`. -/
def State.anyPause (s : State) (id : Nat) : Bool :=
  if id < 16 then s.flag Reg.MAC_NPORT_STATUS_tx_paused id || s.get Reg.MAC_NPORT_STATUS_pfc_paused id != 0
  else s.flag Reg.TLK_CH_CFG_paused (id - 0x100)

/-- The time paused that a port's counter does not hold yet (R237). -/
def State.pausedDue (s : State) (id : Nat) : Nat := if s.flag Reg.PT_held id then s.clk - s.get Reg.PT_psince id else 0

/-- Counter `k` of a port's block as a read gives it: an ID that names no port reads zero (R215), and `paused_ns` runs while
a pause holds the port (R237, R239). -/
def State.cntVal (s : State) (id k : Nat) : Nat :=
  if !isExt id || (decide (id < 16) && !s.netPresent id) then 0
  else (s.get Reg.MAC_CNT_cnt (32 * id + k) + (if k = cPausedNs then s.pausedDue id else 0)) % 2 ^ 64

/-- Count the paused time of a port up to now (R237). -/
def State.countPaused (s : State) (id : Nat) : State :=
  let s := if s.flag Reg.PT_held id then s.cnt id cPausedNs (s.pausedDue id) else s
  (s.put Reg.PT_held id (s.anyPause id)).set Reg.PT_psince id (if s.anyPause id then s.clk else 0)

/-- Set or clear a network port's pause, `p` 8, or the pause of a priority. -/
def State.netPause (s : State) (n p ns : Nat) : State :=
  let on := ns != 0
  let s := s.set Reg.PT_paused (16 * n + p) (if on then s.clk + ns else 0)
  let s := if p = 8 then s.put Reg.MAC_NPORT_STATUS_tx_paused n on
    else s.set Reg.MAC_NPORT_STATUS_pfc_paused n (setBits (s.get Reg.MAC_NPORT_STATUS_pfc_paused n) p 1 (b2n on))
  s.countPaused n

/-- Set or clear a channel's pause. -/
def State.chPause (s : State) (id ns : Nat) : State :=
  let on := ns != 0
  let s := s.set Reg.PT_paused (4096 + (id - 0x100)) (if on then s.clk + ns else 0)
  (s.put Reg.TLK_CH_CFG_paused (id - 0x100) on).countPaused id

/-- A CHPAUSE received on a link (R229). -/
def State.rxChpause (s : State) (n mask time : Nat) : State :=
  forEach (bitsSet mask 64) (fun c t =>
    let id := 0x100 + 64 * n + c
    (t.chPause id (pauseNs (t.linkRate n) time)).cnt id cRxPause 1) s

/-- A PAUSE frame received on a network port (R234, R235). -/
def State.rxPause (s : State) (n time : Nat) : State :=
  if s.get Reg.MAC_NPORT_FC_fc_mode n = 1 then (s.netPause n 8 (pauseNs (s.netRate n) time)).cnt n cRxPause 1
  else s.cnt n cRxPauseIgn 1

/-- A PFC frame received on a network port (R235): its vector and times. -/
def State.rxPfc (s : State) (n vec : Nat) (times : List Nat) : State :=
  let s := forEach (bitsSet vec 8) (fun i t => t.cnt n (cRxPfc + i) 1) s
  if s.get Reg.MAC_NPORT_FC_fc_mode n = 2 then
    (forEach (bitsSet vec 8) (fun i t => t.netPause n i (pauseNs (t.netRate n) (times.getD i 0))) s).cnt n cRxPause 1
  else s.cnt n cRxPauseIgn 1

/-- A MGMT_RSP received on a slot's link (R246, R373); data of `n` bytes is a big-endian number in the first `n` bytes
of its field (DEDUCED from the wire order of Table PT-5, log entry 13). -/
def State.rxMgmt (s : State) (sl seq status : Nat) (data : List Byte) : State :=
  if s.flag Reg.SHL_CMD_busy sl && s.get Reg.CTL_seq sl % 256 == seq then
    let d := s.get Reg.SHX_dma sl
    let s := s.shlFree sl
    if d = 0 then
      let s := (s.set Reg.SHL_CMD_status sl status).set Reg.SHL_CMD_result sl 0
      let s := if s.flag Reg.SHL_CMD_wr sl then s else s.set Reg.SHL_DATA_data sl (beNat (padTo (s.get Reg.SHL_CMD_len sl + 1) data))
      s.shlKick sl
    else if d ≤ 1024 ∧ s.chState (d - 1) = chReadback then
      (s.dmaEnd (d - 1) (if status = 0 then s.get Reg.DMX_res (d - 1) else 0x67)).shlKick sl
    else s.shlKick sl
  else s.lcnt sl lMgmtLate

/-- CREDIT received on a slot's link (R247). -/
def State.rxCredit (s : State) (sl kib : Nat) : State :=
  (s.set Reg.TLK_STATUS_credit sl (s.get Reg.TLK_STATUS_credit sl + kib)).bulkKick sl

/-! ## Slots (R240 to R243) -/

/-- `SLOT_RST_N` may be high: only in SERVICE or DATAPATH_IDLE. -/
def State.slotLive (s : State) : Bool := s.portsOn

/-- Drive `SLOT_RST_N`; the link is down while it is low (R221), and its fall resets the shell as a master of the
mailboxes (Table MB-5). -/
def State.slotRst (s : State) (sl : Nat) (b : Bool) : State :=
  if b then (if s.slotLive then s.put Reg.SB_STATUS_rst_n sl true else s)
  else
    let s := if s.flag Reg.SB_STATUS_rst_n sl then s.mbxReset (0xE000 + sl) else s
    (s.put Reg.SB_STATUS_rst_n sl false).tlinkDown sl

/-- Begin or end a slot sequence; `busy` follows. -/
def State.slotSeq (s : State) (sl q : Nat) : State := (s.set Reg.SBX_seq sl q).put Reg.SB_STATUS_busy sl (q != 0)

/-- This device drives the outputs of the slot (R472). -/
def State.slotDriven (s : State) (sl : Nat) : Bool := bit (s.get Reg.TWN_SBMASK_drive 0) sl

/-- `SB_STATUS.refused`. -/
def State.slotRefuse (s : State) (sl : Nat) : State := s.put Reg.SB_STATUS_refused sl true

/-- A fault or removal falls in the present tick: a command that falls in it too is refused (R243; log entry 13). -/
def State.slotHit (s : State) (sl : Nat) : State := s.set Reg.SBX_hit sl (s.clk + 1)

/-- Power a slot off as by POWER_OFF; a sequence in progress stops (R242). -/
def State.slotOff (s : State) (sl : Nat) : State := (s.slotRst sl false).slotSeq sl 4

/-- The accessor's writes to the SB registers are taken: the BMC's in every state but OFF (R243). -/
def State.sbOpen (s : State) (w : Who) : Bool :=
  match w with
  | .bmc => s.dev != 0
  | w => s.mayWrite w

end Sys2Proof.Machine
end

