-- ==== Sys2Proof/Machine/SchedOps.lean ====
section
/-! DEFINITION. Sys2Proof/Machine/SchedOps.lean: node records, buckets, deficit round robin, time gates and what lets a
frame leave (chapter "Policing, Shaping, Scheduling and Time Gates"). -/

namespace Sys2Proof.Machine

/-! ## Nodes (Table SH-2) -/

/-- A port ID of level 0 (Table SH-1). -/
def schPort (id : Nat) : Bool := isExt id || id == 0x020 || id == 0x021

/-- The index exists at its level (Table SH-1). -/
def nodeExists (lv i : Nat) : Bool :=
  if lv = 0 then schPort i else decide (i < [0, 16384, 65536, 262144].getD lv 0)

/-- The parent of a node: a port ID at level 1. -/
def State.parentOf (s : State) (lv i : Nat) : Nat :=
  let p := s.get Reg.ND_parent (ndix lv i)
  if lv = 1 then bits p 0 11 else p

/-- Valid children of a node. -/
def State.childrenOf (s : State) (lv i : Nat) : List Nat :=
  ((s.having Reg.ND_valid 1).filter (fun k => k / 2 ^ 18 == lv + 1 && s.parentOf (lv + 1) (k % 2 ^ 18) == i)).map (fun k =>
    k % 2 ^ 18)

/-- A record as bytes, in the layout of a read. -/
def State.nodeRec (s : State) (lv i : Nat) : List Byte :=
  let g := fun f => s.get f (ndix lv i)
  leBytes 3 (g Reg.ND_parent) ++ leBytes 1 (g Reg.ND_prio + 128 * g Reg.ND_valid) ++ leBytes 1 (g Reg.ND_weight) ++
  leBytes 1 (2 * g Reg.ND_smp) ++ leBytes 2 (g Reg.ND_owner) ++ leBytes 4 (g Reg.ND_cir) ++ leBytes 4 (g Reg.ND_pir) ++
  leBytes 2 (g Reg.ND_cbs) ++ leBytes 2 (g Reg.ND_pbs) ++ leBytes 2 (g Reg.ND_qlim) ++ leBytes 2 0 ++
  leBytes 3 (g Reg.ND_rxq) ++ leBytes 1 0 ++ leBytes 4 (min (g Reg.ND_depth) 0xFFFFFFFF)

def ndParent (r : List Byte) : Nat := bits (leAt r 0 3) 0 18
def ndPrio (r : List Byte) : Nat := bits (byteAt r 3) 0 3
def ndValid (r : List Byte) : Bool := bit (byteAt r 3) 7
def ndWeight (r : List Byte) : Nat := byteAt r 4
def ndTokrst (r : List Byte) : Bool := bit (byteAt r 5) 0
def ndOwner (r : List Byte) : Nat := bits (leAt r 6 2) 0 13
def ndCir (r : List Byte) : Nat := bits (leAt r 8 4) 0 21
def ndPir (r : List Byte) : Nat := bits (leAt r 12 4) 0 21
def ndCbs (r : List Byte) : Nat := leAt r 16 2
def ndPbs (r : List Byte) : Nat := leAt r 18 2
def ndRxq (r : List Byte) : Nat := bits (leAt r 24 3) 0 18

/-- Token counts are held with this offset, since they may go negative (R262). -/
def tokZero : Nat := 2 ^ 62

/-! ## Buckets (R262 to R264) -/

/-- Refill one bucket of a node. -/
def State.bucket (s : State) (tf af : Fld) (i rate burst dt : Nat) : State :=
  let acc := s.get af i + rate * dt
  let tok := s.get tf i + acc / 8000
  if tokZero + 64 * burst ≤ tok then (s.set tf i (tokZero + 64 * burst)).set af i 0
  else (s.set tf i tok).set af i (acc % 8000)

/-- Refill both buckets of a node by Meridian time; a negative elapsed time adds nothing (R263, R283). -/
def State.nodeRefill (s : State) (i : Nat) : State :=
  let last := s.get Reg.ND_last i
  let dt := if last ≤ s.now then s.now - last else 0
  let s := s.bucket Reg.ND_tc Reg.ND_ac i (s.get Reg.ND_cir i) (s.get Reg.ND_cbs i) dt
  let s := s.bucket Reg.ND_tp Reg.ND_ap i (s.get Reg.ND_pir i) (s.get Reg.ND_pbs i) dt
  s.set Reg.ND_last i s.now

/-- Class of a node: 0 committed, 1 excess, 2 ineligible (R262). -/
def State.nodeClass (s : State) (i : Nat) : Nat :=
  if s.get Reg.ND_cir i ≠ 0 ∧ tokZero < s.get Reg.ND_tc i then 0
  else if s.get Reg.ND_pir i = 0 ∨ tokZero < s.get Reg.ND_tp i then 1 else 2

/-! ## Time gates (R269 to R272) -/

/-- Index of entry `e` of a bank of a port's gate list. -/
def gateIx (port bank e : Nat) : Nat := ((2 * port + bank) * 1024 + e) * 8

/-- Interval and gates of an entry (Table SH-3). -/
def State.gateEntry (s : State) (port bank e : Nat) : Nat × Nat :=
  let b := s.area Reg.SCH_GATE_ENTRY_byte (gateIx port bank e) 5
  (leAt b 0 4, byteAt b 4)

/-- The segments of a cycle, as length and gates: entries in order, the last held to the end of the cycle, all cut
off there (R269). -/
def gateSegs : List (Nat × Nat) → Nat → List (Nat × Nat)
  | [], _ => []
  | (n, g) :: l, left =>
    if left = 0 then []
    else if l.isEmpty || decide (left ≤ n) then [(left, g)]
    else (n, g) :: gateSegs l (left - n)

/-- The segments of a bank with `len` entries and cycle `c`. -/
def State.bankSegs (s : State) (port bank len c : Nat) : List (Nat × Nat) :=
  gateSegs ((List.range len).map (fun e => s.gateEntry port bank e)) c

/-- Gates at a place of a cycle, and the nanoseconds until they may change. -/
def gateAt : List (Nat × Nat) → Nat → Nat × Nat
  | [], _ => (255, 1)
  | (n, g) :: l, p => if p < n then (g, n - p) else gateAt l (p - n)

/-- The nanoseconds from `b` to `t`, modulo 2^64. -/
def since (t b : Nat) : Nat := (t + 2 ^ 64 - b % 2 ^ 64) % 2 ^ 64

/-- Gates of a port at a time and how long they stay: the list in force, and the pending list from its take-over
onwards. -/
def State.gatesAt (s : State) (port t : Nat) : Nat × Nat :=
  let pend := s.flag Reg.SCH_GATE_STATUS_pending port
  let tk := widen48 s.now (s.get Reg.GTX_base port)
  let bank := s.get Reg.GTX_bank port
  if pend && reached64 t tk then
    let c := s.get Reg.GTX_cycle port
    gateAt (s.bankSegs port bank (s.get Reg.GTX_len (2 * port + bank)) c) (since t tk % max c 1)
  else
    let (g, n) := if s.flag Reg.SCH_GATE_STATUS_active_valid port then
        let c := s.get Reg.SCH_GATE_OPER_CYCLE_cycle port
        gateAt (s.bankSegs port (s.get Reg.SCH_GATE_STATUS_active_bank port) (s.get Reg.GTX_opl port) c)
          (since t (s.get Reg.GTX_now port) % max c 1)
      else (255, 2 ^ 32)
    (g, if pend then min n (since tk t) else n)

/-- Gate `i` stays open from time `t` for `need` nanoseconds. -/
def gateHolds (s : State) (port i : Nat) : Nat → Nat → Nat → Bool
  | 0, _, need => need == 0
  | n + 1, t, need =>
    let (g, k) := s.gatesAt port t
    bit g i && (decide (need ≤ k) || gateHolds s port i n (t + max k 1) (need - max k 1))

/-- The longest run of segments with gate `i` open. -/
def openRun (i : Nat) (l : List (Nat × Nat)) : Nat :=
  (l.foldl (fun (p : Nat × Nat) e => let r := if bit e.2 i then p.1 + e.1 else 0; (r, max p.2 r)) (0, 0)).2

/-- A transmission time exceeds the longest continuous open time of its gate in the list in force (R271). -/
def State.gateTooLong (s : State) (port i need : Nat) : Bool :=
  if s.flag Reg.SCH_GATE_STATUS_active_valid port then
    let l := s.bankSegs port (s.get Reg.SCH_GATE_STATUS_active_bank port) (s.get Reg.GTX_opl port)
      (s.get Reg.SCH_GATE_OPER_CYCLE_cycle port)
    !(l.all (fun e => bit e.2 i)) && decide (openRun i (l ++ l) < need)
  else false

/-! ## Lengths (R260) -/

/-- The frame carries a channel tag of its own (R224). -/
def ownTag (bs : List Byte) : Bool := beAt bs 12 2 == 0x88B5

/-- Bytes on the wire with FCS and, on a tenant port, the channel tag. -/
def wireLen (port : Nat) (bs : List Byte) : Nat :=
  bs.length + 4 + (if 0x100 ≤ port && !ownTag bs then 8 else 0)

/-- Scheduling length of a frame at a port (R260). -/
def State.schedLen (s : State) (port : Nat) (bs : List Byte) : Nat := wireLen port bs + s.get Reg.ND_qlim (ndix 0 port)

/-- Nanoseconds that a frame's scheduling length takes to cross an external port's time-stamp point at the port's rate.
A host port has no such point (R220), so its gate need only be open at the selection (log entry 45). -/
def State.txNs (s : State) (port : Nat) (bs : List Byte) : Nat :=
  if isExt port then (8 * s.schedLen port bs + s.portRate port - 1) / s.portRate port else 0

/-! ## When a frame may leave (R266 to R268) -/

/-- The device runs in EXACT (profile 2). -/
def State.exact (s : State) : Bool := s.get Reg.GLB_PROFILE_profile 0 == 2

/-- `tx_comp` of an external port, signed. -/
def State.txComp (s : State) (port : Nat) : Int :=
  if port < 16 then sgn16 (s.get Reg.MAC_NPORT_TSCOMP_tx_comp port) else sgn16 (s.get Reg.TLK_TSCOMP_tx_comp (linkOf port))

/-- The time a frame is due in EXACT, in quarter nanoseconds of departure (R268): 2,200 ns after its arrival, or its launch
time where that is later by the signed rule of R285. -/
def exactDue (x : Frame) : Nat :=
  let d := x.arrq + 8800
  if x.launch = 0 ∨ reached48 (d / 4) x.launch = true then d % 2 ^ 66 else 4 * widen48 (d / 4) x.launch

/-- Quarter nanosecond `a` has been reached at `t`, by the signed difference of R285 (2^47 ns are 2^49 quarters). -/
def reachedQ (t a : Nat) : Bool :=
  let d := (a % 2 ^ 50 + 2 ^ 50 - t % 2 ^ 50) % 2 ^ 50
  d == 0 || decide (2 ^ 49 ≤ d)

/-- The departure time of a frame sent now, in quarter nanoseconds. -/
def State.departQ (s : State) (port : Nat) : Nat := (((4 * s.now : Nat) + s.txComp port) % 2 ^ 66).toNat

/-- The frame's launch time, if it has one, has been reached (R266). -/
def State.launched (s : State) (x : Frame) : Bool := x.launch == 0 || reached48 s.now x.launch

/-- In EXACT, the frame's hold time has been reached. -/
def State.exactHeld (s : State) (port : Nat) (x : Frame) : Bool :=
  s.exact && isExt port && !reachedQ (s.departQ port + 3) (exactDue x)

/-- A pause stops the port priority or the channel (R229, R234, R235). -/
def State.pausedAt (s : State) (port prio : Nat) : Bool :=
  if port < 16 then s.flag Reg.MAC_NPORT_STATUS_tx_paused port || bit (s.get Reg.MAC_NPORT_STATUS_pfc_paused port) prio
  else if 0x100 ≤ port then s.flag Reg.TLK_CH_CFG_paused (port - 0x100) else false

/-- The gate of a port priority is open now and long enough (R271). -/
def State.gateOk (s : State) (port prio : Nat) (bs : List Byte) : Bool :=
  gateHolds s port prio (s.txNs port bs + 1) s.now (s.txNs port bs)

/-- The first accepted, offered buffer of an RX queue that is not full of another frame's end (R70). -/
def State.rxBuffer (s : State) (q : Nat) : Option Ent :=
  (s.entsOf q).find? (fun e => e.done.isNone && !e.mirr && e.way)

/-- An RX queue holds an accepted buffer (R266). -/
def State.rxReady (s : State) (q : Nat) : Bool := (s.rxBuffer q).isSome && !s.fnHeld (s.qOwner q)

/-- The leaf's head frame. -/
def State.headOf (s : State) (l : Nat) : Option Nat := (SM.get [] s.leafq l).head?

/-- Priority of a leaf's frames at its port: the `prio` of its level-1 ancestor. -/
def State.portPrio (s : State) (l : Nat) : Nat := s.get Reg.ND_prio (ndix 1 (s.leafPath l).2.1)

/-- The head frame of a leaf is eligible (R266). -/
def State.headOk (s : State) (l : Nat) : Bool :=
  match s.headOf l with
  | none => false
  | some f =>
    let x := s.frame f
    let p := (s.leafPath l).2.2
    let pr := s.portPrio l
    s.launched x && !s.exactHeld p x && !s.pausedAt p pr && s.gateOk p pr x.bytes &&
    (isExt p || s.rxReady (s.get Reg.ND_rxq (ndix 3 l)))

/-! ## Selection (R258 to R261) -/

/-- The leaves that hold frames, with their ports. -/
def State.busyLeaves (s : State) : List Nat := (s.leafq.filter (fun e => !e.2.isEmpty)).map (fun e => e.1)

/-- Level-0 nodes of a MAC: a network port, the 64 ports of a link, or a host port. -/
def macPorts (m : Nat) : List Nat :=
  if m < 16 then [m] else if m < 32 then (List.range 64).map (fun c => 0x100 + 64 * (m - 16) + c) else [0x020 + (m - 32)]

/-- A candidate: a leaf with its path, whose every node is in a class. -/
structure Cand where
  leaf : Nat
  n2 : Nat
  n1 : Nat
  port : Nat
  len : Nat
deriving DecidableEq, Repr

/-- Refill every node above a leaf. -/
def State.refillPath (s : State) (l : Nat) : State :=
  let (a, b, p) := s.leafPath l
  forEach [ndix 3 l, ndix 2 a, ndix 1 b, ndix 0 p] (fun i t => t.nodeRefill i) s

/-- The leaf as a candidate. -/
def State.candOf (s : State) (l : Nat) : Option Cand :=
  let (a, b, p) := s.leafPath l
  match s.headOf l with
  | some f =>
    if s.headOk l && [ndix 3 l, ndix 2 a, ndix 1 b, ndix 0 p].all (fun i => s.nodeClass i != 2) then
      some ⟨l, a, b, p, s.schedLen p (s.frame f).bytes⟩
    else none
  | none => none

/-- The children that compete at a node: the highest priority, and within it the committed class before the excess
class; with the priority and class (R259). -/
def State.compete (s : State) (lv : Nat) (prios : Bool) (l : List Nat) : List Nat × Nat × Nat :=
  let pr := fun c => if prios then s.get Reg.ND_prio (ndix lv c) else 0
  let top := (l.map pr).foldl max 0
  let l := l.filter (fun c => pr c == top)
  let com := l.filter (fun c => s.nodeClass (ndix lv c) == 0)
  if com.isEmpty then (l, top, 1) else (com, top, 0)

/-- Deficit round robin among competing children of a level (R260): child, and the state after. -/
def drr (lv ring : Nat) (len : Nat → State → Nat) (l : List Nat) : Nat → Nat → State → Option Nat × State
  | 0, _, s => (none, s)
  | n + 1, c, s =>
    let i := ndix lv c
    let d := s.get Reg.ND_def i
    if len c s ≤ d then (some c, (s.set Reg.ND_def i (d - len c s)).set Reg.ND_ring ring (c + 1))
    else drr lv ring len l n (rotNext l c) (s.set Reg.ND_def i (d + 256 * s.get Reg.ND_weight i))

/-- Rounds that any frame needs, for each child. -/
def drrFuel (l : List Nat) : Nat := 80 * l.length

/-- One child of a node at a level, by priority, class and round robin; the ring starts at its pointer. -/
def State.choose (s : State) (lv node : Nat) (prios : Bool) (len : Nat → State → Nat) (l : List Nat) : Option Nat × State :=
  let (c, pr, cl) := s.compete lv prios l
  let ring := 16 * node + 2 * pr + cl
  match c with
  | [] => (none, s)
  | _ => drr lv ring len c (drrFuel c) (rotAt c (s.get Reg.ND_ring ring - 1)) s

/-- The leaf a level-2 node selects. -/
def State.pick3 (s : State) (cs : List Cand) (a : Nat) : Option Nat × State :=
  let m := cs.filter (fun c => c.n2 == a)
  s.choose 3 (ndix 2 a) true (fun l _ => ((m.find? (fun c => c.leaf == l)).map (fun c => c.len)).getD 0)
    (m.map (fun c => c.leaf))

/-- Length of the frame that a selection yields. -/
def candLen (cs : List Cand) (r : Option Nat) : Nat :=
  match r with
  | some l => ((cs.find? (fun c => c.leaf == l)).map (fun c => c.len)).getD 0
  | none => 0

/-- The leaf a level-1 node selects: its head frame is what a selection below it would yield. -/
def State.pick2 (s : State) (cs : List Cand) (b : Nat) : Option Nat × State :=
  let m := cs.filter (fun c => c.n1 == b)
  match s.choose 2 (ndix 1 b) true (fun a t => candLen cs (t.pick3 m a).1) ((m.map (fun c => c.n2)).eraseDups) with
  | (some a, t) => t.pick3 m a
  | (none, t) => (none, t)

/-- The leaf a port selects. -/
def State.pick1 (s : State) (cs : List Cand) (p : Nat) : Option Nat × State :=
  let m := cs.filter (fun c => c.port == p)
  match s.choose 1 (ndix 0 p) true (fun b t => candLen cs (t.pick2 m b).1) ((m.map (fun c => c.n1)).eraseDups) with
  | (some b, t) => t.pick2 m b
  | (none, t) => (none, t)

/-- The leaf a MAC selects: on a tenant link the arbiter chooses the port first, without priorities (R258). -/
def State.pickMac (s : State) (cs : List Cand) (m : Nat) : Option Nat × State :=
  if 16 ≤ m ∧ m < 32 then
    match s.choose 0 (2 ^ 20 + (m - 16)) false (fun p t => candLen cs (t.pick1 cs p).1) ((cs.map (fun c => c.port)).eraseDups) with
    | (some p, t) => t.pick1 cs p
    | (none, t) => (none, t)
  else s.pick1 cs ((macPorts m).headD 0)

/-- Take the head frame off a leaf: the bytes queued above it fall, every count on its path is debited, a node that
empties loses its deficit, and a draining leaf that empties becomes invalid (R257, R261, R262). -/
def State.dequeue (s : State) (l : Nat) (debit : Bool) : State :=
  match s.headOf l with
  | none => s
  | some f =>
    let (a, b, p) := s.leafPath l
    let bs := (s.frame f).bytes
    let sl := s.schedLen p bs
    let s := { s with leafq := SM.put [] s.leafq l ((SM.get [] s.leafq l).drop 1) }
    let s := s.addDepth l (fun d => d - bs.length)
    let s := forEach [ndix 3 l, ndix 2 a, ndix 1 b, ndix 0 p] (fun i t =>
      if debit then (t.set Reg.ND_tc i (t.get Reg.ND_tc i - sl)).set Reg.ND_tp i (t.get Reg.ND_tp i - sl) else t) s
    (s.updFrame f (fun x => { x with from_ := l })).leafTidy l

/-- A head frame that is dropped where it stands: too long for its gate (R271), or its RX queue takes no frame (R267).
-/
def State.headDrop (s : State) (l : Nat) : Option State :=
  match s.headOf l with
  | none => none
  | some f =>
    let p := (s.leafPath l).2.2
    let bs := (s.frame f).bytes
    if isExt p then
      if s.gateTooLong p (s.portPrio l) (s.txNs p bs) then
        some (((s.dequeue l false).inc Reg.SCH_GATE_TOOLONG_count p).endFrame f stDropped)
      else none
    else
      let q := s.get Reg.ND_rxq (ndix 3 l)
      if s.qState q != qsActive && s.qState q != qsDormant then
        some (((s.dequeue l false).inc Reg.SCH_DROP_RXQ_count 0).endFrame f stDropped)
      else none

/-- Drop head frames of a leaf until one may stay. -/
def dropHeads (l : Nat) : Nat → State → State
  | 0, s => s
  | n + 1, s =>
    match s.headDrop l with
    | some t => dropHeads l n t
    | none => s

/-- Head frames that only their gate keeps back, counted when a selection meets them (Table PM-1). -/
def State.gateBlocked (s : State) (l : Nat) : Bool :=
  match s.headOf l with
  | none => false
  | some f => let p := (s.leafPath l).2.2; !s.gateOk p (s.portPrio l) (s.frame f).bytes

/-- A MAC asks for a frame: the leaf selected and the state after. -/
def State.select (s : State) (m : Nat) : Option Nat × State :=
  let ports := macPorts m
  let mine := s.busyLeaves.filter (fun l => ports.contains (s.leafPath l).2.2)
  let s := forEach mine (fun l t => dropHeads l ((SM.get [] t.leafq l).length) t) s
  let s := forEach mine (fun l t => t.refillPath l) s
  let s := s.pmu 10 4 (mine.filter s.gateBlocked).length
  s.pickMac (mine.filterMap s.candOf) m

end Sys2Proof.Machine
end

