-- ==== Sys2Proof/Machine/EgressOps.lean ====
section
/-! DEFINITION. Sys2Proof/Machine/EgressOps.lean: what an egress MAC does to a frame: channel tags (R224, R225), PTP
(R302 to R305), and the checks of R233. -/

namespace Sys2Proof.Machine

/-! ## Checksums -/

/-- Fold a sum of halfwords to 16 bits. -/
def fold16 : Nat → Nat → Nat
  | 0, x => x
  | n + 1, x => if x < 65536 then x else fold16 n (x / 65536 + x % 65536)

/-- Ones'-complement sum of big-endian halfwords; an odd byte is padded with zero. -/
def onesSum : List Byte → Nat
  | [] => 0
  | [a] => 256 * a.toNat
  | a :: b :: l => 256 * a.toNat + b.toNat + onesSum l

/-- A checksum after bytes of the data it covers changed from `old` to `new` at an even offset. -/
def csumUpdate (hc : Nat) (old new : List Byte) : Nat :=
  65535 - fold16 8 ((65535 - hc) + onesSum (old.map (fun b => ~~~ b)) + onesSum new)

/-! ## PTP (R303 to R305) -/

/-- Offset of the ethertype after the channel tag and at most two VLAN tags. -/
def etherOff (tenant : Bool) (bs : List Byte) : Nat :=
  let vl := fun o => beAt bs o 2 == 0x8100 || beAt bs o 2 == 0x88A8
  let o := if tenant && ownTag bs then 20 else 12
  if vl o then (if vl (o + 4) then o + 8 else o + 4) else o

/-- Where a recognised PTP message begins, and the offset of its UDP header with whether it is IPv4. -/
def ptpAt (tenant : Bool) (bs : List Byte) : Option (Nat × Option (Nat × Bool)) :=
  let o := etherOff tenant bs
  let ty := beAt bs o 2
  let l3 := o + 2
  let at_ : Option (Nat × Option (Nat × Bool)) :=
    if ty = 0x88F7 then some (l3, none)
    else if ty = 0x0800 ∧ byteAt bs l3 = 0x45 ∧ byteAt bs (l3 + 9) = 17 ∧ beAt bs (l3 + 22) 2 = 319 then
      some (l3 + 28, some (l3 + 20, true))
    else if ty = 0x86DD ∧ byteAt bs l3 / 16 = 6 ∧ byteAt bs (l3 + 6) = 17 ∧ beAt bs (l3 + 42) 2 = 319 then
      some (l3 + 48, some (l3 + 40, false))
    else none
  match at_ with
  | some (p, u) => if byteAt bs (p + 1) % 16 = 2 ∧ byteAt bs p % 16 ≤ 3 then some (p, u) else none
  | none => none

/-- A frame with the bytes of its PTP message from `o` replaced; the UDP checksum follows, and a zero IPv4 UDP checksum
stays zero (R304). -/
def ptpPut (bs : List Byte) (u : Option (Nat × Bool)) (o : Nat) (xs : List Byte) : List Byte :=
  let out := splice bs o xs
  match u with
  | none => out
  | some (d, v4) =>
    let hc := beAt bs (d + 6) 2
    if v4 && hc == 0 then out else splice out (d + 6) (beBytes 2 (csumUpdate hc (slice bs o xs.length) xs))

/-- Quarter nanoseconds as units of a correctionField. -/
def corrUnits (q : Int) : Int := q * 2 ^ 14

/-- A departure time as a PTP timestamp: seconds, nanoseconds (R302). -/
def ptpStamp (q : Nat) : List Byte := beBytes 6 (q / 4 / 1000000000) ++ beBytes 4 (q / 4 % 1000000000)

/-- The one-step operation on a recognised frame at a departure time in quarter nanoseconds (R304). -/
def oneStep (bs : List Byte) (p : Nat) (u : Option (Nat × Bool)) (q : Nat) : List Byte :=
  let corr := sgn64 (beAt bs (p + 8) 8)
  let wr := fun (b : List Byte) (c : Int) => ptpPut b u (p + 8) (beBytes 8 (c % 2 ^ 64).toNat)
  if byteAt bs p % 16 = 3 then
    let ts := 4 * (beAt bs (p + 34) 6 * 1000000000 + beAt bs (p + 40) 4)
    wr (ptpPut bs u (p + 34) (List.replicate 10 0#8)) (corr + corrUnits ((q : Int) - ts))
  else wr (ptpPut bs u (p + 34) (ptpStamp q)) (corr + corrUnits (q % 4 : Nat))

/-- A correctionField after adding a residence time; one that would overflow is set to its largest value (R305). -/
def tcAdd (bs : List Byte) (p : Nat) (u : Option (Nat × Bool)) (dq : Int) : List Byte :=
  let c := sgn64 (beAt bs (p + 8) 8) + corrUnits dq
  let v := if c < -(2 ^ 63) ∨ 2 ^ 63 ≤ c then 0x7FFFFFFFFFFFFFFF else (c % 2 ^ 64).toNat
  ptpPut bs u (p + 8) (beBytes 8 v)

/-! ## The channel tag at egress (R224, R225) -/

/-- The flags byte of an own tag at egress: TS and TRG kept. -/
def keepFlags (v : Nat) : Nat := v / 32 % 2 * 32 + v / 128 * 128

/-- The frame as it leaves on channel `c`: its own tag corrected, or a new one; with `ts`, TS is set and `aux` takes
the departure time, unless the tag has TRG. -/
def tagOut (c : Nat) (bs : List Byte) (ts : Bool) (ns : Nat) : List Byte :=
  let own := ownTag bs
  let fl := if own then keepFlags (byteAt bs 15) else 0
  let aux := if own then slice bs 16 4 else List.replicate 4 0#8
  let trg := fl / 32 % 2 == 1
  let (fl, aux) := if ts && !trg then (fl % 128 + 128, beBytes 4 (ns % 2 ^ 32)) else (fl, aux)
  bs.take 12 ++ [0x88#8, 0xB5#8, BitVec.ofNat 8 (64 + c), BitVec.ofNat 8 fl] ++ aux ++ bs.drop (if own then 20 else 12)

/-! ## Sending -/

/-- The frame as the MAC of an external port sends it, and the state after its counts. -/
def State.macOut (s : State) (port f : Nat) : List Byte × State :=
  let x := s.frame f
  let ten := decide (0x100 ≤ port)
  let q := s.departQ port
  let bs := x.bytes
  let pt := ptpAt ten bs
  let step := x.ts && s.flag Reg.MT_PTP_CFG_os_en port && pt.isSome
  let bs1 := match pt with
    | some (p, u) =>
      if step then oneStep bs p u q
      else if !x.ts && isExt x.src && (ten || decide (0x100 ≤ x.src)) && s.flag Reg.MT_PTP_CFG_tc_en port then
        tcAdd bs p u ((q : Int) - x.arrq)
      else bs
    | none => bs
  let s := if x.ts && !step then s.inc Reg.MT_PTP_MISS_count 0 else s
  let tsTag := ten && x.ts && !(ownTag bs && byteAt bs 15 / 32 % 2 == 1)
  let s := if step || tsTag then s.cnt port cTxTs 1 else s
  (if ten then tagOut (chanOf port) bs1 x.ts (q / 4) else bs1, s)

/-- The frame is dropped at egress: too long, its port down or absent, or an own tag with CTL (R224, R233). -/
def State.egressDrop (s : State) (port : Nat) (bs : List Byte) : Option (State → State) :=
  if decide (s.maxLen port < bs.length + 4) || !s.portUp port then some (fun t => t.cnt port cTxDrop 1)
  else if 0x100 ≤ port && ownTag bs && bit (byteAt bs 15) 6 then some (fun t => t.lcnt (linkOf port) lTxCtlDrop)
  else none

/-- A selected frame begins to leave an external port, or is dropped there; a frame for a host port goes to the receive
stage (R70, R233, R335). -/
def State.startTx (s : State) (m f port : Nat) : State :=
  if !isExt port then
    (s.set Reg.PT_tx (macIx m) (f + 1)).updFrame f (fun x => { x with stage := .sending port })
  else
    match s.egressDrop port (s.frame f).bytes with
    | some g => (g s).endFrame f stDropped
    | none =>
      let late := s.exact && !reachedQ (exactDue (s.frame f) + 8) (s.departQ port)
      let s := if late then s.cnt port cTxLate 1 else s
      let r := s.macOut port f
      let own := ownTag (s.frame f).bytes
      (r.2.set Reg.PT_tx (macIx m) (f + 1)).updFrame f (fun x => { x with
        bytes := r.1, stage := .sending port, tagged := if 0x100 ≤ port ∧ own = false then 8 else 0 })

end Sys2Proof.Machine
end

