-- ==== Sys2Proof/Machine/HdrOps.lean ====
section
/-! DEFINITION. Sys2Proof/Machine/HdrOps.lean: headers found in a frame (R336), checksums (R337), segmentation (R338)
and the outer header of a tunnel (R340 to R342). -/

namespace Sys2Proof.Machine

/-! ## Finding headers (R336) -/

/-- What R336 finds: the IP header, its family, the byte after it, the end of the IP length, the protocol that
follows, and the L4 header. -/
structure Hdrs where
  l3 : Nat
  v6 : Bool
  pay : Nat
  fin : Nat
  proto : Nat
  l4 : Option Nat
deriving DecidableEq, Repr

/-- The headers of a frame; a given `l3` or `l4` offset that is not 0 is used instead of what the ethertypes show, and
an IP header so given is told by its version (DEDUCED, log entry 18). -/
def findHdrs (bs : List Byte) (l3o l4o : Nat) : Option Hdrs :=
  let e := etherOff true bs
  let l3 := if l3o = 0 then e + 2 else l3o
  let fam := if l3o = 0 then (if beAt bs e 2 = 0x0800 then 4 else if beAt bs e 2 = 0x86DD then 6 else 0) else byteAt bs l3 / 16
  if fam = 4 then
    let pay := l3 + 4 * (byteAt bs l3 % 16)
    let fin := l3 + beAt bs (l3 + 2) 2
    if l3 + 20 ≤ pay ∧ pay ≤ fin ∧ fin ≤ bs.length then
      some ⟨l3, false, pay, fin, byteAt bs (l3 + 9), some (if l4o = 0 then pay else l4o)⟩
    else none
  else if fam = 6 then
    let pay := l3 + 40
    let fin := pay + beAt bs (l3 + 4) 2
    let nh := byteAt bs (l3 + 6)
    if fin ≤ bs.length then
      some ⟨l3, true, pay, fin, nh, if nh = 6 ∨ nh = 17 then some (if l4o = 0 then pay else l4o) else none⟩
    else none
  else none

/-- Bytes of the TCP or UDP header at an offset. -/
def l4Hdr (bs : List Byte) (proto l4 : Nat) : Nat := if proto = 6 then 4 * (byteAt bs (l4 + 12) / 16) else 8

/-- The L4 header of a protocol, where it lies wholly inside the IP length. -/
def Hdrs.l4Of (h : Hdrs) (bs : List Byte) (proto : Nat) : Option Nat :=
  match h.l4 with
  | some l4 =>
    let n := l4Hdr bs proto l4
    if h.proto = proto ∧ h.pay ≤ l4 ∧ (if proto = 6 then 20 else 8) ≤ n ∧ l4 + n ≤ h.fin then some l4 else none
  | none => none

/-! ## Checksums (R337) -/

/-- The ones' complement of a sum. -/
def csumOf (x : Nat) : Nat := 65535 - fold16 16 x

/-- Write the IPv4 header checksum at an IP header. -/
def setIpCsum (bs : List Byte) (l3 : Nat) : List Byte :=
  let b0 := splice bs (l3 + 10) [0#8, 0#8]
  splice b0 (l3 + 10) (beBytes 2 (csumOf (onesSum (slice b0 l3 (4 * (byteAt bs l3 % 16))))))

/-- Sum of the pseudo-header and the L4 segment. -/
def l4Sum (bs : List Byte) (h : Hdrs) (l4 : Nat) : Nat :=
  let addrs := if h.v6 then slice bs (h.l3 + 8) 32 else slice bs (h.l3 + 12) 8
  onesSum addrs + h.proto + (h.fin - l4) + onesSum (slice bs l4 (h.fin - l4))

/-- Offset of the checksum in a TCP or UDP header. -/
def csumOff (proto : Nat) : Nat := if proto = 6 then 16 else 6

/-- Write the TCP or UDP checksum; a UDP checksum of zero is written as 0xFFFF. -/
def setL4Csum (bs : List Byte) (h : Hdrs) (l4 : Nat) : List Byte :=
  let o := l4 + csumOff h.proto
  let b0 := splice bs o [0#8, 0#8]
  let c := csumOf (l4Sum b0 h l4)
  splice b0 o (beBytes 2 (if h.proto = 17 ∧ c = 0 then 0xFFFF else c))

/-- The IPv4 header checksum verifies. -/
def ipCsumOk (bs : List Byte) (l3 : Nat) : Bool := fold16 16 (onesSum (slice bs l3 (4 * (byteAt bs l3 % 16)))) == 65535

/-- The TCP or UDP checksum verifies. -/
def l4CsumOk (bs : List Byte) (h : Hdrs) (l4 : Nat) : Bool := fold16 16 (l4Sum bs h l4) == 65535

/-- Rewrite the lengths of an IP header for an IP datagram that ends at `fin`, and the IPv4 checksum. -/
def setIpLen (bs : List Byte) (h : Hdrs) (fin : Nat) : List Byte :=
  if h.v6 then splice bs (h.l3 + 4) (beBytes 2 (fin - h.l3 - 40))
  else setIpCsum (splice bs (h.l3 + 2) (beBytes 2 (fin - h.l3))) h.l3

/-! ## Segmentation (R338) -/

/-- One segment: the headers, adjusted for segment `k` of `n` whose payload begins at byte `at_` of the super-frame's,
and the piece. -/
def segFrame (bs : List Byte) (h : Hdrs) (l4 hl k n at_ : Nat) (piece : List Byte) : List Byte :=
  let b := bs.take (l4 + hl) ++ piece
  let fin := l4 + hl + piece.length
  let b := if h.v6 then b else splice b (h.l3 + 4) (beBytes 2 ((beAt bs (h.l3 + 4) 2 + k) % 65536))
  let b := setIpLen b h fin
  let b := if h.proto = 6 then
      let fl := byteAt bs (l4 + 13)
      let fl := if k + 1 = n then fl else setBits (setBits fl 0 1 0) 3 1 0
      let fl := if k = 0 then fl else setBits fl 7 1 0
      splice (splice b (l4 + 4) (beBytes 4 ((beAt bs (l4 + 4) 4 + at_) % 2 ^ 32))) (l4 + 13) [BitVec.ofNat 8 fl]
    else splice b (l4 + 4) (beBytes 2 (8 + piece.length))
  setL4Csum b { h with fin := fin } l4

/-- The segments, pieces cut at `mss` bytes; one frame where the payload is no longer. -/
def segPieces (bs : List Byte) (h : Hdrs) (l4 hl n mss : Nat) : Nat → List (List Byte) → List (List Byte)
  | _, [] => []
  | k, p :: ps => segFrame bs h l4 hl k n (k * mss) p :: segPieces bs h l4 hl n mss (k + 1) ps

/-- The segments of a super-frame. -/
def segCut (bs : List Byte) (h : Hdrs) (l4 mss : Nat) : List (List Byte) :=
  let hl := l4Hdr bs h.proto l4
  let payload := slice bs (l4 + hl) (h.fin - (l4 + hl))
  let ps := if payload.isEmpty then [[]] else chunks mss payload
  segPieces bs h l4 hl ps.length mss 0 ps

/-! ## Tunnel templates (Table OF-6, R340, R341) -/

def tmType (t : List Byte) : Nat := bits (byteAt t 0) 0 2
def tmV6 (t : List Byte) : Bool := bit (byteAt t 0) 2
def tmUcsum (t : List Byte) : Bool := bit (byteAt t 0) 3
def tmHlen (t : List Byte) : Nat := bits (byteAt t 1) 0 7
def tmL3 (t : List Byte) : Nat := bits (byteAt t 2) 0 7
def tmBase (t : List Byte) : Nat := leAt t 4 2
def tmMask (t : List Byte) : Nat := leAt t 6 2
def tmOwner (t : List Byte) : Nat := bits (leAt t 8 2) 0 13

/-- Bytes of the outer IP header of a template. -/
def tmIpLen (t : List Byte) : Nat := if tmV6 t then 40 else 4 * (byteAt t (16 + tmL3 t) % 16)

/-- A record that R340 refuses. -/
def tmplBad (t : List Byte) : Bool :=
  let l3 := tmL3 t
  let ip := tmIpLen t
  let hdr := t.drop 16
  let nh := if tmV6 t then byteAt hdr (l3 + 6) else byteAt hdr (l3 + 9)
  let tun := l3 + ip + 8
  let tl := if tmType t = 1 then 8 else 8 + 4 * (byteAt hdr tun % 64)
  (tmType t != 1 && tmType t != 2) || decide (tmHlen t < 50 ∨ 112 < tmHlen t) ||
  byteAt hdr l3 / 16 != (if tmV6 t then 6 else 4) || decide (ip < 20) || nh != 17 || tun + tl != tmHlen t

/-- Prepend a template's header to a frame, with the IPv4 identification and flow hash of the frame. -/
def encapWith (t : List Byte) (ident hash : Nat) (bs : List Byte) : List Byte :=
  let n := tmHlen t
  let l3 := tmL3 t
  let u := l3 + tmIpLen t
  let b := slice t 16 n ++ bs
  let h : Hdrs := ⟨l3, tmV6 t, u, b.length, 17, some u⟩
  let b := if tmV6 t then b else splice b (l3 + 4) (beBytes 2 ident)
  let b := setIpLen b h b.length
  let m := tmMask t
  let sport := (tmBase t &&& (65535 - m)) ||| (hash % 65536 &&& m)
  let b := splice (splice b u (beBytes 2 sport)) (u + 4) (beBytes 2 (b.length - u))
  if tmV6 t || tmUcsum t then setL4Csum b h u else splice b (u + 6) [0#8, 0#8]

/-! ## Decapsulation (R342) -/

/-- A tunnel at the headers of a frame: where the inner frame begins, type and VNI. -/
def tunnelAt (bs : List Byte) (l3o l4o vxlan geneve : Nat) : Option (Nat × Nat × Nat) :=
  match findHdrs bs l3o l4o with
  | none => none
  | some h =>
    match h.l4Of bs 17 with
    | none => none
    | some u =>
      let p := beAt bs (u + 2) 2
      let t := u + 8
      let ok := beAt bs (u + 6) 2 == 0 || l4CsumOk bs h u
      if p = vxlan ∧ bit (byteAt bs t) 3 = true ∧ t + 8 ≤ h.fin then
        if ok then some (t + 8, 1, beAt bs (t + 4) 3) else none
      else if p = geneve ∧ byteAt bs t / 64 = 0 ∧ beAt bs (t + 2) 2 = 0x6558 ∧ t + 8 + 4 * (byteAt bs t % 64) ≤ h.fin then
        if ok then some (t + 8 + 4 * (byteAt bs t % 64), 2, beAt bs (t + 4) 3) else none
      else none

end Sys2Proof.Machine
end

