-- ==== Sys2Proof/Machine/RxOps.lean ====
section
/-! DEFINITION. Sys2Proof/Machine/RxOps.lean: frames into RX buffers (R70, R71, R267), the receive header (Table OF-7)
and coalescing contexts (R345, R346). -/

namespace Sys2Proof.Machine

/-! ## Buffers (R70, R71) -/

/-- Return the accepted RX buffers of a draining queue that hold no part of a frame with BUFFER_RETURNED (R71). -/
def State.returnBuffers (s : State) (q : Nat) : State :=
  if s.qClass q = qcRx ∧ s.flag Reg.QX_rxbusy q = false then
    forEach ((s.entsOf q).filter (fun e => e.done.isNone && !e.mirr)) (fun e t => t.finish q e.idx 0x02 0 0) s
  else s

/-- The first frame that waits for a queue's buffers. -/
def State.rxHead (s : State) (q : Nat) : Option Nat := (SM.get [] s.rxdel q).head?

/-- Take the first waiting frame off. -/
def State.rxPop (s : State) (q : Nat) : State :=
  { (s.put Reg.QX_rxbusy q false) with rxdel := SM.put [] s.rxdel q ((SM.get [] s.rxdel q).drop 1) }

/-- Write what fits of a frame into one buffer and complete the buffer, with the frame's arrival time (R70, Table WQ-8). -/
def State.fillBuffer (s : State) (q f : Nat) (e : Ent) : State :=
  let x := s.frame f
  let left := x.bytes.length - x.need
  let n := min left (rxLen e.bytes)
  let s := s.hostWrite (s.qOwner q) (weAddr e.bytes) (slice x.bytes x.need n) (weRo e.bytes) (weNs e.bytes)
  let s := s.complete { q := q, idx := e.idx, status := 0, rlen := n, result := x.hash, ts := x.arrq / 4, more := decide (n < left) }
  if n < left then (s.updFrame f (fun x => { x with need := x.need + n })).put Reg.QX_rxbusy q true
  else (s.rxPop q).endFrame f 0

/-- A frame that may not begin, or go on, in the queue's buffers is dropped (R267); one that has begun goes on while the
queue drains, and after a poll-read error, where accepted entries finish normally (R71, R93). -/
def State.rxLost (s : State) (q f : Nat) : Bool :=
  let st := s.qState q
  let begun := (s.frame f).need != 0
  !(st == qsActive || st == qsDormant || (begun && (st == qsDraining || st == qsError)))

/-- Write waiting frames into the queue's accepted buffers, as far as they go. -/
def rxPump (q : Nat) : Nat → State → State
  | 0, s => s
  | n + 1, s =>
    match s.rxHead q with
    | none => s
    | some f =>
      if s.rxLost q f then rxPump q n (((s.rxPop q).inc Reg.SCH_DROP_RXQ_count 0).endFrame f stDropped)
      else if s.fnHeld (s.qOwner q) then s
      else
        match s.rxBuffer q with
        | none => s
        | some e => rxPump q n (s.fillBuffer q f e)

/-- As `rxPump`; a draining queue, one of a freezing function, and one in ERROR that is being disabled then returns its
empty buffers (R71, R424; for ERROR a DESIGN CHOICE, log entry 41). -/
def State.pump (s : State) (q : Nat) : State :=
  let s := rxPump q ((SM.get [] s.rxdel q).length + (s.entsOf q).length) s
  if s.qState q = qsDraining ∨ (s.qState q = qsError ∧ s.flag Reg.QX_offreq q = true) ∨ s.fnState (s.qOwner q) = fsFreezing then s.returnBuffers q else s

/-! ## The receive header (Table OF-7) -/

/-- The header before a delivered frame. -/
def rxHeader (x : Frame) : List Byte :=
  let i := x.rxi
  let h := findHdrs x.bytes 0 0
  let o3 := match h with
    | some h => h.l3
    | none => 0
  let o4 := match h with
    | some h => h.l4.getD 0
    | none => 0
  let host := decide (x.src = 0x020 ∨ x.src = 0x021)
  leBytes 2 x.bytes.length ++
  leBytes 1 (i.l3 + 4 * i.l4 + 16 * b2n i.decap + 32 * b2n (decide (1 < i.segs)) + 64 * b2n host) ++
  leBytes 1 (i.sec + 4 * b2n i.secOk + 8 * b2n i.secFail + 16 * b2n i.tlsPart + 32 * b2n i.nvPlaced + 64 * b2n i.nvBad) ++
  leBytes 2 i.segs ++ leBytes 2 (if 1 < i.segs then i.mss else 0) ++ leBytes 3 i.vni ++ leBytes 1 i.tun ++
  leBytes 2 x.src ++ leBytes 1 o3 ++ leBytes 1 o4 ++ leBytes 8 (x.arrq / 4) ++ leBytes 3 (x.sa - 1) ++ List.replicate 5 0#8

/-- A frame takes its place among those for a queue's buffers, behind its header where the function asks for one
(R343). -/
def State.deliver (s : State) (q f : Nat) : State :=
  let hd := s.flag Reg.OFL_FN_RX_hdr_en (s.qOwner q)
  let s := s.updFrame f (fun x => { x with bytes := if hd then rxHeader x ++ x.bytes else x.bytes, need := 0 })
  ({ s with rxdel := SM.put [] s.rxdel q (SM.get [] s.rxdel q ++ [f]) }).pump q

/-! ## Coalescing contexts (R346) -/

/-- Deliver an open context. -/
def State.flushCoal (s : State) (c : Coal) : State :=
  let s := { s with coal := s.coal.filter (fun x => x != c) }
  (s.updFrame c.frame (fun x => { x with rxi := { x.rxi with segs := c.segs, mss := c.mss } })).deliver c.q c.frame

/-- Deliver the open contexts of a queue. -/
def State.flushCoalQ (s : State) (q : Nat) : State :=
  forEach (s.coal.filter (fun c => c.q == q)) (fun c t => t.flushCoal c) s

end Sys2Proof.Machine
end

