-- ==== Sys2Proof/Machine/TimeOps.lean ====
section
/-! DEFINITION. Sys2Proof/Machine/TimeOps.lean: the Meridian count and its tick, Drift, comparators and captures
(chapter "Meridian Time, Triggers and Captures"). -/

namespace Sys2Proof.Machine

/-- A PF's MT interrupt by the code of an `irq` field: 0 none, 1 PF0, 2 PF1. -/
def State.mtIrq (s : State) (sel : Nat) : State :=
  if sel = 1 ∨ sel = 2 then
    if s.flag Reg.MT_IRQ_en (sel - 1) then s.raiseVec (sel - 1) (s.get Reg.MT_IRQ_vec (sel - 1)) else s
  else s

/-- An MT write is refused: `MT_STATUS.refused`. -/
def State.mtRefuse (s : State) : State := s.put Reg.MT_STATUS_refused 0 true

/-- The clock is in Drift. -/
def State.inDrift (s : State) : Bool := s.flag Reg.MT_STATUS_drift 0

/-- Discard a slew in progress (R282, R300). -/
def State.dropSlew (s : State) : State :=
  ((s.set Reg.MTX_srem 0 0).put Reg.MTX_sneg 0 false).put Reg.MT_STATUS_slewing 0 false

/-- Enter Drift for a cause: 0 FW, 1 MGMT, 2 REF, 3 RESET (R299, R300). A cause that arises on the tick of an exit keeps
the clock in Drift, and the offset of the exit is not applied (R301). -/
def State.enterDrift (s : State) (c : Nat) : State :=
  let left := s.flag Reg.MTX_exit 0
  let fresh := !s.inDrift && !left
  let s := if left then s.put Reg.MTX_step 0 false else s
  let s := s.set Reg.MT_STATUS_drift_cause 0 (s.get Reg.MT_STATUS_drift_cause 0 ||| 2 ^ c)
  let s := (s.put Reg.MT_STATUS_drift 0 true).dropSlew
  if fresh then (s.set Reg.MT_DRIFT_AGE_age_ms 0 0).set Reg.MTX_dtick 0 0 else s

/-! ## Comparators (R286 to R295) -/

/-- A destination that is a slot's ball, plain or announced: the slot (Table MT-2). -/
def destSlot (d : Nat) : Option Nat :=
  if d < 16 then some d else if 0x100 ≤ d ∧ d < 0x110 then some (d - 0x100) else none

/-- A destination code of Table MT-2 (R289); in GUARD the index of a checker names no thread (R102). -/
def State.destOk (s : State) (d : Nat) : Bool :=
  (destSlot d).isSome || (match destThread d with | some t => s.threadNamed t | none => false) ||
  decide (0x1400 ≤ d ∧ d < 0x1800) || d == 0x1800 || decide (0x1900 ≤ d ∧ d < 0x1940) || d == 0xFFFF

/-- The corrected time of an edge on a ball in quarter nanoseconds modulo 2^50, and of any other destination the
target (R293). -/
def State.edgeQ (s : State) (k : Nat) : Nat :=
  match destSlot (s.get Reg.TRX_dest k) with
  | some sl => ((4 * (s.get Reg.TRX_tgt k : Int) + s.get Reg.TRX_q k - sgn16 (s.get Reg.MT_SLOT_COMP_trig_comp sl)) %
      2 ^ 50).toNat
  | none => 4 * s.get Reg.TRX_tgt k + s.get Reg.TRX_q k

/-- The Meridian nanosecond of the tick in which a comparator acts. -/
def State.edgeNs (s : State) (k : Nat) : Nat := s.edgeQ k / 4

/-- An arm or a staging ends with a result: a register-owned comparator records it and interrupts (R294), a
thread-owned one returns it to the thread. -/
def State.trigEnd (s : State) (k res fired : Nat) : State :=
  let thr := s.flag Reg.MT_TRIG_STATUS_thread k
  let s := ((s.put Reg.MT_TRIG_STATUS_armed k false).put Reg.MT_TRIG_STATUS_staged k false).put Reg.MT_TRIG_STATUS_thread k false
  let s := (s.put Reg.TRX_sent k false).set Reg.TRX_late k 0
  if thr then
    (if s.get Reg.TRX_tag k = 0 then s
     else { s with flight := s.flight ++ [(s.get Reg.TRX_thr k, s.get Reg.TRX_tag k - 1, s.get Reg.TRX_tseq k, [res, fired])] })
  else
    let s := (s.put Reg.MT_TRIG_STATUS_done k true).set Reg.MT_TRIG_STATUS_result k res
    s.mtIrq (s.get Reg.MT_TRIG_CFG_irq k)

/-- The comparators that are armed or staged. -/
def State.liveTrigs (s : State) : List Nat :=
  s.having Reg.MT_TRIG_STATUS_armed 1 ++ s.having Reg.MT_TRIG_STATUS_staged 1

/-- End every live comparator with a result (R284, R307). -/
def State.endTrigs (s : State) (res : Nat) : State := forEach s.liveTrigs (fun k t => t.trigEnd k res 0) s

/-- Place of an edge in the order of R291: its tick, its quarter nanosecond, and within one quarter the fall before the
rise. -/
def State.edgeKey (s : State) (q : Nat) (b : Bool) : Nat := 8 * s.get Reg.CLK_ticks 0 + 2 * (q % 4) + b2n b

/-- Drive an edge on a slot's `SLOT_TRIG` in quarter `q` of the present tick (R240, R244). The ball has the level of the
last edge in time order, in whatever order the edges of one tick are applied (R291). -/
def State.slotTrig (s : State) (sl q : Nat) (b : Bool) : State :=
  if s.dev == dsWhiteout || s.dev == dsAonOnly || s.dev == 0 then s.put Reg.SB_STATUS_trig sl false
  else if !bit (s.get Reg.TWN_SBMASK_drive 0) sl || decide (s.edgeKey q b < s.get Reg.SBX_edge sl) then s
  else (s.set Reg.SBX_edge sl (s.edgeKey q b)).put Reg.SB_STATUS_trig sl b

/-- Arm the compare with a target; an edge whose corrected time has passed is driven on the next tick (R293). -/
def State.trigLoad (s : State) (k tgt q act dest width : Nat) : State :=
  let s := ((((s.set Reg.TRX_tgt k tgt).set Reg.TRX_q k q).set Reg.TRX_act k act).set Reg.TRX_dest k dest).set Reg.TRX_width k width
  let s := ((s.put Reg.MT_TRIG_STATUS_staged k false).put Reg.MT_TRIG_STATUS_armed k true).put Reg.TRX_sent k false
  let s := s.set Reg.TRX_late k (if reached48 s.now (s.edgeNs k) then 1 else 0)
  match destThread dest with
  | some t => s.rearm t
  | none => s

/-- The TRG frame of R231 on the slot's link: comparator, action, edge time. -/
def trgFrame (ch mac k act ns q : Nat) : List Byte :=
  List.replicate 6 0xFF#8 ++ beBytes 6 mac ++ [0x88#8, 0xB5#8, BitVec.ofNat 8 (0x40 + ch), 0x20#8] ++
  beBytes 4 (ns % 2 ^ 32) ++ [BitVec.ofNat 8 k, BitVec.ofNat 8 act, 0#8, 0#8] ++ beBytes 6 (ns % 2 ^ 48) ++
  [BitVec.ofNat 8 q] ++ List.replicate 29 0#8

/-- Send the TRG frame of an announced trigger (R292). -/
def State.sendTrg (s : State) (k : Nat) : State :=
  let d := s.get Reg.TRX_dest k
  if 0x100 ≤ d ∧ d < 0x110 ∧ s.get Reg.TRX_sent k = 0 then
    let n := d - 0x100
    let s := (s.put Reg.TRX_sent k true).pmu 11 3 1
    if s.flag Reg.TLK_STATUS_link n then
      s.sendOwn (16 + n)
        (trgFrame (s.get Reg.TLK_CFG_trg_ch n) (s.get Reg.TLK_MAC_addr n) k (s.get Reg.TRX_act k) (s.get Reg.TRX_tgt k)
          (s.get Reg.TRX_q k))
    else s
  else s

/-- The comparator is armed and its driven time has come, or a tick has found it late (R283, R293). -/
def State.fireDue (s : State) (k : Nat) : Bool :=
  s.flag Reg.MT_TRIG_STATUS_armed k && s.dev != dsWhiteout &&
  (s.get Reg.TRX_late k == 2 || (s.get Reg.TRX_late k == 0 && reached48 s.now (s.edgeNs k)))

/-- A disarm: of a comparator that fires on this tick it loses to the firing (R294, R295). -/
def State.disarm (s : State) (k : Nat) : State := if s.fireDue k then s else s.trigEnd k 0x03 0

/-- Meridian time has reached an announced trigger's target minus `trg_lead` (R292). -/
def State.trgDue (s : State) (k : Nat) : Bool :=
  reached48 s.now (s.get Reg.TRX_tgt k + 2 ^ 48 - s.get Reg.MT_CFG_trg_lead 0)

/-! ## Captures (R296, R297) -/

/-- Record a capture of latch `j` at a time in quarter nanoseconds. -/
def State.capture (s : State) (j q : Nat) (rise : Bool) : State :=
  let s := s.pmu 11 2 1
  if s.flag Reg.MT_CAP_STATUS_valid j then
    let s := s.put Reg.MT_CAP_STATUS_ovr j true
    s.set Reg.MT_CAP_STATUS_ovr_cnt j (min 0xFFFF (s.get Reg.MT_CAP_STATUS_ovr_cnt j + 1))
  else
    let s := (s.set Reg.MT_CAP_TS_ns j (q / 4)).set Reg.MT_CAP_STATUS_quarter j (q % 4)
    let s := (s.put Reg.MT_CAP_STATUS_rise j rise).put Reg.MT_CAP_STATUS_valid j true
    let s := s.mtIrq (s.get Reg.MT_CAP_CFG_irq j)
    match destThread (s.get Reg.MT_CAP_CFG_dest j) with
    | some t => s.raiseEv t 5
    | none => s

/-- Compensation of a capture source in quarter nanoseconds (Table MT-3). -/
def State.capComp (s : State) (src : Nat) : Int :=
  if src < 16 then sgn16 (s.get Reg.MT_SLOT_COMP_cap_comp src) else sgn16 (s.get Reg.MT_IN_COMP_comp (src - 16))

/-- An edge on a source: every latch that watches it records it (R296, R297). -/
def State.edgeOn (s : State) (src q : Nat) (rise : Bool) : State :=
  if src < 16 ∧ s.get Reg.SB_CFG_cap_en src = 0 then s
  else
    let t := ((q : Int) - s.capComp src) % 2 ^ 66
    forEach (s.having Reg.MT_CAP_CFG_en 1) (fun j u =>
      if u.get Reg.MT_CAP_CFG_src j == src && bit (u.get Reg.MT_CAP_CFG_edge j) (if rise then 0 else 1) then
        u.capture j t.toNat rise
      else u) s

/-! ## The PPS output (R298) -/

/-- Drive `PPS_OUT` at a time in quarter nanoseconds; its edges are a capture source as driven. -/
def State.drivePps (s : State) (b : Bool) (q : Nat) : State :=
  if s.flag Reg.MTX_pps 0 == b then s else (s.put Reg.MTX_pps 0 b).edgeOn 0x15 q b

/-- PPS instants passed at a time, for an offset in the second. -/
def ppsIdx (t off : Nat) : Nat := (t + 1000000000 - off) / 1000000000

/-- The offset that places the next rise (R298). -/
def State.ppsOff (s : State) : Nat :=
  if s.get Reg.MTX_ppsoff 0 = 0 then s.get Reg.MT_PPS_off 0 else s.get Reg.MTX_ppsoff 0 - 1

/-- The time that PPS edges are placed by: the last quarter of the present nanosecond plus `MT_IN_COMP` 5, in whole
nanoseconds (R293, R298). -/
def State.ppsNow (s : State) : Nat := ((((4 * s.now + 3 : Nat) : Int) + sgn16 (s.get Reg.MT_IN_COMP_comp 5)) % 2 ^ 66).toNat / 4

/-- The quarter nanosecond at which the PPS instant just reached is driven; one that a step has passed is driven on this
tick without a placement (R283, R293, R298). -/
def State.ppsQ (s : State) : Nat :=
  let p := (ppsIdx s.ppsNow s.ppsOff - 1) * 1000000000 + s.ppsOff
  let q := (((4 * p : Nat) : Int) - sgn16 (s.get Reg.MT_IN_COMP_comp 5)) % 2 ^ 66
  if q.toNat / 4 = s.now then q.toNat else 4 * s.now

/-! ## The tick (R276, R280 to R284) -/

/-- A step has passed a 48-bit time. -/
def State.stepPassed (s : State) (noStep a : Nat) : Bool := reached48 s.now a && !reached48 noStep a

/-- After a step: comparators whose target or corrected time it passed fire on this tick (R283); a comparator armed too
late for its corrected time fires on the first tick after the arm (R293). -/
def State.tickTrigs (s : State) (noStep : Nat) (stepped : Bool) : State :=
  forEach (s.having Reg.MT_TRIG_STATUS_armed 1) (fun k t =>
    if t.get Reg.TRX_late k == 1 || (stepped && t.get Reg.TRX_late k == 0 &&
        (t.stepPassed noStep (t.get Reg.TRX_tgt k) || t.stepPassed noStep (t.edgeNs k))) then
      (t.set Reg.TRX_late k 2).set Reg.TRX_fns k t.now
    else t) s

/-- Advance the count by a number of 2^-32 ns. -/
def State.addTime (s : State) (d : Int) : State :=
  let v := (((s.now * 2 ^ 32 + s.get Reg.MTX_frac 0 : Nat) : Int) + d) % 2 ^ 96
  (s.set Reg.MT_NOW_NS_ns 0 (v.toNat / 2 ^ 32)).set Reg.MTX_frac 0 (v.toNat % 2 ^ 32)

/-- What the slew adds on one tick, without its sign: `slew`, or the part that remains (R281). -/
def State.slewPart (s : State) : Nat :=
  if s.flag Reg.MT_STATUS_slewing 0 then min (s.get Reg.MT_ADJ_CTRL_slew 0) (s.get Reg.MTX_srem 0) else 0

/-- The slew has taken up part of its offset. -/
def State.slewTake (s : State) (k : Nat) : State :=
  if s.flag Reg.MT_STATUS_slewing 0 then
    let r := s.get Reg.MTX_srem 0 - k
    if r = 0 then s.dropSlew else s.set Reg.MTX_srem 0 r
  else s

/-- A whole millisecond of Drift is counted every 1,000,000 ticks (R300). -/
def State.tickDrift (s : State) : State :=
  if s.inDrift then
    if s.get Reg.MTX_dtick 0 + 1 = 1000000 then
      (s.set Reg.MTX_dtick 0 0).set Reg.MT_DRIFT_AGE_age_ms 0 (min 0xFFFFFFFF (s.get Reg.MT_DRIFT_AGE_age_ms 0 + 1))
    else s.inc Reg.MTX_dtick 0
  else s

/-- The core clock runs. -/
def State.coreClock (s : State) : Bool := s.flag Reg.PWR_CLK_STATUS_pll_core 0 && s.flag Reg.PWR_DOMAIN_core 0

/-- The core clocks of the clusters that are not gated go on by 1.6 cycles in a nanosecond (R493, R504). -/
def State.tickCores (s : State) : State :=
  if s.coreClock then
    forEach ((List.range 16).filter (fun k => !bit (s.get Reg.PWR_GATE_STATUS_clusters 0) k)) (fun k t => t.add Reg.PMX_cyc k 8) s
  else s

/-- A tick passes: a `go` has been applied, and an exit from Drift stands (R281, R301); the commands that last
one tick have ended (DESIGN CHOICE, log entry 9). -/
def State.ticked (s : State) : State :=
  let s := forEach [Reg.SCH_NODE_STATUS_busy, Reg.CPH_SA_STATUS_busy, Reg.OFL_TMPL_STATUS_busy, Reg.OFL_NVC_STATUS_busy, Reg.BOOT_FUSE_CMD_busy]
    (fun f t => t.put f 0 false) s
  ((s.put Reg.MT_ADJ_CTRL_go 0 false).put Reg.MTX_exit 0 false).inc Reg.CLK_ticks 0

/-- The count has wrapped: the PPS instants of its new round are still to come (R276, R298). -/
def State.ppsWrap (s : State) (before : Nat) : State :=
  if s.ppsNow < before then s.set Reg.MTX_ppsidx 0 0 else s

/-- The 1 GHz time clock goes on by one tick. -/
def State.advance (s : State) : State :=
  if s.dev == 0 then s
  else
    let s := s.tickCores
    let k := s.slewPart
    let neg := s.flag Reg.MTX_sneg 0
    let step := s.flag Reg.MTX_step 0
    let off := sgn64 (s.get Reg.MTX_stepns 0)
    let pps := s.ppsNow
    let s := ((s.addTime (s.get Reg.MT_INC_inc 0 + (if neg then -(k : Int) else k))).slewTake k).tickDrift
    let s := s.ticked.ppsWrap pps
    if step then
      let before := s.now
      let pps := s.ppsNow
      let s := ((s.addTime (off * 2 ^ 32)).put Reg.MTX_step 0 false).put Reg.MT_STATUS_set 0 true
      let s := if off < 0 then s.set Reg.MTX_ppsidx 0 (ppsIdx s.ppsNow s.ppsOff) else s.ppsWrap pps
      if 2 ^ 40 ≤ off ∨ off ≤ -(2 ^ 40) then ((s.endTrigs 0x04).put Reg.MT_STATUS_big_step 0 true)
      else s.tickTrigs before true
    else s.tickTrigs s.now false

end Sys2Proof.Machine
end

