-- ==== Sys2Proof/Machine/FaultOps.lean ====
section
/-! DEFINITION. Sys2Proof/Machine/FaultOps.lean: detections, quarantines and the entry to WHITEOUT (chapter "Fault
Collection, Whiteout and Supply Loss"; R51 to R55). -/

namespace Sys2Proof.Machine

/-! ## Entries that are settled while their work is under way -/

/-- Take a frame out of every list that names it. -/
def State.unlist (s : State) (f : Nat) : State :=
  let at_ := match (s.frame f).stage with
    | .leaf l => some l
    | _ => none
  let rm (m : SMap (List Nat)) : SMap (List Nat) := (m.map (fun e => (e.1, e.2.filter (fun x => x != f)))).filter (fun e => !e.2.isEmpty)
  let s := match (s.frame f).stage with
    | .leaf l => s.addDepth l (fun d => d - (s.frame f).bytes.length)
    | .sending p => if s.get Reg.PT_tx (macIx (macOf p)) = f + 1 ∧ isExt p = false then s.set Reg.PT_tx (macIx (macOf p)) 0 else s
    | .reorder => s.set Reg.ORD_rob (s.frame f).pipe (s.get Reg.ORD_rob (s.frame f).pipe - 1)
    | _ => s
  let s := { s with
    dispq := rm s.dispq, leafq := rm s.leafq, egq := rm s.egq, rxdel := rm s.rxdel,
    coal := s.coal.filter (fun c => c.frame != f), excq := s.excq.filter (fun x => x != f),
    domq := s.domq.map (fun e => (e.1, e.2.map (fun t => if t.frame = f + 1 then { t with frame := 0, leaf := 0 } else t))) }
  match at_ with
  | some l => s.leafTidy l
  | none => s

/-- Drop a frame wherever it waits; a host entry of it ends with a status. -/
def State.dropFrame (s : State) (f status : Nat) : State :=
  (({ s with jobs := s.jobs.filter (fun j => !(j.kind == 2 && j.frame == f)) }).unlist f).endFrame f status

/-- Frames that wait for an RX queue's buffers, or are merged in its contexts, are dropped (R267). -/
def State.dropRx (s : State) (q : Nat) : State :=
  let fs := SM.get [] s.rxdel q ++ (s.coal.filter (fun c => c.q == q)).map (fun c => c.frame)
  forEach fs (fun f t => (t.inc Reg.SCH_DROP_RXQ_count 0).dropFrame f stDropped) (s.put Reg.QX_rxbusy q false)

/-- The frames of a queue's entries that are not under way, waiting for the host pool or for their pipeline, are given
up. -/
def State.unsend (s : State) (q : Nat) : State :=
  forEach ((s.frames.filter (fun e => e.2.qp1 == q + 1 && (e.2.stage == .arriving || e.2.stage == .parse))).map (fun e => e.1))
    (fun f t => t.freeFrame f) s

/-- What is under way for a queue reports to it no more: its entries are accounted otherwise. -/
def State.detachQ (s : State) (q : Nat) : State :=
  let s := s.dropRx q
  let s : State := { s with
    frames := s.frames.map (fun e => if e.2.qp1 = q + 1 then (e.1, { e.2 with part := true }) else e)
    jobs := s.jobs.filter (fun j => !(j.kind == 0 && j.q == q))
    dmaWait := (s.dmaWait.map (fun e => (e.1, e.2.filter (fun p => p.1 != q)))).filter (fun e => !e.2.isEmpty)
    places := s.places.filter (fun p => p.q != q) }
  State.unsend s q

/-- The runs of a queue's DMA entries end. -/
def State.dmaCutQ (s : State) (q : Nat) : State :=
  forEach ((s.having Reg.DMX_kind 3).filter (fun c => s.get Reg.DMX_q c == q)) (fun c t => t.dmaCut c 0x66) s

/-- QUARANTINED for an entry that is not under way, QUARANTINED_PART otherwise (R478); an RX buffer that holds no part
of a frame is not under way (R26). -/
def State.quarStatus (s : State) (q : Nat) (e : Ent) : Nat := if (e.way && s.qClass q != qcRx) || e.mirr then 0x15 else 0x14

/-- An entry that is finished and waits only for the writeback that covers it, or, in batch mode, for an earlier entry: it
is accounted with its own status. A ring-mode entry has had its record. -/
def State.ownStatus (s : State) (q : Nat) (e : Ent) (acc : Ent → Nat → State → State) : State :=
  if s.ringMode q then s.dropEnt q e.idx else acc e (e.done.getD 0) s

/-- The entries of a queue that `done_idx` has passed and no writeback has covered are accounted with their own status. -/
def State.passedOut (s : State) (q : Nat) (acc : Ent → Nat → State → State) : State :=
  forEach (SM.get [] s.passed q) (fun e t => acc e (e.done.getD 0) t) { s with passed := SM.put [] s.passed q [] }

/-- Account a queue's outstanding entries, each once, as records of type 0x1 on the owner's PF event ring (Table FC-2). -/
def State.quarEvents (s : State) (q : Nat) : State :=
  let st := s.quarStatus q
  let acc := fun (e : Ent) (v : Nat) (t : State) => t.quarRecord q e v
  let s := s.passedOut q acc
  let s := forEach (s.entsOf q) (fun e t =>
    match e.hold with
    | some c => t.unhold c
    | none =>
      if e.done.isSome then t.ownStatus q e acc
      else if e.mirr then t
      else t.finish q e.idx (st e) 0 0) s
  (s.dmaCutQ q).detachQ q

/-- A queue is quarantined (Table FC-2, scopes QUEUE and RING); it goes to ERROR from the states that Table WQ-10 names. -/
def State.quarQueue (s : State) (q cause : Nat) : State :=
  if s.flag Reg.QX_quar q then s
  else
    let st := s.qState q
    let s := (s.put Reg.QX_quar q true).set Reg.QX_quarc q cause
    let s := if st = qsActive ∨ st = qsDormant ∨ st = qsDraining then s.queueError q cause else s
    s.quarEvents q

/-- A ring is quarantined: every queue that names it goes to ERROR. -/
def State.quarRing (s : State) (r : Nat) : State :=
  if s.flag Reg.FLT_ring r then s
  else forEach (s.queuesOfRing r) (fun q t => t.quarQueue q 3) (s.put Reg.FLT_ring r true)

/-- A function is quarantined: acceptance stops on its queues, and their entries are completed in their normal
places. -/
def State.quarFn (s : State) (g : Nat) : State :=
  if s.flag Reg.FN_quar g then s
  else
    let s := (s.put Reg.FN_quar g true).put Reg.FLT_fn g true
    forEach (s.queuesOf g) (fun q t =>
      let t := t.discardFetched q
      let t := forEach (t.entsOf q) (fun e u => if e.done.isSome || e.mirr then u else u.finish q e.idx (s.quarStatus q e) 0 0) t
      (t.dmaCutQ q).detachQ q) s

/-- A port's MAC is held down. -/
def State.quarPort (s : State) (m : Nat) : State := (s.put Reg.FLT_porth m true).linkDown m

/-- A lane leaves service (R326); the frame of an inline job is lost, and its entry ends with LANE_FAULT. -/
def State.quarLane (s : State) (l : Nat) : State :=
  let f := match s.laneJob l with
    | some j => if j.kind = 2 then some j.frame else none
    | none => none
  let s := s.laneFail l
  match f with
  | some f => s.dropFrame f 0x43
  | none => s

/-- An engine runs nothing: its runs end with DMA_STOPPED. -/
def State.quarEngine (s : State) (e : Nat) : State :=
  if s.flag Reg.FLT_eng e then s
  else
    forEach ((List.range 16).map (fun k => 16 * e + k)) (fun c t =>
      if t.chState c = chIdle then t else t.dmaCut c 0x66) (s.put Reg.FLT_eng e true)

/-- A frame whose data is lost is dropped (Table FC-2); `detail` numbers it (log entry 16). -/
def State.quarFrame (s : State) (f : Nat) : State :=
  match SM.find? s.frames f with
  | none => s
  | some x =>
    match x.stage with
    | .arriving => s
    | .sending _ => s
    | _ => (s.inc Reg.FLT_FRAME_DROP_drops 0).dropFrame f 0x15

/-- With `fault_off` a slot's fault powers it off (R242). -/
def State.slotFaulted (s : State) (sl : Nat) : State :=
  if s.flag Reg.SB_CFG_fault_off sl && s.flag Reg.SB_STATUS_pwren sl then s.slotOff sl else s

/-- The quarantine of a contained source with its `detail` (Tables FC-1 and FC-2). A record of source 0x043 + 4·p names
a selector entry (log entry 16). -/
def State.quarantine (s : State) (src detail : Nat) : State :=
  match fltScope src with
  | 1 =>
    if src = 0x060 then s.badFlow detail
    else s.badEntry (match src % 4 with | 0 => .cls | 1 => .lpm | 2 => .l2 | _ => .sel) ((src - 0x040) / 4) detail
  | 2 => s.quarFrame detail
  | 3 => s.quarQueue detail 2
  | 4 => s.quarRing detail
  | 5 => if s.fnExists detail then s.quarFn detail else s
  | 6 => s.quarPort (src - 0x100)
  | 7 => s.quarLane (src - 0x0A0)
  | 8 => s.quarEngine (src - 0x120)
  | 9 => s.slotFaulted (src - 0x080)
  | _ => s

/-! ## WHITEOUT (R482 to R484) -/

/-- The pair exists: SYNCING, HEALTHY, DEGRADED or RESYNC (R473). -/
def State.paired (s : State) : Bool :=
  let st := s.get Reg.TWN_STATUS_state 0
  decide (2 ≤ st ∧ st ≤ 5)

/-- Firn begins its flush toward the seal with the cause of what began it (R51, R52, R58); a Firn that is sealed already
keeps its seal. -/
def State.beginFlush (s : State) (cause : Nat) : State :=
  if s.flag Reg.FIRN_flush 0 || s.flag Reg.FIRN_sealed 0 then s
  else (s.put Reg.FIRN_flush 0 true).set Reg.FIRN_cause 0 cause

/-- Write the Whiteout record (R484). -/
def State.woRecord (s : State) (src cause ns : Nat) : State :=
  let s := ((s.put Reg.FLT_WO_REC_valid 0 true).put Reg.FLT_WO_REC_multi 0 false).put Reg.FLT_WO_REC_paired 0 s.healthy
  let s := ((s.set Reg.FLT_WO_REC_cause 0 cause).set Reg.FLT_WO_REC_state 0 s.dev).set Reg.FLT_WO_REC_later 0 0
  (s.set Reg.FLT_WO_REC_source 0 src).set Reg.FLT_WO_TS_ts 0 ns

/-- A later detection of a FATAL source counts in the record, saturating (R484). -/
def State.woLater (s : State) (src : Nat) : State :=
  if fltClass src = 2 then s.set Reg.FLT_WO_REC_later 0 (min 127 (s.get Reg.FLT_WO_REC_later 0 + 1)) else s

/-- The device entered WHITEOUT on the present tick. -/
def State.woNow (s : State) : Bool := s.get Reg.FLT_wot 0 == s.clk + 1

/-- Another source causes Whiteout in the cycle of the entry: the record takes the lowest source number, but keeps a fault
of the collector, which a later one replaces it with (R484). -/
def State.woJoin (s : State) (src cause : Nat) : State :=
  let had := s.get Reg.FLT_WO_REC_source 0
  let s := s.put Reg.FLT_WO_REC_multi 0 (s.flag Reg.FLT_WO_REC_multi 0 || src != had)
  if src == 0x1F0 || (had != 0x1F0 && decide (src < had)) then
    (s.set Reg.FLT_WO_REC_source 0 src).set Reg.FLT_WO_REC_cause 0 cause
  else s

/-- Fetched entries of every queue are discarded. -/
def State.discardAll (s : State) : State := forEach (s.fetched.map (fun e => e.1)) (fun q t => t.discardFetched q) s

/-- End every debug session (R135). -/
def State.endDebug (s : State) : State :=
  ((s.put Reg.FP_DBG_SESSION_open 0 false).set Reg.FP_DBG_SESSION_clusters 0 0).resetAll Reg.TH_halt

/-- The outputs and stops of Table FC-4. DMA runs stop without a completion (chapter "DMA Engines and Channels"), a dump
is abandoned (R500); a drain or a profile change in progress ends (R28). -/
def State.whiteoutOutputs (s : State) : State :=
  let s := s.discardAll
  let s := forEach [0, 1] (fun h t => t.aer h 22 false []) s
  let s := { s with held := [], rdWait := [] }
  let s := forEach (List.range 16) (fun sl t =>
    ((t.slotRst sl false).put Reg.SB_STATUS_trig sl false).slotSeq sl 0) s
  let s := ({ (s.put Reg.PMU_DUMP_CFG_busy 0 false) with falls := [], ctlq := [], dump := [] }.put Reg.MTX_pps 0 false).endTrigs 3
  let s := forEach (s.instances Reg.DMA_CH_STATUS_state) (fun c t => t.setCh c chIdle) s.endDebug
  let s := (if s.paired then s.twinSend (.goodbye false) else s).put Reg.PAD_alive 0 false
  let s := { s with twinWait := [] }
  let s := (s.set Reg.TWN_STATUS_state 0 0).put Reg.GLB_STATUS_twin_mode 0 false
  let s := (s.put Reg.GLB_STATUS_dp_draining 0 false).put Reg.GLB_STATUS_profile_busy 0 false
  let s := { s with twinQ := [], twinR := [], twinRD := [], twinP := [] }
  s.zeroAll.zeroLink.enterDrift 3

/-- The device enters WHITEOUT for a source and a cause; in WHITEOUT the detection only counts. -/
def State.enterWhiteout (s : State) (src cause : Nat) : State :=
  if s.dev == dsWhiteout then (if s.woNow then s.woJoin src cause else s.woLater src)
  else if s.dev == dsAonOnly || s.dev == 0 then s
  else if s.flag Reg.PW_seal 0 then (s.woLater src).set Reg.GLB_STATE_state 0 dsWhiteout
  else
    let s := ((s.woRecord src cause s.now).set Reg.FLT_wot 0 (s.clk + 1)).beginFlush (if cause = 3 then 0x10 else 0x11)
    s.whiteoutOutputs.set Reg.GLB_STATE_state 0 dsWhiteout

/-- A power warning is latched and starts the sequence toward the completion seal; a later one joins it (R53, R55,
R486). -/
def State.powerWarn (s : State) (src : Nat) : State :=
  if s.dev == dsWhiteout then s.woLater src
  else if s.dev == dsAonOnly || s.dev == 0 || s.flag Reg.PW_warn 0 then s
  else
    let s := ((s.put Reg.PW_warn 0 true).put Reg.PW_stopacc 0 true).beginFlush 0x10
    ((s.set Reg.PW_src 0 src).set Reg.PW_ns 0 s.now).discardAll

/-! ## Detections (R477, R480, R481) -/

/-- A record of Table FC-3. -/
def State.fltRec (s : State) (src detail : Nat) (inj wo : Bool) : List Byte :=
  padTo 16 (leBytes 2 src ++ leBytes 1 (fltClass src + 4 * b2n inj + 8 * b2n wo + 16 * fltScope src) ++ leBytes 1 0 ++
    leBytes 4 detail ++ leBytes 6 s.now)

/-- Log a record, or count it as lost (R481). -/
def State.fltLogPut (s : State) (r : List Byte) : State :=
  if 256 ≤ s.fltLog.length then s.inc Reg.FLT_LOG_LOST_lost 0 else { s with fltLog := s.fltLog ++ [r] }

/-- Cause code of a detection that escalates to Whiteout (R484); 0 where it does not (R477). -/
def State.woCause (s : State) (src : Nat) : Nat :=
  match fltClass src with
  | 2 =>
    if 0x1C0 ≤ src ∧ src ≤ 0x1C6 then 3
    else if 0x1C8 ≤ src ∧ src ≤ 0x1D0 then 4
    else if src = 0x1F0 then 5 else 1
  | 1 =>
    if s.flag Reg.FLT_SRC_CFG_whiteout src || s.flag Reg.FLT_dead 0 then 7
    else if s.flag Reg.FLT_SRC_CFG_failover src && (s.healthy || (s.woNow && s.flag Reg.FLT_WO_REC_paired 0)) then 2 else 0
  | _ => 0

/-- Raise the fault vectors that a source selects. -/
def State.fltIrqs (s : State) (src : Nat) : State :=
  let one (h : Nat) (on : Bool) (t : State) : State :=
    if on && t.flag Reg.FLT_IRQ_en h then t.raiseVec h (t.get Reg.FLT_IRQ_vec h) else t
  one 1 (s.flag Reg.FLT_SRC_CFG_irq_pf1 src) (one 0 (s.flag Reg.FLT_SRC_CFG_irq_pf0 src) s)

/-- The source watches a level that no register holds: `PWR_WARN_N`, or the temperature against a limit (R479). -/
def fltLevel (src : Nat) : Bool := src == 0x1D0 || src == 0x1D8 || src == 0x1D9

/-- The status of a source counts a detection. Where the source watches a level that no register holds, a detection that
is not injected shows that its cause persists (log entry 46). -/
def State.fltCount (s : State) (src : Nat) (inj : Bool) : State :=
  let s := ((s.put Reg.FLT_SRC_STATUS_active src true).put Reg.FLT_SRC_STATUS_inj src inj).set Reg.FLT_SRC_STATUS_count src
    (min 65535 (s.get Reg.FLT_SRC_STATUS_count src + 1))
  if fltLevel src && !inj then s.put Reg.FLT_SRC_STATUS_cause src true else s

/-- A detection: status, log, then Whiteout, or quarantine by `quar` and interrupts. A second one of the source on the same
tick is not counted or logged again (R480). -/
def State.detectWith (s : State) (src detail : Nat) (inj : Bool) (quar : State → State) : State :=
  if fltClass src = 3 then s
  else
    let c := s.woCause src
    let wo := c != 0 && s.dev != dsWhiteout && s.dev != dsAonOnly && s.dev != 0
    let again := s.get Reg.FLT_at src == s.clk + 1
    let s := if again then s else ((s.fltCount src inj).fltLogPut (s.fltRec src detail inj wo)).set Reg.FLT_at src (s.clk + 1)
    let s := if src = 0x028 ∧ inj = false then s.pmu 19 3 1 else s
    let irqs := fun (t : State) => if again then t else t.fltIrqs src
    if c = 4 then (irqs s).powerWarn src
    else if c ≠ 0 then s.enterWhiteout src c
    else
      let s := if fltClass src = 0 then (s.aerCor 0 14).aerCor 1 14 else if s.dev == dsWhiteout then s else quar s
      irqs s

/-- A detection with the quarantine of its scope. -/
def State.detect (s : State) (src detail : Nat) (inj : Bool) : State :=
  s.detectWith src detail inj (fun t => t.quarantine src detail)

/-- A bad entry of a structure of a pipeline is found (R211). -/
def State.foundBad (s : State) (b : BadEntry) (p i : Nat) : State :=
  s.detectWith (0x040 + 4 * p + b.t) i false (fun t => t.badEntry b p i)

/-- A bad flow entry is found. -/
def State.foundBadFlow (s : State) (i : Nat) : State := s.detect 0x060 i false

/-- The bad entries that a flow lookup read. -/
def State.foundBadFlows (s : State) (l : List Nat) : State := forEach l (fun i t => t.foundBadFlow i) s

/-- The bad entries of a table of a pipeline that a lookup read. -/
def State.foundBads (s : State) (b : BadEntry) (p : Nat) (l : List Nat) : State := forEach l (fun i t => t.foundBad b p i) s

end Sys2Proof.Machine
end

