-- ==== Sys2Proof/Machine/SecOps.lean ====
section
/-! DEFINITION. Sys2Proof/Machine/SecOps.lean: what the protocol of an SA does to a frame: ESP (R347 to R349), MACsec
(R350, R351), TLS 1.3 records (R352, R353) and the XTS of NVMe/TCP (R354). -/

namespace Sys2Proof.Machine

def pESP : Nat := 1
def pMACsec : Nat := 2
def pTLS : Nat := 3
def pNVMe : Nat := 4

/-! ## State of an SA (Tables OF-8, OF-9, OF-10) -/

def saSeq (r : List Byte) : Nat := leAt r 32 8
def saSpi (r : List Byte) : List Byte := slice r 40 4
def saEsn (r : List Byte) : Bool := bit (byteAt r 44) 0
def saNatt (r : List Byte) : Bool := bit (byteAt r 44) 1
def saTunnel (r : List Byte) : Bool := bit (byteAt r 44) 2
def saStrip (r : List Byte) : Bool := bit (byteAt r 44) 3
def saReplay (r : List Byte) : Bool := bit (byteAt r 44) 4
def saWindow (r : List Byte) : Nat := 64 * 2 ^ bits (byteAt r 45) 0 2
def saBitmap (r : List Byte) : Nat := leAt r 48 64

def msSci (r : List Byte) : List Byte := slice r 40 8
def msSsci (r : List Byte) : List Byte := slice r 48 4
def msAn (r : List Byte) : Nat := bits (byteAt r 52) 0 2
def msXpn (r : List Byte) : Bool := bit (byteAt r 52) 2
def msSc (r : List Byte) : Bool := bit (byteAt r 52) 3
def msEs (r : List Byte) : Bool := bit (byteAt r 52) 4
def msScb (r : List Byte) : Bool := bit (byteAt r 52) 5
def msStrip (r : List Byte) : Bool := bit (byteAt r 52) 6
def msCheck (r : List Byte) : Bool := bit (byteAt r 52) 7
def msReplay (r : List Byte) : Bool := bit (byteAt r 53) 0
def msWindow (r : List Byte) : Nat := leAt r 54 4

def tlsNext (r : List Byte) : Nat := leAt r 40 4
def tlsSynced (r : List Byte) : Bool := bit (byteAt r 47) 0

/-- The record keeps the mode and tag length that its protocol can run with (R347, R350, R352, R354). -/
def saUsable (r : List Byte) : Bool :=
  let p := saProto r
  if p = pESP then saMode r == 0 && (saTag r == 8 || saTag r == 12 || saTag r == 16)
  else if p = pMACsec then decide (saMode r < 2)
  else if p = pTLS then saMode r == 0
  else p == pNVMe && saMode r == 2

/-- Count a frame and the bytes protected or verified (Table OF-8). -/
def saCount (r : List Byte) (octets : Nat) : List Byte :=
  splice r 112 (leBytes 8 (leAt r 112 8 + 1) ++ leBytes 8 (leAt r 120 8 + octets))

/-- The sequence or PN counter uses 64 bits. -/
def saWide (r : List Byte) : Bool := if saProto r = pESP then saEsn r else msXpn r

/-- The counter is exhausted: its next step would pass its last value (R348; DEDUCED, log entry 18). -/
def saExhausted (r : List Byte) : Bool := decide ((if saWide r then 2 ^ 64 - 1 else 2 ^ 32 - 1) ≤ saSeq r)

/-- The count at which SA_NEAR is written. -/
def saNearAt (r : List Byte) : Nat := if saWide r then 0xC000000000000000 else 0xC0000000

/-! ## ESP -/

/-- Offset of the ESP space: after the IP header, or after UDP with `natt`. -/
def espSpace (r : List Byte) (h : Hdrs) : Nat := h.pay + (if saNatt r then 8 else 0)

/-- Padding bytes before the pad length for a payload. -/
def espPad (n : Nat) : Nat := (4 - (n + 2) % 4) % 4

/-- Bytes the egress step adds to a frame. -/
def espGrow (r : List Byte) (h : Hdrs) : Nat := espPad (h.fin - (espSpace r h + 16)) + 2 + saTag r

/-- Bytes the MACsec egress step adds. -/
def msGrow (r : List Byte) : Nat := 8 + (if msSc r then 8 else 0) + 16

/-- AAD of ESP. -/
def espAad (r : List Byte) (seq : Nat) : List Byte :=
  saSpi r ++ (if saEsn r then beBytes 8 (seq % 2 ^ 64) else beBytes 4 (seq % 2 ^ 32))

/-- Rewrite the lengths after ESP; with `natt` the UDP length too, with a UDP checksum of zero. -/
def espLen (r : List Byte) (h : Hdrs) (bs : List Byte) : List Byte :=
  let b := setIpLen bs h bs.length
  if saNatt r then splice b (h.pay + 4) (beBytes 2 (b.length - h.pay) ++ [0#8, 0#8]) else b

/-- Protect a frame with sequence `seq` (R347): the frame and the bytes protected; none without the headers and the
space. -/
def espOut (r : List Byte) (seq : Nat) (key : List Byte) (l3 l4 : Nat) (bs : List Byte) : Option (List Byte × Nat) :=
  match findHdrs bs l3 l4 with
  | none => none
  | some h =>
    let sp := espSpace r h
    if h.fin < sp + 16 then none
    else
      let pay := slice bs (sp + 16) (h.fin - (sp + 16))
      let n := espPad pay.length
      let pt := pay ++ (List.range n).map (fun k => BitVec.ofNat 8 (k + 1)) ++ [BitVec.ofNat 8 n, BitVec.ofNat 8 (byteAt bs sp)]
      let iv := beBytes 8 (seq % 2 ^ 64)
      let nonce := (saSalt r).take 4 ++ iv
      let ct := gcmCrypt key nonce pt
      let icv := (gcmTag key nonce (espAad r seq) ct).take (saTag r)
      some (espLen r h (bs.take sp ++ saSpi r ++ beBytes 4 (seq % 2 ^ 32) ++ iv ++ ct ++ icv), pt.length)

/-- The full sequence of a received frame (RFC 4303 Appendix A): `t` is the highest verified, `w` the window. -/
def esnFull (t w lo : Nat) : Nat :=
  let tl := t % 2 ^ 32
  let th := t / 2 ^ 32
  if w - 1 ≤ tl then (if tl + 1 ≤ lo + w then th * 2 ^ 32 + lo else (th + 1) * 2 ^ 32 + lo)
  else if tl + 2 ^ 32 + 1 ≤ lo + w then (th - 1) * 2 ^ 32 + lo
  else th * 2 ^ 32 + lo

/-- The replay check rejects a sequence; the bit of a sequence lies at its value modulo the window (log entry 18). -/
def espReplay (r : List Byte) (seq : Nat) : Bool :=
  decide (seq + saWindow r < saSeq r + 1) || (decide (seq ≤ saSeq r) && bit (saBitmap r) (seq % saWindow r))

/-- Clear the bits of the sequences from `a`, `n` of them. -/
def clearBits (w : Nat) : Nat → Nat → Nat → Nat
  | 0, _, m => m
  | n + 1, a, m => clearBits w n (a + 1) (setBits m (a % w) 1 0)

/-- Advance `seq` and mark `bitmap` for a verified sequence. -/
def espMark (r : List Byte) (seq : Nat) : List Byte :=
  let w := saWindow r
  let t := saSeq r
  let m := if t < seq then clearBits w (min w (seq - t)) (seq - min w (seq - t) + 1) (saBitmap r) else saBitmap r
  splice (splice r 32 (leBytes 8 (max t seq))) 48 (leBytes 64 (setBits m (seq % w) 1 1))

/-- Check and open a frame (R349) under record `r` and the counters of `cur`: the frame, the record after, the bytes
verified; none where a check fails. -/
def espIn (r cur key : List Byte) (l3 l4 : Nat) (bs : List Byte) : Option (List Byte × List Byte × Nat) :=
  match findHdrs bs l3 l4 with
  | none => none
  | some h =>
    let sp := espSpace r h
    let tag := saTag r
    if h.fin < sp + 16 + 2 + tag ∨ slice bs sp 4 ≠ saSpi r then none
    else
      let lo := beAt bs (sp + 4) 4
      let seq := if saEsn r then esnFull (saSeq cur) (saWindow r) lo else lo
      let nonce := (saSalt r).take 4 ++ slice bs (sp + 8) 8
      let n := h.fin - tag - (sp + 16)
      let ct := slice bs (sp + 16) n
      if (saReplay r && espReplay cur seq) ∨ (gcmTag key nonce (espAad r seq) ct).take tag ≠ slice bs (h.fin - tag) tag then none
      else
        let pt := gcmCrypt key nonce ct
        let nh := byteAt pt (n - 1)
        let pad := byteAt pt (n - 2)
        let rec' := saCount (espMark cur seq) n
        let inner := pt.take (n - 2 - pad)
        if n < pad + 2 then none
        else if !saStrip r then some (splice bs (sp + 16) pt, rec', n)
        else if saTunnel r then
          if nh = 4 ∨ nh = 41 then
            some (bs.take (h.l3 - 2) ++ beBytes 2 (if nh = 4 then 0x0800 else 0x86DD) ++ inner, rec', n)
          else none
        else
          let b := bs.take sp ++ inner
          let b := splice b (if h.v6 then h.l3 + 6 else h.l3 + 9) [BitVec.ofNat 8 nh]
          some (espLen r h b, rec', n)

/-! ## MACsec -/

/-- The nonce of a PN. -/
def msNonce (r : List Byte) (pn : Nat) : List Byte :=
  if msXpn r then xorB (msSsci r ++ beBytes 8 (pn % 2 ^ 64)) (saSalt r) else msSci r ++ beBytes 4 (pn % 2 ^ 32)

/-- Data and ICV of a SecTAG's frame: GCM, or integrity only (802.1AE). -/
def msSeal (r key hdr data : List Byte) (pn : Nat) : List Byte × List Byte :=
  if saMode r = 0 then
    let ct := gcmCrypt key (msNonce r pn) data
    (ct, gcmTag key (msNonce r pn) hdr ct)
  else (data, gcmTag key (msNonce r pn) (hdr ++ data) [])

/-- Protect a frame with a PN (R350): the frame and the bytes protected. -/
def msOut (r : List Byte) (pn : Nat) (key bs : List Byte) : List Byte × Nat :=
  let data := bs.drop 12
  let tci := msAn r + (if saMode r = 0 then 12 else 0) + 16 * b2n (msScb r) + 32 * b2n (msSc r) + 64 * b2n (msEs r)
  let sl := if data.length < 48 then data.length else 0
  let hdr := bs.take 12 ++ [0x88#8, 0xE5#8, BitVec.ofNat 8 tci, BitVec.ofNat 8 sl] ++ beBytes 4 (pn % 2 ^ 32) ++
    (if msSc r then msSci r else [])
  let (d, icv) := msSeal r key hdr data pn
  (hdr ++ d ++ icv, data.length)

/-- The full PN of a received frame (802.1AE-2018, XPN). -/
def msFull (r : List Byte) (cur lo : Nat) : Nat :=
  if msXpn r then
    (cur / 2 ^ 32 + (if bit cur 31 && !bit lo 31 then 1 else 0)) * 2 ^ 32 + lo
  else lo

/-- Check and open a frame (R351): the frame, the record after, the bytes verified. -/
def msIn (r cur key bs : List Byte) : Option (List Byte × List Byte × Nat) :=
  let tci := byteAt bs 14
  let sc := bit tci 5
  let o := if sc then 28 else 20
  let pn := msFull r (saSeq cur) (beAt bs 16 4)
  if beAt bs 12 2 ≠ 0x88E5 ∨ bs.length < o + 16 ∨ tci % 4 ≠ msAn r ∨ (sc ∧ slice bs 20 8 ≠ msSci r) ∨
      (msReplay r ∧ pn + msWindow r < saSeq cur) then none
  else
    let sl := bits (byteAt bs 15) 0 6
    let n := if sl = 0 then bs.length - o - 16 else min sl (bs.length - o - 16)
    let hdr := bs.take o
    let data := slice bs o n
    let tag := slice bs (o + n) 16
    let good := if saMode r = 0 then gcmTag key (msNonce r pn) hdr data else gcmTag key (msNonce r pn) (hdr ++ data) []
    if good ≠ tag then none
    else
      let pt := if saMode r = 0 then gcmCrypt key (msNonce r pn) data else data
      let rec' := saCount (splice cur 32 (leBytes 8 (max (saSeq cur) (pn + 1)))) n
      some (if msStrip r then bs.take 12 ++ pt else splice bs o pt, rec', n)

/-! ## TLS 1.3 records -/

/-- The TCP payload of a frame: where it begins and its bytes. -/
def tcpPayload (bs : List Byte) (l3 l4 : Nat) : Option (Hdrs × Nat × Nat × List Byte) :=
  match findHdrs bs l3 l4 with
  | none => none
  | some h =>
    match h.l4Of bs 6 with
    | none => none
    | some t => let p := t + l4Hdr bs 6 t; some (h, t, p, slice bs p (h.fin - p))

/-- A record header as R352 asks. -/
def tlsHdrOk (b : List Byte) : Bool := beAt b 0 3 == 0x170303 && decide (17 ≤ beAt b 3 2 ∧ beAt b 3 2 ≤ 16640)

/-- The whole records of a payload. -/
def tlsRecords : Nat → List Byte → Option (List (List Byte))
  | _, [] => some []
  | 0, _ => none
  | n + 1, l =>
    let k := 5 + beAt l 3 2
    if tlsHdrOk l && decide (k ≤ l.length) then (tlsRecords n (l.drop k)).map (fun t => l.take k :: t) else none

/-- The nonce of a record. -/
def tlsNonce (r : List Byte) (seq : Nat) : List Byte := xorB (saSalt r) (beBytes 12 (seq % 2 ^ 64))

/-- One record, encrypted. -/
def tlsSeal (r key : List Byte) (seq : Nat) (b : List Byte) : List Byte :=
  let ct := gcmCrypt key (tlsNonce r seq) (slice b 5 (b.length - 21))
  b.take 5 ++ ct ++ gcmTag key (tlsNonce r seq) (b.take 5) ct

/-- Every record of a payload, encrypted with rising sequences. -/
def tlsSealAll (r key : List Byte) : Nat → List (List Byte) → List Byte
  | _, [] => []
  | seq, b :: bs => tlsSeal r key seq b ++ tlsSealAll r key (seq + 1) bs

/-- What following a stream has made of a payload. -/
structure TlsRun where
  out : List Byte := []
  buf : List Byte := []
  seq : Nat := 0
  good : Nat := 0
  failed : Nat := 0
  bad : Bool := false
deriving DecidableEq, Repr

/-- Follow a payload, in pieces that end at a header's or a record's end (R353). -/
def tlsFeed (r key : List Byte) : Nat → List Byte → TlsRun → TlsRun
  | _, [], t => t
  | 0, _, t => t
  | n + 1, data, t =>
    let a := t.buf.length
    if a < 5 then
      let k := min (5 - a) data.length
      let buf := t.buf ++ data.take k
      if buf.length = 5 ∧ tlsHdrOk buf = false then { t with bad := true }
      else tlsFeed r key n (data.drop k) { t with out := t.out ++ data.take k, buf := buf }
    else
      let whole := 5 + beAt t.buf 3 2
      let k := min (whole - a) data.length
      let buf := t.buf ++ data.take k
      let ct := (buf.drop 5).take (whole - 21)
      let pt := gcmCrypt key (tlsNonce r t.seq) ct
      let clear := (buf.take 5 ++ pt ++ (buf.drop (5 + ct.length))).drop a
      if buf.length = whole then
        let ok := gcmTag key (tlsNonce r t.seq) (buf.take 5) ct == slice buf (whole - 16) 16
        tlsFeed r key n (data.drop k) { t with
          out := t.out ++ clear, buf := [], seq := t.seq + 1, good := t.good + b2n ok, failed := t.failed + b2n !ok }
      else tlsFeed r key n (data.drop k) { t with out := t.out ++ clear, buf := buf }

/-- The stream's fields in its SA record (Table OF-10). -/
def tlsFields (r : List Byte) (t : TlsRun) (next : Nat) : List Byte :=
  let a := t.buf.length
  let left := if a < 5 then 0 else 5 + beAt t.buf 3 2 - a
  let have_ := if a < 5 then a else 0
  let r := splice r 32 (leBytes 8 t.seq ++ leBytes 4 (next % 2 ^ 32) ++ leBytes 2 left ++ leBytes 1 have_)
  splice r 48 (padTo 5 (t.buf.take have_))

/-! ## NVMe/TCP PDUs -/

def nvType (p : List Byte) : Nat := byteAt p 0
def nvHd (p : List Byte) : Bool := bit (byteAt p 1) 0
def nvDd (p : List Byte) : Bool := bit (byteAt p 1) 1
def nvHlen (p : List Byte) : Nat := byteAt p 2
def nvPdo (p : List Byte) : Nat := byteAt p 3
def nvPlen (p : List Byte) : Nat := leAt p 4 4

/-- The lengths of a PDU header agree with each other. -/
def nvHdrOk (p : List Byte) : Bool :=
  let h := nvHlen p + 4 * b2n (nvHd p)
  decide (8 ≤ nvHlen p ∧ h ≤ nvPlen p) &&
  (if nvPdo p = 0 then !nvDd p else decide (h ≤ nvPdo p ∧ nvPdo p + 4 * b2n (nvDd p) ≤ nvPlen p))

/-- The whole PDUs of a payload. -/
def nvPdus : Nat → List Byte → Option (List (List Byte))
  | _, [] => some []
  | 0, _ => none
  | n + 1, l =>
    if nvHdrOk l && decide (8 ≤ l.length ∧ nvPlen l ≤ l.length) then
      (nvPdus n (l.drop (nvPlen l))).map (fun t => l.take (nvPlen l) :: t)
    else none

/-- Data bytes of a PDU. -/
def nvDataLen (p : List Byte) : Nat := if nvPdo p = 0 then 0 else nvPlen p - 4 * b2n (nvDd p) - nvPdo p

/-- Write the digests of a PDU (R354). -/
def nvDigests (p : List Byte) : List Byte :=
  let p1 := if nvHd p then splice p (nvHlen p) (leBytes 4 (crcDigest (p.take (nvHlen p)))) else p
  if nvDd p then splice p1 (nvPlen p - 4) (leBytes 4 (crcDigest (slice p1 (nvPdo p) (nvDataLen p)))) else p1

/-- Encrypt, or decrypt, the data of the PDUs that R354 names; each unit's tweak is one more. -/
def nvCrypt (dec : Bool) (key : List Byte) (du : Nat) : Nat → List (List Byte) → List Byte
  | _, [] => []
  | tw, p :: ps =>
    let n := nvDataLen p
    if (nvType p = 0x06 ∨ nvType p = 0x04) ∧ 0 < n then
      splice p (nvPdo p) (aesXts dec key (leBytes 16 tw) du (slice p (nvPdo p) n)) ++
        nvCrypt dec key du (tw + (n + 2 ^ du - 1) / 2 ^ du) ps
    else p ++ nvCrypt dec key du tw ps

end Sys2Proof.Machine
end

