-- ==== Sys2Proof/Machine/OffloadOps.lean ====
section
/-! DEFINITION. Sys2Proof/Machine/OffloadOps.lean: the egress stage, the receive stage, inline jobs and NVMe/TCP
placement (chapter "Tunnels, Secure Transports and Storage Offload"). -/

namespace Sys2Proof.Machine

/-! ## Events and counts -/

/-- Write an OFL event record, or count it as lost (R357). -/
def State.oflEvent (s : State) (typ index : Nat) : State :=
  if 1024 ≤ s.oflEvq.length then s.inc Reg.OFL_EVQ_LOST_lost 0
  else { s with oflEvq := s.oflEvq ++
    [leBytes 1 typ ++ [0#8] ++ leBytes 3 index ++ List.replicate 3 0#8 ++ leBytes 6 s.now ++ [0#8, 0#8]] }

def State.oflCnt (s : State) (i : Nat) : State := s.inc Reg.OFL_CNT_count i

/-- The template of an index with its owner. -/
def State.template (s : State) (i : Nat) : List Byte := splice (s.rd (baseTmpl i) 128) 8 (leBytes 2 (s.get Reg.TPX_owner i))

/-- The connection context of an index with its owner. -/
def State.nvContext (s : State) (i : Nat) : List Byte := splice (s.rd (baseNvc i) 64) 0 (leBytes 2 (s.get Reg.NVX_owner i))

def nvcValid (r : List Byte) : Bool := bit (byteAt r 2) 0
def nvcSynced (r : List Byte) : Bool := bit (byteAt r 2) 1
def nvcNext (r : List Byte) : Nat := leAt r 4 4
def nvcLeft (r : List Byte) : Nat := leAt r 8 4

/-! ## The `offl` word (Tables OF-1 and OF-2) -/

def oIpCsum (w : Nat) : Bool := bit w 0
def oL4Csum (w : Nat) : Nat := bits w 1 2
def oSeg (w : Nat) : Nat := bits w 3 2
def oEncap (w : Nat) : Bool := bit w 5
def oTmpl (w : Nat) : Nat := bits w 6 14
def oNvDg (w : Nat) : Bool := bit w 20
def oResync (w : Nat) : Bool := bit w 21
def oDecap (w : Nat) : Bool := bit w 0
def oNvme (w : Nat) : Bool := bit w 1
def oConn (w : Nat) : Nat := bits w 16 14

/-- The frame is host work whose entry names, in its own `offl` or `sa`, a template, SA page or connection that its
function does not own, whatever the program then applied (R37, R333). The word is read in the layout of where the frame
goes (R334): `rx` for a leaf under a host port. -/
def State.workDenied (s : State) (x : Frame) (rx : Bool) : Bool :=
  x.qp1 != 0 &&
  (match s.entAt (x.qp1 - 1) x.idx with
   | some e =>
     let g := s.qOwner (x.qp1 - 1)
     let w := txOffl e.bytes
     let r := s.saRec (txSa e.bytes)
     (txSaEn e.bytes && saValid r && s.pageOwner (saPage r) != g) ||
     (if rx then oNvme w && s.get Reg.NVX_owner (oConn w) != g else oEncap w && s.get Reg.TPX_owner (oTmpl w) != g)
   | none => false)

/-! ## Frames in the egress stage -/

/-- A released frame enters the egress stage of its leaf; one for a host port goes to its leaf (R335). -/
def State.toStage (s : State) (f l : Nat) : State :=
  if isExt (s.leafPath l).2.2 then
    { (s.updFrame f (fun x => { x with stage := .egress l, phase := 0 })) with
      egq := SM.put [] s.egq l (SM.get [] s.egq l ++ [f]) }
  else (s.updFrame f (fun x => { x with phase := 0, rxi := {} })).enqueue f l

/-- The frames at the head that leave the stage together: segments up to the last of their entry (R339). -/
def groupOf (s : State) : List Nat → List Nat
  | [] => []
  | f :: fs => if (s.frame f).seg then f :: groupOf s fs else [f]

/-- The head group of a leaf's egress stage. -/
def State.egGroup (s : State) (l : Nat) : List Nat := groupOf s (SM.get [] s.egq l)

/-- Take the head group off the stage. -/
def State.egPop (s : State) (l : Nat) : State :=
  { s with egq := SM.put [] s.egq l ((SM.get [] s.egq l).drop (s.egGroup l).length) }

/-- A frame ends in its stage with a status; in the egress stage its whole group ends. -/
def State.stageEnd (s : State) (f status : Nat) : State :=
  match (s.frame f).stage with
  | .egress l => forEach (s.egGroup l) (fun g t => t.endFrame g status) (s.egPop l)
  | .sending p => (s.set Reg.PT_tx (macIx (macOf p)) 0).endFrame f status
  | _ => s.endFrame f status

/-- R336: a header is missing. -/
def State.noHeader (s : State) (f : Nat) : State := (s.oflCnt 0).stageEnd f 0x50

/-- Replace a frame at the head of a stage by its frames: the last keeps its number and answers for its entry. -/
def State.splitFrame (s : State) (l f : Nat) (outs : List (List Byte)) (phase l3 l4 : Nat) : State :=
  let x := s.frame f
  let n := outs.length
  let r := outs.dropLast.foldl (fun (p : State × List Nat) b =>
    (p.1.newFrame { x with bytes := b, seg := true, phase := phase, cells := 0, l3 := l3, l4 := l4 }, p.2 ++ [p.1.nextFrame])) (s, [])
  let t := r.1.updFrame f (fun x => { x with bytes := outs.getLastD [], phase := phase, l3 := l3, l4 := l4 })
  let t := if 1 < n then t.pmu 13 1 n else t
  { t with egq := SM.put [] t.egq l (r.2 ++ SM.get [] t.egq l) }

/-! ## Egress steps 2 to 5 (Table OF-3) -/

/-- Why segmentation cannot run: 0x50, 0x51 (R338, R339), or 0 when it can. -/
def State.segCheck (s : State) (x : Frame) (l : Nat) (bs : List Byte) : Nat :=
  let proto := if oSeg x.offl = 1 then 6 else 17
  match findHdrs bs x.l3 x.l4 with
  | none => 0x50
  | some h =>
    match h.l4Of bs proto with
    | none => 0x50
    | some t =>
      if oL4Csum x.offl ≠ 0 ∧ oL4Csum x.offl ≠ 3 ∧ oL4Csum x.offl ≠ oSeg x.offl then 0x50
      else
        let hl := t + l4Hdr bs proto t
        let n := h.fin - hl
        let piece := min n x.mss
        let r := s.saRec (x.sa - 1)
        let enc := if oEncap x.offl then tmHlen (s.template (oTmpl x.offl)) else 0
        let sec := if x.sa = 0 ∨ saIngress r = true then 0
          else if saProto r = pMACsec then msGrow r
          else if saProto r = pESP then espGrow r { h with fin := hl + piece } else 0
        if x.mss < 64 ∨ 256 < (n + x.mss - 1) / x.mss then 0x51
        else if s.maxLen (s.leafPath l).2.2 < hl + piece + enc + sec + 4 then 0x51
        else 0

/-- Inner checksums of a frame that is not segmented (R337); none when a header is missing. -/
def stepCsum (x : Frame) (bs : List Byte) : Option (List Byte) :=
  let lc := oL4Csum x.offl
  let l4 := lc = 1 ∨ lc = 2
  if !oIpCsum x.offl ∧ ¬l4 then some bs
  else
    match findHdrs bs x.l3 x.l4 with
    | none => none
    | some h =>
      let b := if oIpCsum x.offl && !h.v6 then setIpCsum bs h.l3 else bs
      if l4 then (h.l4Of b (if lc = 1 then 6 else 17)).map (fun t => setL4Csum b h t) else some b

/-- Step 5 for each frame: the template's identification rises by one per frame (R341). -/
def State.stepEncap (s : State) (x : Frame) : List (List Byte) → List (List Byte) × State
  | [] => ([], s)
  | b :: bs =>
    let i := oTmpl x.offl
    let r := State.stepEncap (s.inc Reg.OFX_ipid i) x bs
    (encapWith (s.template i) (s.get Reg.OFX_ipid i) x.hash b :: r.1, r.2)

/-- Step 2: the digests of every PDU (R354); none when a header is missing or a PDU breaks the rules. -/
def stepDigest (x : Frame) (bs : List Byte) : Option (List Byte) :=
  if !oNvDg x.offl then some bs
  else
    match tcpPayload bs x.l3 x.l4 with
    | none => none
    | some (_, _, p, pl) => (nvPdus pl.length pl).map (fun ps => splice bs p (ps.flatMap nvDigests))

/-- The frame's SA protects it after the other steps: ESP or MACsec, or an SA that its job will find invalid. -/
def State.lateSa (s : State) (x : Frame) : Bool :=
  let r := s.saRec (x.sa - 1)
  x.sa != 0 && !(saValid r && (saProto r == pTLS || saProto r == pNVMe))

/-- Steps 2 to 5 of the frame at the head of a leaf's stage. -/
def State.egSteps (s : State) (l f : Nat) : State :=
  let x := s.frame f
  match stepDigest x x.bytes with
  | none => s.noHeader f
  | some b =>
    let want := oSeg x.offl = 1 ∨ oSeg x.offl = 2
    let s := if want ∧ x.qp1 = 0 then s.oflCnt 1 else s
    let seg := want ∧ x.qp1 ≠ 0
    let c := if seg then s.segCheck x l b else 0
    let late := if s.lateSa x && x.phase == 0 then 4 else 3
    if c = 0x50 then s.noHeader f
    else if c ≠ 0 then s.stageEnd f c
    else if oEncap x.offl ∧ tmType (s.template (oTmpl x.offl)) ≠ 1 ∧ tmType (s.template (oTmpl x.offl)) ≠ 2 then
      (if x.qp1 = 0 then s.oflCnt 2 else s).stageEnd f 0x52
    else
      let outs := if seg then
          (match findHdrs b x.l3 x.l4 with
           | some h => some (segCut b h (h.l4.getD 0) x.mss)
           | none => none)
        else (stepCsum x b).map (fun b => [b])
      match outs with
      | none => s.noHeader f
      | some os =>
        let r := if oEncap x.offl then s.stepEncap x os else (os, s)
        if oEncap x.offl then r.2.splitFrame l f r.1 late 0 0 else r.2.splitFrame l f r.1 late x.l3 x.l4

/-! ## The egress stage -/

/-- Rules that a TLS or NVMe/TCP entry breaks, as the status it ends with; 0 when it breaks none (R352, R354). -/
def State.earlyBad (s : State) (x : Frame) : Nat :=
  let r := s.saRec (x.sa - 1)
  match tcpPayload x.bytes x.l3 x.l4 with
  | none => 0x50
  | some (_, _, _, pl) =>
    if saProto r = pTLS then (if saIngress r || (tlsRecords pl.length pl).isSome then 0 else 0x54)
    else if (nvPdus pl.length pl).isSome then 0 else 0x50

/-- A frame enters the steps: R333's rights, then step 1 or steps 2 to 5. -/
def State.egPrep (s : State) (l f : Nat) : State :=
  let x := s.frame f
  if s.workDenied x false then s.stageEnd f 0x22
  else if x.sa ≠ 0 ∧ s.lateSa x = false then
    let c := s.earlyBad x
    if c = 0 then s.updFrame f (fun x => { x with phase := 1 })
    else if c = 0x50 then s.noHeader f else s.stageEnd f c
  else s.egSteps l f

/-- The head group, once every frame of it has passed its steps, is enqueued on the leaf (R335, R339). -/
def State.egLeave (s : State) (l : Nat) : State :=
  let g := s.egGroup l
  if g ≠ [] ∧ g.all (fun f => (s.frame f).phase == 3) = true then (s.egPop l).enqueueAll g l else s

/-! ## The receive stage (Table OF-4) -/

/-- Steps 2 and 3 of a frame for a function: decapsulation and checksum verification (R342, R344). -/
def State.rxSteps (s : State) (f g : Nat) : State :=
  let x := s.frame f
  let s := if oDecap x.offl then
      match tunnelAt x.bytes x.l3 x.l4 (s.get Reg.OFL_CFG_vxlan_port 0) (s.get Reg.OFL_CFG_geneve_port 0) with
      | some (o, t, v) => s.updFrame f (fun x => { x with
          bytes := x.bytes.drop o, l3 := 0, l4 := 0, rxi := { x.rxi with decap := true, tun := t, vni := v } })
      | none => s.oflCnt 3
    else s
  let x := s.frame f
  if !s.flag Reg.OFL_FN_RX_csum_en g || x.qp1 != 0 then s
  else
    match findHdrs x.bytes x.l3 x.l4 with
    | none => s
    | some h =>
      let c3 := if h.v6 then 0 else if ipCsumOk x.bytes h.l3 then 1 else 2
      let c4 := match h.l4Of x.bytes h.proto with
        | some t =>
          if h.proto ≠ 6 ∧ h.proto ≠ 17 then 0
          else if h.proto = 17 ∧ !h.v6 ∧ beAt x.bytes (t + 6) 2 = 0 then 0
          else if l4CsumOk x.bytes h t then 1 else 2
        | none => 0
      s.updFrame f (fun x => { x with rxi := { x.rxi with l3 := c3, l4 := c4 } })

/-! ### NVMe/TCP tracking and placement (R355, R356) -/

/-- Write bytes at an offset of an entry's buffer, which may lie in fragments. -/
def scatter (g : Nat) : List (Nat × Nat × Bool × Bool) → Nat → List Byte → State → State
  | [], _, _, s => s
  | d :: ds, off, bs, s =>
    if bs.isEmpty then s
    else if d.2.1 ≤ off then scatter g ds (off - d.2.1) bs s
    else
      let n := min bs.length (d.2.1 - off)
      scatter g ds 0 (bs.drop n) (s.hostWrite g (d.1 + off) (bs.take n) d.2.2.1 d.2.2.2)

/-- Write bytes at an offset of an entry's buffer. -/
def State.entWrite (s : State) (q : Nat) (e : Ent) (base off : Nat) (bs : List Byte) : State :=
  if weIndirect e.bytes then scatter (s.qOwner q) e.frags off bs s
  else s.hostWrite (s.qOwner q) (base + off) bs (weRo e.bytes) (weNs e.bytes)

/-- End a placement with a status (R356). -/
def State.placeEnd (s : State) (p : Place) (status : Nat) : State :=
  ({ s with places := s.places.filter (fun x => x != p) }).finish p.q p.idx status p.placed p.cid

/-- The connection loses sync: one event, and its placements end with NVME_UNSYNCED. -/
def State.nvLost (s : State) (conn : Nat) : State :=
  let r := s.nvContext conn
  let s := s.wr (baseNvc conn + 2) [BitVec.ofNat 8 (setBits (byteAt r 2) 1 1 0)]
  let s := ({ s with nvp := SM.del s.nvp conn }).oflEvent 0x4 conn
  forEach (s.places.filter (fun p => p.conn == conn)) (fun p t => t.placeEnd p 0x56) s

/-- The SA of a decrypting placement of function `g` serves at use: its page is the function's own (R315), its key may
decrypt (R313); 0, or the status that ends it (log entry 18). -/
def State.placeSa (s : State) (g : Nat) (e : List Byte) : Nat :=
  if !nvSaEn e then 0
  else
    let r := s.saRec (nvSa e)
    if !saValid r || !saUsable r || saProto r != pNVMe || s.pageOwner (saPage r) != g then 0x42
    else
      let a := s.slotAttr (saPage r) (saSlot r)
      if !s.slotValid (saPage r) (saSlot r) || !bit a 6 || !bit a 1 || !bit a 3 then 0x41 else 0

/-- Place the data of a registered PDU that has arrived: `a` bytes of it before this frame, `buf` now. -/
def State.placeData (s : State) (p : Place) (e : Ent) (a : Nat) (buf : List Byte) : State :=
  let pdo := nvPdo buf
  let datal := min (leAt buf 16 4) (nvDataLen buf)
  let off := leAt buf 12 4
  let have_ := min datal (buf.length - pdo)
  let had := min datal (a - pdo)
  if nvSaEn e.bytes then
    let u := 2 ^ nvDu e.bytes
    let lo := had / u * u
    let hi := have_ / u * u
    let r := s.saRec (nvSa e.bytes)
    let tw := leNat (nvTweak e.bytes) + (off + lo) / u
    if hi ≤ lo then s
    else
      let k := s.fetchKey (saPage r) (saSlot r)
      let pt := aesXts true k.1.value (leBytes 16 tw) (nvDu e.bytes) (slice buf (pdo + lo) (hi - lo))
      (((k.2.inc Reg.CPX_dec 0).entWrite p.q e (weAddr e.bytes) (off + lo) pt).pmu 13 3 ((hi - lo) / 64))
  else (s.entWrite p.q e (weAddr e.bytes) (off + had) (slice buf (pdo + had) (have_ - had))).pmu 13 3 ((have_ - had) / 64)

/-- Bytes of a PDU placed by now. -/
def placedOf (e : List Byte) (buf : List Byte) : Nat :=
  let have_ := min (min (leAt buf 16 4) (nvDataLen buf)) (buf.length - nvPdo buf)
  if nvSaEn e then have_ / 2 ^ nvDu e * 2 ^ nvDu e else have_

/-- A C2HData PDU has grown from `a` bytes to `buf`: place its new data, and at its end verify its data digest. Answers
whether data was placed and whether a digest failed. -/
def State.nvGrow (s : State) (conn a : Nat) (buf : List Byte) : Bool × Bool × State :=
  if nvType buf ≠ 0x07 ∨ buf.length < 24 then (false, false, s)
  else
    match s.places.find? (fun p => p.conn == conn && p.cid == leAt buf 8 2) with
    | none => (false, false, s)
    | some p =>
      match s.entAt p.q p.idx with
      | none => (false, false, s)
      | some e =>
        let u := 2 ^ nvDu e.bytes
        let off := leAt buf 12 4
        let datal := leAt buf 16 4
        if nvLen e.bytes < off + datal ∨ (nvSaEn e.bytes ∧ (off % u ≠ 0 ∨ datal % u ≠ 0)) then (false, false, s.placeEnd p 0x58)
        else if s.placeSa (s.qOwner p.q) e.bytes ≠ 0 then (false, false, s.placeEnd p (s.placeSa (s.qOwner p.q) e.bytes))
        else
          let was := if a < 24 then 0 else placedOf e.bytes (buf.take a)
          let new := placedOf e.bytes buf - was
          let s := s.placeData p e a buf
          let done := buf.length == nvPlen buf
          let bad := done && nvDd buf && leAt buf (nvPlen buf - 4) 4 != crcDigest (slice buf (nvPdo buf) (nvDataLen buf))
          let p' := { p with placed := p.placed + new, bad := p.bad || bad }
          let s := { s with places := s.places.map (fun x => if x = p then p' else x) }
          if done && decide (nvLen e.bytes ≤ p'.placed) then (new != 0, bad, s.placeEnd p' (if p'.bad then 0x55 else 0))
          else (new != 0, bad, s)

/-- Follow the PDUs of a payload: whether data was placed, whether a digest failed, whether sync is lost. -/
def nvFeed (conn : Nat) : Nat → List Byte → (Bool × Bool × Bool) → State → (Bool × Bool × Bool) × State
  | _, [], r, s => (r, s)
  | 0, _, r, s => (r, s)
  | n + 1, data, r, s =>
    let buf := SM.get [] s.nvp conn
    let left := nvcLeft (s.nvContext conn)
    if buf.isEmpty ∧ left ≠ 0 then
      let k := min left data.length
      nvFeed conn n (data.drop k) r (s.wr (baseNvc conn + 8) (leBytes 4 (left - k)))
    else
      let a := buf.length
      let goal := if a < 8 then 8 else nvPlen buf
      let k := min (goal - a) data.length
      let b := buf ++ data.take k
      if b.length < 8 then nvFeed conn n (data.drop k) r { s with nvp := SM.put [] s.nvp conn b }
      else if !nvHdrOk b then ((r.1, r.2.1, true), s)
      else
        let h := nvHlen b
        if nvHd b ∧ a < h + 4 ∧ h + 4 ≤ b.length ∧ leAt b h 4 ≠ crcDigest (b.take h) then ((r.1, true, true), s)
        else
          let g := s.nvGrow conn a b
          let whole := b.length = nvPlen b
          let s := { g.2.2 with nvp := SM.put [] g.2.2.nvp conn (if whole then [] else b) }
          let s := s.wr (baseNvc conn + 8) (leBytes 4 (if whole then 0 else nvPlen b - b.length))
          -- the PDU in progress is told by `nvp`; `pdu_left` shows what is due of it
          nvFeed conn n (data.drop k) (r.1 || g.1, r.2.1 || g.2.1, r.2.2) s

/-- Step 5: track a frame on its connection (R355). -/
def State.nvTrack (s : State) (f g : Nat) : State :=
  let x := s.frame f
  let conn := oConn x.offl
  let r := s.nvContext conn
  if !oNvme x.offl then s
  else if s.get Reg.NVX_owner conn ≠ g ∨ nvcValid r = false then s.oflCnt 7
  else
    match tcpPayload x.bytes x.l3 x.l4 with
    | none => s.oflCnt 7
    | some (_, t, _, pl) =>
      let s := s.updFrame f (fun x => { x with rxi := { x.rxi with tracked := true } })
      let seq := beAt x.bytes (t + 4) 4
      if pl.isEmpty || !nvcSynced r then s
      else if seq = nvcNext r then
        let (o, s) := nvFeed conn (2 * pl.length + 2) pl (false, false, false) s
        let s := s.updFrame f (fun x => { x with rxi := { x.rxi with nvPlaced := o.1, nvBad := o.2.1 } })
        if o.2.2 then s.nvLost conn else s.wr (baseNvc conn + 4) (leBytes 4 ((seq + pl.length) % 2 ^ 32))
      else if (nvcNext r + 2 ^ 33 - (seq + pl.length)) % 2 ^ 32 < 2 ^ 31 then s
      else s.nvLost conn

/-! ### Coalescing (R345, R346) -/

/-- The flow of a TCP frame: family, addresses, ports. -/
def flowOf (bs : List Byte) : Option (Hdrs × Nat × List Byte) :=
  match findHdrs bs 0 0 with
  | none => none
  | some h =>
    match h.l4Of bs 6 with
    | none => none
    | some t => some (h, t, [BitVec.ofNat 8 (b2n h.v6)] ++ (if h.v6 then slice bs (h.l3 + 8) 32 else slice bs (h.l3 + 12) 8) ++ slice bs t 4)

/-- A mergeable segment (R345). -/
def mergeable (x : Frame) (h : Hdrs) (t : Nat) : Bool :=
  let bs := x.bytes
  let hl := l4Hdr bs 6 t
  let fl := byteAt bs (t + 13)
  t == h.pay &&
  (if h.v6 then true else byteAt bs h.l3 == 0x45 && beAt bs (h.l3 + 6) 2 % 0x4000 == 0 && x.rxi.l3 == 1) &&
  x.rxi.l4 == 1 && (fl == 0x10 || fl == 0x18) && decide (t + hl < h.fin) &&
  (hl == 20 || (hl == 32 && beAt bs (t + 20) 4 == 0x0101080A)) && !x.rxi.tracked

/-- What must be equal between a segment and its context: DSCP, ECN, hop limit and option layout. -/
def sameKind (bs : List Byte) (h : Hdrs) (t : Nat) : Nat × Nat × Nat :=
  (if h.v6 then beAt bs h.l3 2 / 16 % 256 else byteAt bs (h.l3 + 1), byteAt bs (if h.v6 then h.l3 + 7 else h.l3 + 8), l4Hdr bs 6 t)

/-- The merged frame after a segment `b` with headers `h`, `t` (R345). -/
def mergeSeg (m : List Byte) (mh : Hdrs) (mt : Nat) (b : List Byte) (h : Hdrs) (t : Nat) : List Byte :=
  let hl := l4Hdr b 6 t
  let out := m.take mh.fin ++ slice b (t + hl) (h.fin - (t + hl))
  let out := splice (splice out (mt + 8) (slice b (t + 8) 4)) (mt + 14) (slice b (t + 14) 2)
  let out := splice out (mt + 20) (slice b (t + 20) (hl - 20))
  let out := splice out (mt + 13) [BitVec.ofNat 8 (byteAt m (mt + 13) ||| (byteAt b (t + 13) &&& 8))]
  let out := setIpLen out mh out.length
  setL4Csum out { mh with fin := out.length } mt

/-- Open a context with a segment; the least recently merged one makes room (R346). -/
def State.openCoal (s : State) (q l f : Nat) (flow : List Byte) (h : Hdrs) (t : Nat) : State :=
  let x := s.frame f
  let n := h.fin - (t + l4Hdr x.bytes 6 t)
  let s := if 8192 ≤ s.coal.length then
      match s.coal with
      | c :: _ => s.flushCoal c
      | [] => s
    else s
  let c : Coal := { q := q, leaf := l, flow := flow, frame := f, next := (beAt x.bytes (t + 4) 4 + n) % 2 ^ 32, payload := n,
                    segs := 1, mss := n, first := s.clk }
  let s := { s with coal := s.coal ++ [c] }
  if bit (byteAt x.bytes (t + 13)) 3 || decide (s.get Reg.OFL_FN_RX_coal_max (s.qOwner q) < n) then s.flushCoal c else s

/-- Merge a segment into its context, which becomes the most recently merged one. -/
def State.mergeInto (s : State) (c : Coal) (f : Nat) (h : Hdrs) (t : Nat) : State :=
  let b := (s.frame f).bytes
  let m := (s.frame c.frame).bytes
  match flowOf m with
  | none => s
  | some (mh, mt, _) =>
    let n := h.fin - (t + l4Hdr b 6 t)
    let s := s.updFrame c.frame (fun x => { x with bytes := mergeSeg m mh mt b h t })
    let c' := { c with next := (c.next + n) % 2 ^ 32, payload := c.payload + n, segs := c.segs + 1, mss := max c.mss n }
    let s := ({ s with coal := s.coal.filter (fun x => x != c) ++ [c'] }).pmu 13 2 1
    let s := s.endFrame f 0
    if bit (byteAt b (t + 13)) 3 then s.flushCoal c' else s

/-- Step 6, and delivery (R345, R346). -/
def State.coalesce (s : State) (q l f : Nat) : State :=
  let x := s.frame f
  let g := s.qOwner q
  match flowOf x.bytes with
  | none => s.deliver q f
  | some (h, t, flow) =>
    let ok := s.flag Reg.OFL_FN_RX_coal_en g && mergeable x h t
    let n := h.fin - (t + l4Hdr x.bytes 6 t)
    match s.coal.find? (fun c => c.q == q && c.flow == flow) with
    | none => if ok then s.openCoal q l f flow h t else s.deliver q f
    | some c =>
      let m := (s.frame c.frame).bytes
      let same := match flowOf m with
        | some (mh, mt, _) => sameKind m mh mt == sameKind x.bytes h t
        | none => false
      if ok && same && beAt x.bytes (t + 4) 4 == c.next then
        if s.get Reg.OFL_FN_RX_coal_max g < c.payload + n then (s.flushCoal c).openCoal q l f flow h t
        else s.mergeInto c f h t
      else (s.flushCoal c).deliver q f

/-- Steps 5 to 7: the frame leaves its host port's stage (Table OF-4). -/
def State.rxFinish (s : State) (h f : Nat) : State :=
  let l := (s.frame f).from_
  let q := s.get Reg.ND_rxq (ndix 3 l)
  let s := s.nvTrack f (s.qOwner q)
  (s.set Reg.PT_tx (macIx (32 + h)) 0).coalesce q l f

/-- What a frame places must be deciphered: it waits for an inline lane first (R309, R356). -/
def State.placeCrypts (s : State) (f : Nat) : Bool :=
  (s.nvTrack f (s.qOwner (s.get Reg.ND_rxq (ndix 3 (s.frame f).from_)))).get Reg.CPX_dec 0 != s.get Reg.CPX_dec 0

/-- Step 5 may begin, or waits for a lane. -/
def State.rxTrack (s : State) (h f : Nat) : State :=
  if s.placeCrypts f then s.updFrame f (fun x => { x with phase := 6 }) else s.rxFinish h f

/-- Steps 2 and 3, then step 4's wait where the SA is a TLS one, or the rest. -/
def State.rxMiddle (s : State) (h f : Nat) : State :=
  let x := s.frame f
  let s := s.rxSteps f (s.qOwner (s.get Reg.ND_rxq (ndix 3 x.from_)))
  if x.phase = 0 ∧ x.sa ≠ 0 ∧ saProto (s.saRec (x.sa - 1)) = pTLS then
    (if (tcpPayload (s.frame f).bytes (s.frame f).l3 (s.frame f).l4).isSome then s.updFrame f (fun x => { x with phase := 4 })
     else s.noHeader f)
  else s.rxTrack h f

/-- A frame enters the receive stage: R333's rights, then step 1 (Table OF-4). -/
def State.rxPrep (s : State) (h f : Nat) : State :=
  let x := s.frame f
  if s.workDenied x true then s.stageEnd f 0x22
  else
    let r := s.saRec (x.sa - 1)
    if x.sa ≠ 0 ∧ !(saValid r ∧ (saProto r = pTLS ∨ saProto r = pNVMe)) then s.updFrame f (fun x => { x with phase := 1 })
    else s.rxMiddle h f

end Sys2Proof.Machine
end

