-- ==== Sys2Proof/Machine/FnOps.lean ====
section
/-! DEFINITION. Sys2Proof/Machine/FnOps.lean: resets of functions (R416 to R419), contexts and the Freeze image as bytes
(Tables FN-7 to FN-10), migration units (R422 to R429). -/

namespace Sys2Proof.Machine

/-! ## Configuration space -/

/-- A configuration request to a function is answered: its endpoint's link is up, boot step S4 is over (R405), and the
function exists. -/
def State.cfgOpen (s : State) (g : Nat) : Bool :=
  s.flag Reg.HE_LINK_up (pfOf g) && s.fnExists g &&
  (s.dev == dsService || s.dev == dsIdle || s.dev == dsWhiteout || (s.dev == dsBooting && decide (4 ≤ s.get Reg.GLB_STATE_boot_step 0)))

/-- The function's VF exists: VF Enable of its PF is set and it lies below NumVFs (R407). -/
def State.vfPresent (s : State) (g : Nat) : Bool :=
  s.flag Reg.CFG_vf_en (pfOf g) && decide (vfIndex g < s.get Reg.CFG_numvfs (pfOf g))

/-- Return a field of every vector of a function to its reset value. -/
def State.vecReset (s : State) (f : Fld) (g : Nat) : State :=
  { s with fld := s.fld.filter (fun e => !(e.1 % 4096 == f.id && e.1 / 4096 / 2048 == g)) }

/-- What an FLR resets of a function's configuration space (R415, R483): its enables, the MSI-X table and the PBA.
Max_Payload_Size, ASPM control and the sticky error registers stay (PRESUMED from the Base Specification, log
entry 20). -/
def State.cfgFlr (s : State) (g : Nat) : State :=
  let s := forEach [Reg.FN_STATE_bme, Reg.FN_STATE_d3, Reg.FN_STATE_fmask, Reg.CFG_mse, Reg.CFG_msix_en, Reg.CFG_mrrs,
    Reg.CFG_ro_en, Reg.CFG_ns_en, Reg.CFG_ext_tag, Reg.CFG_tag10, Reg.CFG_tag14, Reg.CFG_err_en, Reg.CFG_cto,
    Reg.CFG_mhr_en, Reg.CFG_ecrc_en, Reg.CFG_ats_en, Reg.CFG_bar0, Reg.CFG_bar2, Reg.CFG_rom, Reg.CFG_acs] (fun f t =>
      t.set f g (f.rst g)) s
  forEach [Reg.MSIX_addr, Reg.MSIX_data, Reg.MSIX_mask, Reg.MSIX_pba] (fun f t => t.vecReset f g) s

/-- What an FLR of a PF resets besides: the SR-IOV capability (PRESUMED, log entry 20). -/
def State.cfgSriov (s : State) (h : Nat) : State :=
  ((s.put Reg.CFG_vf_en h false).set Reg.CFG_numvfs h 0).put Reg.CFG_vf_mse h false

/-- What a reset of a port resets besides: every other register of the function's configuration space (R406). -/
def State.cfgCold (s : State) (g : Nat) : State :=
  let s := { s with hdrLog := SM.del s.hdrLog g }
  forEach [Reg.CFG_mps, Reg.CFG_aspm, Reg.CFG_unc_sts, Reg.CFG_unc_mask, Reg.CFG_unc_sev, Reg.CFG_cor_sts,
    Reg.CFG_cor_mask] (fun f t => t.set f g (f.rst g)) s

/-! ## Resets (R416 to R419) -/

/-- Account an entry of a function that is being reset, once (R416, R417), in HEALTHY after the partner's acknowledgement
(R48). -/
def State.resetAcc (s : State) (q : Nat) (e : Ent) (status : Nat) : State := s.finish q e.idx status 0 0

/-- A frame of the entry lies wholly in the cell buffer (Table FN-5). -/
def State.wholeFrame (s : State) (q : Nat) (e : Ent) : Bool :=
  s.frames.any (fun x => x.2.qp1 == q + 1 && x.2.idx == e.idx && x.2.seq == e.seq && x.2.stage != .arriving && x.2.stage != .parse)

/-- The job of an entry. -/
def State.jobOf (s : State) (q idx : Nat) : Option Job := s.jobs.find? (fun j => j.kind == 0 && j.q == q && j.idx == idx)

/-- An outstanding entry at a reset of its function: abandoned where it is not under way, or as Table FN-5 gives; what
goes on without a request of the function is accounted at its end. -/
def State.resetEnt (s : State) (q : Nat) (e : Ent) : State :=
  let c := s.qClass q
  if e.done.isSome then s.ownStatus q e (fun e v t => t.accountReset q e v)
  else if e.mirr then (match e.hold with
    | some x => s.unhold x
    | none => s)
  else if !e.way || c == qcRx then s.resetAcc q e 0x12
  else if c == qcTx then (if s.wholeFrame q e then s else s.resetAcc q e 0x12)
  else if c == qcCph then
    match s.jobOf q e.idx with
    | some j => if j.op = coMacVerify then s else (s.jobDrop j).resetAcc q e 0x45
    | none => s.resetAcc q e 0x45
  else if c == qcNvme then s.resetAcc q e 0x57
  else s

/-- A queue of a function that is being reset: it stops fetching, and its entries are settled as far as they can be. -/
def State.resetQueue (s : State) (q : Nat) : State :=
  let s := (s.discardFetched q).dropRx q
  let s := forEach [Reg.QX_poll, Reg.QX_last, Reg.QX_due, Reg.QX_offreq, Reg.QX_wbdue, Reg.QX_dorm] (fun f t => t.put f q false) s
  let s := { s with
    places := s.places.filter (fun p => p.q != q)
    dmaWait := (s.dmaWait.map (fun e : Nat × List (Nat × Nat) => (e.1, List.filter (fun p : Nat × Nat => p.1 != q) e.2))).filter (fun e => !e.2.isEmpty) }
  let s := s.passedOut q (fun e v t => t.accountReset q e v)
  let s := forEach (s.entsOf q) (fun e t => t.resetEnt q e) s
  s.unsend q

/-- A run of the function's channel that still needs a request of the function ends (Table FN-5). -/
def State.resetRun (s : State) (c : Nat) : State :=
  let st := s.chState c
  if (st = chWait ∨ st = chReady ∨ st = chHeld) ∧ s.dmaHost c = true then
    s.dmaCut c (if dmaSpace (s.get Reg.DMX_src c) = .host ∧ bit (s.get Reg.DMX_cfg c) 9 = false then 0x60 else 0x61)
  else s

/-- The function's reset began on the present tick: a command of a migration unit that names it is refused (R419). -/
def State.flrNow (s : State) (g : Nat) : Bool := s.get Reg.FN_flr g == s.clk + 1

/-- A migration unit has a command for a VF on the present tick. -/
def State.migSeen (s : State) (u g : Nat) : State := (s.set Reg.MGX_at u (s.clk + 1)).set Reg.MGX_cmd u g

/-- The migration unit that works on a function ends with result 0x08, which a command that reached it on the tick of the
reset has too (R419). -/
def State.migReset (s : State) (g : Nat) : State :=
  forEach (List.range 4) (fun u t =>
    let t := if t.get Reg.MGX_at u == t.clk + 1 && t.get Reg.MGX_cmd u == g then t.set Reg.FN_MIG_STATUS_result u 0x08 else t
    if t.flag Reg.FN_MIG_STATUS_busy u && t.get Reg.MGX_gfn u == g then
      { ((t.put Reg.FN_MIG_STATUS_busy u false).set Reg.FN_MIG_STATUS_result u 0x08).set Reg.MGX_op u 0 with
        migImg := SM.del t.migImg u }
    else t) s

/-- A completion ring of the function is disabled and its pending credits are returned (R418). -/
def State.resetRing (s : State) (r : Nat) : State :=
  ((s.put Reg.QM_CRCTX_CTRL_en r false).set Reg.QM_CRCTX_IDX_resv r (s.get Reg.QM_CRCTX_IDX_prod r)).put Reg.RX_read r false

/-- A function is reset (R416): `lost` where its records would go to a ring that the reset disables (R417). A reset
in progress stands (R419). -/
def State.fnReset (s : State) (g : Nat) (lost : Bool) : State :=
  if s.fnState g = fsResetting then s.put Reg.FN_lost g (s.flag Reg.FN_lost g || lost)
  else
    let s := (((s.migReset g).set Reg.FN_STATE_state g fsResetting).put Reg.FN_lost g lost).set Reg.FN_flr g (s.clk + 1)
    let s := { s with held := s.held.filter (fun p => p.1 != g), rdWait := s.rdWait.filter (fun p => p.1 != g) }
    let s := forEach (s.queuesOf g) (fun q t => t.resetQueue q) s
    let s := forEach ((s.instances Reg.DMX_kind).filter (fun c => s.chOwner c == g)) (fun c t => t.resetRun c) s
    let s := forEach (s.ringsOf g) (fun r t => t.resetRing r) s
    let s := (s.zeroOwner g).cfgFlr g
    if 2 ≤ g then s.pvVfReset g else s

/-- The VFs of a PF that exist, resetting ones included. -/
def State.liveVfs (s : State) (h : Nat) : List Nat := (s.instances Reg.FN_STATE_state).filter (fun g => isVfOf h g && s.fnExists g)

/-- Windows of a PF are closed by its reset (R447). -/
def State.windowsClose (s : State) (h : Nat) : State :=
  forEach (List.range 16) (fun w t =>
    (((t.put Reg.MBX_WIN_CFG_en (16 * h + w) false).set Reg.MBX_WIN_STATUS_cursor (16 * h + w) 0).set Reg.WNX_seq (16 * h + w) 0).put
      Reg.WNX_wait (16 * h + w) false) s

/-- A PF is reset, and with it every VF of it (R417); its held event records are discarded (R89). -/
def State.pfReset (s : State) (h : Nat) : State :=
  if s.fnState h = fsResetting then s
  else
    let s := forEach (s.liveVfs h) (fun g t => t.fnReset g true) s
    let s := (((s.fnReset h true).setBacklog h []).cfgSriov h).windowsClose h
    ((s.pvPfReset h).mbxReset (h + 1)).mbxOwe (h + 1)

/-- An FLR of a function (R416, R417); in WHITEOUT it resets only the configuration space (R483). -/
def State.flr (s : State) (g : Nat) : State :=
  if s.dev = dsWhiteout then (if g < 2 then (s.cfgFlr g).cfgSriov g else s.cfgFlr g)
  else if g < 2 then s.pfReset g else s.fnReset g false

/-- VF Enable is set: the VFs below NumVFs become ACTIVE (Table FN-1). -/
def State.vfOn (s : State) (h : Nat) : State :=
  let s := s.put Reg.CFG_vf_en h true
  forEach (vfsOf s h) (fun g t => if t.fnState g = fsAbsent then t.set Reg.FN_STATE_state g fsActive else t) s

/-- VF Enable is cleared: an FLR of every VF of the PF (R417). -/
def State.vfOff (s : State) (h : Nat) : State :=
  let s := s.put Reg.CFG_vf_en h false
  if s.dev = dsWhiteout then s else forEach (s.liveVfs h) (fun g t => t.fnReset g false) s

/-- Every entry of the function is accounted and every queue of it is DISABLED. -/
def State.fnQuiet (s : State) (g : Nat) : Bool :=
  (s.queuesOf g).all (fun q => (s.entsOf q).isEmpty && s.qState q == qsDisabled)

/-- The function leaves RESETTING (Table FN-1): a VF that is not present any more becomes ABSENT, and its mailbox page
is cleared (R446). A quarantine of scope FUNCTION is lifted; the reset of the last function that source 0x072 has
quarantined clears its `active` (R479, Table FC-2). -/
def State.fnLeave (s : State) (g : Nat) : State :=
  let was := s.flag Reg.FLT_fn g
  let s := ((s.put Reg.FN_quar g false).put Reg.FLT_fn g false).put Reg.FN_lost g false
  let s := if was && (s.having Reg.FLT_fn 1).isEmpty then
      (s.put Reg.FLT_SRC_STATUS_active 0x072 false).set Reg.FLT_SRC_STATUS_count 0x072 0
    else s
  if decide (2 ≤ g) && !s.vfPresent g then (s.pvClear g).set Reg.FN_STATE_state g fsAbsent
  else s.set Reg.FN_STATE_state g fsActive

/-! ## Contexts as bytes (Table FN-9) -/

/-- The words of a queue context that a record restores: offset, size, fields. `en`, `gfn` and `state` are left out. -/
def qCtxWords : List (Nat × Nat × List (Nat × Fld)) :=
  [(0x00, 4, [(26, Reg.QM_QCTX_CTRL_pipe), (25, Reg.QM_QCTX_CTRL_cmode), (22, Reg.QM_QCTX_CTRL_qclass),
      (18, Reg.QM_QCTX_CTRL_log2size), (15, Reg.QM_QCTX_CTRL_poll_class), (12, Reg.QM_QCTX_CTRL_burst)]),
   (0x04, 4, [(16, Reg.QM_QCTX_OWNER_local)]), (0x08, 8, [(12, Reg.QM_QCTX_BASE_base)]), (0x10, 8, [(3, Reg.QM_QCTX_WB_wb)]),
   (0x18, 8, [(6, Reg.QM_QCTX_STS_sts)]), (0x20, 4, [(0, Reg.QM_QCTX_CQ_cq)]),
   (0x24, 4, [(31, Reg.QM_QCTX_IRQ_irq_en), (0, Reg.QM_QCTX_IRQ_vec)]),
   (0x28, 4, [(16, Reg.QM_QCTX_POLL_wb_us), (0, Reg.QM_QCTX_POLL_poll_idle_n)]),
   (0x2C, 4, [(16, Reg.QM_QCTX_START_done), (0, Reg.QM_QCTX_START_cons)]), (0x30, 8, [(0, Reg.QM_QCTX_SEQ_acc_seq)]),
   (0x38, 4, [(12, Reg.QM_QCTX_STATUS_err_cause), (8, Reg.QM_QCTX_STATUS_cfg_refused), (7, Reg.QM_QCTX_STATUS_arm_pending),
      (6, Reg.QM_QCTX_STATUS_win_exposed), (5, Reg.QM_QCTX_STATUS_recov_pend)]),
   (0x3C, 4, [(0, Reg.QM_QCTX_STALLS_stalls)])]

/-- Store the words of a context from bytes. -/
def State.putWordsAt (s : State) (ws : List (Nat × Nat × List (Nat × Fld))) (i : Nat) (bs : List Byte) : State :=
  ws.foldl (fun t w => t.unpack w.2.2 i (leAt bs w.1 w.2.1)) s

/-- A queue's context from its 64 bytes; the owner and the state are left as they are. -/
def State.putQCtx (s : State) (q : Nat) (bs : List Byte) : State :=
  let s := s.putWordsAt qCtxWords q bs
  (s.set Reg.QX_pub q (s.qCons q)).set Reg.QX_wbdone q (s.get Reg.QM_QCTX_START_done q)

def State.putCrCtx (s : State) (r : Nat) (bs : List Byte) : State := s.putWordsAt crCtxWords r bs

/-! ## The PF–VF mailbox page (R444) -/

/-- The page's bytes 0x000 to 0x10F with what each side has staged. -/
def State.pvPage (s : State) (g : Nat) : List Byte :=
  let ws := fun (f : Fld) => (List.range 8).flatMap (fun k => leBytes 4 (s.get f (8 * g + k)))
  let z := fun n => List.replicate n 0#8
  ws Reg.PVU_tx ++ z 8 ++ leBytes 4 (s.get Reg.PVU_hdr g) ++ z 20 ++ ws Reg.PVU_data ++ z 32 ++ ws Reg.PVD_tx ++ z 8 ++
  leBytes 4 (s.get Reg.PVD_hdr g) ++ z 20 ++ ws Reg.PVD_data ++ z 32 ++
  leBytes 4 (s.pack [(31, Reg.PVU_full), (30, Reg.PVD_full), (29, Reg.PVU_txfull), (28, Reg.PVD_txfull), (16, Reg.PVU_epoch),
    (8, Reg.PVD_epoch)] g) ++
  leBytes 4 (s.pack [(31, Reg.PVM_irq_en), (0, Reg.PVM_irq_vec)] g) ++
  leBytes 4 (s.pack [(1, Reg.PVU_purge), (0, Reg.PVD_purge)] g) ++ z 4

/-- Install a page's bytes. -/
def State.putPvPage (s : State) (g : Nat) (bs : List Byte) : State :=
  let ws := fun (o : Nat) => (List.range 8).map (fun k => leAt bs (o + 4 * k) 4)
  let s := ((s.putWords Reg.PVU_tx (8 * g) (ws 0x00)).putWords Reg.PVU_data (8 * g) (ws 0x40)).putWords Reg.PVD_tx (8 * g) (ws 0x80)
  let s := ((s.putWords Reg.PVD_data (8 * g) (ws 0xC0)).set Reg.PVU_hdr g (leAt bs 0x28 4)).set Reg.PVD_hdr g (leAt bs 0xA8 4)
  let s := s.unpack [(31, Reg.PVU_full), (30, Reg.PVD_full), (29, Reg.PVU_txfull), (28, Reg.PVD_txfull), (16, Reg.PVU_epoch),
    (8, Reg.PVD_epoch)] g (leAt bs 0x100 4)
  let s := s.unpack [(31, Reg.PVM_irq_en), (0, Reg.PVM_irq_vec)] g (leAt bs 0x104 4)
  (s.unpack [(1, Reg.PVU_purge), (0, Reg.PVD_purge)] g (leAt bs 0x108 4)).pvPend g (bit (leAt bs 0x100 4) 31)

/-! ## The image (Tables FN-7 to FN-10) -/

/-- The share words of a function in the order of Table FN-4: bytes and fields. -/
def shareWords : List (Nat × List (Nat × Fld)) :=
  [(4, [(24, Reg.FN_QOS_poll_w), (16, Reg.FN_QOS_tx_w), (0, Reg.FN_QOS_host_kib)]),
   (4, [(8, Reg.DMA_FN_SHARE_max_eng), (0, Reg.DMA_FN_SHARE_weight)]),
   (4, [(31, Reg.CPH_FN_SHARE_urgent_en), (8, Reg.CPH_FN_SHARE_max_lanes), (0, Reg.CPH_FN_SHARE_weight)]),
   (8, [(63, Reg.SCH_HPOL_en), (32, Reg.SCH_HPOL_rate), (0, Reg.SCH_HPOL_burst)]),
   (4, [(31, Reg.OFL_FN_RX_hdr_en), (30, Reg.OFL_FN_RX_csum_en), (29, Reg.OFL_FN_RX_coal_en), (17, Reg.OFL_FN_RX_coal_us),
      (0, Reg.OFL_FN_RX_coal_max)])]

/-- The share words as bytes. -/
def State.shareBytes (s : State) (g : Nat) : List Byte := shareWords.flatMap (fun w => leBytes w.1 (s.pack w.2 g))

/-- Install the share words. -/
def putShares (g : Nat) : List (Nat × List (Nat × Fld)) → List Byte → State → State
  | [], _, s => s
  | w :: ws, bs, s => putShares g ws (bs.drop w.1) (s.unpack w.2 g (leAt bs 0 w.1))

/-- A vector's table entry. -/
def State.vecEntry (s : State) (g v : Nat) : List Byte :=
  let i := vix g v
  leBytes 8 (s.get Reg.MSIX_addr i) ++ leBytes 4 (s.get Reg.MSIX_data i) ++ leBytes 4 (s.get Reg.MSIX_mask i)

def State.putVecEntry (s : State) (g v : Nat) (bs : List Byte) : State :=
  let i := vix g v
  ((s.set Reg.MSIX_addr i (leAt bs 0 8)).set Reg.MSIX_data i (leAt bs 8 4)).set Reg.MSIX_mask i (leAt bs 12 4)

/-- The pending bits of 64 vectors from one as a number. -/
def State.pbaWord (s : State) (g v : Nat) : Nat :=
  (List.range 64).foldl (fun a k => a + s.get Reg.MSIX_pba (vix g (v + k)) * 2 ^ k) 0

/-- The function section (Table FN-8). -/
def State.fnSection (s : State) (g : Nat) : List Byte :=
  padTo 1024 ((List.range (s.nvec g)).flatMap (fun v => s.vecEntry g v)) ++ leBytes 8 (s.pbaWord g 0) ++
  padTo 8 [BitVec.ofNat 8 (s.get Reg.FN_STATE_fmask g + 2 * s.get Reg.CFG_msix_en g)] ++
  (List.range 64).flatMap (fun v => leBytes 4 (s.get Reg.VMOD_us (vix g v) + 65536 * s.get Reg.VMOD_cnt (vix g v))) ++
  padTo 32 (s.shareBytes g) ++ padTo 720 (s.pvPage g)

/-- Install a function section. -/
def State.putFnSection (s : State) (g : Nat) (bs : List Byte) : State :=
  let s := forEach (List.range (s.nvec g)) (fun v t =>
    let i := vix g v
    let m := leAt bs (0x410 + 4 * v) 4
    let t := (t.putVecEntry g v (bs.drop (16 * v))).set Reg.MSIX_pba i (bits (leAt bs 0x400 8) v 1)
    (t.set Reg.VMOD_us i (bits m 0 10)).set Reg.VMOD_cnt i (bits m 16 8)) s
  let s := (s.put Reg.FN_STATE_fmask g (bit (byteAt bs 0x408) 0)).put Reg.CFG_msix_en g (bit (byteAt bs 0x408) 1)
  (putShares g shareWords (bs.drop 0x510) s).putPvPage g (bs.drop 0x530)

/-- A queue record: its state is the one to restore. -/
def State.queueRec (s : State) (q : Nat) : List Byte :=
  let c := s.qCtx q
  leBytes 8 q ++ splice c 0x38 (leBytes 4 (setBits (leAt c 0x38 4) 0 3 (s.get Reg.QX_frz q)))

def State.ringRec (s : State) (r : Nat) : List Byte := leBytes 8 r ++ s.crCtx r

/-- Length of the image of a VF (R422). -/
def State.imageLen (s : State) (g : Nat) : Nat :=
  64 + 2048 + 72 * (s.queuesOf g).length + 40 * (s.ringsOf g).length + 6208 * (s.pagesOf g).length

/-- The migration KEK of a PF: its key, where it is named, valid and on a page of the PF (R332). -/
def State.migKek (s : State) (h : Nat) : Option (List Byte) :=
  let pg := s.get Reg.CPH_MIG_page h
  let k := s.get Reg.CPH_MIG_slot h
  if s.flag Reg.CPH_MIG_en h && s.pageOwner pg == h && s.slotValid pg k && bit (s.slotAttr pg k) 5 then some (s.slotKey pg k)
  else none

/-- The image of a VF under a KEK. -/
def State.image (s : State) (g : Nat) (kek : List Byte) : List Byte :=
  let qs := s.queuesOf g
  let rs := s.ringsOf g
  let ps := s.pagesOf g
  let body := s.fnSection g ++ qs.flatMap s.queueRec ++ rs.flatMap s.ringRec ++ ps.flatMap (fun p => s.pageRecord p kek)
  let qo := 2112
  let ro := qo + 72 * qs.length
  let hd := [0x56#8, 0x46#8, 0x49#8, 0x4D#8] ++ leBytes 2 0x100 ++ leBytes 2 (s.nvec g) ++ leBytes 4 (s.imageLen g) ++
    leBytes 2 g ++ leBytes 2 qs.length ++ leBytes 2 rs.length ++ leBytes 2 ps.length ++ leBytes 4 (crcDigest body) ++
    leBytes 6 s.now ++ leBytes 2 0 ++ leBytes 4 64 ++ leBytes 4 qo ++ leBytes 4 ro ++ leBytes 4 (ro + 40 * rs.length) ++
    List.replicate 12 0#8
  hd ++ leBytes 4 (crcDigest hd) ++ body

/-- The image is well formed and fits (R428, result 0x06). -/
def imageOk (img : List Byte) (buflen : Nat) : Bool :=
  let len := leAt img 8 4
  img.take 4 == [0x56#8, 0x46#8, 0x49#8, 0x4D#8] && leAt img 4 2 == 0x100 && leAt img 60 4 == crcDigest (slice img 0 60) &&
  decide (64 ≤ len ∧ len ≤ buflen) && leAt img 20 4 == crcDigest ((img.take len).drop 64)

def imgQueues (img : List Byte) : List (List Byte) :=
  (List.range (bits (leAt img 14 2) 0 12)).map (fun k => slice img (2112 + 72 * k) 72)
def imgRings (img : List Byte) : List (List Byte) :=
  (List.range (leAt img 16 2)).map (fun k => slice img (2112 + 72 * bits (leAt img 14 2) 0 12 + 40 * k) 40)
def imgPages (img : List Byte) : List (List Byte) :=
  let o := 2112 + 72 * bits (leAt img 14 2) 0 12 + 40 * leAt img 16 2
  (List.range (bits (byteAt img 18) 0 4)).map (fun k => slice img (o + 6208 * k) 6208)

def recQueue (r : List Byte) : Nat := bits (leAt r 0 4) 0 18
def recRing (r : List Byte) : Nat := leAt r 0 2
def recPage (r : List Byte) : Nat := bits (leAt r 0 2) 0 13

/-- The image's contexts are exactly those the VF owns, and its vectors fit (R428, result 0x07). -/
def State.imageFits (s : State) (g : Nat) (img : List Byte) : Bool :=
  (imgQueues img).map recQueue == s.queuesOf g && (imgRings img).map recRing == s.ringsOf g &&
  (imgPages img).map recPage == s.pagesOf g && bits (leAt img 6 2) 0 7 == s.nvec g

/-- Install slot `k` of a page record; false where the key fails its integrity check. -/
def State.putSlot (s : State) (pg : Nat) (rec kek : List Byte) (k : Nat) : Bool × State :=
  let r := slice rec (64 + 96 * k) 96
  let n := byteAt r 4
  let i := kix pg k
  if n = 0 then (true, (s.put Reg.KY_valid i false).set Reg.KY_gen i (byteAt r 2))
  else
    match kwUnwrap kek (slice r 8 n) with
    | some key =>
      if n = keyBytes (byteAt r 0) + 8 then (true, (s.loadKey pg k (byteAt r 0) key).set Reg.KY_gen i (byteAt r 2))
      else (false, s.put Reg.KY_valid i false)
    | none => (false, s.put Reg.KY_valid i false)

/-- Install a page record; false where a slot stays invalid. -/
def State.putPage (s : State) (rec kek : List Byte) : Bool × State :=
  let pg := recPage rec
  (List.range 64).foldl (fun a k => let r := a.2.putSlot pg rec kek k; (a.1 && r.1, r.2))
    (true, s.put Reg.CPH_PAGE_OWNER_fp_access pg (bit (byteAt rec 2) 0))

/-! ## Migration units (R422 to R429) -/

/-- The PF a command to a migration unit comes from: a PF itself, and firmware for the VF's PF (DESIGN CHOICE, log
entry 21). -/
def migPf (w : Who) (g : Nat) : Option Nat :=
  match w with
  | .pf h => some h
  | .fw _ => some (pfOf g)
  | _ => none

/-- A unit takes a PF's command: it is idle, or busy for that PF. -/
def State.migTakes (s : State) (u h : Nat) : Bool :=
  !s.flag Reg.FN_MIG_STATUS_busy u || s.get Reg.FN_MIG_STATUS_pf u == h

/-- A unit ends its command with a result. -/
def State.migEnd (s : State) (u res : Nat) : State :=
  { ((s.put Reg.FN_MIG_STATUS_busy u false).set Reg.FN_MIG_STATUS_result u res).set Reg.MGX_op u 0 with
    migImg := SM.del s.migImg u }

/-- A unit begins a command on a VF: 1 a FREEZE that waits for work, 2 one that writes its image, 3 a THAW. -/
def State.migBegin (s : State) (u h g op : Nat) : State :=
  let s := ((s.put Reg.FN_MIG_STATUS_busy u true).set Reg.FN_MIG_STATUS_pf u h).put Reg.FN_MIG_STATUS_key_fail u false
  (s.set Reg.MGX_gfn u g).set Reg.MGX_op u op

/-- The image buffer of a unit. -/
def State.migBuf (s : State) (u : Nat) : Nat := s.get Reg.FN_MIG_BUF_buf u * 64

/-- The pair refuses a FREEZE of a VF that owns a mirrored queue or page (R473). -/
def State.fnMirrored (s : State) (g : Nat) : Bool :=
  let st := s.get Reg.TWN_STATUS_state 0
  !(st == 0 || st == 6) && ((s.queuesOf g).any s.qmask ||
    (s.pagesOf g).any (fun p => bit (s.get Reg.TWN_PMASK_mir (p / 32)) (p % 32)))

/-- Result of the checks of a FREEZE; 0 where it is accepted (R423, R473). -/
def State.freezeBad (s : State) (u h g : Nat) : Nat :=
  if s.flag Reg.FN_MIG_STATUS_busy u then 0x01
  else if s.flrNow g then 0x08
  else if !isVfOf h g || s.fnState g != fsActive || s.fnMirrored g then 0x02
  else if (s.migKek h).isNone then 0x03
  else if 8 < (s.pagesOf g).length then 0x04
  else if s.get Reg.FN_MIG_BUFLEN_len u < s.imageLen g then 0x05
  else 0

/-- The state a queue returns to (Table FN-9). -/
def frzState (st : Nat) : Nat := if st = qsActive ∨ st = qsDormant then st else qsDisabled

/-- A queue of a freezing VF stops polling; RX buffers that hold no part of a frame are returned and placements end
(R424). -/
def State.freezeQueue (s : State) (q : Nat) : State :=
  let s := ((s.flushCoalQ q).discardFetched q).set Reg.QX_frz q (frzState (s.qState q))
  let s := forEach [Reg.QX_poll, Reg.QX_last, Reg.QX_due] (fun f t => t.put f q false) s
  forEach (s.places.filter (fun p => p.q == q)) (fun p t => t.placeEnd p 0x57) (s.pump q)

/-- The final writeback of a queue and FROZEN (R45, Table WQ-10). -/
def State.freezeDone (s : State) (q : Nat) : State :=
  let st := s.qState q
  if st = qsActive ∨ st = qsDormant ∨ st = qsDraining then
    ((s.firnAppend (.final q (s.qCons q))).writeback q true false).setQ q qsFrozen
  else s

/-- A frozen queue returns to the state its record holds, and polls at once where it is ACTIVE or was armed (R426,
R429); a queue that was quarantined meanwhile goes on to ERROR (Table WQ-10). -/
def State.thawQueue (s : State) (q st : Nat) : State :=
  let arm := s.flag Reg.QM_QCTX_STATUS_arm_pending q && st == qsDormant
  let st := if arm then qsActive else st
  let s := ((s.put Reg.QM_QCTX_STATUS_arm_pending q false).setQ q st).set Reg.QX_idle q 0
  let s := s.put Reg.QX_dorm q (st == qsDormant)
  if s.flag Reg.QX_quar q && (st == qsActive || st == qsDormant) then s.queueError q (s.get Reg.QX_quarc q)
  else if st = qsActive then s.dueAt q s.clk else s

/-- Result of the checks of a THAW of an image; 0 where it is accepted (R428). -/
def State.thawBad (s : State) (u h g : Nat) (img : List Byte) : Nat :=
  if s.flag Reg.FN_MIG_STATUS_busy u then 0x01
  else if s.flrNow g then 0x08
  else if !isVfOf h g || s.fnState g != fsActive || (s.queuesOf g).any (fun q => s.qState q != qsDisabled) then 0x02
  else if (s.migKek h).isNone then 0x03
  else if !imageOk img (s.get Reg.FN_MIG_BUFLEN_len u) then 0x06
  else if !s.imageFits g img then 0x07
  else 0

/-- Install an image (R429): the function section, every queue, ring and page; then the queues' states. -/
def State.install (s : State) (g : Nat) (img kek : List Byte) : Bool × State :=
  let s := s.putFnSection g (slice img 64 2048)
  let s := forEach (imgRings img) (fun r t => t.putCrCtx (recRing r) (r.drop 8)) s
  let s := forEach (imgQueues img) (fun r t => t.putQCtx (recQueue r) (r.drop 8)) s
  let (ok, s) := (imgPages img).foldl (fun a r => let x := a.2.putPage r kek; (a.1 && x.1, x.2)) (true, s)
  (ok, forEach (imgQueues img) (fun r t => t.thawQueue (recQueue r) (bits (leAt r 0x40 4) 0 3)) s)

/-! ## Dirty-page marks (R427) -/

/-- Words of a tracker's bitmap. -/
def State.dlogWords (s : State) (k : Nat) : Nat := (s.get Reg.FN_DLOG_PAGES_pages k + 63) / 64

/-- A word of the bitmap. -/
def State.dlogWord (s : State) (k i : Nat) : Nat :=
  (List.range 64).foldl (fun a j => a + s.get Reg.DLOG_mark (k * 2 ^ 40 + 64 * i + j) * 2 ^ j) 0

/-- Copy a tracker's marks into the bitmap, word by word, clearing what is copied; then read the last word back. -/
def State.harvest (s : State) (k : Nat) : State :=
  let pf := pfOf (s.get Reg.FN_DLOG_CTRL_gfn k)
  let map := s.get Reg.FN_DLOG_MAP_map k
  let n := s.dlogWords k
  let s := forEach (List.range n) (fun i t =>
    let w := t.dlogWord k i
    let t := forEach (List.range 64) (fun j t => t.put Reg.DLOG_mark (k * 2 ^ 40 + 64 * i + j) false) t
    t.hostWrite pf (map + 8 * i) (leBytes 8 w) false false) s
  if n = 0 then s else (s.put Reg.FN_DLOG_CTRL_busy k true).hostRead pf (map + 8 * (n - 1)) 8 false false .other

end Sys2Proof.Machine
end

