-- ==== Sys2Proof/Machine/Inline.lean ====
section
/-! DEFINITION. Sys2Proof/Machine/Inline.lean: the ends of cipher jobs, inline jobs and the DRBG (chapters "Masked Cipher
Lanes and User Pages" and "Tunnels, Secure Transports and Storage Offload"). -/

namespace Sys2Proof.Machine

/-! ## Inline jobs: the start (R309, R331, R348) -/

/-- The frame of a leaf that waits for an inline lane: in its egress stage, or at its host port. -/
def State.inlineFrame (s : State) (l : Nat) : Option Nat :=
  let p := (s.leafPath l).2.2
  let waits := fun f => ((s.frame f).phase == 1 || (s.frame f).phase == 4 || (s.frame f).phase == 6) && s.jobs.all (fun j => !(j.kind == 2 && j.frame == f))
  if isExt p then (s.egGroup l).find? waits
  else
    match s.get Reg.PT_tx (macIx (macOf p)) with
    | 0 => none
    | f + 1 => if (s.frame f).from_ = l ∧ waits f = true then some f else none

/-- The usage bit that an SA's job needs of its key (Table CP-1). -/
def saUse (r : List Byte) : Nat := if saMode r = 1 then 4 else if saIngress r then 3 else 2

/-- Why the frame's SA does not serve: SA_INVALID, KEY_INVALID, or 0 (R313, R331). -/
def State.inlineBad (s : State) (x : Frame) (r : List Byte) : Nat :=
  let pg := saPage r
  let mine := if x.qp1 ≠ 0 ∧ x.saThr = false then s.pageOwner pg == s.qOwner (x.qp1 - 1) else s.flag Reg.CPH_PAGE_OWNER_fp_access pg
  if !saValid r || !saUsable r || !mine then 0x42
  else
    let a := s.slotAttr pg (saSlot r)
    if !s.slotValid pg (saSlot r) || !bit a 6 || bit a 1 != (saMode r == 2) || !bit a (saUse r) then 0x41 else 0

/-- The records of a TLS frame, for an SA that protects. -/
def tlsCount (x : Frame) : Nat :=
  match tcpPayload x.bytes x.l3 x.l4 with
  | some (_, _, _, pl) => ((tlsRecords pl.length pl).getD []).length
  | none => 0

/-- The first time the counter reaches its mark, one SA_NEAR event (R348). -/
def State.saNear (s : State) (i : Nat) (r : List Byte) : State :=
  if saNearAt r ≤ saSeq r + 1 ∧ s.flag Reg.OFX_near i = false then (s.put Reg.OFX_near i true).oflEvent 0x1 i else s

/-- An inline job of frame `f` takes a lane with SA record `r` of index `i`; sequences are assigned here. -/
def State.inlineTake (s : State) (l f i : Nat) (r : List Byte) : State :=
  let x := s.frame f
  let out := !saIngress r
  let counted := out && (saProto r == pESP || saProto r == pMACsec)
  let tls := out && saProto r == pTLS
  let resync := tls && oResync x.offl
  let seq0 := if resync then x.meta_ else saSeq r
  let n := if counted then 1 else if tls && !resync then tlsCount x else 0
  let s := if n = 0 then s else s.wr (baseSA + 128 * i + 32) (leBytes 8 ((saSeq r + n) % 2 ^ 64))
  let s := if counted then s.saNear i r else s
  let k := s.fetchKey (saPage r) (saSlot r)
  let j : Job := { kind := 2, owner := 0x3000, frame := f, page := saPage r, slot := saSlot r, tag := i, iv := r }
  (k.2.pmu 12 2 1).addJob { j with du := seq0, lane := l + 1, shares := k.1, start := s.clk }

/-- An inline job that deciphers what a frame places (R309, R356): it names no SA, and the placements' keys are judged and
fetched as their data is written (log entry 18). -/
def placeTag : Nat := 2 ^ 20

/-- Such a job takes a lane. -/
def State.placeTake (s : State) (f l : Nat) : State :=
  (s.pmu 12 2 1).addJob { kind := 2, owner := 0x3000, frame := f, page := 8192, tag := placeTag, lane := l + 1, start := s.clk }

/-- The sequence of an SA is exhausted: the frame is dropped, with one event for the SA (R348, R357). -/
def State.saExhaust (s : State) (i f : Nat) : State :=
  let s := if s.flag Reg.OFX_exh i then s else (s.put Reg.OFX_exh i true).oflEvent 0x2 i
  (s.oflCnt 4).stageEnd f 0x53

def execInlineJobStart (leaf : Nat) (s : State) : Res :=
  match s.inlineFrame leaf, s.idleLane false with
  | some f, some l =>
    let x := s.frame f
    let i := x.sa - 1
    let r := s.saRec i
    let c := s.inlineBad x r
    if !s.moving then .next s
    else if x.phase = 6 then .next (s.placeTake f l)
    else if c ≠ 0 then .next ((s.inc Reg.CPH_INLINE_DROP_count 0).stageEnd f c)
    else if saProto r = pMACsec ∧ saIngress r = false ∧ 16 ≤ (s.leafPath leaf).2.2 then .next (s.stageEnd f 0x42)
    else if saIngress r = false ∧ (saProto r = pESP ∨ saProto r = pMACsec) ∧ saExhausted r = true then .next (s.saExhaust i f)
    else .next (s.inlineTake l f i r)
  | _, _ => .next s

/-! ## Inline jobs: the end -/

/-- The step of a frame's job is done: its bytes, its section of the receive header, and its next place. -/
def State.inlineNext (s : State) (f : Nat) (bs : List Byte) (g : RxInfo → RxInfo) : State :=
  s.updFrame f (fun x => { x with bytes := bs, phase := if x.phase = 1 then 2 else 3, rxi := g x.rxi })

/-- Keep what an ingress step made of the SA, unless the SA was rewritten since the job's start (R331). -/
def State.saKeep (s : State) (j : Job) (r : List Byte) : State := if j.was then s else s.wr (baseSA + 128 * j.tag) r

/-- Count an egress step in the SA. -/
def State.saOctets (s : State) (j : Job) (n : Nat) : State := s.saKeep j (saCount (s.saRec j.tag) n)

/-- The record whose counters judge a frame: the present one, or the job's own where it was rewritten. -/
def State.saCur (s : State) (j : Job) : List Byte := if j.was then j.iv else s.saRec j.tag

/-- ESP and MACsec. -/
def State.inlineFrameStep (s : State) (j : Job) : State :=
  let x := s.frame j.frame
  let r := j.iv
  let sec := if saProto r = pESP then 1 else 2
  if !saIngress r then
    let o := if saProto r = pESP then espOut r j.du j.key x.l3 x.l4 x.bytes else some (msOut r j.du j.key x.bytes)
    match o with
    | none => s.noHeader j.frame
    | some (b, n) => (s.saOctets j n).inlineNext j.frame b (fun i => { i with sec := sec, secOk := true })
  else
    let o := if saProto r = pESP then espIn r (s.saCur j) j.key x.l3 x.l4 x.bytes else msIn r (s.saCur j) j.key x.bytes
    match o with
    | some (b, r', _) =>
      (s.saKeep j r').inlineNext j.frame b (fun i => { i with sec := sec, secOk := true })
    | none =>
      if saProto r = pMACsec ∧ msCheck r = true then
        s.inlineNext j.frame x.bytes (fun i => { i with sec := 2, secOk := false })
      else (s.oflCnt (if saProto r = pESP then 5 else 6)).stageEnd j.frame stDropped

/-- Follow a TLS stream (R353). -/
def State.tlsFollow (s : State) (j : Job) (t p : Nat) (pl : List Byte) : State :=
  let x := s.frame j.frame
  let cur := s.saCur j
  let seq := beAt x.bytes (t + 4) 4
  let same := s.inlineNext j.frame x.bytes (fun i => { i with sec := 3, tracked := true })
  let lost := (({ same with tls := SM.del same.tls j.tag }).saKeep j
    (splice cur 47 [BitVec.ofNat 8 (setBits (byteAt cur 47) 0 1 0)])).oflEvent 0x3 j.tag
  if pl.isEmpty || !tlsSynced cur then same
  else if seq = tlsNext cur then
    let run := tlsFeed j.iv j.key (2 * pl.length + 2) pl { buf := SM.get [] s.tls j.tag, seq := saSeq cur }
    if run.bad then lost
    else
      let s := s.saKeep j (saCount (tlsFields cur run (seq + pl.length)) pl.length)
      let s := if j.was then s else { s with tls := SM.put [] s.tls j.tag run.buf }
      s.inlineNext j.frame (splice x.bytes p run.out) (fun i => { i with
        sec := 3, secOk := decide (0 < run.good ∧ run.failed = 0), secFail := decide (0 < run.failed),
        tlsPart := !run.buf.isEmpty, tracked := true })
  else if (tlsNext cur + 2 ^ 33 - (seq + pl.length)) % 2 ^ 32 < 2 ^ 31 then same
  else lost

/-- TLS and NVMe/TCP encryption. -/
def State.inlineStream (s : State) (j : Job) : State :=
  let x := s.frame j.frame
  let r := j.iv
  match tcpPayload x.bytes x.l3 x.l4 with
  | none => s.noHeader j.frame
  | some (_, t, p, pl) =>
    if saProto r = pTLS then
      if saIngress r then s.tlsFollow j t p pl
      else
        match tlsRecords pl.length pl with
        | none => s.stageEnd j.frame 0x54
        | some rs => (s.saOctets j pl.length).inlineNext j.frame (splice x.bytes p (tlsSealAll r j.key j.du rs)) (fun i => i)
    else
      match nvPdus pl.length pl with
      | none => s.noHeader j.frame
      | some ps =>
        let du := 9 + Config.saUnit r % 4
        (s.saOctets j pl.length).inlineNext j.frame (splice x.bytes p (nvCrypt (saIngress r) j.key du x.meta_ ps)) (fun i => i)

/-- An inline job ends; one whose slot was zeroised, with KEY_ZEROISED (R321). A frame whose placement was deciphered goes
on to its tracking (R309, R356). -/
def State.inlineEnd (s : State) (j : Job) : State :=
  let s := (s.jobDrop j).pmu 12 4 ((s.frame j.frame).bytes.length / 64)
  if j.zeroed then s.stageEnd j.frame 0x44
  else if j.tag = placeTag then s.updFrame j.frame (fun x => { x with phase := 5 })
  else if saProto j.iv = pESP ∨ saProto j.iv = pMACsec then s.inlineFrameStep j else s.inlineStream j

/-! ## Look-aside jobs: the end (R322 to R325) -/

/-- The job's source bytes and the tag it checks. -/
def State.jobData (s : State) (j : Job) (src tag : List Byte) : List Byte × List Byte :=
  if j.kind = 0 then (padTo (j.aad + j.len) src, padTo j.tagLen tag)
  else (s.rd (spaceBase j.thr j.space + j.src) (j.aad + j.len), s.rd (spaceBase j.thr j.space + j.tag) j.tagLen)

/-- Two ranges overlap. -/
def rangesMeet (a n b m : Nat) : Bool := decide (0 < n) && decide (0 < m) && decide (a < b + m) && decide (b < a + n)

/-- Source, output and tag overlap other than by an output that begins where the source does (R322). -/
def State.jobOverlap (s : State) (j : Job) : Bool :=
  let data := j.op == coEncrypt || j.op == coDecrypt
  let n := if data then j.len else 0
  let frags : List (Nat × Nat) := match s.entAt j.q j.idx with
    | some e => if j.kind = 0 ∧ weIndirect e.bytes = true then e.frags.map (fun f => (f.1, f.2.1)) else []
    | none => []
  let srcs := if frags.isEmpty then [(j.src, j.aad + j.len)] else frags
  srcs.any (fun p => rangesMeet p.1 p.2 j.tag j.tagLen || (!(frags.isEmpty && j.dst == j.src) && rangesMeet p.1 p.2 j.dst n)) ||
  rangesMeet j.dst n j.tag j.tagLen

/-- What a job writes: its output and tag, or free bytes where its ranges overlap (log entry 1). -/
def State.jobResult (s : State) (j : Job) (out t : List Byte) : (List Byte × List Byte) × State :=
  if s.jobOverlap j then
    let a := s.freshBytes out.length
    let b := a.2.freshBytes t.length
    ((a.1, b.1), b.2)
  else ((out, t), s)

/-- The output, the tag and the report of a job over its data. -/
def State.jobFinish (s : State) (j : Job) (src tag : List Byte) : State :=
  let (d, want) := s.jobData j src tag
  let (out, t) := jobOut j.op j.mode j.du j.key j.iv (d.take j.aad) (d.drop j.aad)
  let t := t.take j.tagLen
  let fl := s.jobFlags j
  let data := j.op == coEncrypt || j.op == coDecrypt
  let checks := j.op == coMacVerify || (j.op == coDecrypt && j.mode == cmGcm)
  let makes := j.op == coMacGen || (j.op == coEncrypt && j.mode == cmGcm)
  let w := s.jobResult j out t
  let s := if data && j.len != 0 then w.2.jobWrite j j.dst w.1.1 fl.1 fl.2 else w.2
  let s := if makes then s.jobWrite j j.tag w.1.2 fl.1 fl.2 else s
  (s.jobDrop j).jobReport j (if checks && t != want then 0x40 else 0) (if data then j.len else 0)

/-- A freed lane resumes the job that was suspended first, unless an URGENT job waits (R328). -/
def State.laneFreed (s : State) (l : Nat) : State :=
  let urgent := s.jobs.any (fun j => j.urgent && j.kind != 2 && j.lane == 0 && j.sus == 0 && s.lanesLeft j.owner)
  if urgent || !s.laneIdle true l then s
  else
    match (s.jobs.filter (fun j => j.sus != 0 && s.lanesLeft j.owner)).foldl
        (fun a j => match a with | none => some j | some b => if j.sus < b.sus then some j else a) none with
    | some j => s.jobRun j l
    | none => s

/-- The job in a lane ends: `src` and `tag` are what an entry's reads returned. -/
def execJobComplete (lane : Nat) (src tag : ReadResult) (s : State) : Res :=
  match s.laneJob lane with
  | none => .next s
  | some j =>
    if j.kind = 2 then .next (s.inlineEnd j)
    else
      let bad := fun (e : ReadResult) => ((s.aer j.owner (ReadResult.aerBit e) false []).jobAbort j 0x45).laneFreed lane
      if j.kind = 1 then .next ((s.jobFinish j [] []).laneFreed lane)
      else
        match src, tag with
        | .data a, .data b => .next ((s.jobFinish j a b).laneFreed lane)
        | .data a, e =>
          if j.op = coMacVerify ∨ (j.op = coDecrypt ∧ j.mode = cmGcm) then .next (bad e)
          else .next ((s.jobFinish j a []).laneFreed lane)
        | e, _ => .next (bad e)

/-! ## Randomness (R311, R312) -/

/-- A reseed, with the failures of the continuous tests since the last one: one is counted and the seed stays, two or
more are a fatal fault. -/
def execDrbgReseed (fails : Nat) (s : State) : Res :=
  if !s.flag Reg.CPH_RNG_STATUS_ready 0 then .next s
  else
    match fails with
    | 0 => .next s.drbgEntropy
    | 1 => .next (s.inc Reg.CPH_RNG_STATUS_health_fail 0)
    | _ => .next (s.detect 0x0C0 0 false)

end Sys2Proof.Machine
end

