-- ==== Sys2Proof/Machine/HostEp.lean ====
section
/-! DEFINITION. Sys2Proof/Machine/HostEp.lean: the commands of the host endpoints: link, resets of a port, configuration
writes, Bus Master Enable, tags and time-outs, error reports (chapter "Host Endpoints H0 and H1"). -/

namespace Sys2Proof.Machine

/-! ## Link and resets of a port (R380, R381, R406, R508) -/

/-- The endpoint's configuration space is up: a reset of the port is an event (R406). -/
def State.hostUp (s : State) : Bool :=
  s.dev == dsService || s.dev == dsIdle || s.dev == dsWhiteout || (s.dev == dsBooting && decide (4 ≤ s.get Reg.GLB_STATE_boot_step 0))

/-- The data link layer goes up or down; a change is counted. -/
def State.hostLink (s : State) (h : Nat) (up : Bool) : State :=
  if s.flag Reg.HE_LINK_up h == up then s else (s.put Reg.HE_LINK_up h up).inc Reg.HE_LINK_CHG_count h

def execPcieLinkUp (h speed width : Nat) (flit : Bool) (s : State) : Res :=
  if s.dev = dsAonOnly ∨ s.dev = 0 ∨ s.flag Reg.HEX_perst h = true ∨ speed = 0 ∨ 6 < speed ∨ [1, 2, 4, 8, 16].contains width = false then
    .next s
  else
    let same := s.flag Reg.HE_LINK_up h && s.get Reg.HE_LINK_speed h == speed && s.get Reg.HE_LINK_width h == width
    let s := ((s.put Reg.HE_LINK_up h true).set Reg.HE_LINK_speed h speed).set Reg.HE_LINK_width h width
    let s := (s.put Reg.HE_LINK_flit h (speed == 6 || (flit && decide (4 ≤ speed)))).put Reg.HE_LINK_degraded h
      (decide (speed < 4 ∨ width < 16))
    .next (if same then s else s.inc Reg.HE_LINK_CHG_count h)

/-- The functions of a port whose configuration space exists. -/
def State.portFns (s : State) (h : Nat) : List Nat := h :: s.liveVfs h

/-- A reset of a port (R406): the configuration space of every function, the functions as R47 describes, what was
outstanding on the link, and a contained fault of source 0x0E0 + h. In WHITEOUT only the configuration space (R483). -/
def State.portReset (s : State) (h : Nat) : State :=
  let fns := s.portFns h
  let s := s.put Reg.HE_LINK_reset_seen h true
  let s := if s.dev = dsWhiteout then s else s.pfReset h
  let s := (forEach fns (fun g t => (t.cfgFlr g).cfgCold g) s).cfgSriov h
  let s := { s with
    reads := s.reads.filter (fun r => r.h != h)
    tagQuar := s.tagQuar.filter (fun p => p.h != h)
    rdWait := s.rdWait.filter (fun p => pfOf p.1 != h) }
  s.detect (0x0E0 + h) 0 false

def execPerstAssert (h : Nat) (s : State) : Res :=
  if s.flag Reg.HEX_perst h then .next s
  else
    let s := s.put Reg.HEX_perst h true
    .next ((if s.hostUp then s.portReset h else s).hostLink h false)

def execPerstRelease (h : Nat) (s : State) : Res := .next (s.put Reg.HEX_perst h false)

def execHotReset (h : Nat) (s : State) : Res :=
  if s.flag Reg.HEX_perst h || !s.flag Reg.HE_LINK_up h || !s.hostUp then .next s else .next (s.portReset h)

def execDlDown (h : Nat) (s : State) : Res :=
  if s.flag Reg.HEX_perst h || !s.flag Reg.HE_LINK_up h then .next s
  else .next ((if s.hostUp then s.portReset h else s).hostLink h false)

/-! ## Bus Master Enable and D3hot (R387, R397 to R399) -/

/-- Reissue a read with a new tag; while its function's Bus Master Enable is clear it waits with the held requests (R397,
R401). -/
def State.reissue (s : State) (r : Rd) : State :=
  if s.fnHeld r.gfn then { s with rdWait := s.rdWait ++ [(r.gfn, r)] } else s.sendRead r.gfn r

/-- Send the reads that wait for a tag, in order, as far as tags allow. -/
def State.kickReads (s : State) : State :=
  let l := s.rdWait
  forEach l (fun p t => if t.fnDead p.1 then t else t.reissue p.2) { s with rdWait := [] }

/-- What the function's requests drive again once it is held no longer: held requests in their order, runs, frames that
wait for buffers, vectors (R399). -/
def State.resume (s : State) (g : Nat) : State :=
  let fns := if g < 2 then g :: s.liveVfs g else [g]
  let s := s.kickReads.releaseHeld.releaseCompl
  let s := forEach ((s.having Reg.DMA_CH_STATUS_state chHeld)) (fun c t =>
    match t.chFn c with
    | some f => if t.fnHeld f then t else t.setCh c chReady
    | none => t) s
  let s := forEach (s.rxdel.map (fun e => e.1)) (fun q t => if t.fnHeld (t.qOwner q) then t else t.pump q) s
  forEach fns (fun f t => t.releaseVecs f) s

def execBmeClear (gfn : Nat) (s : State) : Res :=
  if s.cfgOpen gfn then .next (s.put Reg.FN_STATE_bme gfn false) else .next s

def execBmeSet (gfn : Nat) (s : State) : Res :=
  if s.cfgOpen gfn && !s.flag Reg.FN_STATE_bme gfn then .next ((s.put Reg.FN_STATE_bme gfn true).resume gfn) else .next s

/-- A function may enter D3hot: a PF only while every VF of it is disabled or in D3hot (R387). -/
def State.d3Ok (s : State) (g : Nat) : Bool :=
  decide (2 ≤ g) || (s.liveVfs g).all (fun v => s.flag Reg.FN_STATE_d3 v)

def execD3hotEntry (gfn : Nat) (s : State) : Res :=
  if s.cfgOpen gfn && s.d3Ok gfn then .next (s.put Reg.FN_STATE_d3 gfn true) else .next s

/-! ## Configuration writes (R382 to R387, R393 to R396, R400, R414) -/

/-- The bits of a doubleword that its byte enables write. -/
def beMask (be : Nat) : Nat := (List.range 4).foldl (fun a k => if bit be k then a + 0xFF * 2 ^ (8 * k) else a) 0

/-- Plain fields of the doubleword at an offset: lowest bit and field. The places are those of the PCI Express
specifications at the offsets of Table HE-2 (PRESUMED, log entry 20). -/
def cfgFields (off : Nat) : List (Nat × Fld) :=
  if off = 0x04 then [(1, Reg.CFG_mse)]
  else if off = 0x68 then
    [(0, Reg.CFG_err_en), (4, Reg.CFG_ro_en), (5, Reg.CFG_mps), (8, Reg.CFG_ext_tag), (11, Reg.CFG_ns_en), (12, Reg.CFG_mrrs)]
  else if off = 0x70 then [(0, Reg.CFG_aspm)]
  else if off = 0x88 then [(0, Reg.CFG_cto), (12, Reg.CFG_tag10)]
  else if off = 0x118 then [(10, Reg.CFG_mhr_en)]
  else if off = 0x160 then [(3, Reg.CFG_vf_mse)]
  else if off = 0x19C then [(31, Reg.CFG_ats_en)]
  else if off = 0x1B4 then [(16, Reg.CFG_acs)]
  else if off = 0x2E8 then [(2, Reg.CFG_tag14)]
  else []

/-- A number of `w` bits with the bits of `mask` taken from a value. -/
def mergeBits (w old val mask : Nat) : Nat :=
  (List.range w).foldl (fun a k => setBits a k 1 (if bit mask k then bits val k 1 else bits old k 1)) 0

/-- Store the bits of `mask` of a value in a field from bit `lo` on. -/
def State.setMasked (s : State) (f : Fld) (i lo val mask : Nat) : State :=
  s.set f i (mergeBits f.w (s.get f i) (val / 2 ^ lo) (mask / 2 ^ lo))

/-- Half of a 64-bit base address: the bits above the size of the BAR are taken. -/
def State.setBar (s : State) (f : Fld) (g size hi val mask : Nat) : State :=
  let x := mergeBits 32 (bits (s.get f g) (32 * hi) 32) val mask
  s.set f g (setBits (s.get f g) (32 * hi) 32 x / size * size)

/-- Uncorrectable errors implemented: bits 4, 12 to 20 and 22 (R393). -/
def uncBits : Nat := 0x005FF010
/-- Correctable errors implemented: bits 0, 6, 7, 8 and 12 to 15 (R394). -/
def corBits : Nat := 0x0000F1C1

/-- Clear uncorrectable status bits: the oldest logged error is serviced by the write of its bit, and its bit stays set
while another logged error has it (R396). -/
def State.aerService (s : State) (g m : Nat) : State :=
  match SM.get [] s.hdrLog g with
  | [] => s.set Reg.CFG_unc_sts g (s.get Reg.CFG_unc_sts g - (s.get Reg.CFG_unc_sts g &&& m))
  | (b, _) :: rest =>
    let s := if bit m b then { s with hdrLog := SM.put [] s.hdrLog g rest } else s
    let keep := rest.foldl (fun a e => if bit m b && e.1 == b then a ||| 2 ^ e.1 else a) 0
    let sts := s.get Reg.CFG_unc_sts g
    s.set Reg.CFG_unc_sts g ((sts - (sts &&& m)) ||| (keep &&& sts))

/-- What a configuration write to the doubleword at an offset does besides its plain fields. -/
def State.cfgSpecial (s : State) (g off val m : Nat) : State :=
  if off = 0x04 then
    if bit m 2 then
      if bit val 2 && !s.flag Reg.FN_STATE_bme g then (s.put Reg.FN_STATE_bme g true).resume g
      else s.put Reg.FN_STATE_bme g (bit val 2)
    else s
  else if off = 0x10 ∧ g < 2 then s.setBar Reg.CFG_bar0 g (2 ^ 26) 0 val m
  else if off = 0x14 ∧ g < 2 then s.setBar Reg.CFG_bar0 g (2 ^ 26) 1 val m
  else if off = 0x18 ∧ g < 2 then s.setBar Reg.CFG_bar2 g (2 ^ 20) 0 val m
  else if off = 0x1C ∧ g < 2 then s.setBar Reg.CFG_bar2 g (2 ^ 20) 1 val m
  else if off = 0x30 ∧ g < 2 then s.setMasked Reg.CFG_rom g 0 val (m &&& 0xFFF00001)
  else if off = 0x44 then
    if bit m 0 then
      if bits val 0 2 = 3 then (if s.d3Ok g then s.put Reg.FN_STATE_d3 g true else s)
      else if bits val 0 2 = 0 ∧ s.flag Reg.FN_STATE_d3 g = true then (s.put Reg.FN_STATE_d3 g false).resume g
      else s
    else s
  else if off = 0x50 then
    if bit m 31 then
      let on := bit val 31 && !s.flag Reg.CFG_msix_en g
      let s := (s.put Reg.CFG_msix_en g (bit val 31)).put Reg.FN_STATE_fmask g (bit val 30)
      let s := s.releaseVecs g
      if on then (if g < 2 then (s.mbxRing (g + 1)).pvRing g else s.pvRing g) else s
    else s
  else if off = 0x68 then
    if bit m 15 && bit val 15 then
      s.flr g
    else s
  else if off = 0x104 then s.aerService g (val &&& m)
  else if off = 0x108 then s.setMasked Reg.CFG_unc_mask g 0 val (m &&& uncBits)
  else if off = 0x10C then s.setMasked Reg.CFG_unc_sev g 0 val (m &&& uncBits)
  else if off = 0x110 then s.set Reg.CFG_cor_sts g (s.get Reg.CFG_cor_sts g - (s.get Reg.CFG_cor_sts g &&& (val &&& m)))
  else if off = 0x114 then s.setMasked Reg.CFG_cor_mask g 0 val (m &&& corBits)
  else if off = 0x118 then
    if bit m 8 then s.set Reg.CFG_ecrc_en g (2 * bits val 8 1 + bits (s.get Reg.CFG_ecrc_en g) 0 1) else s
  else if off = 0x160 ∧ g < 2 then
    if bit m 0 then
      if bit val 0 && !s.flag Reg.CFG_vf_en g then s.vfOn g
      else if !bit val 0 && s.flag Reg.CFG_vf_en g then s.vfOff g
      else s
    else s
  else if off = 0x168 ∧ g < 2 then
    if s.flag Reg.CFG_vf_en g then s
    else
      let t := s.setMasked Reg.CFG_numvfs g 0 val (m &&& 0xFFF)
      if 2048 < t.get Reg.CFG_numvfs g then s else t
  else if off = 0x17C ∧ g < 2 then s.setBar Reg.CFG_vfbar g (2 ^ 16) 0 val m
  else if off = 0x180 ∧ g < 2 then s.setBar Reg.CFG_vfbar g (2 ^ 16) 1 val m
  else s

def execConfigWrite (gfn off be val : Nat) (s : State) : Res :=
  if !s.cfgOpen gfn then .next s
  else
    let m := beMask be
    let s := (cfgFields off).foldl (fun t p => t.setMasked p.2 gfn p.1 val m) s
    let s := if off = 0x118 ∧ bit m 6 = true then
        s.set Reg.CFG_ecrc_en gfn (bits val 6 1 + 2 * bits (s.get Reg.CFG_ecrc_en gfn) 1 1) else s
    .next (s.cfgSpecial gfn off val m)

/-! ## Errors (R389, R393 to R396) -/

def execInboundBadAccess (gfn : Nat) (rd : Bool) (hdr : List Byte) (s : State) : Res :=
  if !s.flag Reg.HE_LINK_up (pfOf gfn) || !s.fnExists gfn then .next s
  else
    let mse := if gfn < 2 then s.flag Reg.CFG_mse gfn && !s.flag Reg.FN_STATE_d3 gfn else s.vfMem gfn
    let s := (s.inc Reg.HE_IN_ERR_count (pfOf gfn)).aer gfn (if mse then 15 else 20) rd hdr
    .next (if rd then s.emit (.badCpl gfn (!mse)) else s)

def execAerErrorDetected (gfn : Nat) (cor : Bool) (k : Nat) (hdr : List Byte) (s : State) : Res :=
  if !s.flag Reg.HE_LINK_up (pfOf gfn) || !s.fnExists gfn then .next s
  else if cor then (if [0, 6, 7, 8, 12].contains k then .next (s.aerCor (pfOf gfn) k) else .next s)
  else if [4, 13, 17, 18].contains k then .next (s.aer (pfOf gfn) k false hdr)
  else if [12, 19].contains k then .next (s.aer gfn k false hdr)
  else .next s

/-! ## Time-outs and tags (R400 to R402) -/

/-- The outstanding request of a tag. -/
def State.readAt (s : State) (h tag : Nat) : Option Rd := s.reads.find? (fun r => r.h == h && r.tag == tag)

/-- What a request whose reissues are used up, or that is not reissued, leaves (R401). -/
def State.readFail (s : State) : ReadFor → State
  | .poll q => if s.flag Reg.QX_poll q then (s.put Reg.QX_poll q false).queueError q 0x1 else s
  | .entry q idx =>
    match s.entAt q idx with
    | none => s
    | some e =>
      match s.frames.find? (fun x => x.2.qp1 == q + 1 && x.2.idx == idx && x.2.stage == .arriving) with
      | some (f, _) => s.endFrame f 0x23
      | none =>
        match s.jobs.find? (fun j => j.kind == 0 && j.q == q && j.idx == idx && j.lane != 0) with
        | some j => (s.jobAbort j 0x45).laneFreed (j.lane - 1)
        | none =>
          if e.tab && e.done.isNone && !e.mirr then
            s.finish q idx (if s.qClass q = qcDma then 0x60 else if s.qClass q = qcCph then 0x45 else 0x23) 0 0
          else s
  | .cons r => s.put Reg.RX_read r false
  | .readback c => if s.chState c = chReadback then s.dmaEnd c 0x63 else s
  | .other => s

/-- The Completion Timeout status of a request that is reissued; its message waits for how the reissue ends. -/
def State.aerMark (s : State) (g : Nat) : State := s.set Reg.CFG_unc_sts g (s.get Reg.CFG_unc_sts g ||| 2 ^ 14)

/-- The request has been outstanding for longer than its time-out: one whose completion arrives on the tick on which the
time-out expires is in time (R400). -/
def State.timedOut (s : State) (r : Rd) : Bool := decide (r.at0 + r.cto < s.clk)

/-- The time-out of the request with tag `rtag`, which was for `why`, expires; no request of that purpose under that tag: nothing. -/
def execCompletionTimeout (h rtag : Nat) (why : ReadFor) (hdr : List Byte) (s : State) : Res :=
  match s.readAt h rtag with
  | none => .next s
  | some r =>
    if r.why ≠ why ∨ s.timedOut r = false then .next s
    else
      let s := { ((s.inc Reg.HE_CTO_count h).pmu (17 + h) 3 1) with
        reads := s.reads.filter (fun x => x != r), tagQuar := s.tagQuar ++ [({ h := h, tag := rtag, gfn := r.gfn, until_ := s.clk + 4 * r.cto } : TagQuar)] }
      let poll := match r.why with | .poll _ => true | _ => false
      if poll = false ∧ r.att < s.get Reg.HE_CFG_cto_retry h ∧ s.fnDead r.gfn = false then
        .next ((s.aerMark r.gfn).reissue { r with att := r.att + 1 })
      else .next ((s.aer r.gfn 14 false hdr).readFail r.why)

def execCompletionArrival (h rtag : Nat) (hdr : List Byte) (s : State) : Res :=
  if !s.flag Reg.HE_LINK_up h then .next s else
  match s.readAt h rtag with
  | some r =>
    let s := { s with reads := s.reads.filter (fun x => x != r) }
    .next (if r.att = 0 then s.kickReads else (s.aer r.gfn 14 true hdr).kickReads)
  | none =>
    let g := ((s.tagQuar.find? (fun p => p.h == h && p.tag == rtag)).map (fun p => p.gfn)).getD h
    .next ((s.inc Reg.HE_LATE_count h).aer g 16 true hdr)

def execTagQuarantineEnd (h rtag : Nat) (s : State) : Res :=
  if s.tagQuar.any (fun p => p.h == h && p.tag == rtag && decide (p.until_ ≤ s.clk)) then
    .next { s with tagQuar := s.tagQuar.filter (fun p => !(p.h == h && p.tag == rtag)) }.kickReads
  else .next s

end Sys2Proof.Machine
end

