-- ==== Sys2Proof/Machine/CfgSpace.lean ====
section
/-! DEFINITION. Sys2Proof/Machine/CfgSpace.lean: what a function's configuration space reads as (R1, R384 to R386): its
header and the capabilities of Table HE-2. The numbers of the capabilities and the places of their bits are those of the
PCI Express specifications (PRESUMED, log entry 20). -/

namespace Sys2Proof.Machine

/-- A capability of Table HE-2: offset, number, version, and whether a VF carries it. -/
structure Cap where
  off : Nat
  id : Nat
  ver : Nat
  vf : Bool
deriving DecidableEq, Repr

/-- The capabilities below 0x100, in the order of the table. -/
def baseCaps : List Cap := [⟨0x40, 0x01, 0, false⟩, ⟨0x50, 0x11, 0, true⟩, ⟨0x60, 0x10, 0, true⟩]

/-- The extended capabilities, in the order of the table. -/
def extCaps : List Cap :=
  [⟨0x100, 0x01, 2, true⟩, ⟨0x148, 0x0E, 1, true⟩, ⟨0x158, 0x10, 1, false⟩, ⟨0x198, 0x0F, 1, true⟩, ⟨0x1A0, 0x03, 1, false⟩,
   ⟨0x1B0, 0x0D, 1, false⟩, ⟨0x1C0, 0x19, 1, false⟩, ⟨0x1F0, 0x25, 1, false⟩, ⟨0x200, 0x26, 1, false⟩, ⟨0x240, 0x2A, 1, false⟩,
   ⟨0x270, 0x31, 1, false⟩, ⟨0x290, 0x27, 1, false⟩, ⟨0x2E0, 0x2F, 1, true⟩, ⟨0x300, 0x23, 1, false⟩]

/-- The capabilities that a PF (or a VF) carries. -/
def capsOf (vf : Bool) (l : List Cap) : List Cap := l.filter (fun c => !vf || c.vf)

/-- The first capability of a list at an offset, with the offset of the next one; 0 after the last. -/
def capAt : List Cap → Nat → Option (Cap × Nat)
  | [], _ => none
  | c :: rest, o => if c.off = o then some (c, match rest with | [] => 0 | d :: _ => d.off) else capAt rest o

/-- The capability in whose registers an offset lies, and the offset in it. -/
def capIn (l : List Cap) (o : Nat) : Option Nat := (l.filter (fun c => decide (c.off ≤ o))).getLast?.map (fun c => o - c.off)

/-- The Type 0 header (R384). A VF's BARs read zero, as the SR-IOV specification has it. -/
def State.cfgHeader (s : State) (g off : Nat) : Nat :=
  let pf := decide (g < 2)
  if off = 0x00 then 0x1B7E + (if pf then 0x1040 else 0x1041) * 2 ^ 16
  else if off = 0x04 then
    (if pf && s.flag Reg.CFG_mse g then 2 else 0) + (if s.flag Reg.FN_STATE_bme g then 4 else 0) + 2 ^ 20
  else if off = 0x08 then 0xB1 + 0x020000 * 2 ^ 8
  else if off = 0x0C then (if pf then 0x80 * 2 ^ 16 else 0)
  else if off = 0x10 then (if pf then bits (s.get Reg.CFG_bar0 g) 0 32 + 4 else 0)
  else if off = 0x14 then (if pf then bits (s.get Reg.CFG_bar0 g) 32 32 else 0)
  else if off = 0x18 then (if pf then bits (s.get Reg.CFG_bar2 g) 0 32 + 4 else 0)
  else if off = 0x1C then (if pf then bits (s.get Reg.CFG_bar2 g) 32 32 else 0)
  else if off = 0x2C then s.get Reg.IMG_ssvid 0 + s.get Reg.IMG_ssid 0 * 2 ^ 16
  else if off = 0x30 then (if pf then s.get Reg.CFG_rom g else 0)
  else if off = 0x34 then (if pf then 0x40 else 0x50)
  else 0

/-- Power Management, MSI-X and PCI Express, which lie below 0x100; the link is that of the port. -/
def State.cfgBase (s : State) (g off : Nat) : Nat :=
  let vf := decide (2 ≤ g)
  let h := pfOf g
  let x := Config.cfgWord vf off % 2 ^ 32
  match capAt (capsOf vf baseCaps) off with
  | some (c, nx) =>
    let top :=
      if off = 0x40 then 3
      else if off = 0x50 then s.nvec g - 1 + 2 ^ 14 * s.get Reg.FN_STATE_fmask g + 2 ^ 15 * s.get Reg.CFG_msix_en g
      else 2
    c.id + 2 ^ 8 * nx + 2 ^ 16 * top
  | none =>
    if off = 0x44 then (if vf then 0 else (if s.flag Reg.FN_STATE_d3 g then 3 else 0) + 8)
    else if off = 0x54 then (if vf then 0x5000 else 0x1002)
    else if off = 0x58 then (if vf then 0x5800 else 0x81002)
    else if off = 0x64 then setBits (setBits (setBits x 0 3 2) 5 1 1) 28 1 1
    else if off = 0x68 then
      let x := setBits x 0 15 0 + s.get Reg.CFG_err_en g + 2 ^ 4 * s.get Reg.CFG_ro_en g + 2 ^ 5 * s.get Reg.CFG_mps g
      setBits (x + 2 ^ 8 * s.get Reg.CFG_ext_tag g + 2 ^ 11 * s.get Reg.CFG_ns_en g + 2 ^ 12 * s.get Reg.CFG_mrrs g) 15 1 0
    else if off = 0x6C then setBits (setBits (setBits x 0 4 6) 4 6 16) 10 2 2
    else if off = 0x70 then
      setBits (setBits (setBits x 0 2 (s.get Reg.CFG_aspm g)) 16 4 (s.get Reg.HE_LINK_speed h)) 20 6 (s.get Reg.HE_LINK_width h)
    else if off = 0x84 then setBits (setBits (setBits (setBits x 0 5 7) 6 6 0) 12 2 0) 16 2 3
    else if off = 0x88 then
      setBits (setBits (setBits (setBits x 0 4 (s.get Reg.CFG_cto g)) 4 1 0) 6 5 0) 12 1 (s.get Reg.CFG_tag10 g)
    else if 0x60 < off ∧ off < 0xA0 then x
    else 0

/-- The oldest error logged of a function: its bit and its header (R396). -/
def State.oldestErr (s : State) (g : Nat) : Nat × List Byte :=
  match SM.get [] s.hdrLog g with
  | [] => (0, [])
  | e :: _ => e

/-- The extended capabilities. -/
def State.cfgExt (s : State) (g off : Nat) : Nat :=
  let vf := decide (2 ≤ g)
  let caps := capsOf vf extCaps
  let x := Config.cfgWord vf off % 2 ^ 32
  match capAt caps off with
  | some (c, nx) => c.id + 2 ^ 16 * c.ver + 2 ^ 20 * nx
  | none =>
    if off = 0x104 then s.get Reg.CFG_unc_sts g
    else if off = 0x108 then s.get Reg.CFG_unc_mask g
    else if off = 0x10C then s.get Reg.CFG_unc_sev g
    else if off = 0x110 then s.get Reg.CFG_cor_sts g
    else if off = 0x114 then s.get Reg.CFG_cor_mask g
    else if off = 0x118 then
      (s.oldestErr g).1 + 2 ^ 5 + 2 ^ 6 * bits (s.get Reg.CFG_ecrc_en g) 0 1 + 2 ^ 7 + 2 ^ 8 * bits (s.get Reg.CFG_ecrc_en g) 1 1 + 2 ^ 9 +
        2 ^ 10 * s.get Reg.CFG_mhr_en g
    else if 0x11C ≤ off ∧ off < 0x12C then leAt (s.oldestErr g).2 (off - 0x11C) 4
    else if off = 0x14C then 0
    else if off = 0x19C then 2 ^ 5 + 2 ^ 31 * s.get Reg.CFG_ats_en g + bits x 16 5 * 2 ^ 16
    else if off = 0x2E4 then setBits x 1 2 3
    else if off = 0x2E8 then setBits x 2 1 (s.get Reg.CFG_tag14 g)
    else if vf then (match capIn caps off with | some d => if d < 0x40 then x else 0 | none => 0)
    else if off = 0x160 then setBits (setBits x 0 1 (s.get Reg.CFG_vf_en g)) 3 1 (s.get Reg.CFG_vf_mse g)
    else if off = 0x164 then 2048 + 2048 * 2 ^ 16
    else if off = 0x168 then s.get Reg.CFG_numvfs g
    else if off = 0x16C then 2 + 2 ^ 16
    else if off = 0x170 then 0x1041 * 2 ^ 16
    else if off = 0x17C then bits (s.get Reg.CFG_vfbar g) 0 32 + 4
    else if off = 0x180 then bits (s.get Reg.CFG_vfbar g) 32 32
    else if 0x184 ≤ off ∧ off < 0x198 then 0
    else if off = 0x1A4 then bits Config.serialNumber 0 32
    else if off = 0x1A8 then bits Config.serialNumber 32 32
    else if off = 0x1B4 then 0x3D + 2 ^ 16 * s.get Reg.CFG_acs g
    else if off = 0x1F4 then setBits x 0 1 1
    else if off = 0x304 then 0x1B7E + 2 ^ 16 + 0x14 * 2 ^ 20
    else if off = 0x308 then 0x0001
    else if off = 0x30C then 0x00010000
    else if off = 0x310 then leNat (s.rd (baseRes + 8) 4)
    else if 0x314 ≤ off then 0
    else x

/-- The doubleword of a function's configuration space at an offset (R384, R385, Table HE-2). -/
def State.cfgDword (s : State) (g off : Nat) : Nat :=
  if off < 0x40 then s.cfgHeader g off else if off < 0x100 then s.cfgBase g off else s.cfgExt g off

/-- A read of 1, 2 or 4 bytes within one doubleword of the function's configuration space. -/
def State.cfgRead (s : State) (w : Who) (g off n : Nat) : State :=
  if s.cfgOpen g && decide (off + n ≤ 4096) && (n == 1 || n == 2 || n == 4) && off % n == 0 then
    s.emit (.regData w n (bits (s.cfgDword g (off / 4 * 4)) (8 * (off % 4)) (8 * n)))
  else s

end Sys2Proof.Machine
end

