-- ==== Sys2Proof/Machine/ThreadOps.lean ====
section
/-! DEFINITION. Sys2Proof/Machine/ThreadOps.lean: threads, their slots, tickets and faults (chapter "Flow Processors,
Threads and Slots"). A thread is named by its flat index; management thread m is 4,096 + m. -/

namespace Sys2Proof.Machine

/-- The thread is the first of its core: the supervisor (Table FP-1). -/
def isSup (t : Nat) : Bool := t % 16 == 0
def cluOf (t : Nat) : Nat := t / 256

/-- The threads that a change of a thread's counters reaches: in GUARD also the checker's (R102, R494). -/
def State.pairOf (s : State) (t : Nat) : List Nat := if s.guard && decide (t < 4096) then [t, t + 16] else [t]

/-! ## Registers (R140, R141) -/

def State.tg (s : State) (t r : Nat) : Nat := if r = 0 then 0 else s.get Reg.TH_g (32 * t + r)
def State.tput (s : State) (t r v : Nat) : State := if r = 0 then s else s.set Reg.TH_g (32 * t + r) v
def State.tw (s : State) (t k : Nat) : Nat := s.get Reg.TH_w (8 * t + k)

/-! ## Core counters and slot classes (R493, R494) -/

/-- Counter `i` of a core counts one; a wrap sets `ovf` and is counted by a chained successor. -/
def coreCtr : Nat → Nat → State → State
  | 0, _, s => s
  | n + 1, i, s =>
    let v := s.get Reg.PMU_CORE_CTR_value i + 1
    let s := s.set Reg.PMU_CORE_CTR_value i v
    if v = 2 ^ 48 then
      let s := s.put Reg.PMU_CORE_CFG_ovf i true
      if i % 8 < 7 ∧ s.flag Reg.PMU_CORE_CFG_chain (i + 1) = true then coreCtr n (i + 1) s else s
    else s

/-- A core event of Table PM-2 at a thread of a core. -/
def State.coreEvOne (s : State) (t e : Nat) : State :=
  if 4096 ≤ t then s
  else forEach (List.range 8) (fun j u =>
    let i := 8 * (t / 16) + j
    if u.get Reg.PMU_CORE_CFG_event i == e && bit (u.get Reg.PMU_CORE_CFG_tmask i) (t % 16) &&
        !(j != 0 && u.flag Reg.PMU_CORE_CFG_chain i) then coreCtr 8 i u else u) s

def State.coreEv (s : State) (t e : Nat) : State := forEach (s.pairOf t) (fun x u => u.coreEvOne x e) s

/-- Classes of a slot (Table PM-3), by their core event. -/
inductive SlotClass where
  | retired | wasted | front | back
deriving DecidableEq, Repr

def SlotClass.fld : SlotClass → Fld
  | .retired => Reg.PMU_SLOT_RETIRED_retired
  | .wasted => Reg.PMU_SLOT_WASTED_wasted
  | .front => Reg.PMU_SLOT_FRONT_front
  | .back => Reg.PMU_SLOT_BACK_back

def SlotClass.event : SlotClass → Nat
  | .retired => 1
  | .wasted => 2
  | .front => 3
  | .back => 4

/-- Count a slot of a thread in its class. -/
def State.slotIs (s : State) (t : Nat) (c : SlotClass) : State :=
  (forEach (s.pairOf t) (fun x u => u.inc c.fld x) s).coreEv t c.event

/-- A slot of the thread passes: its slots are counted, and the results of loads come nearer (R98). -/
def State.slotPass (s : State) (t : Nat) : State :=
  forEach ((List.range 32).filter (fun r => s.get Reg.TH_hz (32 * t + r) != 0)) (fun r u =>
    u.set Reg.TH_hz (32 * t + r) (u.get Reg.TH_hz (32 * t + r) - 1)) (s.inc Reg.TH_slots t)

/-! ## Clusters (R504, R505) -/

/-- A gated cluster wakes. -/
def State.wakeCluster (s : State) (k : Nat) : State :=
  let g := s.get Reg.PWR_GATE_STATUS_clusters 0
  if bit g k then (s.set Reg.PWR_GATE_STATUS_clusters 0 (g - 2 ^ k)).inc Reg.PWR_WAKE_CNT_count 0 else s

/-! ## Order tickets (R116 to R119) -/

/-- Pipeline of a thread: that of its cluster, or of the frame a management thread holds (log entry 26). -/
def State.threadPipe (s : State) (t : Nat) : Nat :=
  if t < 4096 then t / 512
  else match s.get Reg.TH_frame t with
    | 0 => 0
    | f + 1 => (s.frame f).pipe

/-- A handle that no ticket has; handles are opaque (log entry 1). -/
def State.newHandle (s : State) : Nat × State :=
  let live := s.domq.flatMap (fun e => e.2.map (fun k => k.handle))
  let r := s.fresh
  (((List.range (live.length + 1)).map (fun n => (r.1 + n) % 2 ^ 32)).find? (fun h => !live.contains h) |>.getD 0, r.2)

/-- Replace the tickets of a domain. -/
def State.setDom (s : State) (key : Nat) (q : List Ticket) : State := { s with domq := SM.put [] s.domq key q }

/-- Take a ticket in a domain (65,536·pipeline + domain) for a thread that holds fewer than two: its handle. -/
def State.takeTicket (s : State) (t key : Nat) : Nat × State :=
  let h := s.newHandle.1
  let s := s.newHandle.2
  let k := if s.get Reg.TH_tkt (2 * t) = 0 then 2 * t else 2 * t + 1
  let s := s.setDom key (SM.get [] s.domq key ++ [⟨h, false, 0, 0⟩])
  (h, (((s.set Reg.TH_tkt k (h + 1)).set Reg.TH_tktdom k key).set Reg.TH_tktns k s.clk).put Reg.TH_texp k false)

/-- Tickets a thread holds. -/
def State.tickets (s : State) (t : Nat) : Nat := b2n (s.get Reg.TH_tkt (2 * t) != 0) + b2n (s.get Reg.TH_tkt (2 * t + 1) != 0)

/-- The place of a handle that the thread holds. -/
def State.holds (s : State) (t h : Nat) : Option Nat := [2 * t, 2 * t + 1].find? (fun k => s.get Reg.TH_tkt k == h + 1)

/-- The ticket is at the head of its domain. -/
def State.atHead (s : State) (key h : Nat) : Bool := (SM.get [] s.domq key).head?.map (fun k => k.handle) == some h

/-- Tickets at the head of a domain that are done leave it; a released frame enters the egress stage (R116, R335). -/
def State.ordDrain (s : State) (key : Nat) : State :=
  let q := SM.get [] s.domq key
  let go := q.takeWhile (fun k => k.done)
  let s := s.setDom key (q.dropWhile (fun k => k.done))
  forEach go (fun k u =>
    if k.frame = 0 then u
    else
      let f := k.frame - 1
      let u := if (u.frame f).stage = .reorder then u.set Reg.ORD_rob (key / 65536) (u.get Reg.ORD_rob (key / 65536) - 1) else u
      u.toStage f (k.leaf - 1)) s

/-- The thread gives up the ticket at a place, with the frame and leaf released under it, plus one each; 0 for none. -/
def State.useTicket (s : State) (k frame leaf : Nat) : State :=
  let h := s.get Reg.TH_tkt k - 1
  let key := s.get Reg.TH_tktdom k
  let s := ((s.set Reg.TH_tkt k 0).set Reg.TH_tktdom k 0).put Reg.TH_texp k false
  let q := (SM.get [] s.domq key).map (fun x => if x.handle = h then { x with done := true, frame := frame, leaf := leaf } else x)
  (s.setDom key q).ordDrain key

/-- Every ticket a thread holds is consumed as a drop (R119). -/
def State.dropTickets (s : State) (t : Nat) : State :=
  forEach [2 * t, 2 * t + 1] (fun k u => if u.get Reg.TH_tkt k = 0 then u else u.useTicket k 0 0) s

/-! ## Programs: their start and end (R109, R140) -/

/-- Mark every tag free; results on their way are discarded (R115, R140). -/
def State.freeTags (s : State) (t : Nat) : State :=
  forEach (List.range 4) (fun n u =>
    ((u.put Reg.TH_tag (4 * t + n) false).put Reg.TH_rok (4 * t + n) false).inc Reg.TH_tagseq (4 * t + n)) s

/-- Start a thread at an instruction: registers, flags, return stack and tags are cleared; up to two slots pass before the
first instruction, as many as may be (R109; log entry 1). -/
def State.startThread (s : State) (t pc : Nat) (res : Bool) : State :=
  let s := forEach (List.range 32) (fun r u => (u.set Reg.TH_g (32 * t + r) 0).set Reg.TH_hz (32 * t + r) 0) s
  let s := forEach (List.range 8) (fun k u => u.put Reg.TH_c (8 * t + k) false) s
  let s := (((s.freeTags t).set Reg.TH_rsd t 0).set Reg.TH_wait t 0).put Reg.TH_trap t false
  let r := s.fresh
  let n := r.1 % 3
  let s := ((r.2.set Reg.TH_pc t pc).set Reg.TH_mode t 1).put Reg.TH_res t res
  let s := ((s.set Reg.TH_slots t n).put Reg.TH_bad t false).set Reg.TH_budget t 0
  (forEach (List.range n) (fun _ u => u.slotIs t .front) s).rearm t

/-- The thread's program is over: it returns to the pool, or is idle (R109, R110, R152). -/
def State.endThread (s : State) (t : Nat) : State :=
  let s := ((s.set Reg.TH_mode t 0).put Reg.TH_res t false).set Reg.TH_frame t 0
  (((s.put Reg.TH_trap t false).set Reg.TH_budget t 0).set Reg.TH_wait t 0).rearm t

/-! ## Faults (R125 to R130) -/

/-- Discard the packet of a thread with a status for host work; an external frame counts in its cluster (R119). -/
def State.dropPacket (s : State) (t status : Nat) : State :=
  match s.get Reg.TH_frame t with
  | 0 => s
  | f + 1 =>
    let s := if t < 4096 ∧ isExt (s.frame f).src = true then s.inc Reg.FP_CLU_FDROP_drops (cluOf t) else s
    (s.set Reg.TH_frame t 0).endFrame f status

/-- Dispose of a thread's tickets, packet and outstanding results (R127 step 2). -/
def State.dispose (s : State) (t status : Nat) : State :=
  let s := (((s.dropTickets t).dropPacket t status).freeTags t).inc Reg.TH_gen t
  ((s.put Reg.TH_trap t false).set Reg.TH_wait t 0).set Reg.TH_budget t 0

/-- Where the thread's instruction lies: in its cluster's store, or in management memory (log entry 26). -/
def State.insnAddr (s : State) (t : Nat) : Nat := (if t < 4096 then baseI (cluOf t) else baseM) + 8 * s.get Reg.TH_pc t

/-- The instruction word a thread has reached (R143). -/
def State.insn (s : State) (t : Nat) : Nat := leNat (s.rd (s.insnAddr t) 8)

/-- Write a fault record, or count it as lost (R130). -/
def State.faultPut (s : State) (t : Nat) (rec : Nat → List Byte) : State :=
  let c := t / 16
  let q := SM.get [] s.faultq c
  if 8 ≤ q.length then s.set Reg.FFIFO_lost c (min 255 (s.get Reg.FFIFO_lost c + 1))
  else
    let r := rec (s.get Reg.FFIFO_lost c)
    let s := s.set Reg.FFIFO_lost c 0
    { s with faultq := SM.put [] s.faultq c (q ++ [r]) }

/-- A fault record (Table FP-8). -/
def State.faultRec (s : State) (t cause sub addr lost : Nat) : List Byte :=
  let host := match s.get Reg.TH_frame t with
    | 0 => false
    | f + 1 => (s.frame f).qp1 != 0
  let src := if s.get Reg.TH_frame t = 0 then 0x7FF else leNat (s.rd (baseW t + 0x140) 2) % 2 ^ 11
  leBytes 2 (t % 4096) ++ leBytes 1 cause ++ leBytes 1 sub ++ leBytes 2 (s.get Reg.TH_pc t) ++
  leBytes 1 (b2n (s.tickets t != 0) + 2 * b2n host) ++ leBytes 1 lost ++ leBytes 8 (s.insn t) ++ leBytes 4 addr ++
  leBytes 6 s.now ++ leBytes 2 src ++ leBytes 4 (s.get Reg.TH_slots t)

/-- The fault is counted. -/
def State.faultCount (s : State) (t : Nat) : State :=
  (if t < 4096 then s.inc Reg.FP_CLU_FCNT_faults (cluOf t) else s).coreEv t 0x0A

/-- A supervisor is parked, with a contained fault of its core (R129). -/
def State.supFault (s : State) (t : Nat) : State :=
  let s := ((s.dispose t 0x70).set Reg.TH_mode t 2)
  if t < 4096 then s.detect (cluOf t) (t / 16 % 16 + 2 * 16) false else s

/-- A BRINGUP trap (R128). -/
def State.trap (s : State) (t cause : Nat) : State :=
  let s := (s.set Reg.TH_tpc t (s.get Reg.TH_pc t)).set Reg.TH_tcause t cause
  let s := (s.put Reg.TH_trap t (s.get Reg.TH_frame t != 0)).set Reg.TH_wait t 0
  s.set Reg.TH_pc t (s.get Reg.FP_THR_TVEC_tvec t)

/-- A worker is parked, its fault recorded and its supervisor told (R127). -/
def State.park (s : State) (t cause sub addr : Nat) : State :=
  let rec_ := s.faultRec t cause sub addr
  let s := (s.dispose (t := t) (status := 0x70)).set Reg.TH_mode t 2
  (s.faultPut t rec_).raiseEv (t - t % 16) 16

/-- The fault of a thread takes effect: park, trap, or the supervisor's own (R126 to R129). A management core keeps no mode
and is taken to be in SERVICE (log entry 26). -/
def State.takeFault (s : State) (t cause sub addr : Nat) : State :=
  let s := s.faultCount t
  if isSup t then s.supFault t
  else if t < 4096 ∧ s.get Reg.FP_CLU_MODE_mode (cluOf t) = 1 ∧ s.flag Reg.TH_trap t = false then s.trap t cause
  else s.park t cause sub addr

/-- A slot of the thread is lost to a fault. -/
def State.fault (s : State) (t cause sub addr : Nat) : State := (s.slotIs t .wasted).takeFault t cause sub addr

/-! ## The checker of a GUARD pair (R101, R103) -/

/-- The checker's registers, flags, return stack and packet window of a thread become those of the lead: both ran the same
slot, or the copy after a mismatch makes them equal. -/
def State.mirror (s : State) (t : Nat) : State :=
  if s.guard && decide (t < 4096) then
    let cp := fun (f : Fld) (n : Nat) (u : State) => forEach (List.range n) (fun r v => v.set f (n * (t + 16) + r) (v.get f (n * t + r))) u
    let s := cp Reg.TH_g 32 (cp Reg.TH_c 8 (cp Reg.TH_rs 8 (cp Reg.TH_rsd 1 (cp Reg.TH_pc 1 s))))
    s.wr (baseW (t + 16)) (s.rd (baseW t) 1024)
  else s

/-! ## Whether a thread issues -/

/-- Cores run: outside WHITEOUT, before a completion seal (R55), with the CORE domain on. -/
def State.coresRun (s : State) : Bool := (s.dev == dsBooting || s.dev == dsService || s.dev == dsIdle) && !s.flag Reg.PW_seal 0

/-- The pair of a thread's core copies the lead into the checker (R103). -/
def State.pairCopies (s : State) (t : Nat) : Bool := s.flag Reg.LKS_copy (t / 32)

/-- The cluster or the management cores of a thread run. -/
def State.coreOpen (s : State) (t : Nat) : Bool :=
  s.coresRun && s.threadNamed t &&
  (if t < 4096 then !bit (s.get Reg.PWR_GATE_STATUS_clusters 0) (cluOf t) && !s.pairCopies t else s.flag Reg.MC_CTRL_running 0)

/-- The thread issues in its next slot. -/
def State.issues (s : State) (t : Nat) : Bool :=
  s.coreOpen t && s.get Reg.TH_mode t == 1 && !s.flag Reg.TH_halt t

/-- Firmware starts: all management threads run from instruction 0 (log entry 26). -/
def State.startMgmt (s : State) : State :=
  (forEach (List.range 64) (fun m u => (u.startThread (4096 + m) 0 false).set Reg.TH_ev (4096 + m) 0) s).put Reg.MC_CTRL_running 0 true

/-- A debug session covers a cluster (R131). -/
def State.session (s : State) (k : Nat) : Bool := s.flag Reg.FP_DBG_SESSION_open 0 && bit (s.get Reg.FP_DBG_SESSION_clusters 0) k

end Sys2Proof.Machine
end

