-- ==== Sys2Proof/Machine/TwinOps.lean ====
section
/-! DEFINITION. Sys2Proof/Machine/TwinOps.lean: the pair's states, its copies, acknowledgements, takeover (chapter "Twin
Pairing and Failover"). -/

namespace Sys2Proof.Machine

def twUnpaired : Nat := 0
def twPairing : Nat := 1
def twSyncing : Nat := 2
def twHealthy : Nat := 3
def twDegraded : Nat := 4
def twResync : Nat := 5
def twWidowed : Nat := 6

/-- `TWN_STATUS.state` (Table TW-3). -/
def State.twin (s : State) : Nat := s.get Reg.TWN_STATUS_state 0

/-- Enter a state; `twin_mode` reads 1 in SYNCING, HEALTHY, DEGRADED and RESYNC (R456). Firn remembers whether the pair is
HEALTHY (R467). -/
def State.setTwin (s : State) (st : Nat) : State :=
  (((s.set Reg.TWN_STATUS_state 0 st).put Reg.GLB_STATUS_twin_mode 0 (decide (2 ≤ st ∧ st ≤ 5))).put Reg.MRX_healthy 0
    (st == twHealthy)).sdsTidy

/-- The datapath's domain runs outside WHITEOUT: SERVICE or DATAPATH_IDLE. -/
def State.twinRuns (s : State) : Bool := s.dev == dsService || s.dev == dsIdle

/-- A refused pairing or unpair write (R454, R474). -/
def State.twinRefuse (s : State) (why : Nat) : State :=
  (s.put Reg.TWN_STATUS_refused 0 true).set Reg.TWN_STATUS_reason 0 why

/-- PAIRING ends where it began (Table TW-3). -/
def State.pairRefuse (s : State) (why : Nat) : State := (s.twinRefuse why).setTwin (s.get Reg.TWX_prev 0)

/-! ## Acknowledgements (R459, R460) -/

/-- What waits goes on. An entry that may not be accepted now is accepted by the next acceptance of its queue. -/
def State.twinGo (s : State) : TwinWait → State
  | .accept q =>
    if s.flag Reg.QX_mwait q then
      let s := (s.put Reg.QX_mwait q false).put Reg.QX_mack q true
      if s.mayFetch q && s.qState q == qsActive then s.acceptNow q else s
    else s
  | .compl c => s.issue c
  | .ctx _ => s
  | .key inst => s.put Reg.CPH_KEY_STATUS_busy inst false
  | .owner pg => s.put Reg.CPH_PAGE_OWNER_busy pg false
  | .sync => (s.put Reg.TWX_mine 0 true).twinSend (.sync [] true)

/-- The partner has applied every frame up to a counter: what waits for them goes on in order, and `TWN_LAT` shows
the longest wait. -/
def State.twinAck (s : State) (upTo : Nat) : State :=
  let go := s.twinWait.filter (fun w => decide (w.1 ≤ upTo))
  let s := { s with twinWait := s.twinWait.filter (fun w => !decide (w.1 ≤ upTo)) }
  forEach go (fun w t =>
    let lat := min 65535 (t.clk - t.get Reg.TWX_sent w.1)
    ((t.set Reg.TWN_LAT_max_ns 0 (max lat (t.get Reg.TWN_LAT_max_ns 0))).set Reg.TWX_sent w.1 0).twinGo w.2) s

/-- Nothing waits for the partner any more (R468): what waited goes on, and no report is owed. -/
def State.twinRelease (s : State) : State :=
  let go := s.twinWait
  forEach go (fun w t => if w.2 = .sync then t else (t.set Reg.TWX_sent w.1 0).twinGo w.2) { s with twinWait := [] }

/-! ## Copies (R470) -/

/-- The mirrored queues of this device. -/
def State.mirQueues (s : State) : List Nat :=
  (s.instances Reg.TWN_QMASK_mir).flatMap (fun i => ((List.range 32).map (fun j => 32 * i + j)).filter s.qmask)

/-- The mirrored pages. -/
def State.mirPages (s : State) : List Nat :=
  (s.instances Reg.TWN_PMASK_mir).flatMap (fun i =>
    ((List.range 32).filter (fun j => bit (s.get Reg.TWN_PMASK_mir i) j)).map (fun j => 32 * i + j))

/-- The SYNC copy of a queue: its context, its ring's, its outstanding entries, and the statuses its writeback has
not passed. -/
def State.syncRecs (s : State) (q : Nat) : List MirRec :=
  s.ctxRecs q ++ (SM.get [] s.passed q ++ s.entsOf q).filterMap (fun e =>
    match e.done with
    | some st => if s.ringMode q then none else some (.doneB q e.idx [st])
    | none => some (.accept q e.idx 1 e.seq))

/-- Send every copy, then wait until the partner has applied them all. -/
def State.sendCopies (s : State) : State :=
  let s := forEach s.mirQueues (fun q t => t.twinSend (.sync (t.syncRecs q) false)) s
  let s := forEach s.mirPages (fun p t => t.twinSend (.sync [.page p (t.pageRecord p t.linkKey)] false)) s
  s.twinAwait (.sync [] false) .sync

/-- Enter SYNCING or RESYNC: what waited for HEALTHY goes on, and the copies start. -/
def State.startSync (s : State) (st : Nat) : State :=
  ((((s.setTwin st).put Reg.TWX_mine 0 false).put Reg.TWX_theirs 0 false).twinRelease).sendCopies

/-- Contexts lose their standby mark, and the copies go (R469). -/
def State.dropCopies (s : State) : State :=
  { (s.resetAll Reg.TWX_standby) with twinQ := [], twinR := [], twinRD := [], twinP := [] }

/-! ## The standby's side (R458, R459) -/

def ctxOwner (c : List Byte) : Nat := bits (leAt c 4 4) 0 13
def ctxCons (c : List Byte) : Nat := leAt c 0x2C 2
def ctxSeq (c : List Byte) : Nat := leAt c 0x30 6
def recQ (r : List Byte) : Nat := leAt r 4 3
def recIdx (r : List Byte) : Nat := leAt r 14 2

def State.setTwinQ (s : State) (q : Nat) (c : TwinQ) : State := { s with twinQ := SM.ins s.twinQ q c }

/-- An entry is done on the home device. -/
def TwinQ.take (c : TwinQ) (idx : Nat) : TwinQ := { c with live := c.live.filter (fun e => e.1 != idx) }

/-- A SYNC copy of a queue is installed: the device holds a context of that number, of the same owner and DISABLED
(R458). -/
def State.syncCtx (s : State) (q : Nat) (ctx : List Byte) : State :=
  if s.qOwner q == ctxOwner ctx && decide (ctxOwner ctx < 4098) && s.qState q == qsDisabled then
    (s.setTwinQ q { ctx := ctx, live := [], doneB := [], next := ctxSeq ctx, broken := false }).put Reg.TWX_standby q true
  else s

/-- One record of a SYNC frame. -/
def State.syncRec (s : State) : MirRec → State
  | .ctxQ q ctx => s.syncCtx q ctx
  | .ctxR r ctx => { s with twinR := SM.put [] s.twinR r ctx, twinRD := SM.put [] s.twinRD r [] }
  | .page p rec => { s with twinP := SM.put [] s.twinP p rec }
  | .accept q first n seq =>
    match SM.find? s.twinQ q with
    | some c => s.setTwinQ q { c with live := c.live ++ (List.range n).map (fun k => ((first + k) % 65536, (seq + k) % 2 ^ 48)) }
    | none => s
  | .doneB q first st =>
    match SM.find? s.twinQ q with
    | some c => s.setTwinQ q { c with doneB := c.doneB ++ st.zipIdx.map (fun x => ((first + x.2) % 65536, x.1)) }
    | none => s
  | .doneR _ _ _ => s

/-- Records of a ring kept: as many as the ring holds. -/
def ringTrim (ctx : List Byte) (l : List (Nat × List Byte)) : List (Nat × List Byte) :=
  l.drop (l.length - 2 ^ bits (leAt ctx 0 4) 18 4)

/-- One record of a MIRROR frame (Table TW-4). -/
def State.mirRec (s : State) : MirRec → State
  | .accept q first n seq =>
    match SM.find? s.twinQ q with
    | none => s
    | some c =>
      if c.broken then s
      else if c.next ≠ seq % 2 ^ 48 then s.setTwinQ q { c with broken := true }
      else s.setTwinQ q { c with
        live := c.live ++ (List.range n).map (fun k => ((first + k) % 65536, (seq + k) % 2 ^ 48)), next := (seq + n) % 2 ^ 48 }
  | .doneB q first st =>
    match SM.find? s.twinQ q with
    | none => s
    | some c =>
      let l := st.zipIdx.map (fun x => ((first + x.2) % 65536, x.1))
      s.setTwinQ q { l.foldl (fun a x => TwinQ.take a x.1) c with doneB := c.doneB ++ l }
  | .doneR r prod rec =>
    let s := match SM.find? s.twinQ (recQ rec) with
      | some c => s.setTwinQ (recQ rec) (c.take (recIdx rec))
      | none => s
    if (SM.get [] s.twinR r).isEmpty then s
    else { s with twinRD := SM.put [] s.twinRD r (ringTrim (SM.get [] s.twinR r) (SM.get [] s.twinRD r ++ [(prod % 65536, rec)])) }
  | .ctxQ q ctx =>
    match SM.find? s.twinQ q with
    | none => s
    | some c =>
      s.setTwinQ q { c with
        ctx := ctx, live := c.live.filter (fun e => seqBefore e.2 (ctxSeq ctx)), next := ctxSeq ctx
        doneB := c.doneB.drop (c.doneB.length - 2 ^ bits (leAt ctx 0 4) 18 4) }
  | .ctxR r ctx => if (SM.get [] s.twinR r).isEmpty then s else { s with twinR := SM.put [] s.twinR r ctx }
  | .page p rec => if (SM.get [] s.twinP p).isEmpty then s else { s with twinP := SM.put [] s.twinP p rec }

/-- A frame of the partner is heard: W0 is up and the pair exists. -/
def State.twinHears (s : State) : Bool := s.twinRuns && s.flag Reg.TWN_STATUS_link 0 && s.paired

/-- Take a protected frame: a bad tag or a counter not above the last one accepted is dropped and counted; a valid frame
ends a run of misses (R452, R461). -/
def State.twinRx (s : State) (ctr : Nat) (auth : Bool) (f : State → State) : State :=
  if !s.twinHears then s
  else if !auth || decide (ctr % 2 ^ 64 ≤ s.get Reg.TWX_rxctr 0) then s.inc Reg.TWN_AUTH_FAIL_count 0
  else f ((s.set Reg.TWX_rxctr 0 ctr).set Reg.TWX_miss 0 0)

/-! ## Losing the partner (R461 to R469) -/

/-- The pair enters DEGRADED: nothing waits for W0 (R463, R468). -/
def State.degrade (s : State) : State :=
  if s.twin = twDegraded then s
  else
    let s := ((s.setTwin twDegraded).set Reg.TWX_hb 0 0).set Reg.TWX_miss 0 0
    (s.detect 0x0F0 0 false).twinRelease

/-- Raise the vector of R466 for the twin functions of some queues. -/
def State.twinVecs (s : State) (gs : List Nat) : State :=
  forEach gs.eraseDups (fun g t =>
    if t.flag Reg.TWN_FN_VEC_en g then t.raiseVec g (t.get Reg.TWN_FN_VEC_vec g) else t) s

/-- The queues that are standby on this device. -/
def State.standbys (s : State) : List Nat := s.having Reg.TWX_standby 1

/-- The function owners of queues. -/
def State.ownersOf (s : State) (qs : List Nat) : List Nat := qs.map s.qOwner

/-- Widowed without a promotion (R469). -/
def State.widow (s : State) : State :=
  let gs := s.ownersOf s.standbys
  ((s.dropCopies.twinRelease).twinVecs gs)

/-- An index lies before the published head `h`: at most one ring of 32,768 behind it. -/
def idxBefore (h idx : Nat) : Bool :=
  let d := (h + 65536 - idx % 65536) % 65536
  d != 0 && decide (d ≤ 32768)

/-- Install a mirrored ring and issue again, at their places, the completion records at or after the host's consumer
position (R465 steps 2, 3 and 5). -/
def State.takeRing (s : State) (r : Nat) (cons : Option Nat) : State :=
  let ctx := SM.get [] s.twinR r
  let l := SM.get [] s.twinRD r
  let s := (s.putCrCtx r ctx).set Reg.QM_CRCTX_CTRL_gfn r (bits (leAt ctx 0 4) 0 13)
  let g := s.get Reg.QM_CRCTX_CTRL_gfn r
  let s := s.hostRead g (s.get Reg.QM_CRCTX_CONS_cons r * 8) 8 false false (.cons r)
  let c := (cons.getD (s.get Reg.RX_cons r)) % 65536
  let top := match l.getLast? with
    | some x => (x.1 + 1) % 65536
    | none => s.get Reg.QM_CRCTX_IDX_prod r
  let s := forEach (l.filter (fun x => (x.1 + 65536 - c) % 65536 < 32768)) (fun x t =>
    (t.set Reg.QM_CRCTX_IDX_prod r x.1).ringWrite r x.2) s
  ((s.set Reg.QM_CRCTX_IDX_prod r top).set Reg.QM_CRCTX_IDX_resv r top).set Reg.RX_cons r c

/-- A queue's entries that the survivor finishes: accepted, before the published head, not done (R465 step 6). -/
def TwinQ.lost (c : TwinQ) (h : Nat) : List (Nat × Nat) := c.live.filter (fun e => idxBefore h e.1)

/-- The acceptance sequence the queue goes on with (R465 step 7). -/
def TwinQ.nextSeq (c : TwinQ) (h : Nat) : Nat :=
  match c.live.filter (fun e => !idxBefore h e.1) with
  | e :: _ => e.2
  | [] => c.next

/-- Issue again the status bytes of a batch-mode queue, and one writeback (R465 step 5). -/
def State.takeBatch (s : State) (q h : Nat) (c : TwinQ) : State :=
  let g := s.qOwner q
  let s := forEach c.doneB (fun x t =>
    t.hostWrite g (t.get Reg.QM_QCTX_STS_sts q * 64 + x.1 % t.qSize q) [BitVec.ofNat 8 x.2] false false) s
  let open_ := match c.lost h with
    | e :: _ => e.1
    | [] => h
  ((s.set Reg.QM_QCTX_START_done q open_).set Reg.QX_sum q (c.doneB.foldl (fun m x => max m x.2) 0)).writeback q false false

/-- Finish an entry of a queue taken over with INTERRUPTED_WHITEOUT; its tag is a free value, since no record carries
it (log entry 22). -/
def State.takeLost (s : State) (q : Nat) (e : Nat × Nat) : State :=
  if s.ringMode q then
    let (tag, s) := s.fresh
    let r := s.qRing q
    (s.takeCredit r).ringWrite r (mkRec (tag % 2 ^ 32) q 0x11 e.2 e.1 0 0 s.now 0 false)
  else (s.hostWrite (s.qOwner q) (s.get Reg.QM_QCTX_STS_sts q * 64 + e.1 % s.qSize q) [0x11#8] false false).set Reg.QX_sum q
    (max 0x11 (s.get Reg.QX_sum q))

/-- Take a queue over at the published head `wb` names (R465 steps 2, 3, and 5 to 9). -/
def State.takeQueue (s : State) (q : Nat) (c : TwinQ) (wb : Option Nat) : State :=
  let s := s.putQCtx q c.ctx
  let s := s.hostRead (s.qOwner q) (s.get Reg.QM_QCTX_WB_wb q * 8) 8 false false .other
  let h := match wb with
    | some w => bits w 0 16
    | none => ctxCons c.ctx
  let s := ((s.set Reg.QM_QCTX_START_cons q h).set Reg.QM_QCTX_SEQ_acc_seq q (c.nextSeq h)).set Reg.QX_idle q 0
  let s := if s.ringMode q then s else s.takeBatch q h c
  let s := forEach (c.lost h) (fun e t => t.takeLost q e) s
  let s := (s.set Reg.QM_QCTX_START_done q h).writeback q false false
  let s := ((s.put Reg.QX_dorm q false).firnAppend (.final q h)).setQ q qsActive
  s.dueAt q s.clk

/-- Promotion (R465): every standby queue, ring and page is taken over. `wbs` and `cons` are the writeback words of the
standby queues and the consumer words of the rings in rising order, as read from host memory. -/
def State.promote (s : State) (wbs cons : List Nat) : State :=
  let qs := s.standbys
  let gs := s.ownersOf qs
  let copies := s.twinQ
  let s := s.put Reg.TWN_STATUS_primary 0 true
  let s := forEach s.twinP (fun p t => (t.putPage p.2 t.linkKey).2) s
  let s := forEach (s.twinR.map (fun e => e.1)).zipIdx (fun x t => t.takeRing x.1 (cons[x.2]?)) s
  let s := s.resetAll Reg.TWX_standby
  let s := forEach qs.zipIdx (fun x t =>
    match SM.find? copies x.1 with
    | some c => t.takeQueue x.1 c (wbs[x.2]?)
    | none => t) s
  (s.dropCopies.twinRelease).twinVecs gs

/-- The partner is lost (R463): its locks are freed, source 0x0F1 reports it, and in HEALTHY the survivor takes its
queues over. This device's own WHITEOUT wins (R456). -/
def State.twinLost (s : State) (wbs cons : List Nat) : State :=
  let was := s.twin
  let s := (s.setTwin twWidowed).set Reg.TWX_miss 0 0
  let s := (s.mbxReset 0xF000).detect 0x0F1 0 false
  if s.dev = dsWhiteout then s
  else if was = twHealthy then s.promote wbs cons
  else s.widow

end Sys2Proof.Machine
end

