-- ==== Sys2Proof/Machine/PowerOps.lean ====
section
/-! DEFINITION. Sys2Proof/Machine/PowerOps.lean: resets of the domains, the start of a boot, the ledger, Firn's check, the
Worhan image (chapters "Four Faces, Eight Pipelines, One Clock of Record", "The Accepted-Work Contract" and "Power
Domains, Clocks and the Boot Ledger"). -/

namespace Sys2Proof.Machine

/-! ## Resets (R507, R534, R278) -/

/-- What the MRAM die holds once the staging buffer is lost: records older than 128 µs have reached it (R50). Of those that
R57 lets be missing, every one is (DESIGN CHOICE, log entry 41). -/
def State.firnCut (s : State) : SMap FirnQ :=
  (s.firnStage.filter (fun p => s.firnOld p.1)).foldl (fun m p => firnApply m p.2) s.firn

/-- Keep the fields numbered from `n` on, and what outlives a reset besides. -/
def State.keepFrom (s : State) (n : Nat) : State :=
  { State.reset with
    pending := s.pending, fld := s.fld.filter (fun e => n ≤ e.1 % 4096), free := s.free, out := s.out
    firn := s.firnCut, fltLog := s.fltLog, ledger := s.ledger }

/-- A reset of every domain except AON and TIME (R507): the sideband outputs but `SLOT_PWREN` go low (R240), the clock
is in Drift (R278), and the collector is read from its copies again (R534). -/
def State.coreReset (s : State) : State :=
  let s := s.keepFrom 3000
  let s := forEach (List.range 16) (fun sl t => (t.put Reg.SB_STATUS_rst_n sl false).put Reg.SB_STATUS_trig sl false) s
  (s.put Reg.FLT_dead 0 false).enterDrift 3

/-- The domains CORE, SRAM and HBM are powered, or not (Table PS-1). -/
def State.setDomains (s : State) (on : Bool) : State :=
  forEach [Reg.PWR_DOMAIN_core, Reg.PWR_DOMAIN_sram, Reg.PWR_DOMAIN_hbm] (fun f t => t.put f 0 on)
    (if on then s else forEach [Reg.PWR_CLK_STATUS_pll_core, Reg.PWR_CLK_STATUS_pll_ppl, Reg.PWR_CLK_STATUS_pll_dma] (fun f t =>
      t.put f 0 false) s)

/-- The device goes to AON_ONLY; the next start is entered by `entry` (Table PS-5). -/
def State.toAonOnly (s : State) (entry : Nat) : State :=
  let entry := if s.dev = dsAonOnly then s.get Reg.BTX_entry 0 else entry
  ((s.coreReset.set Reg.GLB_STATE_state 0 dsAonOnly).setDomains false).set Reg.BTX_entry 0 entry

/-! ## The ledger (R518, Table PS-5) -/

/-- Change the record of the current start. -/
def State.ledgerPut (s : State) (at_ : Nat) (bs : List Byte) : State :=
  match s.ledger with
  | [] => s
  | r :: rest => { s with ledger := splice r at_ bs :: rest }

/-- Record the outcome of a step. -/
def State.outcome (s : State) (n v : Nat) : State := s.ledgerPut (7 + n) [BitVec.ofNat 8 v]

/-- The record of a start as it is opened: start number, entry, alternatives, and its time since the start of the AON
domain. -/
def ledgerRec (start entry alt ms : Nat) : List Byte :=
  padTo 32 (leBytes 4 start ++ leBytes 1 entry ++ leBytes 1 0 ++ leBytes 2 alt ++ leBytes 12 1 ++ leBytes 4 ms)

/-- Milliseconds in a number of ticks of the time clock, of 1 ns each, as a field of a record holds them. -/
def ticksMs (n : Nat) : Nat := n / 1000000

/-- A step is entered, or its alternative begins within it: its limit runs from here (R511). -/
def State.stepStart (s : State) : State := s.set Reg.BTX_at 0 s.clk

/-- A start begins at S1 (R511): a record is opened with the time since the start of the AON domain, and S1 is entered. -/
def State.startBoot (s : State) (entry : Nat) : State :=
  let n := s.get Reg.MRX_start 0 + 1
  let s := ((s.set Reg.GLB_STATE_state 0 dsBooting).set Reg.GLB_STATE_boot_step 0 0).setDomains true
  let s := if s.flag Reg.BTX_led 0 then s.set Reg.BOOT_STATUS_alt 0 (s.get Reg.MRX_alt 0) else s
  let s := ((s.set Reg.MRX_start 0 n).put Reg.BOOT_STATUS_image 0 false).set Reg.BTX_entry 0 2
  let s := (s.set Reg.BTX_s1 0 s.clk).stepStart
  { s with ledger := ledgerRec n entry (s.get Reg.MRX_alt 0) (ticksMs s.clk) :: s.ledger.take 63 }

/-- Leave AON_ONLY for BOOTING where every rail is in range, `SYS_RST_N` is released and `uv_hold` is clear (Table
OV-4). -/
def State.tryBoot (s : State) : State :=
  if s.dev == dsAonOnly && !s.flag Reg.RAIL_out 0 && !s.flag Reg.RST_low 0 && !s.flag Reg.FLT_RAIL_uv_hold 0 then
    (s.set Reg.BOOT_STATUS_restarts 0 0).startBoot (s.get Reg.BTX_entry 0)
  else s

/-- The time since S1, in the record of the current start. -/
def State.ledgerEnd (s : State) : State := s.ledgerPut 24 (leBytes 4 (ticksMs (s.clk - s.get Reg.BTX_s1 0)))

/-! ## The image (R509, R510, R512) -/

/-- The image is authentic (R510), as far as S4 reads it: its header, its signature, and the payloads that S4 loads. -/
def State.imageAuth (s : State) (img : List Byte) : Bool :=
  img.take 4 == [0x57#8, 0x48#8, 0x52#8, 0x4E#8] && leAt img 4 2 == 0x0100 && byteAt img 22 == 0xB1 &&
  !bit (s.get Reg.BOOT_FUSE_revoked 0) (bits (byteAt img 20) 0 2) &&
  decide (s.get Reg.BOOT_FUSE_svn 0 ≤ bits (byteAt img 21) 0 7) && imageSigned img &&
  imageHashed img (fun ty => ty == 0x20 || ty == 0x21)

/-- The image alternative is in force: that of S4, S9 or S10 (Table PS-4). -/
def State.altImage (s : State) : Bool :=
  bit (s.get Reg.BOOT_STATUS_alt 0) 3 || bit (s.get Reg.BOOT_STATUS_alt 0) 8 || bit (s.get Reg.BOOT_STATUS_alt 0) 9

/-- The image S4 chooses, and whether it is the alternate one (R512). -/
def State.chooseImage (s : State) (prim alter : List Byte) : Option (List Byte × Bool) :=
  if !s.altImage && s.imageAuth prim then some (prim, false)
  else if s.imageAuth alter then some (alter, true)
  else none

/-- Words of a payload. -/
def payWords (p : List Byte) : List Nat := (List.range (p.length / 4)).map (fun k => leAt p (4 * k) 4)

/-- Load a segment at S9 (Tables NI-23 and PS-3, R167). A payload of type 0x05 is taken as the supervisor entry and then the
trap vectors of the cluster's threads in order (DESIGN CHOICE, log entry 24). -/
def State.loadSeg (s : State) (g : Nat × Nat × Nat × Nat × List Byte) : State :=
  let (ty, p, cores, base, pay) := g
  let both (f : Nat → State → State) (t : State) : State := f (2 * p + 1) (f (2 * p) t)
  match ty with
  | 0x01 => both (fun k t => t.wr (baseI k + 8 * (base % 2 ^ 15)) (pay.take (2 ^ 18 - 8 * (base % 2 ^ 15)))) s
  | 0x02 => both (fun k t => forEach ((List.range 16).filter (fun c => bit cores c)) (fun c u =>
      u.wr (baseL (16 * k + c) + base % 2 ^ 14) (pay.take (2 ^ 14 - base % 2 ^ 14))) t) s
  | 0x03 => both (fun k t => t.wr (baseS k + base % 2 ^ 21) (pay.take (2 ^ 21 - base % 2 ^ 21))) s
  | 0x04 => forEach ((payWords pay).zipIdx.filter (fun x => decide (base + x.2 < 1024))) (fun x t =>
      t.unpack [(31, Reg.FP_PROG_valid), (16, Reg.FP_PROG_budget), (0, Reg.FP_PROG_entry)] (1024 * p + base + x.2) x.1) s
  | 0x05 => both (fun k t =>
      let t := t.set Reg.FP_CLU_CTRL_sup_entry k (leAt pay 0 4)
      forEach (((payWords pay).drop 1).zipIdx.filter (fun x => decide (x.2 < 256))) (fun x u =>
        u.set Reg.FP_THR_TVEC_tvec (256 * k + x.2) x.1) t) s
  | 0x10 => s.wr (baseM + base % 2 ^ 23) (pay.take (2 ^ 23 - base % 2 ^ 23))
  | 0x11 => s.set Reg.MC_SEC_secure_mask 0 (leAt pay 0 8)
  | _ => s

/-- Load the resource table and the expansion ROM at S4 (R390). -/
def State.loadRoms (s : State) (img : List Byte) : State :=
  forEach (imageSegs img) (fun g t =>
    if g.1 = 0x20 then t.wr baseRes (g.2.2.2.2.take 65536)
    else if g.1 = 0x21 then t.wr baseRom (g.2.2.2.2.take (2 ^ 20)) else t) s

/-- S4: the Subsystem IDs of the configuration space, from the header of the image (R384). -/
def State.loadIds (s : State) (img : List Byte) : State :=
  let v := leAt img 24 2
  let d := leAt img 26 2
  if v = 0 ∧ d = 0 then (s.set Reg.IMG_ssvid 0 0x1B7E).set Reg.IMG_ssid 0 0
  else (s.set Reg.IMG_ssvid 0 (if v = 0 then 0x1B7E else v)).set Reg.IMG_ssid 0 d

/-! ## Firn's check (R57, R58, R60, R467, R517) -/

/-- A queue is recovery-pending: outstanding entries, or, where Firn is unsealed, an acceptance since its last final
published head (R58). -/
def FirnQ.owed (x : FirnQ) (sealed_ : Bool) : Bool := !x.live.isEmpty || (!sealed_ && x.since)

/-- A queue Firn holds after the stop: what the partner owed is counted in `TWN_ORPHAN` (R467); a recovery-pending queue
takes Firn's published head and sequence, and `done_idx` the first entry that Firn holds unfinished (R94, Table WQ-7). -/
def State.firnQueue (s : State) (sealed_ healthy : Bool) (q : Nat) (x : FirnQ) : State :=
  if healthy && x.twin then
    { s.add Reg.TWN_ORPHAN_count 0 x.live.length with firn := SM.put {} s.firn q { x with live := [], since := false, twin := false } }
  else if x.owed sealed_ then
    let s := { s with recov := SM.put [] s.recov q x.live }
    let s := ((s.put Reg.QM_QCTX_STATUS_recov_pend q true).put Reg.QM_QCTX_STATUS_win_exposed q (!sealed_)).inc Reg.QM_RECOV_pending 0
    let done := match x.live with
      | [] => x.head
      | e :: _ => e.idx
    let s := ((s.set Reg.QM_QCTX_START_done q done).set Reg.QX_wbdone q done).set Reg.QX_pub q x.head
    let s := ((s.put Reg.QX_recow q true).set Reg.QX_recn q x.live.length).set Reg.QX_fseq q x.seq
    (((s.set Reg.QX_fgfn q x.gfn).set Reg.QX_firn_head q x.head).set Reg.QM_QCTX_START_cons q x.head).set Reg.QM_QCTX_SEQ_acc_seq q x.seq
  else s

/-- The Firn check of S7, or the format that `firn_reset` asks for (R517). -/
def State.firnCheck (s : State) : State :=
  let sealed_ := s.flag Reg.FIRN_sealed 0
  let healthy := s.flag Reg.MRX_healthy 0
  let cause := s.get Reg.FIRN_cause 0
  let s := s.put Reg.MRX_healthy 0 false
  if s.flag Reg.BOOT_CFG_firn_reset 0 then
    { ((s.put Reg.BOOT_CFG_firn_reset 0 false).put Reg.BOOT_STATUS_firn_formatted 0 true).put Reg.BOOT_formatted 0 true with
      firn := [], firnStage := [] }
  else
    let s := (s.set Reg.RECOV_cause 0 (if cause = 0 then 0x10 else cause)).put Reg.RECOV_sealed 0 sealed_
    forEach s.firn (fun e t => t.firnQueue sealed_ healthy e.1 e.2) s

/-! ## SerDes groups (R503) -/

/-- The groups G0 to G10 that are powered: those in use, and G9 and G10, while the CORE domain is (R501, R503). -/
def State.sdsPowered (s : State) : Nat :=
  if s.flag Reg.PWR_DOMAIN_core 0 then
    (List.range 11).foldl (fun a g => if (decide (8 < g) || s.sdsUsed g) && !bit (s.get Reg.PWR_SDS_FAIL_group 0) g then a + 2 ^ g else a) 0
  else 0

/-- The accessor's writes to GLB, PWR and BOOT are taken: from S4 on, the BMC's outside OFF (R405, R443, R483). -/
def State.bootOpen (s : State) (w : Who) : Bool :=
  match w with
  | .bmc => s.dev != 0
  | .pf h => s.mayWrite (.pf h) || (s.dev == dsBooting && decide (4 ≤ s.get Reg.GLB_STATE_boot_step 0) && s.flag Reg.CFG_mse h)
  | .fw m => s.mayWrite (.fw m)
  | .vf _ => false

/-- As `bootOpen`, for GLB, whose registers lie in the CORE domain. -/
def State.glbOpen (s : State) (w : Who) : Bool := s.bootOpen w && s.dev != dsAonOnly

end Sys2Proof.Machine
end

