-- ==== Sys2Proof/Machine/Power.lean ====
section
/-! DEFINITION. Sys2Proof/Machine/Power.lean: the commands of GLB, of the supplies and resets, of Firn's flush, and of BOOT
and the clocks (chapters "Four Faces, Eight Pipelines, One Clock of Record" and "Power Domains, Clocks and the Boot
Ledger"; R51 to R55). -/

namespace Sys2Proof.Machine

/-! ## Supplies and resets (Table OV-4, R487, R488, R507) -/

/-- `VDD_AON` comes into range; `low` says that `SYS_RST_N` is low, `rails` that every other rail is in range. Here and in the
other commands of the supplies and the boot that carry it, `_ms`, the sender's own count of milliseconds, has no effect: the
ledger and the watchdog take their time from the device's clock (R511, Table PS-5). -/
def execAonStart (low rails : Bool) (_ms : Nat) (s : State) : Res :=
  if s.dev ≠ 0 then .next s
  else
    let s := { (s.keepFrom 3900) with fltLog := [] }
    let s := ((s.put Reg.RST_low 0 low).put Reg.RAIL_out 0 (!rails)).set Reg.GLB_STATE_state 0 dsAonOnly
    .next ((s.setDomains false).tryBoot)

/-- `VDD_AON` leaves its range: the device is OFF; only the MRAM die and the fuses keep what they hold. -/
def execVddAonLoss (s : State) : Res :=
  if s.dev = 0 then .next s
  else
    let s := { (s.keepFrom 3900) with fltLog := [] }
    .next ((s.setDomains false).set Reg.GLB_STATE_state 0 0)

/-- A rail falls below its power-on reset level, and so below its warning and undervoltage levels (R488, Table FC-5). -/
def execRailLeavesRange (rail : Nat) (s : State) : Res :=
  if s.dev = 0 then .next s
  else
    let s := s.set Reg.FLT_RAIL_below_warn 0 (s.get Reg.FLT_RAIL_below_warn 0 ||| 2 ^ rail)
    let s := s.set Reg.FLT_RAIL_below_uv 0 (s.get Reg.FLT_RAIL_below_uv 0 ||| 2 ^ rail)
    .next ((s.toAonOnly 1).put Reg.RAIL_out 0 true)

/-- The last rail is back in its recommended range: no rail lies below a level of Table FC-5. -/
def execRailEntersRange (_ms : Nat) (s : State) : Res :=
  if s.dev = 0 then .next s
  else
    let s := (s.set Reg.FLT_RAIL_below_uv 0 0).set Reg.FLT_RAIL_below_warn 0 0
    .next ((s.put Reg.RAIL_out 0 false).tryBoot)

/-- `SYS_RST_N` has been low for 1 µs; it acts once `uv_hold` clears (R487). -/
def execSysRstNAssert (s : State) : Res :=
  if s.dev = 0 then .next s
  else
    let s := s.put Reg.RST_low 0 true
    if s.flag Reg.FLT_RAIL_uv_hold 0 && s.dev == dsWhiteout then .next s else .next (s.toAonOnly 2)

/-- `SYS_RST_N` is released; `role` is the level of `TWIN_ROLE` then (Table TW-1). -/
def execSysRstNRelease (role : Bool) (_ms : Nat) (s : State) : Res :=
  if s.dev = 0 then .next s
  else .next (((s.put Reg.RST_low 0 false).put Reg.TWN_STATUS_strap 0 role).tryBoot)

/-- Every rail has stayed above its warning level for 10 ms: a reset that was held back acts (R487). -/
def execUvHoldClear (_ms : Nat) (s : State) : Res :=
  if s.dev = 0 then .next s
  else
    let s := ((s.put Reg.FLT_RAIL_uv_hold 0 false).set Reg.FLT_RAIL_below_uv 0 0).set Reg.FLT_RAIL_below_warn 0 0
    if s.flag Reg.RST_low 0 && s.dev == dsWhiteout then .next (s.toAonOnly 2) else .next (s.tryBoot)

/-- A write of 1 to `FLT_CTRL.dev_reset`. -/
def execDevReset (who : Who) (_ms : Nat) (s : State) : Res :=
  if who = .bmc ∧ s.dev = dsWhiteout ∧ s.flag Reg.FLT_RAIL_uv_hold 0 = false then .next ((s.toAonOnly 3).tryBoot)
  else .next s

/-! ## GLB (R22 to R28) -/

/-- A write to `GLB_PROFILE` (R22, R473); one that finds a change in progress replaces it. -/
def execGlbProfileWrite (who : Who) (val : Nat) (s : State) : Res :=
  let st := s.get Reg.TWN_STATUS_state 0
  if !s.glbOpen who then .next s
  else if s.dev ≠ dsIdle ∨ ¬(st = 0 ∨ st = 6) then
    .next (s.put Reg.GLB_STATUS_profile_refused 0 true)
  else .next ((s.set Reg.GLX_profile 0 (bits val 0 2)).put Reg.GLB_STATUS_profile_busy 0 true)

def execProfileChangeDone (s : State) : Res :=
  if s.flag Reg.GLB_STATUS_profile_busy 0 && s.dev == dsIdle then
    let go := s.flag Reg.GLX_defer 0
    let s := (s.set Reg.GLB_PROFILE_profile 0 (s.get Reg.GLX_profile 0)).put Reg.GLB_STATUS_profile_busy 0 false
    let s := s.put Reg.GLX_defer 0 false
    .next (if go then s.set Reg.GLB_STATE_state 0 dsService else s)
  else .next s

/-- A write of 1 to `dp_en`. In BOOTING and WHITEOUT the field takes it and nothing else happens (Table OV-4). -/
def execDpEnSet (who : Who) (s : State) : Res :=
  if !s.glbOpen who then .next s
  else
    let t := s.put Reg.GLB_CTRL_dp_en 0 true
    if s.dev = dsIdle then
      .next (if s.flag Reg.GLB_STATUS_profile_busy 0 then t.put Reg.GLX_defer 0 true else t.set Reg.GLB_STATE_state 0 dsService)
    else if s.dev = dsService then .next (t.put Reg.GLB_STATUS_dp_draining 0 false)
    else .next t

/-- A write of 0 to `dp_en` (R26). -/
def execDpEnClear (who : Who) (s : State) : Res :=
  if !s.glbOpen who then .next s
  else
    let t := s.put Reg.GLB_CTRL_dp_en 0 false
    if s.dev = dsService then .next ((t.put Reg.GLB_STATUS_dp_draining 0 true).discardAll)
    else .next (t.put Reg.GLX_defer 0 false)

/-- Everything of R26 is done: no frame is held, the exception queue is empty, and every accepted entry has finished but
RX buffers that hold no part of a frame. -/
def State.drained (s : State) : Bool :=
  s.frames.isEmpty && s.excq.isEmpty && s.ents.all (fun e => e.2.isEmpty || s.qClass e.1 == qcRx)

def execDrainComplete (s : State) : Res :=
  if s.dev == dsService && s.flag Reg.GLB_STATUS_dp_draining 0 && s.drained && !s.flag Reg.PW_seal 0 then
    .next ((s.put Reg.GLB_STATUS_dp_draining 0 false).set Reg.GLB_STATE_state 0 dsIdle)
  else .next s

/-! ## Loss of power (R51 to R55) -/

/-- Firn has drained staging and written its checkpoint, and writes the seal; after a warning that cannot be before the
completion seal, and the device then enters WHITEOUT. -/
def execFirnFlushDone (s : State) : Res :=
  if !s.flag Reg.FIRN_flush 0 || s.dev == dsAonOnly || s.dev == 0 ||
      (s.flag Reg.PW_warn 0 && !s.flag Reg.PW_seal 0 && s.dev != dsWhiteout) then .next s
  else
    let s := s.firnDrain
    let s := ((s.put Reg.FIRN_flush 0 false).put Reg.FIRN_sealed 0 true).set Reg.FIRN_sealns 0 s.now
    .next (if s.flag Reg.PW_seal 0 then s.set Reg.GLB_STATE_state 0 dsWhiteout else s)

/-- `PWR_WARN_N` has been low for 200 ns. -/
def execPwrWarn (s : State) : Res := if s.dev = 0 then .next s else .next (s.detect 0x1D0 0 false)

/-- 50 µs have passed since the warning: mastering stops and the outputs of Whiteout apply. Where Firn has nothing to
flush, WHITEOUT follows at once. -/
def execCompletionSeal (s : State) : Res :=
  if s.flag Reg.PW_warn 0 && !s.flag Reg.PW_seal 0 && s.dev != dsWhiteout && s.dev != dsAonOnly && s.dev != 0 then
    let s := ((s.woRecord (s.get Reg.PW_src 0) 4 (s.get Reg.PW_ns 0)).whiteoutOutputs).put Reg.PW_seal 0 true
    .next (if s.flag Reg.FIRN_flush 0 then s else s.set Reg.GLB_STATE_state 0 dsWhiteout)
  else .next s

/-! ## Boot steps (R511 to R517) -/

/-- The step in progress. -/
def State.bootNow (s : State) : Nat := s.get Reg.GLB_STATE_boot_step 0 + 1

/-- The alternative of a step is in force. -/
def State.altOf (s : State) (n : Nat) : Bool := bit (s.get Reg.BOOT_STATUS_alt 0) (n - 1)

/-- The outcome of a completed step: 2 done, 3 done by alternative. -/
def State.doneCode (s : State) (n : Nat) : Nat :=
  if n = 4 then (if s.flag Reg.BOOT_STATUS_image 0 then 3 else 2) else if s.altOf n then 3 else 2

/-- The limit of a step in ticks of the time clock, from its entry or from the start of its alternative (Table PS-4). -/
def State.stepLimit (s : State) (n : Nat) : Nat :=
  1000000 * (match n with
    | 3 => if s.altOf 3 then 10 else 2
    | 4 => 880
    | 5 => if s.altOf 5 then 2000 else 300
    | 6 => if s.flag Reg.BOOT_CFG_long_test 0 && !s.altOf 6 then 4000 else 50
    | 7 => 200
    | 8 => 500
    | 9 => 2000
    | 10 => 10000
    | _ => 1)

/-- The boot watchdog has not ended the step in progress: one that completes as its limit expires completes (R511). -/
def State.inLimit (s : State) : Bool := decide (s.clk ≤ s.get Reg.BTX_at 0 + s.stepLimit s.bootNow)

/-- A step completes: its outcome and the time are recorded, and the next is entered. -/
def State.stepDone (s : State) (n : Nat) : State :=
  let s := (((s.set Reg.GLB_STATE_boot_step 0 n).outcome n (s.doneCode n)).ledgerEnd).stepStart
  if n < 10 then s.outcome (n + 1) 1 else s

/-- S2: the fuses are sensed, and the ledger is restored where the AON copy was lost. -/
def State.bootFuses (s : State) : State :=
  let s := (s.put Reg.BOOT_FUSE_debug_closed 0 (s.flag Reg.FZ_debug 0)).set Reg.BOOT_FUSE_revoked 0 (s.get Reg.FZ_revoked 0)
  let s := (s.set Reg.BOOT_FUSE_svn 0 (s.get Reg.FZ_svn 0)).put Reg.FP_DBG_SESSION_fuse_closed 0 (s.flag Reg.FZ_debug 0)
  if s.flag Reg.BTX_led 0 then s else (s.set Reg.BOOT_STATUS_alt 0 (s.get Reg.MRX_alt 0)).put Reg.BTX_led 0 true

/-- S8: the groups in use are calibrated but those of `fail`, which stay down, and the DRBG is instantiated. -/
def State.bootSerdes (s : State) (fail : Nat) : State :=
  let s := s.set Reg.PWR_SDS_FAIL_group 0 ((List.range 9).foldl (fun a g => if bit fail g && s.sdsUsed g then a + 2 ^ g else a) 0)
  let s := s.set Reg.SDS_cal 0 ((List.range 9).foldl (fun a g => if !bit fail g && s.sdsUsed g then a + 2 ^ g else a) 0)
  s.drbgEntropy.put Reg.CPH_RNG_STATUS_ready 0 true

/-- S4: the chosen image is in use, and what configuration space, the resource table and the ROM take from it is loaded. -/
def State.takeImage (s : State) (img : List Byte) (alt : Bool) : State :=
  let s := (s.put Reg.BOOT_STATUS_image 0 alt).ledgerPut 5 [BitVec.ofNat 8 (b2n alt)]
  let s := ((s.set Reg.BOOT_IMG_img_ver 0 (leAt img 28 4)).set Reg.BOOT_IMG_svn 0 (byteAt img 21)).loadRoms img
  { s.loadIds img with bootImg := img }

/-- What S4 reads of an image: nothing where the boot medium does not give it (`ok` false). -/
def readImage (img : List Byte) (ok : Bool) : List Byte := if ok then img else []

/-- A step of S1 to S9 completes within its limit. `prim` and `alter` are the images in the boot medium, which S4 reads where
`primOk` and `alterOk` say that the medium gives them; `fail` names the SerDes groups that S8 leaves down. S4 does not complete where neither image is authentic, nor S9 where a
segment fails its hash (R510, R512): those steps fail. S10 completes by READY. -/
def execBootStepComplete (_ms : Nat) (prim : List Byte) (primOk : Bool) (alter : List Byte) (alterOk : Bool) (fail : Nat) (s : State) : Res :=
  if s.dev ≠ dsBooting ∨ s.inLimit = false then .next s
  else
    match s.bootNow with
    | 2 => .next (s.bootFuses.stepDone 2)
    | 3 =>
      .next ((forEach [Reg.PWR_CLK_STATUS_pll_core, Reg.PWR_CLK_STATUS_pll_ppl, Reg.PWR_CLK_STATUS_pll_dma] (fun f t => t.put f 0 true)
        s).stepDone 3)
    | 4 =>
      match s.chooseImage (readImage prim primOk) (readImage alter alterOk) with
      | none => .next s
      | some (img, alt) => .next ((s.takeImage img alt).stepDone 4)
    | 7 => .next (s.firnCheck.stepDone 7)
    | 8 => .next ((s.bootSerdes fail).stepDone 8)
    | 9 =>
      if imageHashed s.bootImg (fun _ => true) then
        let s := forEach (imageSegs s.bootImg) (fun g t => t.loadSeg g) s
        .next (({ s with bootImg := [] }.startMgmt).stepDone 9)
      else .next s
    | 10 => .next s
    | n => if 10 < n then .next s else .next (s.stepDone n)

/-- The step has an alternative that R513 runs (Table PS-4). -/
def altStep (n : Nat) : Bool := n == 3 || n == 5 || n == 6 || n == 8 || n == 9 || n == 10

/-- A ledger restart (R513): the domains are reset, each endpoint whose Request Retry Status had ended is reset under
R406, and S1 begins again. -/
def State.ledgerRestart (s : State) : State :=
  let up := [0, 1].filter (fun h => s.flag Reg.HE_LINK_up h && decide (4 ≤ s.get Reg.GLB_STATE_boot_step 0))
  let n := s.get Reg.BOOT_STATUS_restarts 0
  let s := (s.coreReset.set Reg.BOOT_STATUS_restarts 0 (min 15 (n + 1))).startBoot 4
  forEach up (fun h t => (t.put Reg.HE_LINK_reset_seen h true).detect (0x0E0 + h) 0 false) s

/-- No alternative is left: WHITEOUT with cause BOOT (R514). -/
def State.bootDead (s : State) (n : Nat) : State := (s.outcome n 5).enterWhiteout n 6

/-- The step in progress fails; `none_` marks the failures for which Table PS-4 gives no alternative: an unrepairable defect at
S6, an entropy failure at S8. A failed Firn check and an entropy failure are fatal faults, which leave the step entered
(R312, R516, R517). -/
def execBootStepFail (_ms : Nat) (none_ : Bool) (s : State) : Res :=
  if s.dev ≠ dsBooting then .next s
  else
    let n := s.bootNow
    let s := s.ledgerEnd
    if n = 7 then .next (s.detect 0x160 0 false)
    else if n = 8 ∧ none_ = true then .next (s.detect 0x0C0 0 false)
    else if altStep n && !none_ && !s.altOf n then
      let s := (s.set Reg.BOOT_STATUS_alt 0 (s.get Reg.BOOT_STATUS_alt 0 ||| 2 ^ (n - 1))).set Reg.MRX_alt 0
        (s.get Reg.MRX_alt 0 ||| 2 ^ (n - 1))
      let s := (s.outcome n 5).stepStart
      .next (if 9 ≤ n then s.ledgerRestart else s)
    else .next (s.bootDead n)

/-- Firmware writes 1 to `BOOT_CTRL.ready`: S10 completes, within its limit. New work may follow, so that the seal of the last stop holds no
longer. -/
def execReady (who : Who) (_ms : Nat) (s : State) : Res :=
  let fw := match who with
    | .fw _ => true
    | _ => false
  if fw && s.dev == dsBooting && s.bootNow == 10 && s.inLimit && !s.flag Reg.PW_seal 0 then
    let s := (s.put Reg.FIRN_sealed 0 false).set Reg.FIRN_cause 0 0
    .next ((s.stepDone 10).set Reg.GLB_STATE_state 0 dsIdle)
  else .next s

/-- A write of `clear_alt`: the alternatives are cleared from the next start on. -/
def execClearAlt (who : Who) (mask : Nat) (s : State) : Res :=
  if s.bootOpen who then
    .next (s.set Reg.MRX_alt 0 ((List.range 10).foldl (fun a n => if bit (s.get Reg.MRX_alt 0) n && !bit mask n then a + 2 ^ n else a) 0))
  else .next s

/-! ## Fuses (R519) -/

/-- Only secure management threads and the BMC program fuses. -/
def State.fuseMay (s : State) (w : Who) : Bool :=
  s.bootOpen w && (match w with
    | .fw m => secure s (.fw m)
    | .bmc => true
    | _ => false)

def State.fuseRefuse (s : State) : State := (s.put Reg.BOOT_FUSE_CMD_refused 0 true).put Reg.BFX_armed 0 false

/-- A write with `arm` 1. -/
def execFuseArm (who : Who) (op arg : Nat) (s : State) : Res :=
  if !s.bootOpen who then .next s
  else if !s.fuseMay who then .next (s.put Reg.BOOT_FUSE_CMD_refused 0 true)
  else if op = 1 ∨ op = 2 ∨ op = 3 then
    .next ((((s.put Reg.BFX_armed 0 true).set Reg.BFX_op 0 op).set Reg.BFX_arg 0 arg).set Reg.BFX_ns 0 s.clk)
  else .next s

/-- The `go` write fits the arm: the same op and argument, within 1 ms. -/
def State.fuseGo (s : State) (op arg : Nat) : Bool :=
  s.flag Reg.BFX_armed 0 && s.get Reg.BFX_op 0 == op && s.get Reg.BFX_arg 0 == arg % 128 && decide (s.clk ≤ s.get Reg.BFX_ns 0 + 1000000)

/-- Run a fuse op on its `go` write; programming is in progress until the next tick (DESIGN CHOICE, log entry 9). -/
def State.fuseRun (s : State) (w : Who) (op arg : Nat) (ok : Bool) (f : State → State) : State :=
  if !s.bootOpen w then s
  else if !s.fuseMay w then s.put Reg.BOOT_FUSE_CMD_refused 0 true
  else if !s.fuseGo op arg || !ok then s.fuseRefuse
  else f ((s.put Reg.BFX_armed 0 false).put Reg.BOOT_FUSE_CMD_busy 0 true)

def execDebugClose (who : Who) (arg : Nat) (s : State) : Res :=
  .next (s.fuseRun who 1 arg true (fun t => t.put Reg.FZ_debug 0 true))

/-- Key slots that are not revoked, among 0 to 3, without one. -/
def State.otherKeys (s : State) (k : Nat) : Bool := (List.range 4).any (fun i => i != k && !bit (s.get Reg.FZ_revoked 0) i)

def execRevoke (who : Who) (arg : Nat) (s : State) : Res :=
  .next (s.fuseRun who 2 arg (decide (arg < 4) && s.otherKeys arg) (fun t =>
    t.set Reg.FZ_revoked 0 (t.get Reg.FZ_revoked 0 ||| 2 ^ arg)))

def execSvn (who : Who) (arg : Nat) (s : State) : Res :=
  .next (s.fuseRun who 3 arg (decide (s.get Reg.FZ_svn 0 ≤ arg ∧ arg ≤ 64)) (fun t => t.set Reg.FZ_svn 0 arg))

/-- A write to `BOOT_LEDGER_SEL`; `BOOT_LEDGER_DATA` then shows the record (Device.lean). -/
def execLedgerSelect (who : Who) (index : Nat) (s : State) : Res :=
  if s.bootOpen who then .next (s.set Reg.BOOT_LEDGER_SEL_index 0 (bits index 0 6)) else .next s

/-! ## Clocks (R502, R503) -/

/-- The TIME PLL leaves its reference: `ref_lock` reads 0, and after the first lock the clock is in Drift (R277). -/
def State.refGone (s : State) : State :=
  let s := s.put Reg.MT_STATUS_ref_lock 0 false
  if s.flag Reg.MTX_first 0 then s.enterDrift 2 else s

/-- `SYS_REFCLK` shows no edge for 1 µs. -/
def execSysRefclkLost (s : State) : Res :=
  if s.dev == 0 || s.flag Reg.CLK_lost 0 then .next s
  else
    let s := (s.put Reg.CLK_lost 0 true).put Reg.PWR_CLK_STATUS_sys_ref_lost 0 true
    .next (if s.get Reg.MT_CFG_ref_sel 0 = 0 ∨ s.flag Reg.MTX_lost 0 = true then s.refGone else s)

/-- `SYS_REFCLK` runs again; a TIME PLL that selects it locks by REF_LOCK. -/
def execSysRefclkReturn (s : State) : Res :=
  if s.dev == 0 then .next s else .next (s.put Reg.CLK_lost 0 false)

/-- A group that came into use has calibrated its lanes. -/
def execSdsCalibrationDone (g : Nat) (s : State) : Res :=
  if s.portsOn && s.sdsUsed g then .next (s.set Reg.SDS_cal 0 (s.get Reg.SDS_cal 0 ||| 2 ^ g)) else .next s

end Sys2Proof.Machine
end

