-- ==== Sys2Proof/Machine/DevOps.lean ====
section
/-! DEFINITION. Sys2Proof/Machine/DevOps.lean: what every register write has in common: the access types of Table SC-4 and
the accesses of 4, 8 and 16 bytes (R3, R7, R389). -/

namespace Sys2Proof.Machine

/-- The state a meaning leaves. -/
def ran (s : State) (r : Res) : State :=
  match r with
  | .next t => t
  | _ => s

/-- Bits that a write of `n` bytes from byte `r` of a register touches. -/
def touchMask (r n : Nat) : Nat := (2 ^ (8 * n) - 1) * 2 ^ (8 * r)

/-- What the fields that a write sets hold: RW and RWL their value, the others zero. -/
def State.kept (s : State) (fs : List (Nat × Fld)) (i : Nat) : Nat :=
  fs.foldl (fun a p => if p.2.acc = .rw ∨ p.2.acc = .rwl then a + s.get p.2 i * 2 ^ p.1 else a) 0

/-- The value that a write gives a register: the bytes it touches, and what the others hold. -/
def State.merged (s : State) (fs : List (Nat × Fld)) (i r n x : Nat) : Nat :=
  let k := s.kept fs i
  k - (k &&& touchMask r n) + x % 2 ^ (8 * n) * 2 ^ (8 * r)

/-- A field takes the write of `v` by its access type (Table SC-4). -/
def State.genField (s : State) (p : Nat × Fld) (i v : Nat) : State :=
  let x := bits v p.1 p.2.w
  match p.2.acc with
  | .rw => s.set p.2 i x
  | .rwl => s.set p.2 i x
  | .w1c => s.set p.2 i (s.get p.2 i - (s.get p.2 i &&& x))
  | .w1s => s.set p.2 i (s.get p.2 i ||| x)
  | .ro => s
  | .rc => s
  | .wo => s

/-- Every field of a register takes a write. -/
def State.genWrite (s : State) (fs : List (Nat × Fld)) (i v : Nat) : State := fs.foldl (fun t p => t.genField p i v) s

/-- Only the status bits of a register take a write. -/
def State.clearBits (s : State) (fs : List (Nat × Fld)) (i v : Nat) : State :=
  fs.foldl (fun t p => if p.2.acc = .w1c then t.genField p i v else t) s

/-- A field takes a value within its range; any other leaves it (log entry 10). -/
def State.ranged (s : State) (f : Fld) (i lo hi v : Nat) : State := if lo ≤ v ∧ v ≤ hi then s.set f i v else s

/-- The accessor may give an owner field the value `g` (R96; DEDUCED, log entry 10): a PF for itself, its VFs, or free. -/
def giveMay (w : Who) (g : Nat) : Bool :=
  match w with
  | .pf h => g == 0x1FFF || inPf h g
  | .fw _ => true
  | _ => false

/-- A management thread (firmware). -/
def isFw : Who → Bool
  | .fw _ => true
  | _ => false

/-- The accessor may write a register whose owner field holds `old` and is given `new`: a PF's write to a free resource
claims it, or is ignored (R96). -/
def ownerGive (w : Who) (old new : Nat) : Bool :=
  claimMay w old && giveMay w new && (isFw w || old != 0x1FFF || new != 0x1FFF)

/-- What a write to a register does where the register has a rule of its own: the state after; none where Table SC-4
alone governs. Arguments: accessor, base of the register (which names it), instance, value. -/
abbrev Wr := Who → Nat → Nat → Nat → State → Option State

end Sys2Proof.Machine
end

