-- ==== Sys2Proof/Machine/NirisOps.lean ====
section
/-! DEFINITION. Sys2Proof/Machine/NirisOps.lean: the instruction word, its legality, and one slot of a thread (chapter
"The Niris Instruction Set"). -/

namespace Sys2Proof.Machine

/-! ## Fields (Table NI-3) -/

def iOp (w : Nat) : Nat := bits w 56 8
def iDst (w : Nat) : Nat := bits w 51 5
def iS1 (w : Nat) : Nat := bits w 46 5
def iS2 (w : Nat) : Nat := bits w 41 5
def iMod (w : Nat) : Nat := bits w 38 3
def iPe (w : Nat) : Bool := bit w 37
def iPn (w : Nat) : Nat := bits w 36 1
def iPf (w : Nat) : Nat := bits w 33 3
def iImm (w : Nat) : Nat := bits w 0 33

/-- `imm` sign-extended to 64 bits. -/
def iSx (w : Nat) : Nat := if iImm w < 2 ^ 32 then iImm w else iImm w + 2 ^ 64 - 2 ^ 33

/-- Width of a code of Table NI-4. -/
def widthOf (m : Nat) : Nat := if m = 1 then 32 else if m = 2 then 16 else if m = 3 then 8 else 64

/-! ## Legality (R144, R148, R154, R160) -/

/-- Which bits of `dst`, `src1`, `src2` and `imm` an instruction uses; none where its opcode or `mod` is not defined. -/
def insnForm (op mod : Nat) : Option (Nat × Nat × Nat × Nat) :=
  if 0x10 ≤ op ∧ op ≤ 0x23 then
    if op % 2 = 0 then (if mod < 4 then some (31, 31, 31, 0) else none)
    else if mod < 4 then some (31, 31, 0, 2 ^ 33 - 1)
    else if mod = 4 ∧ (op = 0x11 ∨ op = 0x17 ∨ op = 0x19) then some (31, 31, 0, 2 ^ 32 - 1) else none
  else match op with
  | 0x24 => some (31, 31, 31, 0)
  | 0x25 => some (31, 31, 0, 2 ^ 33 - 1)
  | 0x26 => some (31, 31, 31, 0)
  | 0x27 => some (31, 31, 0, 2 ^ 33 - 1)
  | 0x28 => if mod < 2 then some (31, 31, 0, 2 ^ 13 - 1) else none
  | 0x29 => if mod = 0 then some (31, 31, 0, 2 ^ 13 - 1) else none
  | 0x2A => if mod < 4 then some (31, 31, 0, 0) else none
  | 0x2B => if mod < 4 then some (31, 31, 0, 0) else none
  | 0x2C => if mod < 3 then some (31, 31, 0, 0) else none
  | 0x2D => if mod < 3 then some (31, 31, 31, 0) else none
  | 0x40 => if mod < 7 then some (31, 31, 0, 2 ^ 33 - 1) else none
  | 0x41 => if mod < 4 then some (0, 31, 31, 2 ^ 33 - 1) else none
  | 0x42 => some (31, 31, 0, 2 ^ 33 - 1)
  | 0x43 => some (0, 31, 31, 2 ^ 33 - 1)
  | 0x44 => if mod < 7 then some (31, 31, 0, 2 ^ 33 - 1) else none
  | 0x45 => if mod < 4 then some (0, 31, 31, 2 ^ 33 - 1) else none
  | 0x46 => if mod = 2 ∨ mod = 3 then some (31, 31, 31, 2 ^ 33 - 1) else none
  | 0x47 => if mod = 2 ∨ mod = 3 then some (31, 31, 31, 2 ^ 33 - 1) else none
  | 0x60 => if mod = 0 then some (0, 0, 0, 2 ^ 15 - 1) else if mod = 1 then some (0, 31, 0, 0) else none
  | 0x61 => if mod < 4 then some (0, 31, 0, 2 ^ 15 - 1) else none
  | 0x62 => if mod = 0 then some (0, 0, 0, 2 ^ 15 - 1) else if mod = 1 then some (0, 31, 0, 0) else none
  | 0x63 => if mod = 0 then some (0, 0, 0, 0) else none
  | 0x64 => if mod = 0 then some (0, 31, 0, 2 ^ 30 - 1) else none
  | 0x70 => if mod = 0 then some (31, 0, 0, 2 ^ 32 - 1) else if mod = 1 then some (31, 0, 31, 2 ^ 32 - 1) else none
  | 0x71 => some (0, 31, 0, 2 ^ 33 - 1)
  | 0x72 => if mod = 0 then some (31, 31, 0, 0) else none
  | 0x73 => if mod < 2 then some (31, 0, 0, 0) else none
  | 0x80 => if mod = 0 then some (7, 31, 0, 0) else if mod = 1 then some (7, 0, 0, 2 ^ 33 - 1) else none
  | 0x81 => if mod < 6 then some (7, 0, 0, 0) else none
  | 0x82 => if mod < 4 then some (31, 0, 0, 3) else none
  | 0x84 => if mod = 0 then some (31, 31, 0, 2 ^ 33 - 1) else none
  | 0x85 =>
    if mod = 0 then some (0, 31, 31, 2 ^ 23 - 1) else if mod = 1 then some (0, 31, 31, 0)
    else if mod = 2 then some (0, 31, 0, 0) else none
  | 0xF0 => if mod = 0 then some (31, 31, 31, 2 ^ 15 - 1) else none
  | 0xF1 => if mod = 0 then some (31, 31, 0, 0) else none
  | 0xF2 => if mod = 0 then some (31, 0, 0, 0) else none
  | _ => none

/-- Bits of `v` outside a mask of ones. -/
def outside (v mask : Nat) : Bool := decide (mask < v)

/-- Event bits that no event has (Table FP-6). -/
def evReserved (m : Nat) : Bool := bit m 7 || decide (2 ^ 18 ≤ m)

/-- The word is a legal instruction for a supervisor or another thread. -/
def insnOk (sup : Bool) (w : Nat) : Bool :=
  match insnForm (iOp w) (iMod w) with
  | none => false
  | some (d, a, b, m) =>
    !outside (iDst w) d && !outside (iS1 w) a && !outside (iS2 w) b && !outside (iImm w) m &&
    (iPe w || (iPn w == 0 && iPf w == 0)) &&
    (sup || iOp w < 0xF0) &&
    (if iOp w = 0x28 ∨ iOp w = 0x29 then
      let len := bits w 6 7
      decide (len ≠ 0 ∧ bits w 0 6 + len ≤ 64)
    else if iOp w = 0x70 then !evReserved (iImm w) && !(sup && iMod w == 0)
    else if iOp w = 0xF2 then decide (iDst w ≤ 28)
    else true)

/-- The instruction writes its `dst` as a register. -/
def writesDst (op : Nat) : Bool :=
  !([0x24, 0x25, 0x41, 0x43, 0x45, 0x60, 0x61, 0x62, 0x63, 0x64, 0x71, 0x80, 0x81, 0x85].contains op)

/-- Registers that hold an instruction while their load has not arrived (R98, R146): those it reads or writes. -/
def insnRegs (w : Nat) : List Nat :=
  match insnForm (iOp w) (iMod w) with
  | none => []
  | some (_, a, b, _) =>
    (if a = 0 then [] else [iS1 w]) ++ (if b = 0 then [] else [iS2 w]) ++
    (if iOp w = 0xF2 then [iDst w, iDst w + 1, iDst w + 2, iDst w + 3] else if writesDst (iOp w) then [iDst w] else [])

/-! ## One slot -/

/-- The instruction takes effect, and the next one follows. -/
def State.retire (s : State) (t : Nat) : State :=
  (((s.slotIs t .retired).set Reg.TH_pc t (s.get Reg.TH_pc t + 1)).set Reg.TH_wait t 0).rearm t

/-- A taken branch. -/
def State.jump (s : State) (t pc : Nat) : State := ((s.slotIs t .retired).set Reg.TH_pc t pc).rearm t

/-- The instruction waits on something outside the thread (Table PM-3). -/
def State.back (s : State) (t : Nat) : State := s.slotIs t .back

/-- The predicate holds (R145). -/
def State.predOk (s : State) (t w : Nat) : Bool := !iPe w || s.get Reg.TH_c (8 * t + iPf w) == 1 - iPn w

/-- The budget of the thread's packet has run out (R125). -/
def State.budgetDue (s : State) (t : Nat) : Bool :=
  let b := s.get Reg.TH_budget t
  s.get Reg.TH_frame t != 0 && b != 0 && decide (64 * b ≤ s.get Reg.TH_slots t)

/-- A ticket is held too long: for `order_hold_limit` µs, outside a session (R118, R133; log entry 27). -/
def State.holdDue (s : State) (t k : Nat) : Bool :=
  let i := 2 * t + k
  s.get Reg.TH_tkt i != 0 && !s.flag Reg.TH_texp i && !s.session (cluOf t) &&
    decide (s.get Reg.TH_tktns i + 1000 * s.get Reg.FP_CLU_CFG_order_hold_limit (cluOf t) < s.clk)

/-- The budget of a thread's packet expires; a hold that expires in the same slot is not reported beside it (R125). -/
def State.budgetFault (s : State) (t : Nat) : State :=
  let s := forEach ([0, 1].filter (fun k => s.holdDue t k)) (fun k u => u.put Reg.TH_texp (2 * t + k) true) s
  (s.set Reg.TH_budget t 0).fault t 4 0 0

/-- A lockstep mismatch (R103): a fault of the lead, after which the pair waits for the copy. -/
def State.mismatch (s : State) (t : Nat) : State := (s.put Reg.LKS_copy (t / 32) true).fault t 6 0 0

/-- What a slot of a thread that has reached the word `w` does; `mis`: in GUARD the checker's slot differed; `sem`: the
instruction's own effect. -/
def State.slotRun (s : State) (t w : Nat) (mis : Bool) (sem : State → State) : State :=
  let u := s.slotPass t
  if s.flag Reg.TH_bad t then (u.put Reg.TH_bad t false).fault t 1 0 0
  else if s.budgetDue t then u.budgetFault t
  else if !insnOk (isSup t) w then u.fault t 1 0 0
  else if mis && s.guard && decide (t < 4096) then u.mismatch t
  else if !s.predOk t w then ((u.slotIs t .wasted).set Reg.TH_pc t (s.get Reg.TH_pc t + 1)).set Reg.TH_wait t 0
  else if (insnRegs w).any (fun r => r != 0 && s.get Reg.TH_hz (32 * t + r) != 0) then u.slotIs t .wasted
  else sem u

/-- The end of a slot: in GUARD the checker has run it too, unless the pair now waits for the copy (R101). -/
def State.slotEnd (s : State) (t : Nat) : State := if s.flag Reg.LKS_copy (t / 32) then s else s.mirror t

/-- One slot of a thread. -/
def State.slotDo (s : State) (t w : Nat) (mis : Bool) (sem : State → State) : State := (s.slotRun t w mis sem).slotEnd t

/-- What comes before the instruction itself in the thread's next slot (R109, R125, R144). -/
def State.slotFirst (s : State) (t w : Nat) : Bool :=
  s.flag Reg.TH_bad t || s.budgetDue t || !insnOk (isSup t) w

/-- The thread's next slot, where the word it has reached has the opcode and passes a test of its other fields, or where
the slot does not get as far as the instruction. -/
def State.slotIf (s : State) (t op : Nat) (mis : Bool) (may : Nat → Bool) (sem : Nat → Nat → State → State) : State :=
  let w := s.insn t
  if s.issues t && (s.slotFirst t w || (iOp w == op && may w)) then s.slotDo t w mis (sem t w) else s

/-- The thread's next slot holds an instruction of an opcode. -/
def State.slot (s : State) (t op : Nat) (mis : Bool) (sem : Nat → Nat → State → State) : State :=
  s.slotIf t op mis (fun _ => true) sem

/-! ## Arithmetic (R147, Tables NI-5 and NI-6) -/

/-- A two-operand instruction: `f` of its width and its operands within that width. -/
def State.alu (f : Nat → Nat → Nat → Nat) (im : Bool) (t w : Nat) (s : State) : State :=
  let n := widthOf (iMod w)
  let y := if im then (if iMod w = 4 then iImm w * 2 ^ 32 else iSx w) else s.tg t (iS2 w)
  (s.tput t (iDst w) (f n (s.tg t (iS1 w) % 2 ^ n) (y % 2 ^ n) % 2 ^ n)).retire t

def aAdd (_ x y : Nat) : Nat := x + y
def aSub (n x y : Nat) : Nat := x + 2 ^ n - y
def aAnd (_ x y : Nat) : Nat := x &&& y
def aOr (_ x y : Nat) : Nat := x ||| y
def aXor (_ x y : Nat) : Nat := x ^^^ y
def aShl (_ x y : Nat) : Nat := x * 2 ^ (y % 64)
def aShr (_ x y : Nat) : Nat := x / 2 ^ (y % 64)
def aSar (n x y : Nat) : Nat :=
  if x < 2 ^ (n - 1) then x / 2 ^ (y % 64) else 2 ^ n - 1 - (2 ^ n - 1 - x) / 2 ^ (y % 64)
def aRot (n x y : Nat) : Nat := x / 2 ^ (y % 64 % n) + x * 2 ^ (n - y % 64 % n)
def aMul (_ x y : Nat) : Nat := x * y

/-- A number of `n` bits as signed, moved to keep order: its sign bit inverted. -/
def flipSign (n x : Nat) : Nat := if x < 2 ^ (n - 1) then x + 2 ^ (n - 1) else x - 2 ^ (n - 1)

/-- A condition of Table NI-6 at a width. -/
def cmpCond (c n x y : Nat) : Bool :=
  match c with
  | 0 => x == y
  | 1 => x != y
  | 2 => decide (flipSign n x < flipSign n y)
  | 3 => decide (flipSign n y ≤ flipSign n x)
  | 4 => decide (x < y)
  | 5 => decide (y ≤ x)
  | 6 => x &&& y != 0
  | _ => x &&& y == 0

/-- A compare: its flag, at the width in `dst`[4:3] (R148). -/
def State.compare (im : Bool) (t w : Nat) (s : State) : State :=
  let n := widthOf (iDst w / 8)
  let y := if im then iSx w else s.tg t (iS2 w)
  (s.put Reg.TH_c (8 * t + iDst w % 8) (cmpCond (iMod w) n (s.tg t (iS1 w) % 2 ^ n) (y % 2 ^ n))).retire t

def State.selOp (im : Bool) (t w : Nat) (s : State) : State :=
  let y := if im then iSx w else s.tg t (iS2 w)
  (s.tput t (iDst w) (if s.flag Reg.TH_c (8 * t + iMod w) then s.tg t (iS1 w) else y)).retire t

/-- Sign-extend `n` bits to 64. -/
def signExt (n x : Nat) : Nat := if x < 2 ^ (n - 1) then x else x + 2 ^ 64 - 2 ^ n

/-- A one-operand instruction within its width. -/
def State.unary (f : Nat → Nat → Nat) (t w : Nat) (s : State) : State :=
  let n := widthOf (iMod w)
  (s.tput t (iDst w) (f n (s.tg t (iS1 w) % 2 ^ n))).retire t

def uPopc (n x : Nat) : Nat := ((List.range n).filter (fun k => bit x k)).length
def uClz (n x : Nat) : Nat := ((List.range n).takeWhile (fun k => !bit x (n - 1 - k))).length
def uBswap (n x : Nat) : Nat := leNat (beBytes (n / 8) x)

/-- The sum of CSUM before it is folded. -/
def csumRaw (n x y : Nat) : Nat := x % 65536 + ((List.range (n / 16)).map (fun k => bits y (16 * k) 16)).sum

def semExt (t w : Nat) (s : State) : State :=
  let len := bits w 6 7
  let v := bits (s.tg t (iS1 w)) (bits w 0 6) len
  (s.tput t (iDst w) (if iMod w = 1 then signExt len v else v)).retire t

def semIns (t w : Nat) (s : State) : State :=
  (s.tput t (iDst w) (setBits (s.tg t (iDst w)) (bits w 0 6) (bits w 6 7) (s.tg t (iS1 w)))).retire t

def semCsum (t w : Nat) (s : State) : State :=
  let n := widthOf (iMod w)
  (s.tput t (iDst w) (fold16 8 (csumRaw n (s.tg t (iS1 w) % 2 ^ n) (s.tg t (iS2 w) % 2 ^ n)))).retire t

/-! ## Memory (R149, Tables NI-7 and NI-8) -/

/-- The address of a memory instruction. -/
def State.ea (s : State) (t w : Nat) : Nat := (s.tg t (iS1 w) + iSx w) % 2 ^ 64

/-- Bytes of the access. -/
def accSize (w : Nat) : Nat := 2 ^ (iMod w % 4)

/-- The space of LD and ST: its base and size. -/
def localSpace (t : Nat) : Nat × Nat := if t < 4096 then (baseL (t / 16), 2 ^ 14) else (baseM, 2 ^ 23)
/-- The packet window. -/
def windowSpace (t : Nat) : Nat × Nat := (baseW t, 1024)
/-- The space of SLD, SST, SADD and SCAS. -/
def sharedSpace (t : Nat) : Nat × Nat := if t < 4096 then (baseS (cluOf t), 2 ^ 21) else (baseM, 2 ^ 23)

/-- The access lies in its space, aligned to its size (R104). -/
def accOk (sp : Nat × Nat) (a n : Nat) : Bool := decide (a % n = 0 ∧ a + n ≤ sp.2)

/-- Do a memory access, or raise the bounds fault. -/
def State.access (s : State) (t w : Nat) (sp : Nat × Nat) (f : Nat → State → State) : State :=
  let a := s.ea t w
  if accOk sp a (accSize w) then f (sp.1 + a) s else s.fault t 2 0 (a % 2 ^ 32)

/-- The value a load brings: sign-extended where `mod`[2] says so. -/
def loadExt (w v : Nat) : Nat := if 4 ≤ iMod w then signExt (8 * accSize w) v else v

/-- A load of a byte range of the window: big-endian unless `mod`[2]. -/
def winNat (w : Nat) (bs : List Byte) : Nat := if 4 ≤ iMod w then leNat bs else beNat bs

/-- A register takes the result of a shared-memory access, which arrives within 8 slots; how many pass is free (R98,
Table FP-2; log entry 1). -/
def State.sharedResult (s : State) (t r v : Nat) : State :=
  let d := s.fresh
  let n := d.1 % 8
  let s := d.2.tput t r v
  let s := if r = 0 then s else s.set Reg.TH_hz (32 * t + r) n
  if 4 ≤ n then s.coreEv t 9 else s

/-- The status word (Table NI-2). -/
def State.statusWord (s : State) (t : Nat) : Nat :=
  s.get Reg.TH_tpc t + 2 ^ 16 * s.get Reg.TH_tcause t + 2 ^ 20 * s.get Reg.TH_rsd t + 2 ^ 24 * s.tickets t +
  2 ^ 26 * ((List.range 4).foldl (fun a n => a + 2 ^ n * s.get Reg.TH_tag (4 * t + n)) 0) +
  2 ^ 30 * b2n (s.get Reg.TH_frame t != 0) + 2 ^ 31 * s.get Reg.TH_res t + 2 ^ 32 * b2n (isSup t) +
  2 ^ 33 * b2n (decide (4096 ≤ t)) + 2 ^ 34 * b2n (decide (4096 ≤ t) && secure s (.fw (t - 4096))) +
  2 ^ 35 * b2n (s.guard && decide (t < 4096)) + 2 ^ 36 * (t % 4096)

/-- The checker's copy of the lead's local data differs in a range: something outside the pair changed one of them, and the
load would write different registers (R101, R103). -/
def State.localDiffers (s : State) (t a n : Nat) : Bool :=
  s.guard && decide (t < 4096) && s.rd a n != s.rd (a + 2 ^ 14) n

def semLd (t w : Nat) (s : State) : State :=
  if s.ea t w = 0xFFFF0000 then
    (if iMod w = 3 then (s.tput t (iDst w) (s.statusWord t)).retire t else s.fault t 2 0 0xFFFF0000)
  else s.access t w (localSpace t) (fun a u =>
    if u.localDiffers t a (accSize w) then u.mismatch t
    else (u.tput t (iDst w) (loadExt w (leNat (u.rd a (accSize w))))).retire t)

/-- A store to local data goes to both copies in GUARD. -/
def State.localStore (s : State) (t a : Nat) (bs : List Byte) : State :=
  let s := s.wr a bs
  if s.guard && decide (t < 4096) then s.wr (a + 2 ^ 14) bs else s

def semSt (t w : Nat) (s : State) : State :=
  s.access t w (localSpace t) (fun a u => (u.localStore t a (leBytes (accSize w) (u.tg t (iS2 w)))).retire t)

def semPld (t w : Nat) (s : State) : State :=
  s.access t w (windowSpace t) (fun a u => (u.tput t (iDst w) (winNat w (u.rd a (accSize w)))).retire t)

def semPst (t w : Nat) (s : State) : State :=
  s.access t w (windowSpace t) (fun a u =>
    let v := u.tg t (iS2 w)
    (u.wr a (if 4 ≤ iMod w then leBytes (accSize w) v else beBytes (accSize w) v)).retire t)

def semSld (t w : Nat) (s : State) : State :=
  s.access t w (sharedSpace t) (fun a u => (u.sharedResult t (iDst w) (loadExt w (leNat (u.rd a (accSize w))))).retire t)

def semSst (t w : Nat) (s : State) : State :=
  s.access t w (sharedSpace t) (fun a u => (u.wr a (leBytes (accSize w) (u.tg t (iS2 w)))).retire t)

def semSadd (t w : Nat) (s : State) : State :=
  s.access t w (sharedSpace t) (fun a u =>
    let old := leNat (u.rd a (accSize w))
    ((u.wr a (leBytes (accSize w) (old + u.tg t (iS2 w)))).sharedResult t (iDst w) old).retire t)

def semScas (t w : Nat) (s : State) : State :=
  s.access t w (sharedSpace t) (fun a u =>
    let old := leNat (u.rd a (accSize w))
    let v := if old = u.tg t (iDst w) % 2 ^ (8 * accSize w) then u.wr a (leBytes (accSize w) (u.tg t (iS2 w))) else u
    (v.sharedResult t (iDst w) old).retire t)

/-! ## Control (R151, R152) -/

/-- The target of BR and CALL. -/
def State.target (s : State) (t w : Nat) : Nat := (if iMod w = 0 then iImm w else s.tg t (iS1 w)) % 2 ^ 15

def semBr (t w : Nat) (s : State) : State := s.jump t (s.target t w)

def semBrc (t w : Nat) (s : State) : State :=
  let x := s.tg t (iS1 w)
  let yes := match iMod w with
    | 0 => x == 0
    | 1 => x != 0
    | 2 => bit x 63
    | _ => !bit x 63
  if yes then s.jump t (iImm w) else s.retire t

def semCall (t w : Nat) (s : State) : State :=
  let n := s.get Reg.TH_rsd t
  if 8 ≤ n then s.fault t 2 0 0xFFFFFFFF
  else ((s.set Reg.TH_rs (8 * t + n) (s.get Reg.TH_pc t + 1)).set Reg.TH_rsd t (n + 1)).jump t (s.target t w)

/-- RET: to the caller, or the end of a resident program, which must hold no ticket (R118, R152). -/
def semRet (t _w : Nat) (s : State) : State :=
  match s.get Reg.TH_rsd t with
  | n + 1 => (s.set Reg.TH_rsd t n).jump t (s.get Reg.TH_rs (8 * t + n))
  | 0 =>
    if !s.flag Reg.TH_res t then s.fault t 2 0 0xFFFFFFFF
    else if s.tickets t ≠ 0 then s.fault t 5 4 0
    else (s.slotIs t .retired).endThread t

def semJmpt (t w : Nat) (s : State) : State :=
  let x := s.tg t (iS1 w)
  if x < bits w 15 15 then s.jump t (bits w 0 15 + x) else s.retire t

/-! ## Events and time (R153 to R156) -/

/-- The events a WAITE waits for. -/
def waitMask (w : Nat) : Nat := if iMod w = 1 then iImm w ||| 16 else iImm w

/-- The timeout of a WAITE begins with its first slot and runs with every further one; at its end EV_TIMEOUT is raised
(R154). -/
def State.waitTimer (s : State) (t w : Nat) : State :=
  if iMod w = 0 then s.set Reg.TH_wait t 1
  else
    let left := if s.get Reg.TH_wait t = 2 then s.get Reg.TH_left t - 1 else s.tg t (iS2 w) % 2 ^ 32
    let s := (s.set Reg.TH_wait t 2).set Reg.TH_left t left
    if left = 0 then s.set Reg.TH_ev t (s.get Reg.TH_ev t ||| 16) else s

def semWaite (t w : Nat) (s : State) : State :=
  let s := s.waitTimer t w
  let hit := s.get Reg.TH_ev t &&& waitMask w
  if hit = 0 then s.back t
  else ((s.set Reg.TH_ev t (s.get Reg.TH_ev t - hit)).tput t (iDst w) hit).retire t

def semSige (t w : Nat) (s : State) : State :=
  let v := (s.tg t (iS1 w) + iSx w) % 2 ^ 64
  let s := s.retire t
  if t < 4096 then (if v < 256 then s.raiseEv (t / 256 * 256 + v) (8 + iMod w) else s)
  else if v < 64 then s.raiseEv (4096 + v) (8 + iMod w) else s

def semWaitt (t w : Nat) (s : State) : State :=
  let g := s.tg t (iS1 w) % 2 ^ 48
  if reached48 s.now g then (s.tput t (iDst w) (s.now % 2 ^ 48)).retire t
  else ((s.set Reg.TH_wait t 3).set Reg.TH_twait t g).back t

def semRdt (t w : Nat) (s : State) : State :=
  (s.tput t (iDst w) (if iMod w = 0 then s.now else s.get Reg.MTX_frac 0)).retire t

/-! ## Staging, tags and tickets (R157 to R160) -/

def semCmdw (t w : Nat) (s : State) : State :=
  (s.set Reg.TH_w (8 * t + iDst w) (if iMod w = 0 then s.tg t (iS1 w) else iSx w)).retire t

def semCmdr (t w : Nat) (s : State) : State :=
  let g := 4 * t + iMod w
  if s.flag Reg.TH_rok g then (s.tput t (iDst w) (s.get Reg.TH_r (4 * g + iImm w))).retire t else s.fault t 3 0xF1 0

def semTkt (t w : Nat) (s : State) : State :=
  if 2 ≤ s.tickets t then s.fault t 5 3 0
  else
    let r := s.takeTicket t (65536 * s.threadPipe t + (s.tg t (iS1 w) + iSx w) % 65536)
    (r.2.tput t (iDst w) r.1).retire t

end Sys2Proof.Machine
end

