-- ==== Sys2Proof/Machine/RelOps.lean ====
section
/-! DEFINITION. Sys2Proof/Machine/RelOps.lean: REL (R107, R116 to R118, R160) and the supervisor instructions (R164). -/

namespace Sys2Proof.Machine

/-! ## The rebuilt frame (R107) -/

/-- A field of the thread's window (Table FP-4). -/
def State.winField (s : State) (t off n : Nat) : Nat := leNat (s.rd (baseW t + off) n)

/-- The frame that a REL releases, where R107 allows it. -/
def State.rebuilt (s : State) (t f : Nat) : Option (List Byte) :=
  let hin := s.winField t 0x144 2 % 512
  let off := s.winField t 0x146 2 % 512
  let n := s.winField t 0x148 2 % 512
  let bs := s.rd (baseW t + off) n ++ (s.frame f).bytes.drop hin
  if 0x140 < off + n ∨ n < 14 ∨ bs.length < 60 ∨ 16356 < bs.length then none else some bs

/-- The frame of a forward REL with the word `w`: its bytes, its offload word and SA (R333), its header offsets as the
change of header length moves them (R336), and its one-step request (R160). -/
def State.relFrame (s : State) (t w : Nat) (bs : List Byte) (x : Frame) : Frame :=
  let useOffl := bit (iImm w) 21
  let named := bit (iImm w) 20
  let move := fun (v : Nat) => if v = 0 then 0
    else ((v : Int) + (s.winField t 0x148 2 % 512 : Nat) - (s.winField t 0x144 2 % 512 : Nat)).toNat
  { x with
    bytes := bs
    offl := if useOffl then s.winField t 0x174 4 else 0
    sa := if named then bits (iImm w) 0 20 + 1 else if useOffl then x.sa else 0
    saThr := named
    l3 := move x.l3
    l4 := move x.l4
    meta_ := s.winField t 0x160 8
    ts := bit (iImm w) 22 }

/-- The window of a frame that a program sends for exception: the thread's, with the new header area, lengths, no program,
ticket or domain, and cause 0x5 (R184; DEDUCED, log entry 17). -/
def State.excWindow (s : State) (t : Nat) (bs : List Byte) : List Byte :=
  let n := min 256 bs.length
  let win := s.rd (baseW t) 1024
  let win := splice (splice win 0 (padTo 64 [] ++ padTo 256 (bs.take 256))) 0x142
    (leBytes 2 bs.length ++ leBytes 2 n ++ leBytes 2 0x040 ++ leBytes 2 n)
  let win := splice (splice win 0x14C (leBytes 2 0)) 0x158 (leBytes 8 0)
  splice (splice win 0x1DA [BitVec.ofNat 8 5]) 0x240 (padTo 0x1C0 [])

/-- The thread has released its packet: a worker returns to the pool, a management thread goes on (log entry 26). -/
def State.released (s : State) (t e : Nat) : State :=
  let s := s.coreEv t e
  if t < 4096 then (s.slotIs t .retired).endThread t
  else ((s.set Reg.TH_frame t 0).put Reg.TH_trap t false).retire t

/-- The ticket a REL presents: none where the thread holds no such handle; `some none` for a management thread that
releases a frame which took no ticket (R185; log entry 26). -/
def State.relTicket (s : State) (t w : Nat) : Option (Option Nat) :=
  let h := s.tg t (iS1 w)
  match s.holds t h with
  | some k => some (some k)
  | none => if 4096 ≤ t ∧ h = 0 ∧ s.tickets t = 0 then some none else none

/-- Consume the ticket of a REL, with the frame and leaf it carries. -/
def State.relUse (s : State) (k : Option Nat) (f l : Nat) : State :=
  match k with
  | some k => s.useTicket k (f + 1) (l + 1)
  | none => s.toStage f l

/-- The REL of a frame to a leaf: at the head of its domain it passes at once, otherwise it waits in the reorder buffer,
and while that is full the REL is not executed (R116). -/
def State.relLeaf (s : State) (t : Nat) (k : Option Nat) (f l : Nat) (g : Frame → Frame) : State :=
  match k with
  | none => ((s.updFrame f g).toStage f l).released t 6
  | some i =>
    let p := s.get Reg.TH_tktdom i / 65536
    if s.atHead (s.get Reg.TH_tktdom i) (s.get Reg.TH_tkt i - 1) then ((s.updFrame f g).relUse k f l).released t 6
    else if 2048 ≤ s.get Reg.ORD_rob p then s.back t
    else (((s.updFrame f (fun x => { g x with stage := .reorder })).set Reg.ORD_rob p (s.get Reg.ORD_rob p + 1)).relUse k f l).released t 6

/-- The ticket of a REL without a frame. -/
def State.relDropTicket (s : State) (k : Option Nat) : State :=
  match k with
  | some k => s.useTicket k 0 0
  | none => s

/-- The misuse that a forward or drop REL is: no such handle, no packet, or a second ticket held (R118). -/
def State.relMisuse (s : State) (t w : Nat) : Nat :=
  match s.relTicket t w with
  | none => 1
  | some _ => if s.get Reg.TH_frame t = 0 then 2 else if 2 ≤ s.tickets t then 4 else 0

/-- REL, forward. -/
def semRelForward (t w : Nat) (s : State) : State :=
  let m := s.relMisuse t w
  if m ≠ 0 then s.fault t 5 m 0
  else
    let k := (s.relTicket t w).getD none
    let f := s.get Reg.TH_frame t - 1
    let x := s.tg t (iS2 w)
    let port := bit x 63
    if port && bits x 0 11 != 0x030 then s.fault t 3 0xE2 0
    else
      match s.rebuilt t f with
      | none => s.fault t 3 0xE1 0
      | some bs =>
        let g := s.relFrame t w bs
        if port then
          let win := s.excWindow t bs
          (((s.updFrame f (fun x => { g x with win := win, prog := 0, domain := 0 })).relDropTicket k).toException f 5).released t 6
        else s.relLeaf t k f (bits x 0 18) g

/-- The status a drop gives host work (R160). -/
def dropStatus (v : Nat) : Nat := if 0x40 ≤ v % 256 ∧ v % 256 ≤ 0x7F then v % 256 else stDropped

/-- REL, drop. -/
def semRelDrop (t w : Nat) (s : State) : State :=
  let m := s.relMisuse t w
  if m ≠ 0 then s.fault t 5 m 0
  else
    let f := s.get Reg.TH_frame t - 1
    let st := dropStatus (s.tg t (iS2 w))
    ((s.relDropTicket ((s.relTicket t w).getD none)).endFrame f st).released t 7

/-- REL, pass. -/
def semRelPass (t w : Nat) (s : State) : State :=
  match s.holds t (s.tg t (iS1 w)) with
  | none => s.fault t 5 1 0
  | some k => (s.useTicket k 0 0).retire t

/-! ## Supervisor instructions (R164) -/

/-- The thread that a supervisor instruction names; none for thread number 0. -/
def State.supTarget (s : State) (t w : Nat) : Option Nat :=
  let n := s.tg t (iS1 w) % 16
  if n = 0 then none else some (t - t % 16 + n)

/-- The thread may be started: parked, or idle and resident; a management core keeps no pool. -/
def State.startable (s : State) (u : Nat) : Bool :=
  let m := s.get Reg.TH_mode u
  m == 2 || (m == 0 && (decide (4096 ≤ u) || !bit (s.get Reg.FP_CORE_DISP_disp_mask (u / 16)) (u % 16)))

def semThst (t w : Nat) (s : State) : State :=
  match s.supTarget t w with
  | none => s.fault t 1 0 0
  | some u =>
    if s.startable u then
      (((((s.startThread u (iImm w) true).set Reg.TH_ev u 0).tput u 1 (s.tg t (iS2 w))).tput t (iDst w) 1)).retire t
    else (s.tput t (iDst w) 0).retire t

def semThrs (t w : Nat) (s : State) : State :=
  match s.supTarget t w with
  | none => s.fault t 1 0 0
  | some u =>
    if s.flag Reg.TH_halt u then (s.tput t (iDst w) 0).retire t
    else (((s.dispose u 0x70).endThread u).tput t (iDst w) 1).retire t

/-- The oldest fault record of the issuer's core goes to four registers. -/
def semFltr (t w : Nat) (s : State) : State :=
  let d := iDst w
  match SM.get [] s.faultq (t / 16) with
  | [] => ((((s.tput t d (2 ^ 64 - 1)).tput t (d + 1) 0).tput t (d + 2) 0).tput t (d + 3) 0).retire t
  | r :: q =>
    let s := { s with faultq := SM.put [] s.faultq (t / 16) q }
    ((((s.tput t d (leAt r 0 8)).tput t (d + 1) (leAt r 8 8)).tput t (d + 2) (leAt r 16 8)).tput t (d + 3) (leAt r 24 8)).retire t

end Sys2Proof.Machine
end

