-- ==== Sys2Proof/Machine/EngineOps.lean ====
section
/-! DEFINITION. Sys2Proof/Machine/EngineOps.lean: the commands that a thread commits with CMDC: TABLE, CIPHER, DMA, COUNTER,
SEND and TRIGGER (R113, R158 to R163; Tables NI-12 to NI-19). -/

namespace Sys2Proof.Machine

/-! ## Committing (R114, R157, R158) -/

/-- What a command's check at commit answers: the reason of Table NI-13, or the state after. -/
abbrev Commit := Except Nat State

/-- What tells the results of a command from those of a later one: the sequence of its tag, or of the program. -/
def State.cmdSeq (s : State) (t tagp1 : Nat) : Nat :=
  if tagp1 = 0 then s.get Reg.TH_gen t else s.get Reg.TH_tagseq (4 * t + (tagp1 - 1))

/-- The tag of a command becomes outstanding; its old result words are readable no longer. -/
def State.tagOut (s : State) (t g : Nat) : State :=
  ((s.put Reg.TH_tag (4 * t + g) true).put Reg.TH_rok (4 * t + g) false).inc Reg.TH_tagseq (4 * t + g)

/-- CMDC: `full` says that the engine's queue has no room; `f` checks and takes the command. -/
def State.cmdc (full : Bool) (f : Nat → Nat → State → Commit) (t w : Nat) (s : State) : State :=
  let g := iDst w % 4
  let posted := bit (iDst w) 2
  if !posted && s.flag Reg.TH_tag (4 * t + g) then s.fault t 3 (16 * iMod w + 2) 0
  else if full then s.back t
  else
    match f t (if posted then 0 else g + 1) (if posted then s else s.tagOut t g) with
    | .error r => s.fault t 3 (16 * iMod w + r) 0
    | .ok u => (u.coreEv t 8).retire t

/-- The result of a command of engine `e`. A posted command has none: an error in it counts in the engine's error counter,
which for DMA is `DMA_ERR` (R158, R378). -/
def State.cmdResult (s : State) (e t g : Nat) (words : List Nat) : State :=
  if g ≠ 0 then s.toThread t g words
  else if words.headD 0 = 0 then s
  else if e = 2 then s.inc Reg.DMA_ERR_count 0
  else s.inc Reg.ENG_err e

/-- The commands of an engine: its highest operation. -/
def engOps (e : Nat) : Nat := match e with
  | 0 => 5
  | 1 => 4
  | 2 => 2
  | 3 => 3
  | _ => 2

/-- A command of operation `op`: a reserved operation is an engine error (R162). -/
def withOp (op : Nat) (f : Nat → Nat → State → Commit) (t g : Nat) (s : State) : Commit :=
  if s.tw t 0 % 16 = op then f t g s else .error 1

/-- The thread's next slot commits a command of an engine and operation, or one whose operation the engine reserves. -/
def State.slotCmd (s : State) (t e op : Nat) (mis full : Bool) (f : Nat → Nat → State → Commit) : State :=
  let o := s.tw t 0 % 16
  s.slotIf t 0x81 mis (fun w => iMod w == e && (o == op || o == 0 || decide (engOps e < o))) (State.cmdc full (withOp op f))

/-- The staging words from `k` on are all zero. -/
def State.twZero (s : State) (t k : Nat) : Bool := ((List.range 8).filter (fun i => decide (k ≤ i))).all (fun i => s.tw t i == 0)

/-! ## TABLE (Table NI-14, R191, R192, R196, R197) -/

def State.tblInst (s : State) (t : Nat) : Nat := bits (s.tw t 0) 8 16
def State.tblN (s : State) (t : Nat) : Nat := bits (s.tw t 0) 4 4
/-- The key of `n` words, 40 bytes. -/
def State.tblKey (s : State) (t : Nat) : List Byte :=
  padTo 40 ((List.range (s.tblN t)).flatMap (fun k => leBytes 8 (s.tw t (k + 1))))

/-- A flow command whose fields R191 or R162 refuses. -/
def State.flowBadCmd (s : State) (t : Nat) : Bool :=
  decide (2 ^ 24 ≤ s.tw t 0) || s.tblInst t != 0 || s.tblN t == 0 || decide (5 < s.tblN t)

/-- Return a result with the action data of a flow entry. -/
def State.flowResult (s : State) (t g status idx : Nat) (ad : List Byte) : State :=
  s.cmdResult 0 t g [status, leAt ad 0 8, leAt ad 8 8, idx]

def cmdFlowLookup (bad : Nat) (t g : Nat) (s : State) : Commit :=
  if s.flowBadCmd t then .error 1
  else
    let r := s.flowLookup (s.tblKey t) bad
    .ok ((r.2.foundBadFlows r.1.bads).flowResult t g r.1.status r.1.idx r.1.adata)

/-- The entry of a key: its index and action data (DEDUCED, log entry 17). -/
def State.flowEntry (s : State) (key : List Byte) : Nat × List Byte :=
  match s.flowFind key with
  | some i => (i, feData (s.flowRec i))
  | none => (0, [])

def cmdFlowInsert (t g : Nat) (s : State) : Commit :=
  if s.flowBadCmd t then .error 1
  else
    let r := s.flowInsert (s.tblKey t) (leBytes 8 (s.tw t 6) ++ leBytes 8 (s.tw t 7)) false
    let e := r.2.flowEntry (s.tblKey t)
    .ok (r.2.flowResult t g r.1 e.1 e.2)

def cmdFlowDelete (t g : Nat) (s : State) : Commit :=
  if s.flowBadCmd t then .error 1
  else
    let e := s.flowEntry (s.tblKey t)
    let r := s.flowDelete (s.tblKey t)
    .ok (r.2.flowResult t g r.1 e.1 e.2)

def cmdLpmLookup (bad : Bool) (t g : Nat) (s : State) : Commit :=
  let n := s.tblN t
  let key := s.tblKey t
  if 2 ^ 24 ≤ s.tw t 0 ∨ n = 0 ∨ 2 < n ∨ (n = 1 ∧ leAt key 4 4 ≠ 0) then .error 1
  else
    let r := s.lpmLookup (s.threadPipe t) (s.tblInst t) (n == 2) (beNat (padTo 16 (key.take (if n = 2 then 16 else 4)))) bad
    .ok ((s.foundBads .lpm (s.threadPipe t) r.bads).cmdResult 0 t g [r.status, r.word, 0, if r.status = 0 then bits r.word 10 24 else 0])

def cmdL2Lookup (bad : Nat) (t g : Nat) (s : State) : Commit :=
  let key := s.tblKey t
  if 2 ^ 24 ≤ s.tw t 0 ∨ s.tblN t ≠ 1 ∨ leAt key 6 2 ≠ 0 then .error 1
  else
    let u := s.flushSome
    let r := u.l2Lookup (s.threadPipe t) (s.tblInst t) (key.take 6) bad
    .ok ((u.foundBads .l2 (s.threadPipe t) r.bads).cmdResult 0 t g [r.status, r.word, 0, r.idx])

/-! ## CIPHER (Table NI-15, R324) -/

/-- The job a command asks for. -/
def State.cphCmd (s : State) (t g : Nat) : Job :=
  let w0 := s.tw t 0
  let mode := bits w0 4 4
  { kind := 1, owner := 0x2000, thr := t, tagp1 := g, tseq := s.cmdSeq t g, op := w0 % 16, mode := mode, page := bits w0 8 13,
    slot := bits w0 21 6, urgent := bit w0 27 && s.flag Reg.CPH_FP_SHARE_urgent_en 0, space := bits w0 28 2, src := s.tw t 1,
    dst := s.tw t 2, tag := s.tw t 6, tagLen := if mode == cmGcm || mode == cmGmac || mode == cmCmac then 16 else 0,
    aad := bits (s.tw t 3) 32 32, len := bits (s.tw t 3) 0 32, iv := leBytes 8 (s.tw t 4) ++ leBytes 8 (s.tw t 5) }

/-- An invalid combination (R322, R324), or a field that must be zero. -/
def State.cphCmdBad (s : State) (t : Nat) (j : Job) : Bool :=
  let mac := j.op == coMacGen || j.op == coMacVerify
  decide (2 ^ 30 ≤ s.tw t 0) || decide (2 ^ 32 ≤ s.tw t 6) || s.tw t 7 != 0 || decide (2 ≤ j.space) ||
  !cipherPair j.op j.mode || (mac && j.dst != 0) || (j.tagLen == 0 && j.tag != 0) || (j.mode != cmGcm && j.aad != 0) ||
  (j.mode == cmXts && decide (j.len < 16)) || !ivOk j.mode j.iv

/-- Bytes of a thread's data space. -/
def spaceSize (t sp : Nat) : Nat := if sp = 0 then 1024 else if t < 4096 then 2 ^ 21 else 2 ^ 23

/-- A range of the job leaves its space. -/
def cphRangeBad (t : Nat) (j : Job) : Bool :=
  let n := spaceSize t j.space
  let mac := j.op == coMacGen || j.op == coMacVerify
  decide (n < j.src + j.aad + j.len) || (!mac && decide (n < j.dst + j.len)) || decide (n < j.tag + j.tagLen)

def cmdCipher (t g : Nat) (s : State) : Commit :=
  let j := s.cphCmd t g
  if s.cphCmdBad t j then .error 1 else if cphRangeBad t j then .error 3 else .ok (s.addJob j)

/-! ## DMA (Table NI-16, R359, R363, R364, R366) -/

def State.dmaCmdChan (s : State) (t : Nat) : Nat := bits (s.tw t 0) 4 10

/-- The requester of Table DM-3 that a thread is. -/
def threadReq (t : Nat) : DmaReq := if t < 4096 then .thread t else .mgmt t

/-- The command names a channel that threads may not start (R359). -/
def State.dmaCmdDenied (s : State) (c : Nat) : Bool :=
  s.chOwner c != 0x1FFE || !s.flag Reg.DMA_CH_OWNER_fp c || chHard c

/-- A field that Table NI-16 does not define is set. -/
def State.dmaCmdField (s : State) (t : Nat) : Bool :=
  decide (2 ^ 14 ≤ s.tw t 0) || decide (2 ^ 32 ≤ s.tw t 3) || decide (2 ^ 48 ≤ s.tw t 4) || !s.twZero t 5

/-- The channel is busy for a command (R366). -/
def State.dmaCmdBusy (s : State) (c : Nat) : Bool := s.chState c != chIdle || !(s.dmaWaits c).isEmpty

def cmdDmaStart (t g : Nat) (s : State) : Commit :=
  let c := s.dmaCmdChan t
  if s.dmaCmdField t then .error 1
  else if s.dmaCmdDenied c then .error 4
  else if s.dmaCmdBusy c then .ok (s.cmdResult 2 t g [0x64])
  else .ok (s.dmaStart c (threadReq t) (.cmd t g (s.cmdSeq t g)))

def cmdDmaCopy (t g : Nat) (s : State) : Commit :=
  let c := s.dmaCmdChan t
  let src := s.tw t 1
  let dst := s.tw t 2
  let len := s.tw t 3
  let r := threadReq t
  if s.dmaCmdField t then .error 1
  else if s.dmaCmdDenied c then .error 4
  else if !dmaRangeOk src len || !dmaRangeOk dst len then .error 3
  else if !r.may src || !r.may dst then .error 4
  else if s.dmaBad c r src dst len (s.get Reg.DMA_CH_CFG_cfg c) then .error 1
  else if s.dmaCmdBusy c then .ok (s.cmdResult 2 t g [0x64])
  else
    let u := s.handOver c
    .ok (u.dmaBegin c (.cmd t g (s.cmdSeq t g)) src dst len (u.get Reg.DMA_CH_CFG_cfg c) (s.tw t 4))

/-! ## COUNTER (Table NI-17, R491) -/

/-- A command on a pair: fields, range, then what it does. A posted command out of range is
counted and does nothing more (R158, R491). -/
def ctrCmd (f : Nat → State → State × List Nat) (t g : Nat) (s : State) : Commit :=
  let w0 := s.tw t 0
  let bank := bits w0 8 8
  let ix := bits w0 16 24
  if bits w0 4 4 ≠ 0 ∨ 2 ^ 40 ≤ w0 ∨ 2 ^ 48 ≤ s.tw t 1 ∨ s.twZero t 2 = false then .error 1
  else if 15 < bank ∨ 1048575 < ix then (if g = 0 then .ok (s.inc Reg.ENG_err 3) else .error 3)
  else
    let r := f (2 ^ 20 * bank + ix) s
    .ok (r.1.cmdResult 3 t g ([0] ++ r.2))

def cmdCounterAdd (t : Nat) : Nat → State → Commit :=
  ctrCmd (fun i s => ((s.add Reg.CTR_pkts i (bits (s.tw t 1) 0 16)).add Reg.CTR_bytes i (bits (s.tw t 1) 16 32), [])) t

/-- The pair's counts. -/
def State.ctrPair (s : State) (i : Nat) : List Nat := [s.get Reg.CTR_pkts i, s.get Reg.CTR_bytes i]

def cmdCounterRead (t : Nat) : Nat → State → Commit := ctrCmd (fun i s => (s, s.ctrPair i)) t

def cmdCounterReadClear (t : Nat) : Nat → State → Commit :=
  ctrCmd (fun i s => ((s.set Reg.CTR_pkts i 0).set Reg.CTR_bytes i 0, s.ctrPair i)) t

/-! ## SEND (Table NI-18) -/

/-- SEND FRAME. In EXACT the frame's `arr_ts` is the time of the command: R268 gives one only to received frames and host work
(DESIGN CHOICE, log entry 48). -/
def cmdSendFrame (t g : Nat) (s : State) : Commit :=
  let w0 := s.tw t 0
  let n := bits w0 22 14
  let sp := bits w0 36 2
  let space := if sp = 0 then windowSpace t else if sp = 1 then sharedSpace t else localSpace t
  if 2 ^ 39 ≤ w0 ∨ 2 ^ 48 ≤ s.tw t 2 ∨ s.twZero t 3 = false ∨ sp = 3 ∨ n < 60 ∨ 16356 < n then .error 1
  else if space.2 < s.tw t 1 + n then .error 3
  else
    let x : Frame := { bytes := s.rd (space.1 + s.tw t 1) n, pipe := s.threadPipe t, arrq := 4 * s.now, launch := s.tw t 2, ts := bit w0 38 }
    .ok (((s.newFrame x).toStage s.nextFrame (bits w0 4 18)).cmdResult 4 t g [0])

/-- The owner number of a thread (Table MB-1). -/
def threadOwner (t : Nat) : Nat := if t < 4096 then 0xA000 + t else 0x8000 + (t - 4096)

/-- The words of a message: w1 to w4, two in each. -/
def State.msgWords (s : State) (t n : Nat) : List Nat :=
  (List.range n).map (fun k => bits (s.tw t (1 + k / 2)) (32 * (k % 2)) 32)

/-- A thread that channels 0 to 7 are not open to (R432, R441). -/
def State.mbxClosed (s : State) (t : Nat) : Bool := decide (t < 4096) || !secure s (.fw (t - 4096))

def cmdSendMbx (t g : Nat) (s : State) : Commit :=
  let w0 := s.tw t 0
  let c := bits w0 4 5
  let n := bits w0 16 4
  if bits w0 9 7 ≠ 0 ∨ 2 ^ 20 ≤ w0 ∨ n = 0 ∨ 8 < n ∨ s.twZero t 5 = false ∨ (c < 8 ∧ t < 4096) then .error 1
  else if c < 8 ∧ s.mbxClosed t = true then .error 4
  else
    match s.mbxPost c (threadOwner t) (s.msgWords t n) with
    | (2, _) => .error 4
    | (r, u) => .ok (u.cmdResult 4 t g [r])

/-! ## TRIGGER (Table NI-19, R163, R287 to R290) -/

def State.trgComp (s : State) (t : Nat) : Nat := bits (s.tw t 0) 4 8

def cmdTriggerArm (t g : Nat) (s : State) : Commit :=
  let w0 := s.tw t 0
  let k := s.trgComp t
  let act := bits w0 12 4
  let dest := bits w0 16 16
  let tgt := bits (s.tw t 1) 2 48
  let width := s.tw t 2
  if 2 ^ 32 ≤ w0 ∨ 2 ^ 50 ≤ s.tw t 1 ∨ 2 ^ 16 ≤ width ∨ s.twZero t 3 = false ∨ act = 0 ∨ 4 < act ∨ (act = 3 ∧ width = 0) then .error 1
  else if !s.destOk dest then .error 4
  else if s.flag Reg.MT_TRIG_CFG_own k then .ok (s.cmdResult 5 t g [5])
  else if s.flag Reg.MT_TRIG_STATUS_armed k then .ok (s.cmdResult 5 t g [1])
  else if reached48 s.now tgt then .ok (s.cmdResult 5 t g [2])
  else
    let u := (s.trigLoad k tgt (bits (s.tw t 1) 0 2) act dest width).put Reg.MT_TRIG_STATUS_thread k true
    let u := ((u.set Reg.TRX_thr k t).set Reg.TRX_tag k g).set Reg.TRX_tseq k (s.cmdSeq t g)
    .ok (if u.trgDue k then u.sendTrg k else u)

def cmdTriggerDisarm (t g : Nat) (s : State) : Commit :=
  let k := s.trgComp t
  if 2 ^ 32 ≤ s.tw t 0 ∨ 2 ^ 50 ≤ s.tw t 1 ∨ 2 ^ 16 ≤ s.tw t 2 ∨ s.twZero t 3 = false then .error 1
  else if s.flag Reg.MT_TRIG_CFG_own k then .ok (s.cmdResult 5 t g [5])
  else if s.flag Reg.MT_TRIG_STATUS_armed k then .ok ((s.disarm k).cmdResult 5 t g [0])
  else .ok (s.cmdResult 5 t g [0])

/-! ## Any command, for a debug step (R132) -/

def cmdOf (e op : Nat) : Nat → Nat → State → Commit :=
  match e, op with
  | 0, 1 => cmdFlowLookup 0
  | 0, 2 => cmdFlowInsert
  | 0, 3 => cmdFlowDelete
  | 0, 4 => cmdLpmLookup false
  | 0, 5 => cmdL2Lookup 0
  | 1, 1 => cmdCipher
  | 1, 2 => cmdCipher
  | 1, 3 => cmdCipher
  | 1, 4 => cmdCipher
  | 2, 1 => cmdDmaStart
  | 2, 2 => cmdDmaCopy
  | 3, 1 => cmdCounterAdd
  | 3, 2 => cmdCounterRead
  | 3, 3 => cmdCounterReadClear
  | 4, 1 => cmdSendFrame
  | 4, 2 => cmdSendMbx
  | 5, 1 => cmdTriggerArm
  | 5, 2 => cmdTriggerDisarm
  | _, _ => fun _ _ _ => .error 1

def semCmdc (t w : Nat) (s : State) : State := State.cmdc false (cmdOf (iMod w) (s.tw t 0 % 16)) t w s

/-- The effect of a legal instruction by its opcode. -/
def semOf (op : Nat) : Nat → Nat → State → State :=
  match op with
  | 0x10 => State.alu aAdd false
  | 0x11 => State.alu aAdd true
  | 0x12 => State.alu aSub false
  | 0x13 => State.alu aSub true
  | 0x14 => State.alu aAnd false
  | 0x15 => State.alu aAnd true
  | 0x16 => State.alu aOr false
  | 0x17 => State.alu aOr true
  | 0x18 => State.alu aXor false
  | 0x19 => State.alu aXor true
  | 0x1A => State.alu aShl false
  | 0x1B => State.alu aShl true
  | 0x1C => State.alu aShr false
  | 0x1D => State.alu aShr true
  | 0x1E => State.alu aSar false
  | 0x1F => State.alu aSar true
  | 0x20 => State.alu aRot false
  | 0x21 => State.alu aRot true
  | 0x22 => State.alu aMul false
  | 0x23 => State.alu aMul true
  | 0x24 => State.compare false
  | 0x25 => State.compare true
  | 0x26 => State.selOp false
  | 0x27 => State.selOp true
  | 0x28 => semExt
  | 0x29 => semIns
  | 0x2A => State.unary uPopc
  | 0x2B => State.unary uClz
  | 0x2C => State.unary uBswap
  | 0x2D => semCsum
  | 0x40 => semLd
  | 0x41 => semSt
  | 0x42 => semPld
  | 0x43 => semPst
  | 0x44 => semSld
  | 0x45 => semSst
  | 0x46 => semSadd
  | 0x47 => semScas
  | 0x60 => semBr
  | 0x61 => semBrc
  | 0x62 => semCall
  | 0x63 => semRet
  | 0x64 => semJmpt
  | 0x70 => semWaite
  | 0x71 => semSige
  | 0x72 => semWaitt
  | 0x73 => semRdt
  | 0x80 => semCmdw
  | 0x81 => semCmdc
  | 0x82 => semCmdr
  | 0x84 => semTkt
  | 0x85 => fun t w s => if iMod w = 0 then semRelForward t w s else if iMod w = 1 then semRelDrop t w s else semRelPass t w s
  | 0xF0 => semThst
  | 0xF1 => semThrs
  | 0xF2 => semFltr
  | _ => fun _ _ s => s

end Sys2Proof.Machine
end

