-- ==== Sys2Proof/Machine/Thread.lean ====
section
/-! DEFINITION. Sys2Proof/Machine/Thread.lean: dispatch, the timers of threads, lockstep, the debugger and the management
cores (chapter "Flow Processors, Threads and Slots"). -/

namespace Sys2Proof.Machine

/-! ## Dispatch (R106, R108, R109, R140) -/

/-- A core of a pipeline may take a packet: its cluster is awake, its pair does not copy, it is no checker (R102, R103,
R505). -/
def State.coreTakes (s : State) (c : Nat) : Bool :=
  !bit (s.get Reg.PWR_GATE_STATUS_clusters 0) (c / 16) && !s.flag Reg.LKS_copy (c / 2) && !(s.guard && c % 2 == 1)

/-- Workers of a core that are idle: in the pool, with their mask bit set, and not halted: a worker that the debugger holds
takes no packet (DESIGN CHOICE, log entry 27). -/
def State.idleWorkers (s : State) (c : Nat) : List Nat :=
  ((List.range 15).map (fun j => j + 1)).filter (fun j =>
    s.get Reg.TH_mode (16 * c + j) == 0 && bit (s.get Reg.FP_CORE_DISP_disp_mask c) j && !s.flag Reg.TH_halt (16 * c + j))

/-- Busy workers of a core: those that run a program or are parked (log entry 27). -/
def State.busyWorkers (s : State) (c : Nat) : Nat :=
  (((List.range 15).map (fun j => j + 1)).filter (fun j => s.get Reg.TH_mode (16 * c + j) != 0)).length

/-- The core with the fewest busy workers; of equals the first in the list. -/
def State.leastBusy (s : State) : List Nat → Option Nat
  | [] => none
  | c :: cs =>
    match s.leastBusy cs with
    | none => some c
    | some d => if s.busyWorkers d < s.busyWorkers c then some d else some c

/-- The cores of a pipeline in the order of the round-robin. -/
def State.coreOrder (s : State) (p : Nat) : List Nat :=
  (List.range 32).map (fun n => 32 * p + (s.get Reg.DSP_next p + n) % 32)

/-- The thread that takes the next packet of a pipeline. -/
def State.dispatchTo (s : State) (p : Nat) : Option Nat :=
  match s.leastBusy ((s.coreOrder p).filter (fun c => s.coreTakes c && !(s.idleWorkers c).isEmpty)) with
  | none => none
  | some c => some (16 * c + (s.idleWorkers c).headD 0)

/-- Slot budget of a packet in units of 64 slots (R125). -/
def State.packetBudget (s : State) (t e : Nat) : Nat :=
  if s.get Reg.FP_PROG_budget e = 0 then s.get Reg.FP_CLU_CFG_budget_def (cluOf t) else s.get Reg.FP_PROG_budget e

/-- Give a frame to a thread: ticket, window, registers, entry. -/
def State.dispatchFrame (s : State) (p f t : Nat) : State :=
  let x := s.frame f
  let e := 1024 * p + x.prog
  let r := s.takeTicket t (65536 * p + x.domain)
  let s := r.2.wr (baseW t) (splice (padTo 1024 x.win) 0x158 (leBytes 4 r.1 ++ leBytes 2 x.domain))
  let s := ((s.startThread t (s.get Reg.FP_PROG_entry e) false).set Reg.TH_ev t 0).set Reg.TH_frame t (f + 1)
  let s := (s.put Reg.TH_bad t (!s.flag Reg.FP_PROG_valid e)).set Reg.TH_budget t (s.packetBudget t e)
  (((s.updFrame f (fun x => { x with stage := .thread t })).pmu (1 + p) 4 1).coreEv t 5).mirror t

/-- Dispatch of pipeline `p` hands its oldest packet to an idle thread. -/
def execPacketDispatch (p : Nat) (s : State) : Res :=
  match SM.get [] s.dispq p, s.dispatchTo p with
  | f :: q, some t =>
    if s.moving then
      let s := { s with dispq := SM.put [] s.dispq p q }
      .next ((s.dispatchFrame p f t).set Reg.DSP_next p ((t / 16 + 1) % 32))
    else .next s
  | _, _ => .next s

/-! ## Timers (R118, R125, R154) -/

/-- The thread's WAITE has a timeout, and the slots before that of the timeout pass with no event: EV_TIMEOUT is raised for
the slot that follows, `s2` slots after the issue slot (R154). A masked event that is pending before then retires the WAITE
first, and a budget that ends within those slots comes first. -/
def execEvTimeout (t : Nat) (s : State) : Res :=
  let n := s.get Reg.TH_left t
  if s.issues t && s.get Reg.TH_wait t == 2 &&
      (decide (n ≤ 1) || (s.get Reg.TH_ev t &&& waitMask (s.insn t) == 0 &&
        !(s.set Reg.TH_slots t (s.get Reg.TH_slots t + (n - 2))).budgetDue t)) then
    .next (((forEach (List.range (n - 1)) (fun _ u => (u.slotPass t).slotIs t .back) s).set Reg.TH_left t 0).raiseEv t 4)
  else .next s

/-- A ticket is held too long. Where the budget expires in the same slot, that is what is reported (R125). -/
def execTicketHoldExpiry (t k : Nat) (s : State) : Res :=
  if s.coresRun && s.holdDue t k then
    (if s.issues t && s.budgetDue t then .next ((s.slotPass t).budgetFault t)
    else .next ((s.put Reg.TH_texp (2 * t + k) true).takeFault t 5 5 0))
  else .next s

/-- The slots of a packet's budget have passed; those of a thread that waits are back-starved (log entry 27). -/
def execSlotBudgetExpiry (t : Nat) (s : State) : Res :=
  let b := s.get Reg.TH_budget t
  if s.issues t && s.get Reg.TH_frame t != 0 && b != 0 then
    let n := 64 * b - s.get Reg.TH_slots t
    .next ((if s.get Reg.TH_wait t = 0 then s.set Reg.TH_slots t (max (s.get Reg.TH_slots t) (64 * b))
      else forEach (List.range n) (fun _ u => (u.slotPass t).slotIs t .back) s).budgetFault t)
  else .next s

/-! ## Deadlock (R123, R124) -/

/-- Workers of a cluster: in GUARD those of its leads. -/
def State.workersOf (s : State) (k : Nat) : List Nat :=
  ((List.range 256).map (fun j => 256 * k + j)).filter (fun t => !isSup t && s.threadNamed t)

/-- Threads that an armed comparator is destined for. -/
def State.trigThreads (s : State) : List Nat :=
  ((List.range 256).filter (fun k => s.flag Reg.MT_TRIG_STATUS_armed k)).filterMap (fun k => destThread (s.get Reg.TRX_dest k))

/-- The thread is parked, or in a WAITE that has no timeout and finds no event. -/
def State.blocked (s : State) (t : Nat) : Bool :=
  s.get Reg.TH_mode t == 2 ||
  (s.get Reg.TH_mode t == 1 && !s.flag Reg.TH_halt t && s.get Reg.TH_wait t == 1 &&
    s.get Reg.TH_ev t &&& waitMask (s.insn t) == 0)

/-- The thread has a command outstanding. -/
def State.outstanding (s : State) (t : Nat) : Bool := (List.range 4).any (fun g => s.flag Reg.TH_tag (4 * t + g))

def State.deadlocked (s : State) (k : Nat) : Bool :=
  let armed := s.trigThreads
  (s.workersOf k).all (fun t => s.blocked t && !s.outstanding t && !armed.contains t)

/-- A cluster has been deadlocked for 4,096 slots. -/
def execClusterDeadlock (k : Nat) (s : State) : Res :=
  if s.coresRun && !s.flag Reg.CLU_dlk k && s.deadlocked k then
    let s := (s.put Reg.CLU_dlk k true).put Reg.FP_CLU_STATUS_deadlock k true
    .next ((forEach (List.range 16) (fun c u => u.raiseEv (256 * k + 16 * c) 17) s).detect k 16 false)
  else .next s

/-! ## Supervisors and lockstep (R102, R103, R129) -/

/-- Restart the supervisor of a core at an instruction; its pending events stay (R129). -/
def State.supStart (s : State) (c pc : Nat) : State :=
  if s.threadNamed (16 * c) then
    let s := if s.get Reg.TH_mode (16 * c) = 1 then s.dispose (16 * c) 0x70 else s
    s.startThread (16 * c) pc false
  else s

/-- A write to `FP_CLU_CTRL`. -/
def execSupRestart (who : Who) (k val : Nat) (s : State) : Res :=
  if s.mayWrite who then
    let s := s.set Reg.FP_CLU_CTRL_sup_entry k (bits val 0 15)
    .next (forEach ((List.range 16).filter (fun c => bit val (16 + c))) (fun c u => u.supStart (16 * k + c) (bits val 0 15)) s)
  else .next s

/-- The copy of a lead's state into its checker is complete. -/
def execLockstepResyncDone (k : Nat) (s : State) : Res :=
  if s.flag Reg.LKS_copy k then
    let s := s.wr (baseL (2 * k + 1)) (s.rd (baseL (2 * k)) (2 ^ 14))
    .next ((forEach (List.range 16) (fun j u => u.mirror (32 * k + j)) s).put Reg.LKS_copy k false)
  else .next s

/-! ## The debugger (R131 to R135) -/

/-- A halted thread runs again; one whose packet was released returns to the pool. -/
def State.resumeThread (s : State) (t : Nat) : State :=
  let s := s.put Reg.TH_halt t false
  if s.flag Reg.TH_hsess t then (s.put Reg.TH_hsess t false).endThread t else s

/-- A session ends for a cluster: its threads resume, and the hold limit of their tickets counts anew. -/
def State.sessionEnd (s : State) (k : Nat) : State :=
  let ts := (List.range 256).map (fun j => 256 * k + j)
  let s := forEach (ts.filter (fun t => s.flag Reg.TH_halt t)) (fun t u => u.resumeThread t) s
  forEach ((ts.flatMap (fun t => [2 * t, 2 * t + 1])).filter (fun i => s.get Reg.TH_tkt i != 0)) (fun i u => u.set Reg.TH_tktns i u.now) s

/-- The clusters that a session leaves. -/
def State.sessionTo (s : State) (op : Bool) (mask : Nat) : State :=
  let gone := (List.range 16).filter (fun k => s.session k && !(op && bit mask k))
  forEach gone (fun k u => u.sessionEnd k) ((s.put Reg.FP_DBG_SESSION_open 0 op).set Reg.FP_DBG_SESSION_clusters 0 mask)

/-- A write of `open` 1: while the fuse is blown it is ignored. -/
def execSessionOpen (who : Who) (mask : Nat) (s : State) : Res :=
  if s.mayWrite who && !s.flag Reg.FP_DBG_SESSION_fuse_closed 0 then .next (s.sessionTo true mask) else .next s

/-- A write of `open` 0. -/
def execSessionClose (who : Who) (s : State) : Res :=
  if s.mayWrite who && s.flag Reg.FP_DBG_SESSION_open 0 then .next (s.sessionTo false 0) else .next s

/-- A debug command for a thread: refused outside a session where `must`, and for a checker's thread (R102, R131); one that
is taken wakes the cluster (R505). -/
def State.dbgCmd (s : State) (who : Who) (t : Nat) (must : Bool) (f : State → State) : State :=
  if !s.mayWrite who then s
  else if !s.threadNamed t then s.put Reg.FP_DBG_STATUS_refused 0 true
  else if !s.session (cluOf t) then (if must then s.put Reg.FP_DBG_STATUS_refused 0 true else s)
  else f ((s.set Reg.DBG_thr 0 t).wakeCluster (cluOf t))

def execHalt (who : Who) (t : Nat) (s : State) : Res :=
  .next (s.dbgCmd who t true (fun u => (u.put Reg.TH_halt t true).rearm t))

def execResume (who : Who) (t : Nat) (s : State) : Res :=
  .next (s.dbgCmd who t false (fun u => if u.flag Reg.TH_halt t then u.resumeThread t else u))

/-- One slot of a halted thread. -/
def State.debugStep (s : State) (t : Nat) : State :=
  let w := s.insn t
  if s.flag Reg.TH_halt t && !s.flag Reg.TH_hsess t && s.coreOpen t && s.get Reg.TH_mode t == 1 then
    s.slotDo t w false (semOf (iOp w) t w)
  else s

def execStep (who : Who) (t : Nat) (s : State) : Res := .next (s.dbgCmd who t true (fun u => u.debugStep t))

/-- Release what a halted thread holds, with DEBUG_ABORTED. -/
def State.debugRelease (s : State) (t : Nat) : State :=
  if s.flag Reg.TH_halt t then
    let had := s.get Reg.TH_frame t != 0 || s.flag Reg.TH_hsess t
    (s.dispose t 0x13).put Reg.TH_hsess t had
  else s

def execDebugRelease (who : Who) (t : Nat) (s : State) : Res := .next (s.dbgCmd who t false (fun u => u.debugRelease t))

/-! ## Management cores (R137 to R139, R150) -/

/-- A write to `MC_HB`: a heartbeat, and the period it gives (1 to 4,095 ms). -/
def execHeartbeat (who : Who) (val : Nat) (s : State) : Res :=
  if s.mayWrite who then
    let s := if bits val 16 12 = 0 then s else s.set Reg.MC_HB_hb_period 0 (bits val 16 12)
    .next ((s.set Reg.MC_HB_misses 0 0).put Reg.MC_HB_stall 0 false)
  else .next s

/-- Three periods have passed without a heartbeat. -/
def execMgmtStall (s : State) : Res :=
  if s.coresRun && !s.flag Reg.MC_HB_stall 0 && (s.flag Reg.MC_CTRL_running 0 || s.dev != dsBooting) then
    .next ((((s.put Reg.MC_HB_stall 0 true).set Reg.MC_HB_misses 0 3).enterDrift 1).detect 0x010 0 false)
  else .next s

/-- Reset a management thread: what it holds is settled, and it is reset as a sender and receiver of mailboxes (R139, R439,
R440). -/
def State.mgmtReset (s : State) (m : Nat) : State :=
  let t := 4096 + m
  let s := (((s.dispose t 0x70).endThread t).put Reg.TH_halt t false).set Reg.TH_ev t 0
  (s.mbxReset (0x8000 + m)).mbxOwe (0x8000 + m)

/-- A write of 1 to `MC_CTRL.restart`. -/
def execMgmtRestart (who : Who) (s : State) : Res :=
  if s.mayWrite who then
    .next ((((forEach (List.range 64) (fun m u => u.mgmtReset m) s).put Reg.MC_CTRL_running 0 false).put Reg.MCX_restart 0
      true).enterDrift 1)
  else .next s

/-- Firmware runs again; `nor` is the Worhan image where the one in management memory failed its check, and empty
otherwise; it must be authentic (R510). -/
def execMgmtRestartDone (nor : List Byte) (s : State) : Res :=
  if s.coresRun && s.flag Reg.MCX_restart 0 && (nor.isEmpty || (s.imageAuth nor && imageHashed nor (fun ty => ty == 0x10))) then
    let s := forEach ((imageSegs nor).filter (fun g => g.1 == 0x10)) (fun g u => u.loadSeg g) s
    .next (forEach (List.range 64) (fun m u => u.mbxRing (0x8000 + m)) (s.startMgmt.put Reg.MCX_restart 0 false))
  else .next s

/-- A management thread that holds no frame takes the oldest of the exception queue. -/
def execExceptionFrameDispatch (m : Nat) (s : State) : Res :=
  let t := 4096 + m
  match s.excq with
  | f :: q =>
    if s.issues t && s.get Reg.TH_frame t == 0 then
      let s := { s with excq := q }.wr (baseW t) (padTo 1024 (s.frame f).win)
      .next ((s.set Reg.TH_frame t (f + 1)).updFrame f (fun x => { x with stage := .thread t }))
    else .next s
  | [] => .next s

end Sys2Proof.Machine
end

