-- ==== Sys2Proof/Machine/Gate.lean ====
section
/-! DEFINITION. Sys2Proof/Machine/Gate.lean: the clock gating of clusters and cipher lanes (R100, R504 to R506). That the
idle time has passed is what the command says; that the conditions hold is checked. -/

namespace Sys2Proof.Machine

/-- A gated lane wakes. -/
def State.wakeLane (s : State) (l : Nat) : State :=
  let g := s.get Reg.PWR_GATE_STATUS_lanes 0
  if bit g l then (s.set Reg.PWR_GATE_STATUS_lanes 0 (g - 2 ^ l)).inc Reg.PWR_WAKE_CNT_count 0 else s

/-- A write to `PWR_GATE_CFG`; with `en` 0 every gated cluster and lane wakes. -/
def execGateCfgWrite (who : Who) (val : Nat) (s : State) : Res :=
  if s.bootOpen who then
    let on := bit val 31
    let s := s.put Reg.PWR_GATE_CFG_en 0 on
    let s := if bits val 16 10 = 0 then s else s.set Reg.PWR_GATE_CFG_wake_depth 0 (bits val 16 10)
    let s := if bits val 0 16 = 0 then s else s.set Reg.PWR_GATE_CFG_gate_us 0 (bits val 0 16)
    .next (if on then s
      else forEach (List.range 32) (fun l u => u.wakeLane l) (forEach (List.range 16) (fun k u => u.wakeCluster k) s))
  else .next s

/-- The thread leaves its cluster's clock to be stopped: idle, parked, or in a long wait. -/
def State.restful (s : State) (t : Nat) : Bool :=
  let us := s.get Reg.PWR_GATE_CFG_gate_us 0
  match s.get Reg.TH_mode t with
  | 1 =>
    match s.get Reg.TH_wait t with
    | 1 => s.get Reg.TH_ev t &&& waitMask (s.insn t) == 0
    | 2 => s.get Reg.TH_ev t &&& waitMask (s.insn t) == 0 && decide (1000 * us < 10 * s.get Reg.TH_left t)
    | 3 => !reached48 (s.now + 1000 * us) (s.get Reg.TH_twait t)
    | _ => false
  | _ => true

/-- The dispatch queue of a cluster's pipeline holds `wake_depth` packets. -/
def State.dispDeep (s : State) (k : Nat) : Bool :=
  decide (s.get Reg.PWR_GATE_CFG_wake_depth 0 ≤ (SM.get [] s.dispq (k / 2)).length)

/-- Threads of a cluster. -/
def clusterThreads (k : Nat) : List Nat := (List.range 256).map (fun j => 256 * k + j)

/-- The conditions of R504 hold for `gate_us` µs: the cluster stops its clock. -/
def execClusterGate (k : Nat) (s : State) : Res :=
  let g := s.get Reg.PWR_GATE_STATUS_clusters 0
  if s.coresRun && s.flag Reg.PWR_GATE_CFG_en 0 && !bit g k && !s.dispDeep k && !s.session k &&
      (clusterThreads k).all (fun t => s.restful t && !s.outstanding t) then
    .next (s.set Reg.PWR_GATE_STATUS_clusters 0 (g + 2 ^ k))
  else .next s

/-- Something wakes the cluster (R100, R505): the depth of the dispatch queue, or a packet that no awake cluster of the pair
can take; an event at a thread; a timeout that runs, or a WAITT target within 300 ns. -/
def State.wakeCause (s : State) (k : Nat) : Bool :=
  s.dispDeep k || (!(SM.get [] s.dispq (k / 2)).isEmpty && (s.dispatchTo (k / 2)).isNone) ||
  (clusterThreads k).any (fun t => s.get Reg.TH_ev t != 0 ||
    (s.get Reg.TH_mode t == 1 && (s.get Reg.TH_wait t == 2 ||
      (s.get Reg.TH_wait t == 3 && reached48 (s.now + 300) (s.get Reg.TH_twait t)))))

/-- A gated cluster wakes. -/
def execClusterWake (k : Nat) (s : State) : Res :=
  if s.coresRun && s.wakeCause k then .next (s.wakeCluster k) else .next s

/-- A lane without a job for `gate_us` µs stops its clock. -/
def execLaneGate (l : Nat) (s : State) : Res :=
  let g := s.get Reg.PWR_GATE_STATUS_lanes 0
  if s.coresRun && s.flag Reg.PWR_GATE_CFG_en 0 && !bit g l && (s.laneJob l).isNone then
    .next (s.set Reg.PWR_GATE_STATUS_lanes 0 (g + 2 ^ l))
  else .next s

/-- Jobs that wait in a pool's queue. -/
def State.poolQueue (s : State) (aside : Bool) : Nat :=
  (s.jobs.filter (fun j => j.lane == 0 && (j.kind != 2) == aside)).length

/-- A gated lane wakes when its pool's queue holds `wake_depth` jobs. -/
def execLaneWake (l : Nat) (s : State) : Res :=
  if s.coresRun &&
      decide (s.get Reg.PWR_GATE_CFG_wake_depth 0 ≤ s.poolQueue (bit (s.get Reg.CPH_LANE_CFG_lookaside 0) l)) then
    .next (s.wakeLane l)
  else .next s

end Sys2Proof.Machine
end

