-- ==== Sys2Proof/Machine/Pipe.lean ====
section
/-! DEFINITION. Sys2Proof/Machine/Pipe.lean: parsing and classification of a frame, and the update list of a pipeline
(chapter "Pipelines: Fixed-Offset Parsing and Classification"). -/

namespace Sys2Proof.Machine

/-! ## The parser (R169 to R177) -/

/-- Local source number of a frame's source in its pipeline (Table PP-1). -/
def localSrc (p src : Nat) : Nat :=
  if src < 16 then src - 2 * p
  else if src < 0x100 then 130 + (src - 0x020)
  else 2 + 64 * (linkOf src - 2 * p) + chanOf src

/-- The first profile whose selector entry matches, with the entry (R172). -/
def State.selMatch (s : State) (p cls : Nat) (bs : List Byte) : Option Nat :=
  (List.range 256).find? (fun i =>
    let r := s.selRec p i
    let eq (v m : Nat) : Bool := beAt bs v 2 &&& beAt r (m + 6) 2 == beAt r m 2
    bit (byteAt r 13) 7 && (cls &&& bits (byteAt r 0) 4 4) == bits (byteAt r 0) 0 4 &&
    eq 12 1 && eq 14 3 && eq 16 5)

/-- A frame is outer-only under a profile (Table PP-4). -/
def outerOnly (prf bs : List Byte) : Bool :=
  let o := byteAt prf 225
  match bits (byteAt prf 224) 0 2 with
  | 1 => bits (byteAt bs o) 0 4 != 5 || bit (byteAt bs (o + 6)) 5 || bits (beAt bs (o + 6) 2) 0 13 != 0
  | 2 => [0, 43, 44, 50, 51, 60, 135, 139, 140, 253, 254].contains (byteAt bs (o + 6))
  | _ => false

/-- Enabled extracts of a profile: first frame byte, length, first key byte, past L3. -/
def extracts (prf : List Byte) : List (Nat × Nat × Nat × Bool) :=
  ((List.range 32).filter (fun x => bit (byteAt prf (4 * x + 1)) 7)).map (fun x =>
    (byteAt prf (4 * x), bits (byteAt prf (4 * x + 1)) 0 4 + 1, bits (byteAt prf (4 * x + 2)) 0 7,
     bit (byteAt prf (4 * x + 1)) 4))

/-- The extract area, key bytes 8 to 79 (R174, R176): later extracts win; those past L3 write zeros on an outer-only
frame. -/
def extractArea (prf bs : List Byte) (frag : Bool) : List Byte :=
  ((extracts prf).foldl (fun k e =>
    splice k e.2.2.1 (if frag && e.2.2.2 then List.replicate e.2.1 0#8 else slice bs e.1 e.2.1)) (List.replicate 80 0#8)).drop 8

/-- An extract passed the frame end. -/
def extractShort (prf bs : List Byte) (frag : Bool) : Bool :=
  (extracts prf).any (fun e => !(frag && e.2.2.2) && decide (bs.length < e.1 + e.2.1))

/-- The key (Table PP-5). -/
def keyOf (x : Frame) (profile : Nat) (prf : List Byte) (frag : Bool) : List Byte :=
  let host := x.qp1 != 0
  leBytes 2 (x.src % 2 ^ 11) ++ leBytes 1 (profile % 64) ++
  leBytes 1 (b2n frag + 2 * b2n host + 4 * b2n (extractShort prf x.bytes frag)) ++
  leBytes 1 (if host then x.tc % 8 else 0) ++ leBytes 3 (if host then x.qp1 - 1 else 0) ++ extractArea prf x.bytes frag

/-- Check `k` of a profile fails (R175). -/
def checkFails (prf bs : List Byte) (frag : Bool) (k : Nat) : Bool :=
  let o := 128 + 12 * k
  let f := byteAt prf (o + 1)
  let a := byteAt prf o
  let same := leNat (slice bs a 4) &&& leAt prf (o + 4) 4 == leAt prf (o + 8) 4
  bit f 0 && !(bit f 2 && frag) && (decide (bs.length < a + 4) || same == bit f 1)

/-- The first check that fails. -/
def firstFail (prf bs : List Byte) (frag : Bool) : Option Nat := (List.range 8).find? (checkFails prf bs frag)

/-! ## The window (Tables FP-4 and PP-7) -/

/-- What the pipeline found out about a frame. -/
structure Found where
  profile : Nat := 0
  frag : Bool := false
  key : List Byte := []
  hit : Option Nat := none
  action : List Byte := []
  hash : Nat := 0
  flow : Look := { status := 1 }
  lpm : Look := { status := 1 }
  l2 : Look := { status := 1 }
  exc : Nat := 0
  chk : Nat := 0

/-- The results area of a window. -/
def winResults (r : Found) : List Byte :=
  let cls := b2n r.hit.isSome + 2 * r.hit.getD 0 + 2 ^ 16 * r.exc + 2 ^ 20 * r.chk
  leBytes 8 r.flow.word ++ padTo 16 r.flow.adata ++ leBytes 8 cls ++ padTo 16 (slice r.action 16 16) ++
  leBytes 8 r.lpm.word ++ leBytes 8 r.l2.word ++ padTo 64 (r.key.drop 8)

/-- The window of a frame; the ticket and its domain are put in at dispatch. The free headroom, and the header area past the
end of a short frame, hold zeros (DESIGN CHOICE, log entry 27: R106 clears 0x240 to 0x3FF only). -/
def winOf (x : Frame) (r : Found) (prog tc : Nat) (ts : Bool) : List Byte :=
  let n := min 256 x.bytes.length
  let host := x.qp1 != 0
  let head := padTo 64 [] ++ padTo 256 (x.bytes.take 256)
  let a := leBytes 2 x.src ++ leBytes 2 x.bytes.length ++ leBytes 2 n ++ leBytes 2 0x040 ++ leBytes 2 n ++
    leBytes 1 r.profile ++ leBytes 1 (b2n r.frag + 2 * b2n host + 4 * b2n ts) ++ leBytes 2 prog ++ leBytes 2 0
  let b := padTo 8 (leBytes 6 (x.arrq / 4)) ++ leBytes 8 0 ++ leBytes 8 x.meta_ ++
    leBytes 3 (if host then x.qp1 - 1 else 0) ++ leBytes 1 tc ++ leBytes 6 (if host then x.seq else 0) ++
    leBytes 2 x.egress ++ leBytes 4 (if host then x.offl else 0) ++ leBytes 4 r.hash
  padTo 1024 (padTo 0x1C0 (head ++ a ++ b) ++ winResults r)

/-- Key bytes that a vector selects, as the flow key (R180). -/
def flowKeyOf (vec key : List Byte) : List Byte :=
  padTo 40 (((List.range 80).filter (fun b => bit (byteAt vec (b / 8)) (b % 8))).map (fun b => key.getD b 0#8))

/-! ## Classification (R178 to R184) -/

/-- Send a frame for exception with its window (R184). -/
def State.pipeExc (s : State) (f : Nat) (r : Found) (tc : Nat) : State :=
  let s := s.updFrame f (fun x => { x with win := winOf x r 0 tc (r.exc == 4 && bit (byteAt r.action 4) 5), prog := 0, domain := 0 })
  s.toException f r.exc

/-- The lookups an action enables (R181), and the learn request of the frame's source address (R205). -/
def State.lookups (s : State) (p : Nat) (x : Frame) (r : Found) (bad : Nat) : Found × State :=
  let a := r.action
  let e := byteAt a 4
  let (fl, s) := if bit e 0 then s.flowLookup (flowKeyOf (s.kselRec p (bits (byteAt a 5) 0 4)) r.key) (bits bad 8 4)
    else ({ status := 1 }, s)
  let lo := bits (byteAt a 8) 0 7
  let v6 := bit (byteAt a 8) 7
  let lp := if bit e 1 then s.lpmLookup p (leAt a 10 2) v6 (beNat (padTo 16 (slice r.key lo (if v6 then 16 else 4)))) (bit bad 1)
    else { status := 1 }
  let s := if bit e 2 then s.flushSome else s
  let l2 := if bit e 2 then s.l2Lookup p (leAt a 14 2) (slice r.key (bits (byteAt a 12) 0 7) 6) (bits bad 12 4) else { status := 1 }
  let s := if bit e 2 then s.l2Source p (leAt a 14 2) (slice x.bytes 6 6) (localSrc p x.src) x.src (bits bad 16 4) else s
  let s := ((s.foundBadFlows fl.bads).foundBads .lpm p lp.bads).foundBads .l2 p l2.bads
  let s := if bit e 2 then s.foundBads .l2 p (l2Bads (leAt a 14 2) (slice x.bytes 6 6) (bits bad 16 4)) else s
  ({ r with flow := fl, lpm := lp, l2 := l2 }, s)

/-- Carry out the action of a classifier hit (R181). -/
def State.actOn (s : State) (p f : Nat) (x : Frame) (r : Found) : State :=
  let a := r.action
  let e := byteAt a 4
  let tc := if x.qp1 = 0 then bits (byteAt a 5) 4 3 else x.tc
  if bit e 4 then (s.inc Reg.PPL_DROP_count p).endFrame f stDropped
  else if bit e 3 then s.pipeExc f { r with exc := 4 } tc
  else
    let prog := if bit (byteAt a 3) 7 && r.flow.status == 0 then bits (leAt a 2 2) 0 10 else bits (leAt a 0 2) 0 10
    let dom := if x.qp1 ≠ 0 then (x.qp1 - 1) % 65536
      else match bits e 6 2 with
        | 0 => leAt a 6 2
        | 1 => x.src
        | _ => r.hash % 65536
    let s := s.updFrame f (fun y =>
      { y with win := winOf y r prog tc (bit e 5), prog := prog, domain := dom, tc := tc, stage := .dispatch })
    { s with dispq := SM.put [] s.dispq p (SM.get [] s.dispq p ++ [f]) }

/-- Classify a frame that passed its checks. -/
def State.classify (s : State) (p f : Nat) (x : Frame) (r : Found) (bad : Nat) : State :=
  match s.clsMatch p r.key with
  | none => s.pipeExc f { r with exc := 2 } x.tc
  | some i =>
    if bit bad 0 then (s.foundBad .cls p i).pipeExc f { r with exc := 2 } x.tc
    else
      let a := clAction (s.clsRec p i)
      let v := bits (byteAt a 5) 0 4
      let s := s.pmu (1 + p) 2 1
      if bit bad 5 then (s.foundBad .ksel p v).pipeExc f { exc := 3 } x.tc
      else
        let hash := crc32c (s.get Reg.PPL_HASH_SEED_seed p) (flowKeyOf (s.kselRec p v) r.key)
        let o := s.lookups p x { r with hit := some i, action := a, hash := hash } bad
        (o.2.updFrame f (fun y => { y with hash := hash })).actOn p f x o.1

/-- Parse a frame (R173); `bad` marks the entries that fail parity when read: in bits 0, 1 and 3 to 5 those of classifier, LPM,
selector, profile and vector; in bits 11:8, 15:12 and 19:16 the ways of the flow, the L2 and the L2 source lookup (R210). -/
def State.parseIn (s : State) (p f bad : Nat) : State :=
  let x := s.frame f
  let s := s.pmu (1 + p) 1 1
  let i := s.selMatch p (s.get Reg.PPL_PCLASS_pclass (132 * p + localSrc p x.src)) x.bytes
  let prof := match i with
    | some i => some (bits (byteAt (s.selRec p i) 13) 0 6)
    | none => if s.flag Reg.PPL_CFG_sel_def_en p then some (s.get Reg.PPL_CFG_sel_def p) else none
  match prof with
  | none => s.pipeExc f { exc := 3 } x.tc
  | some j =>
    if i.isSome && bit bad 3 then (s.foundBad .sel p (i.getD 0)).pipeExc f { exc := 3 } x.tc
    else if bit bad 4 then (s.foundBad .prf p j).pipeExc f { exc := 3 } x.tc
    else
      let prf := s.prfRec p j
      let frag := outerOnly prf x.bytes
      let r : Found := { profile := j, frag := frag, key := keyOf x j prf frag }
      let s := if frag then s.inc Reg.PPL_FRAG_count p else s
      let s := if extractShort prf x.bytes frag then s.inc Reg.PPL_SHORT_count p else s
      match firstFail prf x.bytes frag with
      | some k => s.pipeExc f { r with exc := 1, chk := k } x.tc
      | none => s.classify p f x r bad

/-- Take a frame into the parser: a host entry is under way from then on (R170), and its frame meets its function's policer
first (R252). -/
def State.parse (s : State) (p f bad : Nat) : State :=
  let x := s.frame f
  if x.qp1 = 0 then s.parseIn p f bad
  else
    let g := s.qOwner (x.qp1 - 1)
    let r := (s.markWay (x.qp1 - 1) x.idx).meter (4096 + g) (s.flag Reg.SCH_HPOL_en g) (s.get Reg.SCH_HPOL_rate g) (s.get Reg.SCH_HPOL_burst g)
      (x.bytes.length + 4)
    if r.1 then r.2.parseIn p f bad else (r.2.inc Reg.SCH_HPOL_DROP_drops g).endFrame f stDropped

/-- A complete host frame may be handed to its pipeline: in queue order (R40, R42), before hand-over stops (R55), and not
while its function is being reset (R416). -/
def State.hostMay (s : State) (x : Frame) : Bool :=
  let q := x.qp1 - 1
  !s.flag Reg.PW_warn 0 && s.fnState (s.qOwner q) != fsResetting &&
  s.frames.all (fun e => !(e.2.qp1 == x.qp1 && seqBefore e.2.seq x.seq && (e.2.stage == .arriving || e.2.stage == .parse)))

/-- Frames that are parser candidates, with their local sources, oldest first. -/
def State.candidates (s : State) (p : Nat) : List (Nat × Nat) :=
  (s.frames.filter (fun e => e.2.stage == .parse && e.2.pipe == p && (e.2.qp1 == 0 || s.hostMay e.2))).map (fun e =>
    (localSrc p e.2.src, e.1))

/-- The parser of a pipeline takes one frame of the next source in rotation (R170), unless its input is closed (R188) or
its dispatch queue is full (R111). -/
def execFrameParse (p bad : Nat) (s : State) : Res :=
  let l := s.candidates p
  if !s.moving || s.flag Reg.PPL_STATUS_paused p || decide (8192 ≤ (SM.get [] s.dispq p).length) || l.isEmpty then .next s
  else
    let last := s.get Reg.PRS_last p
    let src := rotAt (l.map (fun e => e.1)) last
    match l.find? (fun e => e.1 == src) with
    | none => .next s
    | some e => .next ((s.set Reg.PRS_last p (src + 1)).parse p e.2 bad)

/-! ## The update list (R186 to R189) -/

def State.updList (s : State) (p : Nat) : List (Nat × Nat × List Byte) := SM.get [] s.updq p

def State.setUpd (s : State) (p : Nat) (l : List (Nat × Nat × List Byte)) : State :=
  ({ s with updq := SM.put [] s.updq p l }).set Reg.PPL_STATUS_pending p l.length

/-- Refuse a push, commit or discard with a reason. -/
def State.updRefuse (s : State) (p reason : Nat) : State :=
  (s.put Reg.PPL_UPD_STATUS_refused p true).set Reg.PPL_UPD_STATUS_reason p reason

/-- Bytes ANDed with a mask, byte for byte. -/
def andBytes (m r : List Byte) : List Byte := (List.range m.length).map (fun i => (r.getD i 0#8) &&& (m.getD i 0#8))

/-- The bits that Tables PP-6, PP-2 and PP-3 define: the others are not kept (R7). -/
def actMask : List Byte :=
  [0xFF#8, 0x03#8, 0xFF#8, 0x83#8, 0xFF#8, 0x7F#8, 0xFF#8, 0xFF#8, 0xFF#8, 0#8, 0xFF#8, 0xFF#8, 0x7F#8, 0#8, 0xFF#8, 0xFF#8] ++
  List.replicate 16 0xFF#8
def selMask : List Byte := List.replicate 13 0xFF#8 ++ [0xBF#8, 0#8, 0#8]
def prfMask : List Byte :=
  (List.range 32).flatMap (fun _ => [0xFF#8, 0x9F#8, 0x7F#8, 0#8]) ++
  (List.range 8).flatMap (fun _ => [0xFF#8, 0x07#8, 0#8, 0#8] ++ List.replicate 8 0xFF#8) ++
  [0x03#8, 0xFF#8] ++ List.replicate 30 0#8
def kselMask : List Byte := List.replicate 10 0xFF#8 ++ List.replicate 6 0#8

/-- An action record that R179 refuses. -/
def actBad (a : List Byte) : Bool :=
  let e := byteAt a 4
  (bit e 3 && bit e 4) || bits e 6 2 == 3 ||
  (bit e 1 && decide (80 < bits (byteAt a 8) 0 7 + (if bit (byteAt a 8) 7 then 16 else 4))) ||
  (bit e 2 && decide (80 < bits (byteAt a 12) 0 7 + 6))

/-- A classifier record that R178 or R179 refuses. -/
def clsBad (r : List Byte) : Bool := clValue r &&& clMask r != clValue r || actBad (clAction r)

/-- A profile beyond the limits of Table PP-9. -/
def prfBad (r : List Byte) : Bool :=
  (extracts r).any (fun e => decide (256 < e.1 + e.2.1 ∨ e.2.2.1 < 8 ∨ 80 < e.2.2.1 + e.2.1)) ||
  (bits (byteAt r 224) 0 2 == 1 && decide (236 < byteAt r 225)) ||
  (bits (byteAt r 224) 0 2 == 2 && decide (216 < byteAt r 225)) ||
  (List.range 8).any (fun k =>
    let o := 128 + 12 * k
    bit (byteAt r (o + 1)) 0 && (decide (252 < byteAt r o) || leAt r (o + 8) 4 &&& leAt r (o + 4) 4 != leAt r (o + 8) 4))

/-- A vector that selects more than 40 bytes (R180). -/
def kselBad (r : List Byte) : Bool := decide (40 < ((List.range 80).filter (fun b => bit (byteAt r (b / 8)) (b % 8))).length)

/-- Push an operation of Table PP-9: within a window the reason is 2 (R187), and outside one the
reasons of R186 are judged in its order (DEDUCED, log entry 17). -/
def State.push (s : State) (w : Who) (p op index limit : Nat) (bad : List Byte → Bool) : State :=
  if !s.mayWrite w then s
  else
    let r := s.area Reg.PPL_UPD_STAGE_byte (256 * p) 256
    if s.flag Reg.PPL_STATUS_upd_busy p then s.updRefuse p 2
    else if 512 ≤ (s.updList p).length then s.updRefuse p 1
    else if limit ≤ index then s.updRefuse p 3
    else if bad r then s.updRefuse p 4
    else s.setUpd p (s.updList p ++ [(op, index, r)])

def execClsWrite (who : Who) (p index : Nat) (s : State) : Res := .next (s.push who p 1 index 32768 clsBad)
def execClsInval (who : Who) (p index : Nat) (s : State) : Res := .next (s.push who p 2 index 32768 (fun _ => false))
def execSelWrite (who : Who) (p index : Nat) (s : State) : Res := .next (s.push who p 3 index 256 (fun _ => false))
def execPrfWrite (who : Who) (p index : Nat) (s : State) : Res := .next (s.push who p 4 index 64 prfBad)
def execKselWrite (who : Who) (p index : Nat) (s : State) : Res := .next (s.push who p 5 index 16 kselBad)
def execPclassWrite (who : Who) (p index : Nat) (s : State) : Res := .next (s.push who p 6 index 132 (fun _ => false))

/-- Apply one staged operation. -/
def State.updApply (s : State) (p : Nat) (u : Nat × Nat × List Byte) : State :=
  let i := u.2.1
  let r := u.2.2
  match u.1 with
  | 1 => s.clsWrite p i (slice r 0 160 ++ andBytes actMask (slice r 160 32))
  | 2 => s.clsInval p i
  | 3 => s.putSel p i (andBytes selMask r)
  | 4 => s.putPrf p i (andBytes prfMask r)
  | 5 => s.putKsel p i (andBytes kselMask r)
  | _ => s.set Reg.PPL_PCLASS_pclass (132 * p + i) (bits (byteAt r 0) 0 4)

def execUpdateCommit (who : Who) (p : Nat) (s : State) : Res :=
  if !s.mayWrite who then .next s
  else if s.flag Reg.PPL_STATUS_upd_busy p then .next (s.updRefuse p 2)
  else if (s.updList p).isEmpty then .next s
  else .next (((s.put Reg.PPL_STATUS_upd_busy p true).put Reg.PPL_STATUS_paused p true).put Reg.PPL_UPD_CTRL_commit p true)

def execUpdateDiscard (who : Who) (p : Nat) (s : State) : Res :=
  if !s.mayWrite who then .next s
  else if s.flag Reg.PPL_STATUS_upd_busy p then .next (s.updRefuse p 2)
  else .next (s.setUpd p [])

/-- Read a classifier entry into `PPL_RD_DATA`. -/
def State.clsRead (s : State) (p : Nat) : State :=
  let i := s.get Reg.PPL_CLS_RD_index p
  let s := s.putArea Reg.PPL_RD_DATA_byte (192 * p) (s.clsRec p i)
  ((s.put Reg.PPL_CLS_RD_valid p (s.clsValid p i)).put Reg.PPL_CLS_RD_done p true).put Reg.CLX_rdp p false

/-- The window ends (R187, R188): how long the input was closed is what happened, and at most 160 + 35·n ns. -/
def execUpdateWindowEnd (p ns : Nat) (s : State) : Res :=
  if !s.flag Reg.PPL_STATUS_upd_busy p || !(s.portsOn || s.dev == dsBooting) then .next s
  else
    let l := s.updList p
    let t := min ns (160 + 35 * l.length)
    let s := (forEach l (fun u t => t.updApply p u) s).setUpd p []
    let s := ((s.put Reg.PPL_STATUS_upd_busy p false).put Reg.PPL_STATUS_paused p false).put Reg.PPL_UPD_CTRL_commit p false
    let s := (s.set Reg.PPL_UPD_STATUS_last_pause p t).set Reg.PPL_UPD_MAXP_max_pause p (max t (s.get Reg.PPL_UPD_MAXP_max_pause p))
    let s := s.pmu (1 + p) 6 t
    if s.flag Reg.CLX_rdp p then .next (s.clsRead p) else .next s

def execClsRead (who : Who) (p index : Nat) (s : State) : Res :=
  if !s.mayWrite who then .next s
  else
    let s := (s.set Reg.PPL_CLS_RD_index p index).put Reg.PPL_CLS_RD_done p false
    if s.flag Reg.PPL_STATUS_upd_busy p then .next (s.put Reg.CLX_rdp p true) else .next (s.clsRead p)

end Sys2Proof.Machine
end

