-- ==== Sys2Proof/Machine/Port.lean ====
section
/-! DEFINITION. Sys2Proof/Machine/Port.lean: the commands of MAC, TLK, SB and SHL but those that report faults
(DeviceFault.lean) and those that receive frames (Ingress.lean) (chapter "Network Ports, Tenant Links and the Channel
Tag"). -/

namespace Sys2Proof.Machine

/-! ## Modes and links (R216, R217, R221) -/

/-- A value of `quad` that R216 refuses. -/
def quadBad (v : Nat) : Bool :=
  (List.range 4).any (fun q => decide (5 < quadMode v q)) ||
  (quadMode v 0 == 5) != (quadMode v 1 == 5) || (quadMode v 2 == 5) != (quadMode v 3 == 5)

/-- Clear the counters of a port; its time paused is counted from now on. -/
def State.clearCnt (s : State) (id : Nat) : State :=
  forEach (List.range 32) (fun k t => t.set Reg.MAC_CNT_cnt (32 * id + k) 0) (s.countPaused id)

/-- The ports of a quad lose their links and their counters when its mode changes (R217). -/
def State.quadChange (s : State) (v : Nat) : State :=
  let old := s.get Reg.MAC_NMODE_quad 0
  let s := forEach ((List.range 16).filter (fun n => quadMode old (n / 4) != quadMode v (n / 4))) (fun n t =>
    (t.nlinkDown n).clearCnt n) s
  (s.set Reg.MAC_NMODE_quad 0 v).sdsTidy

def execNmodeWrite (who : Who) (val : Nat) (s : State) : Res :=
  if !s.mayWrite who then .next s
  else
    let s := if bit val 31 then s.put Reg.MAC_NMODE_refused 0 false else s
    let v := bits val 0 12
    if v = s.get Reg.MAC_NMODE_quad 0 then .next s
    else if quadBad v || s.dev != dsIdle then .next (s.put Reg.MAC_NMODE_refused 0 true)
    else .next (s.quadChange v)

/-- The link of MAC `m` (network port `m`, tenant link `m` - 16, W0 32) locks. A tenant link needs `SLOT_RST_N` high: where
the partner drives the slot, the shell answers once the partner has released it (R221, R472). -/
def execLinkUp (m : Nat) (s : State) : Res :=
  if !s.portsOn || !s.sdsReady m then .next s
  else if m < 16 then
    if s.netPresent m && s.flag Reg.MAC_NPORT_CFG_en m && !s.flag Reg.FLT_porth m && !s.flag Reg.MAC_NPORT_STATUS_link m then
      .next ((s.put Reg.MAC_NPORT_STATUS_link m true).put Reg.MAC_NPORT_STATUS_link_chg m true)
    else .next s
  else if m = 32 then .next (s.put Reg.TWN_STATUS_link 0 true)
  else
    let n := m - 16
    if s.flag Reg.TLK_CFG_en n && (s.flag Reg.SB_STATUS_rst_n n || !s.slotDriven n) && !s.flag Reg.FLT_porth m && !s.flag Reg.TLK_STATUS_link n then
      let s := ((s.put Reg.TLK_STATUS_link n true).put Reg.TLK_STATUS_link_chg n true).set Reg.TLK_STATUS_credit n 0
      .next ((s.put Reg.TLK_STATUS_split n (s.flag Reg.GLB_STATUS_twin_mode 0)).mbxLinkUp n)
    else .next s

def execLinkDown (m : Nat) (s : State) : Res :=
  if m = 32 then .next (s.put Reg.TWN_STATUS_link 0 false) else .next (s.linkDown m)

/-! ## Pauses (R229, R230, R234 to R237) -/

def execChpause (link mask time : Nat) (s : State) : Res :=
  if s.linkHears link then .next ((s.lcnt link lRxCtl).rxChpause link mask time) else .next (s.linkDrop link)

def execChpauseExpiry (link c : Nat) (s : State) : Res :=
  let id := 0x100 + 64 * link + c
  if s.flag Reg.TLK_CH_CFG_paused (id - 0x100) && reached64 s.clk (s.get Reg.PT_paused (4096 + (id - 0x100))) then
    .next (s.chPause id 0)
  else .next s

/-- One CHPAUSE for the channels of the link that sent `xoff` and are still at or above `xon` (R230). -/
def execChpauseRefresh (link : Nat) (s : State) : Res :=
  let cs := (List.range 64).filter (fun c =>
    let i := 64 * link + c
    s.flag Reg.PT_xoff (4096 + i) && s.get Reg.TLK_CH_CFG_xoff i != 0 && decide (s.get Reg.TLK_CH_CFG_xon i ≤ s.storedKib (0x100 + i)))
  if cs.isEmpty || !s.portsOn then .next s
  else .next (s.sendChpause link (cs.foldl (fun m c => m + 2 ^ c) 0) (s.get Reg.TLK_CFG_cp_time link))

def execPause (n time : Nat) (s : State) : Res :=
  if s.netHears n then .next (s.rxPause n time) else .next (s.netDrop n)

def execPfc (n vec : Nat) (times : List Nat) (s : State) : Res :=
  if s.netHears n then .next (s.rxPfc n vec times) else .next (s.netDrop n)

/-- `p` 0 to 7 is a priority, 8 the transmitter. -/
def execPauseExpiry (n p : Nat) (s : State) : Res :=
  let held := if p = 8 then s.flag Reg.MAC_NPORT_STATUS_tx_paused n
    else decide (p < 8) && bit (s.get Reg.MAC_NPORT_STATUS_pfc_paused n) p
  if held && reached64 s.clk (s.get Reg.PT_paused (16 * n + p)) then .next (s.netPause n p 0) else .next s

def execPauseRefresh (n : Nat) (s : State) : Res :=
  let m := s.get Reg.MAC_NPORT_FC_fc_mode n
  let xon := s.get Reg.MAC_NPORT_FC_xon n
  let time := s.get Reg.MAC_NPORT_FC_pause_time n
  if !s.portsOn || s.get Reg.MAC_NPORT_FC_xoff n == 0 then .next s
  else if m = 1 then
    if s.flag Reg.PT_xoff (16 * n + 8) && decide (xon ≤ s.storedKib n) then .next (s.sendPause n 0 time) else .next s
  else if m = 2 then
    let ps := (List.range 8).filter (fun p => s.flag Reg.PT_xoff (16 * n + p) && decide (xon ≤ s.prioKib n p))
    if ps.isEmpty then .next s
    else .next (s.sendPause n (ps.foldl (fun v p => v + 2 ^ p) 0) time)
  else .next s

/-! ## The shell management channel (R246, R247) -/

/-- A write of `go` with the fields of `SHL_CMD`. -/
def execMgmtReq (who : Who) (slot val : Nat) (s : State) : Res :=
  if !s.mayWrite who then .next s
  else if s.flag Reg.SHL_CMD_busy slot then .next (s.put Reg.SHL_CMD_refused slot true)
  else
    let s := ((s.set Reg.SHL_CMD_addr slot (bits val 32 32)).set Reg.SHL_CMD_len slot (bits val 16 3)).put Reg.SHL_CMD_wr slot
      (bit val 8)
    let up := s.flag Reg.TLK_STATUS_link slot
    let seq := s.get Reg.CTL_seq slot + 1
    if !up then
      .next (((s.set Reg.CTL_seq slot seq).set Reg.SHL_CMD_seq slot seq).set Reg.SHL_CMD_result slot 2)
    else
      let s := s.sendMgmt slot (bit val 8) (bits val 32 32) (bits val 16 3 + 1)
        (padTo 8 (beBytes (bits val 16 3 + 1) (s.get Reg.SHL_DATA_data slot)))
      .next ((s.put Reg.SHL_CMD_go slot true).set Reg.SHL_CMD_seq slot seq)

def execMgmtRsp (slot seq status : Nat) (data : List Byte) (s : State) : Res :=
  if s.linkHears slot then .next ((s.lcnt slot lRxCtl).rxMgmt slot seq status data) else .next (s.linkDrop slot)

def execMgmtReqTimeout (slot : Nat) (s : State) : Res := .next (s.shlEnd slot 1)

def execCredit (link kib : Nat) (s : State) : Res :=
  if s.linkHears link then .next ((s.lcnt link lRxCtl).rxCredit link kib) else .next (s.linkDrop link)

/-! ## Slot commands (R241, Table PT-9) -/

/-- Another sequence is in progress, or a fault or removal falls in the same tick (R241, R243). -/
def State.slotBusy (s : State) (sl : Nat) : Bool := s.flag Reg.SB_STATUS_busy sl || s.get Reg.SBX_hit sl == s.clk + 1

def execPowerOn (who : Who) (slot : Nat) (s : State) : Res :=
  if !s.sbOpen who then .next s
  else if s.slotBusy slot || !s.slotDriven slot || !s.flag Reg.SB_STATUS_prsnt slot || s.flag Reg.SB_STATUS_pwren slot then .next (s.slotRefuse slot)
  else .next ((s.put Reg.SB_STATUS_pwren slot true).slotSeq slot 1)

/-- `SLOT_FAULT_N` high for three samples since `SLOT_PWREN` rose. -/
def execPowerGood (slot : Nat) (s : State) : Res :=
  if s.get Reg.SBX_seq slot = 1 then
    let s := s.put Reg.SB_STATUS_fault slot false
    .next (s.slotSeq slot (if s.slotLive then 2 else 0))
  else .next s

/-- The `rst_us` of a POWER_ON or of a RESET has passed; outside SERVICE and DATAPATH_IDLE the ball stays low (R240). -/
def execResetDelayExpiry (slot : Nat) (s : State) : Res :=
  let q := s.get Reg.SBX_seq slot
  if q = 2 then .next ((if s.flag Reg.SB_CFG_auto_rel slot then s.slotRst slot true else s).slotSeq slot 0)
  else if q = 3 then .next ((s.slotRst slot true).slotSeq slot 0)
  else .next s

def execPowerOff (who : Who) (slot : Nat) (s : State) : Res :=
  if !s.sbOpen who then .next s
  else if s.slotBusy slot || !s.slotDriven slot then .next (s.slotRefuse slot)
  else .next (s.slotOff slot)

/-- `SLOT_PWREN` falls, and the pages of the slot's tenant are zeroised (Table CP-4). -/
def execPowerOffDelayExpiry (slot : Nat) (s : State) : Res :=
  if s.get Reg.SBX_seq slot = 4 then
    .next (((s.put Reg.SB_STATUS_pwren slot false).slotSeq slot 0).zeroOwner (0x1E00 + slot))
  else .next s

/-- RESET and RELEASE are refused with the power off, the fault ball low, or outside SERVICE and DATAPATH_IDLE. -/
def State.slotNoRel (s : State) (sl : Nat) : Bool :=
  s.slotBusy sl || !s.slotDriven sl || !s.flag Reg.SB_STATUS_pwren sl || s.flag Reg.SB_STATUS_fault sl || !s.slotLive

def execReset (who : Who) (slot : Nat) (s : State) : Res :=
  if !s.sbOpen who then .next s
  else if s.slotNoRel slot then .next (s.slotRefuse slot)
  else .next ((s.slotRst slot false).slotSeq slot 3)

def execHold (who : Who) (slot : Nat) (s : State) : Res :=
  if !s.sbOpen who then .next s
  else if s.slotBusy slot || !s.slotDriven slot then .next (s.slotRefuse slot)
  else .next (s.slotRst slot false)

def execRelease (who : Who) (slot : Nat) (s : State) : Res :=
  if !s.sbOpen who then .next s
  else if s.slotNoRel slot then .next (s.slotRefuse slot)
  else .next (s.slotRst slot true)

/-- A settled change of `SLOT_PRSNT_N`; a removal powers the slot off with `surprise_off` (R242). -/
def execSlotPrsntChange (slot : Nat) (present : Bool) (s : State) : Res :=
  if s.dev == 0 || s.flag Reg.SB_STATUS_prsnt slot == present then .next s
  else
    let s := (s.put Reg.SB_STATUS_prsnt slot present).put Reg.SB_STATUS_prsnt_chg slot true
    let s := if present then s else s.slotHit slot
    if !present && s.flag Reg.SB_CFG_surprise_off slot && (s.flag Reg.SB_STATUS_pwren slot || s.flag Reg.SB_STATUS_busy slot) then
      .next (s.slotOff slot)
    else .next s

/-! ## I2C (R245) -/

/-- Bytes a transfer writes: none for a read. -/
def State.i2cData (s : State) (sl : Nat) : List Byte :=
  if s.flag Reg.SB_I2C_CMD_rd sl then [] else leBytes (s.get Reg.SB_I2C_CMD_len sl) (s.get Reg.SB_I2C_DATA_data sl)

/-- Bytes a transfer reads: after a write, by a repeated start. -/
def State.i2cReads (s : State) (sl : Nat) : Nat :=
  if s.flag Reg.SB_I2C_CMD_rd sl then s.get Reg.SB_I2C_CMD_len sl else s.get Reg.SB_I2C_CMD_rlen sl

/-- A write of `go` with the fields of `SB_I2C_CMD`; a length outside 1 to 8 and an `rlen` above 8 leave their fields
(log entry 10). -/
def execI2cGo (who : Who) (slot val : Nat) (s : State) : Res :=
  if !s.sbOpen who || s.flag Reg.SB_I2C_CMD_go slot then .next s
  else
    let l := bits val 12 4
    let r := bits val 16 4
    let s := if 1 ≤ l ∧ l ≤ 8 then s.set Reg.SB_I2C_CMD_len slot l else s
    let s := if r ≤ 8 then s.set Reg.SB_I2C_CMD_rlen slot r else s
    let s := (s.set Reg.SB_I2C_CMD_taddr slot (bits val 1 7)).put Reg.SB_I2C_CMD_rd slot (bit val 0)
    let s := (s.put Reg.SB_I2C_CMD_go slot true).put Reg.SB_I2C_CMD_done slot false
    .next (s.emit (.i2c slot (s.get Reg.SB_I2C_CMD_taddr slot) (s.i2cData slot) (s.i2cReads slot)))

/-- The transfer ends: 0 OK, 1 NACK, 2 ARB_LOST, 3 TIMEOUT, after which nine clocks and a STOP follow; read data replaces
`SB_I2C_DATA`. -/
def execI2cDone (slot status : Nat) (data : List Byte) (s : State) : Res :=
  if !s.flag Reg.SB_I2C_CMD_go slot then .next s
  else
    let n := s.i2cReads slot
    let old := leBytes 8 (s.get Reg.SB_I2C_DATA_data slot)
    let s := if status = 0 ∧ n ≠ 0 then s.set Reg.SB_I2C_DATA_data slot (leNat (splice old 0 (padTo n data))) else s
    let s := if status = 3 then s.emit (.i2cClear slot) else s
    .next (((s.put Reg.SB_I2C_CMD_go slot false).put Reg.SB_I2C_CMD_done slot true).set Reg.SB_I2C_CMD_status slot status)

/-! ## Counters (R238) -/

/-- The field and index of counter `k` of a port's or a link's block. -/
def cntField (lnk : Bool) (id k : Nat) : Fld × Nat := (if lnk then Reg.TLK_CNT_cnt else Reg.MAC_CNT_cnt, 32 * id + k)

/-- A read of counter `k` by a reader: `hi` names the high word, which returns the reader's latch; a low or whole read
clears the counter and loads the latch. -/
def State.cntRead (s : State) (r : Nat) (lnk : Bool) (id k : Nat) (hi : Bool) (size : Nat) : State × Nat :=
  if hi then (s, s.get Reg.CNT_hi r)
  else
    let v := if lnk then s.get Reg.TLK_CNT_cnt (32 * id + k) else s.cntVal id k
    let t := if lnk = false ∧ k = cPausedNs ∧ isExt id = true then s.countPaused id else s
    let (f, i) := cntField lnk id k
    ((t.set f i 0).set Reg.CNT_hi r (v / 2 ^ 32), if size = 4 then v % 2 ^ 32 else v)

def execPortCounterRead (who : Who) (lnk : Bool) (id k : Nat) (hi : Bool) (size : Nat) (s : State) : Res :=
  match readerOf who with
  | none => .next s
  | some r => .next (s.answer who (if hi then 4 else size) (s.cntRead r lnk id k hi size))

end Sys2Proof.Machine
end

