-- ==== Sys2Proof/Machine/Queue.lean ====
section
/-! DEFINITION. Sys2Proof/Machine/Queue.lean: the commands of QM: polling, acceptance, completion rings, event rings
and the queue states (chapters "The Accepted-Work Contract" and "Work Queues, Entries and Completions"). -/

namespace Sys2Proof.Machine

/-! ## Polling (R72 to R78) -/

/-- The function the poll engine serves next: the present one while it has turns left, otherwise the next in GFN
order with a due queue, whose turn is its `poll_w` polls (R73; the rotation is in log entry 7). -/
def pollNextFn (s : State) (fns : List Nat) : Nat × Nat :=
  let cur := s.get Reg.QM_pollfn 0
  if fns.contains cur && s.get Reg.QM_polldef 0 != 0 then (cur, s.get Reg.QM_polldef 0)
  else
    let above := fns.filter (fun g => decide (cur < g))
    let g := (if above.isEmpty then fns else above).foldl min 0x1FFF
    (g, max 1 (s.get Reg.FN_QOS_poll_w g))

/-- Of the due queues of a function, the one with the earliest due time, the lowest number among equals (R73). -/
def pollEarliest (s : State) : List Nat → Option Nat
  | [] => none
  | q :: qs =>
    match pollEarliest s qs with
    | none => some q
    | some p => if s.get Reg.QX_duens p < s.get Reg.QX_duens q then some p else some q

/-- Poll a due queue; a queue stalled for want of a credit reads its ring's consumer word instead, and does so again one
interval later (R74). A poll made more than one interval after the due time is counted, by the interval in force when that
time was set (R73, R95). -/
def pollServe (s : State) (q : Nat) : State :=
  let s := if s.get Reg.QX_duens q + s.get Reg.QX_ival q < s.clk then s.inc Reg.QM_POLL_LATE_late 0 else s
  if s.flag Reg.QM_QCTX_STATUS_cq_stall q then
    (s.readCons (s.qRing q)).dueAt q (s.clk + pollInterval (s.get Reg.QM_QCTX_CTRL_poll_class q))
  else s.pollIssue q

/-- The idle count has reached `poll_idle_n`: the steps of R75 come next. -/
def State.dormNext (s : State) (q : Nat) : Bool :=
  s.get Reg.QM_QCTX_POLL_poll_idle_n q != 0 && decide (s.get Reg.QM_QCTX_POLL_poll_idle_n q ≤ s.get Reg.QX_idle q) &&
  !s.flag Reg.QX_dorm q

/-- A queue may take a turn of the poll engine: it may be polled, or it stalls for a credit (R74). -/
def pollTurn (s : State) (q : Nat) : Bool :=
  (s.mayPoll q && !s.dormNext q) || (s.mayFetch q && s.qState q == qsActive && s.flag Reg.QM_QCTX_STATUS_cq_stall q)

/-- A queue takes a turn now: its due time has been reached (R73). -/
def pollReady (s : State) (q : Nat) : Bool := pollTurn s q && reached64 s.clk (s.get Reg.QX_duens q)

/-- One turn of the poll engine. `qs` names queues that have no due time yet and fall due now. -/
def execPollDue (qs : List Nat) (s : State) : Res :=
  let s := forEach qs (fun q t => if pollTurn t q && !t.flag Reg.QX_due q then t.dueAt q t.clk else t) s
  let due := (s.having Reg.QX_due 1).filter (pollReady s)
  if due.isEmpty then .next s
  else
    let (g, n) := pollNextFn s (due.map s.qOwner)
    match pollEarliest s (due.filter (fun q => s.qOwner q == g)) with
    | none => .next s
    | some q => .next (((pollServe s q).set Reg.QM_pollfn 0 g).set Reg.QM_polldef 0 (n - 1))

/-- The leading entries of a poll that carry the phase of their index (R63, R72). -/
def pollTake (log2size : Nat) : Nat → Nat → List Byte → List (List Byte)
  | 0, _, _ => []
  | n + 1, idx, bs =>
    let e := slice bs 0 64
    if wePhase e = bits idx log2size 1 then e :: pollTake log2size n ((idx + 1) % 65536) (bs.drop 64) else []

def execPollDataReturn (q : Nat) (res : ReadResult) (s : State) : Res :=
  if !s.flag Reg.QX_poll q then .next s
  else
    let last := s.flag Reg.QX_last q
    let s := (s.put Reg.QX_poll q false).put Reg.QX_last q false
    if !(s.qState q == qsActive || s.qState q == qsDraining) || s.masterStop || s.fnState (s.qOwner q) != fsActive then .next s
    else
      match res with
      | .data bs =>
        let got := pollTake (s.get Reg.QM_QCTX_CTRL_log2size q) (s.get Reg.QX_polln q) (s.qCons q) bs
        if s.qState q = qsDraining then .next s
        else if !s.open_ || s.flag Reg.PW_stopacc 0 then .next (s.dueAt q s.clk)
        else if got.isEmpty then
          let s := (s.inc Reg.QX_idle q).pmu 0 2 1
          if last then .next (s.setQ q qsDormant)
          else .next (s.dueAt q (s.get Reg.QX_duens q + pollInterval (s.get Reg.QM_QCTX_CTRL_poll_class q)))
        else
          let s := ((s.setFetched q got).set Reg.QX_idle q 0).dueAt q s.clk
          if last then .next ((s.put Reg.QX_dorm q false).writeback q false false) else .next s
      | r => .next ((s.aer (s.qOwner q) (ReadResult.aerBit r) false []).queueError q 0x1)

def execDormancyStart (q : Nat) (s : State) : Res :=
  if s.mayPoll q && s.dormNext q then
    .next ((((s.put Reg.QX_dorm q true).writeback q false false).put Reg.QX_last q true).pollIssue q)
  else .next s

/-- The queue of a function with a local number that is not DISABLED (R76, R410). -/
def State.queueAt (s : State) (g l : Nat) : Option Nat :=
  (s.queuesOf g).find? (fun q => s.get Reg.QM_QCTX_OWNER_local q == l && s.qState q != qsDisabled)

/-- A DORMANT queue becomes ACTIVE and is due at once (R76, R78). -/
def State.armNow (s : State) (q : Nat) : State :=
  let s := ((s.set Reg.QX_idle q 0).put Reg.QX_dorm q false).setQ q qsActive
  (s.writeback q false false).dueAt q s.clk

def execArmWrite (gfn loc : Nat) (s : State) : Res :=
  if !s.busOpen (if gfn < 2 then .pf gfn else .vf gfn) then .next s
  else
    match s.queueAt gfn loc with
    | none => .next s
    | some q =>
      let s := s.pmu 0 6 1
      if s.qState q = qsDormant then (if s.fnState gfn = fsFreezing then .next s else .next (s.armNow q))
      else if s.qState q = qsFrozen then .next (s.put Reg.QM_QCTX_STATUS_arm_pending q true)
      else .next s

/-! ## Acceptance (R33 to R37, R69) -/

def execEntryAccept (q : Nat) (s : State) : Res :=
  if s.mayFetch q && s.qState q == qsActive then .next (s.acceptSteps q) else .next s

/-- Status of an entry whose read failed: DMA 0x60, CPH 0x45, TX and NVME 0x23 (R401). -/
def readErrStatus (c : Nat) : Nat := if c = qcDma then 0x60 else if c = qcCph then 0x45 else 0x23

def execFragmentTableReadReturn (q idx : Nat) (res : ReadResult) (s : State) : Res :=
  match s.entAt q idx with
  | none => .next s
  | some e =>
    if !e.tab || e.done.isSome || e.mirr then .next s
    else
      match res with
      | .data t =>
        let n := weNfrag e.bytes
        if fragsOk t n (entryLen (s.qClass q) e.bytes) then
          .next (s.updEnt q idx (fun x => { x with tab := false, frags := fragList t n }))
        else .next (s.finish q idx 0x21 0 0)
      | r => .next ((s.aer (s.qOwner q) (ReadResult.aerBit r) false []).finish q idx (readErrStatus (s.qClass q)) 0 0)

def execWbTimerExpiry (q : Nat) (s : State) : Res :=
  if s.flag Reg.QX_wbdue q && s.get Reg.QM_QCTX_POLL_wb_us q != 0 && !s.ringMode q && s.qState q != qsDisabled && !s.masterStop then
    .next (s.writeback q false false)
  else .next s

/-! ## Queue states (R62, R90 to R95) -/

/-- An enable of the queue is refused (R62, R407, R410, R458), while a quarantine of it stands too (Table FC-2; log
entry 16). -/
def State.enableBad (s : State) (q : Nat) : Bool :=
  let c := s.qClass q
  let g := s.qOwner q
  let l := s.get Reg.QM_QCTX_OWNER_local q
  let sz := s.get Reg.QM_QCTX_CTRL_log2size q
  decide (4 < c) || (!s.ringMode q && c != qcTx) || decide (sz < 6 ∨ 15 < sz) ||
  (s.ringMode q && (!s.flag Reg.QM_CRCTX_CTRL_en (s.qRing q) || s.get Reg.QM_CRCTX_CTRL_gfn (s.qRing q) != g)) ||
  !s.fnExists g || decide (l ≥ (if g < 2 then 512 else 2048)) ||
  (s.queuesOf g).any (fun p => p != q && s.qState p != qsDisabled && s.get Reg.QM_QCTX_OWNER_local p == l) ||
  s.flag Reg.TWX_standby q || s.flag Reg.QX_quar q

/-- Firn's queue was re-created with the same base, size, completion mode and completion ring (R59). -/
def State.sameAsFirn (s : State) (q : Nat) : Bool :=
  let x := SM.get {} s.firn q
  x.base == s.get Reg.QM_QCTX_BASE_base q && x.log2size == s.get Reg.QM_QCTX_CTRL_log2size q &&
  x.cmode == s.get Reg.QM_QCTX_CTRL_cmode q && (x.cmode == 0 || x.cq == s.qRing q)

/-- Recovery reports of a ring-mode queue, each with one credit, while credits last (R59); Firn takes note of each, so that
no later start repeats it (R39). -/
def recovRing : List FirnEnt → Nat → State → State
  | [], q, s => { s with recov := SM.put [] s.recov q [] }
  | e :: rest, q, s =>
    let r := s.qRing q
    if s.credits r = 0 then { s with recov := SM.put [] s.recov q (e :: rest) }
    else recovRing rest q (((s.takeCredit r).ringWrite r
      (mkRec e.tag q (s.get Reg.RECOV_cause 0) e.seq e.idx 0 0 s.now 0 false)).firnAppend (.done q e.idx))

/-- Recovery reports of a batch-mode queue: each entry's status byte, then a writeback that covers them and shows Firn's
published head (R59). -/
def recovBatch (s : State) (q : Nat) (l : List FirnEnt) : State :=
  let s := forEach l (fun e t => t.hostWrite (t.qOwner q) (t.get Reg.QM_QCTX_STS_sts q * 64 + e.idx % t.qSize q)
    [BitVec.ofNat 8 (t.get Reg.RECOV_cause 0)] false false) s
  let s := { s with recov := SM.put [] s.recov q [] }
  if l.isEmpty then s
  else
    let c := s.qCons q
    let h := s.get Reg.QX_firn_head q
    let s := ((s.set Reg.QM_QCTX_START_cons q h).set Reg.QM_QCTX_START_done q h).set Reg.QX_sum q (s.get Reg.RECOV_cause 0)
    (s.writeback q false true).set Reg.QM_QCTX_START_cons q c

/-- The pending reports of a queue are delivered: it is recovery-pending no longer, `done_idx` takes the consumer index,
and the published head is written (R59, R94). -/
def State.recovDone (s : State) (q : Nat) : State :=
  if !(SM.get [] s.recov q).isEmpty then s
  else
    let s := forEach (SM.get {} s.firn q).live (fun e t => t.firnAppend (.done q e.idx)) s
    let s := s.firnAppend (.final q (s.qCons q))
    let s := (s.put Reg.QM_QCTX_STATUS_recov_pend q false).put Reg.QM_QCTX_STATUS_win_exposed q false
    let s := s.set Reg.QM_RECOV_pending 0 (s.get Reg.QM_RECOV_pending 0 - 1)
    (s.set Reg.QM_QCTX_START_done q (s.qCons q)).writeback q false false

/-- Deliver, or discard, the reports of a recovery-pending queue at its enable (R59). -/
def State.recovStart (s : State) (q : Nat) : State :=
  let l := SM.get [] s.recov q
  if s.sameAsFirn q then
    if s.ringMode q then (recovRing l q s).recovDone q
    else (recovBatch s q l).recovDone q
  else ({ s with recov := SM.put [] s.recov q [] }).recovDone q

/-- A refused write shows in the queue's status. -/
def State.qRefuse (s : State) (q : Nat) : State := s.put Reg.QM_QCTX_STATUS_cfg_refused q true

def execQueueEnable (who : Who) (q : Nat) (s : State) : Res :=
  if !s.busOpen who || !ownerMay who (s.qOwner q) then .next s
  else if s.qState q = qsDraining then .next (s.qRefuse q)
  else if s.qState q ≠ qsDisabled then .next s
  else if s.enableBad q then .next (s.qRefuse q)
  else
    let s := ((s.set Reg.QX_idle q 0).put Reg.QX_dorm q false).put Reg.QX_last q false
    let s := if s.flag Reg.QM_QCTX_STATUS_recov_pend q then s.recovStart q else s
    .next ((s.setQ q qsActive).dueAt q s.clk)

/-- End the placements of a queue with NVME_CANCELLED (R356). -/
def State.cancelPlaces (s : State) (q : Nat) : State :=
  forEach (s.places.filter (fun p => p.q == q)) (fun p t =>
    { t.finish q p.idx 0x57 p.placed p.cid with places := t.places.filter (fun x => x != p) }) s

/-- Every accepted entry of a queue is finished, and its final writeback can be written (R45, R90). -/
def State.mayOff (s : State) (q : Nat) : Bool := (s.entsOf q).isEmpty && !s.fnHeld (s.qOwner q) && !s.masterStop

/-- A write of 0 to `en` (Table WQ-10). In ERROR it drains the queue, so that its empty RX buffers are returned (R71); in
FROZEN the disable writes its own final writeback (R45; DEDUCED, log entry 41). -/
def execQueueDisable (who : Who) (q : Nat) (s : State) : Res :=
  if !s.busOpen who || !ownerMay who (s.qOwner q) then .next s
  else if s.qState q = qsActive ∨ s.qState q = qsDormant then
    let s := (s.flushCoalQ q).discardFetched q
    let s := ((s.put Reg.QX_due q false).put Reg.QX_dorm q false).setQ q qsDraining
    .next ((s.pump q).cancelPlaces q)
  else if s.qState q = qsFrozen ∨ s.qState q = qsError then
    let s := (s.put Reg.QX_offreq q true).pump q
    if s.mayOff q then .next (s.disableNow q true) else .next s
  else .next s

/-- The drain of a queue is complete, or the write of 0 to `en` in ERROR or FROZEN takes effect. A frame that has begun in
its buffers and finds none left stays, and goes on in the buffers of a later enable (DESIGN CHOICE, log entry 41). -/
def execQueueDrainComplete (q : Nat) (s : State) : Res :=
  if s.mayOff q && (s.qState q == qsDraining || ((s.qState q == qsError || s.qState q == qsFrozen) && s.flag Reg.QX_offreq q)) then
    .next (s.disableNow q true)
  else .next s

def execStartIndexWrite (who : Who) (q cons : Nat) (s : State) : Res :=
  if !s.busOpen who || !ownerMay who (s.qOwner q) then .next s
  else if s.qState q ≠ qsDisabled then .next (s.qRefuse q)
  else if s.flag Reg.QM_QCTX_STATUS_recov_pend q then
    if (cons + 65536 - s.get Reg.QX_firn_head q) % 65536 ≤ s.qSize q then
      .next ((s.set Reg.QM_QCTX_START_cons q cons).set Reg.QX_pub q cons)
    else .next (s.qRefuse q)
  else .next (((s.set Reg.QM_QCTX_START_cons q cons).set Reg.QX_pub q cons).set Reg.QM_QCTX_START_done q cons)

/-! ## Completion rings (R83 to R87) -/

/-- After a start, one RECOVERY record for each queue of the PF that boot step S7 found recovery-pending, then RECOVERY_DONE;
a start that formatted Firn writes neither (R58, R517). A queue that was enabled in the meantime still has its record,
whose count may be its entries' only accounting (R59). -/
def State.recoveryRecords (s : State) (pf : Nat) : State :=
  let doneF := if pf = 0 then Reg.QM_RECOV_done0 else Reg.QM_RECOV_done1
  if !s.evOpen pf || s.flag doneF 0 || s.flag Reg.BOOT_formatted 0 then s
  else
    let qs := (s.having Reg.QX_recow 1).filter (fun q => inPf pf (s.get Reg.QX_fgfn q))
    let s := forEach qs (fun q t =>
      (t.put Reg.QX_recow q false).evRecord pf (recoveryRec (t.get Reg.QX_recn q) q (t.get Reg.RECOV_cause 0)
        (t.get Reg.QX_fseq q) (t.get Reg.QX_firn_head q) (t.get Reg.QX_fgfn q) (t.flag Reg.RECOV_sealed 0)
        (!t.flag Reg.RECOV_sealed 0))) s
    ((s.evRecord pf (recoveryDoneRec qs.length)).put doneF 0 true).set Reg.EV_recn pf qs.length

/-- The event ring of a PF has become usable: held records first, then the recovery records (R58, R89). -/
def State.evReady (s : State) (pf : Nat) : State :=
  if s.evOpen pf then (evDrain (SM.get [] s.backlog pf) pf s).recoveryRecords pf else s

/-- The PFs whose event ring a ring is. -/
def State.evPfs (s : State) (r : Nat) : List Nat :=
  [0, 1].filter (fun pf => s.flag Reg.QM_EVRING_en pf && s.get Reg.QM_EVRING_ring pf == r)

def execCringEnable (who : Who) (r : Nat) (s : State) : Res :=
  let g := s.get Reg.QM_CRCTX_CTRL_gfn r
  let sz := s.get Reg.QM_CRCTX_CTRL_log2size r
  if !s.busOpen who || !(ownerMay who g || g == 0x1FFF && claimMay who g) then .next s
  else if s.flag Reg.QM_CRCTX_CTRL_en r then .next s
  else if sz < 6 ∨ 15 < sz ∨ (g ≠ 0x1FFE ∧ s.fnExists g = false) ∨ s.flag Reg.FLT_ring r = true then .next (s.put Reg.QM_CRCTX_IRQ_cfg_refused r true)
  else
    let s := ((s.set Reg.QM_CRCTX_IDX_resv r 0).set Reg.QM_CRCTX_IDX_prod r 0).set Reg.RX_cons r 0
    .next (forEach (s.evPfs r) (fun pf t => t.evReady pf) (s.put Reg.QM_CRCTX_CTRL_en r true))

def execCringDisable (who : Who) (r : Nat) (s : State) : Res :=
  if !s.busOpen who || !ownerMay who (s.get Reg.QM_CRCTX_CTRL_gfn r) then .next s
  else if !s.flag Reg.QM_CRCTX_CTRL_en r then .next s
  else
    let qs := s.queuesOfRing r
    if qs.isEmpty then .next ((s.put Reg.QM_CRCTX_CTRL_en r false).put Reg.RX_read r false)
    else .next (forEach qs (fun q t => t.qRefuse q) s)

def execConsumerWordReadReturn (r : Nat) (res : ReadResult) (s : State) : Res :=
  if !s.flag Reg.RX_read r then .next s
  else
    let s := s.put Reg.RX_read r false
    match res with
    | .data bs =>
      let v := leAt bs 0 2
      if (s.get Reg.QM_CRCTX_IDX_prod r + 65536 - v) % 65536 ≤ s.ringSize r then
        let s := s.set Reg.RX_cons r v
        let qs := (s.queuesOfRing r).filter (fun q => !(SM.get [] s.recov q).isEmpty)
        let s := forEach qs (fun q t => (recovRing (SM.get [] t.recov q) q t).recovDone q) s
        let s := if qs.any (fun q => !(SM.get [] s.recov q).isEmpty) then s.readCons r else s
        .next (forEach (s.evPfs r) (fun pf t => evDrain (SM.get [] t.backlog pf) pf t) s)
      else .next (s.put Reg.QM_CRCTX_IRQ_cons_bad r true)
    | e => .next (s.aer (s.get Reg.QM_CRCTX_CTRL_gfn r) (ReadResult.aerBit e) false [])

/-- The length of a queue's stall in µs when it has passed the limit (R86, Table WQ-9). -/
def State.stallUs (s : State) (q : Nat) : Nat :=
  max (s.get Reg.QM_CFG_cq_stall_limit 0) ((s.clk - s.get Reg.QX_stallns q) / 1000)

def execCqStall (q : Nat) (s : State) : Res :=
  let lim := s.get Reg.QM_CFG_cq_stall_limit 0
  if s.flag Reg.QM_QCTX_STATUS_cq_stall q && !s.flag Reg.QX_stallev q && lim != 0 && s.credits (s.qRing q) == 0 then
    .next ((s.put Reg.QX_stallev q true).evRecord (pfOf (s.qOwner q)) (cqStallRec q (s.qRing q) (s.stallUs q)))
  else .next s

/-! ## Event rings (R89) -/

/-- Only the PF and firmware write the PF's event-ring register (R89). -/
def evMay (who : Who) (pf : Nat) : Bool :=
  match who with
  | .pf h => h == pf
  | .fw _ => true
  | _ => false

/-- A write to `QM_EVRING`. `QM_CRCTX_CTRL.evring` shows a ring while a register that names it has `en` 1 (DESIGN CHOICE, log
entry 41). -/
def execEvringWrite (who : Who) (pf val : Nat) (s : State) : Res :=
  let r := bits val 0 16
  if !s.busOpen who || !evMay who pf || s.get Reg.QM_CRCTX_CTRL_gfn r != pf then .next s
  else
    let old := s.get Reg.QM_EVRING_ring pf
    let s := s.put Reg.QM_CRCTX_CTRL_evring old (s.flag Reg.QM_EVRING_en (1 - pf) && s.get Reg.QM_EVRING_ring (1 - pf) == old)
    let s := (s.set Reg.QM_EVRING_ring pf r).put Reg.QM_EVRING_en pf (bit val 31)
    let s := if bit val 31 then s.put Reg.QM_CRCTX_CTRL_evring r true else s
    .next (s.evReady pf)

def execEvBacklogConsRead (pf : Nat) (s : State) : Res :=
  if s.evOpen pf && !(SM.get [] s.backlog pf).isEmpty then .next (s.readCons (s.get Reg.QM_EVRING_ring pf))
  else .next s

end Sys2Proof.Machine
end

