-- ==== Sys2Proof/Machine/Table.lean ====
section
/-! DEFINITION. Sys2Proof/Machine/Table.lean: the commands of `TBL_CMD`, the scans, the learn engines and the table event
queue (chapter "Forwarding Tables, Moves and Learning"). -/

namespace Sys2Proof.Machine

/-! ## `TBL_CMD` (R203, R213, Table FT-7) -/

/-- The stage of `TBL_CMD`. -/
def State.tblStage (s : State) : List Byte := s.area Reg.TBL_CMD_STAGE_byte 0 128

/-- The outcome of the operation in progress, shown when it is done: status and failing pipelines. -/
def State.tblOut (s : State) (result fail : Nat) : State := (s.set Reg.TBX_result 0 result).set Reg.TBX_fail 0 fail

/-- Take a write of `TBL_CMD` unless an operation is in progress (R213). -/
def State.tblCmd (s : State) (w : Who) (f : State → State) : State :=
  if !s.mayWrite w then s
  else if s.flag Reg.TBL_CMD_STATUS_busy 0 then s.put Reg.TBL_CMD_STATUS_refused 0 true
  else f (s.put Reg.TBL_CMD_STATUS_busy 0 true)

/-- An operation on the flow table: its status. -/
def tblFlow (r : Nat × State) : State := r.2.tblOut r.1 0

/-- An L2 operation changes its table at once: status and no steps. -/
def State.tblL2 (s : State) (p op : Nat) (rec : List Byte) : Nat × State :=
  if op = 0x20 then s.l2Static p rec else s.l2Delete p rec

/-- What an LPM operation of Table FT-7 does in a pipeline. -/
def State.lpmPlan (s : State) (p op index : Nat) (rec : List Byte) : TblPlan :=
  match op with
  | 0x10 => s.lpmInsert p rec
  | 0x11 => s.lpmDelete p rec
  | 0x12 => s.lpmReplace p rec
  | _ => s.lpmRewrite p index rec

/-- The status of an operation in a pipeline joins that of the pipelines before it: the highest status, and the pipelines on
which it failed (R213). -/
def State.tblJoin (s : State) (p status : Nat) : State :=
  s.tblOut (max (s.get Reg.TBX_result 0) status) (if status = 0 then s.get Reg.TBX_fail 0 else s.get Reg.TBX_fail 0 + 2 ^ p)

/-- The operation begins in a pipeline: an LPM operation is judged and its steps are laid out; an L2 operation is one. -/
def State.tblStart (s : State) (p op index : Nat) (rec : List Byte) : State :=
  if op < 0x20 then
    let x := s.lpmPlan p op index rec
    { (s.tblJoin p x.1).set Reg.TBX_moves 0 x.2.1 with tblq := x.2.2 ++ s.tblq }
  else
    let r := s.tblL2 p op rec
    r.2.tblJoin p r.1

/-- Pipelines whose turn has come begin, up to one that has steps to make (R203). -/
def State.tblBegin : Nat → State → State
  | 0, s => s
  | n + 1, s =>
    match s.tblq with
    | .start p op index rec :: rest => State.tblBegin n ({ s with tblq := rest }.tblStart p op index rec)
    | _ => s

/-- One step (R200). -/
def State.tblStep1 (s : State) : TblStep → State
  | .write k rec => s.set Reg.LPX_slot k rec
  | .replace k rec => s.set Reg.LPX_slot k rec
  | .copy a b => (s.set Reg.LPX_slot b (slotAs (s.get Reg.LPX_slot a) false)).pmu 9 3 1
  | .validate k => s.set Reg.LPX_slot k (slotAs (s.get Reg.LPX_slot k) true)
  | .invalidate k => s.set Reg.LPX_slot k 0
  | .regions p op _ rec =>
    if op = 0x10 then s.rgInsert p (lpV6 rec) (lpPlen rec)
    else if op = 0x11 then s.rgDelete p (lpV6 rec) (lpPlen rec) else s.rgRewrite p (lpV6 rec) (lpPlen rec)
  | .start _ _ _ _ => s

/-- The next step is made; another follows 5 ns later, and the next pipeline begins at once (Table FT-4). -/
def State.tblNext (s : State) : State :=
  match s.tblq with
  | [] => s
  | x :: rest => State.tblBegin 9 (({ s with tblq := rest }.tblStep1 x).set Reg.TBX_next 0 (s.clk + 5))

/-- A step is due. -/
def State.tblDue (s : State) : State :=
  if !s.tblq.isEmpty && s.portsOn && decide (s.get Reg.TBX_next 0 ≤ s.clk) then s.tblNext else s

/-- Every step that remains is made. -/
def State.tblAll : Nat → State → State
  | 0, s => s
  | n + 1, s => if s.tblq.isEmpty then s else State.tblAll n s.tblNext

/-- An operation on the pipelines of a mask, in ascending order; a mask of none is not a valid value (DEDUCED from Table
FT-7's code 0x05, log entry 17). -/
def State.tblPipes (s : State) (pipes op index : Nat) (rec : List Byte) : State :=
  let s := if op < 0x20 then s.set Reg.TBX_moves 0 0 else s
  if bitsSet pipes 8 = [] then s.tblOut 5 0
  else
    State.tblBegin 9 ({ (s.tblOut 0 0).set Reg.TBX_next 0 (s.clk + 5) with
      tblq := (bitsSet pipes 8).map (fun p => .start p op index rec) })

/-- A read operation on the one pipeline of a mask (R213). -/
def State.tblRead (s : State) (pipes : Nat) (f : Nat → List Byte) : State :=
  match bitsSet pipes 8 with
  | [p] => (s.putArea Reg.TBL_CMD_RESULT_byte 0 (f p)).tblOut 0 0
  | _ => s.tblOut 5 0

def execTblFlowInsert (who : Who) (s : State) : Res :=
  .next (s.tblCmd who (fun t =>
    let b := t.tblStage
    tblFlow (t.flowInsert (slice b 0 40) (slice b 40 16) (bit (byteAt b 56) 1))))

/-- FLOW_REPLACE: an entry that is present takes the action data and `static`; any other key is inserted. -/
def State.flowReplace (s : State) (key adata : List Byte) (static : Bool) : Nat × State :=
  match s.flowFind key with
  | some i => (0, s.putFlow i (feMake key adata static (feHit (s.flowRec i))))
  | none => s.flowInsert key adata static

def execFlowReplace (who : Who) (s : State) : Res :=
  .next (s.tblCmd who (fun t =>
    let b := t.tblStage
    tblFlow (t.flowReplace (slice b 0 40) (slice b 40 16) (bit (byteAt b 56) 1))))

def execTblFlowDelete (who : Who) (s : State) : Res :=
  .next (s.tblCmd who (fun t => tblFlow (t.flowDelete (slice t.tblStage 0 40))))

def execFlowRead (who : Who) (s : State) : Res :=
  .next (s.tblCmd who (fun t =>
    (t.putArea Reg.TBL_CMD_RESULT_byte 0 (feRead (t.flowRec (bits (leAt t.tblStage 0 4) 0 26)))).tblOut 0 0))

/-- A lookup by key is a lookup in every respect (DEDUCED, log entry 17); its entry goes to the result area. -/
def execTblFlowLookup (who : Who) (bad : Nat) (s : State) : Res :=
  .next (s.tblCmd who (fun t =>
    let r := t.flowLookup (slice t.tblStage 0 40) bad
    let u := if r.1.status = 0 then r.2.putArea Reg.TBL_CMD_RESULT_byte 0 (feRead (r.2.flowRec r.1.idx)) else r.2
    (u.foundBadFlows r.1.bads).tblOut r.1.status 0))

def execLpmInsert (who : Who) (pipes : Nat) (s : State) : Res :=
  .next (s.tblCmd who (fun t => t.tblPipes pipes 0x10 0 (slice t.tblStage 0 32)))

def execLpmDelete (who : Who) (pipes : Nat) (s : State) : Res :=
  .next (s.tblCmd who (fun t => t.tblPipes pipes 0x11 0 (slice t.tblStage 0 32)))

def execLpmReplace (who : Who) (pipes : Nat) (s : State) : Res :=
  .next (s.tblCmd who (fun t => t.tblPipes pipes 0x12 0 (slice t.tblStage 0 32)))

def execLpmRewrite (who : Who) (pipes index : Nat) (s : State) : Res :=
  .next (s.tblCmd who (fun t => t.tblPipes pipes 0x13 index (slice t.tblStage 0 32)))

def execLpmRead (who : Who) (pipes index : Nat) (s : State) : Res :=
  .next (s.tblCmd who (fun t =>
    let t := t.set Reg.TBX_moves 0 0
    if 131072 ≤ index then t.tblOut 5 0 else t.tblRead pipes (fun p => t.lpRec p index)))

def execL2Static (who : Who) (pipes : Nat) (s : State) : Res :=
  .next (s.tblCmd who (fun t => t.tblPipes pipes 0x20 0 (slice t.tblStage 0 16)))

def execL2Delete (who : Who) (pipes : Nat) (s : State) : Res :=
  .next (s.tblCmd who (fun t => t.tblPipes pipes 0x21 0 (slice t.tblStage 0 16)))

/-- A flush begins at the first entry; the entries it has visited are those of `flushTo` (R209). -/
def execL2Flush (who : Who) (pipes : Nat) (s : State) : Res :=
  .next (s.tblCmd who (fun t =>
    if bitsSet pipes 8 = [] then t.tblOut 5 0
    else
      let b := t.tblStage
      let t := ((t.set Reg.TBX_flush 0 1).set Reg.TBX_fpipes 0 pipes).set Reg.TBX_fsel 0 (byteAt b 0)
      ((t.set Reg.TBX_fbd 0 (leAt b 6 2)).set Reg.TBX_fport 0 (leAt b 8 2)).tblOut 0 0))

def execL2Read (who : Who) (pipes index : Nat) (s : State) : Res :=
  .next (s.tblCmd who (fun t => t.tblRead pipes (fun p => t.l2Rec p index)))

/-- The operation in progress finishes: the steps that remain are made, and its outcome is shown; the moves are those of the
last LPM operation. -/
def execTblCmdDone (s : State) : Res :=
  if !s.flag Reg.TBL_CMD_STATUS_busy 0 || !s.portsOn then .next s
  else
    let s := ((State.tblAll 4096 s).flushTo l2End).set Reg.TBX_flush 0 0
    let s := (s.set Reg.TBL_CMD_STATUS_result 0 (s.get Reg.TBX_result 0)).set Reg.TBL_CMD_STATUS_moves 0 (s.get Reg.TBX_moves 0)
    .next ((s.set Reg.TBL_CMD_STATUS_fail_pipes 0 (s.get Reg.TBX_fail 0)).put Reg.TBL_CMD_STATUS_busy 0 false)

/-! ## Scans and learning -/

/-- The age scan visits a slot (R198, R210). -/
def execFlowAgeScan (index : Nat) (bad : Bool) (s : State) : Res :=
  let r := s.flowRec index
  if !s.portsOn || s.get Reg.TBL_FLOW_AGE_period 0 = 0 then .next s
  else if bad then .next (s.foundBadFlow index)
  else if !feValid r then .next s
  else if feHit r then .next (s.putFlow index (feMake (feKey r) (feData r) (feStatic r) false))
  else if feStatic r then .next s
  else .next (((s.inc Reg.TBL_FLOW_AGED_count 0).tblEvent 0x1 0 index 0 (feKey r)).putFlow index [])

/-- The learn engine of a pipeline takes its oldest request (R206). -/
def execL2Learn (p : Nat) (s : State) : Res :=
  match SM.get [] s.learnq p with
  | [] => .next s
  | (bd, mac, port) :: rest =>
    if !s.portsOn then .next s
    else .next (({ s with learnq := SM.put [] s.learnq p rest }.flushSome).l2Learn p bd mac port)

def execL2HoldEnd (p index : Nat) (s : State) : Res :=
  let r := s.l2Rec p index
  if s.portsOn && leValid r && leHeld r then .next (s.putL2 p index (leFlags r (leHit r) false 0)) else .next s

/-- The L2 age scan visits an entry (R208). -/
def execL2AgeScan (p index : Nat) (s : State) : Res :=
  let r := s.l2Rec p index
  if !s.portsOn || s.get Reg.TBL_L2_CFG_age_ms p = 0 || !leValid r then .next s
  else if leHit r then .next (s.putL2 p index (leFlags r false (leHeld r) (leMoves r)))
  else if leStatic r || leHeld r then .next s
  else .next (s.l2New p index [])

/-- The structures in the order the command numbers them, with their sizes. -/
def scrubKind (k : Nat) : BadEntry × Nat :=
  [(BadEntry.cls, 32768), (.lpm, 131072), (.l2, 262144), (.sel, 256), (.prf, 64), (.ksel, 16)].getD k (.cls, 32768)

/-- The scrubber reads an entry; a good one is left alone (R210, R211). -/
def execScrubVisit (k p index : Nat) (bad : Bool) (s : State) : Res :=
  if s.portsOn && bad then .next (s.foundBad (scrubKind k).1 p (index % (scrubKind k).2)) else .next s

def execTblEvqPop (who : Who) (s : State) : Res :=
  if s.mayWrite who then .next { s with tblEvq := s.tblEvq.drop 1 } else .next s

end Sys2Proof.Machine
end

