-- ==== Sys2Proof/Machine/DevA.lean ====
section
/-! DEFINITION. Sys2Proof/Machine/DevA.lean: register writes to GLB, QM, FP, MC, PPL, TBL, and MAC, TLK, SB and SHL. -/

namespace Sys2Proof.Machine

/-! ## GLB (R22, R26, R27, R443) -/

def wGlb : Wr := fun w b i v s =>
  match b with
  | 0x10 => some (ran s (execGlbProfileWrite w v s))
  | 0x18 => some (ran s (if bit v 0 then execDpEnSet w s else execDpEnClear w s))
  | 0x20 => some (if s.bootOpen w then s.clearBits [(0, Reg.GLB_STATUS_profile_refused)] i v else s)
  | _ => none

/-! ## Queue contexts (R62, R91, R94 to R96) -/

/-- Fields of a queue context that change only while the queue is DISABLED. -/
def qcFixed (b : Nat) : List (Nat × Fld) :=
  match b with
  | 0x2000000 => [(26, Reg.QM_QCTX_CTRL_pipe), (25, Reg.QM_QCTX_CTRL_cmode), (22, Reg.QM_QCTX_CTRL_qclass),
      (18, Reg.QM_QCTX_CTRL_log2size), (12, Reg.QM_QCTX_CTRL_burst)]
  | 0x2000004 => [(16, Reg.QM_QCTX_OWNER_local), (0, Reg.QM_QCTX_OWNER_gfn)]
  | 0x2000008 => [(12, Reg.QM_QCTX_BASE_base)]
  | 0x2000010 => [(3, Reg.QM_QCTX_WB_wb)]
  | 0x2000018 => [(6, Reg.QM_QCTX_STS_sts)]
  | 0x2000020 => [(0, Reg.QM_QCTX_CQ_cq)]
  | _ => []

/-- The write changes such a field. -/
def State.changes (s : State) (fs : List (Nat × Fld)) (i v : Nat) : Bool := fs.any (fun p => bits v p.1 p.2.w != s.get p.2 i)

/-- A write to these fields: refused outside DISABLED where it would change one (R95); none then, else the state after. -/
def State.qcSet (s : State) (b q v : Nat) : Option State :=
  if s.changes (qcFixed b) q v then (if s.qState q = qsDisabled then some ((s.genWrite (qcFixed b) q v).mirrorCtx q) else none) else some s

/-- A write to a queue context. A claim keeps the acceptance sequence that the context holds: R36 starts it at zero when the
context is created, and no rule says that a claim creates it anew (DESIGN CHOICE, log entry 41). -/
def wQctx : Wr := fun w b q v s =>
  let own := ownerMay w (s.qOwner q)
  if !s.busOpen w then some s
  else
    match b with
    | 0x2000004 =>
      if !ownerGive w (s.qOwner q) (bits v 0 13) then some s else some ((s.qcSet b q v).getD (s.qRefuse q))
    | 0x2000000 =>
      if !own then some s
      else
        match s.qcSet b q v with
        | none => some (s.qRefuse q)
        | some t =>
          let t := if bits v 15 3 = s.get Reg.QM_QCTX_CTRL_poll_class q then t else (t.set Reg.QM_QCTX_CTRL_poll_class q (bits v 15 3)).mirrorCtx q
          some (ran t (if bit v 31 then execQueueEnable w q t else execQueueDisable w q t))
    | 0x200002C => some (ran s (execStartIndexWrite w q (bits v 0 16) s))
    | 0x2000024 =>
      some (if own then (s.genWrite [(31, Reg.QM_QCTX_IRQ_irq_en), (0, Reg.QM_QCTX_IRQ_vec)] q v).mirrorCtx q else s)
    | 0x2000028 =>
      some (if own then (s.genWrite [(16, Reg.QM_QCTX_POLL_wb_us), (0, Reg.QM_QCTX_POLL_poll_idle_n)] q v).mirrorCtx q else s)
    | 0x2000038 => some (if own then s.clearBits [(8, Reg.QM_QCTX_STATUS_cfg_refused)] q v else s)
    | _ => if !own then some s else some ((s.qcSet b q v).getD (s.qRefuse q))

/-! ## Completion-ring contexts (R87, R96) -/

/-- A ring's context is mirrored with each mirrored queue that names it (R457). -/
def State.mirrorRing (s : State) (r : Nat) : State := forEach (s.queuesOfRing r) (fun q t => t.mirrorCtx q) s

def State.crRefuse (s : State) (r : Nat) : State := s.put Reg.QM_CRCTX_IRQ_cfg_refused r true

/-- A write to a completion-ring context. -/
def wCrctx : Wr := fun w b r v s =>
  let g := s.get Reg.QM_CRCTX_CTRL_gfn r
  let on := s.flag Reg.QM_CRCTX_CTRL_en r
  let fix := [(18, Reg.QM_CRCTX_CTRL_log2size), (0, Reg.QM_CRCTX_CTRL_gfn)]
  if !s.busOpen w then some s
  else if b = 0x3000000 then
    if !ownerGive w g (bits v 0 13) then some s
    else if on && s.changes fix r v then some (s.crRefuse r)
    else
      let t := if s.changes fix r v then (s.genWrite fix r v).mirrorRing r else s
      some (ran t (if bit v 31 then execCringEnable w r t else execCringDisable w r t))
  else if !ownerMay w g then some s
  else if b = 0x300001C then
    let t := s.clearBits [(30, Reg.QM_CRCTX_IRQ_cons_bad), (29, Reg.QM_CRCTX_IRQ_cfg_refused)] r v
    some ((t.genWrite [(31, Reg.QM_CRCTX_IRQ_irq_en), (0, Reg.QM_CRCTX_IRQ_vec)] r v).mirrorRing r)
  else
    let fs := if b = 0x3000008 then [(12, Reg.QM_CRCTX_BASE_base)] else if b = 0x3000010 then [(3, Reg.QM_CRCTX_CONS_cons)] else []
    some (if !s.changes fs r v then s else if on then s.crRefuse r else (s.genWrite fs r v).mirrorRing r)

/-- QM: the event rings, and the contexts. -/
def wQm : Wr := fun w b i v s =>
  if b = 0x100010 then some (ran s (execEvringWrite w i v s))
  else if 0x3000000 ≤ b then wCrctx w b i v s
  else if 0x2000000 ≤ b then wQctx w b i v s
  else if !s.mayWrite w then some s
  else none

/-! ## FP and MC (R102, R112, R125, R131 to R139) -/

/-- A debug command (`FP_DBG_CMD`). -/
def State.dbgWrite (s : State) (w : Who) (v : Nat) : State :=
  let t := bits v 0 12
  match bits v 28 4 with
  | 1 => ran s (execHalt w t s)
  | 2 => ran s (execResume w t s)
  | 3 => ran s (execStep w t s)
  | 4 => ran s (execDebugRelease w t s)
  | _ => s

def wFp : Wr := fun w b i v s =>
  if !s.mayWrite w then some s
  else
    match b with
    | 0x200004 =>
      some ((s.ranged Reg.FP_CLU_CFG_order_hold_limit i 1 1023 (bits v 22 10)).ranged Reg.FP_CLU_CFG_budget_def i 1 255 (bits v 14 8))
    | 0x200008 => some (ran s (execSupRestart w i v s))
    | 0x200100 => if s.guard && i % 2 == 1 then some s else none
    | 0x220000 =>
      if bit v 31 then some (ran s (execSessionOpen w (bits v 0 16) s))
      else some (if s.flag Reg.FP_DBG_SESSION_fuse_closed 0 then s
        else (ran s (execSessionClose w s)).set Reg.FP_DBG_SESSION_clusters 0 (bits v 0 16))
    | 0x220004 => some (s.dbgWrite w v)
    | 0x280000 => some (if bit v 0 then ran s (execMgmtRestart w s) else s)
    | 0x280008 => some (ran s (execHeartbeat w v s))
    | 0x280010 =>
      some ((s.ranged Reg.MC_EXC_RATE_burst i 1 16384 (bits v 32 16)).ranged Reg.MC_EXC_RATE_rate i 1 16000 (bits v 0 15))
    | 0x280080 => if 9 ≤ s.get Reg.GLB_STATE_boot_step 0 then some s else none
    | _ => none

/-! ## PPL (R180, R186, R187) -/

/-- A push (`PPL_UPD_PUSH`); an undefined op is refused in its turn. -/
def State.pushWrite (s : State) (w : Who) (p v : Nat) : State :=
  let i := bits v 0 15
  match bits v 28 4 with
  | 1 => ran s (execClsWrite w p i s)
  | 2 => ran s (execClsInval w p i s)
  | 3 => ran s (execSelWrite w p i s)
  | 4 => ran s (execPrfWrite w p i s)
  | 5 => ran s (execKselWrite w p i s)
  | 6 => ran s (execPclassWrite w p i s)
  | _ =>
    if 512 ≤ (s.updList p).length then s.updRefuse p 1
    else if s.flag Reg.PPL_STATUS_upd_busy p then s.updRefuse p 2 else s.updRefuse p 5

def wPpl : Wr := fun w b p v s =>
  if !s.mayWrite w then some s
  else
    match b with
    | 0x300020 => some (s.pushWrite w p v)
    | 0x300024 =>
      let t := if bit v 1 then ran s (execUpdateDiscard w p s) else s
      some (if bit v 0 then ran t (execUpdateCommit w p t) else t)
    | 0x300030 => some (ran s (execClsRead w p (bits v 0 15) s))
    | _ => none

/-! ## TBL (R193, R198, R199, R206, R213, R214) -/

/-- A write to `TBL_CMD`; an operation that Table FT-7 does not have ends with 0x05 (log entry 17). -/
def State.tblWrite (s : State) (w : Who) (v : Nat) : State :=
  let p := bits v 18 8
  let i := bits v 0 18
  match bits v 26 6 with
  | 0x01 => ran s (execTblFlowInsert w s)
  | 0x02 => ran s (execFlowReplace w s)
  | 0x03 => ran s (execTblFlowDelete w s)
  | 0x04 => ran s (execFlowRead w s)
  | 0x05 => ran s (execTblFlowLookup w 0 s)
  | 0x10 => ran s (execLpmInsert w p s)
  | 0x11 => ran s (execLpmDelete w p s)
  | 0x12 => ran s (execLpmReplace w p s)
  | 0x13 => ran s (execLpmRewrite w p i s)
  | 0x14 => ran s (execLpmRead w p i s)
  | 0x20 => ran s (execL2Static w p s)
  | 0x21 => ran s (execL2Delete w p s)
  | 0x22 => ran s (execL2Flush w p s)
  | 0x23 => ran s (execL2Read w p i s)
  | _ => s.tblCmd w (fun t => t.tblOut 5 0)

def wTbl : Wr := fun w b i v s =>
  if !s.mayWrite w then some s
  else
    match b with
    | 0x400000 => some (s.tblWrite w v)
    | 0x401000 => if s.get Reg.TBL_FLOW_COUNT_count 0 = 0 then none else some (s.put Reg.TBL_CMD_STATUS_refused 0 true)
    | 0x402000 => some (s.lpmResize i (bits v 0 18))
    | 0x404010 => if i % 5 = 4 then some (s.set Reg.TBL_L2_LRN_lrn i (bits v 0 4)) else none
    | 0x40C040 => some (ran s (execTblEvqPop w s))
    | _ => none

/-! ## MAC, TLK, SB and SHL (R216, R218, R221, R230, R236, R241 to R246) -/

/-- A slot command (`SB_CTRL`, Table PT-9). -/
def State.slotWrite (s : State) (w : Who) (sl v : Nat) : State :=
  match bits v 0 3 with
  | 1 => ran s (execPowerOn w sl s)
  | 2 => ran s (execPowerOff w sl s)
  | 3 => ran s (execReset w sl s)
  | 4 => ran s (execHold w sl s)
  | 5 => ran s (execRelease w sl s)
  | _ => s

/-- The SB registers: open to the BMC in every state but OFF (R243). -/
def wSb : Wr := fun w b sl v s =>
  if !s.sbOpen w then some s
  else
    match b with
    | 0x5A0000 =>
      let t := (s.ranged Reg.SB_CFG_pg_ms sl 1 1023 (bits v 22 10)).ranged Reg.SB_CFG_rst_us sl 1 65535 (bits v 6 16)
      some (t.genWrite [(5, Reg.SB_CFG_auto_rel), (4, Reg.SB_CFG_fault_off), (3, Reg.SB_CFG_surprise_off), (2, Reg.SB_CFG_cap_en),
        (1, Reg.SB_CFG_i2c_fast)] sl v)
    | 0x5A0004 => some (s.slotWrite w sl v)
    | 0x5A0008 =>
      some (s.clearBits [(9, Reg.SB_STATUS_refused), (8, Reg.SB_STATUS_pg_fail), (7, Reg.SB_STATUS_fault_lat), (6, Reg.SB_STATUS_prsnt_chg)] sl v)
    | 0x5A0010 =>
      if bit v 31 then some (ran s (execI2cGo w sl v s))
      else if s.flag Reg.SB_I2C_CMD_go sl then some s
      else
        let t := s.genWrite [(1, Reg.SB_I2C_CMD_taddr), (0, Reg.SB_I2C_CMD_rd)] sl v
        some ((t.ranged Reg.SB_I2C_CMD_len sl 1 8 (bits v 12 4)).ranged Reg.SB_I2C_CMD_rlen sl 0 8 (bits v 16 4))
    | 0x5A0018 => some (s.genWrite [(0, Reg.SB_I2C_DATA_data)] sl v)
    | _ => some s

/-- A port or link that is disabled goes down, and a group may leave use (R218, R221, R503). -/
def State.portEn (s : State) (m : Nat) (f : Fld) (on : Bool) : State :=
  let n := if m < 16 then m else m - 16
  let s := s.put f n on
  (if on then s else s.linkDown m).sdsTidy

def wMac : Wr := fun w b i v s =>
  if 0x5A0000 ≤ b ∧ b < 0x5B0000 then wSb w b i v s
  else if !s.mayWrite w then some s
  else
    match b with
    | 0x500000 => some (ran s (execNmodeWrite w v s))
    | 0x501000 =>
      let t := (s.put Reg.MAC_NPORT_CFG_an_en i (bit v 30)).ranged Reg.MAC_NPORT_CFG_max_len i 1518 16360 (bits v 0 14)
      some (t.portEn i Reg.MAC_NPORT_CFG_en (bit v 31))
    | 0x501008 =>
      some ((s.genWrite [(48, Reg.MAC_NPORT_FC_pause_time), (32, Reg.MAC_NPORT_FC_xon), (16, Reg.MAC_NPORT_FC_xoff),
        (2, Reg.MAC_NPORT_FC_def_prio), (0, Reg.MAC_NPORT_FC_fc_mode)] i v).judgePort i)
    | 0x520000 =>
      some ((s.genWrite [(31, Reg.TLK_CH_CFG_en), (14, Reg.TLK_CH_CFG_xon), (0, Reg.TLK_CH_CFG_xoff)] i v).judgePort (0x100 + i))
    | 0x510000 =>
      let t := (s.genWrite [(48, Reg.TLK_CFG_cp_time), (32, Reg.TLK_CFG_trg_ch)] i v).ranged Reg.TLK_CFG_max_len i 1518 16360 (bits v 0 14)
      some (t.portEn (16 + i) Reg.TLK_CFG_en (bit v 31))
    | 0x5B0000 =>
      let t := s.clearBits [(29, Reg.SHL_CMD_refused)] i v
      if bit v 31 then some (ran t (execMgmtReq w i v t))
      else some (t.genWrite [(32, Reg.SHL_CMD_addr), (16, Reg.SHL_CMD_len), (8, Reg.SHL_CMD_wr)] i v)
    | _ => none

end Sys2Proof.Machine
end

