-- ==== Sys2Proof/Machine/Dma.lean ====
section
/-! DEFINITION. Sys2Proof/Machine/Dma.lean: the commands of the DMA engines (chapter "DMA Engines and Channels"). -/

namespace Sys2Proof.Machine

/-- The DMA engines run: not in WHITEOUT, nor while the CORE domain is off (R379). -/
def State.dmaOn (s : State) : Bool := s.dev == dsService || s.dev == dsIdle || s.dev == dsBooting

/-! ## Entries (R365) -/

/-- Hand an accepted entry of an opcode its idle channel, or let it wait for the channel in order. -/
def State.dmaHand (s : State) (q idx op : Nat) : State :=
  match s.entAt q idx with
  | none => s
  | some e =>
    if s.entGo q idx && s.qClass q == qcDma && weOpcode e.bytes == op then
      let c := dmChan e.bytes
      let w := s.dmaWaits c
      if s.chState c = chIdle ∧ (w = [] ∨ w.head? = some (q, idx)) then s.dmaEntry c q idx
      else if w.contains (q, idx) then s.dmaNext c
      else ({ s with dmaWait := SM.put [] s.dmaWait c (w ++ [(q, idx)]) }).dmaNext c
    else s

def execCopy (q idx : Nat) (s : State) : Res := .next (s.dmaHand q idx 1)
def execStart (q idx : Nat) (s : State) : Res := .next (s.dmaHand q idx 2)

/-! ## Channel registers (R359, R366, R375 to R379) -/

/-- The accessor may write a channel's registers: its owner's PF or firmware, and not a hardware channel's. -/
def State.chWrite (s : State) (w : Who) (c : Nat) : Bool := s.mayWrite w && ownerMay w (s.chOwner c) && !chHard c

/-- The requester a register start counts as (Table DM-3). -/
def whoReq : Who → DmaReq
  | .pf _ => .pf
  | _ => .fw

def execChannelStart (who : Who) (c : Nat) (s : State) : Res :=
  if !s.chWrite who c then .next s
  else if s.chState c ≠ chIdle ∨ s.dmaWaits c ≠ [] then .next (s.put Reg.DMA_CH_STATUS_refused c true)
  else .next (s.dmaStart c (whoReq who) .reg)

def execDmaStop (who : Who) (c : Nat) (s : State) : Res :=
  if !s.chWrite who c || s.chState c == chIdle then .next s else .next (s.dmaCut c 0x66)

def execEos (who : Who) (c : Nat) (s : State) : Res :=
  if !s.chWrite who c || decide (3 < c % 16) then .next s
  else .next ((s.put Reg.DMA_CH_FIFO_STATUS_eos c true).chSettle c)

/-- Push bytes into a FIFO; a word that finds it full is dropped (R375). -/
def State.fifoPush (s : State) (c : Nat) (bs : List Byte) : State :=
  if 16384 < (s.fifoOf c).length + bs.length then s.put Reg.DMA_CH_FIFO_STATUS_ovf c true
  else (s.setFifo c (s.fifoOf c ++ bs)).chSettle c

def execFifoPush (who : Who) (c word : Nat) (s : State) : Res :=
  match who with
  | .fw _ => if !s.busOpen who || chHard c || decide (3 < c % 16) then .next s else .next (s.fifoPush c (leBytes 4 word))
  | _ => .next s

def execShadowArm (who : Who) (c : Nat) (s : State) : Res :=
  if !s.chWrite who c then .next s else .next (s.put Reg.DMA_CH_SH_CTRL_armed c true)

/-! ## Runs (R360, R367 to R374) -/

/-- The start time of a waiting channel is reached (R367). -/
def State.stimeReached (s : State) (c : Nat) : State := if s.dmaOn && s.chState c == chWait then s.chSettle c else s

def execDmaStimeReached (c : Nat) (s : State) : Res := .next (s.stimeReached c)

/-- The run of a channel begins: `late` is judged, and a streaming run begins a burst (R367, R374). -/
def State.runBegin (s : State) (c : Nat) : State :=
  let st := s.get Reg.DMX_stime c
  let s := s.pmu 14 1 1
  let s := if st ≠ 0 ∧ reached48 s.now (st + 101) = true then (s.put Reg.DMA_CH_STATUS_late c true).set Reg.DMX_rl c 1 else s
  s.setCh c chRunning

/-- Move the whole of a run that is not streaming; a host source brings `src`, and a read that failed has brought what
came before it (R370 to R373). -/
def State.runMove (s : State) (c : Nat) (src : ReadResult) : State :=
  let cfg := s.get Reg.DMX_cfg c
  let n := s.get Reg.DMX_len c
  if dmaSpace (s.get Reg.DMX_src c) == .host then
    let s := s.dmaReads c
    match src with
    | .data bs =>
      let got := bs.take n
      let r := s.dmaPut c 0 (swapBytes (bits cfg 6 3) got)
      r.2.dmaBack c (if r.1 ≠ 0 then r.1 else if got.length < n then 0x60 else 0)
    | e =>
      match s.chFn c with
      | some g => (s.aer g (ReadResult.aerBit e) false []).dmaEnd c 0x60
      | none => s.dmaEnd c 0x60
  else
    let r := s.dmaPut c 0 (swapBytes (bits cfg 6 3) (s.dmaSource c))
    r.2.dmaBack c r.1

/-- The engine takes its next ready channel; a run that needs a host request of a function whose Bus Master Enable is
clear is held (R360). -/
def execDmaRunStart (e : Nat) (src : ReadResult) (s : State) : Res :=
  if !s.dmaOn || s.engBusy e then .next s
  else
    match s.engPick e with
    | (none, s) => .next s
    | (some c, s) =>
      let held := s.dmaHost c && (match s.chFn c with | some g => s.fnHeld g | none => false)
      if held then .next ((s.pmu 14 3 1).setCh c chHeld)
      else if bit (s.get Reg.DMX_cfg c) 9 then .next (s.runBegin c)
      else .next ((s.runBegin c).runMove c src)

/-- Bytes a burst moves: in 64-byte accesses to `lo_mark`, or all with end of stream, and never beyond `len`. -/
def State.burstLen (s : State) (c : Nat) : Nat :=
  let fill := (s.fifoOf c).length
  let lo := fifoLo (s.get Reg.DMX_cfg c)
  let n := if s.flag Reg.DMA_CH_FIFO_STATUS_eos c then fill else min fill ((fill - lo + 63) / 64 * 64)
  min n (s.get Reg.DMX_len c - s.get Reg.DMA_CH_XFER_bytes c)

/-- A burst has moved its data: the channel completes, or releases the engine (R374). -/
def execStreamBurstEnd (c : Nat) (s : State) : Res :=
  if !s.dmaOn || s.chState c != chRunning || !bit (s.get Reg.DMX_cfg c) 9 || s.unsent c then .next s
  else if s.dmaHost c && (match s.chFn c with | some g => s.fnHeld g | none => false) then
    .next ((s.pmu 14 3 1).setCh c chHeld)
  else
    let n := s.burstLen c
    let o := s.get Reg.DMA_CH_XFER_bytes c
    let r := s.dmaPut c o (swapBytes (bits (s.get Reg.DMX_cfg c) 6 3) ((s.fifoOf c).take n))
    let t := r.2.setFifo c ((s.fifoOf c).drop n)
    if r.1 ≠ 0 ∨ t.unsent c = true ∨ t.streamMore c = false then .next (t.dmaBack c r.1)
    else .next ((t.setCh c chReady).chSettle c)

/-- The read-back of the last access returned; that of shell space returns with MGMT_RSP (R372, R373). -/
def execDmaReadbackReturn (c : Nat) (rb : ReadResult) (s : State) : Res :=
  if !s.dmaOn || s.chState c != chReadback then .next s
  else
    let res := s.get Reg.DMX_res c
    match dmaSpace (s.get Reg.DMX_dst c) with
    | .shell => .next s
    | .host =>
      match rb with
      | .data _ => .next (s.dmaEnd c res)
      | e =>
        match s.chFn c with
        | some g => .next ((s.aer g (ReadResult.aerBit e) false []).dmaEnd c 0x63)
        | none => .next (s.dmaEnd c 0x63)
    | _ => .next (s.dmaEnd c res)

end Sys2Proof.Machine
end

