-- ==== Sys2Proof/Machine/Offload.lean ====
section
/-! DEFINITION. Sys2Proof/Machine/Offload.lean: the commands of OFL (chapter "Tunnels, Secure Transports and Storage
Offload") and of TX and RX entries. -/

namespace Sys2Proof.Machine

/-! ## Stages (R335) -/

/-- The first frame of a leaf's egress stage goes as far as it can: it leaves with its group once every step is done. -/
def execEgressStage (l : Nat) (s : State) : Res :=
  if !s.moving then .next s
  else
    match (s.egGroup l).find? (fun f => (s.frame f).phase == 0 || (s.frame f).phase == 2) with
    | some f =>
      let t := if (s.frame f).phase = 0 then s.egPrep l f
        else s.egSteps l f
      .next (t.egLeave l)
    | none => .next (s.egLeave l)

/-- The frame at a host port goes through its steps and into its queue's buffers. -/
def execReceiveStage (h : Nat) (s : State) : Res :=
  match s.get Reg.PT_tx (macIx (32 + h)) with
  | 0 => .next s
  | f + 1 =>
    if !s.moving then .next s
    else
      let p := (s.frame f).phase
      if p = 0 then .next (s.rxPrep h f)
      else if p = 2 then .next (s.rxMiddle h f)
      else if p = 3 then .next (s.rxTrack h f)
      else if p = 5 then .next (s.rxFinish h f)
      else .next s

/-- `coal_us` has passed since the first segment of the context that has place `k`. -/
def execCoalTimeout (k : Nat) (s : State) : Res :=
  match s.coal[k]? with
  | some c => if s.moving then .next (s.flushCoal c) else .next s
  | none => .next s

/-! ## Templates and connection contexts (R340, R355) -/

/-- The writer's rights over a record with a present and a new owner (R96). -/
def ownerMove (w : Who) (old new : Nat) : Bool := claimMay w old && (new == 0x1FFF || ownerMay w new)

/-- A template command or a context command is in progress until the next tick (DESIGN CHOICE, log entry 9); one written
meanwhile is ignored with result 0x06. -/
def State.oflCmd (s : State) (w : Who) (busy result : Fld) (f : State → State) : State :=
  if !s.mayWrite w then s
  else if s.flag busy 0 then s.set result 0 0x06
  else f (s.put busy 0 true)

def execTmplWrite (who : Who) (index : Nat) (s : State) : Res :=
  let r := s.area Reg.OFL_TMPL_STAGE_byte 0 128
  .next (s.oflCmd who Reg.OFL_TMPL_STATUS_busy Reg.OFL_TMPL_STATUS_result (fun t =>
    if !ownerMove who (t.get Reg.TPX_owner index) (tmOwner r) then t.set Reg.OFL_TMPL_STATUS_result 0 0x05
    else if tmplBad r then t.set Reg.OFL_TMPL_STATUS_result 0 0x02
    else ((t.wr (baseTmpl index) r).set Reg.TPX_owner index (tmOwner r)).set Reg.OFL_TMPL_STATUS_result 0 0))

def execTmplRead (who : Who) (index : Nat) (s : State) : Res :=
  .next (s.oflCmd who Reg.OFL_TMPL_STATUS_busy Reg.OFL_TMPL_STATUS_result (fun t =>
    (t.putArea Reg.OFL_TMPL_RESULT_byte 0 (t.template index)).set Reg.OFL_TMPL_STATUS_result 0 0))

/-- A rewritten connection's placements end with NVME_UNSYNCED (R356). -/
def execNvcWrite (who : Who) (index : Nat) (s : State) : Res :=
  let r := padTo 64 ((s.area Reg.OFL_NVC_STAGE_byte 0 64).take 12)
  let o := bits (leAt r 0 2) 0 13
  .next (s.oflCmd who Reg.OFL_NVC_STATUS_busy Reg.OFL_NVC_STATUS_result (fun t =>
    if !ownerMove who (t.get Reg.NVX_owner index) o then t.set Reg.OFL_NVC_STATUS_result 0 0x05
    else
      let t := forEach (t.places.filter (fun p => p.conn == index)) (fun p t => t.placeEnd p 0x56) t
      let t := ({ t with nvp := SM.del t.nvp index }).wr (baseNvc index) r
      (t.set Reg.NVX_owner index o).set Reg.OFL_NVC_STATUS_result 0 0))

def execNvcRead (who : Who) (index : Nat) (s : State) : Res :=
  .next (s.oflCmd who Reg.OFL_NVC_STATUS_busy Reg.OFL_NVC_STATUS_result (fun t =>
    (t.putArea Reg.OFL_NVC_RESULT_byte 0 (t.nvContext index)).set Reg.OFL_NVC_STATUS_result 0 0))

def execOflEvqPop (who : Who) (s : State) : Res :=
  if s.mayWrite who then .next { s with oflEvq := s.oflEvq.drop 1 } else .next s

/-! ## NVME entries (R356) -/

/-- The entry of an NVME queue with an opcode that may start. -/
def State.nvEntry (s : State) (q idx op : Nat) : Option Ent :=
  match s.entAt q idx with
  | some e => if s.entGo q idx && s.qClass q == qcNvme && weOpcode e.bytes == op then some e else none
  | none => none

/-- A registration of the connection and command. -/
def State.placeOf (s : State) (conn cid : Nat) : Option Place := s.places.find? (fun p => p.conn == conn && p.cid == cid)

def execPlace (q idx : Nat) (s : State) : Res :=
  match s.nvEntry q idx 1 with
  | none => .next s
  | some e =>
    let conn := nvConn e.bytes
    let g := s.qOwner q
    let s := s.markWay q idx
    if nvSaEn e.bytes ∧ s.pageOwner (saPage (s.saRec (nvSa e.bytes))) ≠ g then .next (s.finish q idx 0x22 0 0)
    else if s.get Reg.NVX_owner conn ≠ g ∨ nvcValid (s.nvContext conn) = false ∨ (s.placeOf conn (nvCid e.bytes)).isSome ∨
        65536 ≤ s.places.length then .next (s.finish q idx 0x59 0 0)
    else if nvLen e.bytes = 0 then .next (s.finish q idx 0 0 (nvCid e.bytes))
    else .next { s with places := s.places ++
      [{ conn := conn, cid := nvCid e.bytes, q := q, idx := idx, placed := 0, bad := false }] }

def execNvmeCancel (q idx : Nat) (s : State) : Res :=
  match s.nvEntry q idx 2 with
  | none => .next s
  | some e =>
    let conn := nvConn e.bytes
    let s := s.markWay q idx
    match s.placeOf conn (nvCid e.bytes) with
    | some p =>
      if s.get Reg.NVX_owner conn = s.qOwner q then .next ((s.placeEnd p 0x57).finish q idx 0 0 0)
      else .next (s.finish q idx 0x59 0 0)
    | none => .next (s.finish q idx 0x59 0 0)

/-! ## TX and RX entries (R61, R70) -/

/-- The frame of a TX entry, before its bytes are fetched (R61, R333). -/
def State.txFrame (s : State) (q idx : Nat) (e : Ent) : Frame :=
  { src := 0x020 + pfOf (s.qOwner q), pipe := s.get Reg.QM_QCTX_CTRL_pipe q, arrq := 4 * e.acc, qp1 := q + 1, idx := idx,
    seq := e.seq, need := txLen e.bytes, tc := txTc e.bytes, egress := txEgress e.bytes, launch := txLaunch e.bytes,
    sa := if txSaEn e.bytes then txSa e.bytes + 1 else 0, offl := txOffl e.bytes, mss := txMss e.bytes, l3 := txL3 e.bytes,
    l4 := txL4 e.bytes, meta_ := txMeta e.bytes }

/-- SEND: the entry's frame is to be fetched into the host pool by HOST_FRAME_FETCH, in queue order (R40); the entry is
under way when its pipeline takes the frame (R170, R189, R250). -/
def execSend (q idx : Nat) (s : State) : Res :=
  match s.entAt q idx with
  | none => .next s
  | some e =>
    if s.entGo q idx && !e.sent && s.sendTurn q e && s.qClass q == qcTx && weOpcode e.bytes == 1 then
      .next ((s.markSent q idx).newFrame (s.txFrame q idx e))
    else .next s

/-- BUFFER: the entry's buffer takes frames of its queue. -/
def execBuffer (q idx : Nat) (s : State) : Res :=
  match s.entAt q idx with
  | none => .next s
  | some e =>
    if s.entGo q idx && s.qClass q == qcRx && weOpcode e.bytes == 1 then .next ((s.markWay q idx).pump q)
    else .next s

end Sys2Proof.Machine
end

