-- ==== Sys2Proof/Machine/Sched.lean ====
section
/-! DEFINITION. Sys2Proof/Machine/Sched.lean: the commands of SCH (chapter "Policing, Shaping, Scheduling and Time
Gates"). -/

namespace Sys2Proof.Machine

/-! ## Buffer division and policers (R248, R253) -/

/-- The host pool and the minima exceed 96 MiB together (R248). -/
def State.bufTooBig (s : State) (host : Nat) (port : Option (Nat × Nat)) : Bool :=
  let mins := (extPorts.map (fun id => match port with
    | some (p, m) => if p == id then m else s.get Reg.SCH_BUF_PORT_min id
    | none => s.get Reg.SCH_BUF_PORT_min id)).foldl (fun a b => a + b) 0
  decide (96 * 1024 < host + mins)

/-- Change the host pool or a port's minimum and alpha; what they no longer hold is free in the shared pool. -/
def State.bufSet (s : State) (host : Nat) (port : Option (Nat × Nat × Nat)) : State :=
  let s := s.set Reg.SCH_BUF_STATUS_free 0
    (s.get Reg.SCH_BUF_STATUS_free 0 + 4 * s.get Reg.SCH_BUF_CFG_host_kib 0 - 4 * host)
  let s := s.set Reg.SCH_BUF_CFG_host_kib 0 host
  match port with
  | none => s
  | some (id, a, m) =>
    let c := s.get Reg.SCH_BUF_PORT_charge id
    let o := s.get Reg.SCH_BUF_PORT_min id
    let share := fun k => c - 4 * k
    let s := s.set Reg.SCH_BUF_STATUS_free 0
      (s.get Reg.SCH_BUF_STATUS_free 0 + 4 * o + share o - 4 * m - share m)
    (s.set Reg.SCH_BUF_PORT_alpha id a).set Reg.SCH_BUF_PORT_min id m

/-- A write to `SCH_BUF_CFG` (`port` false), or to `SCH_BUF_PORT` of `id`. -/
def execBufCfgWrite (who : Who) (port : Bool) (id val : Nat) (s : State) : Res :=
  if !s.mayWrite who then .next s
  else if !port then
    let s := if bit val 31 then s.put Reg.SCH_BUF_CFG_refused 0 false else s
    let h := bits val 0 17
    if h = s.get Reg.SCH_BUF_CFG_host_kib 0 then .next s
    else if s.dev != dsIdle || s.bufTooBig h none then .next (s.put Reg.SCH_BUF_CFG_refused 0 true)
    else .next (s.bufSet h none)
  else if !isExt id then .next s
  else
    let a := if bits val 16 3 = 7 then s.get Reg.SCH_BUF_PORT_alpha id else bits val 16 3
    let m := bits val 0 16
    let h := s.get Reg.SCH_BUF_CFG_host_kib 0
    if a = s.get Reg.SCH_BUF_PORT_alpha id ∧ m = s.get Reg.SCH_BUF_PORT_min id then .next s
    else if s.dev != dsIdle || s.bufTooBig h (some (id, m)) then .next (s.put Reg.SCH_BUF_CFG_refused 0 true)
    else .next (s.bufSet h (some (id, a, m)))

/-- A policer starts anew with a full count (R253). -/
def State.polReset (s : State) (i burst : Nat) : State :=
  ((s.set Reg.POL_tok i (64 * burst)).set Reg.POL_acc i 0).set Reg.POL_last i s.now

/-- A write to `SCH_POL` of a port, or with `host` to `SCH_HPOL` of a GFN, which follows R535. -/
def execPolicerWrite (who : Who) (host : Bool) (i val : Nat) (s : State) : Res :=
  if !s.mayWrite who then .next s
  else if host then
    if decide (4098 ≤ i) || !ownerMay who i then .next s
    else
      let s := ((s.put Reg.SCH_HPOL_en i (bit val 63)).set Reg.SCH_HPOL_rate i (bits val 32 21)).set Reg.SCH_HPOL_burst i
        (bits val 0 16)
      .next (s.polReset (4096 + i) (bits val 0 16))
  else if !isExt i then .next s
  else
    let s := ((s.put Reg.SCH_POL_en i (bit val 63)).set Reg.SCH_POL_rate i (bits val 32 21)).set Reg.SCH_POL_burst i
      (bits val 0 16)
    .next (s.polReset i (bits val 0 16))

/-! ## Nodes (R254, R255, R257, R265, R411) -/

/-- The owner rule for a write: the present owner and the new one are the writer's to give (R96, R255). -/
def nodeMay (w : Who) (old new : Nat) : Bool :=
  match w with
  | .pf h => (old == 0x1FFF || inPf h old) && (new == 0x1FFF || inPf h new)
  | .fw _ => true
  | _ => false

/-- R411: a VF's node has a parent of the same VF, of its PF or of the device; a leaf under a host port has the owner
of its RX queue, unless its owner is that queue owner's PF or the device. -/
def State.nodeOwnerOk (s : State) (lv : Nat) (r : List Byte) : Bool :=
  let o := ndOwner r
  let par := if lv = 1 then bits (ndParent r) 0 11 else ndParent r
  let po := s.get Reg.ND_owner (ndix (lv - 1) par)
  let vfOk := !(decide (2 ≤ o) && decide (o < 4098)) || lv == 0 || po == o || po == pfOf o || po == 0x1FFE
  let hostLeaf := lv == 3 &&
    (let b := s.get Reg.ND_parent (ndix 2 par); let p := bits (s.get Reg.ND_parent (ndix 1 b)) 0 11; p == 0x020 || p == 0x021)
  let qo := s.qOwner (ndRxq r)
  vfOk && (!hostLeaf || o == qo || o == 0x1FFE || (decide (qo < 4098) && o == pfOf qo))

/-- Fields of a record that R254 refuses. -/
def recordBad (lv : Nat) (r : List Byte) : Bool :=
  ndWeight r == 0 || (ndCir r != 0 && ndPir r != 0 && decide (ndPir r < ndCir r)) ||
  (ndCbs r == 0 && ndCir r != 0) || (ndPbs r == 0 && ndPir r != 0) || (lv == 0 && decide (64 < leAt r 20 2))

/-- The parent a record names is invalid. -/
def State.parentBad (s : State) (lv : Nat) (r : List Byte) : Bool :=
  lv != 0 &&
  (let p := if lv = 1 then bits (ndParent r) 0 11 else ndParent r
   !nodeExists (lv - 1) p || !s.flag Reg.ND_valid (ndix (lv - 1) p))

/-- The parent that a record of a level names: a port ID at level 1 (Table SH-2). -/
def recParent (lv : Nat) (r : List Byte) : Nat := if lv = 1 then bits (ndParent r) 0 11 else ndParent r

/-- `parent` or `prio` would change with frames or children below, or `valid` go with children. -/
def State.nodePinned (s : State) (lv i : Nat) (r : List Byte) : Bool :=
  let k := ndix lv i
  let kids := lv != 3 && !(s.childrenOf lv i).isEmpty
  let moves := lv != 0 && (recParent lv r != s.parentOf lv i || ndPrio r != s.get Reg.ND_prio k)
  (moves && (s.get Reg.ND_depth k != 0 || kids)) || (lv != 0 && !ndValid r && kids)

/-- The result code of a write (R254), 0 when it is taken. -/
def State.nodeCheck (s : State) (w : Who) (lv i : Nat) (r : List Byte) : Nat :=
  if !nodeExists lv i then 1
  else if recordBad lv r then 2
  else if s.parentBad lv r then 3
  else if s.nodePinned lv i r then 4
  else if !nodeMay w (s.get Reg.ND_owner (ndix lv i)) (ndOwner r) || !s.nodeOwnerOk lv r then 5
  else 0

/-- Take a record: its fields, both counts by `tokrst`, fraction and deficit cleared (R265). A leaf made invalid while
it holds frames drains first (R257). -/
def State.nodeSet (s : State) (lv i : Nat) (r : List Byte) : State :=
  let k := ndix lv i
  let s := if lv = 0 then s else (s.set Reg.ND_parent k (ndParent r)).set Reg.ND_prio k (ndPrio r)
  let s := ((s.set Reg.ND_weight k (ndWeight r)).put Reg.ND_smp k (lv == 3 && bit (byteAt r 5) 1)).set Reg.ND_owner k (ndOwner r)
  let s := ((s.set Reg.ND_cir k (ndCir r)).set Reg.ND_pir k (ndPir r)).set Reg.ND_cbs k (ndCbs r)
  let s := ((s.set Reg.ND_pbs k (ndPbs r)).set Reg.ND_qlim k (leAt r 20 2)).set Reg.ND_rxq k (ndRxq r)
  let fill := fun b => if ndTokrst r then tokZero + 64 * b else tokZero
  let s := ((s.set Reg.ND_tc k (fill (ndCbs r))).set Reg.ND_tp k (fill (ndPbs r))).set Reg.ND_ac k 0
  let s := ((s.set Reg.ND_ap k 0).set Reg.ND_last k s.now).set Reg.ND_def k 0
  if lv = 0 then s
  else if ndValid r then ((s.put Reg.ND_valid k true).put Reg.ND_drain k false).drainShow
  else if lv = 3 ∧ s.flag Reg.ND_valid k = true ∧ SM.get [] s.leafq i ≠ [] then (s.put Reg.ND_drain k true).drainShow
  else s.put Reg.ND_valid k false

/-- A node command is in progress until the next tick (DESIGN CHOICE, log entry 9); one written meanwhile is ignored with
result 0x06. -/
def execNodeWrite (who : Who) (level index : Nat) (s : State) : Res :=
  if !s.mayWrite who then .next s
  else if s.flag Reg.SCH_NODE_STATUS_busy 0 then .next (s.set Reg.SCH_NODE_STATUS_result 0 6)
  else
    let r := s.area Reg.SCH_NODE_STAGE_byte 0 32
    let c := s.nodeCheck who level index r
    let s := s.put Reg.SCH_NODE_STATUS_busy 0 true
    if c = 0 then .next ((s.nodeSet level index r).set Reg.SCH_NODE_STATUS_result 0 0)
    else .next (s.set Reg.SCH_NODE_STATUS_result 0 c)

def execNodeRead (who : Who) (level index : Nat) (s : State) : Res :=
  if !s.mayWrite who then .next s
  else if s.flag Reg.SCH_NODE_STATUS_busy 0 then .next (s.set Reg.SCH_NODE_STATUS_result 0 6)
  else
    let s := s.put Reg.SCH_NODE_STATUS_busy 0 true
    if !nodeExists level index then .next (s.set Reg.SCH_NODE_STATUS_result 0 1)
    else
      let s := s.putArea Reg.SCH_NODE_RESULT_byte 0 (s.nodeRec level index)
      .next (((s.set Reg.NDX_read 0 (if level = 3 then index + 1 else 0)).drainShow).set Reg.SCH_NODE_STATUS_result 0 0)

/-! ## Selection (R259, R233) -/

/-- MAC `m`: network 0 to 15, link 16 to 31, host 32 and 33. -/
def execFrameSelect (m : Nat) (s : State) : Res :=
  if !s.portsOn || s.macBusy m then .next s
  else
    match s.select m with
    | (none, t) => .next t
    | (some l, t) =>
      match t.headOf l with
      | none => .next t
      | some f => .next ((((t.dequeue l true).pmu 10 2 1)).startTx m f (t.leafPath l).2.2)

/-- MAC `m` is at a frame boundary: the frames of its own that waited go out, then the BULK frames of its slot (R228). -/
def State.boundary (s : State) (m : Nat) : State :=
  let s := s.flushOwn m
  if 16 ≤ m ∧ m < 32 ∧ s.portsOn = true then s.bulkKick (m - 16) else s

/-- The last byte of a frame leaves its port: its cells are free, and host work completes with 0x00 (R160). A frame that
has started is sent to its end in WHITEOUT and after a completion seal too, where nothing completes (R15, R55, Table
FC-4). -/
def execFrameTxEnd (m : Nat) (s : State) : Res :=
  let k := s.get Reg.PT_tx (macIx m)
  if s.dev == dsAonOnly || s.dev == 0 || k == 0 || decide (32 ≤ m) then .next s
  else
    match (s.frame (k - 1)).stage with
    | .sending port =>
      let x := s.frame (k - 1)
      let s := ((s.set Reg.PT_tx (macIx m) 0).cnt port cTxFrames 1).cnt port cTxBytes (x.bytes.length + 4 - x.tagged)
      .next (((s.emit (.frame port x.bytes)).boundary m).endFrame (k - 1) 0)
    | _ => .next ((s.set Reg.PT_tx (macIx m) 0).boundary m)

/-! ## Gates (R270 to R273) -/

/-- Refuse a gate write with a reason. -/
def State.gateRefuse (s : State) (id reason : Nat) : State :=
  (s.put Reg.SCH_GATE_STATUS_refused id true).set Reg.SCH_GATE_STATUS_reason id reason

/-- Why a commit is refused; 0 when it is not. -/
def State.gateReason (s : State) (id : Nat) : Nat :=
  let b := s.get Reg.SCH_GATE_LIST_bank id
  let len := s.get Reg.SCH_GATE_LIST_len id
  if s.flag Reg.SCH_GATE_STATUS_pending id then 1
  else if s.flag Reg.SCH_GATE_STATUS_active_valid id && s.get Reg.SCH_GATE_STATUS_active_bank id == b then 2
  else if len = 0 ∨ 1024 < len then 3
  else if s.get Reg.SCH_GATE_CYCLE_cycle id < 1000 then 4
  else if (List.range len).any (fun e => decide ((s.gateEntry id b e).1 < 20)) then 5
  else 0

/-- Refusals are judged before lateness (DEDUCED, log entry 14). -/
def execGateCommit (who : Who) (id : Nat) (s : State) : Res :=
  if !s.mayWrite who || !schPort id then .next s
  else
    let c := s.gateReason id
    if c ≠ 0 then .next (s.gateRefuse id c)
    else
      let t := s.get Reg.SCH_GATE_BASE_base id
      let d := (t + 2 ^ 48 - s.now % 2 ^ 48) % 2 ^ 48
      if d < 200 ∨ 2 ^ 47 ≤ d then .next (s.put Reg.SCH_GATE_STATUS_late id true)
      else
        let b := s.get Reg.SCH_GATE_LIST_bank id
        let s := ((s.set Reg.GTX_base id t).set Reg.GTX_cycle id (s.get Reg.SCH_GATE_CYCLE_cycle id)).set Reg.GTX_bank id b
        let s := s.set Reg.GTX_len (2 * id + b) (s.get Reg.SCH_GATE_LIST_len id)
        .next (s.put Reg.SCH_GATE_STATUS_pending id true)

/-- A cancel on the tick of the take-over is refused, whichever of the two comes first in the tick (R273). -/
def execGateCancel (who : Who) (id : Nat) (s : State) : Res :=
  if !s.mayWrite who then .next s
  else if s.get Reg.GTX_tick id = s.get Reg.CLK_ticks 0 + 1 then .next (s.gateRefuse id 7)
  else if !s.flag Reg.SCH_GATE_STATUS_pending id then .next s
  else if reached48 s.now (s.get Reg.GTX_base id) then .next (s.gateRefuse id 7)
  else .next (s.put Reg.SCH_GATE_STATUS_pending id false)

/-- The pending list of a port comes into force at its time (R272). -/
def State.takeover (s : State) (id : Nat) : State :=
  if s.flag Reg.SCH_GATE_STATUS_pending id && reached48 s.now (s.get Reg.GTX_base id) then
    let b := s.get Reg.GTX_bank id
    let s := (s.put Reg.SCH_GATE_STATUS_pending id false).put Reg.SCH_GATE_STATUS_active_valid id true
    let s := (s.set Reg.SCH_GATE_STATUS_active_bank id b).set Reg.GTX_opl id (s.get Reg.GTX_len (2 * id + b))
    let s := (s.set Reg.SCH_GATE_OPER_BASE_base id (s.get Reg.GTX_base id)).set Reg.SCH_GATE_OPER_CYCLE_cycle id
      (s.get Reg.GTX_cycle id)
    (s.set Reg.GTX_now id (widen48 s.now (s.get Reg.GTX_base id))).set Reg.GTX_tick id (s.get Reg.CLK_ticks 0 + 1)
  else s

def execGateTakeover (id : Nat) (s : State) : Res := .next (s.takeover id)

/-- A bank is locked: in force, or pending. -/
def State.bankLocked (s : State) (id b : Nat) : Bool :=
  (s.flag Reg.SCH_GATE_STATUS_active_valid id && s.get Reg.SCH_GATE_STATUS_active_bank id == b) ||
  (s.flag Reg.SCH_GATE_STATUS_pending id && s.get Reg.GTX_bank id == b)

/-- A write of an entry, 8 bytes, of the bank that `SCH_GATE_SEL` shows. -/
def execGateEntryWrite (who : Who) (e val : Nat) (s : State) : Res :=
  let id := s.get Reg.SCH_GATE_SEL_port 0
  let b := s.get Reg.SCH_GATE_SEL_bank 0
  if !s.mayWrite who || !schPort id then .next s
  else if s.bankLocked id b then .next (s.gateRefuse id 6)
  else .next (s.putArea Reg.SCH_GATE_ENTRY_byte (gateIx id b e) (leBytes 5 val ++ [0#8, 0#8, 0#8]))

/-! ## Sampling (R274, R275) -/

/-- What holds a leaf's head frame: launch or EXACT time, gate, pause. -/
def State.sampleHold (s : State) (l : Nat) : Nat :=
  match s.headOf l with
  | none => 0
  | some f =>
    let x := s.frame f
    let p := (s.leafPath l).2.2
    let pr := s.portPrio l
    b2n (!s.launched x || s.exactHeld p x) + 2 * b2n (!s.gateOk p pr x.bytes) + 4 * b2n (s.pausedAt p pr)

/-- A sample record (Table SH-5). -/
def State.sample (s : State) (l : Nat) (gap : Bool) : List Byte :=
  let q := SM.get [] s.leafq l
  let so := match q with
    | [] => 0
    | f :: _ => min (s.now - (s.frame f).enq) 0xFFFFFFFF
  leBytes 3 l ++ leBytes 1 (s.sampleHold l + 8 * b2n gap) ++
  leBytes 4 (min (s.get Reg.ND_depth (ndix 3 l)) 0xFFFFFFFF) ++ leBytes 4 (min q.length 0xFFFFFFFF) ++ leBytes 4 so ++
  leBytes 6 s.now ++ List.replicate 10 0#8

/-- Go to the other half of the buffer, which is empty. -/
def State.smpSwitch (s : State) : State :=
  (s.set Reg.SCH_SMP_STATUS_half 0 (1 - s.get Reg.SCH_SMP_STATUS_half 0)).set Reg.SCH_SMP_STATUS_fill 0 0

/-- Hand the half being filled to the central reader, and fill the other when it is free. -/
def State.smpHand (s : State) : State :=
  let h := s.get Reg.SCH_SMP_STATUS_half 0
  let s := s.put Reg.SMP_full h true
  if s.flag Reg.SMP_full (1 - h) then s else s.smpSwitch

/-- Write one record, or lose it when both halves await dump. -/
def State.smpPut (s : State) (l : Nat) : State :=
  let s := if s.flag Reg.SMP_full (s.get Reg.SCH_SMP_STATUS_half 0) && !s.flag Reg.SMP_full (1 - s.get Reg.SCH_SMP_STATUS_half 0)
    then s.smpSwitch else s
  let h := s.get Reg.SCH_SMP_STATUS_half 0
  if s.flag Reg.SMP_full h then (s.inc Reg.SCH_SMP_LOST_lost 0).put Reg.SMP_gap 0 true
  else
    let rec_ := s.sample l (s.flag Reg.SMP_gap 0)
    let s := { s with samples := SM.put [] s.samples h (SM.get [] s.samples h ++ [rec_]) }
    let s := (s.put Reg.SMP_gap 0 false).inc Reg.SCH_SMP_STATUS_fill 0
    if s.get Reg.SCH_SMP_STATUS_fill 0 = 4096 then s.smpHand else s

def execSamplePeriod (s : State) : Res :=
  if !s.flag Reg.SCH_SMP_CFG_en 0 || !s.portsOn then .next s
  else
    let en := ((s.having Reg.ND_smp 1).filter (fun i => i / 2 ^ 18 == 3)).map (fun i => i % 2 ^ 18)
    let cur := s.get Reg.SMP_cur 0
    let order := en.filter (fun l => decide (cur ≤ l)) ++ en.filter (fun l => decide (l < cur))
    let take := order.take (64 * s.get Reg.SCH_SMP_CFG_period 0)
    .next (forEach take (fun l t => (t.smpPut l).set Reg.SMP_cur 0 (l + 1)) s)

end Sys2Proof.Machine
end

