-- ==== Sys2Proof/Machine/Time.lean ====
section
/-! DEFINITION. Sys2Proof/Machine/Time.lean: the commands of MT: the count, its steering, Drift, comparators but
their firing (Fire.lean), captures and PPS (chapter "Meridian Time, Triggers and Captures"). -/

namespace Sys2Proof.Machine

/-! ## Reading and steering (R279 to R282) -/

/-- Latch the fraction and the high word for a reader (R279). -/
def State.latchNow (s : State) (w : Who) : State :=
  match readerOf w with
  | some r => (s.set Reg.MTX_hi r (s.now / 2 ^ 32)).set Reg.MT_NOW_FRAC_frac r (s.get Reg.MTX_frac 0)
  | none => s

/-- What a read of the count returns: the low word, the count, or the count with its fraction (R279). -/
def State.nowData (s : State) (size : Nat) : Nat :=
  if size = 4 then s.now % 2 ^ 32 else if size = 16 then s.now + 2 ^ 64 * s.get Reg.MTX_frac 0 else s.now

def execNowRead (who : Who) (size : Nat) (s : State) : Res :=
  .next (s.answer who size (s.latchNow who, s.nowData size))

/-- Bits 63:40 are reserved and change nothing (R7, R280). -/
def execMtIncWrite (who : Who) (val : Nat) (s : State) : Res :=
  if !s.mayWrite who then .next s
  else
    let inc := val % 2 ^ 40
    if s.inDrift || decide (inc < 0x00FFBE76C9) || decide (0x0100418937 < inc) then .next s.mtRefuse
    else .next (s.set Reg.MT_INC_inc 0 inc)

/-- The `mode` and `slew` of a write to `MT_ADJ_CTRL`; a `slew` outside its range is ignored. -/
def State.adjCtrl (s : State) (mode : Bool) (slew : Nat) : State :=
  let s := s.put Reg.MT_ADJ_CTRL_mode 0 mode
  if 1 ≤ slew ∧ slew ≤ 0x418937 then s.set Reg.MT_ADJ_CTRL_slew 0 slew else s

/-- A step of `MT_ADJ` falls due on the next tick, and a slew in progress is discarded (R281, R282). -/
def State.startStep (s : State) : State :=
  (s.dropSlew.put Reg.MTX_step 0 true).set Reg.MTX_stepns 0 (s.get Reg.MT_ADJ_offset 0)

/-- A slew of `MT_ADJ` begins (R281); an offset of 0 leaves nothing to take up. -/
def State.startSlew (s : State) : State :=
  let off := sgn64 (s.get Reg.MT_ADJ_offset 0)
  let s := s.dropSlew.put Reg.MTX_step 0 false
  if off = 0 then s
  else ((s.set Reg.MTX_srem 0 (off.natAbs * 2 ^ 32)).put Reg.MTX_sneg 0 (decide (off < 0))).put Reg.MT_STATUS_slewing 0 true

def execAdjStep (who : Who) (slew : Nat) (s : State) : Res :=
  if !s.mayWrite who then .next s
  else
    let s := s.adjCtrl false slew
    if s.inDrift then .next s.mtRefuse else .next (s.startStep.put Reg.MT_ADJ_CTRL_go 0 true)

def execAdjSlew (who : Who) (slew : Nat) (s : State) : Res :=
  if !s.mayWrite who then .next s
  else
    let s := s.adjCtrl true slew
    if s.inDrift then .next s.mtRefuse else .next (s.startSlew.put Reg.MT_ADJ_CTRL_go 0 true)

/-- The ticks that a slew still takes (R281). -/
def State.slewTicks (s : State) : Nat :=
  (s.get Reg.MTX_srem 0 + s.get Reg.MT_ADJ_CTRL_slew 0 - 1) / s.get Reg.MT_ADJ_CTRL_slew 0

/-! ## Reference and Drift (R277, R299 to R301) -/

/-- The PLL has lost the lock to its reference: cause REF, but not before the first lock (R277). -/
def State.refChange (s : State) : State :=
  let s := s.put Reg.MT_STATUS_ref_lock 0 false
  if s.flag Reg.MTX_first 0 then s.enterDrift 2 else s

def execRefLost (s : State) : Res :=
  if s.dev == 0 || s.get Reg.MT_CFG_ref_sel 0 == 0 || s.flag Reg.MTX_lost 0 then .next s
  else .next ((s.put Reg.MTX_lost 0 true).refChange)

/-- The PLL locks to a reference that runs: not to `SYS_REFCLK` while it shows no edge (R277, R502). A lock to
`TIME_REFCLK` says that it runs again. -/
def execRefLock (s : State) : Res :=
  if s.dev == 0 || (s.get Reg.MT_CFG_ref_sel 0 == 0 && s.flag Reg.CLK_lost 0) then .next s
  else .next (((s.put Reg.MTX_lost 0 false).put Reg.MT_STATUS_ref_lock 0 true).put Reg.MTX_first 0 true)

def execDriftEnter (who : Who) (s : State) : Res :=
  if !s.mayWrite who then .next s else .next (s.enterDrift 0)

/-- The end condition of every cause that is set holds (Table MT-4). -/
def State.driftMayEnd (s : State) : Bool :=
  let c := s.get Reg.MT_STATUS_drift_cause 0
  (!bit c 1 || (!s.flag Reg.MC_HB_stall 0 && s.flag Reg.MC_CTRL_running 0)) &&
  (!bit c 2 || s.flag Reg.MT_STATUS_ref_lock 0) &&
  (!bit c 3 || s.get Reg.GLB_STATE_boot_step 0 == 10)

/-- The clock leaves Drift (R301). -/
def State.leaveDrift (s : State) : State :=
  ((s.set Reg.MT_STATUS_drift_cause 0 0).put Reg.MT_STATUS_drift 0 false).put Reg.MTX_exit 0 true

/-- Outside Drift an exit has nothing to leave and applies no offset (log entry 45). -/
def execDriftExit (who : Who) (estep : Bool) (s : State) : Res :=
  if !s.mayWrite who then .next s
  else
    let s := s.put Reg.MT_CTRL_exit_step 0 estep
    if !s.inDrift then .next s
    else if !s.driftMayEnd then .next s.mtRefuse
    else
      let s := s.leaveDrift
      if s.get Reg.MT_ADJ_offset 0 = 0 then .next s
      else .next (if estep then s.startStep else s.startSlew)

/-! ## Comparators (R286 to R295) -/

/-- The comparator is armed or staged. -/
def State.trigLive (s : State) (k : Nat) : Bool :=
  s.flag Reg.MT_TRIG_STATUS_armed k || s.flag Reg.MT_TRIG_STATUS_staged k

/-- Its configuration is locked: it belongs to threads, or is armed or staged (R288). -/
def State.trigLocked (s : State) (k : Nat) : Bool := !s.flag Reg.MT_TRIG_CFG_own k || s.trigLive k

/-- A write of `MT_TRIG_CFG`, field by field (R288). -/
def State.trigCfg (s : State) (k v : Nat) : State :=
  let irq := if bits v 29 2 = 3 then s.get Reg.MT_TRIG_CFG_irq k else bits v 29 2
  let other := irq != s.get Reg.MT_TRIG_CFG_irq k || bits v 24 2 != s.get Reg.MT_TRIG_CFG_quarter k ||
    bits v 20 4 != s.get Reg.MT_TRIG_CFG_action k || bits v 0 16 != s.get Reg.MT_TRIG_CFG_dest k
  let own := bits v 31 1 != s.get Reg.MT_TRIG_CFG_own k
  if own && s.trigLive k then s.mtRefuse
  else
    let t := if other then
        if s.trigLocked k then s.mtRefuse
        else (((s.set Reg.MT_TRIG_CFG_irq k irq).set Reg.MT_TRIG_CFG_quarter k (bits v 24 2)).set Reg.MT_TRIG_CFG_action k
          (bits v 20 4)).set Reg.MT_TRIG_CFG_dest k (bits v 0 16)
      else s
    t.set Reg.MT_TRIG_CFG_own k (bits v 31 1)

/-- `reg`: 0 `MT_TRIG_CFG`, 1 `MT_TRIG_WIDTH`, 2 `MT_TRIG_TGT`. -/
def execTrigCfgWrite (who : Who) (k reg val : Nat) (s : State) : Res :=
  if !s.mayWrite who then .next s
  else if reg = 0 then .next (s.trigCfg k val)
  else if reg = 1 then
    if bits val 0 16 = 0 ∨ bits val 0 16 = s.get Reg.MT_TRIG_WIDTH_width k then .next s
    else if s.trigLocked k then .next s.mtRefuse else .next (s.set Reg.MT_TRIG_WIDTH_width k (bits val 0 16))
  else if reg = 2 then
    if val = s.get Reg.MT_TRIG_TGT_target k then .next s
    else if s.trigLocked k then .next s.mtRefuse else .next (s.set Reg.MT_TRIG_TGT_target k val)
  else .next s

/-- A register arm of a free comparator with legal action and destination (R286, R289, R290). -/
def State.armReg (s : State) (k : Nat) : State :=
  let tgt := s.get Reg.MT_TRIG_TGT_target k
  let d := (tgt + 2 ^ 64 - s.now) % 2 ^ 64
  if d = 0 ∨ 2 ^ 63 ≤ d then s.trigEnd k 0x02 0
  else if 2 ^ 46 ≤ d then s.put Reg.MT_TRIG_STATUS_staged k true
  else
    let s := s.trigLoad k (tgt % 2 ^ 48) (s.get Reg.MT_TRIG_CFG_quarter k) (s.get Reg.MT_TRIG_CFG_action k)
      (s.get Reg.MT_TRIG_CFG_dest k) (s.get Reg.MT_TRIG_WIDTH_width k)
    if s.trgDue k then s.sendTrg k else s

/-- A write of `arm`; `dis` says that `disarm` is written with it, which leaves the comparator disarmed (R295). -/
def execArm (who : Who) (k : Nat) (dis : Bool) (s : State) : Res :=
  if !s.mayWrite who then .next s
  else if !s.flag Reg.MT_TRIG_CFG_own k then .next s.mtRefuse
  else if s.trigLive k then
    if dis then .next (s.mtRefuse.disarm k) else .next s.mtRefuse
  else
    let a := s.get Reg.MT_TRIG_CFG_action k
    if a = 0 ∨ 4 < a ∨ s.destOk (s.get Reg.MT_TRIG_CFG_dest k) = false then .next s.mtRefuse
    else if dis then .next (s.trigEnd k 0x03 0)
    else .next (s.armReg k)

def execDisarm (who : Who) (k : Nat) (s : State) : Res :=
  if !s.mayWrite who then .next s
  else if !s.flag Reg.MT_TRIG_CFG_own k then .next s.mtRefuse
  else if s.trigLive k then .next (s.disarm k)
  else .next s

/-- A staged target that has come within 2^46 ns is loaded (R286). -/
def State.stageLoad (s : State) (k : Nat) : State :=
  let tgt := s.get Reg.MT_TRIG_TGT_target k
  let d := (tgt + 2 ^ 64 - s.now) % 2 ^ 64
  if s.flag Reg.MT_TRIG_STATUS_staged k && (decide (d < 2 ^ 46) || decide (2 ^ 63 ≤ d)) then
    s.trigLoad k (tgt % 2 ^ 48) (s.get Reg.MT_TRIG_CFG_quarter k) (s.get Reg.MT_TRIG_CFG_action k)
      (s.get Reg.MT_TRIG_CFG_dest k) (s.get Reg.MT_TRIG_WIDTH_width k)
  else s

def execTrigStageLoad (k : Nat) (s : State) : Res := .next (s.stageLoad k)

/-- The TRG frame of an announced trigger leaves when Meridian time reaches its lead (R292). -/
def State.trgLead (s : State) (k : Nat) : State :=
  if s.flag Reg.MT_TRIG_STATUS_armed k && s.trgDue k && s.dev != dsWhiteout then s.sendTrg k else s

def execTrgLead (k : Nat) (s : State) : Res := .next (s.trgLead k)

/-- The fall of a pulse is due: its nanosecond has come (R290). -/
def State.fallDue (s : State) (p : Nat × Nat × Nat) : Bool := reached64 s.now (p.2.2 / 4)

/-- The pulses of a comparator that are due end, each on the ball that it raised. -/
def State.pulseEnd (s : State) (k : Nat) : State :=
  let due := s.falls.filter (fun p => p.1 == k && s.fallDue p)
  forEach due (fun p t => t.slotTrig p.2.1 p.2.2 false) { s with falls := s.falls.filter (fun p => !(p.1 == k && s.fallDue p)) }

def execPulseEnd (k : Nat) (s : State) : Res := .next (s.pulseEnd k)

/-! ## Captures (R296, R297) -/

/-- An edge that crosses a source's ball in quarter `q` of the present nanosecond. -/
def execCaptureEdge (src q : Nat) (rise : Bool) (s : State) : Res :=
  if s.dev == dsWhiteout || s.dev == dsAonOnly || s.dev == 0 || decide (0x14 < src) then .next s
  else .next (s.edgeOn src (4 * s.now + q % 4) rise)

def execCaptureSw (who : Who) (j : Nat) (s : State) : Res :=
  if !s.mayWrite who then .next s else .next (s.capture j (4 * s.now) false)

/-! ## PPS (R298) -/

/-- The fields of a write to `MT_PPS`; a value outside its range leaves its field (log entry 10). -/
def State.ppsFields (s : State) (v : Nat) : State :=
  let off := bits v 32 30
  let w := bits v 0 20
  let s := if off < 1000000000 then s.set Reg.MT_PPS_off 0 off else s
  if 1 ≤ w ∧ w ≤ 999999 then s.set Reg.MT_PPS_width 0 w else s

def execPpsWrite (who : Who) (val : Nat) (s : State) : Res :=
  if !s.mayWrite who then .next s
  else
    let old := s.ppsOff
    let was := s.flag Reg.MT_PPS_en 0
    let s := s.ppsFields val
    if bits val 63 1 = 0 then .next ((s.put Reg.MT_PPS_en 0 false).set Reg.MTX_ppsoff 0 0 |>.drivePps false (4 * s.now))
    else if was then .next (s.set Reg.MTX_ppsoff 0 (old + 1))
    else
      let s := (s.put Reg.MT_PPS_en 0 true).set Reg.MTX_ppsoff 0 0
      .next (s.set Reg.MTX_ppsidx 0 (ppsIdx s.ppsNow s.ppsOff))

/-- `PPS_OUT` rises at an instant that the clock has reached (R298). -/
def State.ppsRise (s : State) : State :=
  if s.flag Reg.MT_PPS_en 0 && !s.flag Reg.MTX_pps 0 && s.dev != dsWhiteout &&
      decide (s.get Reg.MTX_ppsidx 0 < ppsIdx s.ppsNow s.ppsOff) then
    let q := s.ppsQ
    let s := ((s.set Reg.MTX_ppsq 0 q).set Reg.MTX_ppsw 0 (s.get Reg.MT_PPS_width 0)).set Reg.MTX_ppsoff 0 0
    (s.set Reg.MTX_ppsidx 0 (ppsIdx s.ppsNow s.ppsOff)).drivePps true q
  else s

def execPpsRise (s : State) : Res := .next s.ppsRise

/-- Quarter nanoseconds at which `PPS_OUT` falls. -/
def State.ppsEnd (s : State) : Nat := (s.get Reg.MTX_ppsq 0 + 4000 * s.get Reg.MTX_ppsw 0) % 2 ^ 66

/-- `PPS_OUT` falls `width` µs after it rose. -/
def State.ppsFall (s : State) : State :=
  if s.flag Reg.MTX_pps 0 && reached64 s.now (s.ppsEnd / 4) then s.drivePps false s.ppsEnd else s

def execPpsFall (s : State) : Res := .next s.ppsFall

end Sys2Proof.Machine
end

