-- ==== Sys2Proof/Machine/DevB.lean ====
section
/-! DEFINITION. Sys2Proof/Machine/DevB.lean: register writes to SCH, MT, CPH, OFL and DMA. -/

namespace Sys2Proof.Machine

/-! ## SCH (R248, R251, R254, R270, R273, R274) -/

/-- A gate entry takes bytes within its 8 (R273); the others keep what the entry holds. -/
def State.gateWrite (s : State) (w : Who) (e r n x : Nat) : State :=
  let i := gateIx (s.get Reg.SCH_GATE_SEL_port 0) (s.get Reg.SCH_GATE_SEL_bank 0) e
  let k := leNat (s.area Reg.SCH_GATE_ENTRY_byte i 8)
  ran s (execGateEntryWrite w e (k - (k &&& touchMask r n) + x % 2 ^ (8 * n) * 2 ^ (8 * r)) s)

def wSch : Wr := fun w b i v s =>
  if !s.mayWrite w then some s
  else
    match b with
    | 0x600000 => some (ran s (execBufCfgWrite w false 0 v s))
    | 0x601000 => some (ran s (execBufCfgWrite w true i v s))
    | 0x610000 => some (ran s (execPolicerWrite w false i v s))
    | 0x620000 => some (ran s (execPolicerWrite w true i v s))
    | 0x640000 =>
      some (match bits v 28 4 with
        | 1 => ran s (execNodeWrite w (bits v 26 2) (bits v 0 18) s)
        | 2 => ran s (execNodeRead w (bits v 26 2) (bits v 0 18) s)
        | _ => s)
    | 0x650010 =>
      let t := if bit v 1 then ran s (execGateCancel w i s) else s
      some (if bit v 0 then ran t (execGateCommit w i t) else t)
    | 0x650000 => if schPort i then none else some s
    | 0x650008 => if schPort i then none else some s
    | 0x65000C => if schPort i then none else some s
    | 0x680000 =>
      some ((s.put Reg.SCH_SMP_CFG_en 0 (bit v 31)).ranged Reg.SCH_SMP_CFG_period 0 1 1000000 (bits v 0 20))
    | _ => none

/-! ## MT (R277, R280, R281, R288 to R301, R304) -/

/-- A change of `ref_sel` leaves the lock (R277); the value 3 is ignored. -/
def State.refSel (s : State) (r : Nat) : State :=
  if r = 3 ∨ r = s.get Reg.MT_CFG_ref_sel 0 then s
  else ((s.set Reg.MT_CFG_ref_sel 0 r).put Reg.MTX_lost 0 false).refChange

/-- A write to `MT_CAP_CFG`: with a reserved source, an `en` write is ignored and refused; `sw` captures in any case. -/
def State.capWrite (s : State) (w : Who) (j v : Nat) : State :=
  let s :=
    if bit v 31 && decide (0x15 < bits v 16 5) then s.mtRefuse
    else
      let t := (((s.put Reg.MT_CAP_CFG_en j (bit v 31)).set Reg.MT_CAP_CFG_edge j (bits v 28 2)).set Reg.MT_CAP_CFG_src j
        (bits v 16 5)).set Reg.MT_CAP_CFG_dest j (bits v 0 16)
      t.ranged Reg.MT_CAP_CFG_irq j 0 2 (bits v 26 2)
  if bit v 30 then ran s (execCaptureSw w j s) else s

/-- A write to `MT_CTRL`; with both written, the clock enters Drift and stays there (R301). -/
def State.mtCtrl (s : State) (w : Who) (v : Nat) : State :=
  let t := s.put Reg.MT_CTRL_exit_step 0 (bit v 2)
  if bit v 1 then ran t (execDriftEnter w t)
  else if bit v 0 then ran t (execDriftExit w (bit v 2) t)
  else t

def wMt : Wr := fun w b k v s =>
  if !s.mayWrite w then some s
  else
    match b with
    | 0x700010 => some ((s.set Reg.MT_CFG_trg_lead 0 (bits v 16 16)).refSel (bits v 0 2))
    | 0x700018 => some (ran s (execMtIncWrite w v s))
    | 0x700028 =>
      some (if !bit v 31 then s.adjCtrl (bit v 30) (bits v 0 23)
        else if bit v 30 then ran s (execAdjSlew w (bits v 0 23) s) else ran s (execAdjStep w (bits v 0 23) s))
    | 0x700048 => some (s.mtCtrl w v)
    | 0x700050 => some (ran s (execPpsWrite w v s))
    | 0x710000 => some (ran s (execTrigCfgWrite w k 0 v s))
    | 0x710004 =>
      some (if bit v 0 then ran s (execArm w k (bit v 1) s) else if bit v 1 then ran s (execDisarm w k s) else s)
    | 0x710008 => some (ran s (execTrigCfgWrite w k 2 v s))
    | 0x710014 => some (ran s (execTrigCfgWrite w k 1 v s))
    | 0x730000 => some (s.capWrite w k v)
    | 0x740000 => if isExt k then none else some s
    | _ => none

/-! ## CPH (R308, R314, R316, R318, R329 to R331) -/

/-- A key command (`CPH_KEY_CMD`). -/
def State.keyWrite (s : State) (w : Who) (v : Nat) : State :=
  match bits v 28 4 with
  | 1 => ran s (execLoadWrapped w s)
  | 2 => ran s (execLoadClear w s)
  | 3 => ran s (execClearSlot w (bits v 0 6) s)
  | 4 => ran s (execZeroisePage w s)
  | _ => s

/-- A key interface of instance `i` takes writes from its own accessor only, and none while it is busy. -/
def wKey : Wr := fun w b i v s =>
  let k := if b = 0x800440 then i / 128 else i
  if !s.busOpen w || s.keyInst w != some k || s.flag Reg.CPH_KEY_STATUS_busy k then some s
  else
    match b with
    | 0x800400 =>
      some (if s.pageReach w (bits v 0 13) then s.set Reg.CPH_KEY_SEL_sel k (bits v 0 13)
        else s.set Reg.CPH_KEY_STATUS_status k ksPage)
    | 0x800408 => some (s.keyWrite w v)
    | 0x800440 => none
    | _ => some s

/-- Shares of a function or of the threads: a zero weight or lane limit leaves its field. -/
def State.shareWrite (s : State) (fu fl fw : Fld) (i v : Nat) : State :=
  ((s.put fu i (bit v 31)).ranged fl i 1 31 (bits v 8 5)).ranged fw i 1 255 (bits v 0 8)

def wCph : Wr := fun w b i v s =>
  if 0x800400 ≤ b ∧ b < 0x802000 then wKey w b i v s
  else if !s.mayWrite w then some s
  else
    match b with
    | 0x800000 => some (ran s (execLaneCfgWrite w v s))
    | 0x800018 =>
      some (s.shareWrite Reg.CPH_FP_SHARE_urgent_en Reg.CPH_FP_SHARE_max_lanes Reg.CPH_FP_SHARE_weight 0 v)
    | 0x80A000 =>
      some (if ownerMay w i then
        s.shareWrite Reg.CPH_FN_SHARE_urgent_en Reg.CPH_FN_SHARE_max_lanes Reg.CPH_FN_SHARE_weight i v else s)
    | 0x800100 =>
      some (match bits v 28 4 with
        | 1 => ran s (execSaWrite w (bits v 0 20) s)
        | 2 => ran s (execSaInvalidate w (bits v 0 20) s)
        | 3 => ran s (execSaRead w (bits v 0 20) s)
        | _ => s)
    | 0x802000 => some (ran s (execPageOwnerWrite w i v s))
    | _ => none

/-! ## OFL (R340, R343 to R345, R355, R357) -/

def wOfl : Wr := fun w b g v s =>
  if !s.mayWrite w then some s
  else
    match b with
    | 0x880010 =>
      some (match bits v 28 4 with
        | 1 => ran s (execTmplWrite w (bits v 0 14) s)
        | 2 => ran s (execTmplRead w (bits v 0 14) s)
        | _ => s)
    | 0x880020 =>
      some (match bits v 28 4 with
        | 1 => ran s (execNvcWrite w (bits v 0 14) s)
        | 2 => ran s (execNvcRead w (bits v 0 14) s)
        | _ => s)
    | 0x880310 => some (ran s (execOflEvqPop w s))
    | 0x884000 =>
      if !ownerMay w g then some s
      else
        let t := s.genWrite [(31, Reg.OFL_FN_RX_hdr_en), (30, Reg.OFL_FN_RX_csum_en), (29, Reg.OFL_FN_RX_coal_en)] g v
        some ((t.ranged Reg.OFL_FN_RX_coal_us g 1 4095 (bits v 17 12)).ranged Reg.OFL_FN_RX_coal_max g 1024 65000 (bits v 0 16))
    | _ => none

/-! ## DMA (R96, R359, R366, R375 to R379) -/

/-- A write to `DMA_CH_OWNER`: only firmware gives a channel to the device or sets `fp` (R359). -/
def State.chOwnerWrite (s : State) (w : Who) (c v : Nat) : State :=
  let o := s.chOwner c
  let n := bits v 0 13
  if chHard c || !claimMay w o || !giveMay w n || (n != o && s.chState c != chIdle) then s
  else
    let fp := bit v 31 && (isFw w || s.flag Reg.DMA_CH_OWNER_fp c)
    ((s.set Reg.DMA_CH_OWNER_owner c n).put Reg.DMA_CH_OWNER_fp c fp).put Reg.DMA_CH_OWNER_hport c (bit v 30)

/-- `start`, `stop` and `eos` of one write, `stop` first and `start` last (log entry 7). -/
def State.chCmd (s : State) (w : Who) (c v : Nat) : State :=
  let t := if bit v 30 then ran s (execDmaStop w c s) else s
  let t := if bit v 29 then ran t (execEos w c t) else t
  if bit v 31 then ran t (execChannelStart w c t) else t

/-- The bits of `DMA_CH_CFG` that Table DM-4 defines; 15:11 are reserved (R7). -/
def cfgBits (v : Nat) : Nat := bits v 0 11 + bits v 16 16 * 2 ^ 16

/-- The fields of the shadow set. -/
def shadowFlds (b : Nat) : List (Nat × Fld) :=
  match b with
  | 0x910040 => [(0, Reg.DMA_CH_SH_SRC_addr)]
  | 0x910048 => [(0, Reg.DMA_CH_SH_DST_addr)]
  | 0x910050 => [(0, Reg.DMA_CH_SH_LEN_len)]
  | 0x910054 => [(0, Reg.DMA_CH_SH_CFG_cfg)]
  | 0x910058 => [(0, Reg.DMA_CH_SH_STIME_stime)]
  | _ => []

def wDma : Wr := fun w b c v s =>
  if !s.mayWrite w then some s
  else
    match b with
    | 0x904000 =>
      some (if !ownerMay w c then s
        else (s.ranged Reg.DMA_FN_SHARE_max_eng c 1 63 (bits v 8 6)).ranged Reg.DMA_FN_SHARE_weight c 1 255 (bits v 0 8))
    | 0x910000 => some (s.chOwnerWrite w c v)
    | 0x910004 => some (s.chCmd w c v)
    | 0x910060 => some (if bit v 31 then ran s (execShadowArm w c s) else s)
    | 0x910068 => some (ran s (execFifoPush w c v s))
    | _ =>
      if b < 0x910000 then none
      else if !s.chWrite w c then some s
      else if 0x910020 ≤ b ∧ b < 0x910040 then
        if s.chState c = chIdle then (if b = 0x910034 then some (s.set Reg.DMA_CH_CFG_cfg c (cfgBits v)) else none) else some (s.put Reg.DMA_CH_STATUS_refused c true)
      else if 0x910040 ≤ b ∧ b < 0x910060 then
        some ((s.genWrite (shadowFlds b) c (if b = 0x910054 then cfgBits v else v)).set Reg.DMA_CH_SH_CTRL_last_gen c (s.get Reg.DMA_CH_SH_CTRL_shadow_gen c))
      else none

end Sys2Proof.Machine
end

