-- ==== Sys2Proof/Machine/Fault.lean ====
section
/-! DEFINITION. Sys2Proof/Machine/Fault.lean: the commands of FLT, and those of SB that report faults (chapter "Fault
Collection, Whiteout and Supply Loss"; R241, R242). -/

namespace Sys2Proof.Machine

/-! ## Slots (Table PT-9, R242) -/

/-- The `pg_ms` window ends without power good. -/
def execPgTimeout (slot : Nat) (s : State) : Res :=
  if s.get Reg.SBX_seq slot = 1 then
    let s := ((s.put Reg.SB_STATUS_pwren slot false).put Reg.SB_STATUS_pg_fail slot true).slotSeq slot 0
    .next (s.detect (0x080 + slot) slot false)
  else .next s

/-- `SLOT_FAULT_N` has been low, or high, for three samples. The power-off of `fault_off` follows in WHITEOUT too, but where
this detection causes it (R242, R243). -/
def execSlotFault (slot : Nat) (low : Bool) (s : State) : Res :=
  if s.dev == 0 then .next s
  else
    let was := s.flag Reg.SB_STATUS_fault slot
    let s := s.put Reg.SB_STATUS_fault slot low
    if low && !was && s.flag Reg.SB_STATUS_pwren slot && s.get Reg.SBX_seq slot != 1 then
      let t := ((s.put Reg.SB_STATUS_fault_lat slot true).slotHit slot).detect (0x080 + slot) slot false
      if s.dev == dsWhiteout && s.get Reg.SBX_seq slot != 4 then .next (t.slotFaulted slot) else .next t
    else .next s

/-! ## Detections (R477, R485) -/

/-- A source detects a fault. `dead` counts for source 0x1F0 alone: neither copy of the collector's registers passes its
check (R485). -/
def execFaultDetection (src detail : Nat) (dead : Bool) (s : State) : Res :=
  if s.dev == 0 then .next s
  else
    let s := if dead && src == 0x1F0 then s.put Reg.FLT_dead 0 true else s
    .next (s.detect src detail false)

/-- The accessor's writes to FLT are taken: the BMC's in every state but OFF (R483). -/
def State.fltOpen (s : State) (w : Who) : Bool :=
  match w with
  | .bmc => s.dev != 0
  | w => s.mayWrite w

/-- The cause of a source that watches a level persists (R479); `level` gives the level of `PWR_WARN_N`, and of the
temperature against its limit, which no register holds. -/
def State.causeNow (s : State) (src : Nat) (level : Bool) : Bool :=
  if src = 0x010 then s.flag Reg.MC_HB_stall 0
  else if src = 0x072 then !(s.having Reg.FLT_fn 1).isEmpty
  else if 0x080 ≤ src ∧ src < 0x090 then s.flag Reg.SB_STATUS_fault (src - 0x080) && s.flag Reg.SB_STATUS_pwren (src - 0x080)
  else if 0x1C0 ≤ src ∧ src ≤ 0x1C6 then bit (s.get Reg.FLT_RAIL_below_uv 0) (src - 0x1C0)
  else if 0x1C8 ≤ src ∧ src ≤ 0x1CE then bit (s.get Reg.FLT_RAIL_below_warn 0) (src - 0x1C8)
  else if fltLevel src then level
  else false

/-- The DISABLED queues of a choice are quarantined no more. -/
def State.unquar (s : State) (p : Nat → Bool) : State :=
  forEach ((s.having Reg.QX_quar 1).filter (fun q => s.qState q == qsDisabled && p q)) (fun q t =>
    (t.put Reg.QX_quar q false).set Reg.QX_quarc q 0) s

/-- What a clear of `active` lifts (Table FC-2): a queue that is DISABLED, a ring that is disabled with its queues, a
port, an engine. -/
def State.lift (s : State) (src : Nat) : State :=
  match fltScope src with
  | 3 => s.unquar (fun q => s.get Reg.QX_quarc q == 2)
  | 4 =>
    let rs := (s.having Reg.FLT_ring 1).filter (fun r => !s.flag Reg.QM_CRCTX_CTRL_en r && (s.queuesOfRing r).isEmpty)
    forEach rs (fun r t => t.put Reg.FLT_ring r false) (s.unquar (fun q => s.get Reg.QX_quarc q == 3 && rs.contains (s.qRing q)))
  | 6 => s.put Reg.FLT_porth (src - 0x100) false
  | 8 => s.put Reg.FLT_eng (src - 0x120) false
  | _ => s

/-- A write of 1 to `active` of a source (R479); a detection on the same tick stands (R480). -/
def execActiveClear (who : Who) (src : Nat) (level : Bool) (s : State) : Res :=
  if !s.fltOpen who || !s.flag Reg.FLT_SRC_STATUS_active src then .next s
  else if s.get Reg.FLT_at src = s.clk + 1 then .next (s.set Reg.FLT_SRC_STATUS_count src 1)
  else
    let s := s.lift src
    let again := s.causeNow src level
    let s := (s.put Reg.FLT_SRC_STATUS_active src again).put Reg.FLT_SRC_STATUS_cause src again
    .next (s.set Reg.FLT_SRC_STATUS_count src (b2n again))

/-! ## Injection (R489) -/

/-- The PF owns the scope of a source, or the source has none. -/
def State.injOwns (s : State) (h src detail : Nat) : Bool :=
  match fltScope src with
  | 0 => true
  | 3 => inPf h (s.qOwner detail)
  | 4 => inPf h (s.get Reg.QM_CRCTX_CTRL_gfn detail)
  | 5 => inPf h detail
  | _ => false

/-- The reactions of a source include Whiteout. -/
def State.injFatal (s : State) (src : Nat) : Bool :=
  fltClass src == 2 || (fltClass src == 1 &&
    (s.flag Reg.FLT_dead 0 || s.flag Reg.FLT_SRC_CFG_whiteout src || s.flag Reg.FLT_SRC_CFG_failover src))

/-- The injection is allowed. -/
def State.injMay (s : State) (w : Who) (src detail : Nat) : Bool :=
  fltClass src != 3 && src != 0x1F0 &&
  (match w with
   | .pf h => s.injOwns h src detail && (!s.injFatal src || (s.dev == dsIdle && s.get Reg.TWN_STATUS_state 0 == 0))
   | .vf _ => false
   | _ => true)

def execFaultInject (who : Who) (src detail : Nat) (s : State) : Res :=
  if !s.fltOpen who then .next s
  else if s.injMay who src detail then .next (s.detect src detail true)
  else .next (s.put Reg.FLT_CTRL_inj_refused 0 true)

/-! ## The log (R481) -/

def execLogPop (who : Who) (s : State) : Res :=
  if s.fltOpen who then .next { s with fltLog := s.fltLog.drop 1 } else .next s

/-! ## Supplies (R486, R487) -/

/-- A rail has been below its warning level for 200 ns. -/
def execRailWarning (rail : Nat) (s : State) : Res :=
  if s.dev == 0 then .next s
  else .next ((s.set Reg.FLT_RAIL_below_warn 0 (s.get Reg.FLT_RAIL_below_warn 0 ||| 2 ^ rail)).detect (0x1C8 + rail) rail false)

/-- A rail has been below its undervoltage level for 50 ns. -/
def execRailUndervoltage (rail : Nat) (s : State) : Res :=
  if s.dev == 0 then .next s
  else
    let s := s.set Reg.FLT_RAIL_below_warn 0 (s.get Reg.FLT_RAIL_below_warn 0 ||| 2 ^ rail)
    let s := (s.set Reg.FLT_RAIL_below_uv 0 (s.get Reg.FLT_RAIL_below_uv 0 ||| 2 ^ rail)).put Reg.FLT_RAIL_uv_hold 0 true
    .next (s.detect (0x1C0 + rail) rail false)

/-! ## The pins (R433, R490, Table FC-4) -/

/-- A status of a class is active. -/
def State.anyActive (s : State) (f : Nat → Bool) : Bool := (s.having Reg.FLT_SRC_STATUS_active 1).any f

/-- `FAULT_N` is driven low. -/
def State.faultLow (s : State) : Bool :=
  s.dev == dsWhiteout || s.dev == dsAonOnly || (s.dev == dsBooting && decide (s.get Reg.GLB_STATE_boot_step 0 < 2)) ||
  (s.flag Reg.FLT_CFG_fault_n_cont 0 && s.anyActive (fun n => fltClass n == 1))

/-- `BMC_ALERT_N` is held low. -/
def State.alertLow (s : State) : Bool :=
  s.dev == dsWhiteout || s.anyActive (fun n => s.flag Reg.FLT_SRC_CFG_irq_bmc n) ||
  (List.range 32).any (fun c => s.flag Reg.MBX_CH_STATUS_full c && s.get Reg.MBX_CH_CFG_rx c == 0xF001)

end Sys2Proof.Machine
end

