-- ==== Sys2Proof/Machine/Func.lean ====
section
/-! DEFINITION. Sys2Proof/Machine/Func.lean: the commands of functions (chapter "Functions, Interrupts, Resets, QoS and
Freeze/Thaw"). -/

namespace Sys2Proof.Machine

/-! ## Resets (R416 to R419, R483) -/

def execFlr (gfn : Nat) (s : State) : Res :=
  if s.cfgOpen gfn then .next (s.flr gfn) else .next s

/-- The VFs that a disable or a PF reset ends become ABSENT together, once all of them are quiet (R417). -/
def State.vfsLeave (s : State) (h : Nat) : State :=
  let l := (s.having Reg.FN_STATE_state fsResetting).filter (fun g => isVfOf h g && !s.vfPresent g)
  if l.all s.fnQuiet then forEach l (fun g t => t.fnLeave g) s else s

def execFlrQuiesceDone (gfn : Nat) (s : State) : Res :=
  if s.fnState gfn ≠ fsResetting ∨ (s.queuesOf gfn).any (fun q => !(s.entsOf q).isEmpty) then .next s
  else
    let s := forEach (s.queuesOf gfn) (fun q t =>
      if t.qState q = qsDisabled then t else (t.put Reg.QM_QCTX_STATUS_arm_pending q false).disableNow q false) s
    if 2 ≤ gfn ∧ s.vfPresent gfn = false then .next (s.vfsLeave (pfOf gfn)) else .next (s.fnLeave gfn)

def execVfEnable (h : Nat) (s : State) : Res :=
  if s.cfgOpen h && !s.flag Reg.CFG_vf_en h then .next (s.vfOn h) else .next s

def execVfDisable (h : Nat) (s : State) : Res :=
  if s.cfgOpen h && s.flag Reg.CFG_vf_en h then .next (s.vfOff h) else .next s

/-! ## Moderation (R415) -/

def execVmodWrite (who : Who) (pf val : Nat) (s : State) : Res :=
  let g := s.get Reg.FN_VMOD_SEL_gfn pf
  let v := s.get Reg.FN_VMOD_SEL_vec pf
  if !s.mayWrite who || !ownerMay who g || !decide (g < 4098) || !decide (v < s.nvec g) then .next s
  else
    let i := vix g v
    let cnt := bits val 16 8
    let us := bits val 0 10
    let n := s.get Reg.VMOD_tally i
    let s := (s.set Reg.VMOD_cnt i cnt).set Reg.VMOD_us i us
    if n = 0 then .next s
    else if (cnt ≠ 0 ∧ cnt ≤ n) ∨ (cnt = 0 ∧ us = 0) then
      .next (((s.set Reg.VMOD_tally i 0).put Reg.VMOD_timer i false).sendVec g v)
    else .next (s.vmodStart i)

def execVmodTimer (gfn vec : Nat) (s : State) : Res :=
  let i := vix gfn vec
  if s.flag Reg.VMOD_timer i && decide (vec < 2048) && decide (s.get Reg.VMOD_at i + 1000 * s.get Reg.VMOD_us i ≤ s.clk) then
    .next (((s.set Reg.VMOD_tally i 0).put Reg.VMOD_timer i false).sendVec gfn vec)
  else .next s

/-! ## Freeze (R422 to R426) -/

def execFreeze (who : Who) (u gfn : Nat) (s : State) : Res :=
  match migPf who gfn with
  | none => .next s
  | some h =>
    if !s.mayWrite who || !s.migTakes u h then .next s
    else
      let s := s.migSeen u gfn
      let bad := s.freezeBad u h gfn
      if bad ≠ 0 then .next ((s.set Reg.FN_MIG_STATUS_result u bad).set Reg.FN_MIG_STATUS_pf u h)
      else
        let s := (s.migBegin u h gfn 1).set Reg.FN_STATE_state gfn fsFreezing
        .next (forEach (s.queuesOf gfn) (fun q t => t.freezeQueue q) s)

def execFreezeWorkDone (u : Nat) (s : State) : Res :=
  let g := s.get Reg.MGX_gfn u
  let h := s.get Reg.FN_MIG_STATUS_pf u
  if s.get Reg.MGX_op u ≠ 1 ∨ s.flag Reg.FN_MIG_STATUS_busy u = false ∨ s.fnHeld g = true ∨ s.masterStop = true ∨ s.fnState g ≠ fsFreezing ∨
      (s.queuesOf g).any (fun q => !(s.entsOf q).isEmpty) then .next s
  else
    let s := forEach (s.queuesOf g) (fun q t => t.freezeDone q) s
    match s.migKek h with
    | none => .next (s.migEnd u 0x03)
    | some kek =>
      let img := s.image g kek
      let n := img.length
      let s := (s.hostWrite h (s.migBuf u) img false false).set Reg.MGX_op u 2
      .next ((s.hostRead h (s.migBuf u + n - 8) 8 false false .other).set Reg.FN_MIG_ILEN_len u n |>.set Reg.DMA_CH_XFER_bytes (1012 + u) n)

def execFreezeImageDone (u : Nat) (rb : ReadResult) (s : State) : Res :=
  let g := s.get Reg.MGX_gfn u
  if s.get Reg.MGX_op u ≠ 2 ∨ s.flag Reg.FN_MIG_STATUS_busy u = false then .next s
  else
    match rb with
    | .data _ => .next ((s.set Reg.FN_STATE_state g fsFrozen).migEnd u 0x00)
    | e => .next ((s.aer (s.get Reg.FN_MIG_STATUS_pf u) (ReadResult.aerBit e) false []).migEnd u 0x0A)

/-- The unit that is freezing a VF ends. -/
def State.migCancel (s : State) (g : Nat) : State :=
  forEach (List.range 4) (fun v t =>
    if t.flag Reg.FN_MIG_STATUS_busy v && t.get Reg.MGX_gfn v == g then t.migEnd v 0x00 else t) s

def execCancel (who : Who) (u gfn : Nat) (s : State) : Res :=
  match migPf who gfn with
  | none => .next s
  | some h =>
    if !s.mayWrite who || !s.migTakes u h then .next s
    else
    let s := s.migSeen u gfn
    if s.flag Reg.FN_MIG_STATUS_busy u && s.get Reg.MGX_gfn u != gfn then .next (s.set Reg.FN_MIG_STATUS_result u 0x01)
    else if s.flrNow gfn then .next ((s.set Reg.FN_MIG_STATUS_result u 0x08).set Reg.FN_MIG_STATUS_pf u h)
    else if !isVfOf h gfn || !(s.fnState gfn == fsFreezing || s.fnState gfn == fsFrozen) then
      .next ((s.set Reg.FN_MIG_STATUS_result u 0x02).set Reg.FN_MIG_STATUS_pf u h)
    else
      let s := ((s.migCancel gfn).set Reg.FN_STATE_state gfn fsActive).set Reg.FN_MIG_STATUS_result u 0x00
      let s := forEach (s.queuesOf gfn) (fun q t =>
        if t.qState q = qsFrozen then t.thawQueue q (t.get Reg.QX_frz q)
        else if t.qState q = qsActive then t.dueAt q t.clk else t) s
      .next (s.releaseVecs gfn)

/-! ## Thaw (R428, R429) -/

def execThaw (who : Who) (u gfn : Nat) (img : ReadResult) (s : State) : Res :=
  match migPf who gfn with
  | none => .next s
  | some h =>
    if !s.mayWrite who || !s.migTakes u h then .next s
    else if s.flag Reg.FN_MIG_STATUS_busy u then .next (s.set Reg.FN_MIG_STATUS_result u 0x01)
    else
      let s := s.migSeen u gfn
      let early := s.thawBad u h gfn []
      if early ≠ 0x06 then .next ((s.set Reg.FN_MIG_STATUS_result u early).set Reg.FN_MIG_STATUS_pf u h)
      else
        match img with
        | .data bs =>
          let len := leAt bs 8 4
          let s := s.hostRead h (s.migBuf u) (if len ≤ s.get Reg.FN_MIG_BUFLEN_len u then max 64 len else 64) false false .other
          let bad := s.thawBad u h gfn bs
          if bad ≠ 0 then .next ((s.set Reg.FN_MIG_STATUS_result u bad).set Reg.FN_MIG_STATUS_pf u h)
          else
            .next { (((s.migBegin u h gfn 3).set Reg.FN_STATE_state gfn fsThawing).set Reg.DMA_CH_XFER_bytes (1012 + u) len) with migImg := SM.put [] s.migImg u bs }
        | e =>
          let s := (s.hostRead h (s.migBuf u) 64 false false .other).aer h (ReadResult.aerBit e) false []
          .next ((s.set Reg.FN_MIG_STATUS_result u 0x0A).set Reg.FN_MIG_STATUS_pf u h)

def execThawDone (u : Nat) (s : State) : Res :=
  let g := s.get Reg.MGX_gfn u
  match s.migKek (s.get Reg.FN_MIG_STATUS_pf u) with
  | none => if s.get Reg.MGX_op u = 3 then .next ((s.migEnd u 0x03).set Reg.FN_STATE_state g fsActive) else .next s
  | some kek =>
    if s.get Reg.MGX_op u ≠ 3 ∨ s.fnState g ≠ fsThawing then .next s
    else
      let s := s.set Reg.FN_STATE_state g fsActive
      let (ok, s) := s.install g (SM.get [] s.migImg u) kek
      .next (((s.migEnd u 0x00).put Reg.FN_MIG_STATUS_key_fail u (!ok)).releaseVecs g)

/-! ## Dirty-page harvest (R427) -/

def execHarvest (who : Who) (k : Nat) (s : State) : Res :=
  if s.mayWrite who && ownerMay who (s.get Reg.FN_DLOG_CTRL_gfn k) && !s.flag Reg.FN_DLOG_CTRL_busy k then .next (s.harvest k)
  else .next s

def execHarvestDone (k : Nat) (rb : ReadResult) (s : State) : Res :=
  if s.flag Reg.FN_DLOG_CTRL_busy k then
    let s := s.put Reg.FN_DLOG_CTRL_busy k false
    match rb with
    | .data _ => .next s
    | e => .next (s.aer (pfOf (s.get Reg.FN_DLOG_CTRL_gfn k)) (ReadResult.aerBit e) false [])
  else .next s

end Sys2Proof.Machine
end

