-- ==== Sys2Proof/Machine/Mbx.lean ====
section
/-! DEFINITION. Sys2Proof/Machine/Mbx.lean: the commands of MBX but those that reach registers (Device.lean) and those of
the window users (Pmu.lean) (chapter "Mailboxes, Lock Registers and Shared Windows"). -/

namespace Sys2Proof.Machine

/-! ## Register senders and receivers (R431 to R434) -/

/-- A write of the word count `count` to `MBX_CH_COMMIT` of channel `c`. -/
def execMbxCommit (who : Who) (c count : Nat) (s : State) : Res :=
  if !s.busOpen who || !s.mbxReach who c then .next s
  else if s.get Reg.MBX_LOCK_owner c ≠ ownerNo who then .next s.mbxIgnore
  else
    let n := count % 16
    if s.flag Reg.MBX_CH_STATUS_full c then .next ((s.pmu 15 3 1).put Reg.MBX_CH_STATUS_tx_full c true)
    else if n = 0 ∨ 8 < n ∨ s.mbxTakes c (ownerNo who) = false then .next ((s.pmu 15 3 1).put Reg.MBX_CH_STATUS_refused c true)
    else .next (s.mbxTake c (ownerNo who) ((List.range n).map (fun k => s.get Reg.MBX_CH_TX_word (8 * c + k))))

/-- A read of `MBX_CH_RX_POP`: the receiver's pops; any other reads zero. -/
def State.rxPopRead (s : State) (w : Who) (c : Nat) : State × Nat :=
  if s.mbxReach w c && s.get Reg.MBX_CH_CFG_rx c == ownerNo w && s.flag Reg.MBX_CH_STATUS_full c then
    (s.mbxPop c, s.get Reg.MBX_CH_RX_HDR_hdr c)
  else (s, 0)

def execMbxChRxPop (who : Who) (c : Nat) (s : State) : Res := .next (s.answer who 4 (s.rxPopRead who c))

/-! ## Locks (R436, R437) -/

/-- A read of `MBX_LOCK` *n* by an accessor. -/
def State.lockReadBy (s : State) (w : Who) (n : Nat) : State × Nat :=
  if s.mbxReach w n then
    let r := s.lockRead n (ownerNo w)
    (r.2, r.1)
  else (s, 0)

def execMbxLock (who : Who) (n : Nat) (s : State) : Res := .next (s.answer who 4 (s.lockReadBy who n))

/-- A write to `MBX_UNLOCK` by the owner, with its own number, or by a management thread with `force`. -/
def execMbxUnlock (who : Who) (n val : Nat) (s : State) : Res :=
  if !s.busOpen who || !s.mbxReach who n then .next s
  else
    let o := s.get Reg.MBX_LOCK_owner n
    let fw := match who with
      | .fw _ => true
      | _ => false
    if (fw && bit val 31) || (o == ownerNo who && bits val 0 16 == o) then .next (s.lockFree n)
    else .next s.mbxIgnore

/-! ## Configuration (R430, R441, R442) -/

/-- A value of `MBX_CH_CFG` that R430 and R441 allow for a channel. -/
def State.mbxCfgOk (s : State) (c val : Nat) : Bool :=
  let rx := bits val 16 16
  receiverOk rx &&
  (decide (8 ≤ c) ||
    ((rx == 0 || rx == 0xF001 || (decide (0x8000 ≤ rx) && secure s (.fw (rx - 0x8000)) && decide (rx < 0x8040))) &&
      bits val 8 7 &&& 0x3B == 0))

/-- A write to `MBX_CH_CFG`, or with `irq` to `MBX_CH_IRQ`, of a channel. -/
def execMbxCfgWrite (who : Who) (c : Nat) (irq : Bool) (val : Nat) (s : State) : Res :=
  if !s.busOpen who || !s.mbxReach who c then .next s
  else
    let fw := match who with
      | .fw _ => true
      | _ => false
    if !fw || s.flag Reg.MBX_CH_STATUS_full c || s.get Reg.MBX_LOCK_owner c != 0 || (!irq && !s.mbxCfgOk c val) then
      .next (s.put Reg.MBX_CH_STATUS_refused c true)
    else if irq then .next ((s.put Reg.MBX_CH_IRQ_en c (bit val 31)).set Reg.MBX_CH_IRQ_vec c (bits val 0 11))
    else .next (((s.set Reg.MBX_CH_CFG_rx c (bits val 16 16)).put Reg.MBX_CH_CFG_purge c (bit val 15)).set Reg.MBX_CH_CFG_tx_mask c
      (bits val 8 7))

/-! ## Shells (Table MB-4) -/

/-- A mailbox message of the shell can arrive: on an up link, in DATAPATH_IDLE and while a drain runs too, where the
mailboxes work (DEDUCED from R29, log entry 19). -/
def State.shellHeard (s : State) (sl : Nat) : Bool := s.portsOn && s.flag Reg.TLK_STATUS_link sl

/-- POST: answered by RESULT with its `seq`. -/
def State.shellPost (s : State) (sl seq chan : Nat) (words : List Nat) : State :=
  let r := s.mbxPost chan (0xE000 + sl) words
  r.2.sendMbx sl (some seq) (ctlMbx 2 chan r.1 0 0 [])

/-- POP: ignored with another epoch, while FULL is clear, or by a shell that is not the receiver. -/
def State.shellPop (s : State) (sl chan epoch : Nat) : State :=
  if chan < 32 ∧ s.get Reg.MBX_CH_CFG_rx chan = 0xE000 + sl ∧ s.flag Reg.MBX_CH_STATUS_full chan = true ∧
      bits (s.get Reg.MBX_CH_RX_HDR_hdr chan) 4 8 = epoch then s.mbxPop chan
  else s

/-- LOCK of a general lock: answered by LOCK_RSP. -/
def State.shellLock (s : State) (sl n : Nat) : State :=
  if 32 ≤ n ∧ n < 64 then
    let r := s.lockRead n (0xE000 + sl)
    r.2.sendMbx sl none (ctlMbx 6 n 0 0 r.1 [])
  else s.lcnt sl lRxCtlBad

/-- UNLOCK of a general lock that the shell holds. -/
def State.shellUnlock (s : State) (sl n : Nat) : State :=
  if 32 ≤ n ∧ n < 64 then
    (if s.get Reg.MBX_LOCK_owner n = 0xE000 + sl then s.lockFree n else s.mbxIgnore)
  else s.lcnt sl lRxCtlBad

def execPost (slot seq chan : Nat) (words : List Nat) (s : State) : Res :=
  if s.shellHeard slot then .next ((s.lcnt slot lRxCtl).shellPost slot seq chan words) else .next s

def execPop (slot chan epoch : Nat) (s : State) : Res :=
  if s.shellHeard slot then .next ((s.lcnt slot lRxCtl).shellPop slot chan epoch) else .next s

def execLock (slot n : Nat) (s : State) : Res :=
  if s.shellHeard slot then .next ((s.lcnt slot lRxCtl).shellLock slot n) else .next s

def execUnlock (slot n : Nat) (s : State) : Res :=
  if s.shellHeard slot then .next ((s.lcnt slot lRxCtl).shellUnlock slot n) else .next s

/-- A received CTL MBX body (Table MB-4); another `op` is an undefined request. -/
def State.shellMbx (s : State) (sl seq : Nat) (b : List Byte) : State :=
  let op := byteAt b 0
  let c := byteAt b 1
  if op = 1 then s.shellPost sl seq c ((List.range (byteAt b 3)).map (fun k => beAt b (8 + 4 * k) 4))
  else if op = 4 then s.shellPop sl c (bits (beAt b 4 4) 4 8)
  else if op = 5 then s.shellLock sl c
  else if op = 7 then s.shellUnlock sl c
  else s.lcnt sl lRxCtlBad

/-! ## PF–VF mailboxes (R444, R445) -/

/-- The VF's guest sends. -/
def isGuest (w : Who) (g : Nat) : Bool := w == .vf g

/-- The VF's PF, or firmware acting for it, sends. -/
def isPfOf (w : Who) (g : Nat) : Bool :=
  match w with
  | .pf h => isVfOf h g
  | .fw _ => decide (2 ≤ g)
  | _ => false

/-- A write of the count to `UP_COMMIT` of a VF's page. -/
def execUpCommit (who : Who) (gfn count : Nat) (s : State) : Res :=
  if !s.busOpen who || !s.fnExists gfn then .next s
  else if !isGuest who gfn then .next s.mbxIgnore
  else
    let n := count % 16
    if s.flag Reg.PVU_full gfn then .next ((s.pmu 15 3 1).put Reg.PVU_txfull gfn true)
    else if n = 0 ∨ 8 < n then .next (s.pmu 15 3 1)
    else
      let s := (s.copyWords Reg.PVU_tx Reg.PVU_data gfn n).set Reg.PVU_hdr gfn (msgHdr (gfn + 1) (s.get Reg.PVU_epoch gfn) n)
      .next (((((s.pmu 15 1 1).put Reg.PVU_full gfn true).put Reg.PVU_rec gfn true).pvPend gfn true).pvUpRing gfn)

/-- A write of the count to `DN_COMMIT` of a VF's page. -/
def execDnCommit (who : Who) (gfn count : Nat) (s : State) : Res :=
  if !s.busOpen who || !s.fnExists gfn then .next s
  else if !isPfOf who gfn then .next s.mbxIgnore
  else
    let n := count % 16
    if s.flag Reg.PVD_full gfn then .next ((s.pmu 15 3 1).put Reg.PVD_txfull gfn true)
    else if n = 0 ∨ 8 < n then .next (s.pmu 15 3 1)
    else
      let s := (s.copyWords Reg.PVD_tx Reg.PVD_data gfn n).set Reg.PVD_hdr gfn
        (msgHdr (pfOf gfn + 1) (s.get Reg.PVD_epoch gfn) n)
      .next ((((s.pmu 15 1 1).put Reg.PVD_full gfn true).put Reg.PVD_rec gfn true).pvDnRing gfn)

/-- A read of `UP_POP`. -/
def State.upPopRead (s : State) (w : Who) (g : Nat) : State × Nat :=
  if isPfOf w g && s.flag Reg.PVU_full g then ((s.pvUpEmpty g).pmu 15 2 1, s.get Reg.PVU_hdr g) else (s, 0)

/-- A read of `DN_POP`. -/
def State.dnPopRead (s : State) (w : Who) (g : Nat) : State × Nat :=
  if isGuest w g && s.flag Reg.PVD_full g then ((s.pvDnEmpty g).pmu 15 2 1, s.get Reg.PVD_hdr g) else (s, 0)

def execUpPop (who : Who) (gfn : Nat) (s : State) : Res := .next (s.answer who 4 (s.upPopRead who gfn))
def execDnPop (who : Who) (gfn : Nat) (s : State) : Res := .next (s.answer who 4 (s.dnPopRead who gfn))

/-! ## The BMC (Tables MB-6 and MB-7; control messages of DSP0236, log entry 5) -/

/-- A vendor-defined response: command, status, data. -/
def vdmRsp (cmd status : Nat) (data : List Byte) : List Byte :=
  [0x7E#8, 0x1B#8, 0x7E#8, BitVec.ofNat 8 cmd, BitVec.ofNat 8 status] ++ data

/-- MCTP reaches the device in every state but OFF. -/
def State.bmcHeard (s : State) : Bool := s.dev != 0

/-- MBX_POST: refused while the CORE domain does not run. -/
def execMbxPost (chan : Nat) (words : List Nat) (s : State) : Res :=
  if !s.bmcHeard then .next s
  else if !s.busOpen .bmc then .next (s.emit (.mctp (vdmRsp 3 2 [])))
  else
    let r := s.mbxPost chan 0xF001 words
    .next (r.2.emit (.mctp (vdmRsp 3 r.1 [])))

/-- A control response: command, completion code, data. -/
def mctpRsp (cmd cc : Nat) (data : List Byte) : List Byte :=
  [0x00#8, 0x00#8, BitVec.ofNat 8 cmd, BitVec.ofNat 8 cc] ++ data

/-- Set Endpoint ID, with operation 0 set or 1 force; it counts as a reset of the BMC as a master (Table MB-5). -/
def execSetEndpointId (op eid : Nat) (s : State) : Res :=
  if !s.bmcHeard then .next s
  else if 2 ≤ op % 4 ∨ eid = 0 ∨ eid = 255 then .next (s.emit (.mctp (mctpRsp 1 2 [])))
  else .next (((s.set Reg.MCTP_eid 0 eid).mbxReset 0xF001).emit (.mctp (mctpRsp 1 0 [0x00#8, BitVec.ofNat 8 eid, 0x00#8])))

def execGetEndpointId (s : State) : Res :=
  if !s.bmcHeard then .next s
  else .next (s.emit (.mctp (mctpRsp 2 0 [BitVec.ofNat 8 (s.get Reg.MCTP_eid 0), 0x00#8, 0x00#8])))

/-- Version 1.3 for the base and control messages; any other type is not supported. -/
def execGetMctpVersionSupport (typ : Nat) (s : State) : Res :=
  if !s.bmcHeard then .next s
  else if typ = 0xFF ∨ typ = 0x00 then .next (s.emit (.mctp (mctpRsp 4 0 [0x01#8, 0xF1#8, 0xF3#8, 0xFF#8, 0x00#8])))
  else .next (s.emit (.mctp (mctpRsp 4 0x80 [])))

def execGetMessageTypeSupport (s : State) : Res :=
  if !s.bmcHeard then .next s else .next (s.emit (.mctp (mctpRsp 5 0 [0x02#8, 0x00#8, 0x7E#8])))

/-- One vendor: the PCI vendor ID 0x1B7E. -/
def execGetVendorDefinedMessageSupport (sel : Nat) (s : State) : Res :=
  if !s.bmcHeard then .next s
  else if sel = 0 then .next (s.emit (.mctp (mctpRsp 6 0 [0xFF#8, 0x00#8, 0x1B#8, 0x7E#8, 0x00#8, 0x00#8])))
  else .next (s.emit (.mctp (mctpRsp 6 2 [])))

/-! ## Shared windows (R447) -/

/-- The windows a sender may configure: a PF its own, firmware every one. -/
def winMay (w : Who) (pf : Nat) : Bool :=
  match w with
  | .pf h => h == pf
  | .fw _ => true
  | _ => false

/-- A configuration keeps R447; the 4-bit field holds no `blk` above 15 and the 18-bit one no `nblk` of 262,144 (log entry
18). -/
def winOk (base blk nblk retry user : Nat) : Bool :=
  decide (12 ≤ blk ∧ blk ≤ 20) && decide (1 ≤ nblk ∧ nblk * 2 ^ blk ≤ 2 ^ 30) && decide (1 ≤ retry) && decide (user ≤ 2) &&
  base * 4096 % 2 ^ blk == 0

/-- A write to `MBX_WIN_CFG` of window `w` of a PF. -/
def execWinCfgWrite (who : Who) (pf w val : Nat) (s : State) : Res :=
  let i := 16 * pf + w
  if !s.mayWrite who || !winMay who pf then .next s
  else
    let s := if bit val 62 then s.put Reg.MBX_WIN_CFG_refused i false else s
    let blk := bits val 32 4
    let nblk := bits val 0 18
    let retry := bits val 40 10
    let user := bits val 36 4
    if s.flag Reg.MBX_WIN_CFG_en i then
      if !bit val 63 then .next ((s.put Reg.MBX_WIN_CFG_en i false).put Reg.WNX_wait i false)
      else .next (s.put Reg.MBX_WIN_CFG_refused i true)
    else if !winOk (s.get Reg.MBX_WIN_BASE_base i) blk nblk retry user then
      .next (s.put Reg.MBX_WIN_CFG_refused i true)
    else
      let s := (((s.set Reg.MBX_WIN_CFG_retry_us i retry).set Reg.MBX_WIN_CFG_user i user).set Reg.MBX_WIN_CFG_blk i blk).set
        Reg.MBX_WIN_CFG_nblk i nblk
      .next (if bit val 63 then (s.put Reg.MBX_WIN_CFG_en i true).set Reg.WNX_seq i 0 else s)

end Sys2Proof.Machine
end

