-- ==== Sys2Proof/Machine/PmuOps.lean ====
section
/-! DEFINITION. Sys2Proof/Machine/PmuOps.lean: strobes, dumps and the windows of device users (chapter "Counters, Slot
Accounting and Dumps"; R447, R448). -/

namespace Sys2Proof.Machine

/-! ## Items of a dump (Table PM-5) -/

def State.blockItems (s : State) : List (List Byte) :=
  (List.range 160).map (fun i => leBytes 8 (s.get Reg.PMU_BLK_CTR_value i))

/-- Cycles of a core: those of its cluster's clock (R493). -/
def State.coreCycles (s : State) (c : Nat) : Nat := s.get Reg.PMX_cyc (c / 16) / 5

def State.coreItems (s : State) : List (List Byte) :=
  (List.range 256).map (fun c => leBytes 8 (s.coreCycles c) ++
    (List.range 8).flatMap (fun j => leBytes 8 (s.get Reg.PMU_CORE_CTR_value (8 * c + j))))

def State.slotItems (s : State) : List (List Byte) :=
  (List.range 4160).map (fun t =>
    leBytes 8 (s.get Reg.PMU_SLOT_RETIRED_retired t) ++ leBytes 8 (s.get Reg.PMU_SLOT_WASTED_wasted t) ++
    leBytes 8 (s.get Reg.PMU_SLOT_FRONT_front t) ++ leBytes 8 (s.get Reg.PMU_SLOT_BACK_back t))

def State.portItems (s : State) : List (List Byte) :=
  extPorts.map (fun id => (List.range 32).flatMap (fun k => leBytes 8 (s.cntVal id k)))

/-- A section where `set` selects it. -/
def dumpSec (set_ b ty : Nat) (items : List (List Byte)) : List (Nat × Nat × List (List Byte)) :=
  if bit set_ b then [(ty, 0, items)] else []

/-- The window of the dumps: its index. -/
def State.dumpWin (s : State) : Nat := 16 * s.get Reg.PMU_DUMP_CFG_pf 0 + s.get Reg.PMU_DUMP_CFG_win 0

/-- The sections of a dump (R499): its head, what `set` selects, its end. -/
def State.dumpSecs (s : State) (cause : Nat) : List (Nat × Nat × List (List Byte)) :=
  let set_ := s.get Reg.PMU_DUMP_CFG_set 0
  let head := leBytes 8 (s.get Reg.PMU_SNAP_TS_ts 0) ++ leBytes 1 cause ++ leBytes 1 set_ ++ leBytes 2 0 ++
    leBytes 4 (s.get Reg.PMX_skips 0)
  [(1, 0, [head])] ++ dumpSec set_ 0 2 s.blockItems ++ dumpSec set_ 1 3 s.coreItems ++ dumpSec set_ 2 4 s.slotItems ++
  dumpSec set_ 3 5 s.portItems ++ [(7, 0, [[]])]

/-- A strobe (R496, R497): 1 period, 2 trigger, 3 register. -/
def State.strobe (s : State) (cause : Nat) : State :=
  if !s.flag Reg.PMU_DUMP_CFG_en 0 || s.masterStop then s
  else if s.get Reg.PMX_tick 0 == s.clk + 1 then s
  else if !s.dump.isEmpty || !s.flag Reg.MBX_WIN_CFG_en s.dumpWin then
    (s.inc Reg.PMU_SKIP_count 0).set Reg.PMX_skips 0 (min 0xFFFFFFFF (s.get Reg.PMX_skips 0 + 1))
  else
    let s := (((s.set Reg.PMU_SNAP_TS_ts 0 s.now).inc Reg.PMX_seq 0).put Reg.PMX_gap 0 (s.get Reg.PMX_skips 0 != 0)).set
      Reg.PMX_tick 0 (s.clk + 1)
    let d := s.dumpSecs cause
    { ((s.set Reg.PMX_skips 0 0).put Reg.PMU_DUMP_CFG_busy 0 true) with dump := d }

/-- Begin the periodic strobes at `PMU_DUMP_START`, or at once where that is not in the future (R498). -/
def State.startPeriod (s : State) : State :=
  let st := s.get Reg.PMU_DUMP_START_start 0
  ((s.set Reg.PMX_per 0 (s.get Reg.PMU_DUMP_PERIOD_period 0)).set Reg.PMX_base 0 st).set Reg.PMX_next 0
    (if reached48 s.now st then s.now else st)

/-- The next of the times `PMU_DUMP_START` + k · period that is still to come (R498). -/
def State.nextStrobe (s : State) (us : Nat) : Nat :=
  let d := (s.now + 2 ^ 64 - s.get Reg.PMX_base 0) % 2 ^ 64
  s.now + (1000 * us - d % (1000 * us))

/-! ## Records and blocks (Table PM-4) -/

/-- A record's header. -/
def recHead (ty seq first len : Nat) (gap : Bool) : List Byte :=
  leBytes 1 ty ++ leBytes 1 (b2n gap) ++ leBytes 2 0 ++ leBytes 4 len ++ leBytes 4 seq ++ leBytes 4 first

/-- Whole items that fit beside a record's header in the room left. -/
def fitItems (room : Nat) (items : List (List Byte)) : Nat :=
  match items with
  | [] => 0
  | i :: _ => if i.length = 0 then (if 16 ≤ room then 1 else 0) else min items.length ((room - 16) / i.length)

/-- Fill a block with records as far as they fit: the bytes, and what is left. The block ends after DUMP_END. -/
def fillBlock (seq : Nat) (gap : Bool) : Nat → List (Nat × Nat × List (List Byte)) → List Byte × List (Nat × Nat × List (List Byte))
  | _, [] => ([], [])
  | room, (ty, first, items) :: rest =>
    let n := if room < 16 then 0 else fitItems room items
    if n = 0 then ([], (ty, first, items) :: rest)
    else
      let body := (items.take n).flatMap id
      let rec_ := recHead ty seq first (16 + body.length) gap ++ body
      if n < items.length then (rec_, (ty, first + n, items.drop n) :: rest)
      else
        let r := fillBlock seq gap (room - rec_.length) rest
        (rec_ ++ r.1, r.2)

/-- The sampler half that is dumped next, and its records. -/
def State.dumpHalf (s : State) : Option Nat :=
  let h := s.get Reg.SCH_SMP_STATUS_half 0
  if s.flag Reg.SMP_full (1 - h) then some (1 - h) else if s.flag Reg.SMP_full h then some h else none

/-- A half is written out: it is empty again, and the sampler goes on in it where it waited for it. -/
def State.halfDone (s : State) (h : Nat) : State :=
  let s := if s.get Reg.SCH_SMP_STATUS_half 0 = h then s.set Reg.SCH_SMP_STATUS_fill 0 0 else s
  { s.put Reg.SMP_full h false with samples := SM.put [] s.samples h [] }

/-- What the PMU central reader writes into a block with this much room: the payload, and the state after (R499). -/
def State.pmuPayload (s : State) (room : Nat) : Option (List Byte × State) :=
  let seq := s.get Reg.PMX_seq 0
  if !s.dump.isEmpty then
    let r := fillBlock seq (s.flag Reg.PMX_gap 0) room s.dump
    some (r.1, { (if r.2.isEmpty then s.put Reg.PMU_DUMP_CFG_busy 0 false else s) with dump := r.2 })
  else
    match s.dumpHalf with
    | none => none
    | some h =>
      let items := SM.get [] s.samples h
      let gap := items.any (fun r => bit (byteAt r 3) 3)
      let first := s.get Reg.PMX_smp 0
      let r := fillBlock seq gap room [(6, first, items.drop first)]
      match r.2 with
      | (_, f, _) :: _ => some (r.1, s.set Reg.PMX_smp 0 f)
      | [] => some (r.1, (s.halfDone h).set Reg.PMX_smp 0 0)

/-! ## Windows (R447, R448) -/

/-- Address of the block at the cursor. -/
def State.winBlock (s : State) (i : Nat) : Nat :=
  s.get Reg.MBX_WIN_BASE_base i * 4096 + s.get Reg.MBX_WIN_STATUS_cursor i * 2 ^ s.get Reg.MBX_WIN_CFG_blk i

/-- Hand a block back: payload, header bytes 8 to 63, and last bytes 0 to 7; the cursor advances. -/
def State.winHand (s : State) (pf i : Nat) (pay : List Byte) : State :=
  let a := s.winBlock i
  let seq := s.get Reg.WNX_seq i
  let hd := leBytes 4 seq ++ leBytes 2 (s.get Reg.MBX_WIN_CFG_user i) ++ leBytes 2 0 ++ leBytes 6 s.now ++ List.replicate 42 0#8
  let s := (s.hostWrite pf (a + 64) pay false false).hostWrite pf (a + 8) hd false false
  let s := s.hostWrite pf a (leBytes 4 0 ++ leBytes 4 pay.length) false false
  let c := s.get Reg.MBX_WIN_STATUS_cursor i + 1
  let n := s.get Reg.MBX_WIN_CFG_nblk i
  (s.set Reg.MBX_WIN_STATUS_cursor i (if n ≤ c then 0 else c)).set Reg.WNX_seq i (seq + 1)

/-- The user of the window has a block to write: user 1 what it dumps into this window, user 2 what firmware gives. -/
def State.winPay (s : State) (i : Nat) (pay : List Byte) : Option (List Byte × State) :=
  let room := 2 ^ s.get Reg.MBX_WIN_CFG_blk i - 64
  match s.get Reg.MBX_WIN_CFG_user i with
  | 1 => if i = s.dumpWin then s.pmuPayload room else none
  | 2 => some (pay.take room, s)
  | _ => none

/-- The user reads the header of the block at the cursor, and writes the block where it is device-owned (R448). -/
def State.winTake (s : State) (pf i : Nat) (hdr : ReadResult) (pay : List Byte) : State :=
  if !s.flag Reg.MBX_WIN_CFG_en i || !s.portsOn || s.masterStop || s.fnHeld pf || s.fnState pf == fsResetting then s
  else
    match s.winPay i pay with
    | none => s
    | some (bs, after) =>
      let rd := fun (t : State) => t.hostRead pf (t.winBlock i) 64 false false .other
      match hdr with
      | .data h =>
        if bit (byteAt h 0) 0 then ((rd after).put Reg.WNX_wait i false).winHand pf i bs
        else (((rd s).inc Reg.MBX_WIN_STATUS_stalls i).put Reg.WNX_wait i true).set Reg.WNX_at i s.clk
      | e => (rd s).aer pf (ReadResult.aerBit e) false []

end Sys2Proof.Machine
end

