-- ==== Sys2Proof/Machine/Pmu.lean ====
section
/-! DEFINITION. Sys2Proof/Machine/Pmu.lean: the commands of the PMU and of the windows' users (chapter "Counters, Slot
Accounting and Dumps"; R448). -/

namespace Sys2Proof.Machine

/-- A write of 1 to `PMU_SNAP_CTRL.go`. -/
def execSnapGo (who : Who) (s : State) : Res := if s.mayWrite who then .next (s.strobe 3) else .next s

/-- A periodic strobe time is reached (R285); the sampler hands over what it has (R275), and the next strobe is one period
on. -/
def State.periodic (s : State) : State :=
  let p := s.get Reg.PMX_per 0
  if s.flag Reg.PMU_DUMP_CFG_en 0 && p != 0 && reached48 s.now (s.get Reg.PMX_next 0) && s.portsOn then
    let s := if s.get Reg.SCH_SMP_STATUS_fill 0 = 0 ∨ s.flag Reg.SMP_full (s.get Reg.SCH_SMP_STATUS_half 0) = true then s else s.smpHand
    let s := s.set Reg.PMX_next 0 (s.nextStrobe (s.get Reg.PMU_DUMP_PERIOD_period 0))
    (s.set Reg.PMX_per 0 (s.get Reg.PMU_DUMP_PERIOD_period 0)).strobe 1
  else s

def execPeriodicStrobe (s : State) : Res := .next s.periodic

/-- A write of `en` 1 to `PMU_DUMP_CFG`. -/
def execDumpEnable (who : Who) (val : Nat) (s : State) : Res :=
  if !s.mayWrite who then .next s
  else
    let w := 16 * bits val 8 1 + bits val 4 4
    if s.flag Reg.MBX_WIN_CFG_en w && s.get Reg.MBX_WIN_CFG_user w == 1 then
      let was := s.flag Reg.PMU_DUMP_CFG_en 0
      let s := ((s.set Reg.PMU_DUMP_CFG_pf 0 (bits val 8 1)).set Reg.PMU_DUMP_CFG_win 0 (bits val 4 4)).set Reg.PMU_DUMP_CFG_set 0 (bits val 0 4)
      .next (if was then s
        else (((s.put Reg.PMU_DUMP_CFG_en 0 true).set Reg.PMX_seq 0 0).set Reg.PMX_skips 0 0).startPeriod)
    else .next (s.put Reg.PMU_DUMP_CFG_refused 0 true)

/-- The threads whose slot counters a bit of `PMU_SLOT_CLR` names. -/
def slotGroup (k : Nat) : List Nat :=
  if k < 16 then (List.range 256).map (fun i => 256 * k + i) else (List.range 64).map (fun i => 4096 + i)

def execSlotClear (who : Who) (mask : Nat) (s : State) : Res :=
  if !s.mayWrite who then .next s
  else
    .next (forEach (((List.range 17).filter (fun k => bit mask k)).flatMap slotGroup) (fun t u =>
      (((u.set Reg.PMU_SLOT_RETIRED_retired t 0).set Reg.PMU_SLOT_WASTED_wasted t 0).set Reg.PMU_SLOT_FRONT_front t 0).set
        Reg.PMU_SLOT_BACK_back t 0) s)

/-- The user of a window takes its next block; `pay` is what the firmware service gives it to write. -/
def execWinBlockTake (pf w : Nat) (hdr : ReadResult) (pay : List Byte) (s : State) : Res :=
  if s.flag Reg.WNX_wait (16 * pf + w) then .next s else .next (s.winTake pf (16 * pf + w) hdr pay)

/-- `retry_us` after the block was found host-owned. -/
def execWinRetry (pf w : Nat) (hdr : ReadResult) (pay : List Byte) (s : State) : Res :=
  let i := 16 * pf + w
  if s.flag Reg.WNX_wait i && decide (s.get Reg.WNX_at i + 1000 * s.get Reg.MBX_WIN_CFG_retry_us i ≤ s.clk) then
    .next (s.winTake pf i hdr pay)
  else .next s

end Sys2Proof.Machine
end

