-- ==== Sys2Proof/Machine/Twin.lean ====
section
/-! DEFINITION. Sys2Proof/Machine/Twin.lean: the commands of the twin pair (chapter "Twin Pairing and Failover"). -/

namespace Sys2Proof.Machine

/-! ## Pairing (R454, R455, R474) -/

/-- The HELLO of this device. -/
def State.hello (s : State) : State :=
  s.twinSend (.hello (s.flag Reg.TWN_STATUS_strap 0) (s.get Reg.GLB_ID_stepping 0) (s.get Reg.GLB_PROFILE_profile 0)
    (s.get Reg.TWX_prev 0 == twWidowed) (s.dev == dsIdle) (s.flag Reg.TWN_STATUS_key_ok 0))

def execPair (who : Who) (s : State) : Res :=
  if !s.mayWrite who || !s.twinRuns || !(s.twin == twUnpaired || s.twin == twWidowed) then .next s
  else
    let s := (((s.set Reg.TWX_prev 0 s.twin).setTwin twPairing).put Reg.PAD_alive 0 true).set Reg.TWX_at 0 s.clk
    let s := forEach [Reg.TWX_txctr, Reg.TWX_rxctr, Reg.TWX_miss] (fun f t => t.set f 0 0) s
    .next s.hello

/-- Reason for which a HELLO refuses pairing, in the order of R454; 0 where it is accepted. While a profile change is in
progress the profile judged is the one still in force, and the change completes after the pairing (DESIGN CHOICE, log entry
47). -/
def State.helloBad (s : State) (strap : Bool) (rev profile : Nat) (widowed idle gmac : Bool) : Nat :=
  let mine := s.get Reg.TWX_prev 0 == twWidowed
  if (mine && widowed) || (!mine && !widowed && strap == s.flag Reg.TWN_STATUS_strap 0) then 1
  else if profile ≠ s.get Reg.GLB_PROFILE_profile 0 then 2
  else if rev ≠ s.get Reg.GLB_ID_stepping 0 then 3
  else if !s.flag Reg.TWN_STATUS_key_ok 0 || !gmac then 4
  else if !mine && !widowed && !(s.dev == dsIdle && idle) then 6
  else 0

/-- A HELLO is accepted: roles by R455, SYNCING, and the tenant links retrain (R471). -/
def State.helloTake (s : State) (widowed : Bool) : State :=
  let s := s.hello
  let prim := if s.get Reg.TWX_prev 0 = twWidowed then true
    else if widowed then false else s.flag Reg.TWN_STATUS_strap 0
  let s := s.put Reg.TWN_STATUS_primary 0 prim
  (forEach (List.range 16) (fun n t => t.tlinkDown n) s).startSync twSyncing

def execHello (ctr : Nat) (strap : Bool) (rev profile : Nat) (widowed idle gmac : Bool) (s : State) : Res :=
  if !s.flag Reg.TWN_STATUS_link 0 || s.twin != twPairing then .next s
  else if ctr % 2 ^ 64 ≤ s.get Reg.TWX_rxctr 0 then .next (s.inc Reg.TWN_AUTH_FAIL_count 0)
  else
    let s := s.set Reg.TWX_rxctr 0 ctr
    let bad := s.helloBad strap rev profile widowed idle gmac
    if bad = 0 then .next (s.helloTake widowed) else .next (s.pairRefuse bad)

/-- 100 ms pass in PAIRING without a valid HELLO. -/
def execPairTimeout (s : State) : Res :=
  if s.twin = twPairing ∧ s.get Reg.TWX_at 0 + 100000000 ≤ s.clk then .next (s.pairRefuse 5) else .next s

def execUnpair (who : Who) (s : State) : Res :=
  if !s.mayWrite who || s.twin == twUnpaired then .next s
  else if s.dev ≠ dsIdle then .next (s.twinRefuse 6)
  else .next (if s.flag Reg.TWX_unp 0 then s else (s.put Reg.TWX_unp 0 true).set Reg.TWX_at 0 s.clk)

/-- The device leaves the pair: its copies go, and its tenant links return to their own rate (R474). -/
def State.unpairNow (s : State) : State :=
  let s := ((s.twinSend (.goodbye true)).put Reg.TWX_unp 0 false).setTwin twUnpaired
  forEach (List.range 16) (fun n t => t.tlinkDown n) s.dropCopies.twinRelease

/-- The unpair goes through: 1 ms has passed since it (`late`), or every outstanding record is acknowledged. -/
def execUnpairGoodbye (late : Bool) (s : State) : Res :=
  if s.flag Reg.TWX_unp 0 && (if late then decide (s.get Reg.TWX_at 0 + 1000000 ≤ s.clk) else s.twinWait.isEmpty) then .next s.unpairNow
  else .next s

/-! ## Resynchronisation (Table TW-3, R470) -/

/-- Heartbeats have been received for 100 µs (Table TW-3). -/
def State.heard100 (s : State) : Bool := s.get Reg.TWX_hb 0 != 0 && decide (s.get Reg.TWX_hb 0 + 99999 ≤ s.clk)

def execResync (who : Who) (s : State) : Res :=
  if s.mayWrite who && s.twin == twDegraded && s.flag Reg.TWN_STATUS_link 0 && s.heard100 then .next (s.startSync twResync)
  else .next s

/-- 100 µs of heartbeats have been received. -/
def execResyncStart (s : State) : Res :=
  if s.twin == twDegraded && s.flag Reg.TWN_STATUS_link 0 && s.heard100 && s.flag Reg.TWN_CTRL_auto_resync 0 then
    .next (s.startSync twResync)
  else .next s

/-! ## Liveness (R451, R461) -/

/-- A heartbeat is sent; `alive` says what `TWIN_ALIVE_IN` shows. -/
def execHeartbeatSend (alive : Bool) (s : State) : Res :=
  let s := s.put Reg.TWN_STATUS_alive 0 alive
  if s.twinRuns && s.paired then .next (s.twinSend .heartbeat) else .next s

def execTwinHeartbeat (ctr : Nat) (auth : Bool) (s : State) : Res :=
  .next (s.twinRx ctr auth (fun t =>
    if t.twin = twDegraded ∧ t.get Reg.TWX_hb 0 = 0 then t.set Reg.TWX_hb 0 (t.clk + 1) else t))

/-- A miss; the eighth in a row brings the judgement. -/
def execHeartbeatMiss (alive : Bool) (wbs cons : List Nat) (s : State) : Res :=
  let s := s.put Reg.TWN_STATUS_alive 0 alive
  if !s.twinRuns || !s.paired then .next s
  else
    let n := min 8 (s.get Reg.TWX_miss 0 + 1)
    let s := (((s.pmu 16 3 1).inc Reg.TWN_HB_MISS_count 0).set Reg.TWX_miss 0 n).set Reg.TWX_hb 0 0
    if n < 8 then .next s
    else if alive then .next s.degrade
    else .next (s.twinLost wbs cons)

/-- Valid frames arrive, and `TWIN_ALIVE_IN` has shown no edge for 100 µs. -/
def execAliveWireFault (s : State) : Res :=
  if s.twinRuns && s.paired then
    let s := (s.put Reg.TWN_STATUS_alive 0 false).detect 0x0F2 0 false
    if s.dev = dsWhiteout then .next s else .next s.degrade
  else .next s

/-! ## Mirror and copies (R459, R460, R470) -/

/-- Apply records and acknowledge the frame. A broken copy takes the pair to RESYNC. -/
def State.mirApply (s : State) (ctr : Nat) (recs : List MirRec) : State :=
  if s.twin = twHealthy ∨ s.syncing = true then
    let s := forEach recs (fun r t => t.mirRec r) s
    if s.twinQ.any (fun e => e.2.broken) && s.twin == twHealthy then s.startSync twResync
    else s.twinSend (.ack ctr)
  else s

def execMirror (ctr : Nat) (auth : Bool) (recs : List MirRec) (s : State) : Res :=
  .next (s.twinRx ctr auth (fun t => t.mirApply ctr recs))

def execAck (ctr : Nat) (auth : Bool) (upTo : Nat) (s : State) : Res := .next (s.twinRx ctr auth (fun t => (t.pmu 16 2 1).twinAck upTo))

/-- Copies of the partner arrive; with `final` its report that every copy of this device's partner is applied. A pair that
was HEALTHY or DEGRADED enters RESYNC with the partner. -/
def State.syncApply (s : State) (ctr : Nat) (recs : List MirRec) (final : Bool) : State :=
  let s := if s.syncing then s else s.startSync twResync
  let s := forEach recs (fun r t => t.syncRec r) s
  (if final then s.put Reg.TWX_theirs 0 true else s).twinSend (.ack ctr)

def execSync (ctr : Nat) (auth : Bool) (recs : List MirRec) (final : Bool) (s : State) : Res :=
  .next (s.twinRx ctr auth (fun t => t.syncApply ctr recs final))

/-- Both devices have reported; `skip` names the queues the partner could not hold (R458). -/
def execSyncDone (skip : List Nat) (s : State) : Res :=
  if s.syncing && s.flag Reg.TWX_mine 0 && s.flag Reg.TWX_theirs 0 then
    let s := forEach (skip.eraseDups.filter s.qmask) (fun q t =>
      (t.set Reg.TWN_QMASK_mir (q / 32) (setBits (t.get Reg.TWN_QMASK_mir (q / 32)) (q % 32) 1 0)).inc Reg.TWN_SYNC_SKIP_count 0) s
    .next (if s.twinQ.any (fun e => e.2.broken) then s.startSync twResync else s.setTwin twHealthy)
  else .next s

/-- GOODBYE: the partner is lost at once (R462), or leaves the pair (R474). -/
def execGoodbye (ctr : Nat) (auth unpair : Bool) (wbs cons : List Nat) (s : State) : Res :=
  .next (s.twinRx ctr auth (fun t =>
    if unpair then (t.setTwin twWidowed).dropCopies.twinRelease else t.twinLost wbs cons))

/-! ## Other frames -/

/-- MBX: a post of the partner, answered with its result; a result settles nothing here, since no master of this device
posts to the partner (Table MB-3). -/
def execTwinMbx (ctr : Nat) (auth res : Bool) (chan : Nat) (words : List Nat) (_code : Nat) (s : State) : Res :=
  .next (s.twinRx ctr auth (fun t =>
    if res then t
    else
      let r := t.mbxPost chan 0xF000 words
      r.2.twinSend (.mbxResult chan r.1)))

/-- TSYNC: its first bit crossed the balls `ago` quarter nanoseconds before this command (R220, log entry 22). -/
def execTsync (ctr : Nat) (auth : Bool) (ago : Nat) (s : State) : Res :=
  .next (s.twinRx ctr auth (fun t => t.set Reg.TWX_tsync 0 (4 * t.now - ago)))

/-! ## The link key (R453) -/

/-- The accessor may load or clear the link key: a secure management thread or the BMC. -/
def State.linkMay (s : State) (w : Who) : Bool :=
  s.busOpen w && (match w with
    | .fw m => secure s (.fw m)
    | .bmc => true
    | _ => false)

def execTwnKeyLoad (who : Who) (s : State) : Res :=
  if s.linkMay who then
    let key := s.area Reg.TWN_KEY_STAGE_byte 0 32
    .next (((s.wr baseLink key).put Reg.TWN_STATUS_key_ok 0 true).putArea Reg.TWN_KEY_STAGE_byte 0 (List.replicate 32 0#8))
  else .next s

def execTwnKeyClear (who : Who) (s : State) : Res := if s.linkMay who then .next s.zeroLink else .next s

end Sys2Proof.Machine
end

