-- ==== Sys2Proof/Machine/DevC.lean ====
section
/-! DEFINITION. Sys2Proof/Machine/DevC.lean: register writes to HE, FN, MBX and the mailbox pages, TWN, FLT, PMU, PWR and
BOOT. -/

namespace Sys2Proof.Machine

/-! ## HE and FN (R382, R401, R413, R415, R422 to R428), which lie in the GLB region -/

/-- HE and FN registers take the writes of PFs and firmware, from the end of S4 on (R96, R405, R443). -/
def State.glbMay (s : State) (w : Who) : Bool :=
  match w with
  | .bmc => false
  | w => s.bootOpen w

/-- A migration command (`FN_MIG_CMD`). The bytes that a THAW reads are the host's (log entry 1). -/
def State.migWrite (s : State) (w : Who) (u v : Nat) : State :=
  let g := bits v 0 13
  match bits v 28 4 with
  | 1 => ran s (execFreeze w u g s)
  | 2 =>
    let r := s.freshBytes (s.get Reg.FN_MIG_BUFLEN_len u)
    ran s (execThaw w u g (.data r.1) r.2)
  | 3 => ran s (execCancel w u g s)
  | _ => s

/-- A write to `FN_DLOG_CTRL`; tracking that begins starts without marks (log entry 21). -/
def State.dlogWrite (s : State) (w : Who) (k v : Nat) : State :=
  let on := s.flag Reg.FN_DLOG_CTRL_en k
  let s := if bit v 28 then s.put Reg.FN_DLOG_CTRL_outside k false else s
  let s := if on || !giveMay w (bits v 0 13) then s else s.set Reg.FN_DLOG_CTRL_gfn k (bits v 0 13)
  let s :=
    if bit v 31 && !on then
      (forEach ((s.having Reg.DLOG_mark 1).filter (fun i => i / 2 ^ 40 == k)) (fun i t => t.put Reg.DLOG_mark i false) s).put
        Reg.FN_DLOG_CTRL_en k true
    else s.put Reg.FN_DLOG_CTRL_en k (bit v 31)
  if bit v 30 then ran s (execHarvest w k s) else s

def wFn : Wr := fun w b i v s =>
  if !s.glbMay w then some s
  else
    match b with
    | 0x8008 => some ((s.set Reg.HE_CFG_cto_retry i (bits v 14 2)).ranged Reg.HE_CFG_max_reads i 256 8192 (bits v 0 14))
    | 0x20000 =>
      if !ownerMay w i then some s
      else
        let t := s.clearBits [(31, Reg.FN_PF_CFG_refused)] i v
        let n := bits v 0 7
        some (if n = 0 ∨ 64 < n ∨ n = s.get Reg.FN_PF_CFG_vf_vectors i then t
          else if s.flag Reg.CFG_vf_en i then t.put Reg.FN_PF_CFG_refused i true
          else t.set Reg.FN_PF_CFG_vf_vectors i n)
    | 0x21000 => some (s.migWrite w i v)
    | 0x22000 => if ownerMay w i then none else some s
    | 0x22004 => some (ran s (execVmodWrite w i v s))
    | 0x23000 =>
      some (if s.flag Reg.FN_DLOG_CTRL_en i || !claimMay w (s.get Reg.FN_DLOG_CTRL_gfn i) then s
        else s.set Reg.FN_DLOG_BASE_base i (v / 4096 * 4096))
    | 0x23008 =>
      some (if s.flag Reg.FN_DLOG_CTRL_en i || !claimMay w (s.get Reg.FN_DLOG_CTRL_gfn i) then s
        else s.ranged Reg.FN_DLOG_PAGES_pages i 1 33554432 v)
    | 0x23010 =>
      some (if s.flag Reg.FN_DLOG_CTRL_en i || !claimMay w (s.get Reg.FN_DLOG_CTRL_gfn i) then s
        else s.set Reg.FN_DLOG_MAP_map i (v / 8 * 8))
    | 0x23018 => some (if claimMay w (s.get Reg.FN_DLOG_CTRL_gfn i) then s.dlogWrite w i v else s)
    | 0x40004 =>
      some (if !ownerMay w i then s
        else ((s.ranged Reg.FN_QOS_poll_w i 1 255 (bits v 24 8)).ranged Reg.FN_QOS_tx_w i 1 255 (bits v 16 8)).ranged
          Reg.FN_QOS_host_kib i 64 16384 (bits v 0 15))
    | _ => none

/-! ## MBX (R432, R436, R437, R442, R444, R447) -/

/-- Where an accessor's `MBX_PV_SEL` is kept. -/
def pvSelIx (w : Who) : Option Nat :=
  match w with
  | .pf h => some h
  | .fw m => some (2 + m)
  | _ => none

/-- The VF whose page `MBX_PV_WIN` shows an accessor (R444). -/
def State.pvShown (s : State) (w : Who) : Option Nat :=
  match w with
  | .pf h => some (vfGfn h (s.get Reg.MBX_PV_SEL_vf h))
  | .fw m => some (vfGfn (s.get Reg.MBX_PV_SEL_pf (2 + m)) (s.get Reg.MBX_PV_SEL_vf (2 + m)))
  | _ => none

/-- A 4-byte write to a VF's mailbox page. -/
def State.pvWrite (s : State) (w : Who) (g off v : Nat) : State :=
  if !s.fnExists g then s
  else if off < 0x20 then
    if isGuest w g then (s.set Reg.PVU_tx (8 * g + off / 4) v).put Reg.PVU_rec g true else s.mbxIgnore
  else if off = 0x20 then ran s (execUpCommit w g (v % 16) s)
  else if 0x80 ≤ off ∧ off < 0xA0 then
    if isPfOf w g then (s.set Reg.PVD_tx (8 * g + (off - 0x80) / 4) v).put Reg.PVD_rec g true else s.mbxIgnore
  else if off = 0xA0 then ran s (execDnCommit w g (v % 16) s)
  else if off = 0x100 then
    let t := if bit v 29 then s.put Reg.PVU_txfull g false else s
    if bit v 28 then t.put Reg.PVD_txfull g false else t
  else if off = 0x104 then
    if isGuest w g then
      let t := s.put Reg.PVM_irq_en g (bit v 31)
      if bits v 0 6 < s.nvec g then t.set Reg.PVM_irq_vec g (bits v 0 6) else t
    else s.mbxIgnore
  else if off = 0x108 then
    if isPfOf w g then (s.put Reg.PVU_purge g (bit v 1)).put Reg.PVD_purge g (bit v 0) else s.mbxIgnore
  else s

/-- A staging write needs the channel's lock (R432). -/
def State.mbxStage (s : State) (w : Who) (i v : Nat) : State :=
  let c := i / 8
  if !s.mbxReach w c then s
  else if s.get Reg.MBX_LOCK_owner c ≠ ownerNo w then s.mbxIgnore
  else (s.set Reg.MBX_CH_TX_word i v).mbxSeen c (ownerNo w)

def wMbx : Wr := fun w b i v s =>
  if !s.busOpen w then some s
  else
    match b with
    | 0xA00000 => some (ran s (execMbxCfgWrite w i false v s))
    | 0xA00004 => some (ran s (execMbxCfgWrite w i true v s))
    | 0xA00008 => if s.mbxReach w i then none else some s
    | 0xA00020 => some (s.mbxStage w i v)
    | 0xA00040 => some (ran s (execMbxCommit w i (v % 16) s))
    | 0xA04100 => some (ran s (execMbxUnlock w i v s))
    | 0xA08000 =>
      match pvSelIx w with
      | none => some s
      | some k =>
        let t := s.set Reg.MBX_PV_SEL_vf k (bits v 0 11)
        some (if isFw w then t.put Reg.MBX_PV_SEL_pf k (bit v 31) else t)
    | 0xA08004 =>
      match w with
      | .pf h => some ((s.put Reg.MBX_PV_IRQ_en h (bit v 31)).set Reg.MBX_PV_IRQ_vec h (bits v 0 11))
      | _ => some s
    | 0xA10000 =>
      some (if !s.mayWrite w || !winMay w (i / 16) then s
        else if s.flag Reg.MBX_WIN_CFG_en i then s.put Reg.MBX_WIN_CFG_refused i true
        else s.set Reg.MBX_WIN_BASE_base i (v / 4096))
    | 0xA10008 => some (ran s (execWinCfgWrite w (i / 16) (i % 16) v s))
    | _ => some s

/-! ## TWN (R453, R454, R457, R466, R472, R474) -/

/-- The pair lets configuration change: UNPAIRED or WIDOWED. -/
def State.twinFree (s : State) : Bool := s.twin == twUnpaired || s.twin == twWidowed

/-- A mask of 32 bits of which those that `ok` allows take the value `v`. -/
def maskMerge (old v : Nat) (ok : Nat → Bool) : Nat :=
  (List.range 32).foldl (fun a j => if (if ok j then bit v j else bit old j) then a + 2 ^ j else a) 0

def State.twnCtrl (s : State) (w : Who) (v : Nat) : State :=
  let t := s.put Reg.TWN_CTRL_auto_resync 0 (bit v 28)
  let t := if bit v 31 then ran t (execPair w t) else t
  let t := if bit v 30 then ran t (execUnpair w t) else t
  if bit v 29 then ran t (execResync w t) else t

def wTwn : Wr := fun w b i v s =>
  if b = 0xB00040 then (if s.linkMay w then some (s.set Reg.TWN_KEY_STAGE_byte i v) else some s)
  else if b = 0xB00020 then
    some (match bits v 28 4 with
      | 1 => ran s (execTwnKeyLoad w s)
      | 2 => ran s (execTwnKeyClear w s)
      | _ => s)
  else if !s.mayWrite w then some s
  else
    match b with
    | 0xB00000 => some (s.twnCtrl w v)
    | 0xB00008 => if s.twinFree then none else some s
    | 0xB10000 =>
      some (s.set Reg.TWN_QMASK_mir i (maskMerge (s.get Reg.TWN_QMASK_mir i) v (fun j =>
        s.twinFree && s.qState (32 * i + j) == qsDisabled && ownerMay w (s.qOwner (32 * i + j)))))
    | 0xB18000 =>
      some (if 256 ≤ i then s
        else s.set Reg.TWN_PMASK_mir i (maskMerge (s.get Reg.TWN_PMASK_mir i) v (fun j =>
          s.twinFree && s.pageReach w (32 * i + j))))
    | 0xB20000 => if ownerMay w i then none else some s
    | _ => none

/-! ## FLT (R477, R479, R481, R484, R489, R507) -/

/-- A write to `FLT_CTRL`. -/
def State.fltCtrl (s : State) (w : Who) (v : Nat) : State :=
  let t := if bit v 30 then s.put Reg.FLT_CTRL_inj_refused 0 false else s
  if bit v 31 then ran t (execDevReset w 0 t) else t

/-- The reactions a source's class lets change (R477). -/
def State.srcCfg (s : State) (n v : Nat) : State :=
  let t := s.genWrite [(2, Reg.FLT_SRC_CFG_irq_bmc), (1, Reg.FLT_SRC_CFG_irq_pf1), (0, Reg.FLT_SRC_CFG_irq_pf0)] n v
  let t := if fltClass n = 2 then t else t.put Reg.FLT_SRC_CFG_whiteout n (bit v 4)
  if fltClass n = 1 then t.put Reg.FLT_SRC_CFG_failover n (bit v 3) else t

def wFlt : Wr := fun w b n v s =>
  if !s.fltOpen w then some s
  else
    match b with
    | 0xB80010 => some (s.fltCtrl w v)
    | 0xB80018 => some (if bit v 31 then ran s (execFaultInject w (bits v 0 9) (bits v 32 32) s) else s)
    | 0xB80050 => some (ran s (execLogPop w s))
    | 0xB81000 => some (s.srcCfg n v)
    | 0xB81004 =>
      some (if bit v 31 then
        let r := s.fresh
        ran s (execActiveClear w n (bit r.1 0) r.2)
      else s)
    | _ => none

/-! ## PMU (R492 to R498) -/

def State.dumpCfg (s : State) (w : Who) (v : Nat) : State :=
  let t := s.clearBits [(30, Reg.PMU_DUMP_CFG_refused)] 0 v
  if bit v 31 then ran t (execDumpEnable w v t)
  else t.genWrite [(31, Reg.PMU_DUMP_CFG_en), (8, Reg.PMU_DUMP_CFG_pf), (4, Reg.PMU_DUMP_CFG_win), (0, Reg.PMU_DUMP_CFG_set)] 0 v

def wPmu : Wr := fun w b i v s =>
  if !s.mayWrite w then some s
  else
    match b with
    | 0xC00000 => some (s.dumpCfg w v)
    | 0xC00010 =>
      let t := s.ranged Reg.PMU_DUMP_PERIOD_period 0 0 10000000 (bits v 0 24)
      some (if t.flag Reg.PMU_DUMP_CFG_en 0 && t.get Reg.PMX_per 0 == 0 then t.startPeriod else t)
    | 0xC00020 => some (if bit v 0 then ran s (execSnapGo w s) else s)
    | 0xC00040 => some (ran s (execSlotClear w (bits v 0 17) s))
    | 0xC40010 =>
      if i % 8 = 0 then
        some (s.genWrite [(31, Reg.PMU_CORE_CFG_ovf), (8, Reg.PMU_CORE_CFG_tmask), (0, Reg.PMU_CORE_CFG_event)] i v)
      else none
    | _ => none

/-! ## PWR and BOOT (R504, R513 to R519) -/

/-- A write to `BOOT_CTRL`. -/
def State.bootCtrl (s : State) (w : Who) (v : Nat) : State :=
  let t := if bits v 0 10 = 0 then s else ran s (execClearAlt w (bits v 0 10) s)
  if bit v 31 then ran t (execReady w 0 t) else t

/-- A write to `BOOT_FUSE_CMD`; one that sets both `arm` and `go` arms. -/
def State.fuseWrite (s : State) (w : Who) (v : Nat) : State :=
  let t := s.clearBits [(29, Reg.BOOT_FUSE_CMD_refused)] 0 v
  let op := bits v 24 4
  let a := bits v 0 7
  if bit v 31 then ran t (execFuseArm w op a t)
  else if bit v 30 then
    match op with
    | 1 => ran t (execDebugClose w a t)
    | 2 => ran t (execRevoke w a t)
    | 3 => ran t (execSvn w a t)
    | _ => t
  else t

def wBoot : Wr := fun w b _ v s =>
  if !s.bootOpen w then some s
  else
    match b with
    | 0xD00008 => some (ran s (execGateCfgWrite w v s))
    | 0xD01000 => some (s.bootCtrl w v)
    | 0xD01010 =>
      let t := s.put Reg.BOOT_CFG_long_test 0 (bit v 0)
      some (if w = .bmc then t.put Reg.BOOT_CFG_firn_reset 0 (bit v 1) else t)
    | 0xD01028 => some (s.fuseWrite w v)
    | 0xD01040 => some (ran s (execLedgerSelect w (bits v 0 6) s))
    | _ => none

end Sys2Proof.Machine
end

