-- ==== Sys2Proof/Machine/DevRead.lean ====
section
/-! DEFINITION. Sys2Proof/Machine/DevRead.lean: what a read of a register returns and changes (R3, R8, Table SC-4), and the
registers that show other state. -/

namespace Sys2Proof.Machine

/-! ## Fields that show other state -/

/-- A later packet of a domain waits behind a ticket that a halted thread of the cluster holds (R133). -/
def State.dbgHolds (s : State) (k : Nat) : Bool :=
  ((List.range 256).flatMap (fun j => [2 * (256 * k + j), 2 * (256 * k + j) + 1])).any (fun i =>
    s.get Reg.TH_tkt i != 0 && s.flag Reg.TH_halt (i / 2) &&
    ((((SM.get [] s.domq (s.get Reg.TH_tktdom i)).dropWhile (fun t => t.handle != s.get Reg.TH_tkt i - 1)).drop 1).any (fun t =>
      t.done && t.frame != 0)))

/-- Worker threads of a cluster that are parked. -/
def State.parkedIn (s : State) (k : Nat) : Nat :=
  ((List.range 256).filter (fun j => j % 16 != 0 && s.get Reg.TH_mode (256 * k + j) == 2)).length

/-- Function `n` of a host port: the PF, then its VFs in order. -/
def portFn (h n : Nat) : Nat := if n = 0 then h else vfGfn h (n - 1)

/-- `HE_FN_HOLD` word `i` of a port. -/
def State.fnHold (s : State) (h i : Nat) : Nat :=
  (List.range 32).foldl (fun a j =>
    let g := portFn h (32 * i + j)
    if 32 * i + j ≤ 2048 ∧ s.fnExists g = true ∧ (s.flag Reg.FN_STATE_bme g = false ∨ s.flag Reg.FN_STATE_d3 g = true) then
      a + 2 ^ j else a) 0

/-- Entries outstanding of the VF that a unit is freezing. -/
def State.migOutst (s : State) (u : Nat) : Nat :=
  if s.flag Reg.FN_MIG_STATUS_busy u && s.get Reg.MGX_op u == 1 then
    ((s.queuesOf (s.get Reg.MGX_gfn u)).map (fun q => ((s.entsOf q).filter (fun e => e.done.isNone)).length)).sum
  else 0

/-- What remains of a slew in whole nanoseconds, rounded towards zero, as a signed word. -/
def State.adjRem (s : State) : Nat :=
  let r := s.get Reg.MTX_srem 0 / 2 ^ 32
  if s.flag Reg.MTX_sneg 0 then (2 ^ 64 - r) % 2 ^ 64 else r

/-- Byte `i` of the oldest record of a list; zero when the list is empty. -/
def headByte (l : List (List Byte)) (i : Nat) : Nat :=
  match l with
  | [] => 0
  | r :: _ => byteAt r i

/-- The `active` bits of 32 sources (R485). -/
def State.activeBits (s : State) (i : Nat) : Nat :=
  (List.range 32).foldl (fun a j => if s.flag Reg.FLT_SRC_STATUS_active (32 * i + j) || s.flag Reg.FLT_dead 0 then a + 2 ^ j else a) 0

/-- The PF whose VFs an accessor's `MBX_PV_PEND` shows. -/
def State.pendPf (s : State) (w : Who) : Option Nat :=
  match w with
  | .pf h => some h
  | .fw m => some (s.get Reg.MBX_PV_SEL_pf (2 + m))
  | _ => none

/-- `MBX_PV_PEND` as an accessor sees it. -/
def State.pendBits (s : State) (w : Who) (i : Nat) : Nat :=
  match s.pendPf w with
  | some h => if i < 64 then s.get Reg.MBX_PV_PEND_pend (64 * h + i) else 0
  | none => 0

/-- A field of an accessor's own copy of a register. -/
def State.ownCopy (s : State) (f : Fld) : Option Nat → Nat
  | some k => s.get f k
  | none => 0

/-- State of the hardware channel of a migration unit: READBACK while an image that is written is read back, RUNNING while
one is read (R358, R424, R428). -/
def State.migChan (s : State) (u : Nat) : Nat :=
  match s.get Reg.MGX_op u with
  | 2 => 4
  | 3 => 3
  | _ => 0

/-- What a field reads: `lo` is its lowest bit. -/
def State.fieldVal (s : State) (w : Who) (b lo i : Nat) (f : Fld) : Nat :=
  match b, lo with
  | 0x2000038, 3 => b2n (s.qHeld i)
  | 0x20000C, 2 => s.parkedIn i
  | 0x20000C, 1 => b2n (s.dbgHolds i)
  | 0x200100, _ => s.get f (if s.guard && i % 2 == 1 then i - 1 else i)
  | 0x218000, _ => (SM.get [] s.dispq i).length
  | 0x220008, 30 => s.get Reg.TH_halt (s.get Reg.DBG_thr 0)
  | 0x220008, 28 => ((List.range 2).filter (fun k => s.get Reg.TH_tkt (2 * s.get Reg.DBG_thr 0 + k) != 0)).length
  | 0x220008, 0 => s.get Reg.TH_pc (s.get Reg.DBG_thr 0)
  | 0x40C000, _ => headByte s.tblEvq i
  | 0x40C044, _ => s.tblEvq.length
  | 0x700030, _ => s.adjRem
  | 0x800440, _ => if 8 ≤ i % 128 ∧ i % 128 < 80 then 0 else s.get f i
  | 0x800500, 16 => s.get Reg.KY_gen (kix (s.get Reg.CPH_KEY_SEL_sel (i / 64)) (i % 64))
  | 0x800500, 8 => b2n (s.slotValid (s.get Reg.CPH_KEY_SEL_sel (i / 64)) (i % 64))
  | 0x800500, _ => s.slotAttr (s.get Reg.CPH_KEY_SEL_sel (i / 64)) (i % 64)
  | 0x880300, _ => headByte s.oflEvq i
  | 0x880314, _ => s.oflEvq.length
  | 0x8010, 14 => (s.tagQuar.filter (fun p => p.h == i)).length
  | 0x8010, _ => s.outst i
  | 0x8100, _ => s.fnHold (i / 65) (i % 65)
  | 0x21004, 8 => s.migOutst i
  | 0x22004, 16 => s.get Reg.VMOD_cnt (vix (s.get Reg.FN_VMOD_SEL_gfn i) (s.get Reg.FN_VMOD_SEL_vec i))
  | 0x22004, _ => s.get Reg.VMOD_us (vix (s.get Reg.FN_VMOD_SEL_gfn i) (s.get Reg.FN_VMOD_SEL_vec i))
  | 0x910008, 24 => if decide (1012 ≤ i ∧ i < 1016) then s.migChan (i - 1012) else s.get f i
  | 0xA08000, _ => s.ownCopy f (pvSelIx w)
  | 0xA08004, _ => s.ownCopy f (match w with | .pf h => some h | _ => none)
  | 0xA08200, _ => s.pendBits w i
  | 0xB80040, _ => headByte s.fltLog i
  | 0xB80054, _ => s.fltLog.length
  | 0xB80100, _ => s.activeBits i
  | 0xB81000, 4 => if s.flag Reg.FLT_dead 0 then 1 else s.get f i
  | 0xB81004, 30 => b2n (s.causeNow i (s.flag f i))
  | 0xB81004, 31 => if s.flag Reg.FLT_dead 0 then 1 else s.get f i
  | 0xC40000, _ => s.coreCycles i
  | 0xD00000, 4 => s.sdsPowered
  | 0xD01060, _ => headByte (s.ledger.drop (s.get Reg.BOOT_LEDGER_SEL_index 0)) i
  | _, _ => if f.acc = .wo then 0 else s.get f i

/-- The number that an instance of a register reads as. -/
def State.regVal (s : State) (w : Who) (d : RegDesc) (i : Nat) : Nat :=
  d.fields.foldl (fun a p => a + s.fieldVal w d.base p.1 i p.2 * 2 ^ p.1) 0

/-! ## Registers that an accessor does not see -/

/-- No register is there, or the accessor does not reach it: it reads zero and keeps what it holds (R8, R441, R535). -/
def State.unseen (s : State) (w : Who) (b i : Nat) : Bool :=
  match b with
  | 0x540000 => !isExt (i / 32)
  | 0x601000 => !isExt i
  | 0x610000 => !isExt i
  | 0x630000 => (match w with | .pf h => !inPf h i | _ => false)
  | 0x740000 => !isExt i
  | 0xA00020 => !s.mbxReach w (i / 8)
  | 0xA00080 => !s.mbxReach w (i / 8)
  | _ =>
    if 0x650000 ≤ b ∧ b < 0x670000 then !schPort i
    else if 0xA00000 ≤ b ∧ b < 0xA04000 then !s.mbxReach w i
    else false

/-! ## Reads -/

/-- A read of RC fields that it touches clears them; each RC field of the tables is a counter or a latched maximum. -/
def State.clearRead (s : State) (d : RegDesc) (i r n : Nat) : State :=
  d.fields.foldl (fun t p =>
    if p.2.acc = .rc ∧ p.1 < 8 * (r + n) ∧ 8 * r < p.1 + p.2.w then t.set p.2 i 0 else t) s

/-- A read of `MT_NOW_NS` (R279). -/
def State.nowRead (s : State) (w : Who) (r n : Nat) : State × Nat :=
  if r = 4 then (s, s.ownCopy Reg.MTX_hi (readerOf w)) else (s.latchNow w, s.nowData n)

/-- A read of `TLK_TSAUX` of link `l`: its lower half latches the upper for the reader. -/
def State.tsauxRead (s : State) (d : RegDesc) (w : Who) (l r n : Nat) : State × Nat :=
  let v := s.regVal w d l
  match readerOf w with
  | none => (s, v / 2 ^ (8 * r) % 2 ^ (8 * n))
  | some k =>
    if r < 8 then (s.set Reg.TSX_hi (4 * l + k) (v / 2 ^ 64), v / 2 ^ (8 * r) % 2 ^ (8 * n))
    else (s, s.get Reg.TSX_hi (4 * l + k) / 2 ^ (8 * (r - 8)) % 2 ^ (8 * n))

/-- A read of a port or link counter, which starts at the low or the high word. -/
def State.counterRead (s : State) (w : Who) (lnk : Bool) (i r n : Nat) : State × Nat :=
  match readerOf w with
  | none => (s, 0)
  | some k => s.cntRead k lnk (i / 32) (i % 32) (r == 4) n

/-- A read that Table SC-4 alone governs. -/
def State.fieldRead (s : State) (w : Who) (d : RegDesc) (i r n : Nat) : State × Nat :=
  (s.clearRead d i r n, s.regVal w d i / 2 ^ (8 * r) % 2 ^ (8 * n))

/-- The greater of two signed 16-bit values. -/
def max16 (a b : Nat) : Nat := if sgn16 a < sgn16 b then b else a

/-- `PWR_TEMP` as it is read: the junction temperature and the highest one since the last read are free values, the second
not below the first (log entry 1); the read then clears `max`. -/
def State.tempSample (s : State) : State :=
  let (a, s) := s.fresh
  let (b, s) := s.fresh
  (s.set Reg.PWR_TEMP_now 0 a).set Reg.PWR_TEMP_max 0 (max16 (a % 2 ^ 16) (b % 2 ^ 16))

/-- A read of `n` bytes from byte `r` of an instance of a register. -/
def State.regRead (s : State) (w : Who) (d : RegDesc) (i r n : Nat) : State × Nat :=
  if s.unseen w d.base i then (s, 0)
  else
    match d.base with
    | 0x700000 => s.nowRead w r n
    | 0x700008 => (s, s.ownCopy Reg.MT_NOW_FRAC_frac (readerOf w) / 2 ^ (8 * r))
    | 0x510020 => s.tsauxRead d w i r n
    | 0x540000 => s.counterRead w false i r n
    | 0x590000 => s.counterRead w true i r n
    | 0xA04000 => s.lockReadBy w i
    | 0xA000A0 => s.rxPopRead w i
    | 0xD00028 => s.tempSample.fieldRead w d i r n
    | _ => s.fieldRead w d i r n

end Sys2Proof.Machine
end

