-- ==== Sys2Proof/Machine/Device.lean ====
section
/-! DEFINITION. Sys2Proof/Machine/Device.lean: accesses to the device's address spaces (Tables OV-5, HE-3 and FN-3; R8,
R389, R405, R412, R443, R483). -/

namespace Sys2Proof.Machine

/-! ## Registers of BAR0 -/

/-- The rule of a register's own that governs a write, by block. -/
def regRule : Wr := fun w b i v s =>
  if b < 0x8000 then wGlb w b i v s
  else if b < 0x100000 then wFn w b i v s
  else if b < 0x200000 ∨ 0x2000000 ≤ b then wQm w b i v s
  else if b < 0x300000 then wFp w b i v s
  else if b < 0x400000 then wPpl w b i v s
  else if b < 0x500000 then wTbl w b i v s
  else if b < 0x600000 then wMac w b i v s
  else if b < 0x700000 then wSch w b i v s
  else if b < 0x800000 then wMt w b i v s
  else if b < 0x880000 then wCph w b i v s
  else if b < 0x900000 then wOfl w b i v s
  else if b < 0xA00000 then wDma w b i v s
  else if b < 0xB00000 then wMbx w b i v s
  else if b < 0xB80000 then wTwn w b i v s
  else if b < 0xC00000 then wFlt w b i v s
  else if b < 0xD00000 then wPmu w b i v s
  else wBoot w b i v s

/-- A write of `n` bytes from byte `r` of an instance of a register. -/
def State.regWrite (s : State) (w : Who) (d : RegDesc) (i r n x : Nat) : State :=
  let v := s.merged d.fields i r n x
  match regRule w d.base i v s with
  | some t => t
  | none => s.genWrite d.fields i v

/-! ## Which register lies where -/

/-- Instances of a register of the key interface that belong to one accessor. -/
def keyStride (b : Nat) : Nat := if b = 0x800440 then 128 else if b = 0x800500 then 64 else 1

/-- The register of a VF's key interface at an offset from its start. -/
def keyReg (g o : Nat) : Option (RegDesc × Nat × Nat) :=
  if 0x400 ≤ o then none
  else
    match findReg (0x800400 + o) with
    | some (d, i, r) => some (d, i + (4 + g) * keyStride d.base, r)
    | none => none

/-- Where the function status page shows a register (Table FN-4). -/
def statusOff (g o : Nat) : Option Nat :=
  if o < 8 then some (0x40000 + 0x20 * g + o)
  else if o < 0xC then some (0x904000 + 4 * g + (o - 8))
  else if o < 0x10 then some (0x80A000 + 4 * g + (o - 0xC))
  else if o < 0x18 then some (0x620000 + 8 * g + (o - 0x10))
  else if o < 0x1C then some (0x884000 + 4 * g + (o - 0x18))
  else none

/-- The register at an offset of a BAR; `wr` leaves out what is read-only there. -/
def regAt (w : Who) (bar : Bar) (off : Nat) (wr : Bool) : Option (RegDesc × Nat × Nat) :=
  match bar, w with
  | .bar0, _ => findReg off
  | .bar2, _ => none
  | .vfBar, .vf g =>
    if 0x6000 ≤ off ∧ off < 0x7000 then keyReg g (off - 0x6000)
    else if 0x7000 ≤ off ∧ off < 0x7040 ∧ wr = false then (statusOff g (off - 0x7000)).bind findReg
    else none
  | .vfBar, _ => none
  | .cfg, _ => none

/-! ## Arm words, MSI-X and the windows, in words of 4 bytes -/

/-- The queue whose arm word is local word `l` of a function: one in use before one that is DISABLED. -/
def State.armQueue (s : State) (g l : Nat) : Option Nat :=
  match s.queueAt g l with
  | some q => some q
  | none => (s.queuesOf g).find? (fun q => s.get Reg.QM_QCTX_OWNER_local q == l)

/-- A word of the arm area (R76). -/
def State.armRead (s : State) (g off : Nat) : Nat :=
  if off % 8 = 4 then 0
  else
    match s.armQueue g (off / 8) with
    | some q => s.get Reg.QX_pub q + s.qState q * 65536
    | none => 0

/-- A word of the MSI-X table, from its start: address, data, Vector Control. -/
def State.msixRead (s : State) (g off : Nat) : Nat :=
  let i := vix g (off / 16)
  if s.nvec g ≤ off / 16 then 0
  else
    match off / 4 % 4 with
    | 0 => s.get Reg.MSIX_addr i % 2 ^ 32
    | 1 => s.get Reg.MSIX_addr i / 2 ^ 32
    | 2 => s.get Reg.MSIX_data i
    | _ => s.get Reg.MSIX_mask i

/-- A write to the MSI-X table: a vector that is unmasked may be sent (R414). -/
def State.msixWrite (s : State) (g off v : Nat) : State :=
  let i := vix g (off / 16)
  if s.nvec g ≤ off / 16 then s
  else
    match off / 4 % 4 with
    | 0 => s.set Reg.MSIX_addr i (s.get Reg.MSIX_addr i / 2 ^ 32 * 2 ^ 32 + v / 4 * 4)
    | 1 => s.set Reg.MSIX_addr i (s.get Reg.MSIX_addr i % 2 ^ 32 + v * 2 ^ 32)
    | 2 => s.set Reg.MSIX_data i v
    | _ => (s.put Reg.MSIX_mask i (bit v 0)).releaseVecs g

/-- A word of the PBA: the pending bits of 32 vectors. -/
def State.pbaRead (s : State) (g off : Nat) : Nat :=
  (List.range 32).foldl (fun a j =>
    if 8 * off + j < s.nvec g ∧ s.flag Reg.MSIX_pba (vix g (8 * off + j)) = true then a + 2 ^ j else a) 0

/-- A word of a VF's mailbox page as an accessor reads it (R444). -/
def State.pvRead (s : State) (w : Who) (g off : Nat) : State × Nat :=
  if off = 0x24 then s.upPopRead w g
  else if off = 0xA4 then s.dnPopRead w g
  else if off = 0x28 then (s, s.get Reg.PVU_hdr g)
  else if 0x40 ≤ off ∧ off < 0x60 then (s, s.get Reg.PVU_data (8 * g + (off - 0x40) / 4))
  else if off = 0xA8 then (s, s.get Reg.PVD_hdr g)
  else if 0xC0 ≤ off ∧ off < 0xE0 then (s, s.get Reg.PVD_data (8 * g + (off - 0xC0) / 4))
  else if off = 0x100 then
    (s, s.get Reg.PVU_full g * 2 ^ 31 + s.get Reg.PVD_full g * 2 ^ 30 + s.get Reg.PVU_txfull g * 2 ^ 29 +
      s.get Reg.PVD_txfull g * 2 ^ 28 + s.get Reg.PVU_epoch g * 2 ^ 16 + s.get Reg.PVD_epoch g * 2 ^ 8)
  else if off = 0x104 then (s, s.get Reg.PVM_irq_en g * 2 ^ 31 + s.get Reg.PVM_irq_vec g)
  else if off = 0x108 then (s, s.get Reg.PVU_purge g * 2 + s.get Reg.PVD_purge g)
  else (s, 0)

/-- Where the FP window shows a memory, with the cluster that an access wakes; a word of the instruction store gives
the paired one too (`FP_WIN_SEL`). -/
def State.fpWin (s : State) (off : Nat) : Nat × Nat :=
  if off < 0x1400000 then (off - 0x1000000, (off - 0x1000000) / 0x40000)
  else if off < 0x1800000 then (baseL 0 + (off - 0x1400000), (off - 0x1400000) / 0x40000)
  else
    let k := 4 * s.get Reg.FP_WIN_SEL_page 0 + (off - 0x1800000) / 0x200000
    (baseS k + (off - 0x1800000) % 0x200000, k)

/-- A write through the FP window. -/
def State.fpWinWrite (s : State) (off v : Nat) : State :=
  let p := s.fpWin off
  let s := (s.wakeCluster p.2).wr p.1 (leBytes 4 v)
  if off < 0x1400000 ∧ p.2 % 2 = 0 ∧ s.flag Reg.FP_WIN_SEL_pair 0 = true then
    (s.wakeCluster (p.2 + 1)).wr (p.1 + 0x40000) (leBytes 4 v)
  else s

/-- A word of PF BAR0 that is no register: the resource table, the gate window, the mailbox window, the FP window. -/
def State.win0Read (s : State) (w : Who) (off : Nat) : Option (State × Nat) :=
  if 0x10000 ≤ off ∧ off < 0x20000 then some (s, leNat (s.rd (baseRes + (off - 0x10000)) 4))
  else if 0x672000 ≤ off ∧ off < 0x674000 then
    let i := gateIx (s.get Reg.SCH_GATE_SEL_port 0) (s.get Reg.SCH_GATE_SEL_bank 0) ((off - 0x672000) / 8)
    some (s, leNat (s.area Reg.SCH_GATE_ENTRY_byte (i + off % 8) 4))
  else if 0xA08400 ≤ off ∧ off < 0xA08800 then
    match s.pvShown w with
    | some g => some (if s.fnExists g then s.pvRead w g (off - 0xA08400) else (s, 0))
    | none => some (s, 0)
  else if 0x1000000 ≤ off ∧ off < 0x2000000 then
    let p := s.fpWin off
    some ((s.wakeCluster p.2), leNat (s.rd p.1 4))
  else none

/-- A write of such a word. -/
def State.win0Write (s : State) (w : Who) (off v : Nat) : Option State :=
  if 0x10000 ≤ off ∧ off < 0x20000 then some s
  else if 0x672000 ≤ off ∧ off < 0x674000 then
    some (if s.mayWrite w then s.gateWrite w ((off - 0x672000) / 8) (off % 8) 4 v else s)
  else if 0xA08400 ≤ off ∧ off < 0xA08800 then
    match s.pvShown w with
    | some g => some (if s.busOpen w then s.pvWrite w g (off - 0xA08400) v else s)
    | none => some s
  else if 0x1000000 ≤ off ∧ off < 0x2000000 then some (if s.mayWrite w then s.fpWinWrite off v else s)
  else none

/-- A word of any BAR that is no register; none where registers may lie. -/
def State.winRead (s : State) (w : Who) (bar : Bar) (off : Nat) : Option (State × Nat) :=
  match bar, w with
  | .bar0, _ => s.win0Read w off
  | .bar2, .pf h =>
    some (if off < 0x1000 then (s, s.armRead h off)
      else if off < 0x9000 then (s, s.msixRead h (off - 0x1000))
      else if 0x81000 ≤ off ∧ off < 0x81100 then (s, s.pbaRead h (off - 0x81000)) else (s, 0))
  | .bar2, _ => some (s, 0)
  | .vfBar, .vf g =>
    if off < 0x4000 then some (s, s.armRead g off)
    else if off < 0x5000 then some (s.pvRead w g (off - 0x4000))
    else if off < 0x5400 then some (s, s.msixRead g (off - 0x5000))
    else if 0x5800 ≤ off ∧ off < 0x5808 then some (s, s.pbaRead g (off - 0x5800))
    else none
  | .vfBar, _ => some (s, 0)
  | .cfg, _ => some (s, 0)

/-- A write of such a word. -/
def State.winWrite (s : State) (w : Who) (bar : Bar) (off v : Nat) : Option State :=
  match bar, w with
  | .bar0, _ => s.win0Write w off v
  | .bar2, .pf h => some (if 0x1000 ≤ off ∧ off < 0x9000 then s.msixWrite h (off - 0x1000) v else s)
  | .bar2, _ => some s
  | .vfBar, .vf g =>
    if off < 0x4000 then some s
    else if off < 0x5000 then some (s.pvWrite w g (off - 0x4000) v)
    else if off < 0x5400 then some (s.msixWrite g (off - 0x5000) v)
    else if 0x5800 ≤ off ∧ off < 0x5808 then some s
    else none
  | .vfBar, _ => some s
  | .cfg, _ => some s

/-! ## Accesses -/

/-- Read `n` bytes from an offset, register by register; a byte without a register reads zero (R8). -/
def State.accRead (s : State) (w : Who) (bar : Bar) : Nat → Nat → Nat → State × Nat
  | 0, _, _ => (s, 0)
  | _, _, 0 => (s, 0)
  | fuel + 1, off, n =>
    let go := fun (t : State) (m v : Nat) =>
      let r := State.accRead t w bar fuel (off + m) (n - m)
      (r.1, v + r.2 * 2 ^ (8 * m))
    match (if off % 4 = 0 then s.winRead w bar off else none) with
    | some (t, v) => go t 4 v
    | none =>
      match regAt w bar off false with
      | some (d, i, r) =>
        let m := min n (d.bytes - r)
        let x := s.regRead w d i r m
        go x.1 m x.2
      | none => go s 1 0

/-- Write `n` bytes at an offset, register by register. -/
def State.accWrite (s : State) (w : Who) (bar : Bar) : Nat → Nat → Nat → Nat → State
  | 0, _, _, _ => s
  | _, _, 0, _ => s
  | fuel + 1, off, n, v =>
    match (if off % 4 = 0 then s.winWrite w bar off (v % 2 ^ 32) else none) with
    | some t => State.accWrite t w bar fuel (off + 4) (n - 4) (v / 2 ^ 32)
    | none =>
      match regAt w bar off true with
      | some (d, i, r) =>
        let m := min n (d.bytes - r)
        State.accWrite (s.regWrite w d i r m (v % 2 ^ (8 * m))) w bar fuel (off + m) (n - m) (v / 2 ^ (8 * m))
      | none => State.accWrite s w bar fuel (off + 1) (n - 1) (v / 2 ^ 8)

/-- A read of 4, 8 or 16 bytes: 16 bytes are two reads of 8, but for the registers that return both halves together. -/
def State.devRead (s : State) (w : Who) (bar : Bar) (off n : Nat) : State × Nat :=
  if n = 16 then
    if bar = .bar0 ∧ off = 0x700000 then (s.latchNow w, s.nowData 16)
    else
      match (if bar = .bar0 then findReg off else none) with
      | some (d, i, r) =>
        if d.bytes = 16 ∧ r = 0 then (s, s.regVal w d i)
        else
          let a := s.accRead w bar 8 off 8
          let b := a.1.accRead w bar 8 (off + 8) 8
          (b.1, a.2 + b.2 * 2 ^ 64)
      | none =>
        let a := s.accRead w bar 8 off 8
        let b := a.1.accRead w bar 8 (off + 8) 8
        (b.1, a.2 + b.2 * 2 ^ 64)
  else s.accRead w bar 8 off n

/-- A write of 4 or 8 bytes. A write to an arm word arms its queue once. -/
def State.devWrite (s : State) (w : Who) (bar : Bar) (off n v : Nat) : State :=
  match bar, w with
  | .bar2, .pf h => if off < 0x1000 then ran s (execArmWrite h (off / 8) s) else s.accWrite w bar 8 off n v
  | .vfBar, .vf g => if off < 0x4000 then ran s (execArmWrite g (off / 8) s) else s.accWrite w bar 8 off n v
  | _, _ => s.accWrite w bar 8 off n v

/-- The function that an access of a host or guest reaches, with its BAR's size (Table HE-3). -/
def barOf (w : Who) (bar : Bar) : Option (Nat × Nat) :=
  match w, bar with
  | .pf h, .bar0 => some (h, 2 ^ 26)
  | .pf h, .bar2 => some (h, 2 ^ 20)
  | .vf g, .vfBar => some (g, 2 ^ 16)
  | _, _ => none

/-- The function whose configuration space a host's or guest's accessor reads. -/
def funOf : Who → Nat
  | .pf h => h
  | .vf g => g
  | _ => 0

/-- The access has a size and alignment that R389 takes. -/
def sizeOk (off n : Nat) (rd : Bool) : Bool := (n == 4 || n == 8 || (n == 16 && rd)) && off % n == 0

/-- The function decodes the access: Memory Space Enable, not D3hot. -/
def State.decodes (s : State) (g : Nat) : Bool :=
  if g < 2 then s.flag Reg.CFG_mse g && !s.flag Reg.FN_STATE_d3 g else s.vfMem g && s.fnExists g

/-- The block of an offset answers a PF while the device boots: GLB, PWR and BOOT, and BAR2 (R405). -/
def bootBlock (bar : Bar) (off : Nat) : Bool := bar != .bar0 || decide (off < 0x100000) || decide (0xD00000 ≤ off ∧ off < 0xE00000)

/-- The access is one that R389 turns away; its header is the requester's (log entry 1). -/
def State.badAccess (s : State) (g : Nat) (rd : Bool) : State :=
  let r := s.freshBytes 16
  ran r.2 (execInboundBadAccess g rd r.1 r.2)

/-! ## The BMC's rights (R443, R483) -/

/-- The state of the device lets the BMC reach a block: `aon` blocks in every state but OFF, `wo` ones in WHITEOUT. -/
def State.bmcState (s : State) (aon wo : Bool) : Bool := s.busOpen .bmc || (aon && s.dev != 0) || (wo && s.dev == dsWhiteout)

/-- The BMC reads, or with `wr` writes, at an offset of PF BAR0. -/
def State.bmcReach (s : State) (off : Nat) (wr : Bool) : Bool :=
  if 8 ≤ off ∧ off < 12 then s.bmcState true true
  else if off < 0x100000 then s.bmcState false true
  else if 0x5A0000 ≤ off ∧ off < 0x5B0000 then s.bmcState true true
  else if 0x700000 ≤ off ∧ off < 0x800000 then !wr && s.bmcState false false
  else if 0x801000 ≤ off ∧ off < 0x801400 then s.bmcState false false
  else if 0xA00000 ≤ off ∧ off < 0xA02000 then s.bmcState false false
  else if 0xA04000 ≤ off ∧ off < 0xA04204 then s.bmcState false false
  else if 0xB80000 ≤ off ∧ off < 0xC00000 then s.bmcState true true
  else if 0xC00000 ≤ off ∧ off < 0xD00000 then !wr && s.bmcState false false
  else if 0xD00000 ≤ off ∧ off < 0xE00000 then s.bmcState true true
  else false

/-- The status of a REG_READ or REG_WRITE (Table MB-7): a write to a per-function word or an HE register is refused; any other
register of the GLB region but three ignores it, as does an offset that holds none (R8, R443). -/
def State.bmcStatus (s : State) (off : Nat) (wr : Bool) : Nat :=
  if off % 4 ≠ 0 then 4
  else if !s.bmcReach off wr then 3
  else if wr = true ∧ 0x8000 ≤ off ∧ off < 0x100000 ∧ (findReg off).isSome = true then 2
  else 0

/-- A write of the BMC: in the GLB region only three registers take one (R443). -/
def State.bmcWrite (s : State) (off val : Nat) : State :=
  if off < 0x100000 ∧ off ≠ 0x10 ∧ off ≠ 0x18 ∧ off ≠ 0x20 then s else s.devWrite .bmc .bar0 off 4 val

def execRegRead (off : Nat) (s : State) : Res :=
  if !s.bmcHeard then .next s
  else
    let st := s.bmcStatus off false
    if st ≠ 0 then .next (s.emit (.mctp (vdmRsp 1 st [])))
    else
      let r := s.devRead .bmc .bar0 off 4
      .next (r.1.emit (.mctp (vdmRsp 1 0 (beBytes 4 r.2))))

def execRegWrite (off val : Nat) (s : State) : Res :=
  if !s.bmcHeard then .next s
  else
    let st := s.bmcStatus off true
    if st ≠ 0 then .next (s.emit (.mctp (vdmRsp 2 st [])))
    else .next ((s.bmcWrite off val).emit (.mctp (vdmRsp 2 0 [])))

/-! ## The commands -/

/-- A write of any accessor; in WHITEOUT a host's is ignored (R483). -/
def execRegisterWrite (who : Who) (bar : Bar) (off size val : Nat) (s : State) : Res :=
  match who with
  | .bmc => .next (if bar = .bar0 ∧ s.bmcStatus off true = 0 ∧ size = 4 then s.bmcWrite off val else s)
  | .fw m => .next (if bar = .bar0 ∧ s.busOpen (.fw m) = true ∧ sizeOk off size false = true then s.devWrite (.fw m) .bar0 off size val else s)
  | w =>
    match barOf w bar with
    | none => .next s
    | some (g, n) =>
      if decide (n ≤ off) || s.dev == 0 || s.dev == dsAonOnly then .next s
      else if !s.decodes g || !sizeOk off size false then .next (s.badAccess g false)
      else if s.busOpen w || (s.bootOpen w && bootBlock bar off) then .next (s.devWrite w bar off size val)
      else .next s

/-- A read of any accessor, which clears the RC fields it touches. A host reads the configuration space of a function with
`bar` cfg (R384); a configuration write is CONFIG_WRITE. -/
def execRcRead (who : Who) (bar : Bar) (off size : Nat) (s : State) : Res :=
  match who with
  | .bmc =>
    if bar = .bar0 ∧ s.bmcStatus off false = 0 ∧ size = 4 then
      let r := s.devRead .bmc .bar0 off 4
      .next (r.1.emit (.regData .bmc 4 r.2))
    else .next s
  | .fw m =>
    if bar = .bar0 ∧ sizeOk off size true = true then
      (if s.busOpen (.fw m) then
        let r := s.devRead (.fw m) .bar0 off size
        .next (r.1.emit (.regData (.fw m) size r.2))
      else .next s)
    else .next s
  | w =>
    match barOf w bar with
    | none => .next (if bar = .cfg then s.cfgRead w (funOf w) off size else s)
    | some (g, n) =>
      if decide (n ≤ off) || s.dev == 0 || s.dev == dsAonOnly then .next s
      else if !s.decodes g || !sizeOk off size true then .next (s.badAccess g true)
      else if s.busOpen w || (s.bootOpen w && bootBlock bar off) then
        let r := s.devRead w bar off size
        .next (r.1.emit (.regData w size r.2))
      else .next (s.answer w size (s, 0))

end Sys2Proof.Machine
end

