-- ==== Sys2Proof/Machine/Engine.lean ====
section
/-! DEFINITION. Sys2Proof/Machine/Engine.lean: the engine commands, each the next slot of thread `t` where it holds the CMDC
of that command, and the arrival of their results (R113, R114, R157 to R163). `mis`: in GUARD the checker's slot
differed; `full`: the engine's queue has no room; `bad`: an upset has spoiled the entry found. -/

namespace Sys2Proof.Machine

/-! ## TABLE (Table NI-14) -/

def execFlowLookup (t : Nat) (mis full : Bool) (bad : Nat) (s : State) : Res := .next (s.slotCmd t 0 1 mis full (cmdFlowLookup bad))
def execFlowInsert (t : Nat) (mis full : Bool) (s : State) : Res := .next (s.slotCmd t 0 2 mis full cmdFlowInsert)
def execFlowDelete (t : Nat) (mis full : Bool) (s : State) : Res := .next (s.slotCmd t 0 3 mis full cmdFlowDelete)
def execLpmLookup (t : Nat) (mis full bad : Bool) (s : State) : Res := .next (s.slotCmd t 0 4 mis full (cmdLpmLookup bad))
def execL2Lookup (t : Nat) (mis full : Bool) (bad : Nat) (s : State) : Res := .next (s.slotCmd t 0 5 mis full (cmdL2Lookup bad))

/-! ## CIPHER (Table NI-15) -/

def execCipherEncrypt (t : Nat) (mis full : Bool) (s : State) : Res := .next (s.slotCmd t 1 1 mis full cmdCipher)
def execCipherDecrypt (t : Nat) (mis full : Bool) (s : State) : Res := .next (s.slotCmd t 1 2 mis full cmdCipher)
def execCipherMacGen (t : Nat) (mis full : Bool) (s : State) : Res := .next (s.slotCmd t 1 3 mis full cmdCipher)
def execCipherMacVerify (t : Nat) (mis full : Bool) (s : State) : Res := .next (s.slotCmd t 1 4 mis full cmdCipher)

/-! ## DMA (Table NI-16) -/

def execDmaStart (t : Nat) (mis full : Bool) (s : State) : Res := .next (s.slotCmd t 2 1 mis full cmdDmaStart)
def execDmaCopy (t : Nat) (mis full : Bool) (s : State) : Res := .next (s.slotCmd t 2 2 mis full cmdDmaCopy)

/-! ## COUNTER (Table NI-17) -/

def execCounterAdd (t : Nat) (mis full : Bool) (s : State) : Res := .next (s.slotCmd t 3 1 mis full cmdCounterAdd)
def execCounterRead (t : Nat) (mis full : Bool) (s : State) : Res := .next (s.slotCmd t 3 2 mis full cmdCounterRead)
def execCounterReadClear (t : Nat) (mis full : Bool) (s : State) : Res := .next (s.slotCmd t 3 3 mis full cmdCounterReadClear)

/-! ## SEND (Table NI-18) -/

def execSendFrame (t : Nat) (mis full : Bool) (s : State) : Res := .next (s.slotCmd t 4 1 mis full cmdSendFrame)
def execSendMbx (t : Nat) (mis full : Bool) (s : State) : Res := .next (s.slotCmd t 4 2 mis full cmdSendMbx)

/-! ## TRIGGER (Table NI-19) -/

def execTriggerArm (t : Nat) (mis full : Bool) (s : State) : Res := .next (s.slotCmd t 5 1 mis full cmdTriggerArm)
def execTriggerDisarm (t : Nat) (mis full : Bool) (s : State) : Res := .next (s.slotCmd t 5 2 mis full cmdTriggerDisarm)

/-! ## Results (R114, R115) -/

/-- A result reaches its thread: the tag is free, its words may be read, and its event is pending. -/
def State.resultIn (s : State) (t g : Nat) (words : List Nat) : State :=
  let s := (s.put Reg.TH_tag (4 * t + g) false).put Reg.TH_rok (4 * t + g) true
  (forEach (List.range 4) (fun j u => u.set Reg.TH_r (4 * (4 * t + g) + j) (words.getD j 0)) s).raiseEv t g

/-- Result `k` of those on their way arrives; one of a command whose thread has gone on without it is discarded. -/
def execCmdResultArrival (k : Nat) (s : State) : Res :=
  match s.flight[k]? with
  | none => .next s
  | some (t, g, q, words) =>
    let s := { s with flight := s.flight.eraseIdx k }
    if s.get Reg.TH_tagseq (4 * t + g) = q ∧ s.flag Reg.TH_tag (4 * t + g) = true then .next (s.resultIn t g words) else .next s

end Sys2Proof.Machine
end

