-- ==== Sys2Proof/Machine/Fire.lean ====
section
/-! DEFINITION. Sys2Proof/Machine/Fire.lean: the firing of a comparator, which reaches the slots, the threads, the DMA
channels, the snapshot strobe and the captures (R289 to R294). -/

namespace Sys2Proof.Machine

/-- The action of a comparator on a slot's ball, at a time in quarter nanoseconds (R290, R291): a pulse falls `width` ns
later. -/
def State.fireSlot (s : State) (k sl q : Nat) : State :=
  let a := s.get Reg.TRX_act k
  if a = 1 then s.slotTrig sl q true
  else if a = 2 then s.slotTrig sl q false
  else if a = 3 then
    { s.slotTrig sl q true with falls := s.falls ++ [(k, sl, (q + 4 * s.get Reg.TRX_width k) % 2 ^ 66)] }
  else s

/-- The effect of a firing, at a time in quarter nanoseconds, on its destination (Table MT-2). -/
def State.fireDest (s : State) (k q : Nat) : State :=
  let d := s.get Reg.TRX_dest k
  match destSlot d with
  | some sl => s.fireSlot k sl q
  | none =>
    match destThread d with
    | some t => s.raiseEv t 5
    | none =>
      if 0x1400 ≤ d ∧ d < 0x1800 then s.dmaTrigger (d - 0x1400)
      else if d = 0x1800 then s.strobe 2
      else if 0x1900 ≤ d ∧ d < 0x1940 then s.capture (d - 0x1900) q false
      else s

/-- The firing time: the target's nanosecond, or that of the tick on which a late edge is driven (R294). -/
def State.fireTime (s : State) (k : Nat) : Nat :=
  if s.get Reg.TRX_late k = 2 then s.get Reg.TRX_fns k else widen48 s.now (s.get Reg.TRX_tgt k)

/-- A comparator fires when it is due. -/
def State.fire (s : State) (k : Nat) : State :=
  if !s.fireDue k then s
  else
    let late := s.get Reg.TRX_late k == 2
    let f := s.fireTime k
    let q := if late then 4 * f else 4 * widen48 s.now (s.edgeNs k) + s.edgeQ k % 4
    let thr := s.flag Reg.MT_TRIG_STATUS_thread k
    let s := (s.sendTrg k).fireDest k q
    let s := s.pmu 11 1 1
    let s := if thr then s else s.set Reg.MT_TRIG_FIRED_fired k f
    s.trigEnd k 0x00 f

def execTrigFire (k : Nat) (s : State) : Res := .next (s.fire k)

end Sys2Proof.Machine
end

