-- ==== Sys2Proof/Machine/Ingress.lean ====
section
/-! DEFINITION. Sys2Proof/Machine/Ingress.lean: frames that arrive on external ports (Table PT-4, R222 to R227, R249,
R252) and the frames of host TX entries (R250, R421). -/

namespace Sys2Proof.Machine

/-! ## The first cell (R232, R249) -/

/-- `rx_comp` of an external port, signed (R220). -/
def State.rxComp (s : State) (id : Nat) : Int :=
  if id < 16 then sgn16 (s.get Reg.MAC_NPORT_TSCOMP_rx_comp id) else sgn16 (s.get Reg.TLK_TSCOMP_rx_comp (linkOf id))

/-- Index of `PT_rx` for a MAC's unit: network port `n`, tenant link 16 + `n`. -/
def rxUnit (id : Nat) : Nat := macOf id

/-- The ingress priority of a network port for a first tag with PCP `pcp` - 1, or none for 0 (R236). -/
def State.prioOf (s : State) (n pcp : Nat) : Nat :=
  if pcp = 0 then s.get Reg.MAC_NPORT_FC_def_prio n else bits (s.get Reg.MAC_NPORT_PCPMAP_map n) (3 * (pcp - 1)) 3

/-- The frame that begins on port `id`, of `len.bytes` bytes with FCS and without a tag that is removed, whose first bit crossed
the balls `ago` quarter nanoseconds ago and whose first tag has PCP `len.pcp` - 1 (0: untagged), is admitted or dropped. -/
def execFrameFirstCell (id : Nat) (len : FirstCell) (ago : Nat) (s : State) : Res :=
  if !isExt id || !s.portUp id || !s.portsOn || s.get Reg.PT_rx (rxUnit id) != 0 then .next s
  else
    let n := cellsOf (len.bytes - 4)
    if !s.open_ || !s.admits id n then .next ((s.cnt id cRxDropBuf 1).pmu 19 2 1)
    else
      let t := ((((4 * s.now : Nat) : Int) - ago - s.rxComp id) % 2 ^ 66).toNat
      let f := s.nextFrame
      let p := if 16 ≤ id then 0 else s.prioOf id len.pcp
      let s := s.newFrame { src := id, pipe := pipeOfPort id, arrq := t, stage := .arriving, cells := n, iprio := p }
      .next ((((s.setCharge id (s.get Reg.SCH_BUF_PORT_charge id + n)).set Reg.PT_rx (rxUnit id) (f + 1)).pmu 19 1 n).judgePort id)

/-! ## The last byte (Table PT-4) -/

/-- Discard a frame being received from the cell buffer. -/
def State.rxDiscard (s : State) (f : Nat) : State := s.freeFrame f

/-- A MAC control frame on a network port: PAUSE 0x0001, PFC 0x0101 (IEEE 802.3 Annex 31B, IEEE 802.1Qbb). -/
def State.macControl (s : State) (n : Nat) (bs : List Byte) : State :=
  if beAt bs 14 2 = 0x0001 then s.rxPause n (beAt bs 16 2)
  else if beAt bs 14 2 = 0x0101 then
    s.rxPfc n (beAt bs 16 2 % 256) ((List.range 8).map (fun i => beAt bs (18 + 2 * i) 2))
  else s.cnt n cRxPauseIgn 1

/-- A CTL frame from a shell (R227, Table PT-5). -/
def State.ctlFrame (s : State) (n : Nat) (bs : List Byte) : State :=
  let typ := byteAt bs 20
  let seq := byteAt bs 21
  let clen := beAt bs 22 2
  let body := slice bs 24 clen
  if bs.length < 24 + clen then s.lcnt n lRxCtlBad
  else if typ = 1 then (s.lcnt n lRxCtl).rxChpause n (beAt body 0 8) (beAt body 8 2)
  else if typ = 2 then (s.lcnt n lRxCtl).shellMbx n seq body
  else if typ = 4 then (s.lcnt n lRxCtl).rxMgmt n seq (byteAt body 0) (slice body 8 8)
  else if typ = 6 then (s.lcnt n lRxCtl).rxCredit n (beAt body 0 4)
  else s.lcnt n lRxCtlBad

/-- The ingress priority of a frame on a network port (R236). -/
def State.ingressPrio (s : State) (n : Nat) (bs : List Byte) : Nat :=
  s.prioOf n (if beAt bs 12 2 = 0x8100 ∨ beAt bs 12 2 = 0x88A8 then byteAt bs 14 / 32 + 1 else 0)

/-- Store a frame that passed every row but the policer's, which meters `ln` bytes (R252); it is a parser candidate
then. -/
def State.rxStore (s : State) (f ln : Nat) (bs : List Byte) : State :=
  let id := (s.frame f).src
  let r := s.meter id (s.flag Reg.SCH_POL_en id) (s.get Reg.SCH_POL_rate id) (s.get Reg.SCH_POL_burst id) ln
  if !r.1 then (r.2.cnt id cRxDropPol 1).rxDiscard f
  else
    let p := if id < 16 then r.2.ingressPrio id bs else 0
    let s := r.2.updFrame f (fun x => { x with bytes := bs, stage := .parse, iprio := p })
    ((s.cnt id cRxFrames 1).cnt id cRxBytes ln).judgePort id

/-- The frame is stored for the channel that its tag names, and charged to it (R223, R248). -/
def State.moveFrame (s : State) (f id : Nat) : State :=
  let x := s.frame f
  if x.src = id then s
  else
    let t := (s.setCharge x.src (s.get Reg.SCH_BUF_PORT_charge x.src - x.cells)).judgePort x.src
    ((t.setCharge id (t.get Reg.SCH_BUF_PORT_charge id + x.cells)).updFrame f (fun y => { y with src := id })).judgePort id

/-- The channel tag of a received frame is removed: a valid one of a data frame for an enabled channel (R223). -/
def State.tagGoes (s : State) (n : Nat) (bs : List Byte) : Bool :=
  ownTag bs && byteAt bs 14 / 64 == 1 && byteAt bs 15 / 32 % 4 == 0 && s.flag Reg.TLK_CH_CFG_en (64 * n + byteAt bs 14 % 64)

/-- The tag of a frame on tenant link `n` is judged (R223); a data frame loses it. -/
def State.tagIn (s : State) (n f ln : Nat) (bs : List Byte) : State :=
  let c := byteAt bs 14 % 64
  let fl := byteAt bs 15
  if beAt bs 12 2 = 0x8808 then (s.lcnt n lRxMacCtl).rxDiscard f
  else if !ownTag bs || byteAt bs 14 / 64 != 1 then (s.lcnt n lRxBadTag).rxDiscard f
  else if bit fl 6 then (s.rxDiscard f).ctlFrame n bs
  else if bit fl 5 then (s.lcnt n lRxTrgDrop).rxDiscard f
  else if !s.flag Reg.TLK_CH_CFG_en (64 * n + c) then (s.lcnt n lRxChDis).rxDiscard f
  else
    let s := if bit fl 7 then
        (s.set Reg.TLK_TSAUX_arr n ((s.frame f).arrq / 4)).set Reg.TLK_TSAUX_aux n (beAt bs 16 4)
      else s
    (s.moveFrame f (0x100 + 64 * n + c)).rxStore f ln (bs.take 12 ++ bs.drop 20)

/-- The frame being received by unit `m` has ended: its bytes, tag and all, without the FCS. -/
def execFrameEnd (m : Nat) (fcsOk : Bool) (bytes : List Byte) (s : State) : Res :=
  match s.get Reg.PT_rx m with
  | 0 => .next s
  | f + 1 =>
    let s := s.set Reg.PT_rx m 0
    let ten := decide (16 ≤ m)
    let n := m - 16
    let id := (s.frame f).src
    let ln := bytes.length + 4 - (if ten && s.tagGoes n bytes then 8 else 0)
    let count := fun (l p : Nat) => if ten then s.lcnt n l else s.cnt m p 1
    if !s.portsOn || !s.portUp id then .next (s.rxDiscard f)
    else if !fcsOk then .next ((count lRxFcs cRxFcs).rxDiscard f)
    else if ln < 64 then .next ((count lRxRunt cRxRunt).rxDiscard f)
    else if s.maxLen id < ln then .next ((count lRxOversize cRxOversize).rxDiscard f)
    else if ten then .next (s.tagIn n f ln bytes)
    else if beAt bytes 12 2 = 0x8808 then .next ((s.rxDiscard f).macControl m bytes)
    else .next (s.rxStore f ln bytes)

/-! ## Host frames (R250, R421) -/

/-- Frames of host work that wait for the host pool. -/
def State.poolWaits (s : State) : List (Nat × Frame) :=
  s.frames.filter (fun e => e.2.qp1 != 0 && e.2.stage == .arriving && e.2.cells == 0 && !e.2.part)

/-- The functions with a waiting frame, each below its limit (R421). -/
def State.poolFns (s : State) : List Nat :=
  ((s.poolWaits.map (fun e => s.qOwner (e.2.qp1 - 1))).eraseDups).filter (fun g =>
    !s.fnHeld g && decide (s.frames.foldl (fun a e =>
      if e.2.qp1 != 0 && s.qOwner (e.2.qp1 - 1) == g then a + e.2.cells else a) 0 < 4 * s.get Reg.FN_QOS_host_kib g))

/-- The frame a function fetches next: that of its next queue in rotation, the oldest of the queue. -/
def State.poolNext (s : State) (g : Nat) : Option (Nat × Frame) :=
  let l := s.poolWaits.filter (fun e => s.qOwner (e.2.qp1 - 1) == g)
  let q := rotNext ((l.map (fun e => e.2.qp1 - 1)).eraseDups) (s.get Reg.FHX_q 0)
  (l.filter (fun e => e.2.qp1 - 1 == q)).foldl (fun a e =>
    match a with
    | none => some e
    | some b => if seqBefore e.2.seq b.2.seq then some e else a) none

/-- Deficit round robin over functions, with a quantum of `tx_w` times 4 KiB (R421). -/
def poolDwrr (fns : List Nat) : Nat → Nat → State → Option (Nat × Frame) × State
  | 0, _, s => (none, s)
  | n + 1, g, s =>
    match s.poolNext g with
    | none => (none, s)
    | some e =>
      let d := s.get Reg.FHX_def g
      if e.2.need ≤ d then (some e, (s.set Reg.FHX_def g (d - e.2.need)).set Reg.FHX_ptr 0 g)
      else poolDwrr fns n (rotNext fns g) (s.set Reg.FHX_def g (d + 4096 * max 1 (s.get Reg.FN_QOS_tx_w g)))

/-- The frame that has the next place in the host pool is fetched, once the pool has room for all of it. -/
def execHostFrameFetch (s : State) : Res :=
  let fns := s.poolFns
  if !s.moving || fns.isEmpty then .next s
  else
    let idle := (s.instances Reg.FHX_def).filter (fun g => !fns.contains g)
    let s := forEach idle (fun g t => t.set Reg.FHX_def g 0) s
    match poolDwrr fns (8 * fns.length) (rotAt fns (s.get Reg.FHX_ptr 0)) s with
    | (none, _) => .next s
    | (some (f, x), t) =>
      let n := cellsOf x.need
      if 4 * s.get Reg.SCH_BUF_CFG_host_kib 0 < s.get Reg.SCX_host 0 + n then .next s
      else
        let q := x.qp1 - 1
        let t := ((t.set Reg.SCX_host 0 (t.get Reg.SCX_host 0 + n)).set Reg.FHX_q 0 q).updFrame f (fun x => { x with cells := n })
        match t.entAt q x.idx with
        | none => .next t
        | some e =>
          if weIndirect e.bytes then
            .next (forEach e.frags (fun d u => u.hostRead (u.qOwner q) d.1 d.2.1 d.2.2.1 d.2.2.2 (.entry q x.idx)) t)
          else .next (t.hostRead (t.qOwner q) (weAddr e.bytes) x.need (weRo e.bytes) (weNs e.bytes) (.entry q x.idx))

/-- The bytes of a TX entry's frame are in the cell buffer: it is a parser candidate (R170); a read that failed completes
the entry with READ_ERROR. -/
def execHostFrameReady (q idx : Nat) (src : ReadResult) (s : State) : Res :=
  match (s.frames.find? (fun e => e.2.qp1 == q + 1 && e.2.idx == idx && e.2.stage == .arriving && e.2.cells != 0)) with
  | none => .next s
  | some (f, x) =>
    match src with
    | .data bs => .next ((s.updFrame f (fun y => { y with bytes := padTo x.need bs, need := 0, stage := .parse })).pmu 19 1 x.cells)
    | e => .next ((s.aer (s.qOwner q) (ReadResult.aerBit e) false []).endFrame f 0x23)

end Sys2Proof.Machine
end

