-- ==== Sys2Proof/Machine/Niris.lean ====
section
/-! DEFINITION. Sys2Proof/Machine/Niris.lean: the Niris instructions (chapter "The Niris Instruction Set"). Each command is
the next slot of thread `t` where the thread has reached that instruction; `mis` says that in GUARD the checker's slot
differed (R103). LD and ST are in NirisMem.lean, the engine commands in Engine.lean. -/

namespace Sys2Proof.Machine

/-! ## ALU instructions (Table NI-5) -/

def execAdd (t : Nat) (mis : Bool) (s : State) : Res := .next (s.slot t 0x10 mis (State.alu aAdd false))
def execAddi (t : Nat) (mis : Bool) (s : State) : Res := .next (s.slot t 0x11 mis (State.alu aAdd true))
def execSub (t : Nat) (mis : Bool) (s : State) : Res := .next (s.slot t 0x12 mis (State.alu aSub false))
def execSubi (t : Nat) (mis : Bool) (s : State) : Res := .next (s.slot t 0x13 mis (State.alu aSub true))
def execAnd (t : Nat) (mis : Bool) (s : State) : Res := .next (s.slot t 0x14 mis (State.alu aAnd false))
def execAndi (t : Nat) (mis : Bool) (s : State) : Res := .next (s.slot t 0x15 mis (State.alu aAnd true))
def execOr (t : Nat) (mis : Bool) (s : State) : Res := .next (s.slot t 0x16 mis (State.alu aOr false))
def execOri (t : Nat) (mis : Bool) (s : State) : Res := .next (s.slot t 0x17 mis (State.alu aOr true))
def execXor (t : Nat) (mis : Bool) (s : State) : Res := .next (s.slot t 0x18 mis (State.alu aXor false))
def execXori (t : Nat) (mis : Bool) (s : State) : Res := .next (s.slot t 0x19 mis (State.alu aXor true))
def execShl (t : Nat) (mis : Bool) (s : State) : Res := .next (s.slot t 0x1A mis (State.alu aShl false))
def execShli (t : Nat) (mis : Bool) (s : State) : Res := .next (s.slot t 0x1B mis (State.alu aShl true))
def execShr (t : Nat) (mis : Bool) (s : State) : Res := .next (s.slot t 0x1C mis (State.alu aShr false))
def execShri (t : Nat) (mis : Bool) (s : State) : Res := .next (s.slot t 0x1D mis (State.alu aShr true))
def execSar (t : Nat) (mis : Bool) (s : State) : Res := .next (s.slot t 0x1E mis (State.alu aSar false))
def execSari (t : Nat) (mis : Bool) (s : State) : Res := .next (s.slot t 0x1F mis (State.alu aSar true))
def execRot (t : Nat) (mis : Bool) (s : State) : Res := .next (s.slot t 0x20 mis (State.alu aRot false))
def execRoti (t : Nat) (mis : Bool) (s : State) : Res := .next (s.slot t 0x21 mis (State.alu aRot true))
def execMul (t : Nat) (mis : Bool) (s : State) : Res := .next (s.slot t 0x22 mis (State.alu aMul false))
def execMuli (t : Nat) (mis : Bool) (s : State) : Res := .next (s.slot t 0x23 mis (State.alu aMul true))
def execCmp (t : Nat) (mis : Bool) (s : State) : Res := .next (s.slot t 0x24 mis (State.compare false))
def execCmpi (t : Nat) (mis : Bool) (s : State) : Res := .next (s.slot t 0x25 mis (State.compare true))
def execSel (t : Nat) (mis : Bool) (s : State) : Res := .next (s.slot t 0x26 mis (State.selOp false))
def execSeli (t : Nat) (mis : Bool) (s : State) : Res := .next (s.slot t 0x27 mis (State.selOp true))
def execExt (t : Nat) (mis : Bool) (s : State) : Res := .next (s.slot t 0x28 mis semExt)
def execIns (t : Nat) (mis : Bool) (s : State) : Res := .next (s.slot t 0x29 mis semIns)
def execPopc (t : Nat) (mis : Bool) (s : State) : Res := .next (s.slot t 0x2A mis (State.unary uPopc))
def execClz (t : Nat) (mis : Bool) (s : State) : Res := .next (s.slot t 0x2B mis (State.unary uClz))
def execBswap (t : Nat) (mis : Bool) (s : State) : Res := .next (s.slot t 0x2C mis (State.unary uBswap))
def execCsum (t : Nat) (mis : Bool) (s : State) : Res := .next (s.slot t 0x2D mis semCsum)
/-! ## Memory instructions (Table NI-7) -/

def execPld (t : Nat) (mis : Bool) (s : State) : Res := .next (s.slot t 0x42 mis semPld)
def execPst (t : Nat) (mis : Bool) (s : State) : Res := .next (s.slot t 0x43 mis semPst)
def execSld (t : Nat) (mis : Bool) (s : State) : Res := .next (s.slot t 0x44 mis semSld)
def execSst (t : Nat) (mis : Bool) (s : State) : Res := .next (s.slot t 0x45 mis semSst)
def execSadd (t : Nat) (mis : Bool) (s : State) : Res := .next (s.slot t 0x46 mis semSadd)
def execScas (t : Nat) (mis : Bool) (s : State) : Res := .next (s.slot t 0x47 mis semScas)
/-! ## Control instructions (Table NI-9) -/

def execBr (t : Nat) (mis : Bool) (s : State) : Res := .next (s.slot t 0x60 mis semBr)
def execBrc (t : Nat) (mis : Bool) (s : State) : Res := .next (s.slot t 0x61 mis semBrc)
def execCall (t : Nat) (mis : Bool) (s : State) : Res := .next (s.slot t 0x62 mis semCall)
def execRet (t : Nat) (mis : Bool) (s : State) : Res := .next (s.slot t 0x63 mis semRet)
def execJmpt (t : Nat) (mis : Bool) (s : State) : Res := .next (s.slot t 0x64 mis semJmpt)
/-! ## Events and time (Table NI-10) -/

def execWaite (t : Nat) (mis : Bool) (s : State) : Res := .next (s.slot t 0x70 mis semWaite)
def execSige (t : Nat) (mis : Bool) (s : State) : Res := .next (s.slot t 0x71 mis semSige)
def execWaitt (t : Nat) (mis : Bool) (s : State) : Res := .next (s.slot t 0x72 mis semWaitt)
def execRdt (t : Nat) (mis : Bool) (s : State) : Res := .next (s.slot t 0x73 mis semRdt)
/-! ## Staging, tags and tickets (Table NI-11) -/

def execCmdw (t : Nat) (mis : Bool) (s : State) : Res := .next (s.slot t 0x80 mis semCmdw)
def execCmdr (t : Nat) (mis : Bool) (s : State) : Res := .next (s.slot t 0x82 mis semCmdr)
def execTkt (t : Nat) (mis : Bool) (s : State) : Res := .next (s.slot t 0x84 mis semTkt)

/-! ## REL (R117, R160) -/

def execRelForward (t : Nat) (mis : Bool) (s : State) : Res :=
  .next (s.slotIf t 0x85 mis (fun w => iMod w == 0) semRelForward)
def execRelDrop (t : Nat) (mis : Bool) (s : State) : Res :=
  .next (s.slotIf t 0x85 mis (fun w => iMod w == 1) semRelDrop)
def execRelPass (t : Nat) (mis : Bool) (s : State) : Res :=
  .next (s.slotIf t 0x85 mis (fun w => iMod w == 2) semRelPass)

/-! ## Supervisor instructions (Table NI-20) -/

def execThst (t : Nat) (mis : Bool) (s : State) : Res := .next (s.slot t 0xF0 mis semThst)
def execThrs (t : Nat) (mis : Bool) (s : State) : Res := .next (s.slot t 0xF1 mis semThrs)
def execFltr (t : Nat) (mis : Bool) (s : State) : Res := .next (s.slot t 0xF2 mis semFltr)

end Sys2Proof.Machine
end

