-- ==== Sys2Proof/Machine/NirisMem.lean ====
section
/-! DEFINITION. Sys2Proof/Machine/NirisMem.lean: LD and ST, which on management cores reach device registers (R149, R150,
Table NI-8). -/

namespace Sys2Proof.Machine

/-- The PF BAR0 offset that a load or store of a management thread reaches. -/
def State.devOff (s : State) (t w : Nat) : Option Nat :=
  let a := s.ea t w
  if 4096 ≤ t ∧ 2 ^ 32 ≤ a ∧ a < 2 ^ 32 + 2 ^ 26 then some (a - 2 ^ 32) else none

/-- LD of a thread: a device register is read in four bytes, as a PF reads it. -/
def semLoad (t w : Nat) (s : State) : State :=
  match s.devOff t w with
  | none => semLd t w s
  | some off =>
    if accSize w ≠ 4 ∨ off % 4 ≠ 0 then s.fault t 2 0 (s.ea t w % 2 ^ 32)
    else
      let r := s.devRead (.fw (t - 4096)) .bar0 off 4
      (r.1.tput t (iDst w) (loadExt w r.2)).retire t

/-- ST of a thread. -/
def semStore (t w : Nat) (s : State) : State :=
  match s.devOff t w with
  | none => semSt t w s
  | some off =>
    if accSize w ≠ 4 ∨ off % 4 ≠ 0 then s.fault t 2 0 (s.ea t w % 2 ^ 32)
    else (s.devWrite (.fw (t - 4096)) .bar0 off 4 (s.tg t (iS2 w) % 2 ^ 32)).retire t

def execLd (t : Nat) (mis : Bool) (s : State) : Res := .next (s.slot t 0x40 mis semLoad)
def execSt (t : Nat) (mis : Bool) (s : State) : Res := .next (s.slot t 0x41 mis semStore)

end Sys2Proof.Machine
end

