-- ==== Sys2Proof/Machine/Tick.lean ====
section
/-! DEFINITION. Sys2Proof/Machine/Tick.lean: one tick of the time clock with everything that is scheduled for it (R18). -/

namespace Sys2Proof.Machine

/-- What Meridian time schedules for the present tick and no command has carried out yet (R18): take-overs, staged loads,
TRG frames, firings, falls of pulses, PPS edges, DMA start times, the periodic strobe and the steps of a table
operation. -/
def State.runDue (s : State) : State :=
  let s := forEach (s.having Reg.SCH_GATE_STATUS_pending 1) (fun id t => t.takeover id) s
  let s := forEach (s.having Reg.MT_TRIG_STATUS_staged 1) (fun k t => t.stageLoad k) s
  let s := forEach (s.having Reg.MT_TRIG_STATUS_armed 1) (fun k t => t.trgLead k) s
  let s := forEach (s.having Reg.MT_TRIG_STATUS_armed 1) (fun k t => t.fire k) s
  let s := forEach (s.falls.map (fun p => p.1)) (fun k t => t.pulseEnd k) s
  let s := s.ppsFall.ppsRise
  (forEach (s.having Reg.DMX_wait 1) (fun c t => t.stimeReached c) s).periodic.tblDue

/-- The places in a core whose slots begin in the present nanosecond: place n mod 16 in core cycle n, of 1.6 in a nanosecond
(R97). -/
def slotPlaces (clk : Nat) : List Nat :=
  let n := (8 * clk + 4) / 5
  ((List.range 2).filter (fun k => decide (5 * (n + k) < 8 * clk + 8))).map (fun k => (n + k) % 16)

/-- A thread has no instruction to issue in its slot: idle, parked, halted, in a gated cluster, in a pair that copies; in
GUARD a checker's as the lead's (R100, R103, Table PM-3). -/
def State.starved (s : State) (t : Nat) : Bool :=
  let l := if s.guard && decide (t < 4096) && !s.threadNamed t then t - 16 else t
  s.get Reg.TH_mode l != 1 || s.flag Reg.TH_halt l || !s.coreOpen l

/-- A front-starved slot of one thread; one that holds a packet and is not halted counts it in its budget (R125). -/
def State.starveSlot (s : State) (t : Nat) : State :=
  let s := if s.get Reg.TH_mode t == 1 && !s.flag Reg.TH_halt t && s.threadNamed t then s.slotPass t else s
  (s.inc Reg.PMU_SLOT_FRONT_front t).coreEvOne t 3

/-- The front-starved slots of the present tick. The slots of a thread that has an instruction are its commands (log
entry 27). -/
def State.starve (s : State) : State :=
  if s.coresRun && s.coreClock then
    let l := (slotPlaces s.clk).flatMap (fun j => ((List.range 260).map (fun c => 16 * c + j)).filter (fun t => s.starved t))
    forEach l (fun t u => u.starveSlot t) s
  else s

/-- The block events of Table PM-1 that are counted in cycles: a dispatch queue is full, in clocks of 1.2 GHz, and a host
link is down, in clocks of 1 GHz. -/
def State.cycleEvents (s : State) : State :=
  if s.coresRun && s.coreClock then
    let n := 6 * (s.clk + 1) / 5 - 6 * s.clk / 5
    let s := forEach ((List.range 8).filter (fun p => decide (8192 ≤ (SM.get [] s.dispq p).length))) (fun p t => t.pmu (1 + p) 5 n) s
    forEach ([0, 1].filter (fun h => !s.flag Reg.HE_LINK_up h)) (fun h t => t.pmu (17 + h) 4 1) s
  else s

/-- One tick: what is due in the present tick takes place, and the clock goes on (R18, R276). -/
def State.tick (s : State) : State := s.runDue.starve.cycleEvents.advance

/-- A number of ticks. -/
def State.ticks : Nat → State → State
  | 0, s => s
  | n + 1, s => State.ticks n s.tick

/-- The ticks of the slew that remain pass, the last of which adds only what is left (R281; log entry 9). -/
def execSlewDone (s : State) : Res :=
  if !s.flag Reg.MT_STATUS_slewing 0 then .next s else .next (State.ticks s.slewTicks s)

end Sys2Proof.Machine
end

