-- ==== Sys2Proof/Machine/Dispatch.lean ====
section
/-! DEFINITION. Sys2Proof/Machine/Dispatch.lean: which meaning each command has. -/

namespace Sys2Proof.Machine

def exec (i : Instr) (s : State) : Host.Outcome State Fault Refusal :=
  match i with
  | .registerWrite who bar off size val => Sys2Proof.Machine.execRegisterWrite who bar off size val s
  | .rcRead who bar off size => Sys2Proof.Machine.execRcRead who bar off size s
  | .aonStart low rails ms => Sys2Proof.Machine.execAonStart low rails ms s
  | .vddAonLoss => Sys2Proof.Machine.execVddAonLoss s
  | .railLeavesRange rail => Sys2Proof.Machine.execRailLeavesRange rail s
  | .sysRstNAssert => Sys2Proof.Machine.execSysRstNAssert s
  | .sysRstNRelease role ms => Sys2Proof.Machine.execSysRstNRelease role ms s
  | .glbProfileWrite who val => Sys2Proof.Machine.execGlbProfileWrite who val s
  | .profileChangeDone => Sys2Proof.Machine.execProfileChangeDone s
  | .dpEnSet who => Sys2Proof.Machine.execDpEnSet who s
  | .dpEnClear who => Sys2Proof.Machine.execDpEnClear who s
  | .drainComplete => Sys2Proof.Machine.execDrainComplete s
  | .pollDue qs => Sys2Proof.Machine.execPollDue qs s
  | .pollDataReturn q res => Sys2Proof.Machine.execPollDataReturn q res s
  | .entryAccept q => Sys2Proof.Machine.execEntryAccept q s
  | .fragmentTableReadReturn q idx res => Sys2Proof.Machine.execFragmentTableReadReturn q idx res s
  | .wbTimerExpiry q => Sys2Proof.Machine.execWbTimerExpiry q s
  | .dormancyStart q => Sys2Proof.Machine.execDormancyStart q s
  | .armWrite gfn loc => Sys2Proof.Machine.execArmWrite gfn loc s
  | .queueEnable who q => Sys2Proof.Machine.execQueueEnable who q s
  | .queueDisable who q => Sys2Proof.Machine.execQueueDisable who q s
  | .queueDrainComplete q => Sys2Proof.Machine.execQueueDrainComplete q s
  | .startIndexWrite who q cons => Sys2Proof.Machine.execStartIndexWrite who q cons s
  | .cringEnable who r => Sys2Proof.Machine.execCringEnable who r s
  | .cringDisable who r => Sys2Proof.Machine.execCringDisable who r s
  | .consumerWordReadReturn r res => Sys2Proof.Machine.execConsumerWordReadReturn r res s
  | .cqStall q => Sys2Proof.Machine.execCqStall q s
  | .evringWrite who pf val => Sys2Proof.Machine.execEvringWrite who pf val s
  | .evBacklogConsRead pf => Sys2Proof.Machine.execEvBacklogConsRead pf s
  | .firnFlushDone => Sys2Proof.Machine.execFirnFlushDone s
  | .pwrWarn => Sys2Proof.Machine.execPwrWarn s
  | .completionSeal => Sys2Proof.Machine.execCompletionSeal s
  | .packetDispatch p => Sys2Proof.Machine.execPacketDispatch p s
  | .add t mis => Sys2Proof.Machine.execAdd t mis s
  | .addi t mis => Sys2Proof.Machine.execAddi t mis s
  | .sub t mis => Sys2Proof.Machine.execSub t mis s
  | .subi t mis => Sys2Proof.Machine.execSubi t mis s
  | .and t mis => Sys2Proof.Machine.execAnd t mis s
  | .andi t mis => Sys2Proof.Machine.execAndi t mis s
  | .or t mis => Sys2Proof.Machine.execOr t mis s
  | .ori t mis => Sys2Proof.Machine.execOri t mis s
  | .xor t mis => Sys2Proof.Machine.execXor t mis s
  | .xori t mis => Sys2Proof.Machine.execXori t mis s
  | .shl t mis => Sys2Proof.Machine.execShl t mis s
  | .shli t mis => Sys2Proof.Machine.execShli t mis s
  | .shr t mis => Sys2Proof.Machine.execShr t mis s
  | .shri t mis => Sys2Proof.Machine.execShri t mis s
  | .sar t mis => Sys2Proof.Machine.execSar t mis s
  | .sari t mis => Sys2Proof.Machine.execSari t mis s
  | .rot t mis => Sys2Proof.Machine.execRot t mis s
  | .roti t mis => Sys2Proof.Machine.execRoti t mis s
  | .mul t mis => Sys2Proof.Machine.execMul t mis s
  | .muli t mis => Sys2Proof.Machine.execMuli t mis s
  | .cmp t mis => Sys2Proof.Machine.execCmp t mis s
  | .cmpi t mis => Sys2Proof.Machine.execCmpi t mis s
  | .sel t mis => Sys2Proof.Machine.execSel t mis s
  | .seli t mis => Sys2Proof.Machine.execSeli t mis s
  | .ext t mis => Sys2Proof.Machine.execExt t mis s
  | .ins t mis => Sys2Proof.Machine.execIns t mis s
  | .popc t mis => Sys2Proof.Machine.execPopc t mis s
  | .clz t mis => Sys2Proof.Machine.execClz t mis s
  | .bswap t mis => Sys2Proof.Machine.execBswap t mis s
  | .csum t mis => Sys2Proof.Machine.execCsum t mis s
  | .ld t mis => Sys2Proof.Machine.execLd t mis s
  | .st t mis => Sys2Proof.Machine.execSt t mis s
  | .pld t mis => Sys2Proof.Machine.execPld t mis s
  | .pst t mis => Sys2Proof.Machine.execPst t mis s
  | .sld t mis => Sys2Proof.Machine.execSld t mis s
  | .sst t mis => Sys2Proof.Machine.execSst t mis s
  | .sadd t mis => Sys2Proof.Machine.execSadd t mis s
  | .scas t mis => Sys2Proof.Machine.execScas t mis s
  | .br t mis => Sys2Proof.Machine.execBr t mis s
  | .brc t mis => Sys2Proof.Machine.execBrc t mis s
  | .call t mis => Sys2Proof.Machine.execCall t mis s
  | .ret t mis => Sys2Proof.Machine.execRet t mis s
  | .jmpt t mis => Sys2Proof.Machine.execJmpt t mis s
  | .waite t mis => Sys2Proof.Machine.execWaite t mis s
  | .evTimeout t => Sys2Proof.Machine.execEvTimeout t s
  | .sige t mis => Sys2Proof.Machine.execSige t mis s
  | .waitt t mis => Sys2Proof.Machine.execWaitt t mis s
  | .rdt t mis => Sys2Proof.Machine.execRdt t mis s
  | .cmdw t mis => Sys2Proof.Machine.execCmdw t mis s
  | .cmdr t mis => Sys2Proof.Machine.execCmdr t mis s
  | .tkt t mis => Sys2Proof.Machine.execTkt t mis s
  | .relForward t mis => Sys2Proof.Machine.execRelForward t mis s
  | .relDrop t mis => Sys2Proof.Machine.execRelDrop t mis s
  | .relPass t mis => Sys2Proof.Machine.execRelPass t mis s
  | .thst t mis => Sys2Proof.Machine.execThst t mis s
  | .thrs t mis => Sys2Proof.Machine.execThrs t mis s
  | .fltr t mis => Sys2Proof.Machine.execFltr t mis s
  | .lockstepResyncDone k => Sys2Proof.Machine.execLockstepResyncDone k s
  | .flowLookup t mis full bad => Sys2Proof.Machine.execFlowLookup t mis full bad s
  | .flowInsert t mis full => Sys2Proof.Machine.execFlowInsert t mis full s
  | .flowDelete t mis full => Sys2Proof.Machine.execFlowDelete t mis full s
  | .lpmLookup t mis full bad => Sys2Proof.Machine.execLpmLookup t mis full bad s
  | .l2Lookup t mis full bad => Sys2Proof.Machine.execL2Lookup t mis full bad s
  | .cipherEncrypt t mis full => Sys2Proof.Machine.execCipherEncrypt t mis full s
  | .cipherDecrypt t mis full => Sys2Proof.Machine.execCipherDecrypt t mis full s
  | .cipherMacGen t mis full => Sys2Proof.Machine.execCipherMacGen t mis full s
  | .cipherMacVerify t mis full => Sys2Proof.Machine.execCipherMacVerify t mis full s
  | .dmaStart t mis full => Sys2Proof.Machine.execDmaStart t mis full s
  | .dmaCopy t mis full => Sys2Proof.Machine.execDmaCopy t mis full s
  | .counterAdd t mis full => Sys2Proof.Machine.execCounterAdd t mis full s
  | .counterRead t mis full => Sys2Proof.Machine.execCounterRead t mis full s
  | .counterReadClear t mis full => Sys2Proof.Machine.execCounterReadClear t mis full s
  | .sendFrame t mis full => Sys2Proof.Machine.execSendFrame t mis full s
  | .sendMbx t mis full => Sys2Proof.Machine.execSendMbx t mis full s
  | .triggerArm t mis full => Sys2Proof.Machine.execTriggerArm t mis full s
  | .triggerDisarm t mis full => Sys2Proof.Machine.execTriggerDisarm t mis full s
  | .cmdResultArrival k => Sys2Proof.Machine.execCmdResultArrival k s
  | .ticketHoldExpiry t k => Sys2Proof.Machine.execTicketHoldExpiry t k s
  | .slotBudgetExpiry t => Sys2Proof.Machine.execSlotBudgetExpiry t s
  | .clusterDeadlock k => Sys2Proof.Machine.execClusterDeadlock k s
  | .supRestart who k val => Sys2Proof.Machine.execSupRestart who k val s
  | .sessionOpen who mask => Sys2Proof.Machine.execSessionOpen who mask s
  | .sessionClose who => Sys2Proof.Machine.execSessionClose who s
  | .halt who t => Sys2Proof.Machine.execHalt who t s
  | .resume who t => Sys2Proof.Machine.execResume who t s
  | .step who t => Sys2Proof.Machine.execStep who t s
  | .debugRelease who t => Sys2Proof.Machine.execDebugRelease who t s
  | .heartbeat who val => Sys2Proof.Machine.execHeartbeat who val s
  | .mgmtStall => Sys2Proof.Machine.execMgmtStall s
  | .mgmtRestart who => Sys2Proof.Machine.execMgmtRestart who s
  | .mgmtRestartDone nor => Sys2Proof.Machine.execMgmtRestartDone nor s
  | .frameFirstCell id len ago => Sys2Proof.Machine.execFrameFirstCell id len ago s
  | .frameEnd m fcsOk bytes => Sys2Proof.Machine.execFrameEnd m fcsOk bytes s
  | .hostFrameFetch => Sys2Proof.Machine.execHostFrameFetch s
  | .hostFrameReady q idx src => Sys2Proof.Machine.execHostFrameReady q idx src s
  | .frameParse p bad => Sys2Proof.Machine.execFrameParse p bad s
  | .clsWrite who p index => Sys2Proof.Machine.execClsWrite who p index s
  | .clsInval who p index => Sys2Proof.Machine.execClsInval who p index s
  | .selWrite who p index => Sys2Proof.Machine.execSelWrite who p index s
  | .prfWrite who p index => Sys2Proof.Machine.execPrfWrite who p index s
  | .kselWrite who p index => Sys2Proof.Machine.execKselWrite who p index s
  | .pclassWrite who p index => Sys2Proof.Machine.execPclassWrite who p index s
  | .updateCommit who p => Sys2Proof.Machine.execUpdateCommit who p s
  | .updateDiscard who p => Sys2Proof.Machine.execUpdateDiscard who p s
  | .updateWindowEnd p ns => Sys2Proof.Machine.execUpdateWindowEnd p ns s
  | .clsRead who p index => Sys2Proof.Machine.execClsRead who p index s
  | .tblFlowInsert who => Sys2Proof.Machine.execTblFlowInsert who s
  | .flowReplace who => Sys2Proof.Machine.execFlowReplace who s
  | .tblFlowDelete who => Sys2Proof.Machine.execTblFlowDelete who s
  | .flowRead who => Sys2Proof.Machine.execFlowRead who s
  | .tblFlowLookup who bad => Sys2Proof.Machine.execTblFlowLookup who bad s
  | .lpmInsert who pipes => Sys2Proof.Machine.execLpmInsert who pipes s
  | .lpmDelete who pipes => Sys2Proof.Machine.execLpmDelete who pipes s
  | .lpmReplace who pipes => Sys2Proof.Machine.execLpmReplace who pipes s
  | .lpmRewrite who pipes index => Sys2Proof.Machine.execLpmRewrite who pipes index s
  | .lpmRead who pipes index => Sys2Proof.Machine.execLpmRead who pipes index s
  | .l2Static who pipes => Sys2Proof.Machine.execL2Static who pipes s
  | .l2Delete who pipes => Sys2Proof.Machine.execL2Delete who pipes s
  | .l2Flush who pipes => Sys2Proof.Machine.execL2Flush who pipes s
  | .l2Read who pipes index => Sys2Proof.Machine.execL2Read who pipes index s
  | .flowAgeScan index bad => Sys2Proof.Machine.execFlowAgeScan index bad s
  | .l2Learn p => Sys2Proof.Machine.execL2Learn p s
  | .l2HoldEnd p index => Sys2Proof.Machine.execL2HoldEnd p index s
  | .l2AgeScan p index => Sys2Proof.Machine.execL2AgeScan p index s
  | .scrubVisit k p index bad => Sys2Proof.Machine.execScrubVisit k p index bad s
  | .tblEvqPop who => Sys2Proof.Machine.execTblEvqPop who s
  | .nmodeWrite who val => Sys2Proof.Machine.execNmodeWrite who val s
  | .linkUp m => Sys2Proof.Machine.execLinkUp m s
  | .linkDown m => Sys2Proof.Machine.execLinkDown m s
  | .chpause link mask time => Sys2Proof.Machine.execChpause link mask time s
  | .chpauseExpiry link c => Sys2Proof.Machine.execChpauseExpiry link c s
  | .chpauseRefresh link => Sys2Proof.Machine.execChpauseRefresh link s
  | .pause n time => Sys2Proof.Machine.execPause n time s
  | .pfc n vec times => Sys2Proof.Machine.execPfc n vec times s
  | .pauseExpiry n p => Sys2Proof.Machine.execPauseExpiry n p s
  | .pauseRefresh n => Sys2Proof.Machine.execPauseRefresh n s
  | .mgmtRsp slot seq status data => Sys2Proof.Machine.execMgmtRsp slot seq status data s
  | .mgmtReqTimeout slot => Sys2Proof.Machine.execMgmtReqTimeout slot s
  | .mgmtReq who slot val => Sys2Proof.Machine.execMgmtReq who slot val s
  | .credit link kib => Sys2Proof.Machine.execCredit link kib s
  | .powerOn who slot => Sys2Proof.Machine.execPowerOn who slot s
  | .powerGood slot => Sys2Proof.Machine.execPowerGood slot s
  | .pgTimeout slot => Sys2Proof.Machine.execPgTimeout slot s
  | .resetDelayExpiry slot => Sys2Proof.Machine.execResetDelayExpiry slot s
  | .powerOff who slot => Sys2Proof.Machine.execPowerOff who slot s
  | .powerOffDelayExpiry slot => Sys2Proof.Machine.execPowerOffDelayExpiry slot s
  | .reset who slot => Sys2Proof.Machine.execReset who slot s
  | .hold who slot => Sys2Proof.Machine.execHold who slot s
  | .release who slot => Sys2Proof.Machine.execRelease who slot s
  | .slotFault slot low => Sys2Proof.Machine.execSlotFault slot low s
  | .slotPrsntChange slot present => Sys2Proof.Machine.execSlotPrsntChange slot present s
  | .i2cGo who slot val => Sys2Proof.Machine.execI2cGo who slot val s
  | .i2cDone slot status data => Sys2Proof.Machine.execI2cDone slot status data s
  | .portCounterRead who lnk id k hi size => Sys2Proof.Machine.execPortCounterRead who lnk id k hi size s
  | .bufCfgWrite who port id val => Sys2Proof.Machine.execBufCfgWrite who port id val s
  | .policerWrite who host n val => Sys2Proof.Machine.execPolicerWrite who host n val s
  | .nodeWrite who level index => Sys2Proof.Machine.execNodeWrite who level index s
  | .nodeRead who level index => Sys2Proof.Machine.execNodeRead who level index s
  | .frameSelect m => Sys2Proof.Machine.execFrameSelect m s
  | .frameTxEnd m => Sys2Proof.Machine.execFrameTxEnd m s
  | .gateCommit who id => Sys2Proof.Machine.execGateCommit who id s
  | .gateCancel who id => Sys2Proof.Machine.execGateCancel who id s
  | .gateTakeover id => Sys2Proof.Machine.execGateTakeover id s
  | .gateEntryWrite who e val => Sys2Proof.Machine.execGateEntryWrite who e val s
  | .samplePeriod => Sys2Proof.Machine.execSamplePeriod s
  | .nowRead who size => Sys2Proof.Machine.execNowRead who size s
  | .mtIncWrite who val => Sys2Proof.Machine.execMtIncWrite who val s
  | .adjStep who slew => Sys2Proof.Machine.execAdjStep who slew s
  | .adjSlew who slew => Sys2Proof.Machine.execAdjSlew who slew s
  | .slewDone => Sys2Proof.Machine.execSlewDone s
  | .refLost => Sys2Proof.Machine.execRefLost s
  | .refLock => Sys2Proof.Machine.execRefLock s
  | .driftEnter who => Sys2Proof.Machine.execDriftEnter who s
  | .driftExit who estep => Sys2Proof.Machine.execDriftExit who estep s
  | .trigCfgWrite who k reg val => Sys2Proof.Machine.execTrigCfgWrite who k reg val s
  | .arm who k dis => Sys2Proof.Machine.execArm who k dis s
  | .disarm who k => Sys2Proof.Machine.execDisarm who k s
  | .trigStageLoad k => Sys2Proof.Machine.execTrigStageLoad k s
  | .trgLead k => Sys2Proof.Machine.execTrgLead k s
  | .trigFire k => Sys2Proof.Machine.execTrigFire k s
  | .pulseEnd k => Sys2Proof.Machine.execPulseEnd k s
  | .captureEdge src q rise => Sys2Proof.Machine.execCaptureEdge src q rise s
  | .captureSw who j => Sys2Proof.Machine.execCaptureSw who j s
  | .ppsWrite who val => Sys2Proof.Machine.execPpsWrite who val s
  | .ppsRise => Sys2Proof.Machine.execPpsRise s
  | .ppsFall => Sys2Proof.Machine.execPpsFall s
  | .laneCfgWrite who val => Sys2Proof.Machine.execLaneCfgWrite who val s
  | .encrypt q idx => Sys2Proof.Machine.execEncrypt q idx s
  | .decrypt q idx => Sys2Proof.Machine.execDecrypt q idx s
  | .macGen q idx => Sys2Proof.Machine.execMacGen q idx s
  | .macVerify q idx => Sys2Proof.Machine.execMacVerify q idx s
  | .jobStart => Sys2Proof.Machine.execJobStart s
  | .jobComplete lane src tag => Sys2Proof.Machine.execJobComplete lane src tag s
  | .inlineJobStart leaf => Sys2Proof.Machine.execInlineJobStart leaf s
  | .loadWrapped who => Sys2Proof.Machine.execLoadWrapped who s
  | .loadClear who => Sys2Proof.Machine.execLoadClear who s
  | .clearSlot who k => Sys2Proof.Machine.execClearSlot who k s
  | .zeroisePage who => Sys2Proof.Machine.execZeroisePage who s
  | .pageOwnerWrite who pg val => Sys2Proof.Machine.execPageOwnerWrite who pg val s
  | .saWrite who index => Sys2Proof.Machine.execSaWrite who index s
  | .saInvalidate who index => Sys2Proof.Machine.execSaInvalidate who index s
  | .saRead who index => Sys2Proof.Machine.execSaRead who index s
  | .drbgReseed fails => Sys2Proof.Machine.execDrbgReseed fails s
  | .maskReseed => Sys2Proof.Machine.execMaskReseed s
  | .egressStage l => Sys2Proof.Machine.execEgressStage l s
  | .receiveStage h => Sys2Proof.Machine.execReceiveStage h s
  | .coalTimeout k => Sys2Proof.Machine.execCoalTimeout k s
  | .tmplWrite who index => Sys2Proof.Machine.execTmplWrite who index s
  | .tmplRead who index => Sys2Proof.Machine.execTmplRead who index s
  | .nvcWrite who index => Sys2Proof.Machine.execNvcWrite who index s
  | .nvcRead who index => Sys2Proof.Machine.execNvcRead who index s
  | .place q idx => Sys2Proof.Machine.execPlace q idx s
  | .nvmeCancel q idx => Sys2Proof.Machine.execNvmeCancel q idx s
  | .oflEvqPop who => Sys2Proof.Machine.execOflEvqPop who s
  | .send q idx => Sys2Proof.Machine.execSend q idx s
  | .buffer q idx => Sys2Proof.Machine.execBuffer q idx s
  | .copy q idx => Sys2Proof.Machine.execCopy q idx s
  | .start q idx => Sys2Proof.Machine.execStart q idx s
  | .channelStart who c => Sys2Proof.Machine.execChannelStart who c s
  | .dmaStop who c => Sys2Proof.Machine.execDmaStop who c s
  | .eos who c => Sys2Proof.Machine.execEos who c s
  | .fifoPush who c word => Sys2Proof.Machine.execFifoPush who c word s
  | .shadowArm who c => Sys2Proof.Machine.execShadowArm who c s
  | .dmaStimeReached c => Sys2Proof.Machine.execDmaStimeReached c s
  | .dmaRunStart e src => Sys2Proof.Machine.execDmaRunStart e src s
  | .dmaReadbackReturn c rb => Sys2Proof.Machine.execDmaReadbackReturn c rb s
  | .streamBurstEnd c => Sys2Proof.Machine.execStreamBurstEnd c s
  | .pcieLinkUp h speed width flit => Sys2Proof.Machine.execPcieLinkUp h speed width flit s
  | .perstAssert h => Sys2Proof.Machine.execPerstAssert h s
  | .perstRelease h => Sys2Proof.Machine.execPerstRelease h s
  | .hotReset h => Sys2Proof.Machine.execHotReset h s
  | .dlDown h => Sys2Proof.Machine.execDlDown h s
  | .configWrite gfn off be val => Sys2Proof.Machine.execConfigWrite gfn off be val s
  | .bmeClear gfn => Sys2Proof.Machine.execBmeClear gfn s
  | .bmeSet gfn => Sys2Proof.Machine.execBmeSet gfn s
  | .d3hotEntry gfn => Sys2Proof.Machine.execD3hotEntry gfn s
  | .inboundBadAccess gfn rd hdr => Sys2Proof.Machine.execInboundBadAccess gfn rd hdr s
  | .completionTimeout h rtag why hdr => Sys2Proof.Machine.execCompletionTimeout h rtag why hdr s
  | .completionArrival h rtag hdr => Sys2Proof.Machine.execCompletionArrival h rtag hdr s
  | .tagQuarantineEnd h rtag => Sys2Proof.Machine.execTagQuarantineEnd h rtag s
  | .flr gfn => Sys2Proof.Machine.execFlr gfn s
  | .flrQuiesceDone gfn => Sys2Proof.Machine.execFlrQuiesceDone gfn s
  | .vfEnable h => Sys2Proof.Machine.execVfEnable h s
  | .vfDisable h => Sys2Proof.Machine.execVfDisable h s
  | .vmodWrite who pf val => Sys2Proof.Machine.execVmodWrite who pf val s
  | .vmodTimer gfn vec => Sys2Proof.Machine.execVmodTimer gfn vec s
  | .freeze who u gfn => Sys2Proof.Machine.execFreeze who u gfn s
  | .freezeWorkDone u => Sys2Proof.Machine.execFreezeWorkDone u s
  | .freezeImageDone u rb => Sys2Proof.Machine.execFreezeImageDone u rb s
  | .thaw who u gfn img => Sys2Proof.Machine.execThaw who u gfn img s
  | .thawDone u => Sys2Proof.Machine.execThawDone u s
  | .cancel who u gfn => Sys2Proof.Machine.execCancel who u gfn s
  | .harvest who k => Sys2Proof.Machine.execHarvest who k s
  | .harvestDone k rb => Sys2Proof.Machine.execHarvestDone k rb s
  | .mbxCommit who c count => Sys2Proof.Machine.execMbxCommit who c count s
  | .mbxChRxPop who c => Sys2Proof.Machine.execMbxChRxPop who c s
  | .mbxLock who n => Sys2Proof.Machine.execMbxLock who n s
  | .mbxUnlock who n val => Sys2Proof.Machine.execMbxUnlock who n val s
  | .mbxCfgWrite who c irq val => Sys2Proof.Machine.execMbxCfgWrite who c irq val s
  | .post slot seq chan words => Sys2Proof.Machine.execPost slot seq chan words s
  | .pop slot chan epoch => Sys2Proof.Machine.execPop slot chan epoch s
  | .lock slot n => Sys2Proof.Machine.execLock slot n s
  | .unlock slot n => Sys2Proof.Machine.execUnlock slot n s
  | .upCommit who gfn count => Sys2Proof.Machine.execUpCommit who gfn count s
  | .dnCommit who gfn count => Sys2Proof.Machine.execDnCommit who gfn count s
  | .upPop who gfn => Sys2Proof.Machine.execUpPop who gfn s
  | .dnPop who gfn => Sys2Proof.Machine.execDnPop who gfn s
  | .regRead off => Sys2Proof.Machine.execRegRead off s
  | .regWrite off val => Sys2Proof.Machine.execRegWrite off val s
  | .mbxPost chan words => Sys2Proof.Machine.execMbxPost chan words s
  | .setEndpointId op eid => Sys2Proof.Machine.execSetEndpointId op eid s
  | .getEndpointId => Sys2Proof.Machine.execGetEndpointId s
  | .getMctpVersionSupport typ => Sys2Proof.Machine.execGetMctpVersionSupport typ s
  | .getMessageTypeSupport => Sys2Proof.Machine.execGetMessageTypeSupport s
  | .getVendorDefinedMessageSupport idx => Sys2Proof.Machine.execGetVendorDefinedMessageSupport idx s
  | .winCfgWrite who pf w val => Sys2Proof.Machine.execWinCfgWrite who pf w val s
  | .winBlockTake pf w hdr pay => Sys2Proof.Machine.execWinBlockTake pf w hdr pay s
  | .winRetry pf w hdr pay => Sys2Proof.Machine.execWinRetry pf w hdr pay s
  | .pair who => Sys2Proof.Machine.execPair who s
  | .hello ctr strap rev profile widowed idle gmac => Sys2Proof.Machine.execHello ctr strap rev profile widowed idle gmac s
  | .pairTimeout => Sys2Proof.Machine.execPairTimeout s
  | .unpair who => Sys2Proof.Machine.execUnpair who s
  | .unpairGoodbye late => Sys2Proof.Machine.execUnpairGoodbye late s
  | .resync who => Sys2Proof.Machine.execResync who s
  | .resyncStart => Sys2Proof.Machine.execResyncStart s
  | .heartbeatSend alive => Sys2Proof.Machine.execHeartbeatSend alive s
  | .twinHeartbeat ctr auth => Sys2Proof.Machine.execTwinHeartbeat ctr auth s
  | .heartbeatMiss alive wbs cons => Sys2Proof.Machine.execHeartbeatMiss alive wbs cons s
  | .aliveWireFault => Sys2Proof.Machine.execAliveWireFault s
  | .mirror ctr auth recs => Sys2Proof.Machine.execMirror ctr auth recs s
  | .ack ctr auth upTo => Sys2Proof.Machine.execAck ctr auth upTo s
  | .sync ctr auth recs final => Sys2Proof.Machine.execSync ctr auth recs final s
  | .syncDone skip => Sys2Proof.Machine.execSyncDone skip s
  | .goodbye ctr auth unpair wbs cons => Sys2Proof.Machine.execGoodbye ctr auth unpair wbs cons s
  | .twinMbx ctr auth res chan words code => Sys2Proof.Machine.execTwinMbx ctr auth res chan words code s
  | .tsync ctr auth ago => Sys2Proof.Machine.execTsync ctr auth ago s
  | .twnKeyLoad who => Sys2Proof.Machine.execTwnKeyLoad who s
  | .twnKeyClear who => Sys2Proof.Machine.execTwnKeyClear who s
  | .faultDetection src detail dead => Sys2Proof.Machine.execFaultDetection src detail dead s
  | .activeClear who src level => Sys2Proof.Machine.execActiveClear who src level s
  | .faultInject who src detail => Sys2Proof.Machine.execFaultInject who src detail s
  | .devReset who ms => Sys2Proof.Machine.execDevReset who ms s
  | .logPop who => Sys2Proof.Machine.execLogPop who s
  | .railWarning rail => Sys2Proof.Machine.execRailWarning rail s
  | .railUndervoltage rail => Sys2Proof.Machine.execRailUndervoltage rail s
  | .uvHoldClear ms => Sys2Proof.Machine.execUvHoldClear ms s
  | .snapGo who => Sys2Proof.Machine.execSnapGo who s
  | .periodicStrobe => Sys2Proof.Machine.execPeriodicStrobe s
  | .dumpEnable who val => Sys2Proof.Machine.execDumpEnable who val s
  | .slotClear who mask => Sys2Proof.Machine.execSlotClear who mask s
  | .bootStepComplete ms prim primOk alter alterOk fail => Sys2Proof.Machine.execBootStepComplete ms prim primOk alter alterOk fail s
  | .bootStepFail ms none_ => Sys2Proof.Machine.execBootStepFail ms none_ s
  | .ready who ms => Sys2Proof.Machine.execReady who ms s
  | .clearAlt who mask => Sys2Proof.Machine.execClearAlt who mask s
  | .fuseArm who op arg => Sys2Proof.Machine.execFuseArm who op arg s
  | .debugClose who arg => Sys2Proof.Machine.execDebugClose who arg s
  | .revoke who arg => Sys2Proof.Machine.execRevoke who arg s
  | .svn who arg => Sys2Proof.Machine.execSvn who arg s
  | .ledgerSelect who index => Sys2Proof.Machine.execLedgerSelect who index s
  | .sysRefclkLost => Sys2Proof.Machine.execSysRefclkLost s
  | .sysRefclkReturn => Sys2Proof.Machine.execSysRefclkReturn s
  | .sdsCalibrationDone g => Sys2Proof.Machine.execSdsCalibrationDone g s
  | .gateCfgWrite who val => Sys2Proof.Machine.execGateCfgWrite who val s
  | .clusterGate k => Sys2Proof.Machine.execClusterGate k s
  | .clusterWake k => Sys2Proof.Machine.execClusterWake k s
  | .laneGate l => Sys2Proof.Machine.execLaneGate l s
  | .laneWake l => Sys2Proof.Machine.execLaneWake l s
  | .railEntersRange ms => Sys2Proof.Machine.execRailEntersRange ms s
  | .exceptionFrameDispatch m => Sys2Proof.Machine.execExceptionFrameDispatch m s
  | .tblCmdDone => Sys2Proof.Machine.execTblCmdDone s
  | .aerErrorDetected gfn cor k hdr => Sys2Proof.Machine.execAerErrorDetected gfn cor k hdr s

end Sys2Proof.Machine
end

