-- ==== Sys2Proof/Safety.lean ====
section
/-! DEFINITION. Sys2Proof/Safety.lean: the form that every reachable state has, and the words in which the whole-machine
statements speak. -/

namespace Sys2Proof.Machine

/-- The highest code that the manual gives a state field, by the field's number: `GLB_STATE.state` (Table OV-4),
`FN_STATE.state` (R408), `TWN_STATUS.state` (Table TW-3) and the state an unsuccessful PAIR goes back to, and
`DMA_CH_STATUS.state` (its register table). -/
def modeMax (n : Nat) : Option Nat :=
  if n = Reg.GLB_STATE_state.id then some 5
  else if n = Reg.FN_STATE_state.id then some 5
  else if n = Reg.TWN_STATUS_state.id then some 6
  else if n = Reg.TWX_prev.id then some 6
  else if n = Reg.DMA_CH_STATUS_state.id then some 5
  else none

/-- The numbers of the fields that the manual hard-wires: the device number and stepping of `GLB_ID`. -/
def hardWired (n : Nat) : Bool := n == Reg.GLB_ID_device.id || n == Reg.GLB_ID_stepping.id

/-- A listed field is not hard-wired, and if it is a state field, it holds one of its codes. -/
def modeOk (n v : Nat) : Bool :=
  !hardWired n &&
  match modeMax n with
  | some m => decide (v ≤ m)
  | none => true

/-- The form of a state: the register fields listed with rising keys, none of them hard-wired, every state field at a
code that the manual gives it, and the byte memory in its canonical form. -/
def State.wf (s : State) : Bool :=
  SM.sorted s.fld && s.fld.all (fun e => modeOk (e.1 % 4096) e.2) && Memory.wf s.mem

/-- An output by which the device acts on a host as a bus master: a posted write, a read request, an MSI-X message. -/
def Out.bus : Out → Bool
  | .hostWrite .. => true
  | .hostRead .. => true
  | .msix .. => true
  | _ => false

/-- The commands by which WHITEOUT may end (Table OV-4, R507): a loss or a return of the supplies, `SYS_RST_N`, the end
of a hold that held it back, and a device reset, which the BMC requests by its own command or by a register write. -/
def resets : Instr → Bool
  | .aonStart .. => true
  | .vddAonLoss => true
  | .railLeavesRange .. => true
  | .sysRstNAssert => true
  | .uvHoldClear .. => true
  | .devReset .. => true
  | .regWrite .. => true
  | .registerWrite .bmc .. => true
  | _ => false

/-- The commands that are a write of a register at an address: they do what the command of the register does. -/
def writesRegister : Instr → Bool
  | .registerWrite .. => true
  | .regWrite .. => true
  | .st .. => true
  | _ => false

/-- The rows of Table OV-4 that a command is the cause of, from one state to another; from OFF a start may pass through
AON_ONLY, and a device reset too. -/
def tableOV4 (c : Instr) (d d' : Nat) : Bool :=
  match c with
  | .aonStart .. => d == 0 && (d' == dsAonOnly || d' == dsBooting)
  | .vddAonLoss => d' == 0
  | .railLeavesRange .. => d != 0 && d' == dsAonOnly
  | .railEntersRange .. => d == dsAonOnly && d' == dsBooting
  | .sysRstNAssert => d != 0 && d' == dsAonOnly
  | .sysRstNRelease .. => d == dsAonOnly && d' == dsBooting
  | .uvHoldClear .. => (d == dsAonOnly && d' == dsBooting) || (d == dsWhiteout && d' == dsAonOnly)
  | .devReset .. => d == dsWhiteout && (d' == dsAonOnly || d' == dsBooting)
  | .ready .. => d == dsBooting && d' == dsIdle
  | .dpEnSet .. => d == dsIdle && d' == dsService
  | .profileChangeDone => d == dsIdle && d' == dsService
  | .drainComplete => d == dsService && d' == dsIdle
  | _ => false

/-- The commands that move the Meridian count: the supply of the AON domain comes or goes, and the end of a slew, which
stands for its ticks. Every other advance is a tick of the time clock (R276). -/
def movesTime : Instr → Bool
  | .aonStart .. => true
  | .vddAonLoss => true
  | .slewDone => true
  | _ => false

/-- The next slot of a thread executes the instruction with an opcode: the thread issues, the word it has reached is
legal, no budget is due, the predicate holds and no operand waits for a load (R98, R144 to R146). -/
def State.runs (s : State) (t op : Nat) : Bool :=
  let w := s.insn t
  s.issues t && !s.slotFirst t w && iOp w == op && s.predOk t w &&
  (insnRegs w).all (fun r => r == 0 || s.get Reg.TH_hz (32 * t + r) == 0)

/-- From `s` to `v` every general register of every thread is as before, but for register `d` of thread `t`; `d` = 0
names none. -/
def State.keepsRegs (s v : State) (t d : Nat) : Prop :=
  ∀ j, d = 0 ∨ j ≠ 32 * t + d → v.get Reg.TH_g j = s.get Reg.TH_g j

/-- Every flag of every thread is as before. -/
def State.keepsFlags (s v : State) : Prop := ∀ j, v.get Reg.TH_c j = s.get Reg.TH_c j

/-- The staging words, the return stacks, the pending events and what the device has driven are as before. -/
def State.keepsRest (s v : State) : Prop :=
  (∀ j, v.get Reg.TH_w j = s.get Reg.TH_w j) ∧ (∀ j, v.get Reg.TH_rs j = s.get Reg.TH_rs j) ∧
  (∀ j, v.get Reg.TH_rsd j = s.get Reg.TH_rsd j) ∧ (∀ j, v.get Reg.TH_ev j = s.get Reg.TH_ev j) ∧ v.out = s.out

/-- An instruction that writes at most register `d` of thread `t` and goes on to the next one. -/
def State.onlyWrites (s v : State) (t d : Nat) : Prop :=
  v.get Reg.TH_pc t = (s.get Reg.TH_pc t + 1) % 2 ^ 15 ∧ s.keepsRegs v t d ∧ s.keepsFlags v ∧ s.keepsRest v ∧ v.mem = s.mem

/-- The tag of the CMDC that a thread has reached, plus one; 0 where it is posted (R158). -/
def State.cmdTag (s : State) (t : Nat) : Nat := if bit (iDst (s.insn t)) 2 then 0 else iDst (s.insn t) % 4 + 1

/-- The state in which the engine sees the CMDC that a thread has reached: its tag is outstanding. -/
def State.committing (s : State) (t : Nat) : State :=
  if s.cmdTag t = 0 then s.slotPass t else (s.slotPass t).tagOut t (s.cmdTag t - 1)

/-- The next slot of a thread commits a command of an engine and operation under a free tag, or posted. -/
def State.commits (s : State) (t e op : Nat) : Bool :=
  s.runs t 0x81 && iMod (s.insn t) == e && s.tw t 0 % 16 == op &&
  (s.cmdTag t == 0 || !s.flag Reg.TH_tag (4 * t + (s.cmdTag t - 1)))

/-- The command is taken: its instruction retires, and the slot ends. -/
def State.taken (s : State) (t : Nat) : State := ((s.coreEv t 8).retire t).slotEnd t

end Sys2Proof.Machine
end

