-- ==== Sys2Proof/Certificates/Slice0/Obligations.lean ====
section
/-! DEFINITION. Sys2Proof/Certificates/Slice0/Obligations.lean: the statements for the provers. Each says in its docstring
which rules of spec/ it rests on; what is the model's own choice is named with its log entry. -/

open Sys2Proof Sys2Proof.Machine Sys2Proof.Machine.Reg

/-- The invariant `State.wf` holds at reset. -/
def Obligations.ResetStateHasForm : Prop := State.reset.wf = true

/-- The codes of `GLB_STATE.state` (Table OV-4), `FN_STATE.state` (R408), `TWN_STATUS.state` (Table TW-3) and
`DMA_CH_STATUS.state` stay codes of the manual, and `GLB_ID` stays hard-wired, whatever the step. -/
def Obligations.EveryStepKeepsForm : Prop := ∀ s t : State, s.wf = true → step s = .next t → t.wf = true

/-- The queue is first in, first out. The tick on an empty queue is the model's choice (log entry 9). -/
def Obligations.StepRunsFrontCommand : Prop :=
  (∀ (c : Instr) (rest : List Instr) (s : State),
    step { s with pending := c :: rest } = exec c { s with pending := rest }) ∧
  ∀ s : State, s.pending = [] → step s = .next s.tick

/-- No command stops the block, and none touches the queue or takes back what was driven. -/
def Obligations.EveryCommandAnswers : Prop :=
  ∀ (c : Instr) (s : State), ∃ t, exec c s = .next t ∧ t.pending = s.pending ∧ ∃ l, t.out = s.out ++ l

/-- Table OV-4 (R25) over every command but a write of a register by its address, and over the tick. -/
def Obligations.DeviceStateMovesByTable : Prop :=
  ∀ s t : State, s.wf = true → (∀ c, s.pending.head? = some c → writesRegister c = false) → step s = .next t →
    t.dev ≤ 5 ∧
    (t.dev = s.dev ∨ (t.dev = dsWhiteout ∧ s.dev ≠ dsAonOnly ∧ s.dev ≠ 0) ∨
      ∃ c, s.pending.head? = some c ∧ tableOV4 c s.dev t.dev = true)

/-- Table OV-4 and Table FC-4 together: what may end WHITEOUT, and that no bus request leaves the device in it. -/
def Obligations.WhiteoutEndsOnlyByReset : Prop :=
  ∀ s t : State, s.wf = true → s.dev = dsWhiteout → (∀ c, s.pending.head? = some c → resets c = false) →
    step s = .next t → t.dev = dsWhiteout ∧ ∃ l, t.out = s.out ++ l ∧ ∀ o ∈ l, o.bus = false

/-- The count moves by ticks alone; a reset keeps it (R278). -/
def Obligations.CommandsKeepMeridianCount : Prop :=
  ∀ (c : Instr) (s t : State), s.wf = true → movesTime c = false → exec c s = .next t → t.now = s.now

/-- No command un-programs the fuse: the loss of every supply does not. -/
def Obligations.DebugFuseStaysProgrammed : Prop :=
  ∀ s t : State, s.wf = true → s.flag FZ_debug 0 = true → step s = .next t → t.flag FZ_debug 0 = true

/-- The law of the register file on which every statement below rests. -/
def Obligations.FieldReadsBackWhatWasWritten : Prop :=
  ∀ (s : State) (f : Fld) (i v : Nat), SM.sorted s.fld = true →
    (s.set f i v).get f i = v % 2 ^ f.w ∧
    (∀ (g : Fld) (j : Nat), fkey g j ≠ fkey f i → (s.set f i v).get g j = s.get g j) ∧
    ∃ l, s.set f i v = { s with fld := l } ∧ SM.sorted l = true

/-- The law of the stores, windows and pages (Tables FP-3 and CI-1). -/
def Obligations.MemoryReadsBackWhatWasWritten : Prop :=
  ∀ (s : State) (a : Nat) (bs : List Byte), Memory.wf s.mem = true →
    (∀ k x, bs[k]? = some x → Memory.read (s.wr a bs).mem (a + k) = x) ∧
    (∀ b, b < a ∨ a + bs.length ≤ b → Memory.read (s.wr a bs).mem b = Memory.read s.mem b) ∧
    Memory.wf (s.wr a bs).mem = true ∧ ∃ m, s.wr a bs = { s with mem := m }

/-- One tick of the 1 GHz time clock outside a slew and a step (R276); the order within a tick is the model's (log entry 9). -/
def Obligations.TickAdvancesMeridianTime : Prop :=
  ∀ s u : State, s.wf = true → s.pending = [] → s.dev ≠ 0 → u = s.runDue.starve.cycleEvents →
    u.flag MT_STATUS_slewing 0 = false → u.flag MTX_step 0 = false →
    ∃ t, step s = .next t ∧ u.now = s.now ∧
      t.now * 2 ^ 32 + t.get MTX_frac 0 = (s.now * 2 ^ 32 + u.get MTX_frac 0 + u.get MT_INC_inc 0) % 2 ^ 96 ∧
      t.clk = (u.clk + 1) % 2 ^ 64 ∧
      t.dev = u.dev ∧ t.get GLB_PROFILE_profile 0 = u.get GLB_PROFILE_profile 0 ∧ t.get MT_INC_inc 0 = u.get MT_INC_inc 0

/-- Table OV-4 for the commands that reset the device, with what R507 keeps. -/
def Obligations.ResetsMoveTheDevice : Prop :=
  ∀ s : State, s.wf = true →
    (∀ low rails ms, s.dev = 0 → ∃ t, exec (.aonStart low rails ms) s = .next t ∧
      t.dev = if rails = true ∧ low = false then dsBooting else dsAonOnly) ∧
    (s.dev ≠ 0 → ∃ t, exec .vddAonLoss s = .next t ∧ t.dev = 0) ∧
    (∀ r, s.dev ≠ 0 → ∃ t, exec (.railLeavesRange r) s = .next t ∧ t.dev = dsAonOnly ∧ t.flag RAIL_out 0 = true) ∧
    (∀ ms, s.dev = dsAonOnly → s.flag RST_low 0 = false → s.flag FLT_RAIL_uv_hold 0 = false →
      ∃ t, exec (.railEntersRange ms) s = .next t ∧ t.dev = dsBooting ∧ t.get GLB_STATE_boot_step 0 = 0) ∧
    (s.dev ≠ 0 → ¬(s.dev = dsWhiteout ∧ s.flag FLT_RAIL_uv_hold 0 = true) →
      ∃ t, exec .sysRstNAssert s = .next t ∧ t.dev = dsAonOnly ∧ t.now = s.now ∧ t.ledger = s.ledger ∧ t.fltLog = s.fltLog) ∧
    (∀ role ms, s.dev = dsAonOnly → s.flag RAIL_out 0 = false → s.flag FLT_RAIL_uv_hold 0 = false →
      ∃ t, exec (.sysRstNRelease role ms) s = .next t ∧ t.dev = dsBooting ∧ t.get GLB_STATE_boot_step 0 = 0) ∧
    (∀ ms, s.dev = dsWhiteout → s.flag RST_low 0 = true → ∃ t, exec (.uvHoldClear ms) s = .next t ∧ t.dev = dsAonOnly) ∧
    (∀ ms, s.dev = dsAonOnly → s.flag RAIL_out 0 = false → s.flag RST_low 0 = false →
      ∃ t, exec (.uvHoldClear ms) s = .next t ∧ t.dev = dsBooting) ∧
    (∀ ms, s.dev = dsWhiteout → s.flag FLT_RAIL_uv_hold 0 = false → ∃ t, exec (.devReset .bmc ms) s = .next t ∧
      t.dev = if s.flag RAIL_out 0 = true ∨ s.flag RST_low 0 = true then dsAonOnly else dsBooting)

/-- R22, with the accepted write: the profile comes into force at the end of the change (R23). -/
def Obligations.ProfileWriteOutsideIdleIsRefused : Prop :=
  (∀ (w : Who) (v : Nat) (s : State), s.glbOpen w = true → s.dev ≠ dsIdle →
    exec (.glbProfileWrite w v) s = .next (s.put GLB_STATUS_profile_refused 0 true)) ∧
  ∀ (w : Who) (v : Nat) (s : State), s.bootOpen w = true → s.dev = dsIdle → s.get TWN_STATUS_state 0 = 0 →
    exec (.glbProfileWrite w v) s = .next ((s.set GLX_profile 0 (bits v 0 2)).put GLB_STATUS_profile_busy 0 true)

/-- R27, word for word. -/
def Obligations.ReenableDuringDrainReturnsAtOnce : Prop :=
  ∀ (w : Who) (s : State), s.wf = true → s.glbOpen w = true → s.dev = dsService → s.flag GLB_STATUS_dp_draining 0 = true →
    s.flag PW_seal 0 = false →
    ∃ t, exec (.dpEnSet w) s = .next t ∧ t.flag GLB_CTRL_dp_en 0 = true ∧ t.dev = dsService ∧
      t.flag GLB_STATUS_dp_draining 0 = false ∧ t.open_ = true

/-- The datapath's enable (R22 to R27). -/
def Obligations.DatapathEnableAndDrain : Prop :=
  (∀ s : State, s.wf = true → s.dev = dsIdle → s.flag GLB_STATUS_profile_busy 0 = true →
    exec .profileChangeDone s =
      .next (let t := ((s.set GLB_PROFILE_profile 0 (s.get GLX_profile 0)).put GLB_STATUS_profile_busy 0 false).put GLX_defer 0 false
        if s.flag GLX_defer 0 then t.set GLB_STATE_state 0 dsService else t)) ∧
  (∀ (w : Who) (s : State), s.wf = true → s.bootOpen w = true → s.dev = dsIdle →
    exec (.dpEnSet w) s = .next (if s.flag GLB_STATUS_profile_busy 0 then (s.put GLB_CTRL_dp_en 0 true).put GLX_defer 0 true
      else (s.put GLB_CTRL_dp_en 0 true).set GLB_STATE_state 0 dsService)) ∧
  (∀ (w : Who) (s : State), s.dev = dsBooting → s.bootOpen w = true →
    exec (.dpEnSet w) s = .next (s.put GLB_CTRL_dp_en 0 true)) ∧
  (∀ (w : Who) (s : State), s.bootOpen w = true → s.dev = dsService →
    exec (.dpEnSet w) s = .next ((s.put GLB_CTRL_dp_en 0 true).put GLB_STATUS_dp_draining 0 false)) ∧
  (∀ (w : Who) (s : State), s.bootOpen w = true → s.dev = dsService →
    exec (.dpEnClear w) s = .next (((s.put GLB_CTRL_dp_en 0 false).put GLB_STATUS_dp_draining 0 true).discardAll)) ∧
  ∀ s : State, s.dev = dsService → s.flag GLB_STATUS_dp_draining 0 = true → s.flag PW_seal 0 = false →
    s.frames = [] → s.excq = [] → (∀ e ∈ s.ents, e.2 = [] ∨ s.qClass e.1 = qcRx) →
    exec .drainComplete s = .next ((s.put GLB_STATUS_dp_draining 0 false).set GLB_STATE_state 0 dsIdle)

/-- Loss of power (R51 to R55, R486). That WHITEOUT follows at once with nothing to flush is the model's (log entry 23). -/
def Obligations.PowerWarningSequence : Prop :=
  (∀ s : State, s.dev ≠ 0 → exec .pwrWarn s = .next (s.detect 0x1D0 0 false)) ∧
  (∀ (s : State) (src : Nat), s.dev = dsService ∨ s.dev = dsIdle ∨ s.dev = dsBooting → s.flag PW_warn 0 = false →
    s.powerWarn src =
      ((((((s.put PW_warn 0 true).put PW_stopacc 0 true).beginFlush 0x10).set PW_src 0 src).set PW_ns 0
        (((s.put PW_warn 0 true).put PW_stopacc 0 true).beginFlush 0x10).now)).discardAll) ∧
  (∀ s : State, s.flag PW_warn 0 = true → s.flag PW_seal 0 = false → s.dev ≠ dsWhiteout → s.dev ≠ dsAonOnly → s.dev ≠ 0 →
    exec .completionSeal s =
      let t := ((s.woRecord (s.get PW_src 0) 4 (s.get PW_ns 0)).whiteoutOutputs).put PW_seal 0 true
      .next (if t.flag FIRN_flush 0 then t else t.set GLB_STATE_state 0 dsWhiteout)) ∧
  ∀ s : State, s.flag FIRN_flush 0 = true → s.dev ≠ dsAonOnly → s.dev ≠ 0 → (s.dev = dsWhiteout ∨ s.flag PW_warn 0 = false) →
    s.flag PW_seal 0 = false → s.wf = true →
    exec .firnFlushDone s =
      .next (((s.firnDrain.put FIRN_flush 0 false).put FIRN_sealed 0 true).set FIRN_sealns 0 s.now)

/-- The start (Tables PS-4 and PS-5, R511 to R518). -/
def Obligations.BootStepsAndLedger : Prop :=
  (∀ (ms : Nat) (p a : List Byte) (pOk aOk : Bool) (fail : Nat) (s : State), s.dev = dsBooting → s.inLimit = true →
    (s.bootNow = 1 ∨ s.bootNow = 5 ∨ s.bootNow = 6 → exec (.bootStepComplete ms p pOk a aOk fail) s = .next (s.stepDone s.bootNow)) ∧
    (s.bootNow = 2 → exec (.bootStepComplete ms p pOk a aOk fail) s = .next (s.bootFuses.stepDone 2)) ∧
    (s.bootNow = 3 → exec (.bootStepComplete ms p pOk a aOk fail) s =
      .next ((((s.put PWR_CLK_STATUS_pll_core 0 true).put PWR_CLK_STATUS_pll_ppl 0 true).put PWR_CLK_STATUS_pll_dma 0 true).stepDone 3)) ∧
    (s.bootNow = 4 → exec (.bootStepComplete ms p pOk a aOk fail) s =
      .next (match s.chooseImage (readImage p pOk) (readImage a aOk) with
        | none => s
        | some (img, alt) => (s.takeImage img alt).stepDone 4)) ∧
    (s.bootNow = 7 → exec (.bootStepComplete ms p pOk a aOk fail) s = .next (s.firnCheck.stepDone 7)) ∧
    (s.bootNow = 8 → exec (.bootStepComplete ms p pOk a aOk fail) s = .next ((s.bootSerdes fail).stepDone 8)) ∧
    (s.bootNow = 9 → imageHashed s.bootImg (fun _ => true) = true → exec (.bootStepComplete ms p pOk a aOk fail) s =
      .next (({ forEach (imageSegs s.bootImg) (fun g t => t.loadSeg g) s with bootImg := [] }.startMgmt).stepDone 9))) ∧
  (∀ (n : Nat) (s : State), s.wf = true → 1 ≤ n → n ≤ 10 → (s.stepDone n).get GLB_STATE_boot_step 0 = n) ∧
  (∀ (ms : Nat) (b : Bool) (s : State), s.dev = dsBooting →
    (s.bootNow = 7 → exec (.bootStepFail ms b) s = .next (s.ledgerEnd.detect 0x160 0 false)) ∧
    (s.bootNow = 8 → b = true → exec (.bootStepFail ms b) s = .next (s.ledgerEnd.detect 0x0C0 0 false)) ∧
    (s.bootNow = 3 ∨ s.bootNow = 5 ∨ s.bootNow = 6 ∨ (s.bootNow = 8 ∧ b = false) → s.ledgerEnd.altOf s.bootNow = true →
      exec (.bootStepFail ms b) s = .next (s.ledgerEnd.bootDead s.bootNow)) ∧
    (∀ n, s.bootNow = n → b = false → s.ledgerEnd.altOf n = false →
      let u := (((s.ledgerEnd.set BOOT_STATUS_alt 0 (s.ledgerEnd.get BOOT_STATUS_alt 0 ||| 2 ^ (n - 1))).set MRX_alt 0
        ((s.ledgerEnd.set BOOT_STATUS_alt 0 (s.ledgerEnd.get BOOT_STATUS_alt 0 ||| 2 ^ (n - 1))).get MRX_alt 0 ||| 2 ^ (n - 1))).outcome n 5).stepStart
      (n = 3 ∨ n = 5 ∨ n = 6 → exec (.bootStepFail ms b) s = .next u) ∧
      (n = 9 ∨ n = 10 → exec (.bootStepFail ms b) s = .next u.ledgerRestart))) ∧
  (∀ (m ms : Nat) (s : State), s.dev = dsBooting → s.bootNow = 10 → s.inLimit = true → s.flag PW_seal 0 = false →
    exec (.ready (.fw m) ms) s = .next ((((s.put FIRN_sealed 0 false).set FIRN_cause 0 0).stepDone 10).set GLB_STATE_state 0 dsIdle)) ∧
  (∀ (w : Who) (mask : Nat) (s : State), s.bootOpen w = true → ∃ v, exec (.clearAlt w mask) s = .next (s.set MRX_alt 0 v) ∧
    ∀ n < 10, bit v n = (bit (s.get MRX_alt 0) n && !bit mask n)) ∧
  ∀ (w : Who) (i : Nat) (s : State), s.bootOpen w = true →
    exec (.ledgerSelect w i) s = .next (s.set BOOT_LEDGER_SEL_index 0 (i % 64))

/-- R519: arm, then go. That programming lasts until the next tick is the model's (log entry 9). -/
def Obligations.FuseOperations : Prop :=
  (∀ (w : Who) (op arg : Nat) (s : State), s.fuseMay w = true → op = 1 ∨ op = 2 ∨ op = 3 →
    exec (.fuseArm w op arg) s =
      .next ((((s.put BFX_armed 0 true).set BFX_op 0 op).set BFX_arg 0 arg).set BFX_ns 0 s.clk)) ∧
  (∀ (w : Who) (arg : Nat) (s : State), s.fuseMay w = true → s.fuseGo 1 arg = true →
    exec (.debugClose w arg) s = .next (((s.put BFX_armed 0 false).put BOOT_FUSE_CMD_busy 0 true).put FZ_debug 0 true)) ∧
  (∀ (w : Who) (arg : Nat) (s : State), s.fuseMay w = true → s.fuseGo 2 arg = true → arg < 4 → s.otherKeys arg = true →
    s.wf = true → exec (.revoke w arg) s = .next (((s.put BFX_armed 0 false).put BOOT_FUSE_CMD_busy 0 true).set FZ_revoked 0
      (s.get FZ_revoked 0 ||| 2 ^ arg))) ∧
  (∀ (w : Who) (arg : Nat) (s : State), s.fuseMay w = true → s.fuseGo 3 arg = true → s.get FZ_svn 0 ≤ arg → arg ≤ 64 →
    exec (.svn w arg) s = .next (((s.put BFX_armed 0 false).put BOOT_FUSE_CMD_busy 0 true).set FZ_svn 0 arg)) ∧
  (∀ (w : Who) (op arg : Nat) (s : State), s.bootOpen w = true → s.fuseMay w = false →
    exec (.fuseArm w op arg) s = .next (s.put BOOT_FUSE_CMD_refused 0 true) ∧
    exec (.debugClose w arg) s = .next (s.put BOOT_FUSE_CMD_refused 0 true)) ∧
  ∀ (w : Who) (arg : Nat) (s : State), s.fuseMay w = true → s.fuseGo 1 arg = false →
    exec (.debugClose w arg) s = .next ((s.put BOOT_FUSE_CMD_refused 0 true).put BFX_armed 0 false)

/-- Clocks and gates (R502 to R506). -/
def Obligations.ClocksAndGating : Prop :=
  (∀ s : State, s.dev ≠ 0 → s.flag CLK_lost 0 = false → s.get MT_CFG_ref_sel 0 ≠ 0 → s.flag MTX_lost 0 = false → s.wf = true →
    exec .sysRefclkLost s = .next ((s.put CLK_lost 0 true).put PWR_CLK_STATUS_sys_ref_lost 0 true)) ∧
  (∀ s : State, s.dev ≠ 0 → exec .sysRefclkReturn s = .next (s.put CLK_lost 0 false)) ∧
  (∀ (g : Nat) (s : State), s.portsOn = true → s.sdsUsed g = true →
    exec (.sdsCalibrationDone g) s = .next (s.set SDS_cal 0 (s.get SDS_cal 0 ||| 2 ^ g))) ∧
  (∀ (w : Who) (v : Nat) (s : State), s.bootOpen w = true → bit v 31 = true → bits v 16 10 ≠ 0 → bits v 0 16 ≠ 0 →
    exec (.gateCfgWrite w v) s =
      .next (((s.put PWR_GATE_CFG_en 0 true).set PWR_GATE_CFG_wake_depth 0 (bits v 16 10)).set PWR_GATE_CFG_gate_us 0 (bits v 0 16))) ∧
  (∀ (w : Who) (v : Nat) (s : State), s.bootOpen w = true → bit v 31 = false → bits v 16 10 = 0 → bits v 0 16 = 0 →
    exec (.gateCfgWrite w v) s =
      .next (forEach (List.range 32) (fun l u => u.wakeLane l)
        (forEach (List.range 16) (fun k u => u.wakeCluster k) (s.put PWR_GATE_CFG_en 0 false)))) ∧
  (∀ (k : Nat) (s : State), s.coresRun = true → s.flag PWR_GATE_CFG_en 0 = true → bit (s.get PWR_GATE_STATUS_clusters 0) k = false →
    s.dispDeep k = false → s.session k = false → (∀ t ∈ clusterThreads k, s.restful t = true ∧ s.outstanding t = false) →
    exec (.clusterGate k) s = .next (s.set PWR_GATE_STATUS_clusters 0 (s.get PWR_GATE_STATUS_clusters 0 + 2 ^ k))) ∧
  (∀ (k : Nat) (s : State), s.coresRun = true → s.wakeCause k = true → exec (.clusterWake k) s = .next (s.wakeCluster k)) ∧
  (∀ (l : Nat) (s : State), s.coresRun = true → s.flag PWR_GATE_CFG_en 0 = true → bit (s.get PWR_GATE_STATUS_lanes 0) l = false →
    s.laneJob l = none →
    exec (.laneGate l) s = .next (s.set PWR_GATE_STATUS_lanes 0 (s.get PWR_GATE_STATUS_lanes 0 + 2 ^ l))) ∧
  ∀ (l : Nat) (s : State), s.coresRun = true →
    s.get PWR_GATE_CFG_wake_depth 0 ≤ s.poolQueue (bit (s.get CPH_LANE_CFG_lookaside 0) l) →
    exec (.laneWake l) s = .next (s.wakeLane l)

/-- The type codes of Table SC-4, bit by bit (R3, R4). -/
def Obligations.FieldsTakeWritesByTheirType : Prop :=
  ∀ (s : State) (lo : Nat) (f : Fld) (i v : Nat), s.wf = true →
    (f.acc = .rw ∨ f.acc = .rwl → (s.genField (lo, f) i v).get f i = v / 2 ^ lo % 2 ^ f.w) ∧
    (f.acc = .w1c → ∀ b, b < f.w → ((s.genField (lo, f) i v).get f i).testBit b =
      ((s.get f i).testBit b && !v.testBit (lo + b))) ∧
    (f.acc = .w1s → ∀ b, b < f.w → ((s.genField (lo, f) i v).get f i).testBit b =
      ((s.get f i).testBit b || v.testBit (lo + b))) ∧
    (f.acc = .ro ∨ f.acc = .rc ∨ f.acc = .wo → s.genField (lo, f) i v = s) ∧
    (∀ (g : Fld) (j : Nat), fkey g j ≠ fkey f i → (s.genField (lo, f) i v).get g j = s.get g j) ∧
    ∀ (d : RegDesc) (r n : Nat), (lo, f) ∈ d.fields → f.acc = .rc → lo < 8 * (r + n) → 8 * r < lo + f.w →
      (∀ p ∈ d.fields, p.2 = f ∨ fkey p.2 i ≠ fkey f i) →
      (s.clearRead d i r n).get f i = 0

/-- Accesses to BAR0 and a VF's BAR, and the BMC's messages (R8, R389, R443, R483). -/
def Obligations.AccessorsReachRegisters : Prop :=
  (∀ (w : Who) (bar : Bar) (off v i : Nat) (d : RegDesc) (s : State),
    (∃ m, w = .fw m ∧ bar = .bar0) ∨ (∃ g n, barOf w bar = some (g, n) ∧ off < n ∧ s.dev ≠ 0 ∧ s.dev ≠ dsAonOnly ∧ s.decodes g = true) →
    s.busOpen w = true → off % 4 = 0 → d.bytes = 4 →
    (s.winWrite w bar off (v % 2 ^ 32) = none → regAt w bar off true = some (d, i, 0) →
      regRule w d.base i (s.merged d.fields i 0 4 (v % 2 ^ 32)) s = none →
      exec (.registerWrite w bar off 4 v) s = .next (s.genWrite d.fields i (s.merged d.fields i 0 4 (v % 2 ^ 32)))) ∧
    (s.winRead w bar off = none → regAt w bar off false = some (d, i, 0) → s.unseen w d.base i = false →
      d.base ∉ [0x700000, 0x700008, 0x510020, 0x540000, 0x590000, 0xA04000, 0xA000A0, 0xD00028] →
      exec (.rcRead w bar off 4) s = .next ((s.clearRead d i 0 4).emit (.regData w 4 (s.regVal w d i % 2 ^ 32))))) ∧
  (∀ (off : Nat) (s : State), s.bmcHeard = true → s.bmcStatus off false = 0 →
    exec (.regRead off) s = .next ((s.devRead .bmc .bar0 off 4).1.emit
      (.mctp (vdmRsp 1 0 (beBytes 4 (s.devRead .bmc .bar0 off 4).2))))) ∧
  (∀ (off v : Nat) (s : State), s.bmcHeard = true → s.bmcStatus off true = 0 →
    exec (.regWrite off v) s = .next ((s.bmcWrite off v).emit (.mctp (vdmRsp 2 0 [])))) ∧
  (∀ (off v : Nat) (s : State), s.bmcHeard = true →
    (s.bmcStatus off true ≠ 0 → exec (.regWrite off v) s = .next (s.emit (.mctp (vdmRsp 2 (s.bmcStatus off true) [])))) ∧
    (s.bmcStatus off false ≠ 0 → exec (.regRead off) s = .next (s.emit (.mctp (vdmRsp 1 (s.bmcStatus off false) []))))) ∧
  ∀ (h off v : Nat) (s : State), h < 2 → s.dev = dsWhiteout → s.decodes h = true → off < 2 ^ 26 → off % 4 = 0 →
    exec (.rcRead (.pf h) .bar0 off 4) s = .next (s.emit (.regData (.pf h) 4 0xDEAD5AFE)) ∧
    exec (.registerWrite (.pf h) .bar0 off 4 v) s = .next s

/-- Polling (R66, R72 to R78, R81, R93). -/
def Obligations.PollsAndDormancy : Prop :=
  (∀ (qs : List Nat) (s u : State) (due : List Nat) (q : Nat),
    u = forEach qs (fun q t => if pollTurn t q && !t.flag QX_due q then t.dueAt q t.clk else t) s →
    due = (u.having QX_due 1).filter (pollReady u) → due ≠ [] →
    pollEarliest u (due.filter (fun p => u.qOwner p == (pollNextFn u (due.map u.qOwner)).1)) = some q →
    exec (.pollDue qs) s = .next (((pollServe u q).set QM_pollfn 0 (pollNextFn u (due.map u.qOwner)).1).set QM_polldef 0
      ((pollNextFn u (due.map u.qOwner)).2 - 1))) ∧
  (∀ (q : Nat) (bs : List Byte) (s u : State), s.wf = true → s.flag QX_poll q = true → s.masterStop = false →
    s.fnState (s.qOwner q) = fsActive → u = (s.put QX_poll q false).put QX_last q false →
    (s.qState q = qsActive → s.open_ = true → s.flag PW_stopacc 0 = false →
      ∀ got, got = pollTake (s.get QM_QCTX_CTRL_log2size q) (s.get QX_polln q) (s.qCons q) bs →
      (got ≠ [] → s.flag QX_last q = false →
        exec (.pollDataReturn q (.data bs)) s = .next (((u.setFetched q got).set QX_idle q 0).dueAt q s.clk)) ∧
      (got ≠ [] → s.flag QX_last q = true →
        exec (.pollDataReturn q (.data bs)) s =
          .next (((((u.setFetched q got).set QX_idle q 0).dueAt q s.clk).put QX_dorm q false).writeback q false false)) ∧
      (got = [] → s.flag QX_last q = false →
        exec (.pollDataReturn q (.data bs)) s = .next (((u.inc QX_idle q).pmu 0 2 1).dueAt q
          (((u.inc QX_idle q).pmu 0 2 1).get QX_duens q + pollInterval (((u.inc QX_idle q).pmu 0 2 1).get QM_QCTX_CTRL_poll_class q)))) ∧
      (got = [] → s.flag QX_last q = true →
        exec (.pollDataReturn q (.data bs)) s = .next (((u.inc QX_idle q).pmu 0 2 1).setQ q qsDormant))) ∧
    (s.qState q = qsActive ∨ s.qState q = qsDraining →
      exec (.pollDataReturn q .timeout) s = .next ((u.aer (s.qOwner q) (ReadResult.aerBit .timeout) false []).queueError q 1))) ∧
  (∀ (q : Nat) (s : State), s.mayPoll q = true → s.get QM_QCTX_POLL_poll_idle_n q ≠ 0 →
    s.get QM_QCTX_POLL_poll_idle_n q ≤ s.get QX_idle q → s.flag QX_dorm q = false →
    exec (.dormancyStart q) s = .next ((((s.put QX_dorm q true).writeback q false false).put QX_last q true).pollIssue q)) ∧
  (∀ (g l q : Nat) (s : State), s.busOpen (if g < 2 then .pf g else .vf g) = true → s.queueAt g l = some q →
    ((s.pmu 0 6 1).qState q = qsDormant → (s.pmu 0 6 1).fnState g ≠ fsFreezing →
      exec (.armWrite g l) s = .next ((s.pmu 0 6 1).armNow q)) ∧
    ((s.pmu 0 6 1).qState q = qsFrozen →
      exec (.armWrite g l) s = .next ((s.pmu 0 6 1).put QM_QCTX_STATUS_arm_pending q true)) ∧
    ((s.pmu 0 6 1).qState q = qsActive → exec (.armWrite g l) s = .next (s.pmu 0 6 1))) ∧
  ∀ (q : Nat) (s : State), s.flag QX_wbdue q = true → s.get QM_QCTX_POLL_wb_us q ≠ 0 → s.ringMode q = false →
    s.qState q ≠ qsDisabled → s.masterStop = false → exec (.wbTimerExpiry q) s = .next (s.writeback q false false)

/-- R33 to R37, R69, R86. -/
def Obligations.EntriesAreAccepted : Prop :=
  (∀ (q : Nat) (e : List Byte) (l : List (List Byte)) (s : State), s.mayFetch q = true → s.qState q = qsActive →
    s.fetchedOf q = e :: l → s.flag QX_mwait q = false → s.ringFull q = false →
    (s.ringMode q = true → s.flag QX_resv q = false → s.credits (s.qRing q) = 0 → s.flag QM_QCTX_STATUS_cq_stall q = false →
      exec (.entryAccept q) s = .next (((((s.put QM_QCTX_STATUS_cq_stall q true).inc QM_QCTX_STALLS_stalls q).set
        QX_stallns q s.clk).put QX_stallev q false).pmu 0 5 1)) ∧
    (¬(s.ringMode q = true ∧ s.flag QX_resv q = false ∧ s.credits (s.qRing q) = 0) →
      ∀ a b, a = (if s.ringMode q = true ∧ s.flag QX_resv q = false then
          ((s.takeCredit (s.qRing q)).put QX_resv q true).put QM_QCTX_STATUS_cq_stall q false else s) →
        b = (if a.flag QX_jrnl q = true then a else (a.firnAppend (.accept q { idx := a.qCons q, seq := a.get QM_QCTX_SEQ_acc_seq q, tag := weTag e }
          (a.qOwner q) (a.get QM_QCTX_BASE_base q) (a.get QM_QCTX_CTRL_log2size q) (a.get QM_QCTX_CTRL_cmode q) (a.qRing q)
          (a.mirrored q))).put QX_jrnl q true) →
        (b.mirrored q = false → b.syncing = false → exec (.entryAccept q) s = .next (b.acceptNow q)) ∧
        (b.mirrored q = true → b.flag QX_mack q = false → exec (.entryAccept q) s = .next ((b.put QX_mwait q true).twinAwait
          (.mirror [.accept q (b.qCons q) 1 (a.get QM_QCTX_SEQ_acc_seq q)]) (.accept q))))) ∧
  (∀ (q : Nat) (e : List Byte) (l : List (List Byte)) (s u w : State), s.wf = true → s.fetchedOf q = e :: l →
    u = (((((((s.setFetched q l).setEnts q (s.entsOf q ++ [
        { idx := s.qCons q, seq := s.get QM_QCTX_SEQ_acc_seq q, bytes := e, frags := [], tab := weIndirect e, way := false,
          done := none, mirr := false, acc := s.now }])).set QM_QCTX_START_cons q
        (s.qCons q + 1)).inc QM_QCTX_SEQ_acc_seq q).put QX_resv q false).put QX_jrnl q false).put QX_mwait q false).put QX_mack q false →
    w = ((u.set QM_QCTX_START_done q (u.firstOpen q)).pmu 0 3 1).writeback q false false →
      u.get QM_QCTX_START_cons q = (s.qCons q + 1) % 2 ^ 16 ∧
      u.get QM_QCTX_SEQ_acc_seq q = (s.get QM_QCTX_SEQ_acc_seq q + 1) % 2 ^ 48 ∧
      (entryBad (w.qClass q) e = true ∨ w.entryStream q e = true → s.acceptNow q = w.finish q (s.qCons q) 0x20 0 0) ∧
      (entryBad (w.qClass q) e = false → w.entryStream q e = false →
        (w.entryDenied q e = true → s.acceptNow q = w.finish q (s.qCons q) 0x22 0 0) ∧
        (w.entryDenied q e = false → weIndirect e = false → s.acceptNow q = w) ∧
        (w.entryDenied q e = false → weIndirect e = true →
          s.acceptNow q = w.hostRead (w.qOwner q) (weAddr e) (16 * weNfrag e) false false (.entry q (s.qCons q))))) ∧
  ∀ (q idx : Nat) (t : List Byte) (e : Ent) (s : State), s.entAt q idx = some e → e.tab = true → e.done = none → e.mirr = false →
    (fragsOk t (weNfrag e.bytes) (entryLen (s.qClass q) e.bytes) = true →
      exec (.fragmentTableReadReturn q idx (.data t)) s =
        .next (s.updEnt q idx (fun x => { x with tab := false, frags := fragList t (weNfrag e.bytes) }))) ∧
    (fragsOk t (weNfrag e.bytes) (entryLen (s.qClass q) e.bytes) = false →
      exec (.fragmentTableReadReturn q idx (.data t)) s = .next (s.finish q idx 0x21 0 0))

/-- Queue states (Table WQ-10, R86, R90 to R95). That FROZEN writes a final writeback is DEDUCED (log entry 41). -/
def Obligations.QueueStates : Prop :=
  (∀ (w : Who) (q : Nat) (s : State), s.busOpen w = true → ownerMay w (s.qOwner q) = true →
    (∀ u v, s.qState q = qsDisabled → s.enableBad q = false → u = ((s.set QX_idle q 0).put QX_dorm q false).put QX_last q false →
      v = (if u.flag QM_QCTX_STATUS_recov_pend q = true then u.recovStart q else u) →
      exec (.queueEnable w q) s = .next ((v.setQ q qsActive).dueAt q (v.setQ q qsActive).clk)) ∧
    (s.qState q = qsDisabled → s.enableBad q = true →
      exec (.queueEnable w q) s = .next (s.put QM_QCTX_STATUS_cfg_refused q true)) ∧
    (s.qState q = qsActive ∨ s.qState q = qsDormant → exec (.queueDisable w q) s =
      .next ((((((((s.flushCoalQ q).discardFetched q).put QX_due q false).put QX_dorm q false).setQ q qsDraining).pump q).cancelPlaces q))) ∧
    (s.qState q = qsFrozen ∨ s.qState q = qsError → ∀ u, u = (s.put QX_offreq q true).pump q → u.mayOff q = true →
      exec (.queueDisable w q) s = .next (u.disableNow q true)) ∧
    (∀ cons, s.qState q = qsDisabled → s.flag QM_QCTX_STATUS_recov_pend q = false →
      exec (.startIndexWrite w q cons) s =
        .next (((s.set QM_QCTX_START_cons q cons).set QX_pub q cons).set QM_QCTX_START_done q cons)) ∧
    (∀ cons, s.qState q ≠ qsDisabled →
      exec (.startIndexWrite w q cons) s = .next (s.put QM_QCTX_STATUS_cfg_refused q true))) ∧
  (∀ (q : Nat) (s : State), s.entsOf q = [] → s.fnHeld (s.qOwner q) = false → s.masterStop = false → s.qState q = qsDraining →
    exec (.queueDrainComplete q) s = .next (s.disableNow q true)) ∧
  ∀ (q : Nat) (s : State), s.flag QM_QCTX_STATUS_cq_stall q = true → s.flag QX_stallev q = false →
    s.get QM_CFG_cq_stall_limit 0 ≠ 0 → s.credits (s.qRing q) = 0 →
    exec (.cqStall q) s = .next ((s.put QX_stallev q true).evRecord (pfOf (s.qOwner q))
      (cqStallRec q (s.qRing q) (max (s.get QM_CFG_cq_stall_limit 0) ((s.clk - s.get QX_stallns q) / 1000))))

/-- Completion rings and event rings (R83 to R89). When `evring` is shown is the model's choice (log entry 41). -/
def Obligations.CompletionRings : Prop :=
  (∀ (w : Who) (r : Nat) (s : State), s.busOpen w = true → ownerMay w (s.get QM_CRCTX_CTRL_gfn r) = true →
    (s.flag QM_CRCTX_CTRL_en r = false → 6 ≤ s.get QM_CRCTX_CTRL_log2size r → s.get QM_CRCTX_CTRL_log2size r ≤ 15 →
      s.fnExists (s.get QM_CRCTX_CTRL_gfn r) = true → s.flag FLT_ring r = false →
      exec (.cringEnable w r) s =
        let u := ((s.set QM_CRCTX_IDX_resv r 0).set QM_CRCTX_IDX_prod r 0).set RX_cons r 0
        .next (forEach (u.evPfs r) (fun pf t => t.evReady pf) (u.put QM_CRCTX_CTRL_en r true))) ∧
    (s.flag QM_CRCTX_CTRL_en r = true → s.queuesOfRing r = [] →
      exec (.cringDisable w r) s = .next ((s.put QM_CRCTX_CTRL_en r false).put RX_read r false)) ∧
    (s.flag QM_CRCTX_CTRL_en r = true → s.queuesOfRing r ≠ [] →
      exec (.cringDisable w r) s = .next (forEach (s.queuesOfRing r) (fun q t => t.put QM_QCTX_STATUS_cfg_refused q true) s))) ∧
  (∀ (r : Nat) (bs : List Byte) (s u : State), s.flag RX_read r = true → u = s.put RX_read r false →
    ((u.get QM_CRCTX_IDX_prod r + 65536 - leAt bs 0 2) % 65536 ≤ u.ringSize r →
      (u.set RX_cons r (leAt bs 0 2)).evPfs r = [] →
      ((u.set RX_cons r (leAt bs 0 2)).queuesOfRing r).filter (fun q => !(SM.get [] (u.set RX_cons r (leAt bs 0 2)).recov q).isEmpty) = [] →
      exec (.consumerWordReadReturn r (.data bs)) s = .next (u.set RX_cons r (leAt bs 0 2))) ∧
    (u.ringSize r < (u.get QM_CRCTX_IDX_prod r + 65536 - leAt bs 0 2) % 65536 →
      exec (.consumerWordReadReturn r (.data bs)) s = .next (u.put QM_CRCTX_IRQ_cons_bad r true))) ∧
  (∀ (w : Who) (pf v : Nat) (s : State), s.busOpen w = true → evMay w pf = true → s.get QM_CRCTX_CTRL_gfn (v % 2 ^ 16) = pf →
    v.testBit 31 = true →
    ∀ u, u = s.put QM_CRCTX_CTRL_evring (s.get QM_EVRING_ring pf)
        (s.flag QM_EVRING_en (1 - pf) && s.get QM_EVRING_ring (1 - pf) == s.get QM_EVRING_ring pf) →
      exec (.evringWrite w pf v) s = .next ((((u.set QM_EVRING_ring pf (v % 2 ^ 16)).put QM_EVRING_en pf true).put
        QM_CRCTX_CTRL_evring (v % 2 ^ 16) true).evReady pf)) ∧
  (∀ (pf : Nat) (s : State), s.evOpen pf = true → SM.get [] s.backlog pf ≠ [] →
    exec (.evBacklogConsRead pf) s = .next (s.readCons (s.get QM_EVRING_ring pf))) ∧
  (∀ (r : Nat) (s u : State), u = s.inc QM_CRCTX_IDX_resv r →
    (4 * u.credits r < u.ringSize r → u.flag RX_read r = false → s.takeCredit r = u.readCons r) ∧
    (u.ringSize r ≤ 4 * u.credits r ∨ u.flag RX_read r = true → s.takeCredit r = u)) ∧
  ∀ (r : Nat) (rec : List Byte) (s u : State),
    u = s.hostWrite (s.get QM_CRCTX_CTRL_gfn r)
      (s.get QM_CRCTX_BASE_base r * 4096 + 32 * (s.get QM_CRCTX_IDX_prod r % 2 ^ s.get QM_CRCTX_CTRL_log2size r))
      (rec.take 31 ++ [BitVec.ofNat 8 (byteAt rec 31 % 128 +
        128 * (s.get QM_CRCTX_IDX_prod r / 2 ^ s.get QM_CRCTX_CTRL_log2size r % 2))]) false false →
    (u.set QM_CRCTX_IDX_prod r (s.get QM_CRCTX_IDX_prod r + 1)).flag QM_CRCTX_IRQ_irq_en r = false →
    s.ringWrite r rec = u.set QM_CRCTX_IDX_prod r (s.get QM_CRCTX_IDX_prod r + 1)

/-- R141, through the operations with which every instruction reads and writes a general register and begins its slot. -/
def Obligations.RegisterZeroIsHardwired : Prop :=
  (∀ (t : Nat) (s : State), s.tg t 0 = 0) ∧ (∀ (t v : Nat) (s : State), s.tput t 0 v = s) ∧
  ∀ (t w : Nat) (sem : State → State) (s : State), s.flag TH_bad t = false → s.budgetDue t = false → insnOk (isSup t) w = true →
    s.predOk t w = true → (∀ r, r ∈ insnRegs w → r ≠ 0 → s.get TH_hz (32 * t + r) = 0) →
    s.slotRun t w false sem = sem (s.slotPass t)

/-- Table NI-5, rows ADD to MULI, with the frame of R147. -/
def Obligations.AluInstructionsCompute : Prop :=
  ∀ (t : Nat) (s : State) (w n x y z : Nat), s.wf = true → w = s.insn t → n = widthOf (iMod w) →
    x = s.tg t (iS1 w) % 2 ^ n → y = s.tg t (iS2 w) % 2 ^ n →
    z = (if iMod w = 4 then iImm w * 2 ^ 32 else iSx w) % 2 ^ n →
    ∀ (c : Instr) (op r : Nat), (c, op, r) ∈
      ([(.add t false, 0x10, x + y), (.addi t false, 0x11, x + z), (.sub t false, 0x12, x + 2 ^ n - y),
        (.subi t false, 0x13, x + 2 ^ n - z), (.and t false, 0x14, x &&& y), (.andi t false, 0x15, x &&& z),
        (.or t false, 0x16, x ||| y), (.ori t false, 0x17, x ||| z), (.xor t false, 0x18, x ^^^ y),
        (.xori t false, 0x19, x ^^^ z), (.shl t false, 0x1A, x * 2 ^ (y % 64)), (.shli t false, 0x1B, x * 2 ^ (z % 64)),
        (.shr t false, 0x1C, x / 2 ^ (y % 64)), (.shri t false, 0x1D, x / 2 ^ (z % 64)),
        (.sar t false, 0x1E, ((BitVec.ofNat n x).sshiftRight (y % 64)).toNat),
        (.sari t false, 0x1F, ((BitVec.ofNat n x).sshiftRight (z % 64)).toNat),
        (.rot t false, 0x20, ((BitVec.ofNat n x).rotateRight (y % 64)).toNat),
        (.roti t false, 0x21, ((BitVec.ofNat n x).rotateRight (z % 64)).toNat),
        (.mul t false, 0x22, x * y), (.muli t false, 0x23, x * z)] : List (Instr × Nat × Nat)) →
      s.runs t op = true →
      ∃ v : State, exec c s = .next (v.slotEnd t) ∧ v.tg t (iDst w) = (if iDst w = 0 then 0 else r % 2 ^ n) ∧ s.onlyWrites v t (iDst w)

/-- Table NI-5, rows SEL to CSUM. -/
def Obligations.BitFieldInstructionsCompute : Prop :=
  ∀ (t : Nat) (s : State) (w n x : Nat), s.wf = true → w = s.insn t → n = widthOf (iMod w) → x = s.tg t (iS1 w) % 2 ^ n →
    (∀ (c : Instr) (op r : Nat), (c, op, r) ∈
      ([(.sel t false, 0x26, if s.get TH_c (8 * t + iMod w) = 1 then s.tg t (iS1 w) else s.tg t (iS2 w)),
        (.seli t false, 0x27, if s.get TH_c (8 * t + iMod w) = 1 then s.tg t (iS1 w) else iSx w),
        (.ext t false, 0x28, if iMod w = 1
          then ((BitVec.ofNat (w / 2 ^ 6 % 2 ^ 7) (s.tg t (iS1 w) / 2 ^ (w % 2 ^ 6))).signExtend 64).toNat
          else s.tg t (iS1 w) / 2 ^ (w % 2 ^ 6) % 2 ^ (w / 2 ^ 6 % 2 ^ 7)),
        (.popc t false, 0x2A, ((List.range n).filter (fun k => x.testBit k)).length),
        (.bswap t false, 0x2C, leNat (leBytes (n / 8) x).reverse)] : List (Instr × Nat × Nat)) →
      s.runs t op = true →
      ∃ v : State, exec c s = .next (v.slotEnd t) ∧ v.tg t (iDst w) = (if iDst w = 0 then 0 else r % 2 ^ 64) ∧ s.onlyWrites v t (iDst w)) ∧
    (s.runs t 0x29 = true → ∃ v : State, exec (.ins t false) s = .next (v.slotEnd t) ∧ s.onlyWrites v t (iDst w) ∧
      (iDst w ≠ 0 → ∀ b, b < 64 → (v.tg t (iDst w)).testBit b =
        if w % 2 ^ 6 ≤ b ∧ b < w % 2 ^ 6 + w / 2 ^ 6 % 2 ^ 7 then (s.tg t (iS1 w)).testBit (b - w % 2 ^ 6)
        else (s.tg t (iDst w)).testBit b)) ∧
    (s.runs t 0x2B = true → ∃ v : State, exec (.clz t false) s = .next (v.slotEnd t) ∧ s.onlyWrites v t (iDst w) ∧
      (iDst w ≠ 0 → v.tg t (iDst w) ≤ n ∧ x < 2 ^ (n - v.tg t (iDst w)) ∧
        if x = 0 then v.tg t (iDst w) = n else 2 ^ (n - v.tg t (iDst w)) ≤ 2 * x)) ∧
    (s.runs t 0x2D = true → ∃ v : State, exec (.csum t false) s = .next (v.slotEnd t) ∧ s.onlyWrites v t (iDst w) ∧
      (iDst w ≠ 0 → v.tg t (iDst w) < 2 ^ 16 ∧
        v.tg t (iDst w) % 65535 = (s.tg t (iS1 w) % 2 ^ 16 + ((List.range (n / 16)).map (fun k =>
          s.tg t (iS2 w) / 2 ^ (16 * k) % 2 ^ 16)).sum) % 65535 ∧
        (v.tg t (iDst w) = 0 ↔ s.tg t (iS1 w) % 2 ^ 16 = 0 ∧ s.tg t (iS2 w) % 2 ^ n = 0)))

/-- Table NI-6. -/
def Obligations.ComparesWriteOneFlag : Prop :=
  ∀ (t : Nat) (s : State) (w n : Nat) (x y z : BitVec n), s.wf = true → w = s.insn t → n = widthOf (iDst w / 8) →
    x = BitVec.ofNat n (s.tg t (iS1 w)) → y = BitVec.ofNat n (s.tg t (iS2 w)) → z = BitVec.ofNat n (iSx w) →
    ∀ (c : Instr) (op : Nat) (r : BitVec n), (c, op, r) ∈ ([(.cmp t false, 0x24, y), (.cmpi t false, 0x25, z)] : List (Instr × Nat × BitVec n)) →
      s.runs t op = true →
      ∃ v : State, exec c s = .next (v.slotEnd t) ∧
        v.get TH_pc t = (s.get TH_pc t + 1) % 2 ^ 15 ∧ s.keepsRegs v t 0 ∧ s.keepsRest v ∧ v.mem = s.mem ∧
        (∀ j, j ≠ 8 * t + iDst w % 8 → v.get TH_c j = s.get TH_c j) ∧
        v.flag TH_c (8 * t + iDst w % 8) = ([x == r, x != r, x.slt r, r.sle x, x.ult r, r.ule x, (x &&& r) != 0#n, (x &&& r) == 0#n].getD
          (iMod w) false)

/-- Tables NI-7 and NI-8, loads. -/
def Obligations.LoadsReadTheirBytes : Prop :=
  ∀ (t : Nat) (s : State) (w n a : Nat), s.wf = true → w = s.insn t → n = accSize w → a = s.ea t w →
    (s.runs t 0x40 = true → a ≠ 0xFFFF0000 → s.devOff t w = none →
      (accOk (localSpace t) a n = true → s.localDiffers t ((localSpace t).1 + a) n = false →
        ∃ v : State, exec (.ld t false) s = .next (v.slotEnd t) ∧ s.onlyWrites v t (iDst w) ∧
          v.tg t (iDst w) = if iDst w = 0 then 0
            else if iMod w < 4 then leNat (s.rd ((localSpace t).1 + a) n)
            else ((BitVec.ofNat (8 * n) (leNat (s.rd ((localSpace t).1 + a) n))).signExtend 64).toNat) ∧
      (accOk (localSpace t) a n = false → exec (.ld t false) s = .next (((s.slotPass t).fault t 2 0 (a % 2 ^ 32)).slotEnd t))) ∧
    (s.runs t 0x40 = true → a = 0xFFFF0000 → iMod w = 3 → ∃ v : State, exec (.ld t false) s = .next (v.slotEnd t) ∧ s.onlyWrites v t (iDst w) ∧
      v.tg t (iDst w) = if iDst w = 0 then 0 else s.statusWord t % 2 ^ 64) ∧
    (s.runs t 0x42 = true → (a % n = 0 ∧ a + n ≤ 1024 →
        ∃ v : State, exec (.pld t false) s = .next (v.slotEnd t) ∧ s.onlyWrites v t (iDst w) ∧
          v.tg t (iDst w) = if iDst w = 0 then 0
            else if iMod w < 4 then leNat (s.rd (baseW t + a) n).reverse else leNat (s.rd (baseW t + a) n)) ∧
      (¬(a % n = 0 ∧ a + n ≤ 1024) → exec (.pld t false) s = .next (((s.slotPass t).fault t 2 0 (a % 2 ^ 32)).slotEnd t))) ∧
    (s.runs t 0x44 = true → accOk (sharedSpace t) a n = true →
        ∃ v : State, exec (.sld t false) s = .next (v.slotEnd t) ∧ s.onlyWrites v t (iDst w) ∧
          v.tg t (iDst w) = if iDst w = 0 then 0
            else if iMod w < 4 then leNat (s.rd ((sharedSpace t).1 + a) n)
            else ((BitVec.ofNat (8 * n) (leNat (s.rd ((sharedSpace t).1 + a) n))).signExtend 64).toNat)

/-- Tables NI-7 and NI-8, stores and atomics, with their frame. -/
def Obligations.StoresWriteTheirBytes : Prop :=
  ∀ (t : Nat) (s : State) (w n a : Nat), s.wf = true → w = s.insn t → n = accSize w →
    (∀ (c : Instr) (op : Nat) (le : Bool), a = (if op = 0x41 then (localSpace t).1 else if op = 0x43 then baseW t else (sharedSpace t).1) + s.ea t w →
      accOk (if op = 0x41 then localSpace t else if op = 0x43 then windowSpace t else sharedSpace t) (s.ea t w) n = true →
      (c, op, le) ∈ ([(.st t false, 0x41, true), (.pst t false, 0x43, decide (4 ≤ iMod w)), (.sst t false, 0x45, true)] : List (Instr × Nat × Bool)) →
      s.runs t op = true → (op = 0x41 → s.devOff t w = none) →
      ∃ v : State, exec c s = .next (v.slotEnd t) ∧ v.get TH_pc t = (s.get TH_pc t + 1) % 2 ^ 15 ∧ s.keepsRegs v t 0 ∧ s.keepsFlags v ∧ s.keepsRest v ∧
        (∀ k, k < n → Memory.read v.mem (a + k) = BitVec.ofNat 8 (s.tg t (iS2 w) / 2 ^ (8 * (if le then k else n - 1 - k)))) ∧
        (∀ b, b < a ∨ a + n ≤ b → ¬(op = 0x41 ∧ s.guard = true ∧ t < 4096 ∧ a + 2 ^ 14 ≤ b ∧ b < a + 2 ^ 14 + n) →
          Memory.read v.mem b = Memory.read s.mem b)) ∧
    (∀ (c : Instr) (op new : Nat), a = (sharedSpace t).1 + s.ea t w → accOk (sharedSpace t) (s.ea t w) n = true →
      (c, op, new) ∈ ([(.sadd t false, 0x46, leNat (s.rd a n) + s.tg t (iS2 w)),
        (.scas t false, 0x47, if leNat (s.rd a n) = s.tg t (iDst w) % 2 ^ (8 * n) then s.tg t (iS2 w) else leNat (s.rd a n))] :
        List (Instr × Nat × Nat)) →
      s.runs t op = true →
      ∃ v : State, exec c s = .next (v.slotEnd t) ∧ v.get TH_pc t = (s.get TH_pc t + 1) % 2 ^ 15 ∧ s.keepsRegs v t (iDst w) ∧ s.keepsFlags v ∧ s.keepsRest v ∧
        v.tg t (iDst w) = (if iDst w = 0 then 0 else leNat (s.rd a n)) ∧
        (∀ k, k < n → Memory.read v.mem (a + k) = BitVec.ofNat 8 (new / 2 ^ (8 * k))) ∧
        (∀ b, b < a ∨ a + n ≤ b → Memory.read v.mem b = Memory.read s.mem b))

/-- Table NI-9. -/
def Obligations.BranchesGoToTheirTargets : Prop :=
  ∀ (t : Nat) (s : State) (w x tgt : Nat), s.wf = true → w = s.insn t → x = s.tg t (iS1 w) →
    tgt = (if iMod w = 0 then iImm w else x) % 2 ^ 15 →
    (s.runs t 0x60 = true → ∃ v : State, exec (.br t false) s = .next (v.slotEnd t) ∧ v.get TH_pc t = tgt ∧ s.keepsRegs v t 0 ∧ s.keepsFlags v ∧
      s.keepsRest v ∧ v.mem = s.mem) ∧
    (s.runs t 0x61 = true → ∃ v : State, exec (.brc t false) s = .next (v.slotEnd t) ∧ s.keepsRegs v t 0 ∧ s.keepsFlags v ∧ s.keepsRest v ∧ v.mem = s.mem ∧
      v.get TH_pc t = if (iMod w = 0 ∧ x = 0) ∨ (iMod w = 1 ∧ x ≠ 0) ∨ (iMod w = 2 ∧ x.testBit 63 = true) ∨ (iMod w = 3 ∧ x.testBit 63 = false)
        then iImm w % 2 ^ 15 else (s.get TH_pc t + 1) % 2 ^ 15) ∧
    (s.runs t 0x62 = true → s.get TH_rsd t < 8 → ∃ v : State, exec (.call t false) s = .next (v.slotEnd t) ∧ v.get TH_pc t = tgt ∧
      v.get TH_rsd t = s.get TH_rsd t + 1 ∧ v.get TH_rs (8 * t + s.get TH_rsd t) = (s.get TH_pc t + 1) % 2 ^ 15 ∧
      (∀ j, j ≠ 8 * t + s.get TH_rsd t → v.get TH_rs j = s.get TH_rs j) ∧ s.keepsRegs v t 0 ∧ s.keepsFlags v ∧ v.mem = s.mem) ∧
    (s.runs t 0x62 = true → 8 ≤ s.get TH_rsd t →
      exec (.call t false) s = .next (((s.slotPass t).fault t 2 0 0xFFFFFFFF).slotEnd t)) ∧
    (s.runs t 0x63 = true → ∀ n, s.get TH_rsd t = n + 1 → n < 8 → ∃ v : State, exec (.ret t false) s = .next (v.slotEnd t) ∧ v.get TH_rsd t = n ∧
      v.get TH_pc t = s.get TH_rs (8 * t + n) % 2 ^ 15 ∧ s.keepsRegs v t 0 ∧ s.keepsFlags v ∧ v.mem = s.mem) ∧
    (s.runs t 0x63 = true → s.get TH_rsd t = 0 → s.flag TH_res t = true → s.tickets t = 0 →
      ∃ v : State, exec (.ret t false) s = .next (v.slotEnd t) ∧ v.get TH_mode t = 0 ∧ v.get TH_frame t = 0) ∧
    (s.runs t 0x64 = true → ∃ v : State, exec (.jmpt t false) s = .next (v.slotEnd t) ∧ s.keepsRegs v t 0 ∧ s.keepsFlags v ∧ s.keepsRest v ∧ v.mem = s.mem ∧
      v.get TH_pc t = if x < w / 2 ^ 15 % 2 ^ 15 then (w % 2 ^ 15 + x) % 2 ^ 15 else (s.get TH_pc t + 1) % 2 ^ 15)

/-- Table NI-10. -/
def Obligations.EventsAndTimeOfThreads : Prop :=
  (∀ (t : Nat) (s u v : State) (w : Nat), w = s.insn t → u = s.slotPass t → v = u.waitTimer t w → s.runs t 0x70 = true →
    (v.get TH_ev t &&& waitMask w ≠ 0 → exec (.waite t false) s =
      .next ((((v.set TH_ev t (v.get TH_ev t - (v.get TH_ev t &&& waitMask w))).tput t (iDst w) (v.get TH_ev t &&& waitMask w)).retire
        t).slotEnd t)) ∧
    (v.get TH_ev t &&& waitMask w = 0 → exec (.waite t false) s = .next ((v.slotIs t .back).slotEnd t))) ∧
  (∀ (t : Nat) (s u : State) (w v : Nat), w = s.insn t → u = s.slotPass t → v = (u.tg t (iS1 w) + iSx w) % 2 ^ 64 → s.runs t 0x71 = true →
    (t < 4096 → v < 256 → exec (.sige t false) s = .next (((u.retire t).raiseEv (t / 256 * 256 + v) (8 + iMod w)).slotEnd t)) ∧
    (4096 ≤ t → v < 64 → exec (.sige t false) s = .next (((u.retire t).raiseEv (4096 + v) (8 + iMod w)).slotEnd t)) ∧
    (256 ≤ v → exec (.sige t false) s = .next ((u.retire t).slotEnd t))) ∧
  (∀ (t : Nat) (s u : State) (w : Nat), w = s.insn t → u = s.slotPass t → s.runs t 0x72 = true →
    (reached48 u.now (u.tg t (iS1 w) % 2 ^ 48) = true →
      exec (.waitt t false) s = .next (((u.tput t (iDst w) (u.now % 2 ^ 48)).retire t).slotEnd t)) ∧
    (reached48 u.now (u.tg t (iS1 w) % 2 ^ 48) = false →
      exec (.waitt t false) s = .next ((((u.set TH_wait t 3).set TH_twait t (u.tg t (iS1 w) % 2 ^ 48)).slotIs t .back).slotEnd t))) ∧
  (∀ (t : Nat) (s u : State) (w : Nat), w = s.insn t → u = s.slotPass t → s.runs t 0x73 = true →
    exec (.rdt t false) s = .next (((u.tput t (iDst w) (if iMod w = 0 then u.now else u.get MTX_frac 0)).retire t).slotEnd t)) ∧
  ∀ (t n : Nat) (s : State), s.issues t = true → s.get TH_wait t = 2 → n = s.get TH_left t →
    (n ≤ 1 ∨ (s.get TH_ev t &&& waitMask (s.insn t) = 0 ∧
      (s.set TH_slots t (s.get TH_slots t + (n - 2))).budgetDue t = false)) →
    exec (.evTimeout t) s = .next (((forEach (List.range (n - 1)) (fun _ u => (u.slotPass t).slotIs t .back) s).set
      TH_left t 0).raiseEv t 4)

/-- Table NI-11 and R160. -/
def Obligations.StagingTicketsAndRelease : Prop :=
  (∀ (t : Nat) (s u : State) (w : Nat), w = s.insn t → u = s.slotPass t →
    (s.runs t 0x80 = true → exec (.cmdw t false) s =
      .next (((u.set TH_w (8 * t + iDst w) (if iMod w = 0 then u.tg t (iS1 w) else iSx w)).retire t).slotEnd t)) ∧
    (s.runs t 0x82 = true → u.flag TH_rok (4 * t + iMod w) = true → exec (.cmdr t false) s =
      .next (((u.tput t (iDst w) (u.get TH_r (4 * (4 * t + iMod w) + iImm w))).retire t).slotEnd t)) ∧
    (s.runs t 0x82 = true → u.flag TH_rok (4 * t + iMod w) = false → exec (.cmdr t false) s = .next ((u.fault t 3 0xF1 0).slotEnd t)) ∧
    (s.runs t 0x84 = true → u.tickets t < 2 → exec (.tkt t false) s =
      .next ((((u.takeTicket t (65536 * u.threadPipe t + (u.tg t (iS1 w) + iSx w) % 65536)).2.tput t (iDst w)
        (u.takeTicket t (65536 * u.threadPipe t + (u.tg t (iS1 w) + iSx w) % 65536)).1).retire t).slotEnd t)) ∧
    (s.runs t 0x84 = true → 2 ≤ u.tickets t → exec (.tkt t false) s = .next ((u.fault t 5 3 0).slotEnd t))) ∧
  (∀ (t : Nat) (s u : State) (w k : Nat) (bs : List Byte), w = s.insn t → u = s.slotPass t → s.runs t 0x85 = true →
    u.holds t (u.tg t (iS1 w)) = some k → u.get TH_frame t ≠ 0 → u.tickets t < 2 →
    (iMod w = 0 → bit (u.tg t (iS2 w)) 63 = false → u.rebuilt t (u.get TH_frame t - 1) = some bs →
      u.atHead (u.get TH_tktdom k) (u.get TH_tkt k - 1) = true → exec (.relForward t false) s =
      .next ((((u.updFrame (u.get TH_frame t - 1) (u.relFrame t w bs)).useTicket k (u.get TH_frame t - 1 + 1)
        (bits (u.tg t (iS2 w)) 0 18 + 1)).released t 6).slotEnd t)) ∧
    (iMod w = 1 → exec (.relDrop t false) s = .next ((((u.useTicket k 0 0).endFrame (u.get TH_frame t - 1)
      (dropStatus (u.tg t (iS2 w)))).released t 7).slotEnd t))) ∧
  ∀ (t : Nat) (s u : State) (w : Nat), w = s.insn t → u = s.slotPass t → s.runs t 0x85 = true → iMod w = 2 →
    (∀ k, u.holds t (u.tg t (iS1 w)) = some k → exec (.relPass t false) s = .next (((u.useTicket k 0 0).retire t).slotEnd t)) ∧
    (u.holds t (u.tg t (iS1 w)) = none → exec (.relPass t false) s = .next ((u.fault t 5 1 0).slotEnd t))

/-- Supervisor instructions and the faults of threads. -/
def Obligations.SupervisorsAndFaultsOfThreads : Prop :=
  (∀ (t : Nat) (s u : State) (w x : Nat), w = s.insn t → u = s.slotPass t → u.supTarget t w = some x →
    (s.runs t 0xF0 = true → u.startable x = true → exec (.thst t false) s =
      .next ((((((u.startThread x (iImm w) true).set TH_ev x 0).tput x 1 (u.tg t (iS2 w))).tput t (iDst w) 1).retire t).slotEnd t)) ∧
    (s.runs t 0xF1 = true → u.flag TH_halt x = false → exec (.thrs t false) s =
      .next (((((u.dispose x 0x70).endThread x).tput t (iDst w) 1).retire t).slotEnd t))) ∧
  (∀ (t : Nat) (s u : State) (w : Nat) (r : List Byte) (q : List (List Byte)), w = s.insn t → u = s.slotPass t → s.runs t 0xF2 = true →
    SM.get [] u.faultq (t / 16) = r :: q → exec (.fltr t false) s =
      .next ((((((({ u with faultq := SM.put [] u.faultq (t / 16) q }).tput t (iDst w) (leAt r 0 8)).tput t (iDst w + 1) (leAt r 8 8)).tput t
        (iDst w + 2) (leAt r 16 8)).tput t (iDst w + 3) (leAt r 24 8)).retire t).slotEnd t)) ∧
  (∀ (t : Nat) (s : State), s.issues t = true → s.flag TH_bad t = false → s.budgetDue t = false →
    (insnOk (isSup t) (s.insn t) = false → exec (.add t false) s = .next (((s.slotPass t).fault t 1 0 0).slotEnd t)) ∧
    (insnOk (isSup t) (s.insn t) = true → iOp (s.insn t) = 0x10 → s.predOk t (s.insn t) = false → exec (.add t false) s =
      .next (((((s.slotPass t).slotIs t .wasted).set TH_pc t (s.get TH_pc t + 1)).set TH_wait t 0).slotEnd t)) ∧
    (insnOk (isSup t) (s.insn t) = true → iOp (s.insn t) = 0x10 → s.guard = true → t < 4096 → exec (.add t true) s =
      .next ((((s.slotPass t).put LKS_copy (t / 32) true).fault t 6 0 0).slotEnd t))) ∧
  (∀ (k : Nat) (s : State), s.flag LKS_copy k = true → exec (.lockstepResyncDone k) s =
    .next ((forEach (List.range 16) (fun j u => u.mirror (32 * k + j))
      (s.wr (baseL (2 * k + 1)) (s.rd (baseL (2 * k)) (2 ^ 14)))).put LKS_copy k false)) ∧
  (∀ (t k : Nat) (s : State), s.coresRun = true → s.get TH_tkt (2 * t + k) ≠ 0 → s.flag TH_texp (2 * t + k) = false →
    s.session (cluOf t) = false → s.get TH_tktns (2 * t + k) + 1000 * s.get FP_CLU_CFG_order_hold_limit (cluOf t) < s.clk →
    (s.issues t = true → s.budgetDue t = false) →
    exec (.ticketHoldExpiry t k) s = .next ((s.put TH_texp (2 * t + k) true).takeFault t 5 5 0)) ∧
  (∀ (t b : Nat) (s : State), s.issues t = true → s.get TH_frame t ≠ 0 → b = s.get TH_budget t → b ≠ 0 →
    (s.get TH_wait t = 0 → exec (.slotBudgetExpiry t) s = .next ((s.set TH_slots t (max (s.get TH_slots t) (64 * b))).budgetFault t)) ∧
    (s.get TH_wait t ≠ 0 → exec (.slotBudgetExpiry t) s =
      .next ((forEach (List.range (64 * b - s.get TH_slots t)) (fun _ u => (u.slotPass t).slotIs t .back) s).budgetFault t))) ∧
  (∀ (t : Nat) (u : State), u.holdDue t 0 = false → u.holdDue t 1 = false →
    u.budgetFault t = (u.set TH_budget t 0).fault t 4 0 0) ∧
  ∀ (k : Nat) (s : State), s.coresRun = true → s.flag CLU_dlk k = false → s.deadlocked k = true →
    exec (.clusterDeadlock k) s = .next ((forEach (List.range 16) (fun c u => u.raiseEv (256 * k + 16 * c) 17)
      ((s.put CLU_dlk k true).put FP_CLU_STATUS_deadlock k true)).detect k 16 false)

/-- R101: both cores of a pair run the same slots. -/
def Obligations.CheckersFollowTheirLeads : Prop :=
  ∀ (t : Nat) (s v : State), s.wf = true → v = s.slotEnd t →
    (s.guard = false ∨ 4096 ≤ t ∨ s.flag LKS_copy (t / 32) = true → v = s) ∧
    (s.guard = true → t < 4096 → s.flag LKS_copy (t / 32) = false →
      (∀ r, r < 32 → v.get TH_g (32 * (t + 16) + r) = s.get TH_g (32 * t + r) % 2 ^ 64) ∧
      (∀ r, r < 8 → v.get TH_c (8 * (t + 16) + r) = s.get TH_c (8 * t + r) % 2 ∧
        v.get TH_rs (8 * (t + 16) + r) = s.get TH_rs (8 * t + r) % 2 ^ 15) ∧
      v.get TH_rsd (t + 16) = s.get TH_rsd t % 2 ^ 4 ∧ v.get TH_pc (t + 16) = s.get TH_pc t % 2 ^ 15 ∧
      (∀ k, k < 1024 → Memory.read v.mem (baseW (t + 16) + k) = Memory.read s.mem (baseW t + k)) ∧
      (∀ (f : Fld) (n j : Nat), (f, n) ∈ [(TH_g, 32), (TH_c, 8), (TH_rs, 8), (TH_rsd, 1), (TH_pc, 1)] → j / n ≠ t + 16 →
        v.get f j = s.get f j) ∧
      (∀ (f : Fld) (j : Nat), [TH_g, TH_c, TH_rs, TH_rsd, TH_pc].all (fun g => g.id % 4096 != f.id % 4096) = true →
        v.get f j = s.get f j) ∧
      (∀ b, b < baseW (t + 16) ∨ baseW (t + 16) + 1024 ≤ b → Memory.read v.mem b = Memory.read s.mem b) ∧
      v = { s with fld := v.fld, mem := v.mem })

/-- Table NI-14. -/
def Obligations.TableCommandsOfThreads : Prop :=
  ∀ (t g : Nat) (s v : State), s.wf = true → v = s.committing t → g = s.cmdTag t →
    (∀ bad r, s.commits t 0 1 = true → v.flowBadCmd t = false → r = v.flowLookup (v.tblKey t) bad →
      exec (.flowLookup t false false bad) s = .next (((r.2.foundBadFlows r.1.bads).cmdResult 0 t g
        [r.1.status, leAt r.1.adata 0 8, leAt r.1.adata 8 8, r.1.idx]).taken t)) ∧
    (∀ r, s.commits t 0 2 = true → v.flowBadCmd t = false →
      r = v.flowInsert (v.tblKey t) (leBytes 8 (v.tw t 6) ++ leBytes 8 (v.tw t 7)) false →
      exec (.flowInsert t false false) s = .next ((r.2.cmdResult 0 t g [r.1, leAt (r.2.flowEntry (v.tblKey t)).2 0 8,
        leAt (r.2.flowEntry (v.tblKey t)).2 8 8, (r.2.flowEntry (v.tblKey t)).1]).taken t)) ∧
    (∀ r e, s.commits t 0 3 = true → v.flowBadCmd t = false → r = v.flowDelete (v.tblKey t) → e = v.flowEntry (v.tblKey t) →
      exec (.flowDelete t false false) s = .next ((r.2.cmdResult 0 t g [r.1, leAt e.2 0 8, leAt e.2 8 8, e.1]).taken t)) ∧
    (∀ bad n r, s.commits t 0 4 = true → n = v.tblN t → v.tw t 0 < 2 ^ 24 → n = 2 ∨ (n = 1 ∧ leAt (v.tblKey t) 4 4 = 0) →
      r = v.lpmLookup (v.threadPipe t) (v.tblInst t) (n == 2)
        (beNat (padTo 16 ((v.tblKey t).take (if n = 2 then 16 else 4)))) bad →
      exec (.lpmLookup t false false bad) s = .next (((v.foundBads .lpm (v.threadPipe t) r.bads).cmdResult 0 t g
        [r.status, r.word, 0, if r.status = 0 then bits r.word 10 24 else 0]).taken t)) ∧
    (∀ bad r, s.commits t 0 5 = true → v.tw t 0 < 2 ^ 24 → v.tblN t = 1 → leAt (v.tblKey t) 6 2 = 0 →
      r = v.flushSome.l2Lookup (v.threadPipe t) (v.tblInst t) ((v.tblKey t).take 6) bad →
      exec (.l2Lookup t false false bad) s =
        .next (((v.flushSome.foundBads .l2 (v.threadPipe t) r.bads).cmdResult 0 t g [r.status, r.word, 0, r.idx]).taken t)) ∧
    (∀ bad, s.commits t 0 1 = true → v.flowBadCmd t = true →
      exec (.flowLookup t false false bad) s = .next (((s.slotPass t).fault t 3 1 0).slotEnd t))

/-- Tables NI-15 and NI-16. -/
def Obligations.CipherAndDmaCommandsOfThreads : Prop :=
  ∀ (t g : Nat) (s v : State), s.wf = true → v = s.committing t → g = s.cmdTag t →
    (v.cphCmdBad t (v.cphCmd t g) = false → cphRangeBad t (v.cphCmd t g) = false → 
      (s.commits t 1 1 = true → exec (.cipherEncrypt t false false) s = .next ((v.addJob (v.cphCmd t g)).taken t)) ∧
      (s.commits t 1 2 = true → exec (.cipherDecrypt t false false) s = .next ((v.addJob (v.cphCmd t g)).taken t)) ∧
      (s.commits t 1 3 = true → exec (.cipherMacGen t false false) s = .next ((v.addJob (v.cphCmd t g)).taken t)) ∧
      (s.commits t 1 4 = true → exec (.cipherMacVerify t false false) s = .next ((v.addJob (v.cphCmd t g)).taken t))) ∧
    (∀ c, s.commits t 2 1 = true → c = v.dmaCmdChan t → v.dmaCmdField t = false → v.dmaCmdDenied c = false →
      (v.dmaCmdBusy c = false → exec (.dmaStart t false false) s =
        .next ((v.dmaStart c (threadReq t) (.cmd t g (v.cmdSeq t g))).taken t)) ∧
      (v.dmaCmdBusy c = true → exec (.dmaStart t false false) s = .next ((v.cmdResult 2 t g [0x64]).taken t))) ∧
    (∀ c, s.commits t 2 2 = true → c = v.dmaCmdChan t → v.dmaCmdField t = false → v.dmaCmdDenied c = false →
      dmaRangeOk (v.tw t 1) (v.tw t 3) = true → dmaRangeOk (v.tw t 2) (v.tw t 3) = true →
      (threadReq t).may (v.tw t 1) = true → (threadReq t).may (v.tw t 2) = true →
      v.dmaBad c (threadReq t) (v.tw t 1) (v.tw t 2) (v.tw t 3) (v.get DMA_CH_CFG_cfg c) = false →
      (v.dmaCmdBusy c = true → exec (.dmaCopy t false false) s = .next ((v.cmdResult 2 t g [0x64]).taken t)) ∧
      (v.dmaCmdBusy c = false →
      exec (.dmaCopy t false false) s = .next (((v.handOver c).dmaBegin c (.cmd t g (v.cmdSeq t g)) (v.tw t 1) (v.tw t 2) (v.tw t 3)
        ((v.handOver c).get DMA_CH_CFG_cfg c) (v.tw t 4)).taken t))) ∧
    (s.commits t 2 1 = true → v.dmaCmdField t = false → v.dmaCmdDenied (v.dmaCmdChan t) = true →
      exec (.dmaStart t false false) s = .next (((s.slotPass t).fault t 3 0x24 0).slotEnd t))

/-- Tables NI-17 to NI-19. -/
def Obligations.CounterSendAndTriggerCommands : Prop :=
  (∀ (t g i : Nat) (s v : State), s.wf = true → v = s.committing t → g = s.cmdTag t →
    i = 2 ^ 20 * bits (v.tw t 0) 8 8 + bits (v.tw t 0) 16 24 →
    bits (v.tw t 0) 4 4 = 0 → v.tw t 0 < 2 ^ 40 → v.tw t 1 < 2 ^ 48 → v.twZero t 2 = true →
    (15 < bits (v.tw t 0) 8 8 ∨ 1048575 < bits (v.tw t 0) 16 24 → s.commits t 3 1 = true →
      exec (.counterAdd t false false) s = .next (if g = 0 then (v.inc ENG_err 3).taken t
        else ((s.slotPass t).fault t 3 0x33 0).slotEnd t)) ∧
    (bits (v.tw t 0) 8 8 ≤ 15 → bits (v.tw t 0) 16 24 ≤ 1048575 →
    (s.commits t 3 1 = true → exec (.counterAdd t false false) s =
      .next ((((v.add CTR_pkts i (bits (v.tw t 1) 0 16)).add CTR_bytes i (bits (v.tw t 1) 16 32)).cmdResult 3 t g [0]).taken t)) ∧
    (s.commits t 3 2 = true → exec (.counterRead t false false) s =
      .next ((v.cmdResult 3 t g [0, v.get CTR_pkts i, v.get CTR_bytes i]).taken t)) ∧
    (s.commits t 3 3 = true → exec (.counterReadClear t false false) s =
      .next ((((v.set CTR_pkts i 0).set CTR_bytes i 0).cmdResult 3 t g [0, v.get CTR_pkts i, v.get CTR_bytes i]).taken t)))) ∧
  (∀ (t g n : Nat) (sp : Nat × Nat) (s v : State), s.wf = true → v = s.committing t → g = s.cmdTag t → n = bits (v.tw t 0) 22 14 →
    sp = (if bits (v.tw t 0) 36 2 = 0 then windowSpace t else if bits (v.tw t 0) 36 2 = 1 then sharedSpace t else localSpace t) →
    s.commits t 4 1 = true → v.tw t 0 < 2 ^ 39 → v.tw t 2 < 2 ^ 48 → v.twZero t 3 = true → bits (v.tw t 0) 36 2 ≠ 3 →
    60 ≤ n → n ≤ 16356 → v.tw t 1 + n ≤ sp.2 →
    exec (.sendFrame t false false) s = .next ((((v.newFrame
      { bytes := v.rd (sp.1 + v.tw t 1) n, pipe := v.threadPipe t, arrq := 4 * v.now, launch := v.tw t 2, ts := bit (v.tw t 0) 38 }).toStage v.nextFrame (bits (v.tw t 0) 4 18)).cmdResult 4 t g [0]).taken t)) ∧
  (∀ (t g c n : Nat) (s v : State), s.wf = true → v = s.committing t → g = s.cmdTag t → c = bits (v.tw t 0) 4 5 → n = bits (v.tw t 0) 16 4 →
    s.commits t 4 2 = true → bits (v.tw t 0) 9 7 = 0 → v.tw t 0 < 2 ^ 20 → 0 < n → n ≤ 8 → v.twZero t 5 = true → 8 ≤ c →
    (v.mbxPost c (threadOwner t) (v.msgWords t n)).1 ≠ 2 →
    exec (.sendMbx t false false) s = .next (((v.mbxPost c (threadOwner t) (v.msgWords t n)).2.cmdResult 4 t g
      [(v.mbxPost c (threadOwner t) (v.msgWords t n)).1]).taken t)) ∧
  (∀ (t g k : Nat) (s v : State), s.wf = true → v = s.committing t → g = s.cmdTag t → k = v.trgComp t →
    v.tw t 0 < 2 ^ 32 → v.flag MT_TRIG_CFG_own k = false →
    (s.commits t 5 1 = true → v.tw t 1 < 2 ^ 50 → v.tw t 2 < 2 ^ 16 → v.twZero t 3 = true → 0 < bits (v.tw t 0) 12 4 →
      bits (v.tw t 0) 12 4 ≤ 4 → (bits (v.tw t 0) 12 4 = 3 → v.tw t 2 ≠ 0) → v.destOk (bits (v.tw t 0) 16 16) = true →
      (v.flag MT_TRIG_STATUS_armed k = true → exec (.triggerArm t false false) s = .next ((v.cmdResult 5 t g [1]).taken t)) ∧
      (v.flag MT_TRIG_STATUS_armed k = false → reached48 v.now (bits (v.tw t 1) 2 48) = true →
        exec (.triggerArm t false false) s = .next ((v.cmdResult 5 t g [2]).taken t)) ∧
      (∀ u, v.flag MT_TRIG_STATUS_armed k = false → reached48 v.now (bits (v.tw t 1) 2 48) = false →
        u = ((((v.trigLoad k (bits (v.tw t 1) 2 48) (bits (v.tw t 1) 0 2) (bits (v.tw t 0) 12 4) (bits (v.tw t 0) 16 16) (v.tw t 2)).put
          MT_TRIG_STATUS_thread k true).set TRX_thr k t).set TRX_tag k g).set TRX_tseq k (v.cmdSeq t g) →
        exec (.triggerArm t false false) s = .next ((if u.trgDue k then u.sendTrg k else u).taken t))) ∧
    (s.commits t 5 2 = true → v.tw t 1 < 2 ^ 50 → v.tw t 2 < 2 ^ 16 → v.twZero t 3 = true →
      exec (.triggerDisarm t false false) s = .next (((if v.flag MT_TRIG_STATUS_armed k = true ∧ v.fireDue k = false
        then v.trigEnd k 3 0 else v).cmdResult 5 t g [0]).taken t))) ∧
  ∀ (k t g q : Nat) (words : List Nat) (s : State), s.flight[k]? = some (t, g, q, words) →
    (({ s with flight := s.flight.eraseIdx k } : State).get TH_tagseq (4 * t + g) = q → s.flag TH_tag (4 * t + g) = true →
      exec (.cmdResultArrival k) s = .next ((forEach (List.range 4) (fun j u => u.set TH_r (4 * (4 * t + g) + j) (words.getD j 0))
        ((({ s with flight := s.flight.eraseIdx k }).put TH_tag (4 * t + g) false).put TH_rok (4 * t + g) true)).raiseEv t g))

/-- Dispatch and the debugger. -/
def Obligations.DispatchAndDebugger : Prop :=
  (∀ (p f t : Nat) (q : List Nat) (s : State), SM.get [] s.dispq p = f :: q → s.dispatchTo p = some t → s.moving = true →
    exec (.packetDispatch p) s = .next ((({ s with dispq := SM.put [] s.dispq p q }).dispatchFrame p f t).set DSP_next p ((t / 16 + 1) % 32))) ∧
  (∀ (m f : Nat) (q : List Nat) (s u : State), s.excq = f :: q → s.issues (4096 + m) = true → s.get TH_frame (4096 + m) = 0 →
    u = ({ s with excq := q }).wr (baseW (4096 + m)) (padTo 1024 (s.frame f).win) →
    exec (.exceptionFrameDispatch m) s = .next ((u.set TH_frame (4096 + m) (f + 1)).updFrame f (fun x => { x with stage := .thread (4096 + m) }))) ∧
  (∀ (w : Who) (k v : Nat) (s : State), s.mayWrite w = true → exec (.supRestart w k v) s =
    .next (forEach ((List.range 16).filter (fun c => bit v (16 + c))) (fun c u => u.supStart (16 * k + c) (v % 2 ^ 15))
      (s.set FP_CLU_CTRL_sup_entry k (v % 2 ^ 15)))) ∧
  (∀ (w : Who) (m : Nat) (s : State), s.mayWrite w = true → s.flag FP_DBG_SESSION_fuse_closed 0 = false →
    exec (.sessionOpen w m) s = .next (s.sessionTo true m)) ∧
  (∀ (w : Who) (s : State), s.mayWrite w = true → s.flag FP_DBG_SESSION_open 0 = true →
    exec (.sessionClose w) s = .next (s.sessionTo false 0)) ∧
  (∀ (w : Who) (t : Nat) (s u : State), s.mayWrite w = true → s.threadNamed t = true → s.session (cluOf t) = true →
    u = (s.set DBG_thr 0 t).wakeCluster (cluOf t) →
    exec (.halt w t) s = .next ((u.put TH_halt t true).rearm t) ∧
    (u.flag TH_halt t = true → exec (.resume w t) s = .next (u.resumeThread t)) ∧
    (u.flag TH_halt t = true → u.flag TH_hsess t = false → u.coreOpen t = true → u.get TH_mode t = 1 →
      exec (.step w t) s = .next (u.slotDo t (u.insn t) false (semOf (iOp (u.insn t)) t (u.insn t)))) ∧
    (u.flag TH_halt t = true → exec (.debugRelease w t) s =
      .next ((u.dispose t 0x13).put TH_hsess t (u.get TH_frame t != 0 || u.flag TH_hsess t)))) ∧
  ∀ (w : Who) (t : Nat) (s : State), s.mayWrite w = true → s.threadNamed t = true → s.session (cluOf t) = false →
    exec (.halt w t) s = .next (s.put FP_DBG_STATUS_refused 0 true) ∧
    exec (.step w t) s = .next (s.put FP_DBG_STATUS_refused 0 true)

/-- R137 to R139. -/
def Obligations.ManagementCoresRestart : Prop :=
  (∀ (w : Who) (v : Nat) (s : State), s.mayWrite w = true →
    (v / 2 ^ 16 % 2 ^ 12 = 0 → exec (.heartbeat w v) s = .next ((s.set MC_HB_misses 0 0).put MC_HB_stall 0 false)) ∧
    (v / 2 ^ 16 % 2 ^ 12 ≠ 0 → exec (.heartbeat w v) s =
      .next (((s.set MC_HB_hb_period 0 (v / 2 ^ 16 % 2 ^ 12)).set MC_HB_misses 0 0).put MC_HB_stall 0 false))) ∧
  (∀ s : State, s.coresRun = true → s.flag MC_HB_stall 0 = false → s.flag MC_CTRL_running 0 = true ∨ s.dev ≠ dsBooting →
    exec .mgmtStall s = .next ((((s.put MC_HB_stall 0 true).set MC_HB_misses 0 3).enterDrift 1).detect 0x010 0 false)) ∧
  (∀ (w : Who) (s : State), s.mayWrite w = true → exec (.mgmtRestart w) s =
    .next ((((forEach (List.range 64) (fun m u => u.mgmtReset m) s).put MC_CTRL_running 0 false).put MCX_restart 0 true).enterDrift 1)) ∧
  ∀ (nor : List Byte) (s : State), s.coresRun = true → s.flag MCX_restart 0 = true →
    (exec (.mgmtRestartDone []) s = .next (forEach (List.range 64) (fun m u => u.mbxRing (0x8000 + m)) (s.startMgmt.put MCX_restart 0 false))) ∧
    exec (.mgmtRestartDone nor) s = .next (if nor.isEmpty || (s.imageAuth nor && imageHashed nor (fun ty => ty == 0x10)) then
        forEach (List.range 64) (fun m u => u.mbxRing (0x8000 + m))
          ((forEach ((imageSegs nor).filter (fun g => g.1 == 0x10)) (fun g u => u.loadSeg g) s).startMgmt.put MCX_restart 0 false)
      else s)

/-- Arrival (Table PT-4, R249, R250). -/
def Obligations.FramesArrive : Prop :=
  (∀ (id : Nat) (len : FirstCell) (ago : Nat) (s : State), isExt id = true → s.portUp id = true → s.portsOn = true → s.get PT_rx (rxUnit id) = 0 → s.open_ = true →
    (s.admits id (cellsOf (len.bytes - 4)) = false → exec (.frameFirstCell id len ago) s = .next ((s.cnt id cRxDropBuf 1).pmu 19 2 1)) ∧
    (∀ u, s.admits id (cellsOf (len.bytes - 4)) = true →
      u = s.newFrame { src := id, pipe := pipeOfPort id, arrq := ((((4 * s.now : Nat) : Int) - ago - s.rxComp id) % 2 ^ 66).toNat,
                       stage := .arriving, cells := cellsOf (len.bytes - 4), iprio := if 16 ≤ id then 0 else s.prioOf id len.pcp } →
      exec (.frameFirstCell id len ago) s = .next ((((u.setCharge id (u.get SCH_BUF_PORT_charge id + cellsOf (len.bytes - 4))).set PT_rx
        (rxUnit id) (s.nextFrame + 1)).pmu 19 1 (cellsOf (len.bytes - 4))).judgePort id))) ∧
  (∀ (m f : Nat) (bs : List Byte) (s u : State), m < 16 → s.get PT_rx m = f + 1 → u = s.set PT_rx m 0 → s.wf = true →
    u.portsOn = true → u.portUp (u.frame f).src = true →
    exec (.frameEnd m false bs) s = .next ((u.cnt m cRxFcs 1).rxDiscard f) ∧
    (bs.length + 4 < 64 → exec (.frameEnd m true bs) s = .next ((u.cnt m cRxRunt 1).rxDiscard f)) ∧
    (64 ≤ bs.length + 4 → u.maxLen (u.frame f).src < bs.length + 4 →
      exec (.frameEnd m true bs) s = .next ((u.cnt m cRxOversize 1).rxDiscard f)) ∧
    (64 ≤ bs.length + 4 → bs.length + 4 ≤ u.maxLen (u.frame f).src → beAt bs 12 2 = 0x8808 →
      exec (.frameEnd m true bs) s = .next ((u.rxDiscard f).macControl m bs)) ∧
    (64 ≤ bs.length + 4 → bs.length + 4 ≤ u.maxLen (u.frame f).src → beAt bs 12 2 ≠ 0x8808 →
      exec (.frameEnd m true bs) s = .next (u.rxStore f (bs.length + 4) bs))) ∧
  (∀ (n f ln : Nat) (bs : List Byte) (s u : State), s.get PT_rx (16 + n) = f + 1 → u = s.set PT_rx (16 + n) 0 →
    u.portsOn = true → u.portUp (u.frame f).src = true →
    ln = bs.length + 4 - (if ownTag bs = true ∧ byteAt bs 14 / 64 = 1 ∧ byteAt bs 15 / 32 % 4 = 0 ∧
      u.flag TLK_CH_CFG_en (64 * n + byteAt bs 14 % 64) = true then 8 else 0) →
    exec (.frameEnd (16 + n) false bs) s = .next ((u.lcnt n lRxFcs).rxDiscard f) ∧
    (ln < 64 → exec (.frameEnd (16 + n) true bs) s = .next ((u.lcnt n lRxRunt).rxDiscard f)) ∧
    (64 ≤ ln → u.maxLen (u.frame f).src < ln → exec (.frameEnd (16 + n) true bs) s = .next ((u.lcnt n lRxOversize).rxDiscard f)) ∧
    (64 ≤ ln → ln ≤ u.maxLen (u.frame f).src → exec (.frameEnd (16 + n) true bs) s = .next (u.tagIn n f ln bs))) ∧
  (∀ (s u t : State) (f q : Nat) (x : Frame) (e : Ent), s.moving = true → s.poolFns ≠ [] →
    u = forEach ((s.instances FHX_def).filter (fun g => !s.poolFns.contains g)) (fun g t => t.set FHX_def g 0) s →
    poolDwrr s.poolFns (8 * s.poolFns.length) (rotAt s.poolFns (u.get FHX_ptr 0)) u = (some (f, x), t) → q = x.qp1 - 1 →
    u.get SCX_host 0 + cellsOf x.need ≤ 4 * u.get SCH_BUF_CFG_host_kib 0 →
    (((t.set SCX_host 0 (t.get SCX_host 0 + cellsOf x.need)).set FHX_q 0 q).updFrame f (fun x' => { x' with cells := cellsOf x.need })).entAt
      q x.idx = some e → weIndirect e.bytes = false →
    exec .hostFrameFetch s = .next ((((t.set SCX_host 0 (t.get SCX_host 0 + cellsOf x.need)).set FHX_q 0 q).updFrame f
      (fun x' => { x' with cells := cellsOf x.need })).hostRead
      ((((t.set SCX_host 0 (t.get SCX_host 0 + cellsOf x.need)).set FHX_q 0 q).updFrame f
        (fun x' => { x' with cells := cellsOf x.need })).qOwner q) (weAddr e.bytes) x.need (weRo e.bytes) (weNs e.bytes) (.entry q x.idx))) ∧
  (∀ (q idx f : Nat) (x : Frame) (bs : List Byte) (s : State),
    s.frames.find? (fun e => e.2.qp1 == q + 1 && e.2.idx == idx && e.2.stage == .arriving && e.2.cells != 0) = some (f, x) →
    exec (.hostFrameReady q idx (.data bs)) s =
      .next ((s.updFrame f (fun y => { y with bytes := padTo x.need bs, need := 0, stage := .parse })).pmu 19 1 x.cells) ∧
    exec (.hostFrameReady q idx .timeout) s = .next ((s.aer (s.qOwner q) (ReadResult.aerBit .timeout) false []).endFrame f 0x23)) ∧
  ∀ (p bad f src : Nat) (s : State), s.moving = true → s.flag PPL_STATUS_paused p = false → (SM.get [] s.dispq p).length < 8192 →
    s.candidates p ≠ [] → (s.candidates p).find? (fun e => e.1 == rotAt ((s.candidates p).map (fun e => e.1)) (s.get PRS_last p)) = some (src, f) →
    exec (.frameParse p bad) s = .next ((s.set PRS_last p
      (rotAt ((s.candidates p).map (fun e => e.1)) (s.get PRS_last p) + 1)).parse p f bad)

/-- R186 to R189. -/
def Obligations.PipelineUpdates : Prop :=
  (∀ (w : Who) (p i : Nat) (r : List Byte) (s : State), s.mayWrite w = true → (s.updList p).length < 512 →
    s.flag PPL_STATUS_upd_busy p = false → r = s.area PPL_UPD_STAGE_byte (256 * p) 256 →
    (i < 32768 → clsBad r = false → exec (.clsWrite w p i) s = .next (s.setUpd p (s.updList p ++ [(1, i, r)]))) ∧
    (i < 32768 → clsBad r = true → exec (.clsWrite w p i) s = .next (s.updRefuse p 4)) ∧
    (32768 ≤ i → exec (.clsWrite w p i) s = .next (s.updRefuse p 3)) ∧
    (i < 32768 → exec (.clsInval w p i) s = .next (s.setUpd p (s.updList p ++ [(2, i, r)]))) ∧
    (i < 256 → exec (.selWrite w p i) s = .next (s.setUpd p (s.updList p ++ [(3, i, r)]))) ∧
    (i < 64 → prfBad r = false → exec (.prfWrite w p i) s = .next (s.setUpd p (s.updList p ++ [(4, i, r)]))) ∧
    (i < 16 → kselBad r = false → exec (.kselWrite w p i) s = .next (s.setUpd p (s.updList p ++ [(5, i, r)]))) ∧
    (i < 132 → exec (.pclassWrite w p i) s = .next (s.setUpd p (s.updList p ++ [(6, i, r)])))) ∧
  (∀ (w : Who) (p i : Nat) (s : State), s.mayWrite w = true → 512 ≤ (s.updList p).length →
    s.flag PPL_STATUS_upd_busy p = false → exec (.clsWrite w p i) s = .next (s.updRefuse p 1)) ∧
  (∀ (w : Who) (p i : Nat) (s : State), s.mayWrite w = true → s.flag PPL_STATUS_upd_busy p = true →
    exec (.clsWrite w p i) s = .next (s.updRefuse p 2)) ∧
  (∀ (w : Who) (p : Nat) (s : State), s.mayWrite w = true → s.flag PPL_STATUS_upd_busy p = false →
    (s.updList p ≠ [] → exec (.updateCommit w p) s =
      .next (((s.put PPL_STATUS_upd_busy p true).put PPL_STATUS_paused p true).put PPL_UPD_CTRL_commit p true)) ∧
    exec (.updateDiscard w p) s = .next (({ s with updq := SM.put [] s.updq p [] }).set PPL_STATUS_pending p 0)) ∧
  (∀ (w : Who) (p : Nat) (s : State), s.mayWrite w = true → s.flag PPL_STATUS_upd_busy p = true →
    exec (.updateCommit w p) s = .next (s.updRefuse p 2) ∧ exec (.updateDiscard w p) s = .next (s.updRefuse p 2)) ∧
  (∀ (p ns t : Nat) (s u v : State), s.flag PPL_STATUS_upd_busy p = true → s.portsOn = true ∨ s.dev = dsBooting → t = min ns (160 + 35 * (s.updList p).length) →
    u = (((forEach (s.updList p) (fun o t => t.updApply p o) s).setUpd p []).put PPL_STATUS_upd_busy p false).put PPL_STATUS_paused p false →
    v = u.put PPL_UPD_CTRL_commit p false →
    (((v.set PPL_UPD_STATUS_last_pause p t).set PPL_UPD_MAXP_max_pause p (max t (v.get PPL_UPD_MAXP_max_pause p))).pmu (1 + p) 6 t).flag
      CLX_rdp p = false →
    exec (.updateWindowEnd p ns) s = .next (((v.set PPL_UPD_STATUS_last_pause p t).set PPL_UPD_MAXP_max_pause p
      (max t (v.get PPL_UPD_MAXP_max_pause p))).pmu (1 + p) 6 t)) ∧
  ∀ (w : Who) (p i : Nat) (s u : State), s.mayWrite w = true → u = (s.set PPL_CLS_RD_index p i).put PPL_CLS_RD_done p false →
    u.flag PPL_STATUS_upd_busy p = false → exec (.clsRead w p i) s = .next (u.clsRead p)

/-- Table FT-7. -/
def Obligations.TableCommandsOfRegisters : Prop :=
  (∀ (w : Who) (pipes i : Nat) (b : List Byte) (s t : State), s.mayWrite w = true → s.flag TBL_CMD_STATUS_busy 0 = false →
    t = s.put TBL_CMD_STATUS_busy 0 true → b = t.tblStage →
    exec (.tblFlowInsert w) s = .next ((t.flowInsert (slice b 0 40) (slice b 40 16) (bit (byteAt b 56) 1)).2.tblOut
      (t.flowInsert (slice b 0 40) (slice b 40 16) (bit (byteAt b 56) 1)).1 0) ∧
    exec (.flowReplace w) s = .next ((t.flowReplace (slice b 0 40) (slice b 40 16) (bit (byteAt b 56) 1)).2.tblOut
      (t.flowReplace (slice b 0 40) (slice b 40 16) (bit (byteAt b 56) 1)).1 0) ∧
    exec (.tblFlowDelete w) s = .next ((t.flowDelete (slice b 0 40)).2.tblOut (t.flowDelete (slice b 0 40)).1 0) ∧
    exec (.flowRead w) s = .next ((t.putArea TBL_CMD_RESULT_byte 0 (feRead (t.flowRec (leAt b 0 4 % 2 ^ 26)))).tblOut 0 0) ∧
    (∀ bad r, r = t.flowLookup (slice b 0 40) bad → exec (.tblFlowLookup w bad) s =
      .next (((if r.1.status = 0 then r.2.putArea TBL_CMD_RESULT_byte 0 (feRead (r.2.flowRec r.1.idx)) else r.2).foundBadFlows
        r.1.bads).tblOut r.1.status 0)) ∧
    (∀ (c : Instr) (op ix n : Nat) (a : State), (c, op, ix, n) ∈
        ([(.lpmInsert w pipes, 0x10, 0, 32), (.lpmDelete w pipes, 0x11, 0, 32), (.lpmReplace w pipes, 0x12, 0, 32),
          (.lpmRewrite w pipes i, 0x13, i, 32), (.l2Static w pipes, 0x20, 0, 16), (.l2Delete w pipes, 0x21, 0, 16)] :
          List (Instr × Nat × Nat × Nat)) →
      a = (if op < 0x20 then t.set TBX_moves 0 0 else t) →
      (bitsSet pipes 8 = [] → exec c s = .next (a.tblOut 5 0)) ∧
      (bitsSet pipes 8 ≠ [] → exec c s = .next (State.tblBegin 9 { (a.tblOut 0 0).set TBX_next 0 (a.clk + 5) with
        tblq := (bitsSet pipes 8).map (fun p => .start p op ix (slice b 0 n)) }))) ∧
    (bitsSet pipes 8 ≠ [] → exec (.l2Flush w pipes) s = .next ((((((t.set TBX_flush 0 1).set TBX_fpipes 0 pipes).set TBX_fsel 0
        (byteAt b 0)).set TBX_fbd 0 (leAt b 6 2)).set TBX_fport 0 (leAt b 8 2)).tblOut 0 0)) ∧
    (∀ p u, bitsSet pipes 8 = [p] → u = t.set TBX_moves 0 0 →
      (i < 131072 → exec (.lpmRead w pipes i) s = .next ((u.putArea TBL_CMD_RESULT_byte 0 (u.lpRec p i)).tblOut 0 0)) ∧
      exec (.l2Read w pipes i) s = .next ((t.putArea TBL_CMD_RESULT_byte 0 (t.l2Rec p i)).tblOut 0 0))) ∧
  (∀ (w : Who) (s : State), s.mayWrite w = true → s.flag TBL_CMD_STATUS_busy 0 = true →
    exec (.tblFlowInsert w) s = .next (s.put TBL_CMD_STATUS_refused 0 true)) ∧
  (∀ s u : State, s.flag TBL_CMD_STATUS_busy 0 = true → s.portsOn = true →
    u = ((State.tblAll 4096 s).flushTo l2End).set TBX_flush 0 0 → u.wf = true →
    exec .tblCmdDone s = .next ((((u.set TBL_CMD_STATUS_result 0 (u.get TBX_result 0)).set TBL_CMD_STATUS_moves 0 (u.get TBX_moves 0)).set
      TBL_CMD_STATUS_fail_pipes 0 (u.get TBX_fail 0)).put TBL_CMD_STATUS_busy 0 false)) ∧
  (∀ (n p op ix : Nat) (r : List Byte) (rest : List TblStep) (s u : State), s.tblq = .start p op ix r :: rest → u = { s with tblq := rest } →
    (0x20 ≤ op → State.tblBegin (n + 1) s = State.tblBegin n ((u.tblL2 p op r).2.tblJoin p (u.tblL2 p op r).1)) ∧
    (op < 0x20 → State.tblBegin (n + 1) s = State.tblBegin n { (u.tblJoin p (u.lpmPlan p op ix r).1).set TBX_moves 0 (u.lpmPlan p op ix r).2.1 with
      tblq := (u.lpmPlan p op ix r).2.2 ++ rest })) ∧
  (∀ (p r : Nat) (s : State), s.tblJoin p r = s.tblOut (max (s.get TBX_result 0) r)
    (if r = 0 then s.get TBX_fail 0 else s.get TBX_fail 0 + 2 ^ p)) ∧
  ∀ (x : TblStep) (rest : List TblStep) (s : State), s.tblq = x :: rest → s.portsOn = true → s.get TBX_next 0 ≤ s.clk →
    s.tblDue = State.tblBegin 9 ((({ s with tblq := rest } : State).tblStep1 x).set TBX_next 0 (s.clk + 5))

/-- R198, R205 to R212. -/
def Obligations.TablesAgeAndLearn : Prop :=
  (∀ (i : Nat) (r : List Byte) (s : State), r = s.flowRec i → s.portsOn = true → s.get TBL_FLOW_AGE_period 0 ≠ 0 →
    (feValid r = true → feHit r = true → exec (.flowAgeScan i false) s =
      .next (s.putFlow i (feMake (feKey r) (feData r) (feStatic r) false))) ∧
    (feValid r = true → feHit r = false → feStatic r = false → exec (.flowAgeScan i false) s =
      .next (((s.inc TBL_FLOW_AGED_count 0).tblEvent 1 0 i 0 (feKey r)).putFlow i [])) ∧
    (feValid r = true → feHit r = false → feStatic r = true → exec (.flowAgeScan i false) s = .next s) ∧
    exec (.flowAgeScan i true) s = .next (s.foundBadFlow i)) ∧
  (∀ (p bd : Nat) (mac : List Byte) (port : Nat) (rest : List (Nat × List Byte × Nat)) (s : State),
    SM.get [] s.learnq p = (bd, mac, port) :: rest → s.portsOn = true →
    exec (.l2Learn p) s = .next (({ s with learnq := SM.put [] s.learnq p rest }.flushSome).l2Learn p bd mac port)) ∧
  (∀ (p i : Nat) (r : List Byte) (s : State), r = s.l2Rec p i → s.portsOn = true → leValid r = true →
    (leHeld r = true → exec (.l2HoldEnd p i) s = .next (s.putL2 p i (leFlags r (leHit r) false 0))) ∧
    (s.get TBL_L2_CFG_age_ms p ≠ 0 → leHit r = true →
      exec (.l2AgeScan p i) s = .next (s.putL2 p i (leFlags r false (leHeld r) (leMoves r)))) ∧
    (s.get TBL_L2_CFG_age_ms p ≠ 0 → leHit r = false → leStatic r = false → leHeld r = false →
      exec (.l2AgeScan p i) s = .next (s.l2New p i []))) ∧
  (∀ (k p i : Nat) (s : State), s.portsOn = true → exec (.scrubVisit k p i true) s =
    .next (s.foundBad (scrubKind k).1 p (i % (scrubKind k).2))) ∧
  ∀ (w : Who) (s : State), s.mayWrite w = true → exec (.tblEvqPop w) s = .next { s with tblEvq := s.tblEvq.drop 1 }

/-- Ports and links. -/
def Obligations.LinksAndPauses : Prop :=
  (∀ (w : Who) (v : Nat) (s : State), s.mayWrite w = true → bit v 31 = false → v % 2 ^ 12 ≠ s.get MAC_NMODE_quad 0 →
    (quadBad (v % 2 ^ 12) = false → s.dev = dsIdle → exec (.nmodeWrite w v) s = .next (s.quadChange (v % 2 ^ 12))) ∧
    (s.dev ≠ dsIdle → exec (.nmodeWrite w v) s = .next (s.put MAC_NMODE_refused 0 true)) ∧
    (quadBad (v % 2 ^ 12) = true → exec (.nmodeWrite w v) s = .next (s.put MAC_NMODE_refused 0 true))) ∧
  (∀ (m : Nat) (s : State), m < 16 → s.portsOn = true → s.sdsReady m = true → s.netPresent m = true → s.flag MAC_NPORT_CFG_en m = true →
    s.flag FLT_porth m = false → s.flag MAC_NPORT_STATUS_link m = false →
    exec (.linkUp m) s = .next ((s.put MAC_NPORT_STATUS_link m true).put MAC_NPORT_STATUS_link_chg m true)) ∧
  (∀ (n : Nat) (s u : State), n < 16 → s.portsOn = true → s.sdsReady (16 + n) = true → s.flag TLK_CFG_en n = true →
    s.flag SB_STATUS_rst_n n = true ∨ s.slotDriven n = false → s.flag FLT_porth (16 + n) = false → s.flag TLK_STATUS_link n = false →
    u = ((s.put TLK_STATUS_link n true).put TLK_STATUS_link_chg n true).set TLK_STATUS_credit n 0 →
    exec (.linkUp (16 + n)) s = .next ((u.put TLK_STATUS_split n (u.flag GLB_STATUS_twin_mode 0)).mbxLinkUp n)) ∧
  (∀ (m : Nat) (s : State), m ≠ 32 → exec (.linkDown m) s = .next (s.linkDown m)) ∧
  (∀ s : State, exec (.linkDown 32) s = .next (s.put TWN_STATUS_link 0 false)) ∧
  (∀ (n mask time kib : Nat) (s : State),
    (s.linkHears n = true → exec (.chpause n mask time) s = .next ((s.lcnt n lRxCtl).rxChpause n mask time) ∧
      exec (.credit n kib) s = .next ((s.lcnt n lRxCtl).rxCredit n kib)) ∧
    (s.open_ = false → s.portsOn = true → s.flag TLK_STATUS_link n = true →
      exec (.chpause n mask time) s = .next ((s.cnt (0x100 + 64 * n) cRxDropBuf 1).pmu 19 2 1) ∧
      exec (.credit n kib) s = .next ((s.cnt (0x100 + 64 * n) cRxDropBuf 1).pmu 19 2 1))) ∧
  (∀ (n time vec : Nat) (times : List Nat) (s : State),
    (s.netHears n = true → exec (.pause n time) s = .next (s.rxPause n time) ∧ exec (.pfc n vec times) s = .next (s.rxPfc n vec times)) ∧
    (s.open_ = false → s.portsOn = true → s.portUp n = true →
      exec (.pause n time) s = .next ((s.cnt n cRxDropBuf 1).pmu 19 2 1) ∧
      exec (.pfc n vec times) s = .next ((s.cnt n cRxDropBuf 1).pmu 19 2 1))) ∧
  (∀ (n c : Nat) (s : State), s.flag TLK_CH_CFG_paused (64 * n + c) = true → reached64 s.clk (s.get PT_paused (4096 + (64 * n + c))) = true →
    exec (.chpauseExpiry n c) s = .next (s.chPause (0x100 + 64 * n + c) 0)) ∧
  (∀ (n : Nat) (cs : List Nat) (s : State), s.portsOn = true → cs ≠ [] →
    cs = (List.range 64).filter (fun c => s.flag PT_xoff (4096 + (64 * n + c)) && s.get TLK_CH_CFG_xoff (64 * n + c) != 0 &&
      decide (s.get TLK_CH_CFG_xon (64 * n + c) ≤ s.storedKib (0x100 + (64 * n + c)))) →
    exec (.chpauseRefresh n) s = .next (s.sendChpause n (cs.foldl (fun m c => m + 2 ^ c) 0) (s.get TLK_CFG_cp_time n))) ∧
  (∀ (n p : Nat) (s : State), p ≤ 8 → (if p = 8 then s.flag MAC_NPORT_STATUS_tx_paused n else bit (s.get MAC_NPORT_STATUS_pfc_paused n) p) = true →
    reached64 s.clk (s.get PT_paused (16 * n + p)) = true → exec (.pauseExpiry n p) s = .next (s.netPause n p 0)) ∧
  (∀ (n : Nat) (ps : List Nat) (s : State), s.portsOn = true → s.get MAC_NPORT_FC_xoff n ≠ 0 →
    (s.get MAC_NPORT_FC_fc_mode n = 1 → s.flag PT_xoff (16 * n + 8) = true → s.get MAC_NPORT_FC_xon n ≤ s.storedKib n →
      exec (.pauseRefresh n) s = .next (s.sendPause n 0 (s.get MAC_NPORT_FC_pause_time n))) ∧
    (s.get MAC_NPORT_FC_fc_mode n = 2 → ps ≠ [] →
      ps = (List.range 8).filter (fun p => s.flag PT_xoff (16 * n + p) && decide (s.get MAC_NPORT_FC_xon n ≤ s.prioKib n p)) →
      exec (.pauseRefresh n) s = .next (s.sendPause n (ps.foldl (fun v p => v + 2 ^ p) 0) (s.get MAC_NPORT_FC_pause_time n)))) ∧
  ∀ (w : Who) (r id k v : Nat) (s : State), readerOf w = some r → s.busOpen w = true →
    (v = s.cntVal id k → k ≠ cPausedNs → exec (.portCounterRead w false id k false 8) s =
      .next (((s.set MAC_CNT_cnt (32 * id + k) 0).set CNT_hi r (v / 2 ^ 32)).emit (.regData w 8 v))) ∧
    (v = s.cntVal id cPausedNs → isExt id = true → exec (.portCounterRead w false id cPausedNs false 8) s =
      .next ((((s.countPaused id).set MAC_CNT_cnt (32 * id + cPausedNs) 0).set CNT_hi r (v / 2 ^ 32)).emit (.regData w 8 v))) ∧
    (v = s.get TLK_CNT_cnt (32 * id + k) → exec (.portCounterRead w true id k false 4) s =
      .next (((s.set TLK_CNT_cnt (32 * id + k) 0).set CNT_hi r (v / 2 ^ 32)).emit (.regData w 4 (v % 2 ^ 32)))) ∧
    exec (.portCounterRead w true id k true 4) s = .next (s.emit (.regData w 4 (s.get CNT_hi r)))

/-- Table PT-9, R245 to R247. -/
def Obligations.SidebandAndShell : Prop :=
  (∀ (w : Who) (sl : Nat) (s : State), s.sbOpen w = true → s.flag SB_STATUS_busy sl = false →
    s.get SBX_hit sl ≠ s.clk + 1 → s.slotDriven sl = true →
    (s.flag SB_STATUS_prsnt sl = true → s.flag SB_STATUS_pwren sl = false →
      exec (.powerOn w sl) s = .next ((s.put SB_STATUS_pwren sl true).slotSeq sl 1)) ∧
    exec (.powerOff w sl) s = .next (s.slotOff sl) ∧
    exec (.hold w sl) s = .next (s.slotRst sl false) ∧
    (s.flag SB_STATUS_pwren sl = true → s.flag SB_STATUS_fault sl = false → s.slotLive = true →
      exec (.reset w sl) s = .next ((s.slotRst sl false).slotSeq sl 3) ∧
      exec (.release w sl) s = .next (s.slotRst sl true))) ∧
  (∀ (w : Who) (sl : Nat) (s : State), s.sbOpen w = true → s.flag SB_STATUS_busy sl = true ∨ s.get SBX_hit sl = s.clk + 1 →
    exec (.powerOn w sl) s = .next (s.slotRefuse sl) ∧ exec (.powerOff w sl) s = .next (s.slotRefuse sl) ∧
    exec (.reset w sl) s = .next (s.slotRefuse sl) ∧ exec (.hold w sl) s = .next (s.slotRefuse sl) ∧
    exec (.release w sl) s = .next (s.slotRefuse sl)) ∧
  (∀ (sl : Nat) (s : State),
    (s.get SBX_seq sl = 1 → exec (.powerGood sl) s =
      .next ((s.put SB_STATUS_fault sl false).slotSeq sl (if (s.put SB_STATUS_fault sl false).slotLive then 2 else 0))) ∧
    (s.get SBX_seq sl = 2 → s.flag SB_CFG_auto_rel sl = true → exec (.resetDelayExpiry sl) s = .next ((s.slotRst sl true).slotSeq sl 0)) ∧
    (s.get SBX_seq sl = 2 → s.flag SB_CFG_auto_rel sl = false → exec (.resetDelayExpiry sl) s = .next (s.slotSeq sl 0)) ∧
    (s.get SBX_seq sl = 3 → exec (.resetDelayExpiry sl) s = .next ((s.slotRst sl true).slotSeq sl 0)) ∧
    (s.get SBX_seq sl = 4 → exec (.powerOffDelayExpiry sl) s =
      .next (((s.put SB_STATUS_pwren sl false).slotSeq sl 0).zeroOwner (0x1E00 + sl)))) ∧
  (∀ (sl : Nat) (p : Bool) (s u : State), s.dev ≠ 0 → s.flag SB_STATUS_prsnt sl = !p →
    u = (if p then (s.put SB_STATUS_prsnt sl p).put SB_STATUS_prsnt_chg sl true
      else ((s.put SB_STATUS_prsnt sl p).put SB_STATUS_prsnt_chg sl true).slotHit sl) →
    (p = true ∨ u.flag SB_CFG_surprise_off sl = false → exec (.slotPrsntChange sl p) s = .next u) ∧
    (p = false → u.flag SB_CFG_surprise_off sl = true → u.flag SB_STATUS_pwren sl = true ∨ u.flag SB_STATUS_busy sl = true →
      exec (.slotPrsntChange sl p) s = .next (u.slotOff sl))) ∧
  (∀ (w : Who) (sl v : Nat) (s u : State), s.sbOpen w = true → s.flag SB_I2C_CMD_go sl = false →
    1 ≤ v / 2 ^ 12 % 2 ^ 4 → v / 2 ^ 12 % 2 ^ 4 ≤ 8 → v / 2 ^ 16 % 2 ^ 4 ≤ 8 →
    u = (((((s.set SB_I2C_CMD_len sl (v / 2 ^ 12 % 2 ^ 4)).set SB_I2C_CMD_rlen sl (v / 2 ^ 16 % 2 ^ 4)).set SB_I2C_CMD_taddr sl
      (v / 2 % 2 ^ 7)).put SB_I2C_CMD_rd sl (bit v 0)).put SB_I2C_CMD_go sl true).put SB_I2C_CMD_done sl false →
    exec (.i2cGo w sl v) s = .next (u.emit (.i2c sl (u.get SB_I2C_CMD_taddr sl) (u.i2cData sl) (u.i2cReads sl)))) ∧
  (∀ (sl st : Nat) (d : List Byte) (s : State), s.flag SB_I2C_CMD_go sl = true →
    (st ≠ 0 → exec (.i2cDone sl st d) s =
      .next ((((if st = 3 then s.emit (.i2cClear sl) else s).put SB_I2C_CMD_go sl false).put SB_I2C_CMD_done sl true).set
        SB_I2C_CMD_status sl st)) ∧
    (s.i2cReads sl ≠ 0 → exec (.i2cDone sl 0 d) s =
      .next ((((s.set SB_I2C_DATA_data sl (leNat (splice (leBytes 8 (s.get SB_I2C_DATA_data sl)) 0 (padTo (s.i2cReads sl) d)))).put
        SB_I2C_CMD_go sl false).put SB_I2C_CMD_done sl true).set SB_I2C_CMD_status sl 0))) ∧
  (∀ (w : Who) (sl v : Nat) (s u : State), s.mayWrite w = true → s.flag SHL_CMD_busy sl = false →
    u = ((s.set SHL_CMD_addr sl (v / 2 ^ 32 % 2 ^ 32)).set SHL_CMD_len sl (v / 2 ^ 16 % 2 ^ 3)).put SHL_CMD_wr sl (bit v 8) →
    (u.flag TLK_STATUS_link sl = true → exec (.mgmtReq w sl v) s = .next (((u.sendMgmt sl (bit v 8) (v / 2 ^ 32 % 2 ^ 32)
      (v / 2 ^ 16 % 2 ^ 3 + 1) (padTo 8 (beBytes (v / 2 ^ 16 % 2 ^ 3 + 1) (u.get SHL_DATA_data sl)))).put SHL_CMD_go sl true).set SHL_CMD_seq sl
      (u.get CTL_seq sl + 1))) ∧
    (u.flag TLK_STATUS_link sl = false → exec (.mgmtReq w sl v) s = .next (((u.set CTL_seq sl (u.get CTL_seq sl + 1)).set SHL_CMD_seq sl
      (u.get CTL_seq sl + 1)).set SHL_CMD_result sl 2))) ∧
  (∀ (sl seq st : Nat) (d : List Byte) (s : State), s.linkHears sl = true →
    exec (.mgmtRsp sl seq st d) s = .next ((s.lcnt sl lRxCtl).rxMgmt sl seq st d)) ∧
  (∀ (sl seq st : Nat) (d : List Byte) (s : State), s.open_ = false → s.portsOn = true → s.flag TLK_STATUS_link sl = true →
    exec (.mgmtRsp sl seq st d) s = .next ((s.cnt (0x100 + 64 * sl) cRxDropBuf 1).pmu 19 2 1)) ∧
  ∀ (sl : Nat) (s : State), exec (.mgmtReqTimeout sl) s = .next (s.shlEnd sl 1)

/-- Chapter "Policing, Shaping, Scheduling and Time Gates". -/
def Obligations.SchedulerAndGates : Prop :=
  (∀ (w : Who) (v : Nat) (s : State), s.mayWrite w = true → bit v 31 = false → v % 2 ^ 17 ≠ s.get SCH_BUF_CFG_host_kib 0 →
    (s.dev = dsIdle → s.bufTooBig (v % 2 ^ 17) none = false → exec (.bufCfgWrite w false 0 v) s = .next (s.bufSet (v % 2 ^ 17) none)) ∧
    (s.dev ≠ dsIdle → exec (.bufCfgWrite w false 0 v) s = .next (s.put SCH_BUF_CFG_refused 0 true))) ∧
  (∀ (w : Who) (id v : Nat) (s : State), s.mayWrite w = true → isExt id = true → v / 2 ^ 16 % 2 ^ 3 ≠ 7 → s.dev = dsIdle →
    v / 2 ^ 16 % 2 ^ 3 ≠ s.get SCH_BUF_PORT_alpha id → s.bufTooBig (s.get SCH_BUF_CFG_host_kib 0) (some (id, v % 2 ^ 16)) = false →
    exec (.bufCfgWrite w true id v) s = .next (s.bufSet (s.get SCH_BUF_CFG_host_kib 0) (some (id, v / 2 ^ 16 % 2 ^ 3, v % 2 ^ 16)))) ∧
  (∀ (w : Who) (i v : Nat) (s : State), s.mayWrite w = true →
    (isExt i = true → exec (.policerWrite w false i v) s = .next ((((s.put SCH_POL_en i (bit v 63)).set SCH_POL_rate i (v / 2 ^ 32 % 2 ^ 21)).set
      SCH_POL_burst i (v % 2 ^ 16)).polReset i (v % 2 ^ 16))) ∧
    (i < 4098 → ownerMay w i = true → exec (.policerWrite w true i v) s =
      .next ((((s.put SCH_HPOL_en i (bit v 63)).set SCH_HPOL_rate i (v / 2 ^ 32 % 2 ^ 21)).set SCH_HPOL_burst i (v % 2 ^ 16)).polReset
        (4096 + i) (v % 2 ^ 16)))) ∧
  (∀ (w : Who) (lv i : Nat) (r : List Byte) (s : State), s.mayWrite w = true → s.flag SCH_NODE_STATUS_busy 0 = false →
    r = s.area SCH_NODE_STAGE_byte 0 32 →
    (s.nodeCheck w lv i r = 0 → exec (.nodeWrite w lv i) s = .next (((s.put SCH_NODE_STATUS_busy 0 true).nodeSet lv i r).set SCH_NODE_STATUS_result 0 0)) ∧
    (s.nodeCheck w lv i r ≠ 0 → exec (.nodeWrite w lv i) s = .next ((s.put SCH_NODE_STATUS_busy 0 true).set SCH_NODE_STATUS_result 0 (s.nodeCheck w lv i r)))) ∧
  (∀ (w : Who) (lv i : Nat) (s : State), s.mayWrite w = true → s.flag SCH_NODE_STATUS_busy 0 = true →
    exec (.nodeWrite w lv i) s = .next (s.set SCH_NODE_STATUS_result 0 6) ∧
    exec (.nodeRead w lv i) s = .next (s.set SCH_NODE_STATUS_result 0 6)) ∧
  (∀ (w : Who) (lv i : Nat) (s u : State), s.mayWrite w = true → s.flag SCH_NODE_STATUS_busy 0 = false → nodeExists lv i = true →
    u = (s.put SCH_NODE_STATUS_busy 0 true).putArea SCH_NODE_RESULT_byte 0 ((s.put SCH_NODE_STATUS_busy 0 true).nodeRec lv i) →
    exec (.nodeRead w lv i) s =
      .next (((u.set NDX_read 0 (if lv = 3 then i + 1 else 0)).drainShow).set SCH_NODE_STATUS_result 0 0)) ∧
  (∀ (m l f : Nat) (s t : State), s.portsOn = true → s.macBusy m = false → s.select m = (some l, t) → t.headOf l = some f →
    exec (.frameSelect m) s = .next ((((t.dequeue l true).pmu 10 2 1)).startTx m f (t.leafPath l).2.2)) ∧
  (∀ (m f port : Nat) (s u : State), s.dev ≠ dsAonOnly → s.dev ≠ 0 → m < 32 → s.get PT_tx (macIx m) = f + 1 → (s.frame f).stage = .sending port →
    u = ((s.set PT_tx (macIx m) 0).cnt port cTxFrames 1).cnt port cTxBytes ((s.frame f).bytes.length + 4 - (s.frame f).tagged) →
    exec (.frameTxEnd m) s = .next (((u.emit (.frame port (s.frame f).bytes)).boundary m).endFrame f 0)) ∧
  (∀ (w : Who) (id d b : Nat) (s u : State), s.mayWrite w = true → schPort id = true → s.gateReason id = 0 → b = s.get SCH_GATE_LIST_bank id →
    d = (s.get SCH_GATE_BASE_base id + 2 ^ 48 - s.now % 2 ^ 48) % 2 ^ 48 →
    (d < 200 ∨ 2 ^ 47 ≤ d → exec (.gateCommit w id) s = .next (s.put SCH_GATE_STATUS_late id true)) ∧
    (200 ≤ d → d < 2 ^ 47 → u = ((s.set GTX_base id (s.get SCH_GATE_BASE_base id)).set GTX_cycle id (s.get SCH_GATE_CYCLE_cycle id)).set GTX_bank id b →
      exec (.gateCommit w id) s = .next ((u.set GTX_len (2 * id + b) (u.get SCH_GATE_LIST_len id)).put SCH_GATE_STATUS_pending id true))) ∧
  (∀ (w : Who) (id : Nat) (s : State), s.mayWrite w = true →
    s.get GTX_tick id ≠ s.get CLK_ticks 0 + 1 → s.flag SCH_GATE_STATUS_pending id = true →
    (reached48 s.now (s.get GTX_base id) = false → exec (.gateCancel w id) s = .next (s.put SCH_GATE_STATUS_pending id false)) ∧
    (reached48 s.now (s.get GTX_base id) = true → exec (.gateCancel w id) s = .next (s.gateRefuse id 7))) ∧
  (∀ (w : Who) (id : Nat) (s : State), s.mayWrite w = true → s.get GTX_tick id = s.get CLK_ticks 0 + 1 →
    exec (.gateCancel w id) s = .next (s.gateRefuse id 7)) ∧
  (∀ (id : Nat) (s : State), s.wf = true → s.flag SCH_GATE_STATUS_pending id = true → reached48 s.now (s.get GTX_base id) = true →
    ∃ v, exec (.gateTakeover id) s = .next v ∧ v.flag SCH_GATE_STATUS_pending id = false ∧ v.flag SCH_GATE_STATUS_active_valid id = true ∧
      v.get SCH_GATE_STATUS_active_bank id = s.get GTX_bank id % 2 ∧
      v.get SCH_GATE_OPER_BASE_base id = s.get GTX_base id % 2 ^ 48 ∧ v.get SCH_GATE_OPER_CYCLE_cycle id = s.get GTX_cycle id % 2 ^ 32) ∧
  (∀ (w : Who) (e v id b : Nat) (s : State), s.mayWrite w = true → id = s.get SCH_GATE_SEL_port 0 → b = s.get SCH_GATE_SEL_bank 0 → schPort id = true →
    (s.bankLocked id b = false → exec (.gateEntryWrite w e v) s =
      .next (s.putArea SCH_GATE_ENTRY_byte (gateIx id b e) (leBytes 5 v ++ [0#8, 0#8, 0#8]))) ∧
    (s.bankLocked id b = true → exec (.gateEntryWrite w e v) s = .next (s.gateRefuse id 6))) ∧
  ∀ (en : List Nat) (s : State), s.flag SCH_SMP_CFG_en 0 = true → s.portsOn = true →
    en = ((s.having ND_smp 1).filter (fun i => i / 2 ^ 18 == 3)).map (fun i => i % 2 ^ 18) →
    exec .samplePeriod s = .next (forEach ((en.filter (fun l => decide (s.get SMP_cur 0 ≤ l)) ++
      en.filter (fun l => decide (l < s.get SMP_cur 0))).take (64 * s.get SCH_SMP_CFG_period 0)) (fun l t => (t.smpPut l).set SMP_cur 0 (l + 1)) s)

/-- R276 to R284 and R294. -/
def Obligations.MeridianTimeIsSteered : Prop :=
  (∀ (w : Who) (n : Nat) (s : State), s.busOpen w = true →
    exec (.nowRead w n) s = .next ((s.latchNow w).emit (.regData w n (s.nowData n)))) ∧
  (∀ (w : Who) (v : Nat) (s : State), s.mayWrite w = true →
    (s.inDrift = false → 0x00FFBE76C9 ≤ v % 2 ^ 40 → v % 2 ^ 40 ≤ 0x0100418937 → exec (.mtIncWrite w v) s = .next (s.set MT_INC_inc 0 (v % 2 ^ 40))) ∧
    (s.inDrift = true ∨ v % 2 ^ 40 < 0x00FFBE76C9 ∨ 0x0100418937 < v % 2 ^ 40 → exec (.mtIncWrite w v) s = .next s.mtRefuse)) ∧
  (∀ (w : Who) (n : Nat) (s : State), s.mayWrite w = true →
    ((s.adjCtrl false n).inDrift = false → exec (.adjStep w n) s = .next ((s.adjCtrl false n).startStep.put MT_ADJ_CTRL_go 0 true)) ∧
    ((s.adjCtrl true n).inDrift = false → exec (.adjSlew w n) s = .next ((s.adjCtrl true n).startSlew.put MT_ADJ_CTRL_go 0 true)) ∧
    ((s.adjCtrl false n).inDrift = true → exec (.adjStep w n) s = .next (s.adjCtrl false n).mtRefuse)) ∧
  (∀ s : State, s.flag MT_STATUS_slewing 0 = true → exec .slewDone s = .next (State.ticks s.slewTicks s) ∧
    (s.get MT_ADJ_CTRL_slew 0 ≠ 0 → s.get MTX_srem 0 ≤ s.slewTicks * s.get MT_ADJ_CTRL_slew 0 ∧
      s.slewTicks * s.get MT_ADJ_CTRL_slew 0 < s.get MTX_srem 0 + s.get MT_ADJ_CTRL_slew 0) ∧
    s.slewPart = min (s.get MT_ADJ_CTRL_slew 0) (s.get MTX_srem 0)) ∧
  (∀ s : State, s.dev ≠ 0 →
    (s.get MT_CFG_ref_sel 0 ≠ 0 → s.flag MTX_lost 0 = false → exec .refLost s = .next (s.put MTX_lost 0 true).refChange) ∧
    (s.get MT_CFG_ref_sel 0 ≠ 0 ∨ s.flag CLK_lost 0 = false → exec .refLock s = .next (((s.put MTX_lost 0 false).put MT_STATUS_ref_lock 0 true).put MTX_first 0 true))) ∧
  (∀ (w : Who) (s u : State) (e : Bool), s.mayWrite w = true → exec (.driftEnter w) s = .next (s.enterDrift 0) ∧
    (u = s.put MT_CTRL_exit_step 0 e → u.inDrift = true → u.driftMayEnd = true → u.leaveDrift.get MT_ADJ_offset 0 = 0 →
      exec (.driftExit w e) s = .next u.leaveDrift) ∧
    (u = s.put MT_CTRL_exit_step 0 e → u.inDrift = true → u.driftMayEnd = true → u.leaveDrift.get MT_ADJ_offset 0 ≠ 0 →
      exec (.driftExit w e) s = .next (if e then u.leaveDrift.startStep else u.leaveDrift.startSlew)) ∧
    (u = s.put MT_CTRL_exit_step 0 e → u.inDrift = true → u.driftMayEnd = false → exec (.driftExit w e) s = .next u.mtRefuse) ∧
    (u = s.put MT_CTRL_exit_step 0 e → u.inDrift = false → exec (.driftExit w e) s = .next u)) ∧
  (∀ (w : Who) (v : Nat) (s u : State), s.mayWrite w = true → u = s.ppsFields v →
    (v / 2 ^ 63 % 2 = 0 → exec (.ppsWrite w v) s = .next (((u.put MT_PPS_en 0 false).set MTX_ppsoff 0 0).drivePps false (4 * u.now))) ∧
    (v / 2 ^ 63 % 2 = 1 → s.flag MT_PPS_en 0 = true → exec (.ppsWrite w v) s = .next (u.set MTX_ppsoff 0 (s.ppsOff + 1))) ∧
    (v / 2 ^ 63 % 2 = 1 → s.flag MT_PPS_en 0 = false → exec (.ppsWrite w v) s =
      .next (((u.put MT_PPS_en 0 true).set MTX_ppsoff 0 0).set MTX_ppsidx 0 (ppsIdx ((u.put MT_PPS_en 0 true).set MTX_ppsoff 0 0).ppsNow
        ((u.put MT_PPS_en 0 true).set MTX_ppsoff 0 0).ppsOff)))) ∧
  (∀ s u : State, s.flag MT_PPS_en 0 = true → s.flag MTX_pps 0 = false → s.dev ≠ dsWhiteout → s.get MTX_ppsidx 0 < ppsIdx s.ppsNow s.ppsOff →
    u = ((s.set MTX_ppsq 0 s.ppsQ).set MTX_ppsw 0 (s.get MT_PPS_width 0)).set MTX_ppsoff 0 0 →
    exec .ppsRise s = .next ((u.set MTX_ppsidx 0 (ppsIdx u.ppsNow u.ppsOff)).drivePps true s.ppsQ)) ∧
  ∀ (q : Nat) (s : State), s.flag MTX_pps 0 = true → q = (s.get MTX_ppsq 0 + 4000 * s.get MTX_ppsw 0) % 2 ^ 66 → reached64 s.now (q / 4) = true →
    exec .ppsFall s = .next (s.drivePps false q)

/-- R285 to R293. -/
def Obligations.TriggersAndCaptures : Prop :=
  (∀ (w : Who) (k v : Nat) (s : State), s.mayWrite w = true →
    exec (.trigCfgWrite w k 0 v) s = .next (s.trigCfg k v) ∧
    (s.trigLocked k = false → v % 2 ^ 16 ≠ 0 → v % 2 ^ 16 ≠ s.get MT_TRIG_WIDTH_width k →
      exec (.trigCfgWrite w k 1 v) s = .next (s.set MT_TRIG_WIDTH_width k (v % 2 ^ 16))) ∧
    (s.trigLocked k = false → v ≠ s.get MT_TRIG_TGT_target k → exec (.trigCfgWrite w k 2 v) s = .next (s.set MT_TRIG_TGT_target k v)) ∧
    (s.trigLocked k = true → v ≠ s.get MT_TRIG_TGT_target k → exec (.trigCfgWrite w k 2 v) s = .next s.mtRefuse)) ∧
  (∀ (w : Who) (k : Nat) (s : State), s.mayWrite w = true → s.flag MT_TRIG_CFG_own k = true →
    (s.trigLive k = false → s.get MT_TRIG_CFG_action k ≠ 0 → s.get MT_TRIG_CFG_action k ≤ 4 → s.destOk (s.get MT_TRIG_CFG_dest k) = true →
      exec (.arm w k false) s = .next (s.armReg k)) ∧
    (s.trigLive k = true → exec (.arm w k false) s = .next s.mtRefuse) ∧
    (s.trigLive k = false → s.get MT_TRIG_CFG_action k ≠ 0 → s.get MT_TRIG_CFG_action k ≤ 4 → s.destOk (s.get MT_TRIG_CFG_dest k) = true →
      exec (.arm w k true) s = .next (s.trigEnd k 3 0)) ∧
    (s.trigLive k = true → s.fireDue k = false → exec (.disarm w k) s = .next (s.trigEnd k 3 0)) ∧
    (s.trigLive k = true → s.fireDue k = true → exec (.disarm w k) s = .next s) ∧
    (s.trigLive k = false → exec (.disarm w k) s = .next s)) ∧
  (∀ (k : Nat) (s : State), s.flag MT_TRIG_STATUS_staged k = true →
    (s.get MT_TRIG_TGT_target k + 2 ^ 64 - s.now) % 2 ^ 64 < 2 ^ 46 ∨ 2 ^ 63 ≤ (s.get MT_TRIG_TGT_target k + 2 ^ 64 - s.now) % 2 ^ 64 → exec (.trigStageLoad k) s =
      .next (s.trigLoad k (s.get MT_TRIG_TGT_target k % 2 ^ 48) (s.get MT_TRIG_CFG_quarter k) (s.get MT_TRIG_CFG_action k)
        (s.get MT_TRIG_CFG_dest k) (s.get MT_TRIG_WIDTH_width k))) ∧
  (∀ (k : Nat) (s : State), s.flag MT_TRIG_STATUS_armed k = true → s.trgDue k = true → s.dev ≠ dsWhiteout →
    exec (.trgLead k) s = .next (s.sendTrg k)) ∧
  (∀ (k : Nat) (s : State), s.fireDue k = true → s.get TRX_late k ≠ 2 → s.flag MT_TRIG_STATUS_thread k = true →
    exec (.trigFire k) s = .next (((((s.sendTrg k).fireDest k (4 * widen48 s.now (s.edgeNs k) + s.edgeQ k % 4))).pmu 11 1 1).trigEnd
      k 0 (s.fireTime k))) ∧
  (∀ (k : Nat) (s : State), s.fireDue k = true → s.get TRX_late k = 2 → s.flag MT_TRIG_STATUS_thread k = false →
    exec (.trigFire k) s = .next (((((s.sendTrg k).fireDest k (4 * s.fireTime k)).pmu 11 1 1).set MT_TRIG_FIRED_fired k (s.fireTime k)).trigEnd
      k 0 (s.fireTime k))) ∧
  (∀ (k sl q : Nat) (rest : List (Nat × Nat × Nat)) (s : State), s.falls = (k, sl, q) :: rest → reached64 s.now (q / 4) = true →
    (∀ p ∈ rest, p.1 = k → reached64 s.now (p.2.2 / 4) = false) →
    exec (.pulseEnd k) s = .next (({ s with falls := rest } : State).slotTrig sl q false)) ∧
  (∀ (src q : Nat) (rise : Bool) (s : State), s.dev ≠ dsWhiteout → s.dev ≠ dsAonOnly → s.dev ≠ 0 → src ≤ 0x14 →
    exec (.captureEdge src q rise) s = .next (s.edgeOn src (4 * s.now + q % 4) rise)) ∧
  ∀ (w : Who) (j : Nat) (s : State), s.mayWrite w = true → exec (.captureSw w j) s = .next (s.capture j (4 * s.now) false)

/-- Jobs of the cipher lanes. -/
def Obligations.CipherJobs : Prop :=
  (∀ (q i : Nat) (e : Ent) (s : State), s.entAt q i = some e → s.entGo q i = true → s.qClass q = qcCph →
    (weOpcode e.bytes = coEncrypt → exec (.encrypt q i) s = .next ((s.markWay q i).addJob (s.cphJob q i e.bytes))) ∧
    (weOpcode e.bytes = coDecrypt → exec (.decrypt q i) s = .next ((s.markWay q i).addJob (s.cphJob q i e.bytes))) ∧
    (weOpcode e.bytes = coMacGen → exec (.macGen q i) s = .next ((s.markWay q i).addJob (s.cphJob q i e.bytes))) ∧
    (weOpcode e.bytes = coMacVerify → exec (.macVerify q i) s = .next ((s.markWay q i).addJob (s.cphJob q i e.bytes)))) ∧
  (∀ s : State, s.dev ≠ dsWhiteout →
    (∀ j l, s.urgentJob = some j → s.idleLane true = some l → s.lanesLeft j.owner = true → exec .jobStart s = .next (s.jobBegin j l)) ∧
    (∀ j v, s.urgentJob = some j → s.idleLane true = none ∨ s.lanesLeft j.owner = false → s.victim j.owner = some v →
      exec .jobStart s = .next ((s.jobSuspend v).jobBegin j (v.lane - 1))) ∧
    (∀ j l, s.urgentJob = none → s.idleLane true = some l → s.suspendedJob = some j → exec .jobStart s = .next (s.jobRun j l)) ∧
    (∀ l, s.urgentJob = none → s.idleLane true = some l → exec .jobStart s = .next (s.jobNormal l))) ∧
  (∀ (l : Nat) (j : Job) (s : State), s.laneJob l = some j →
    (j.kind = 1 → ∀ a b, exec (.jobComplete l a b) s = .next ((s.jobFinish j [] []).laneFreed l)) ∧
    (j.kind = 2 → ∀ a b, exec (.jobComplete l a b) s = .next (s.inlineEnd j)) ∧
    (j.kind = 0 → ∀ a b, exec (.jobComplete l (.data a) (.data b)) s = .next ((s.jobFinish j a b).laneFreed l)) ∧
    (j.kind = 0 → ∀ b, exec (.jobComplete l .timeout b) s =
      .next (((s.aer j.owner (ReadResult.aerBit .timeout) false []).jobAbort j 0x45).laneFreed l))) ∧
  (∀ (leaf f l i c : Nat) (r : List Byte) (s : State), s.inlineFrame leaf = some f → s.idleLane false = some l → s.moving = true →
    i = (s.frame f).sa - 1 → r = s.saRec i → c = s.inlineBad (s.frame f) r →
    ((s.frame f).phase = 6 → exec (.inlineJobStart leaf) s = .next (s.placeTake f l)) ∧
    ((s.frame f).phase ≠ 6 → c ≠ 0 → exec (.inlineJobStart leaf) s = .next ((s.inc CPH_INLINE_DROP_count 0).stageEnd f c)) ∧
    ((s.frame f).phase ≠ 6 → c = 0 → saProto r = pMACsec → saIngress r = false → 16 ≤ (s.leafPath leaf).2.2 →
      exec (.inlineJobStart leaf) s = .next (s.stageEnd f 0x42)) ∧
    ((s.frame f).phase ≠ 6 → c = 0 → saIngress r = true → exec (.inlineJobStart leaf) s = .next (s.inlineTake l f i r)) ∧
    ((s.frame f).phase ≠ 6 → c = 0 → saIngress r = false → saProto r ≠ pMACsec ∨ (s.leafPath leaf).2.2 < 16 →
      ((saProto r = pESP ∨ saProto r = pMACsec) ∧ saExhausted r = true → exec (.inlineJobStart leaf) s = .next (s.saExhaust i f)) ∧
      (saExhausted r = false ∨ (saProto r ≠ pESP ∧ saProto r ≠ pMACsec) →
        exec (.inlineJobStart leaf) s = .next (s.inlineTake l f i r)))) ∧
  (∀ (w : Who) (v : Nat) (s : State), s.mayWrite w = true →
    (s.dev = dsIdle → exec (.laneCfgWrite w v) s = .next (s.set CPH_LANE_CFG_lookaside 0 v)) ∧
    (s.dev ≠ dsIdle → exec (.laneCfgWrite w v) s = .next (s.put CPH_LANE_STATUS_refused 0 true))) ∧
  ∀ s : State, s.flag CPH_RNG_STATUS_ready 0 = true →
    exec (.drbgReseed 0) s = .next s.drbgEntropy ∧
    exec (.drbgReseed 1) s = .next (s.inc CPH_RNG_STATUS_health_fail 0) ∧
    (∀ n, 2 ≤ n → exec (.drbgReseed n) s = .next (s.detect 0x0C0 0 false)) ∧
    ∀ u, u = forEach (List.range 64) (fun g t => t.maskSeed g) s →
      exec .maskReseed s = .next (if 65536 ≤ u.get RNG_req 0 then u.drbgEntropy else u)

/-- R314 to R320 and R331. -/
def Obligations.KeysPagesAndSas : Prop :=
  (∀ (w : Who) (i pg : Nat) (s : State), s.keyInst w = some i → s.busOpen w = true → s.flag CPH_KEY_STATUS_busy i = false →
    pg = s.get CPH_KEY_SEL_sel i →
    (s.pageReach w pg = false → exec (.loadWrapped w) s = .next (s.set CPH_KEY_STATUS_status i 1) ∧
      exec (.loadClear w) s = .next (s.set CPH_KEY_STATUS_status i 1) ∧ exec (.zeroisePage w) s = .next (s.set CPH_KEY_STATUS_status i 1)) ∧
    (s.pageReach w pg = true →
      ((s.loadWrapped pg (s.keyStage i)).1 = 0 → exec (.loadWrapped w) s =
        .next (((s.loadWrapped pg (s.keyStage i)).2.set CPH_KEY_STATUS_status i 0).mirrorPage pg i)) ∧
      ((s.loadWrapped pg (s.keyStage i)).1 ≠ 0 → exec (.loadWrapped w) s =
        .next ((s.loadWrapped pg (s.keyStage i)).2.set CPH_KEY_STATUS_status i (s.loadWrapped pg (s.keyStage i)).1)) ∧
      ((s.loadClear i pg (s.keyStage i)).1 = 0 → exec (.loadClear w) s =
        .next (((s.loadClear i pg (s.keyStage i)).2.set CPH_KEY_STATUS_status i 0).mirrorPage pg i)) ∧
      (∀ k, exec (.clearSlot w k) s = .next (((s.zeroSlot pg k).set CPH_KEY_STATUS_status i 0).mirrorPage pg i)) ∧
      exec (.zeroisePage w) s = .next (((s.zeroPage pg).set CPH_KEY_STATUS_status i 0).mirrorPage pg i))) ∧
  (∀ (w : Who) (pg v : Nat) (s : State), s.mayWrite w = true →
    (ownerValue (v % 2 ^ 13) = true → pageMay w (s.pageOwner pg) (v % 2 ^ 13) = true → v % 2 ^ 13 ≠ 0x1FFF →
      (((s.set CPH_PAGE_OWNER_owner pg (v % 2 ^ 13)).put CPH_PAGE_OWNER_fp_access pg (bit v 31))).pageMirrored pg = false →
      (((s.set CPH_PAGE_OWNER_owner pg (v % 2 ^ 13)).put CPH_PAGE_OWNER_fp_access pg (bit v 31))).pageSyncs pg = false →
      exec (.pageOwnerWrite w pg v) s = .next ((s.set CPH_PAGE_OWNER_owner pg (v % 2 ^ 13)).put CPH_PAGE_OWNER_fp_access pg (bit v 31))) ∧
    (∀ u, v % 2 ^ 13 = 0x1FFF → s.pageOwner pg ≠ 0x1FFF → pageMay w (s.pageOwner pg) 0x1FFF = true →
      u = ((s.zeroPage pg).set CPH_PAGE_OWNER_owner pg 0x1FFF).put CPH_PAGE_OWNER_fp_access pg (bit v 31) →
      u.pageMirrored pg = false → u.pageSyncs pg = false → exec (.pageOwnerWrite w pg v) s = .next u) ∧
    (ownerValue (v % 2 ^ 13) = false → exec (.pageOwnerWrite w pg v) s = .next (s.put CPH_LANE_STATUS_refused 0 true)) ∧
    (pageMay w (s.pageOwner pg) (v % 2 ^ 13) = false → exec (.pageOwnerWrite w pg v) s = .next (s.put CPH_LANE_STATUS_refused 0 true))) ∧
  (∀ (w : Who) (i : Nat) (s : State), s.mayWrite w = true → s.flag CPH_SA_STATUS_busy 0 = true →
    exec (.saWrite w i) s = .next (s.set CPH_SA_STATUS_result 0 6) ∧ exec (.saInvalidate w i) s = .next (s.set CPH_SA_STATUS_result 0 6) ∧
    exec (.saRead w i) s = .next (s.set CPH_SA_STATUS_result 0 6)) ∧
  ∀ (w : Who) (i : Nat) (r k : List Byte) (s u : State), s.mayWrite w = true → s.flag CPH_SA_STATUS_busy 0 = false →
    r = s.area CPH_SA_STAGE_byte 0 128 → k = s.saRec i → u = s.put CPH_SA_STATUS_busy 0 true →
    (u.saMay w r = true → u.saOver w i = true → saBad r = false → exec (.saWrite w i) s = .next ((u.saPut i r).set CPH_SA_STATUS_result 0 0)) ∧
    (u.saMay w r = true → u.saOver w i = true → saBad r = true → exec (.saWrite w i) s = .next (u.set CPH_SA_STATUS_result 0 2)) ∧
    (u.saMay w r = false → exec (.saWrite w i) s = .next (u.set CPH_SA_STATUS_result 0 5)) ∧
    (u.saMay w k = true → exec (.saInvalidate w i) s = .next ((u.saPut i (splice k 3
      [BitVec.ofNat 8 (setBits (byteAt k 3) 3 1 0)])).set CPH_SA_STATUS_result 0 0)) ∧
    (u.saMay w k = true → exec (.saRead w i) s = .next ((u.putArea CPH_SA_RESULT_byte 0
      (if saProto k = 3 then splice k 56 (List.replicate 48 0#8) else k)).set CPH_SA_STATUS_result 0 0)) ∧
    (u.saMay w k = false → exec (.saInvalidate w i) s = .next (u.set CPH_SA_STATUS_result 0 5) ∧
      exec (.saRead w i) s = .next (u.set CPH_SA_STATUS_result 0 5))

/-- Chapter "Tunnels, Secure Transports and Storage Offload". -/
def Obligations.OffloadStagesAndTables : Prop :=
  (∀ (q i : Nat) (e : Ent) (s : State), s.entAt q i = some e → s.entGo q i = true → weOpcode e.bytes = 1 →
    (s.qClass q = qcTx → e.sent = false → s.sendTurn q e = true → exec (.send q i) s = .next ((s.markSent q i).newFrame (s.txFrame q i e))) ∧
    (s.qClass q = qcRx → exec (.buffer q i) s = .next ((s.markWay q i).pump q))) ∧
  (∀ (l f : Nat) (s : State), s.moving = true →
    (s.egGroup l).find? (fun f => (s.frame f).phase == 0 || (s.frame f).phase == 2) = some f →
    ((s.frame f).phase = 0 → exec (.egressStage l) s = .next ((s.egPrep l f).egLeave l)) ∧
    ((s.frame f).phase ≠ 0 → exec (.egressStage l) s = .next ((s.egSteps l f).egLeave l))) ∧
  (∀ (l : Nat) (s : State), s.moving = true → (s.egGroup l).find? (fun f => (s.frame f).phase == 0 || (s.frame f).phase == 2) = none →
    exec (.egressStage l) s = .next (s.egLeave l)) ∧
  (∀ (h f : Nat) (s : State), s.moving = true → s.get PT_tx (macIx (32 + h)) = f + 1 →
    ((s.frame f).phase = 0 → exec (.receiveStage h) s = .next (s.rxPrep h f)) ∧
    ((s.frame f).phase = 2 → exec (.receiveStage h) s = .next (s.rxMiddle h f)) ∧
    ((s.frame f).phase = 3 → exec (.receiveStage h) s = .next (s.rxTrack h f)) ∧
    ((s.frame f).phase = 5 → exec (.receiveStage h) s = .next (s.rxFinish h f))) ∧
  (∀ (k : Nat) (c : Coal) (s : State), s.coal[k]? = some c → s.moving = true → exec (.coalTimeout k) s = .next (s.flushCoal c)) ∧
  (∀ (w : Who) (i : Nat) (r : List Byte) (s u : State), s.mayWrite w = true → s.flag OFL_TMPL_STATUS_busy 0 = false →
    r = s.area OFL_TMPL_STAGE_byte 0 128 → u = s.put OFL_TMPL_STATUS_busy 0 true →
    (ownerMove w (u.get TPX_owner i) (tmOwner r) = true → tmplBad r = false → exec (.tmplWrite w i) s =
      .next (((u.wr (baseTmpl i) r).set TPX_owner i (tmOwner r)).set OFL_TMPL_STATUS_result 0 0)) ∧
    (ownerMove w (u.get TPX_owner i) (tmOwner r) = true → tmplBad r = true → exec (.tmplWrite w i) s =
      .next (u.set OFL_TMPL_STATUS_result 0 2)) ∧
    (ownerMove w (u.get TPX_owner i) (tmOwner r) = false → exec (.tmplWrite w i) s = .next (u.set OFL_TMPL_STATUS_result 0 5)) ∧
    exec (.tmplRead w i) s = .next ((u.putArea OFL_TMPL_RESULT_byte 0 (u.template i)).set OFL_TMPL_STATUS_result 0 0)) ∧
  (∀ (w : Who) (i o : Nat) (r : List Byte) (s u v : State), s.mayWrite w = true → s.flag OFL_NVC_STATUS_busy 0 = false →
    r = padTo 64 ((s.area OFL_NVC_STAGE_byte 0 64).take 12) → o = leAt r 0 2 % 2 ^ 13 → u = s.put OFL_NVC_STATUS_busy 0 true →
    v = forEach (u.places.filter (fun p => p.conn == i)) (fun p t => t.placeEnd p 0x56) u →
    (ownerMove w (u.get NVX_owner i) o = true → exec (.nvcWrite w i) s =
      .next (((({ v with nvp := SM.del v.nvp i }).wr (baseNvc i) r).set NVX_owner i o).set OFL_NVC_STATUS_result 0 0)) ∧
    (ownerMove w (u.get NVX_owner i) o = false → exec (.nvcWrite w i) s = .next (u.set OFL_NVC_STATUS_result 0 5)) ∧
    exec (.nvcRead w i) s = .next ((u.putArea OFL_NVC_RESULT_byte 0 (u.nvContext i)).set OFL_NVC_STATUS_result 0 0)) ∧
  (∀ (w : Who) (i : Nat) (s : State), s.mayWrite w = true →
    (s.flag OFL_TMPL_STATUS_busy 0 = true → exec (.tmplWrite w i) s = .next (s.set OFL_TMPL_STATUS_result 0 6)) ∧
    (s.flag OFL_NVC_STATUS_busy 0 = true → exec (.nvcWrite w i) s = .next (s.set OFL_NVC_STATUS_result 0 6)) ∧
    exec (.oflEvqPop w) s = .next { s with oflEvq := s.oflEvq.drop 1 }) ∧
  (∀ (q i : Nat) (e : Ent) (s u : State), s.nvEntry q i 1 = some e → u = s.markWay q i → nvSaEn e.bytes = false →
    (u.get NVX_owner (nvConn e.bytes) = s.qOwner q → nvcValid (u.nvContext (nvConn e.bytes)) = true →
      u.placeOf (nvConn e.bytes) (nvCid e.bytes) = none → u.places.length < 65536 →
      (nvLen e.bytes = 0 → exec (.place q i) s = .next (u.finish q i 0 0 (nvCid e.bytes))) ∧
      (nvLen e.bytes ≠ 0 → exec (.place q i) s = .next { u with places := u.places ++
        [{ conn := nvConn e.bytes, cid := nvCid e.bytes, q := q, idx := i, placed := 0, bad := false }] })) ∧
    (u.get NVX_owner (nvConn e.bytes) ≠ s.qOwner q → exec (.place q i) s = .next (u.finish q i 0x59 0 0))) ∧
  ∀ (q i : Nat) (e : Ent) (p : Place) (s u : State), s.nvEntry q i 2 = some e → u = s.markWay q i →
    (u.placeOf (nvConn e.bytes) (nvCid e.bytes) = some p → u.get NVX_owner (nvConn e.bytes) = u.qOwner q →
      exec (.nvmeCancel q i) s = .next ((u.placeEnd p 0x57).finish q i 0 0 0)) ∧
    (u.placeOf (nvConn e.bytes) (nvCid e.bytes) = none → exec (.nvmeCancel q i) s = .next (u.finish q i 0x59 0 0))

/-- Chapter "DMA Engines and Channels". -/
def Obligations.DmaChannelsRun : Prop :=
  (∀ (q i c : Nat) (e : Ent) (s : State), s.entAt q i = some e → s.entGo q i = true → s.qClass q = qcDma → c = dmChan e.bytes →
    s.chState c = chIdle → s.dmaWaits c = [] →
    (weOpcode e.bytes = 1 → exec (.copy q i) s = .next (s.dmaEntry c q i)) ∧
    (weOpcode e.bytes = 2 → exec (.start q i) s = .next (s.dmaEntry c q i))) ∧
  (∀ (w : Who) (c : Nat) (s : State), s.chWrite w c = true →
    (s.chState c = chIdle → s.dmaWaits c = [] → exec (.channelStart w c) s = .next (s.dmaStart c (whoReq w) .reg)) ∧
    (s.chState c ≠ chIdle → exec (.channelStart w c) s = .next (s.put DMA_CH_STATUS_refused c true)) ∧
    (s.chState c ≠ chIdle → exec (.dmaStop w c) s = .next (s.dmaCut c 0x66)) ∧
    (c % 16 ≤ 3 → exec (.eos w c) s = .next ((s.put DMA_CH_FIFO_STATUS_eos c true).chSettle c)) ∧
    exec (.shadowArm w c) s = .next (s.put DMA_CH_SH_CTRL_armed c true)) ∧
  (∀ (m c x : Nat) (s : State), s.busOpen (.fw m) = true → chHard c = false → c % 16 ≤ 3 →
    ((s.fifoOf c).length + 4 ≤ 16384 → exec (.fifoPush (.fw m) c x) s = .next ((s.setFifo c (s.fifoOf c ++ leBytes 4 x)).chSettle c)) ∧
    (16384 < (s.fifoOf c).length + 4 → exec (.fifoPush (.fw m) c x) s = .next (s.put DMA_CH_FIFO_STATUS_ovf c true))) ∧
  (∀ (c : Nat) (s : State), s.dmaOn = true →
    (s.chState c = chWait → exec (.dmaStimeReached c) s = .next (s.chSettle c)) ∧
    (s.chState c = chReadback → dmaSpace (s.get DMX_dst c) = .host → ∀ bs,
      exec (.dmaReadbackReturn c (.data bs)) s = .next (s.dmaEnd c (s.get DMX_res c))) ∧
    (s.chState c = chReadback → dmaSpace (s.get DMX_dst c) = .host → ∀ g, s.chFn c = some g →
      exec (.dmaReadbackReturn c .timeout) s = .next ((s.aer g (ReadResult.aerBit .timeout) false []).dmaEnd c 0x63))) ∧
  (∀ (e c : Nat) (src : ReadResult) (s u : State), s.dmaOn = true → s.engBusy e = false → s.engPick e = (some c, u) →
    (u.dmaHost c = false → bit (u.get DMX_cfg c) 9 = false → exec (.dmaRunStart e src) s = .next ((u.runBegin c).runMove c src)) ∧
    (u.dmaHost c = false → bit (u.get DMX_cfg c) 9 = true → exec (.dmaRunStart e src) s = .next (u.runBegin c)) ∧
    (∀ g, u.dmaHost c = true → u.chFn c = some g → u.fnHeld g = true →
      exec (.dmaRunStart e src) s = .next ((u.pmu 14 3 1).setCh c chHeld))) ∧
  (∀ (c g : Nat) (s : State), s.dmaOn = true → s.chState c = chRunning → bit (s.get DMX_cfg c) 9 = true → s.unsent c = false →
    s.dmaHost c = true → s.chFn c = some g → s.fnHeld g = true → exec (.streamBurstEnd c) s = .next ((s.pmu 14 3 1).setCh c chHeld)) ∧
  ∀ (c : Nat) (s t : State) (r : Nat × State), s.dmaOn = true → s.chState c = chRunning → bit (s.get DMX_cfg c) 9 = true → s.unsent c = false →
    s.dmaHost c = false → r = s.dmaPut c (s.get DMA_CH_XFER_bytes c) (swapBytes (bits (s.get DMX_cfg c) 6 3) ((s.fifoOf c).take (s.burstLen c))) →
    t = r.2.setFifo c ((s.fifoOf c).drop (s.burstLen c)) →
    (r.1 ≠ 0 ∨ t.unsent c = true ∨ t.streamMore c = false → exec (.streamBurstEnd c) s = .next (t.dmaBack c r.1)) ∧
    (r.1 = 0 → t.unsent c = false → t.streamMore c = true → exec (.streamBurstEnd c) s = .next ((t.setCh c chReady).chSettle c))

/-- 14_host_endpoints.md, the endpoints and their error records. -/
def Obligations.HostPortsAndErrors : Prop :=
  (∀ (h sp wd : Nat) (fl : Bool) (s u : State), s.dev ≠ dsAonOnly → s.dev ≠ 0 → s.flag HEX_perst h = false → sp ≠ 0 → sp ≤ 6 →
    [1, 2, 4, 8, 16].contains wd = true → s.flag HE_LINK_up h = false →
    u = (((((s.put HE_LINK_up h true).set HE_LINK_speed h sp).set HE_LINK_width h wd).put HE_LINK_flit h
      (sp == 6 || (fl && decide (4 ≤ sp)))).put HE_LINK_degraded h (decide (sp < 4 ∨ wd < 16))) →
    exec (.pcieLinkUp h sp wd fl) s = .next (u.inc HE_LINK_CHG_count h)) ∧
  (∀ (h : Nat) (s u : State), s.flag HEX_perst h = false → u = s.put HEX_perst h true →
    exec (.perstAssert h) s = .next ((if u.hostUp then u.portReset h else u).hostLink h false)) ∧
  (∀ (h : Nat) (s : State), exec (.perstRelease h) s = .next (s.put HEX_perst h false)) ∧
  (∀ (h : Nat) (s : State), s.flag HEX_perst h = false → s.flag HE_LINK_up h = true → s.hostUp = true →
    exec (.hotReset h) s = .next (s.portReset h) ∧ exec (.dlDown h) s = .next ((s.portReset h).hostLink h false)) ∧
  (∀ (g : Nat) (s : State), s.cfgOpen g = true →
    exec (.bmeClear g) s = .next (s.put FN_STATE_bme g false) ∧
    (s.flag FN_STATE_bme g = false → exec (.bmeSet g) s = .next ((s.put FN_STATE_bme g true).resume g)) ∧
    (s.d3Ok g = true → exec (.d3hotEntry g) s = .next (s.put FN_STATE_d3 g true))) ∧
  (∀ (g off be v : Nat) (s u : State), s.cfgOpen g = true →
    u = (cfgFields off).foldl (fun t p => t.setMasked p.2 g p.1 v (beMask be)) s →
    (off ≠ 0x118 ∨ bit (beMask be) 6 = false → exec (.configWrite g off be v) s = .next (u.cfgSpecial g off v (beMask be))) ∧
    (off = 0x118 → bit (beMask be) 6 = true → exec (.configWrite g off be v) s =
      .next ((u.set CFG_ecrc_en g (bits v 6 1 + 2 * bits (u.get CFG_ecrc_en g) 1 1)).cfgSpecial g off v (beMask be)))) ∧
  (∀ (g : Nat) (hdr : List Byte) (m : Bool) (s : State), s.flag HE_LINK_up (pfOf g) = true → s.fnExists g = true →
    m = (if g < 2 then s.flag CFG_mse g && !s.flag FN_STATE_d3 g else s.vfMem g) →
    exec (.inboundBadAccess g false hdr) s = .next ((s.inc HE_IN_ERR_count (pfOf g)).aer g
      (if m then 15 else 20) false hdr) ∧
    exec (.inboundBadAccess g true hdr) s = .next (((s.inc HE_IN_ERR_count (pfOf g)).aer g
      (if m then 15 else 20) true hdr).emit (.badCpl g (!m)))) ∧
  (∀ (g : Nat) (hdr : List Byte) (s : State), s.flag HE_LINK_up (pfOf g) = true → s.fnExists g = true →
    exec (.aerErrorDetected g true 6 hdr) s = .next (s.aerCor (pfOf g) 6) ∧
    exec (.aerErrorDetected g false 18 hdr) s = .next (s.aer (pfOf g) 18 false hdr) ∧
    exec (.aerErrorDetected g false 12 hdr) s = .next (s.aer g 12 false hdr)) ∧
  (∀ (h tag : Nat) (hdr : List Byte) (s u : State) (r : Rd), s.readAt h tag = some r → s.timedOut r = true →
    u = { ((s.inc HE_CTO_count h).pmu (17 + h) 3 1) with
      reads := s.reads.filter (fun x => x != r)
      tagQuar := s.tagQuar ++ [({ h := h, tag := tag, gfn := r.gfn, until_ := s.clk + 4 * r.cto } : TagQuar)] } →
    (∀ q, r.why = .poll q → exec (.completionTimeout h tag (.poll q) hdr) s = .next ((u.aer r.gfn 14 false hdr).readFail (.poll q))) ∧
    (u.get HE_CFG_cto_retry h ≤ r.att → exec (.completionTimeout h tag r.why hdr) s = .next ((u.aer r.gfn 14 false hdr).readFail r.why)) ∧
    (∀ q idx, r.why = .entry q idx → r.att < u.get HE_CFG_cto_retry h → u.fnDead r.gfn = false →
      exec (.completionTimeout h tag (.entry q idx) hdr) s = .next ((u.aerMark r.gfn).reissue { r with att := r.att + 1 }))) ∧
  (∀ (h tag : Nat) (hdr : List Byte) (s u : State) (r : Rd), s.flag HE_LINK_up h = true → s.readAt h tag = some r →
    u = { s with reads := s.reads.filter (fun x => x != r) } →
    (r.att = 0 → exec (.completionArrival h tag hdr) s = .next u.kickReads) ∧
    (r.att ≠ 0 → exec (.completionArrival h tag hdr) s = .next (u.aer r.gfn 14 true hdr).kickReads)) ∧
  (∀ (h tag : Nat) (hdr : List Byte) (s : State), s.flag HE_LINK_up h = true → s.readAt h tag = none →
    exec (.completionArrival h tag hdr) s = .next ((s.inc HE_LATE_count h).aer
      (((s.tagQuar.find? (fun p => p.h == h && p.tag == tag)).map (fun p => p.gfn)).getD h) 16 true hdr)) ∧
  ∀ (h tag : Nat) (s : State), s.tagQuar.any (fun p => p.h == h && p.tag == tag && decide (p.until_ ≤ s.clk)) = true →
    exec (.tagQuarantineEnd h tag) s =
      .next ({ s with tagQuar := s.tagQuar.filter (fun p => !(p.h == h && p.tag == tag)) }).kickReads

/-- 15_functions.md, the reset of a function and its migration. -/
def Obligations.FunctionsResetAndMigrate : Prop :=
  (∀ (g : Nat) (s : State), s.cfgOpen g = true → exec (.flr g) s = .next (s.flr g)) ∧
  (∀ (g : Nat) (s u : State), s.fnState g = fsResetting → (s.queuesOf g).any (fun q => !(s.entsOf q).isEmpty) = false →
    u = forEach (s.queuesOf g) (fun q t => if t.qState q = qsDisabled then t
      else (t.put QM_QCTX_STATUS_arm_pending q false).disableNow q false) s →
    (g < 2 ∨ u.vfPresent g = true → exec (.flrQuiesceDone g) s = .next (u.fnLeave g)) ∧
    (2 ≤ g → u.vfPresent g = false → exec (.flrQuiesceDone g) s = .next (u.vfsLeave (pfOf g)))) ∧
  (∀ (h : Nat) (s : State), s.cfgOpen h = true →
    (s.flag CFG_vf_en h = false → exec (.vfEnable h) s = .next (s.vfOn h)) ∧
    (s.flag CFG_vf_en h = true → exec (.vfDisable h) s = .next (s.vfOff h))) ∧
  (∀ (w : Who) (pf v g k : Nat) (s u : State), s.mayWrite w = true → g = s.get FN_VMOD_SEL_gfn pf → k = s.get FN_VMOD_SEL_vec pf →
    ownerMay w g = true → g < 4098 → k < s.nvec g → u = (s.set VMOD_cnt (vix g k) (bits v 16 8)).set VMOD_us (vix g k) (bits v 0 10) →
    (s.get VMOD_tally (vix g k) = 0 → exec (.vmodWrite w pf v) s = .next u) ∧
    (s.get VMOD_tally (vix g k) ≠ 0 → (bits v 16 8 ≠ 0 ∧ bits v 16 8 ≤ s.get VMOD_tally (vix g k)) ∨
      (bits v 16 8 = 0 ∧ bits v 0 10 = 0) → exec (.vmodWrite w pf v) s =
      .next (((u.set VMOD_tally (vix g k) 0).put VMOD_timer (vix g k) false).sendVec g k)) ∧
    (s.get VMOD_tally (vix g k) ≠ 0 → (bits v 16 8 = 0 ∨ s.get VMOD_tally (vix g k) < bits v 16 8) →
      (bits v 16 8 ≠ 0 ∨ bits v 0 10 ≠ 0) → exec (.vmodWrite w pf v) s = .next (u.vmodStart (vix g k)))) ∧
  (∀ (g k : Nat) (s : State), s.flag VMOD_timer (vix g k) = true → k < 2048 →
    s.get VMOD_at (vix g k) + 1000 * s.get VMOD_us (vix g k) ≤ s.clk → exec (.vmodTimer g k) s =
    .next (((s.set VMOD_tally (vix g k) 0).put VMOD_timer (vix g k) false).sendVec g k)) ∧
  (∀ (w : Who) (m g h : Nat) (s u v : State), migPf w g = some h → s.mayWrite w = true → s.migTakes m h = true → u = s.migSeen m g →
    (u.freezeBad m h g ≠ 0 → exec (.freeze w m g) s =
      .next ((u.set FN_MIG_STATUS_result m (u.freezeBad m h g)).set FN_MIG_STATUS_pf m h)) ∧
    (u.freezeBad m h g = 0 → v = (u.migBegin m h g 1).set FN_STATE_state g fsFreezing →
      exec (.freeze w m g) s = .next (forEach (v.queuesOf g) (fun q t => t.freezeQueue q) v))) ∧
  (∀ (m g : Nat) (s u : State), s.get MGX_op m = 1 → s.flag FN_MIG_STATUS_busy m = true → g = s.get MGX_gfn m → s.fnHeld g = false →
    s.masterStop = false → s.fnState g = fsFreezing → (s.queuesOf g).any (fun q => !(s.entsOf q).isEmpty) = false →
    u = forEach (s.queuesOf g) (fun q t => t.freezeDone q) s →
    (u.migKek (s.get FN_MIG_STATUS_pf m) = none → exec (.freezeWorkDone m) s = .next (u.migEnd m 0x03)) ∧
    (∀ (kek img : List Byte) (v : State), u.migKek (s.get FN_MIG_STATUS_pf m) = some kek → img = u.image g kek →
      v = (u.hostWrite (s.get FN_MIG_STATUS_pf m) (u.migBuf m) img false false).set MGX_op m 2 → exec (.freezeWorkDone m) s =
        .next (((v.hostRead (s.get FN_MIG_STATUS_pf m) (v.migBuf m + img.length - 8) 8 false false .other).set
          FN_MIG_ILEN_len m img.length).set DMA_CH_XFER_bytes (1012 + m) img.length))) ∧
  (∀ (m : Nat) (bs : List Byte) (s : State), s.get MGX_op m = 2 → s.flag FN_MIG_STATUS_busy m = true → exec (.freezeImageDone m (.data bs)) s =
    .next ((s.set FN_STATE_state (s.get MGX_gfn m) fsFrozen).migEnd m 0x00)) ∧
  (∀ (w : Who) (m g h : Nat) (rb : ReadResult) (s u : State), migPf w g = some h → s.mayWrite w = true → s.migTakes m h = true →
    u = s.migSeen m g →
    (s.flag FN_MIG_STATUS_busy m = true → exec (.thaw w m g rb) s = .next (s.set FN_MIG_STATUS_result m 0x01)) ∧
    (s.flag FN_MIG_STATUS_busy m = false → u.thawBad m h g [] ≠ 0x06 → exec (.thaw w m g rb) s =
      .next ((u.set FN_MIG_STATUS_result m (u.thawBad m h g [])).set FN_MIG_STATUS_pf m h))) ∧
  (∀ (w : Who) (m g h : Nat) (bs : List Byte) (s u v : State), migPf w g = some h → s.mayWrite w = true → s.migTakes m h = true →
    s.flag FN_MIG_STATUS_busy m = false → u = s.migSeen m g → u.thawBad m h g [] = 0x06 →
    v = u.hostRead h (u.migBuf m) (if leAt bs 8 4 ≤ u.get FN_MIG_BUFLEN_len m then max 64 (leAt bs 8 4) else 64) false false .other →
    (v.thawBad m h g bs ≠ 0 → exec (.thaw w m g (.data bs)) s =
      .next ((v.set FN_MIG_STATUS_result m (v.thawBad m h g bs)).set FN_MIG_STATUS_pf m h)) ∧
    (v.thawBad m h g bs = 0 → exec (.thaw w m g (.data bs)) s =
      .next { (((v.migBegin m h g 3).set FN_STATE_state g fsThawing).set DMA_CH_XFER_bytes (1012 + m) (leAt bs 8 4)) with
        migImg := SM.put [] v.migImg m bs })) ∧
  (∀ (m g : Nat) (kek : List Byte) (s u : State), s.migKek (s.get FN_MIG_STATUS_pf m) = some kek → s.get MGX_op m = 3 →
    g = s.get MGX_gfn m → s.fnState g = fsThawing → u = s.set FN_STATE_state g fsActive → exec (.thawDone m) s =
      .next ((((u.install g (SM.get [] u.migImg m) kek).2.migEnd m 0x00).put FN_MIG_STATUS_key_fail m
        (!(u.install g (SM.get [] u.migImg m) kek).1)).releaseVecs g)) ∧
  (∀ (w : Who) (m g h : Nat) (s u : State), migPf w g = some h → s.mayWrite w = true → s.migTakes m h = true → u = s.migSeen m g →
    (u.flag FN_MIG_STATUS_busy m = true → u.get MGX_gfn m ≠ g → exec (.cancel w m g) s = .next (u.set FN_MIG_STATUS_result m 0x01)) ∧
    (u.flag FN_MIG_STATUS_busy m = false ∨ u.get MGX_gfn m = g →
      (u.flrNow g = true → exec (.cancel w m g) s =
        .next ((u.set FN_MIG_STATUS_result m 0x08).set FN_MIG_STATUS_pf m h)) ∧
      (u.flrNow g = false → u.fnState g = fsActive → exec (.cancel w m g) s =
        .next ((u.set FN_MIG_STATUS_result m 0x02).set FN_MIG_STATUS_pf m h)) ∧
      (∀ v : State, u.flrNow g = false → u.fnState g = fsFrozen ∨ u.fnState g = fsFreezing → isVfOf h g = true →
        v = ((u.migCancel g).set FN_STATE_state g fsActive).set FN_MIG_STATUS_result m 0x00 →
        exec (.cancel w m g) s = .next ((forEach (v.queuesOf g) (fun q t =>
          if t.qState q = qsFrozen then t.thawQueue q (t.get QX_frz q)
          else if t.qState q = qsActive then t.dueAt q t.clk else t) v).releaseVecs g)))) ∧
  (∀ (w : Who) (k : Nat) (s : State), s.mayWrite w = true → ownerMay w (s.get FN_DLOG_CTRL_gfn k) = true →
    s.flag FN_DLOG_CTRL_busy k = false → exec (.harvest w k) s = .next (s.harvest k)) ∧
  ∀ (k : Nat) (bs : List Byte) (s : State), s.flag FN_DLOG_CTRL_busy k = true →
    exec (.harvestDone k (.data bs)) s = .next (s.put FN_DLOG_CTRL_busy k false) ∧
    ∀ e u, (∀ b, e ≠ .data b) → u = s.put FN_DLOG_CTRL_busy k false → exec (.harvestDone k e) s =
      .next (u.aer (pfOf (u.get FN_DLOG_CTRL_gfn k)) (ReadResult.aerBit e) false [])

/-- The mailbox chapter: channels, locks, and the messages between a function and its PF. -/
def Obligations.MailboxesAndLocks : Prop :=
  (∀ (w : Who) (c n : Nat) (s : State), s.busOpen w = true → s.mbxReach w c = true → s.get MBX_LOCK_owner c = ownerNo w →
    (s.flag MBX_CH_STATUS_full c = false → 1 ≤ n → n ≤ 8 → s.mbxTakes c (ownerNo w) = true → exec (.mbxCommit w c n) s =
      .next (s.mbxTake c (ownerNo w) ((List.range n).map (fun k => s.get MBX_CH_TX_word (8 * c + k))))) ∧
    (s.flag MBX_CH_STATUS_full c = true →
      exec (.mbxCommit w c n) s = .next ((s.pmu 15 3 1).put MBX_CH_STATUS_tx_full c true))) ∧
  (∀ (w : Who) (c n : Nat) (s : State), s.busOpen w = true → s.mbxReach w c = true → s.get MBX_LOCK_owner c ≠ ownerNo w →
    exec (.mbxCommit w c n) s = .next s.mbxIgnore) ∧
  (∀ (w : Who) (c : Nat) (s : State), exec (.mbxChRxPop w c) s = .next (s.answer w 4 (s.rxPopRead w c)) ∧
    exec (.mbxLock w c) s = .next (s.answer w 4 (s.lockReadBy w c)) ∧
    exec (.upPop w c) s = .next (s.answer w 4 (s.upPopRead w c)) ∧
    exec (.dnPop w c) s = .next (s.answer w 4 (s.dnPopRead w c))) ∧
  (∀ (w : Who) (n v : Nat) (s : State), s.busOpen w = true → s.mbxReach w n = true → s.get MBX_LOCK_owner n = ownerNo w →
    bits v 0 16 = ownerNo w → exec (.mbxUnlock w n v) s = .next (s.lockFree n)) ∧
  (∀ (m c v : Nat) (s : State), s.busOpen (.fw m) = true → s.mbxReach (.fw m) c = true →
    (s.flag MBX_CH_STATUS_full c = false → s.get MBX_LOCK_owner c = 0 → exec (.mbxCfgWrite (.fw m) c true v) s =
      .next ((s.put MBX_CH_IRQ_en c (bit v 31)).set MBX_CH_IRQ_vec c (bits v 0 11))) ∧
    (s.flag MBX_CH_STATUS_full c = false → s.get MBX_LOCK_owner c = 0 → s.mbxCfgOk c v = true → exec (.mbxCfgWrite (.fw m) c false v) s =
      .next (((s.set MBX_CH_CFG_rx c (bits v 16 16)).put MBX_CH_CFG_purge c (bit v 15)).set MBX_CH_CFG_tx_mask c (bits v 8 7))) ∧
    (s.flag MBX_CH_STATUS_full c = true → exec (.mbxCfgWrite (.fw m) c false v) s = .next (s.put MBX_CH_STATUS_refused c true))) ∧
  (∀ (k : Nat) (s : State), s.shellHeard k = true →
    (∀ (q c : Nat) (ws : List Nat), exec (.post k q c ws) s = .next ((s.lcnt k lRxCtl).shellPost k q c ws)) ∧
    (∀ c e : Nat, exec (.pop k c e) s = .next ((s.lcnt k lRxCtl).shellPop k c e)) ∧
    (∀ n : Nat, exec (.lock k n) s = .next ((s.lcnt k lRxCtl).shellLock k n)) ∧
    (∀ n : Nat, exec (.unlock k n) s = .next ((s.lcnt k lRxCtl).shellUnlock k n))) ∧
  (∀ (w : Who) (g n : Nat) (s u : State), s.busOpen w = true → s.fnExists g = true → 1 ≤ n → n ≤ 8 →
    (s.flag PVU_full g = false → isGuest w g = true → u = (s.copyWords PVU_tx PVU_data g n).set PVU_hdr g
        (msgHdr (g + 1) (s.get PVU_epoch g) n) →
      exec (.upCommit w g n) s = .next (((((u.pmu 15 1 1).put PVU_full g true).put PVU_rec g true).pvPend g true).pvUpRing g)) ∧
    (s.flag PVD_full g = false → isPfOf w g = true → u = (s.copyWords PVD_tx PVD_data g n).set PVD_hdr g
        (msgHdr (pfOf g + 1) (s.get PVD_epoch g) n) →
      exec (.dnCommit w g n) s = .next ((((u.pmu 15 1 1).put PVD_full g true).put PVD_rec g true).pvDnRing g))) ∧
  ∀ (w : Who) (g n : Nat) (s : State), s.busOpen w = true → s.fnExists g = true →
    (isGuest w g = true → s.flag PVU_full g = true → exec (.upCommit w g n) s = .next ((s.pmu 15 3 1).put PVU_txfull g true)) ∧
    (isGuest w g = false → exec (.upCommit w g n) s = .next s.mbxIgnore) ∧
    (isPfOf w g = true → s.flag PVD_full g = true → exec (.dnCommit w g n) s = .next ((s.pmu 15 3 1).put PVD_txfull g true))

/-- The control messages rest on the external standard (log entry 5); the window rules are the spec's. -/
def Obligations.ControllerMessagesAndWindows : Prop :=
  (∀ (c : Nat) (ws : List Nat) (s : State), s.bmcHeard = true → s.busOpen .bmc = true → exec (.mbxPost c ws) s =
    .next ((s.mbxPost c 0xF001 ws).2.emit (.mctp (vdmRsp 3 (s.mbxPost c 0xF001 ws).1 [])))) ∧
  (∀ (op e : Nat) (s : State), s.bmcHeard = true →
    (op % 4 < 2 → e ≠ 0 → e ≠ 255 → exec (.setEndpointId op e) s =
      .next (((s.set MCTP_eid 0 e).mbxReset 0xF001).emit (.mctp (mctpRsp 1 0 [0x00#8, BitVec.ofNat 8 e, 0x00#8])))) ∧
    (exec (.setEndpointId op 0) s = .next (s.emit (.mctp (mctpRsp 1 2 [])))) ∧
    (exec .getEndpointId s = .next (s.emit (.mctp (mctpRsp 2 0 [BitVec.ofNat 8 (s.get MCTP_eid 0), 0x00#8, 0x00#8])))) ∧
    (exec (.getMctpVersionSupport 0xFF) s = .next (s.emit (.mctp (mctpRsp 4 0 [0x01#8, 0xF1#8, 0xF3#8, 0xFF#8, 0x00#8])))) ∧
    (exec (.getMctpVersionSupport 1) s = .next (s.emit (.mctp (mctpRsp 4 0x80 [])))) ∧
    (exec .getMessageTypeSupport s = .next (s.emit (.mctp (mctpRsp 5 0 [0x02#8, 0x00#8, 0x7E#8])))) ∧
    (exec (.getVendorDefinedMessageSupport 0) s =
      .next (s.emit (.mctp (mctpRsp 6 0 [0xFF#8, 0x00#8, 0x1B#8, 0x7E#8, 0x00#8, 0x00#8])))) ∧
    (exec (.getVendorDefinedMessageSupport 1) s = .next (s.emit (.mctp (mctpRsp 6 2 []))))) ∧
  (∀ (w : Who) (pf k v i : Nat) (s u : State), s.mayWrite w = true → winMay w pf = true → bit v 62 = false → i = 16 * pf + k →
    (s.flag MBX_WIN_CFG_en i = true → exec (.winCfgWrite w pf k v) s =
      .next (if bit v 63 then s.put MBX_WIN_CFG_refused i true else (s.put MBX_WIN_CFG_en i false).put WNX_wait i false)) ∧
    (s.flag MBX_WIN_CFG_en i = false → winOk (s.get MBX_WIN_BASE_base i) (bits v 32 4) (bits v 0 18) (bits v 40 10) (bits v 36 4) = true →
      u = ((((s.set MBX_WIN_CFG_retry_us i (bits v 40 10)).set MBX_WIN_CFG_user i (bits v 36 4)).set MBX_WIN_CFG_blk i (bits v 32 4)).set
        MBX_WIN_CFG_nblk i (bits v 0 18)) →
      exec (.winCfgWrite w pf k v) s = .next (if bit v 63 then (u.put MBX_WIN_CFG_en i true).set WNX_seq i 0 else u)) ∧
    (s.flag MBX_WIN_CFG_en i = false → winOk (s.get MBX_WIN_BASE_base i) (bits v 32 4) (bits v 0 18) (bits v 40 10) (bits v 36 4) = false →
      exec (.winCfgWrite w pf k v) s = .next (s.put MBX_WIN_CFG_refused i true))) ∧
  (∀ (pf k : Nat) (hdr : ReadResult) (pay : List Byte) (s : State),
    (s.flag WNX_wait (16 * pf + k) = false → exec (.winBlockTake pf k hdr pay) s = .next (s.winTake pf (16 * pf + k) hdr pay)) ∧
    (s.flag WNX_wait (16 * pf + k) = true → s.get WNX_at (16 * pf + k) + 1000 * s.get MBX_WIN_CFG_retry_us (16 * pf + k) ≤ s.clk →
      exec (.winRetry pf k hdr pay) s = .next (s.winTake pf (16 * pf + k) hdr pay))) ∧
  ∀ (pf k i : Nat) (h pay bs : List Byte) (s u : State), i = 16 * pf + k → s.flag MBX_WIN_CFG_en i = true → s.portsOn = true →
    s.masterStop = false → s.fnHeld pf = false → s.fnState pf ≠ fsResetting → s.winPay i pay = some (bs, u) → s.flag WNX_wait i = false →
    (bit (byteAt h 0) 0 = true → exec (.winBlockTake pf k (.data h) pay) s =
      .next (((u.hostRead pf (u.winBlock i) 64 false false .other).put WNX_wait i false).winHand pf i bs)) ∧
    (bit (byteAt h 0) 0 = false → exec (.winBlockTake pf k (.data h) pay) s =
      .next ((((s.hostRead pf (s.winBlock i) 64 false false .other).inc MBX_WIN_STATUS_stalls i).put WNX_wait i true).set WNX_at i s.clk))

/-- The twin chapter; a message acts through `State.twinRx`, which judges its counter and its authentication. -/
def Obligations.TwinsPairAndMirror : Prop :=
  (∀ (w : Who) (s u : State), s.mayWrite w = true → s.twinRuns = true → s.twin = twUnpaired ∨ s.twin = twWidowed →
    u = ((((((s.set TWX_prev 0 s.twin).setTwin twPairing).put PAD_alive 0 true).set TWX_at 0 s.clk).set TWX_txctr 0 0).set TWX_rxctr 0 0).set
      TWX_miss 0 0 → exec (.pair w) s = .next u.hello) ∧
  (∀ (c rev pr : Nat) (st wi idl gm : Bool) (s : State), s.flag TWN_STATUS_link 0 = true → s.twin = twPairing →
    (c % 2 ^ 64 ≤ s.get TWX_rxctr 0 → exec (.hello c st rev pr wi idl gm) s = .next (s.inc TWN_AUTH_FAIL_count 0)) ∧
    (s.get TWX_rxctr 0 < c % 2 ^ 64 → (s.set TWX_rxctr 0 c).helloBad st rev pr wi idl gm = 0 →
      exec (.hello c st rev pr wi idl gm) s = .next ((s.set TWX_rxctr 0 c).helloTake wi)) ∧
    (s.get TWX_rxctr 0 < c % 2 ^ 64 → (s.set TWX_rxctr 0 c).helloBad st rev pr wi idl gm ≠ 0 → exec (.hello c st rev pr wi idl gm) s =
      .next ((s.set TWX_rxctr 0 c).pairRefuse ((s.set TWX_rxctr 0 c).helloBad st rev pr wi idl gm)))) ∧
  (∀ s : State, s.twin = twPairing → s.get TWX_at 0 + 100000000 ≤ s.clk → exec .pairTimeout s = .next (s.pairRefuse 5)) ∧
  (∀ (w : Who) (s : State), s.mayWrite w = true → s.twin ≠ twUnpaired →
    (s.dev = dsIdle → s.flag TWX_unp 0 = false → exec (.unpair w) s = .next ((s.put TWX_unp 0 true).set TWX_at 0 s.clk)) ∧
    (s.dev ≠ dsIdle → exec (.unpair w) s = .next (s.twinRefuse 6))) ∧
  (∀ (late : Bool) (s : State), s.flag TWX_unp 0 = true → (late = true → s.get TWX_at 0 + 1000000 ≤ s.clk) →
    (late = false → s.twinWait.isEmpty = true) → exec (.unpairGoodbye late) s = .next s.unpairNow) ∧
  (∀ (w : Who) (s : State), s.twin = twDegraded → s.flag TWN_STATUS_link 0 = true →
    (s.mayWrite w = true → s.heard100 = true → exec (.resync w) s = .next (s.startSync twResync)) ∧
    (s.heard100 = true → s.flag TWN_CTRL_auto_resync 0 = true → exec .resyncStart s = .next (s.startSync twResync))) ∧
  (∀ (al : Bool) (wb co : List Nat) (s t u : State), t = s.put TWN_STATUS_alive 0 al → t.twinRuns = true → t.paired = true →
    exec (.heartbeatSend al) s = .next (t.twinSend .heartbeat) ∧
    (u = (((t.pmu 16 3 1).inc TWN_HB_MISS_count 0).set TWX_miss 0 (min 8 (t.get TWX_miss 0 + 1))).set TWX_hb 0 0 →
      exec (.heartbeatMiss al wb co) s =
        .next (if t.get TWX_miss 0 < 7 then u else if al then u.degrade else u.twinLost wb co))) ∧
  (∀ (c : Nat) (au : Bool) (s : State), exec (.twinHeartbeat c au) s = .next (s.twinRx c au (fun t =>
    if t.twin = twDegraded ∧ t.get TWX_hb 0 = 0 then t.set TWX_hb 0 (t.clk + 1) else t))) ∧
  (∀ (c : Nat) (f : State → State) (s : State), s.twinHears = true → s.get TWX_rxctr 0 < c % 2 ^ 64 →
    s.twinRx c true f = f ((s.set TWX_rxctr 0 c).set TWX_miss 0 0)) ∧
  (∀ s u : State, s.twinRuns = true → s.paired = true → u = (s.put TWN_STATUS_alive 0 false).detect 0x0F2 0 false →
    exec .aliveWireFault s = .next (if u.dev = dsWhiteout then u else u.degrade)) ∧
  (∀ (c n : Nat) (au fi : Bool) (rs : List MirRec) (s : State),
    exec (.mirror c au rs) s = .next (s.twinRx c au (fun t => t.mirApply c rs)) ∧
    exec (.ack c au n) s = .next (s.twinRx c au (fun t => (t.pmu 16 2 1).twinAck n)) ∧
    exec (.sync c au rs fi) s = .next (s.twinRx c au (fun t => t.syncApply c rs fi)) ∧
    exec (.tsync c au n) s = .next (s.twinRx c au (fun t => t.set TWX_tsync 0 (4 * t.now - n)))) ∧
  (∀ (s : State), s.syncing = true → s.flag TWX_mine 0 = true → s.flag TWX_theirs 0 = true →
    exec (.syncDone []) s = .next (if s.twinQ.any (fun e => e.2.broken) then s.startSync twResync else s.setTwin twHealthy)) ∧
  (∀ (c : Nat) (au : Bool) (wb co : List Nat) (s : State),
    exec (.goodbye c au true wb co) s = .next (s.twinRx c au (fun t => (t.setTwin twWidowed).dropCopies.twinRelease)) ∧
    exec (.goodbye c au false wb co) s = .next (s.twinRx c au (fun t => t.twinLost wb co))) ∧
  (∀ (c ch k : Nat) (au : Bool) (ws : List Nat) (s : State),
    exec (.twinMbx c au true ch ws k) s = .next (s.twinRx c au (fun t => t)) ∧
    exec (.twinMbx c au false ch ws k) s = .next (s.twinRx c au (fun t =>
      (t.mbxPost ch 0xF000 ws).2.twinSend (.mbxResult ch (t.mbxPost ch 0xF000 ws).1)))) ∧
  ∀ (w : Who) (s : State), s.linkMay w = true → exec (.twnKeyClear w) s = .next s.zeroLink ∧
    exec (.twnKeyLoad w) s = .next (((s.wr baseLink (s.area TWN_KEY_STAGE_byte 0 32)).put TWN_STATUS_key_ok 0 true).putArea
      TWN_KEY_STAGE_byte 0 (List.replicate 32 0#8))

/-- The fault and counter chapters; `State.detect` is the spec's detection. -/
def Obligations.FaultsAndCounters : Prop :=
  (∀ (k : Nat) (s : State), s.get SBX_seq k = 1 → exec (.pgTimeout k) s =
    .next ((((s.put SB_STATUS_pwren k false).put SB_STATUS_pg_fail k true).slotSeq k 0).detect (0x080 + k) k false)) ∧
  (∀ (k : Nat) (s u v : State), s.dev ≠ 0 → u = s.put SB_STATUS_fault k true →
    v = ((u.put SB_STATUS_fault_lat k true).slotHit k).detect (0x080 + k) k false →
    (s.flag SB_STATUS_fault k = false → u.flag SB_STATUS_pwren k = true → u.get SBX_seq k ≠ 1 →
      exec (.slotFault k true) s = .next (if u.dev = dsWhiteout ∧ u.get SBX_seq k ≠ 4 then v.slotFaulted k else v)) ∧
    exec (.slotFault k false) s = .next (s.put SB_STATUS_fault k false)) ∧
  (∀ (c d : Nat) (dead : Bool) (s : State), s.dev ≠ 0 →
    (c ≠ 0x1F0 → exec (.faultDetection c d dead) s = .next (s.detect c d false)) ∧
    exec (.faultDetection 0x1F0 d true) s = .next ((s.put FLT_dead 0 true).detect 0x1F0 d false)) ∧
  (∀ (w : Who) (c : Nat) (lv : Bool) (s u : State), s.fltOpen w = true → s.flag FLT_SRC_STATUS_active c = true → u = s.lift c →
    (s.get FLT_at c ≠ s.clk + 1 → exec (.activeClear w c lv) s =
      .next (((u.put FLT_SRC_STATUS_active c (u.causeNow c lv)).put FLT_SRC_STATUS_cause c
        (u.causeNow c lv)).set FLT_SRC_STATUS_count c (b2n (u.causeNow c lv)))) ∧
    (s.get FLT_at c = s.clk + 1 → exec (.activeClear w c lv) s = .next (s.set FLT_SRC_STATUS_count c 1))) ∧
  (∀ (w : Who) (c d : Nat) (s : State), s.fltOpen w = true →
    (s.injMay w c d = true → exec (.faultInject w c d) s = .next (s.detect c d true)) ∧
    (s.injMay w c d = false → exec (.faultInject w c d) s = .next (s.put FLT_CTRL_inj_refused 0 true)) ∧
    exec (.logPop w) s = .next { s with fltLog := s.fltLog.drop 1 }) ∧
  (∀ (r : Nat) (s u : State), s.dev ≠ 0 → u = s.set FLT_RAIL_below_warn 0 (s.get FLT_RAIL_below_warn 0 ||| 2 ^ r) →
    exec (.railWarning r) s = .next (u.detect (0x1C8 + r) r false) ∧
    exec (.railUndervoltage r) s = .next (((u.set FLT_RAIL_below_uv 0 (u.get FLT_RAIL_below_uv 0 ||| 2 ^ r)).put
      FLT_RAIL_uv_hold 0 true).detect (0x1C0 + r) r false)) ∧
  (∀ (w : Who) (s : State), s.mayWrite w = true → exec (.snapGo w) s = .next (s.strobe 3)) ∧
  (∀ (w : Who) (s u : State), s.mayWrite w = true → s.flag PMU_DUMP_CFG_en 0 = true → s.masterStop = false →
    s.get PMX_tick 0 ≠ s.clk + 1 → s.dump = [] → s.flag MBX_WIN_CFG_en s.dumpWin = true →
    u = (((s.set PMU_SNAP_TS_ts 0 s.now).inc PMX_seq 0).put PMX_gap 0 (s.get PMX_skips 0 != 0)).set PMX_tick 0 (s.clk + 1) →
    exec (.snapGo w) s = .next { ((u.set PMX_skips 0 0).put PMU_DUMP_CFG_busy 0 true) with dump := u.dumpSecs 3 }) ∧
  (∀ s u v : State, s.flag PMU_DUMP_CFG_en 0 = true → s.get PMX_per 0 ≠ 0 → reached48 s.now (s.get PMX_next 0) = true → s.portsOn = true →
    u = (if s.get SCH_SMP_STATUS_fill 0 = 0 ∨ s.flag SMP_full (s.get SCH_SMP_STATUS_half 0) = true then s else s.smpHand) →
    v = u.set PMX_next 0 (u.nextStrobe (u.get PMU_DUMP_PERIOD_period 0)) →
    exec .periodicStrobe s = .next ((v.set PMX_per 0 (v.get PMU_DUMP_PERIOD_period 0)).strobe 1)) ∧
  (∀ (w : Who) (v i : Nat) (s u : State), s.mayWrite w = true → i = 16 * bits v 8 1 + bits v 4 4 →
    (s.flag MBX_WIN_CFG_en i = true → s.get MBX_WIN_CFG_user i = 1 → s.flag PMU_DUMP_CFG_en 0 = false →
      u = ((s.set PMU_DUMP_CFG_pf 0 (bits v 8 1)).set PMU_DUMP_CFG_win 0 (bits v 4 4)).set PMU_DUMP_CFG_set 0 (bits v 0 4) →
      exec (.dumpEnable w v) s = .next (((u.put PMU_DUMP_CFG_en 0 true).set PMX_seq 0 0).set PMX_skips 0 0).startPeriod) ∧
    (s.flag MBX_WIN_CFG_en i = false → exec (.dumpEnable w v) s = .next (s.put PMU_DUMP_CFG_refused 0 true))) ∧
  ∀ (w : Who) (m : Nat) (s : State), s.mayWrite w = true → exec (.slotClear w m) s =
    .next (forEach (((List.range 17).filter (fun k => bit m k)).flatMap slotGroup) (fun t u =>
      (((u.set PMU_SLOT_RETIRED_retired t 0).set PMU_SLOT_WASTED_wasted t 0).set PMU_SLOT_FRONT_front t 0).set
        PMU_SLOT_BACK_back t 0) s)
end

