-- ==== Sys2Proof/Laws/Maps.lean ====
section
/-! SUPPORT. Sys2Proof/Laws/Maps.lean: reading after writing, and the canonical forms, of sparse maps and of the byte
memory. -/

namespace Sys2Proof.Laws

open Sys2Proof.Machine

variable {α : Type}

/-! ## Sparse maps -/

theorem sm_above_ins {m : SMap α} {b i : Nat} {x : α} (h : SM.above b m = true) (hb : b < i) :
    SM.above b (SM.ins m i x) = true := by
  induction m with
  | nil => simp [SM.ins, SM.above, hb]
  | cons e m ih =>
    simp only [SM.above, Bool.and_eq_true, decide_eq_true_eq] at h
    simp only [SM.ins]
    split
    · simp_all [SM.above]
    · split
      · simp_all [SM.above]
      · simp [SM.above, h.1, ih h.2]

theorem sm_above_mono {m : SMap α} {b c : Nat} (h : SM.above b m = true) (hc : c ≤ b) : SM.above c m = true := by
  induction m with
  | nil => rfl
  | cons e m ih =>
    simp only [SM.above, Bool.and_eq_true, decide_eq_true_eq] at h ⊢
    exact ⟨by omega, ih h.2⟩

theorem sm_sorted_ins {m : SMap α} {i : Nat} {x : α} (h : SM.sorted m = true) : SM.sorted (SM.ins m i x) = true := by
  induction m with
  | nil => simp [SM.ins, SM.sorted, SM.above]
  | cons e m ih =>
    simp only [SM.sorted, Bool.and_eq_true] at h
    simp only [SM.ins]
    split
    · next he => subst he; simp [SM.sorted, h]
    · split
      · next hlt =>
        simp only [SM.sorted, SM.above, Bool.and_eq_true, decide_eq_true_eq]
        exact ⟨⟨hlt, sm_above_mono h.1 (Nat.le_of_lt hlt)⟩, h⟩
      · simp only [SM.sorted, Bool.and_eq_true]
        exact ⟨sm_above_ins h.1 (by omega), ih h.2⟩

theorem sm_above_filter {m : SMap α} {b : Nat} {p : Nat × α → Bool} (h : SM.above b m = true) :
    SM.above b (m.filter p) = true := by
  induction m with
  | nil => rfl
  | cons e m ih =>
    simp only [SM.above, Bool.and_eq_true, decide_eq_true_eq] at h
    by_cases hp : p e = true <;> simp [List.filter, hp, SM.above, h, ih h.2]

theorem sm_sorted_filter {m : SMap α} {p : Nat × α → Bool} (h : SM.sorted m = true) :
    SM.sorted (m.filter p) = true := by
  induction m with
  | nil => rfl
  | cons e m ih =>
    simp only [SM.sorted, Bool.and_eq_true] at h
    by_cases hp : p e = true
    · simp [List.filter, hp, SM.sorted, ih h.2, sm_above_filter h.1]
    · simp [List.filter, hp, ih h.2]

theorem sm_above_del {m : SMap α} {b i : Nat} (h : SM.above b m = true) : SM.above b (SM.del m i) = true := by
  induction m with
  | nil => rfl
  | cons e m ih =>
    simp only [SM.above, Bool.and_eq_true, decide_eq_true_eq] at h
    simp only [SM.del]
    split
    · exact h.2
    · split <;> simp [SM.above, h, ih h.2]

theorem sm_sorted_del {m : SMap α} {i : Nat} (h : SM.sorted m = true) : SM.sorted (SM.del m i) = true := by
  induction m with
  | nil => rfl
  | cons e m ih =>
    simp only [SM.sorted, Bool.and_eq_true] at h
    simp only [SM.del]
    split
    · exact h.2
    · split
      · simp [SM.sorted, h]
      · simp [SM.sorted, sm_above_del h.1, ih h.2]

theorem sm_mem_del {m : SMap α} {i : Nat} {e : Nat × α} (h : e ∈ SM.del m i) : e ∈ m := by
  induction m with
  | nil => exact h
  | cons a m ih =>
    simp only [SM.del] at h
    split at h
    · exact List.mem_cons_of_mem _ h
    · split at h
      · exact h
      · rcases List.mem_cons.1 h with h | h
        · exact h ▸ List.mem_cons_self
        · exact List.mem_cons_of_mem _ (ih h)

theorem sm_mem_ins {m : SMap α} {i : Nat} {x : α} {e : Nat × α} (h : e ∈ SM.ins m i x) : e = (i, x) ∨ e ∈ m := by
  induction m with
  | nil => simpa [SM.ins] using h
  | cons a m ih =>
    simp only [SM.ins] at h
    split at h
    · next he => rcases List.mem_cons.1 h with h | h <;> simp_all
    · split at h
      · rcases List.mem_cons.1 h with h | h <;> simp_all
      · rcases List.mem_cons.1 h with h | h
        · exact .inr (h ▸ List.mem_cons_self)
        · rcases ih h with h | h
          · exact .inl h
          · exact .inr (List.mem_cons_of_mem _ h)

theorem sm_find_ins {m : SMap α} {i j : Nat} {x : α} :
    SM.find? (SM.ins m i x) j = if j = i then some x else SM.find? m j := by
  induction m with
  | nil => simp only [SM.ins, SM.find?]; split <;> simp
  | cons e m ih =>
    simp only [SM.ins]
    split
    · next he => subst he; simp only [SM.find?]; split <;> simp_all
    · split
      · simp only [SM.find?]
        split
        · rfl
        · split
          · rw [if_neg (by omega), if_pos (by omega)]
          · rfl
      · simp only [SM.find?, ih]
        split
        · rw [if_neg (by omega)]
        · split
          · rw [if_neg (by omega)]
          · rfl

theorem sm_find_above {m : SMap α} {b j : Nat} (h : SM.above b m = true) (hj : j ≤ b) : SM.find? m j = none := by
  cases m with
  | nil => rfl
  | cons e m =>
    simp only [SM.above, Bool.and_eq_true, decide_eq_true_eq] at h
    simp only [SM.find?]
    rw [if_neg (by omega), if_pos (by omega)]

theorem sm_find_del {m : SMap α} {i j : Nat} (h : SM.sorted m = true) :
    SM.find? (SM.del m i) j = if j = i then none else SM.find? m j := by
  induction m with
  | nil => simp [SM.del, SM.find?]
  | cons e m ih =>
    obtain ⟨k, v⟩ := e
    simp only [SM.sorted, Bool.and_eq_true] at h
    simp only [SM.del]
    split
    · next he =>
      subst he
      simp only [SM.find?]
      split
      · next hj => subst hj; exact sm_find_above h.1 (Nat.le_refl _)
      · split
        · next hlt => exact sm_find_above h.1 (Nat.le_of_lt hlt)
        · rfl
    · split
      · next hlt =>
        simp only [SM.find?]
        by_cases hj : j = i
        · subst hj; rw [if_neg (by omega), if_pos hlt, if_pos rfl]
        · rw [if_neg hj]
      · simp only [SM.find?, ih h.2]
        by_cases hj : j = i
        · subst hj; simp [*]
        · simp [hj]

theorem sm_find_filter {m : SMap α} {i : Nat} {p : Nat × α → Bool} (h : SM.sorted m = true) :
    SM.find? (m.filter p) i = (SM.find? m i).bind (fun v => if p (i, v) then some v else none) := by
  induction m with
  | nil => rfl
  | cons e m ih =>
    obtain ⟨k, v⟩ := e
    simp only [SM.sorted, Bool.and_eq_true] at h
    by_cases hp : p (k, v) = true
    · simp only [List.filter, hp, SM.find?, ih h.2]
      by_cases hi : i = k
      · subst hi; simp [hp]
      · by_cases hl : i < k <;> simp [hi, hl]
    · simp only [List.filter, hp, SM.find?, ih h.2]
      by_cases hi : i = k
      · subst hi; simp [hp, sm_find_above h.1 (Nat.le_refl _)]
      · by_cases hl : i < k
        · simp [hi, hl, sm_find_above h.1 (Nat.le_of_lt hl)]
        · simp [hi, hl]

theorem sm_find_mem {m : SMap α} {i : Nat} {x : α} (h : SM.find? m i = some x) : (i, x) ∈ m := by
  induction m with
  | nil => cases h
  | cons e m ih =>
    simp only [SM.find?] at h
    split at h
    · next he => cases h; subst he; exact List.mem_cons_self
    · split at h
      · cases h
      · exact List.mem_cons_of_mem _ (ih h)

/-! ## The byte memory -/

theorem mem_above_ins {m : Mem} {b a : Nat} {x : Byte} (h : Memory.above b m = true) (hb : b < a) :
    Memory.above b (Memory.ins m a x) = true := by
  induction m with
  | nil => simp [Memory.ins, Memory.above, hb]
  | cons e m ih =>
    simp only [Memory.above, Bool.and_eq_true, decide_eq_true_eq] at h
    simp only [Memory.ins]
    split
    · simp_all [Memory.above]
    · split
      · simp_all [Memory.above]
      · simp [Memory.above, h.1, ih h.2]

theorem mem_above_mono {m : Mem} {b c : Nat} (h : Memory.above b m = true) (hc : c ≤ b) : Memory.above c m = true := by
  induction m with
  | nil => rfl
  | cons e m ih =>
    simp only [Memory.above, Bool.and_eq_true, decide_eq_true_eq] at h ⊢
    exact ⟨by omega, ih h.2⟩

theorem mem_sorted_ins {m : Mem} {a : Nat} {x : Byte} (h : Memory.sorted m = true) :
    Memory.sorted (Memory.ins m a x) = true := by
  induction m with
  | nil => simp [Memory.ins, Memory.sorted, Memory.above]
  | cons e m ih =>
    simp only [Memory.sorted, Bool.and_eq_true] at h
    simp only [Memory.ins]
    split
    · next he => subst he; simp [Memory.sorted, h]
    · split
      · next hlt =>
        simp only [Memory.sorted, Memory.above, Bool.and_eq_true, decide_eq_true_eq]
        exact ⟨⟨hlt, mem_above_mono h.1 (Nat.le_of_lt hlt)⟩, h⟩
      · simp only [Memory.sorted, Bool.and_eq_true]
        exact ⟨mem_above_ins h.1 (by omega), ih h.2⟩

theorem mem_above_del {m : Mem} {b a : Nat} (h : Memory.above b m = true) : Memory.above b (Memory.del m a) = true := by
  induction m with
  | nil => rfl
  | cons e m ih =>
    simp only [Memory.above, Bool.and_eq_true, decide_eq_true_eq] at h
    simp only [Memory.del]
    split
    · exact h.2
    · split <;> simp [Memory.above, h, ih h.2]

theorem mem_sorted_del {m : Mem} {a : Nat} (h : Memory.sorted m = true) : Memory.sorted (Memory.del m a) = true := by
  induction m with
  | nil => rfl
  | cons e m ih =>
    simp only [Memory.sorted, Bool.and_eq_true] at h
    simp only [Memory.del]
    split
    · exact h.2
    · split
      · simp [Memory.sorted, h]
      · simp [Memory.sorted, mem_above_del h.1, ih h.2]

theorem mem_mem_del {m : Mem} {a : Nat} {e : Host.Cell} (h : e ∈ Memory.del m a) : e ∈ m := by
  induction m with
  | nil => exact h
  | cons c m ih =>
    simp only [Memory.del] at h
    split at h
    · exact List.mem_cons_of_mem _ h
    · split at h
      · exact h
      · rcases List.mem_cons.1 h with h | h
        · exact h ▸ List.mem_cons_self
        · exact List.mem_cons_of_mem _ (ih h)

theorem mem_mem_ins {m : Mem} {a : Nat} {x : Byte} {e : Host.Cell} (h : e ∈ Memory.ins m a x) : e = (a, x) ∨ e ∈ m := by
  induction m with
  | nil => simpa [Memory.ins] using h
  | cons c m ih =>
    simp only [Memory.ins] at h
    split at h
    · next he => rcases List.mem_cons.1 h with h | h <;> simp_all
    · split at h
      · rcases List.mem_cons.1 h with h | h <;> simp_all
      · rcases List.mem_cons.1 h with h | h
        · exact .inr (h ▸ List.mem_cons_self)
        · rcases ih h with h | h
          · exact .inl h
          · exact .inr (List.mem_cons_of_mem _ h)

/-- Storing a byte keeps the canonical form. -/
theorem mem_wf_write {m : Mem} {a : Nat} {x : Byte} (h : Memory.wf m = true) : Memory.wf (Memory.write m a x) = true := by
  simp only [Memory.wf, Bool.and_eq_true, List.all_eq_true, decide_eq_true_eq] at h ⊢
  unfold Memory.write
  split
  · exact ⟨mem_sorted_del h.1, fun e he => h.2 e (mem_mem_del he)⟩
  · next hx =>
    refine ⟨mem_sorted_ins h.1, fun e he => ?_⟩
    rcases mem_mem_ins he with he | he
    · subst he; exact hx
    · exact h.2 e he

/-- Storing bytes keeps the canonical form. -/
theorem mem_wf_writeBytes {m : Mem} {a : Nat} {bs : List Byte} (h : Memory.wf m = true) :
    Memory.wf (Memory.writeBytes m a bs) = true := by
  induction bs generalizing m a with
  | nil => exact h
  | cons x bs ih => exact ih (mem_wf_write h)

theorem mem_read_ins {m : Mem} {a b : Nat} {x : Byte} :
    Memory.read (Memory.ins m a x) b = if b = a then x else Memory.read m b := by
  induction m with
  | nil => simp only [Memory.ins, Memory.read]; split <;> simp
  | cons e m ih =>
    obtain ⟨k, v⟩ := e
    simp only [Memory.ins]
    split
    · next he => subst he; simp only [Memory.read]; split <;> simp_all
    · split
      · next hlt =>
        simp only [Memory.read]
        by_cases hb : b = a
        · simp [hb]
        · simp only [hb, if_false]
          split
          · rw [if_neg (by omega), if_pos (by omega)]
          · rfl
      · simp only [Memory.read, ih]
        by_cases hb : b = a
        · subst hb; simp [*]
        · simp [hb]

theorem mem_read_above {m : Mem} {b a : Nat} (h : Memory.above b m = true) (ha : a ≤ b) :
    Memory.read m a = Memory.empty := by
  cases m with
  | nil => rfl
  | cons e m =>
    simp only [Memory.above, Bool.and_eq_true, decide_eq_true_eq] at h
    simp only [Memory.read]
    rw [if_neg (by omega), if_pos (by omega)]

theorem mem_read_del {m : Mem} {a b : Nat} (h : Memory.sorted m = true) :
    Memory.read (Memory.del m a) b = if b = a then Memory.empty else Memory.read m b := by
  induction m with
  | nil => simp [Memory.del, Memory.read]
  | cons e m ih =>
    obtain ⟨k, v⟩ := e
    simp only [Memory.sorted, Bool.and_eq_true] at h
    simp only [Memory.del]
    split
    · next he =>
      subst he
      simp only [Memory.read]
      split
      · next hb => subst hb; exact mem_read_above h.1 (Nat.le_refl _)
      · split
        · next hlt => exact mem_read_above h.1 (Nat.le_of_lt hlt)
        · rfl
    · split
      · next hlt =>
        simp only [Memory.read]
        by_cases hb : b = a
        · subst hb; rw [if_neg (by omega), if_pos hlt, if_pos rfl]
        · rw [if_neg hb]
      · simp only [Memory.read, ih h.2]
        by_cases hb : b = a
        · subst hb; simp [*]
        · simp [hb]

/-- A byte stored is the byte read there, and every other byte is as it was. -/
theorem mem_read_write {m : Mem} {a b : Nat} {x : Byte} (h : Memory.wf m = true) :
    Memory.read (Memory.write m a x) b = if b = a then x else Memory.read m b := by
  simp only [Memory.wf, Bool.and_eq_true] at h
  unfold Memory.write
  split
  · next hx => rw [mem_read_del h.1, hx]
  · exact mem_read_ins

/-- Bytes outside a store are as they were. -/
theorem mem_read_writeBytes_out {m : Mem} {a b : Nat} {bs : List Byte} (h : Memory.wf m = true)
    (hb : b < a ∨ a + bs.length ≤ b) : Memory.read (Memory.writeBytes m a bs) b = Memory.read m b := by
  induction bs generalizing m a with
  | nil => rfl
  | cons x bs ih =>
    simp only [List.length_cons] at hb
    simp only [Memory.writeBytes]
    rw [ih (mem_wf_write h) (by omega), mem_read_write h, if_neg (by omega)]

/-- The bytes stored are the bytes read there. -/
theorem mem_read_writeBytes_in {m : Mem} {a k : Nat} {bs : List Byte} (h : Memory.wf m = true) (hk : k < bs.length) :
    Memory.read (Memory.writeBytes m a bs) (a + k) = bs[k] := by
  induction bs generalizing m a k with
  | nil => simp at hk
  | cons x bs ih =>
    simp only [Memory.writeBytes]
    cases k with
    | zero =>
      rw [mem_read_writeBytes_out (mem_wf_write h) (by omega), mem_read_write h, if_pos (by omega)]
      rfl
    | succ k =>
      have := ih (m := Memory.write m a x) (a := a + 1) (k := k) (mem_wf_write h) (by simpa using hk)
      rw [show a + (k + 1) = a + 1 + k by omega, this]
      rfl

end Sys2Proof.Laws
end

