-- ==== Sys2Proof/Laws/Fields.lean ====
section
/-! SUPPORT. Sys2Proof/Laws/Fields.lean: reading a register field after it, or another, has been written, in a state
whose fields are listed with rising keys. -/

namespace Sys2Proof.Laws

open Sys2Proof.Machine

variable {s : State}

theorem set_fld {f : Fld} {i v : Nat} : (s.set f i v).fld =
    if v % 2 ^ f.w = f.rst i then SM.del s.fld (fkey f i) else SM.ins s.fld (fkey f i) (v % 2 ^ f.w) := by
  unfold State.set
  split <;> rfl

theorem wf_sorted (h : s.wf = true) : SM.sorted s.fld = true := by
  simp only [State.wf, Bool.and_eq_true] at h
  exact h.1.1

/-- A field holds what was last written, cut to its width. -/
theorem get_set_same {f : Fld} {i v : Nat} (h : SM.sorted s.fld = true) : (s.set f i v).get f i = v % 2 ^ f.w := by
  unfold State.get
  by_cases e : v % 2 ^ f.w = f.rst i
  · rw [set_fld, if_pos e, sm_find_del h, if_pos rfl, e]
  · rw [set_fld, if_neg e, sm_find_ins, if_pos rfl]

/-- A write leaves the fields with other keys as they are. -/
theorem get_set_other {f g : Fld} {i j v : Nat} (h : SM.sorted s.fld = true) (hk : fkey g j ≠ fkey f i) :
    (s.set f i v).get g j = s.get g j := by
  unfold State.get
  by_cases e : v % 2 ^ f.w = f.rst i
  · rw [set_fld, if_pos e, sm_find_del h, if_neg hk]
  · rw [set_fld, if_neg e, sm_find_ins, if_neg hk]

theorem fkey_mod {f : Fld} {i : Nat} : fkey f i % 4096 = f.id % 4096 := by simp [fkey, Nat.add_mod]

/-- Fields of different numbers have different keys. -/
theorem get_set_ne {f g : Fld} {i j v : Nat} (h : SM.sorted s.fld = true) (hk : g.id % 4096 ≠ f.id % 4096) :
    (s.set f i v).get g j = s.get g j :=
  get_set_other h (fun e => hk (by rw [← fkey_mod (f := g) (i := j), ← fkey_mod (f := f) (i := i), e]))

/-- Taking entries off the list leaves the fields whose entries stay. -/
theorem get_filter {t : State} {p : Nat × Nat → Bool} {g : Fld} {j : Nat} (h : SM.sorted s.fld = true)
    (hf : t.fld = s.fld.filter p) (hp : ∀ v, p (fkey g j, v) = true) : t.get g j = s.get g j := by
  unfold State.get
  rw [hf, sm_find_filter h]
  cases SM.find? s.fld (fkey g j) <;> simp [hp]

theorem set_sorted {f : Fld} {i v : Nat} (h : SM.sorted s.fld = true) : SM.sorted (s.set f i v).fld = true := by
  rw [set_fld]
  split
  · exact sm_sorted_del h
  · exact sm_sorted_ins h

/-- The fields of `t` are listed with rising keys if those of `s` are, and field `g` of instance `j` then reads the same. -/
def Spares (g : Fld) (j : Nat) (s t : State) : Prop :=
  SM.sorted s.fld = true → SM.sorted t.fld = true ∧ t.get g j = s.get g j

variable {g : Fld} {j : Nat} {t u : State}

theorem Spares.refl : Spares g j s s := fun h => ⟨h, rfl⟩
theorem Spares.trans (h : Spares g j s t) (k : Spares g j t u) : Spares g j s u :=
  fun e => ⟨(k (h e).1).1, (k (h e).1).2.trans (h e).2⟩
theorem Spares.set {f : Fld} {i v : Nat} (h : Spares g j s t) (hf : g.id % 4096 ≠ f.id % 4096) :
    Spares g j s (t.set f i v) := fun e => ⟨set_sorted (h e).1, (get_set_ne (h e).1 hf).trans (h e).2⟩
theorem Spares.put {f : Fld} {i : Nat} {b : Bool} (h : Spares g j s t) (hf : g.id % 4096 ≠ f.id % 4096) :
    Spares g j s (t.put f i b) := h.set hf
theorem Spares.ite {c : Prop} [Decidable c] (h : Spares g j s t) (k : Spares g j s u) :
    Spares g j s (if c then t else u) := by
  split
  · exact h
  · exact k
theorem Spares.other (h : Spares g j s t) (hf : u.fld = t.fld) : Spares g j s u := fun e => by
  unfold State.get
  rw [hf]
  exact h e
theorem Spares.forEach {α : Type} {l : List α} {f : α → State → State} (h : Spares g j s t)
    (hf : ∀ a ∈ l, ∀ v, Spares g j s v → Spares g j s (f a v)) : Spares g j s (forEach l f t) := by
  unfold Machine.forEach
  induction l generalizing t with
  | nil => exact h
  | cons a l ih => exact ih (hf a List.mem_cons_self t h) (fun b hb => hf b (List.mem_cons_of_mem _ hb))

end Sys2Proof.Laws
end

