-- ==== Sys2Proof/Laws/Keeps.lean ====
section
/-! SUPPORT. Sys2Proof/Laws/Keeps.lean: what every operation of the model keeps. `Keeps s0 s` says of a state `s` made
from the state of `s0`: the queue is as it was, what was driven on the faces stays driven, the form of a state
(`State.wf`) holds of `s` if it held before, a programmed debug fuse stays programmed; where `s0.white` holds, WHITEOUT
stays and no bus request and no MSI-X message is driven in it; where `s0.fixed` holds, the state of the device is as it
was, or it has fallen into WHITEOUT; where `s0.clock` holds, the Meridian count is as it was. The files Laws/Keeps*.lean
say it once of every operation: an operation applied to a state made from `s0` gives a state made from `s0`. The
operations that leave WHITEOUT, move the device to another state, or move the count, have it under `Leaves s0`,
`Shifts s0` or `Moves s0`. -/

namespace Sys2Proof.Laws

open Sys2Proof.Machine

/-- A state to start from, and whether operations are to keep WHITEOUT, the state of the device (but for a fall into
WHITEOUT) and the Meridian count. -/
structure Base where
  st : State
  white : Bool
  fixed : Bool
  clock : Bool

/-- Operations need not keep WHITEOUT. -/
class Leaves (s0 : Base) : Prop where
  out : s0.white = false

/-- Operations need not keep the state of the device. -/
class Shifts (s0 : Base) : Prop where
  out : s0.fixed = false

/-- Operations need not keep the Meridian count. -/
class Moves (s0 : Base) : Prop where
  out : s0.clock = false

/-- An accessor that may request a device reset, the BMC, need not keep WHITEOUT. -/
class Rights (s0 : Base) (w : Who) : Prop where
  out : w = .bmc → s0.white = false ∧ s0.fixed = false

/-- The form of the state to start from. -/
abbrev Base.wf (b : Base) : Bool := b.st.wf

variable {α β γ : Type} {s0 : Base} {s t : State}

/-- `s` is made from the state of `s0` by operations of the block: see the head of this file. -/
structure Keeps (s0 : Base) (s : State) : Prop where
  queue : s.pending = s0.st.pending
  driven : ∃ l, s.out = s0.st.out ++ l ∧
    (s0.white = true → s0.wf = true → s0.st.dev = dsWhiteout → ∀ o ∈ l, o.bus = false)
  form : s0.wf = true → s.wf = true
  stays : s0.white = true → s0.wf = true → s0.st.dev = dsWhiteout → s.dev = dsWhiteout
  moves : s0.fixed = true → s0.wf = true →
    s.dev = s0.st.dev ∨ (s.dev = dsWhiteout ∧ s0.st.dev ≠ dsAonOnly ∧ s0.st.dev ≠ 0)
  time : s0.clock = true → s0.wf = true → s.now = s0.st.now
  fuse : s0.wf = true → s0.st.flag Reg.FZ_debug 0 = true → s.flag Reg.FZ_debug 0 = true

/-- `Keeps` of the first component, the last of two, the last of three, of the state in an option or a result, and of the
next state of an outcome. -/
def KeepsF (s0 : Base) (p : State × α) : Prop := Keeps s0 p.1
def KeepsS (s0 : Base) (p : α × State) : Prop := Keeps s0 p.2
def KeepsT (s0 : Base) (p : α × β × State) : Prop := Keeps s0 p.2.2
def KeepsO (s0 : Base) (o : Option State) : Prop := ∀ t, o = some t → Keeps s0 t
def KeepsOF (s0 : Base) (o : Option (State × α)) : Prop := ∀ p, o = some p → Keeps s0 p.1
def KeepsOS (s0 : Base) (o : Option (α × State)) : Prop := ∀ p, o = some p → Keeps s0 p.2
def KeepsE {ε : Type} (s0 : Base) (r : Except ε State) : Prop := ∀ t, r = .ok t → Keeps s0 t
def KeepsR (s0 : Base) (r : Res) : Prop := ∀ t, r = .next t → Keeps s0 t

theorem Keeps.refl : Keeps s0 s0.st :=
  ⟨rfl, ⟨[], by simp⟩, id, fun _ _ h => h, fun _ _ => .inl rfl, fun _ _ => rfl, fun _ h => h⟩

/-- A change of anything but the queue, the faces, the fields and the byte memory. -/
theorem Keeps.other (h : Keeps s0 s) (hp : t.pending = s.pending) (hf : t.fld = s.fld) (ho : t.out = s.out)
    (hm : t.mem = s.mem) : Keeps s0 t := by
  obtain ⟨a, ha, hb⟩ := h.driven
  have hg : ∀ f i, t.get f i = s.get f i := fun f i => by unfold State.get; rw [hf]
  refine ⟨hp.trans h.queue, ⟨a, ho.trans ha, hb⟩, fun w => ?_, fun p w e => ?_, fun p w => ?_, fun p w => ?_, fun w e => ?_⟩
  · have := h.form w
    simp only [State.wf, hf, hm] at this ⊢
    exact this
  · exact (hg _ _).trans (h.stays p w e)
  · rw [show t.dev = s.dev from hg _ _]; exact h.moves p w
  · exact (hg _ _).trans (h.time p w)
  · have := h.fuse w e
    unfold State.flag at this ⊢
    rwa [hg]

/-- In a state that is not WHITEOUT, an operation may do what it never does in WHITEOUT. -/
theorem Keeps.guardWf (h : Keeps s0 s) (hg : s.wf = true → s.dev ≠ dsWhiteout)
    (k : ∀ b : Base, Leaves b → b.fixed = s0.fixed → Keeps b s → Keeps b t) : Keeps s0 t := by
  have hb : Keeps { s0 with white := false } s := by
    obtain ⟨a, ha, -⟩ := h.driven
    exact ⟨h.queue, ⟨a, ha, nofun⟩, h.form, nofun, h.moves, h.time, h.fuse⟩
  have g := k { s0 with white := false } ⟨rfl⟩ rfl hb
  obtain ⟨a, ha, -⟩ := g.driven
  exact ⟨g.queue, ⟨a, ha, fun p w e => absurd (h.stays p w e) (hg (h.form w))⟩, g.form,
    fun p w e => absurd (h.stays p w e) (hg (h.form w)), g.moves, g.time, g.fuse⟩

theorem Keeps.guard (h : Keeps s0 s) (hg : s.dev ≠ dsWhiteout)
    (k : ∀ b : Base, Leaves b → b.fixed = s0.fixed → Keeps b s → Keeps b t) : Keeps s0 t := h.guardWf (fun _ => hg) k

/-- An operation may take the device through other states and back. -/
theorem Keeps.back (h : Keeps s0 s) (hd : s.wf = true → t.dev = s.dev)
    (k : ∀ b : Base, Shifts b → b.white = s0.white → Keeps b s → Keeps b t) : Keeps s0 t := by
  have g := k { s0 with fixed := false } ⟨rfl⟩ rfl ⟨h.queue, h.driven, h.form, h.stays, nofun, h.time, h.fuse⟩
  refine ⟨g.queue, g.driven, g.form, g.stays, fun p w => ?_, g.time, g.fuse⟩
  rw [hd (h.form w)]
  exact h.moves p w

theorem ite_of {Q : α → Prop} {c : Prop} [Decidable c] {a b : α} (ha : Q a) (hb : Q b) : Q (if c then a else b) := by
  split
  · exact ha
  · exact hb

theorem Keeps.ite {c : Prop} [Decidable c] (hs : Keeps s0 s) (ht : Keeps s0 t) : Keeps s0 (if c then s else t) :=
  ite_of (Q := Keeps s0) hs ht

theorem dite_of {Q : α → Prop} {c : Prop} [Decidable c] {a : c → α} {b : ¬ c → α} (ha : ∀ h, Q (a h))
    (hb : ∀ h, Q (b h)) : Q (if h : c then a h else b h) := by
  split
  · exact ha _
  · exact hb _

theorem foldl_of {Q : β → Prop} {l : List α} {f : β → α → β} {b : β} (hb : Q b) (hf : ∀ x a, Q x → Q (f x a)) :
    Q (l.foldl f b) := by
  induction l generalizing b with
  | nil => exact hb
  | cons a l ih => exact ih (hf _ _ hb)

theorem foldl_mem {Q : β → Prop} {P : α → Prop} {l : List α} {f : β → α → β} {b : β} (hb : Q b) (hl : ∀ a ∈ l, P a)
    (hf : ∀ x a, P a → Q x → Q (f x a)) : Q (l.foldl f b) := by
  induction l generalizing b with
  | nil => exact hb
  | cons a l ih => exact ih (hf _ _ (hl a List.mem_cons_self) hb) (fun x hx => hl x (List.mem_cons_of_mem _ hx))

theorem KeepsR.next (h : Keeps s0 s) : KeepsR s0 (.next s) := fun _ e => by cases e; exact h
theorem KeepsR.guard {r : Res} (h : Keeps s0 s) (hg : s.dev ≠ dsWhiteout)
    (k : ∀ b : Base, Leaves b → b.fixed = s0.fixed → Keeps b s → KeepsR b r) : KeepsR s0 r :=
  fun t e => h.guard hg (fun b l e' hb => k b l e' hb t e)
theorem KeepsE.ok {ε : Type} (h : Keeps s0 s) : KeepsE (ε := ε) s0 (.ok s) := fun _ e => by cases e; exact h
theorem KeepsE.error {ε : Type} {e : ε} : KeepsE s0 (.error e) := fun _ e => by cases e
theorem KeepsE.eq {ε : Type} {r : Except ε State} (e : r = Except.ok s) (h : KeepsE s0 r) : Keeps s0 s := h _ e
theorem KeepsO.none : KeepsO s0 none := fun _ e => by cases e
theorem KeepsO.some (h : Keeps s0 s) : KeepsO s0 (some s) := fun _ e => by cases e; exact h
theorem KeepsO.getD {o : Option State} (h : KeepsO s0 o) (g : Keeps s0 s) : Keeps s0 (o.getD s) := by
  cases o with
  | none => exact g
  | some t => exact h t rfl
theorem KeepsOF.none : KeepsOF s0 (none : Option (State × α)) := fun _ e => by cases e
theorem KeepsOF.some {p : State × α} (h : KeepsF s0 p) : KeepsOF s0 (some p) := fun _ e => by cases e; exact h
theorem KeepsOS.none : KeepsOS s0 (none : Option (α × State)) := fun _ e => by cases e
theorem KeepsOS.some {p : α × State} (h : KeepsS s0 p) : KeepsOS s0 (some p) := fun _ e => by cases e; exact h
theorem KeepsF.of {a : α} (h : Keeps s0 s) : KeepsF s0 (s, a) := h
theorem KeepsS.of {a : α} (h : Keeps s0 s) : KeepsS s0 (a, s) := h
theorem KeepsT.of {a : α} {b : β} (h : Keeps s0 s) : KeepsT s0 (a, b, s) := h
theorem KeepsT.mk {a : α} {p : β × State} (h : KeepsS s0 p) : KeepsT s0 (a, p) := h
theorem KeepsF.to {p : State × α} (h : KeepsF s0 p) : Keeps s0 p.1 := h
theorem KeepsS.to {p : α × State} (h : KeepsS s0 p) : Keeps s0 p.2 := h
theorem KeepsT.to {p : α × β × State} (h : KeepsT s0 p) : Keeps s0 p.2.2 := h
theorem KeepsT.toS {p : α × β × State} (h : KeepsT s0 p) : KeepsS s0 p.2 := h
theorem KeepsF.eq {p : State × α} {a : α} (e : p = (s, a)) (h : KeepsF s0 p) : Keeps s0 s := by subst e; exact h
theorem KeepsS.eq {p : α × State} {a : α} (e : p = (a, s)) (h : KeepsS s0 p) : Keeps s0 s := by subst e; exact h
theorem KeepsT.eq {p : α × β × State} {a : α} {b : β} (e : p = (a, b, s)) (h : KeepsT s0 p) : Keeps s0 s := by
  subst e; exact h
theorem KeepsO.eq {o : Option State} (e : o = Option.some s) (h : KeepsO s0 o) : Keeps s0 s := h _ e
theorem KeepsOF.eq {o : Option (State × α)} {a : α} (e : o = Option.some (s, a)) (h : KeepsOF s0 o) : Keeps s0 s := h _ e
theorem KeepsOS.eq {o : Option (α × State)} {a : α} (e : o = Option.some (a, s)) (h : KeepsOS s0 o) : Keeps s0 s := h _ e
theorem KeepsR.eq {r : Res} (e : r = .next s) (h : KeepsR s0 r) : Keeps s0 s := h _ e

/-! ## The primitives -/

/-- The numbers of the fields that an operation must treat with care: the state fields, the hard-wired fields, the
Meridian count and the debug fuse. -/
def special (n : Nat) : Bool :=
  (modeMax n).isSome || hardWired n || n == Reg.MT_NOW_NS_ns.id || n == Reg.FZ_debug.id

/-- The field is none of those. -/
abbrev Plain (f : Fld) : Prop := special (f.id % 4096) = false

/-- No field of a list is one of those. -/
abbrev Plains (fs : List (Nat × Fld)) : Prop := ∀ p ∈ fs, Plain p.2

/-- A register's fields that a write or a read changes are none of those. -/
abbrev Safes (fs : List (Nat × Fld)) : Prop := ∀ p ∈ fs, p.2.acc = .ro ∨ Plain p.2

theorem special_mode {n : Nat} (h : special n = false) : ∀ v, modeOk n v = true := by
  intro v
  simp only [special, Bool.or_eq_false_iff] at h
  have hn : modeMax n = none := by
    have := h.1.1.1
    cases hm : modeMax n <;> simp_all
  simp [modeOk, hn, h.1.1.2]

theorem special_ne {n : Nat} {g : Fld} (h : special n = false) (hg : special (g.id % 4096) = true) : g.id % 4096 ≠ n :=
  fun e => by rw [e, h] at hg; cases hg

/-- `set` of a field: what it must not do to the special fields. -/
theorem Keeps.set_of {f : Fld} {i v : Nat} (h : Keeps s0 s)
    (hv : s0.wf = true → modeOk (f.id % 4096) (v % 2 ^ f.w) = true)
    (hd : s0.white = true → SM.sorted s.fld = true → s.dev = dsWhiteout → (s.set f i v).dev = dsWhiteout)
    (hm : s0.fixed = true → s0.wf = true → SM.sorted s.fld = true →
      (s.set f i v).dev = s.dev ∨ ((s.set f i v).dev = dsWhiteout ∧ s.dev ≠ dsAonOnly ∧ s.dev ≠ 0))
    (ht : s0.clock = true → SM.sorted s.fld = true → (s.set f i v).now = s.now)
    (hz : SM.sorted s.fld = true → s.flag Reg.FZ_debug 0 = true → (s.set f i v).flag Reg.FZ_debug 0 = true) :
    Keeps s0 (s.set f i v) := by
  have key : (s.set f i v).pending = s.pending ∧ (s.set f i v).out = s.out ∧ (s.set f i v).mem = s.mem := by
    unfold State.set; split <;> exact ⟨rfl, rfl, rfl⟩
  obtain ⟨a, ha, hb⟩ := h.driven
  refine ⟨key.1.trans h.queue, ⟨a, key.2.1.trans ha, hb⟩, fun w => ?_, fun p w e => ?_, fun p w => ?_, fun p w => ?_,
    fun w e => ?_⟩
  · have hw := h.form w
    simp only [State.wf, key.2.2, Bool.and_eq_true, List.all_eq_true] at hw ⊢
    refine ⟨?_, hw.2⟩
    rw [set_fld]
    split
    · exact ⟨sm_sorted_del hw.1.1, fun e he => hw.1.2 e (sm_mem_del he)⟩
    · refine ⟨sm_sorted_ins hw.1.1, fun e he => ?_⟩
      rcases sm_mem_ins he with he | he
      · subst he; rw [fkey_mod]; exact hv w
      · exact hw.1.2 e he
  · exact hd p (wf_sorted (h.form w)) (h.stays p w e)
  · rcases hm p w (wf_sorted (h.form w)) with e | ⟨e, e1, e2⟩
    · rw [e]; exact h.moves p w
    · refine .inr ⟨e, ?_⟩
      rcases h.moves p w with g | g
      · rw [← g]; exact ⟨e1, e2⟩
      · exact g.2
  · exact (ht p (wf_sorted (h.form w))).trans (h.time p w)
  · exact hz (wf_sorted (h.form w)) (h.fuse w e)

theorem dev_set {f : Fld} {i v : Nat} (h : SM.sorted s.fld = true) (hf : Reg.GLB_STATE_state.id % 4096 ≠ f.id % 4096) :
    (s.set f i v).dev = s.dev := get_set_ne h hf
theorem now_set {f : Fld} {i v : Nat} (h : SM.sorted s.fld = true) (hf : Reg.MT_NOW_NS_ns.id % 4096 ≠ f.id % 4096) :
    (s.set f i v).now = s.now := get_set_ne h hf
theorem fuse_set {f : Fld} {i v : Nat} (h : SM.sorted s.fld = true) (hf : Reg.FZ_debug.id % 4096 ≠ f.id % 4096)
    (e : s.flag Reg.FZ_debug 0 = true) : (s.set f i v).flag Reg.FZ_debug 0 = true := by
  unfold State.flag at e ⊢
  rwa [get_set_ne h hf]

theorem set_ok {f : Fld} {i v : Nat} (h : Keeps s0 s) (hf : Plain f) : Keeps s0 (s.set f i v) :=
  h.set_of (fun _ => special_mode hf _) (fun _ hs e => (dev_set hs (special_ne hf rfl)).trans e)
    (fun _ _ hs => .inl (dev_set hs (special_ne hf rfl))) (fun _ hs => now_set hs (special_ne hf rfl)) (fun hs e => fuse_set hs (special_ne hf rfl) e)

/-- A state field other than that of the device takes a code of its own. -/
theorem set_mode {f : Fld} {i v : Nat} (h : Keeps s0 s)
    (hv : s0.wf = true → modeOk (f.id % 4096) (v % 2 ^ f.w) = true)
    (hf : Reg.GLB_STATE_state.id % 4096 ≠ f.id % 4096 ∧ Reg.MT_NOW_NS_ns.id % 4096 ≠ f.id % 4096 ∧
      Reg.FZ_debug.id % 4096 ≠ f.id % 4096 := by decide) : Keeps s0 (s.set f i v) :=
  h.set_of hv (fun _ hs e => (dev_set hs hf.1).trans e) (fun _ _ hs => .inl (dev_set hs hf.1)) (fun _ hs => now_set hs hf.2.1) (fun hs e => fuse_set hs hf.2.2 e)

/-- The device goes to another state. -/
theorem dev_ok {v : Nat} [Leaves s0] [Shifts s0] (h : Keeps s0 s) (hv : v ≤ 5) : Keeps s0 (s.set Reg.GLB_STATE_state 0 v) := by
  have hm : modeOk (Reg.GLB_STATE_state.id % 4096) (v % 2 ^ Reg.GLB_STATE_state.w) = true := by
    have : v = 0 ∨ v = 1 ∨ v = 2 ∨ v = 3 ∨ v = 4 ∨ v = 5 := by omega
    rcases this with e | e | e | e | e | e <;> subst e <;> decide
  refine h.set_of (fun _ => hm) (fun p => ?_) (fun p => ?_) (fun _ hs => now_set hs (by decide))
    (fun hs e => fuse_set hs (by decide) e)
  · rw [Leaves.out] at p
    cases p
  · rw [Shifts.out] at p
    cases p

/-- The device goes to WHITEOUT. -/
theorem whiteout_ok (h : Keeps s0 s) (hg : s0.wf = true → s.dev ≠ dsAonOnly ∧ s.dev ≠ 0) :
    Keeps s0 (s.set Reg.GLB_STATE_state 0 dsWhiteout) :=
  h.set_of (fun _ => by decide) (fun _ hs _ => get_set_same hs) (fun _ w hs => .inr ⟨get_set_same hs, hg w⟩)
    (fun _ hs => now_set hs (by decide)) (fun hs e => fuse_set hs (by decide) e)

/-- What keeps the state of the device keeps it out of OFF and AON_ONLY. -/
theorem dev_kept (k : ∀ b : Base, Keeps b s → Keeps b t) (hg : s.dev ≠ dsAonOnly ∧ s.dev ≠ 0) (hs : s.wf = true) :
    t.dev ≠ dsAonOnly ∧ t.dev ≠ 0 := by
  rcases (k ⟨s, false, true, false⟩ .refl).moves rfl hs with e | e
  · rw [e]; exact hg
  · rw [e.1]; decide

/-- The debug fuse is programmed. -/
theorem fuse_ok (h : Keeps s0 s) : Keeps s0 (s.put Reg.FZ_debug 0 true) :=
  h.set_of (fun _ => by decide) (fun _ hs e => (dev_set hs (by decide)).trans e) (fun _ _ hs => .inl (dev_set hs (by decide)))
    (fun _ hs => now_set hs (by decide)) (fun hs _ => by unfold State.flag; rw [get_set_same hs]; decide)

/-- The Meridian count moves. -/
theorem now_ok {v : Nat} [Moves s0] (h : Keeps s0 s) : Keeps s0 (s.set Reg.MT_NOW_NS_ns 0 v) := by
  refine h.set_of (fun _ => by simp [modeOk, show modeMax (Reg.MT_NOW_NS_ns.id % 4096) = none from rfl,
    show hardWired (Reg.MT_NOW_NS_ns.id % 4096) = false from rfl]) (fun _ hs e => (dev_set hs (by decide)).trans e)
    (fun _ _ hs => .inl (dev_set hs (by decide))) (fun p => ?_) (fun hs e => fuse_set hs (by decide) e)
  rw [Moves.out] at p
  cases p

theorem put_ok {f : Fld} {i : Nat} {b : Bool} (h : Keeps s0 s) (hf : Plain f) : Keeps s0 (s.put f i b) := set_ok h hf
theorem inc_ok {f : Fld} {i : Nat} (h : Keeps s0 s) (hf : Plain f) : Keeps s0 (s.inc f i) := set_ok h hf
theorem add_ok {f : Fld} {i n : Nat} (h : Keeps s0 s) (hf : Plain f) : Keeps s0 (s.add f i n) := set_ok h hf

/-- Fields taken off the list read their reset values; the count is among them only where it may move, the state of the
device where WHITEOUT may be left, the debug fuse never. -/
theorem filter_ok {p : Nat × Nat → Bool} (h : Keeps s0 s) (hp : t.pending = s.pending) (hf : t.fld = s.fld.filter p)
    (ho : t.out = s.out) (hm : t.mem = s.mem ∨ t.mem = [])
    (hd : s0.white = true ∨ s0.fixed = true → ∀ v, p (fkey Reg.GLB_STATE_state 0, v) = true)
    (ht : s0.clock = true → ∀ v, p (fkey Reg.MT_NOW_NS_ns 0, v) = true)
    (hz : ∀ v, p (fkey Reg.FZ_debug 0, v) = true) : Keeps s0 t := by
  obtain ⟨a, ha, hb⟩ := h.driven
  refine ⟨hp.trans h.queue, ⟨a, ho.trans ha, hb⟩, fun w => ?_, fun q w e => ?_, fun q w => ?_, fun q w => ?_, fun w e => ?_⟩
  · have hw := h.form w
    simp only [State.wf, hf, Bool.and_eq_true, List.all_eq_true] at hw ⊢
    refine ⟨⟨sm_sorted_filter hw.1.1, fun e he => hw.1.2 e (List.mem_filter.1 he).1⟩, ?_⟩
    rcases hm with hm | hm
    · rw [hm]; exact hw.2
    · rw [hm]; rfl
  · exact (get_filter (wf_sorted (h.form w)) hf (hd (.inl q))).trans (h.stays q w e)
  · rw [show t.dev = s.dev from get_filter (wf_sorted (h.form w)) hf (hd (.inr q))]; exact h.moves q w
  · exact (get_filter (wf_sorted (h.form w)) hf (ht q)).trans (h.time q w)
  · have := h.fuse w e
    unfold State.flag at this ⊢
    rwa [get_filter (wf_sorted (h.form w)) hf hz]

theorem key_ne {f g : Fld} {i : Nat} (hf : Plain f) (hg : special (g.id % 4096) = true) : fkey g i % 4096 ≠ f.id :=
  fun e => special_ne hf hg (by rw [← e, fkey_mod, Nat.mod_mod])

theorem resetAll_ok {f : Fld} (h : Keeps s0 s) (hf : Plain f) : Keeps s0 (s.resetAll f) :=
  filter_ok h rfl rfl rfl (.inl rfl) (fun _ _ => bne_iff_ne.2 (key_ne hf rfl)) (fun _ _ => bne_iff_ne.2 (key_ne hf rfl))
    (fun _ => bne_iff_ne.2 (key_ne hf rfl))

theorem bnot_true {a b : Nat} {q : Bool} (h : a ≠ b ∨ q = false) : (!(a == b && q)) = true := by
  rcases h with h | h <;> simp [h]

theorem vecReset_ok {f : Fld} {g : Nat} (h : Keeps s0 s) (hf : Plain f) : Keeps s0 (s.vecReset f g) :=
  filter_ok h rfl rfl rfl (.inl rfl) (fun _ _ => bnot_true (.inl (key_ne hf rfl)))
    (fun _ _ => bnot_true (.inl (key_ne hf rfl))) (fun _ => bnot_true (.inl (key_ne hf rfl)))

/-- The fields of a whole chapter go back to reset; below 3000 the Meridian count stays. -/
theorem keepFrom_ok {n : Nat} [Leaves s0] [Shifts s0] (h : Keeps s0 s) (ht : n ≤ 3000 ∨ s0.clock = false) (hn : n ≤ 3903) :
    Keeps s0 (s.keepFrom n) := by
  refine filter_ok h rfl rfl rfl (.inr rfl) (fun q => ?_) (fun q v => ?_) (fun v => ?_)
  · rw [Leaves.out, Shifts.out] at q
    rcases q with q | q <;> cases q
  · rcases ht with ht | ht
    · exact decide_eq_true ht
    · rw [ht] at q
      cases q
  · exact decide_eq_true hn

/-- Any output, where WHITEOUT may be left. -/
theorem emit_any {o : Out} [Leaves s0] (h : Keeps s0 s) : Keeps s0 (s.emit o) := by
  obtain ⟨a, ha, -⟩ := h.driven
  refine ⟨h.queue, ⟨a ++ [o], by simp [State.emit, ha], fun p => ?_⟩, h.form, h.stays, h.moves, h.time, h.fuse⟩
  rw [Leaves.out] at p
  cases p

/-- An output that is no bus request and no MSI-X message. -/
theorem emit_ok {o : Out} (h : Keeps s0 s) (ho : o.bus = false) : Keeps s0 (s.emit o) := by
  obtain ⟨a, ha, hb⟩ := h.driven
  refine ⟨h.queue, ⟨a ++ [o], by simp [State.emit, ha], fun p w e x hx => ?_⟩, h.form, h.stays, h.moves, h.time, h.fuse⟩
  rcases List.mem_append.1 hx with hx | hx
  · exact hb p w e x hx
  · rw [List.mem_singleton.1 hx]; exact ho

theorem wr_ok {a : Nat} {bs : List Byte} (h : Keeps s0 s) : Keeps s0 (s.wr a bs) := by
  refine ⟨h.queue, h.driven, fun w => ?_, h.stays, h.moves, h.time, h.fuse⟩
  have hw := h.form w
  simp only [State.wf, State.wr, Bool.and_eq_true] at hw ⊢
  exact ⟨hw.1, mem_wf_writeBytes hw.2⟩

theorem forEach_ok {l : List α} {f : α → State → State} (h : Keeps s0 s)
    (hf : ∀ a t, Keeps s0 t → Keeps s0 (f a t)) : Keeps s0 (forEach l f s) :=
  foldl_of (Q := Keeps s0) h (fun t a ht => hf a t ht)

theorem forEach_mem {P : α → Prop} {l : List α} {f : α → State → State} (h : Keeps s0 s) (hl : ∀ a ∈ l, P a)
    (hf : ∀ a t, P a → Keeps s0 t → Keeps s0 (f a t)) : Keeps s0 (forEach l f s) :=
  foldl_mem (Q := Keeps s0) h hl (fun t a ha ht => hf a t ha ht)

/-- A state field that the state holds is at one of its codes. -/
theorem get_mode {f : Fld} {i : Nat} (h : s.wf = true) (hr : modeOk (f.id % 4096) (f.rst i) = true) :
    modeOk (f.id % 4096) (s.get f i) = true := by
  simp only [State.wf, Bool.and_eq_true, List.all_eq_true] at h
  unfold State.get
  split
  · next v hv =>
    have := h.1.2 _ (sm_find_mem hv)
    rwa [fkey_mod] at this
  · exact hr

end Sys2Proof.Laws
end

