-- ==== Sys2Proof/Laws/KeepsOps.lean ====
section
/-! SUPPORT. Sys2Proof/Laws/KeepsOps.lean: `Keeps` of each operation of Machine/Ops.lean. -/

namespace Sys2Proof.Laws

open Sys2Proof.Machine

variable {s0 : Base}

theorem alive_dev {s : State} {g : Nat} (h : ¬ (s.masterStop || s.fnState g == fsResetting) = true) : s.dev ≠
    dsWhiteout :=
  fun e => h (by simp [State.masterStop, e])

theorem dev_ne {s : State} {v : Nat} (h : s.dev = v) (hv : v ≠ dsWhiteout) : s.dev ≠ dsWhiteout := fun e => hv (h ▸ e)

theorem fresh_ok {a0 : State} (h0 : Keeps s0 a0) : KeepsS s0 (State.fresh a0) := by
  unfold State.fresh
  exact KeepsS.of (Keeps.other h0 rfl rfl rfl rfl)

theorem freshBytes_ok {a0 : State} {a1 : Nat} (h0 : Keeps s0 a0) : KeepsS s0 (State.freshBytes a0 a1) := by
  unfold State.freshBytes
  exact KeepsS.of (Keeps.other h0 rfl rfl rfl rfl)

theorem putArea_ok {a0 : State} {a1 : Fld} {a2 : Nat} {a3 : List Byte} (h0 : Keeps s0 a0) (h1 : Plain a1) :
    Keeps s0 (State.putArea a0 a1 a2 a3) := by
  induction a3 generalizing a0 a2 with
  | nil => unfold State.putArea; exact h0
  | cons x xs ih => unfold State.putArea; exact ih (set_ok h0 h1)

theorem pmu_ok {a0 : State} {a1 : Nat} {a2 : Nat} {a3 : Nat} (h0 : Keeps s0 a0) : Keeps s0 (State.pmu a0 a1 a2 a3) := by
  unfold State.pmu
  refine forEach_ok h0 (fun a0 t1 ht1 => ?_)
  lift_lets -underBinder +implicits
  intro x2
  intro x3
  intro x4
  have hx4 : Keeps s0 x4 := set_ok ht1 rfl
  clear_value x4
  exact Keeps.ite (Keeps.ite (put_ok hx4 rfl) hx4) ht1

theorem sendRead_ok {a0 : State} {a1 : Nat} {a2 : Rd} [Leaves s0] (h0 : Keeps s0 a0) : Keeps s0 (State.sendRead a0 a1
    a2) := by
  unfold State.sendRead
  lift_lets -underBinder +implicits
  intro x0 x1 x2
  have hx2 : Keeps s0 x2 := pmu_ok h0
  clear_value x2
  exact Keeps.ite (Keeps.other h0 rfl rfl rfl rfl) (emit_any (Keeps.other hx2 rfl rfl rfl rfl))

theorem issueReq_ok {a0 : State} {a1 : Nat} {a2 : Out} {a3 : ReadFor} [Leaves s0] (h0 : Keeps s0 a0) :
    Keeps s0 (State.issueReq a0 a1 a2 a3) := by
  unfold State.issueReq
  split
  · exact sendRead_ok h0
  · exact emit_any (pmu_ok h0)
  · exact emit_any h0

theorem request_ok {a0 : State} {a1 : Nat} {a2 : Out} {a3 : ReadFor} (h0 : Keeps s0 a0) :
    Keeps s0 (State.request a0 a1 a2 a3) := by
  unfold State.request
  split
  · exact h0
  · next hd => exact Keeps.ite (Keeps.other h0 rfl rfl rfl rfl) (h0.guard (alive_dev hd) (fun _ _ _ h => issueReq_ok h))

theorem markDirty_ok {a0 : State} {a1 : Nat} {a2 : Nat} (h0 : Keeps s0 a0) : Keeps s0 (State.markDirty a0 a1 a2) := by
  unfold State.markDirty
  refine forEach_ok h0 (fun a0 t1 ht1 => ?_)
  lift_lets -underBinder +implicits
  intro x2
  intro x3
  exact Keeps.ite (Keeps.ite (put_ok ht1 rfl) (put_ok ht1 rfl)) ht1

theorem hostWriteCut_ok {a0 : State} {a1 : Nat} {a2 : Nat} {a3 : List Byte} {a4 : List (Nat × Nat)} {a5 : Bool} {a6 :
    Bool} (h0 : Keeps s0 a0) : Keeps s0 (State.hostWriteCut a0 a1 a2 a3 a4 a5 a6) := by
  unfold State.hostWriteCut
  exact Keeps.ite h0 (forEach_ok h0 (fun a0 t1 ht1 => request_ok (markDirty_ok ht1)))

theorem hostWrite_ok {a0 : State} {a1 : Nat} {a2 : Nat} {a3 : List Byte} {a4 : Bool} {a5 : Bool} (h0 : Keeps s0 a0) :
    Keeps s0 (State.hostWrite a0 a1 a2 a3 a4 a5) := by
  unfold State.hostWrite
  exact hostWriteCut_ok h0

theorem hostReadCut_ok {a0 : State} {a1 : Nat} {a2 : List (Nat × Nat)} {a3 : Bool} {a4 : Bool} {a5 : ReadFor} (h0 :
    Keeps s0 a0) : Keeps s0 (State.hostReadCut a0 a1 a2 a3 a4 a5) := by
  unfold State.hostReadCut
  exact forEach_ok h0 (fun a0 t1 ht1 => request_ok ht1)

theorem hostRead_ok {a0 : State} {a1 : Nat} {a2 : Nat} {a3 : Nat} {a4 : Bool} {a5 : Bool} {a6 : ReadFor} (h0 : Keeps
    s0 a0) : Keeps s0 (State.hostRead a0 a1 a2 a3 a4 a5 a6) := by
  unfold State.hostRead
  exact hostReadCut_ok h0

theorem sendVec_ok {a0 : State} {a1 a2 : Nat} (h0 : Keeps s0 a0) : Keeps s0 (State.sendVec a0 a1 a2) := by
  unfold State.sendVec
  split
  · exact h0
  · next hd => exact Keeps.ite (put_ok h0 rfl) (h0.guard (alive_dev hd) (fun _ _ _ h => emit_any h))

theorem vmodStart_ok {a0 : State} {a1 : Nat} (h0 : Keeps s0 a0) : Keeps s0 (State.vmodStart a0 a1) := by
  unfold State.vmodStart
  exact set_ok (put_ok h0 rfl) rfl

theorem raiseVec_ok {a0 : State} {a1 : Nat} {a2 : Nat} (h0 : Keeps s0 a0) : Keeps s0 (State.raiseVec a0 a1 a2) := by
  unfold State.raiseVec
  lift_lets -underBinder +implicits
  intro x0
  intro x1
  intro x2
  exact Keeps.ite (inc_ok h0 rfl) (Keeps.ite (sendVec_ok h0) (Keeps.ite (sendVec_ok (put_ok (set_ok h0 rfl) rfl))
      (set_ok (Keeps.ite h0 (vmodStart_ok h0)) rfl)))

theorem releaseVecs_ok {a0 : State} {a1 : Nat} (h0 : Keeps s0 a0) : Keeps s0 (State.releaseVecs a0 a1) := by
  unfold State.releaseVecs
  exact forEach_ok h0 (fun a0 t1 ht1 => Keeps.ite ht1 (sendVec_ok (put_ok ht1 rfl)))

theorem releaseHeld_ok {a0 : State} (h0 : Keeps s0 a0) : Keeps s0 (State.releaseHeld a0) := by
  unfold State.releaseHeld
  refine forEach_ok (Keeps.other h0 rfl rfl rfl rfl) (fun _ t ht => ?_)
  split
  · exact ht
  · next hd => exact ht.guard (alive_dev hd) (fun _ _ _ h => issueReq_ok h)

theorem aer_ok {a0 : State} {a1 : Nat} {a2 : Nat} {a3 : Bool} {a4 : List Byte} (h0 : Keeps s0 a0) : Keeps s0
    (State.aer a0 a1 a2 a3 a4) := by
  unfold State.aer
  lift_lets -underBinder +implicits
  intro x0
  intro x1
  intro x2
  have hx2 : Keeps s0 x2 := set_ok h0 rfl
  clear_value x2
  intro x3
  have hx3 : Keeps s0 x3 := Keeps.ite (set_ok hx2 rfl) (Keeps.other hx2 rfl rfl rfl rfl)
  clear_value x3
  intro x4
  intro x5
  have hx5 : Keeps s0 x5 := set_ok hx3 rfl
  clear_value x5
  exact Keeps.ite (Keeps.ite hx5 (emit_ok hx5 rfl)) (Keeps.ite hx3 (Keeps.ite (Keeps.ite (emit_ok hx3 rfl) hx3)
      (Keeps.ite (emit_ok hx3 rfl) hx3)))

theorem aerCor_ok {a0 : State} {a1 : Nat} {a2 : Nat} (h0 : Keeps s0 a0) : Keeps s0 (State.aerCor a0 a1 a2) := by
  unfold State.aerCor
  lift_lets -underBinder +implicits
  intro x0
  have hx0 : Keeps s0 x0 := set_ok h0 rfl
  clear_value x0
  exact Keeps.ite hx0 (emit_ok hx0 rfl)

theorem twinSend_ok {a0 : State} {a1 : TwinMsg} (h0 : Keeps s0 a0) : Keeps s0 (State.twinSend a0 a1) := by
  unfold State.twinSend
  lift_lets -underBinder +implicits
  intro x0
  intro x1
  have hx1 : Keeps s0 x1 := set_ok h0 rfl
  clear_value x1
  intro x2
  have hx2 : Keeps s0 x2 := by
    unfold x2
    split
    · exact pmu_ok hx1
    · exact hx1
  clear_value x2
  exact Keeps.ite (emit_ok hx2 rfl) hx2

theorem twinAwait_ok {a0 : State} {a1 : TwinMsg} {a2 : TwinWait} (h0 : Keeps s0 a0) : Keeps s0 (State.twinAwait a0 a1
    a2) := by
  unfold State.twinAwait
  lift_lets -underBinder +implicits
  intro x0
  have hx0 : Keeps s0 x0 := twinSend_ok h0
  clear_value x0
  intro x1
  intro x2
  have hx2 : Keeps s0 x2 := set_ok hx0 rfl
  clear_value x2
  exact Keeps.other hx2 rfl rfl rfl rfl

end Sys2Proof.Laws
end

