-- ==== Sys2Proof/Laws/KeepsThreadCore.lean ====
section
/-! SUPPORT. Sys2Proof/Laws/KeepsThreadCore.lean: `Keeps` of each operation of Machine/ThreadCore.lean. -/

namespace Sys2Proof.Laws

open Sys2Proof.Machine

variable {s0 : Base}

theorem raiseEv_ok {a0 : State} {a1 : Nat} {a2 : Nat} (h0 : Keeps s0 a0) : Keeps s0 (State.raiseEv a0 a1 a2) := by
  unfold State.raiseEv
  exact Keeps.ite (set_ok h0 rfl) h0

theorem toThread_ok {a0 : State} {a1 : Nat} {a2 : Nat} {a3 : List Nat} (h0 : Keeps s0 a0) : Keeps s0 (State.toThread
    a0 a1 a2 a3) := by
  unfold State.toThread
  exact Keeps.ite h0 (Keeps.other h0 rfl rfl rfl rfl)

theorem rearm_ok {a0 : State} {a1 : Nat} (h0 : Keeps s0 a0) : Keeps s0 (State.rearm a0 a1) := by
  unfold State.rearm
  exact Keeps.ite (put_ok h0 rfl) h0

theorem urRead_ok {a0 : State} {a1 : Nat} (h0 : Keeps s0 a0) : Keeps s0 (State.urRead a0 a1) := by
  unfold State.urRead
  lift_lets -underBinder +implicits
  intro x0
  have hx0 : KeepsS s0 x0 := freshBytes_ok h0
  clear_value x0
  exact emit_ok (aer_ok (inc_ok (KeepsS.to hx0) rfl)) rfl

theorem answer_ok {a0 : State} {a1 : Who} {a2 : Nat} {a3 : State × Nat} (h0 : Keeps s0 a0) (h3 : KeepsF s0 a3) : Keeps
    s0 (State.answer a0 a1 a2 a3) := by
  unfold State.answer
  refine Keeps.ite (emit_ok (KeepsF.to h3) rfl) ?_
  split
  · exact Keeps.ite (Keeps.ite (emit_ok h0 rfl) (emit_ok h0 rfl)) (urRead_ok h0)
  · exact Keeps.ite (Keeps.ite (emit_ok h0 rfl) (emit_ok h0 rfl)) (urRead_ok h0)
  · exact h0

end Sys2Proof.Laws
end

