-- ==== Sys2Proof/Laws/KeepsTableOps.lean ====
section
/-! SUPPORT. Sys2Proof/Laws/KeepsTableOps.lean: `Keeps` of each operation of Machine/TableOps.lean. -/

namespace Sys2Proof.Laws

open Sys2Proof.Machine

variable {s0 : Base}

theorem tblEvent_ok {a0 : State} {a1 : Nat} {a2 : Nat} {a3 : Nat} {a4 : Nat} {a5 : List Byte} (h0 : Keeps s0 a0) :
    Keeps s0 (State.tblEvent a0 a1 a2 a3 a4 a5) := by
  unfold State.tblEvent
  lift_lets -underBinder +implicits
  intro x0
  exact Keeps.ite (inc_ok h0 rfl) (Keeps.other h0 rfl rfl rfl rfl)

theorem putFlow_ok {a0 : State} {a1 : Nat} {a2 : List Byte} (h0 : Keeps s0 a0) : Keeps s0 (State.putFlow a0 a1 a2) := by
  unfold State.putFlow
  lift_lets -underBinder +implicits
  intro x0
  exact set_ok (set_ok h0 rfl) rfl

theorem flowLookup_ok {a0 : State} {a1 : List Byte} {a2 : Nat} (h0 : Keeps s0 a0) : KeepsS s0 (State.flowLookup a0 a1
    a2) := by
  unfold State.flowLookup
  lift_lets -underBinder +implicits
  intro x0
  intro x1
  intro x2
  intro x3
  intro x4
  have hx4 : Keeps s0 x4 := pmu_ok (pmu_ok (add_ok h0 rfl))
  clear_value x4
  split
  · exact KeepsS.of hx4
  · lift_lets -underBinder +implicits
    intro x6
    intro x7
    exact KeepsS.of (putFlow_ok hx4)

theorem flowPlace_ok {a0 : State} {a1 : Nat} {a2 : List Byte} (h0 : Keeps s0 a0) : Keeps s0 (State.flowPlace a0 a1 a2)
    := by
  unfold State.flowPlace
  exact set_ok (putFlow_ok h0) rfl

theorem flowMoves_ok {a0 : State} {a1 : List Nat} (h0 : Keeps s0 a0) : KeepsS s0 (State.flowMoves a0 a1) := by
  induction a1 generalizing a0 with
  | nil => exact h0
  | cons d rest ih =>
    cases rest with
    | nil => exact h0
    | cons o rest => unfold State.flowMoves; exact ih (putFlow_ok (flowPlace_ok h0))

theorem flowInsert_ok {a0 : State} {a1 : List Byte} {a2 : List Byte} {a3 : Bool} (h0 : Keeps s0 a0) : KeepsS s0
    (State.flowInsert a0 a1 a2 a3) := by
  unfold State.flowInsert
  refine ite_of (Q := KeepsS s0) (KeepsS.of h0) ?_
  split
  · next m0 m1 heq =>
    have hm1 : Keeps s0 m1 := by
      refine KeepsS.eq heq ?_
      exact fresh_ok h0
    split
    · exact KeepsS.of (inc_ok hm1 rfl)
    · lift_lets -underBinder +implicits
      intro x3
      have hx3 : KeepsS s0 x3 := flowMoves_ok hm1
      clear_value x3
      exact KeepsS.of (flowPlace_ok (KeepsS.to hx3))

theorem flowDelete_ok {a0 : State} {a1 : List Byte} (h0 : Keeps s0 a0) : KeepsS s0 (State.flowDelete a0 a1) := by
  unfold State.flowDelete
  split
  · exact KeepsS.of h0
  · exact KeepsS.of (putFlow_ok h0)

theorem rgSync_ok {a0 : State} {a1 : Nat} {a2 : Bool} {a3 : Nat} (h0 : Keeps s0 a0) : Keeps s0 (State.rgSync a0 a1 a2
    a3) := by
  unfold State.rgSync
  lift_lets -underBinder +implicits
  intro x0
  exact set_ok h0 rfl

theorem lpUsed_ok {a0 : State} {a1 : Nat} {a2 : Bool} {a3 : Nat → Nat} (h0 : Keeps s0 a0) : Keeps s0 (State.lpUsed a0
    a1 a2 a3) := by
  unfold State.lpUsed
  lift_lets -underBinder +implicits
  intro x0
  have hx0 : Plain x0 := by unfold x0; split <;> rfl
  exact set_ok h0 hx0

theorem rgShift_ok {a0 : State} {a1 : Nat} {a2 : Bool} {a3 : Nat} {a4 : Nat → Nat} (h0 : Keeps s0 a0) : Keeps s0
    (State.rgShift a0 a1 a2 a3 a4) := by
  unfold State.rgShift
  exact set_ok h0 rfl

theorem rgInsert_ok {a0 : State} {a1 : Nat} {a2 : Bool} {a3 : Nat} (h0 : Keeps s0 a0) : Keeps s0 (State.rgInsert a0 a1
    a2 a3) := by
  unfold State.rgInsert
  split
  · exact h0
  · lift_lets -underBinder +implicits
    intro x1
    have hx1 : Keeps s0 x1 := Keeps.ite (forEach_ok h0 (fun a2 t3 ht3 => rgShift_ok ht3)) (forEach_ok h0 (fun a4 t5
        ht5 => rgShift_ok ht5))
    clear_value x1
    intro x6
    have hx6 : Keeps s0 x6 := set_ok hx1 rfl
    clear_value x6
    intro x7
    have hx7 : Keeps s0 x7 := set_ok hx6 rfl
    clear_value x7
    exact lpUsed_ok (rgSync_ok hx7)

theorem rgDelete_ok {a0 : State} {a1 : Nat} {a2 : Bool} {a3 : Nat} (h0 : Keeps s0 a0) : Keeps s0 (State.rgDelete a0 a1
    a2 a3) := by
  unfold State.rgDelete
  lift_lets -underBinder +implicits
  intro x0
  have hx0 : Keeps s0 x0 := rgShift_ok h0
  clear_value x0
  intro x1
  have hx1 : Keeps s0 x1 := set_ok hx0 rfl
  clear_value x1
  intro x2
  have hx2 : Keeps s0 x2 := set_ok hx1 rfl
  clear_value x2
  exact lpUsed_ok (rgSync_ok hx2)

theorem rgRewrite_ok {a0 : State} {a1 : Nat} {a2 : Bool} {a3 : Nat} (h0 : Keeps s0 a0) : Keeps s0 (State.rgRewrite a0
    a1 a2 a3) := by
  unfold State.rgRewrite
  lift_lets -underBinder +implicits
  intro x0
  have hx0 : Keeps s0 x0 := set_ok h0 rfl
  clear_value x0
  exact lpUsed_ok (rgSync_ok hx0)

theorem lpmKill_ok {a0 : State} {a1 : Nat} {a2 : Nat} (h0 : Keeps s0 a0) : Keeps s0 (State.lpmKill a0 a1 a2) := by
  unfold State.lpmKill
  lift_lets -underBinder +implicits
  intro x0
  intro x1
  have hx1 : Keeps s0 x1 := set_ok h0 rfl
  clear_value x1
  intro x2
  exact Keeps.ite h0 (lpUsed_ok (rgSync_ok (inc_ok hx1 rfl)))

theorem lpmResize_ok {a0 : State} {a1 : Nat} {a2 : Nat} (h0 : Keeps s0 a0) : Keeps s0 (State.lpmResize a0 a1 a2) := by
  unfold State.lpmResize
  lift_lets -underBinder +implicits
  intro x0
  have hx0 : Keeps s0 x0 := set_ok h0 rfl
  clear_value x0
  intro x1
  have hx1 : Keeps s0 x1 := forEach_ok hx0 (fun a2 t3 ht3 => set_ok (set_ok ht3 rfl) rfl)
  clear_value x1
  exact Keeps.ite (forEach_ok hx1 (fun a4 t5 ht5 => set_ok (set_ok ht5 rfl) rfl)) h0

theorem putL2_ok {a0 : State} {a1 : Nat} {a2 : Nat} {a3 : List Byte} (h0 : Keeps s0 a0) : Keeps s0 (State.putL2 a0 a1
    a2 a3) := by
  unfold State.putL2
  lift_lets -underBinder +implicits
  intro x0
  exact set_ok (set_ok h0 rfl) rfl

theorem oneOf_ok {a0 : State} {a1 : List Nat} (h0 : Keeps s0 a0) : KeepsS s0 (State.oneOf a0 a1) := by
  unfold State.oneOf
  lift_lets -underBinder +implicits
  intro x0
  have hx0 : KeepsS s0 x0 := fresh_ok h0
  clear_value x0
  exact KeepsS.of (KeepsS.to hx0)

theorem l2New_ok {a0 : State} {a1 : Nat} {a2 : Nat} {a3 : List Byte} (h0 : Keeps s0 a0) : Keeps s0 (State.l2New a0 a1
    a2 a3) := by
  unfold State.l2New
  exact set_ok (putL2_ok h0) rfl

theorem l2Insert_ok {a0 : State} {a1 : Nat} {a2 : Nat} {a3 : List Byte} {a4 : Nat} (h0 : Keeps s0 a0) : Keeps s0
    (State.l2Insert a0 a1 a2 a3 a4) := by
  unfold State.l2Insert
  lift_lets -underBinder +implicits
  intro x0
  intro x1
  have hx1 : KeepsS s0 x1 := oneOf_ok h0
  clear_value x1
  exact Keeps.ite (inc_ok h0 rfl) (pmu_ok (l2New_ok (KeepsS.to hx1)))

theorem l2Move_ok {a0 : State} {a1 : Nat} {a2 : Nat} {a3 : Nat} (h0 : Keeps s0 a0) : Keeps s0 (State.l2Move a0 a1 a2
    a3) := by
  unfold State.l2Move
  lift_lets -underBinder +implicits
  intro x0
  intro x1
  intro x2
  intro x3
  intro x4
  intro x5
  have hx5 : Keeps s0 x5 := Keeps.ite (set_ok h0 rfl) h0
  clear_value x5
  exact Keeps.ite (inc_ok h0 rfl) (Keeps.ite (inc_ok h0 rfl) (Keeps.ite (tblEvent_ok (putL2_ok h0)) (pmu_ok (inc_ok
      (putL2_ok hx5) rfl))))

theorem l2Learn_ok {a0 : State} {a1 : Nat} {a2 : Nat} {a3 : List Byte} {a4 : Nat} (h0 : Keeps s0 a0) : Keeps s0
    (State.l2Learn a0 a1 a2 a3 a4) := by
  unfold State.l2Learn
  split
  · exact l2Insert_ok h0
  · lift_lets -underBinder +implicits
    intro x1
    exact Keeps.ite (pmu_ok (putL2_ok h0)) (l2Move_ok h0)

theorem l2Source_ok {a0 : State} {a1 : Nat} {a2 : Nat} {a3 : List Byte} {a4 : Nat} {a5 : Nat} {a6 : Nat} (h0 : Keeps
    s0 a0) : Keeps s0 (State.l2Source a0 a1 a2 a3 a4 a5 a6) := by
  unfold State.l2Source
  lift_lets -underBinder +implicits
  intro x0
  intro x1
  intro x2
  exact Keeps.ite h0 (Keeps.ite (inc_ok h0 rfl) (Keeps.other h0 rfl rfl rfl rfl))

theorem l2Static_ok {a0 : State} {a1 : Nat} {a2 : List Byte} (h0 : Keeps s0 a0) : KeepsS s0 (State.l2Static a0 a1 a2)
    := by
  unfold State.l2Static
  lift_lets -underBinder +implicits
  intro x0
  intro x1
  intro x2
  split
  · exact KeepsS.of (l2New_ok h0)
  · lift_lets -underBinder +implicits
    intro x4
    intro x5
    intro x6
    intro x7
    intro x8
    have hx8 : KeepsS s0 x8 := oneOf_ok h0
    clear_value x8
    intro x9
    have hx9 : KeepsS s0 x9 := oneOf_ok h0
    clear_value x9
    refine ite_of (Q := KeepsS s0) (KeepsS.of (l2New_ok (KeepsS.to hx8))) ?_
    refine ite_of (Q := KeepsS s0) (KeepsS.of (l2New_ok (KeepsS.to hx9))) ?_
    clear_value x6
    split
    · exact KeepsS.of (l2New_ok h0)
    · exact KeepsS.of h0

theorem l2Delete_ok {a0 : State} {a1 : Nat} {a2 : List Byte} (h0 : Keeps s0 a0) : KeepsS s0 (State.l2Delete a0 a1 a2)
    := by
  unfold State.l2Delete
  split
  · exact KeepsS.of h0
  · exact KeepsS.of (l2New_ok h0)

theorem flushTo_ok {a0 : State} {a1 : Nat} (h0 : Keeps s0 a0) : Keeps s0 (State.flushTo a0 a1) := by
  unfold State.flushTo
  lift_lets -underBinder +implicits
  intro x0
  intro x1
  intro x2
  exact Keeps.ite h0 (set_ok (forEach_ok h0 (fun a3 t4 ht4 => l2New_ok ht4)) rfl)

theorem flushSome_ok {a0 : State} (h0 : Keeps s0 a0) : Keeps s0 (State.flushSome a0) := by
  unfold State.flushSome
  lift_lets -underBinder +implicits
  intro x0
  refine Keeps.ite h0 ?_
  split
  · next m1 m2 heq =>
    have hm2 : Keeps s0 m2 := by
      refine KeepsS.eq heq ?_
      exact fresh_ok h0
    exact flushTo_ok hm2

end Sys2Proof.Laws
end

