-- ==== Sys2Proof/Laws/KeepsPipeOps.lean ====
section
/-! SUPPORT. Sys2Proof/Laws/KeepsPipeOps.lean: `Keeps` of each operation of Machine/PipeOps.lean. -/

namespace Sys2Proof.Laws

open Sys2Proof.Machine

variable {s0 : Base}

theorem clsWrite_ok {a0 : State} {a1 : Nat} {a2 : Nat} {a3 : List Byte} (h0 : Keeps s0 a0) : Keeps s0 (State.clsWrite
    a0 a1 a2 a3) := by
  unfold State.clsWrite
  exact set_ok h0 rfl

theorem clsInval_ok {a0 : State} {a1 : Nat} {a2 : Nat} (h0 : Keeps s0 a0) : Keeps s0 (State.clsInval a0 a1 a2) := by
  unfold State.clsInval
  exact set_ok h0 rfl

theorem putSel_ok {a0 : State} {a1 : Nat} {a2 : Nat} {a3 : List Byte} (h0 : Keeps s0 a0) : Keeps s0 (State.putSel a0
    a1 a2 a3) := by
  unfold State.putSel
  exact putArea_ok h0 rfl

theorem putPrf_ok {a0 : State} {a1 : Nat} {a2 : Nat} {a3 : List Byte} (h0 : Keeps s0 a0) : Keeps s0 (State.putPrf a0
    a1 a2 a3) := by
  unfold State.putPrf
  exact putArea_ok h0 rfl

theorem putKsel_ok {a0 : State} {a1 : Nat} {a2 : Nat} {a3 : List Byte} (h0 : Keeps s0 a0) : Keeps s0 (State.putKsel a0
    a1 a2 a3) := by
  unfold State.putKsel
  exact putArea_ok h0 rfl

theorem selInval_ok {a0 : State} {a1 : Nat} {a2 : Nat} (h0 : Keeps s0 a0) : Keeps s0 (State.selInval a0 a1 a2) := by
  unfold State.selInval
  lift_lets -underBinder +implicits
  intro x0
  exact set_ok h0 rfl

theorem badEntry_ok {a0 : State} {a1 : BadEntry} {a2 : Nat} {a3 : Nat} (h0 : Keeps s0 a0) : Keeps s0 (State.badEntry
    a0 a1 a2 a3) := by
  unfold State.badEntry
  lift_lets -underBinder +implicits
  intro x0
  have hx0 : Keeps s0 x0 := inc_ok h0 rfl
  clear_value x0
  intro x1
  intro x2
  have hx2 : Keeps s0 x2 := tblEvent_ok hx0
  clear_value x2
  split
  · exact clsInval_ok hx2
  · exact lpmKill_ok hx2
  · exact l2New_ok hx2
  · exact selInval_ok hx2
  · exact putPrf_ok hx2
  · exact putKsel_ok hx2

theorem badFlow_ok {a0 : State} {a1 : Nat} (h0 : Keeps s0 a0) : Keeps s0 (State.badFlow a0 a1) := by
  unfold State.badFlow
  exact putFlow_ok (tblEvent_ok h0)

end Sys2Proof.Laws
end

