-- ==== Sys2Proof/Laws/KeepsRegIO.lean ====
section
/-! SUPPORT. Sys2Proof/Laws/KeepsRegIO.lean: `Keeps` of each operation of Machine/RegIO.lean. -/

namespace Sys2Proof.Laws

open Sys2Proof.Machine

variable {s0 : Base}

/-- No register of PF BAR0 has a state field that a write or a read changes. -/
theorem all_safe : ∀ d ∈ RegTable.all, Safes d.fields := by decide +kernel

theorem findIn_mem {ds : List RegDesc} {off : Nat} {d : RegDesc} {x : Nat × Nat} (h : findIn ds off = some (d, x)) :
    d ∈ ds := by
  induction ds with
  | nil => cases h
  | cons e ds ih =>
    simp only [findIn] at h
    split at h
    · cases h; exact List.mem_cons_self
    · exact List.mem_cons_of_mem _ (ih h)

theorem findReg_safe {off : Nat} {d : RegDesc} {x : Nat × Nat} (h : findReg off = some (d, x)) : Safes d.fields :=
  all_safe d (findIn_mem h)

theorem unpack_ok {a0 : State} {a1 : List (Nat × Fld)} {a2 a3 : Nat} (h0 : Keeps s0 a0) (h1 : Plains a1) :
    Keeps s0 (State.unpack a0 a1 a2 a3) :=
  foldl_mem (Q := Keeps s0) (P := fun p : Nat × Fld => Plain p.2) h0 h1 (fun _ _ hp ht => set_ok ht hp)

end Sys2Proof.Laws
end

