-- ==== Sys2Proof/Laws/KeepsQueueOps.lean ====
section
/-! SUPPORT. Sys2Proof/Laws/KeepsQueueOps.lean: `Keeps` of each operation of Machine/QueueOps.lean. -/

namespace Sys2Proof.Laws

open Sys2Proof.Machine

variable {s0 : Base}

theorem setEnts_ok {a0 : State} {a1 : Nat} {a2 : List Ent} (h0 : Keeps s0 a0) : Keeps s0 (State.setEnts a0 a1 a2) := by
  unfold State.setEnts
  exact Keeps.other h0 rfl rfl rfl rfl

theorem setFetched_ok {a0 : State} {a1 : Nat} {a2 : List (List Byte)} (h0 : Keeps s0 a0) : Keeps s0 (State.setFetched
    a0 a1 a2) := by
  unfold State.setFetched
  exact Keeps.other h0 rfl rfl rfl rfl

theorem updEnt_ok {a0 : State} {a1 : Nat} {a2 : Nat} {a3 : Ent → Ent} (h0 : Keeps s0 a0) : Keeps s0 (State.updEnt a0
    a1 a2 a3) := by
  unfold State.updEnt
  exact setEnts_ok h0

theorem dropEnt_ok {a0 : State} {a1 : Nat} {a2 : Nat} (h0 : Keeps s0 a0) : Keeps s0 (State.dropEnt a0 a1 a2) := by
  unfold State.dropEnt
  exact setEnts_ok h0

theorem mirrorCtx_ok {a0 : State} {a1 : Nat} (h0 : Keeps s0 a0) : Keeps s0 (State.mirrorCtx a0 a1) := by
  unfold State.mirrorCtx
  exact Keeps.ite (twinAwait_ok h0) (Keeps.ite (twinSend_ok h0) h0)

theorem setQ_ok {a0 : State} {a1 : Nat} {a2 : Nat} (h0 : Keeps s0 a0) : Keeps s0 (State.setQ a0 a1 a2) := by
  unfold State.setQ
  lift_lets -underBinder +implicits
  intro x0
  have hx0 : Keeps s0 x0 := set_ok h0 rfl
  clear_value x0
  exact mirrorCtx_ok (put_ok hx0 rfl)

theorem firnAppend_ok {a0 : State} {a1 : FirnRec} (h0 : Keeps s0 a0) : Keeps s0 (State.firnAppend a0 a1) := by
  unfold State.firnAppend
  lift_lets -underBinder +implicits
  intro x0
  intro x1
  exact Keeps.other h0 rfl rfl rfl rfl

theorem firnDrain_ok {a0 : State} (h0 : Keeps s0 a0) : Keeps s0 (State.firnDrain a0) := by
  unfold State.firnDrain
  exact Keeps.other h0 rfl rfl rfl rfl

theorem readCons_ok {a0 : State} {a1 : Nat} (h0 : Keeps s0 a0) : Keeps s0 (State.readCons a0 a1) := by
  unfold State.readCons
  exact put_ok (hostRead_ok h0) rfl

theorem takeCredit_ok {a0 : State} {a1 : Nat} (h0 : Keeps s0 a0) : Keeps s0 (State.takeCredit a0 a1) := by
  unfold State.takeCredit
  lift_lets -underBinder +implicits
  intro x0
  have hx0 : Keeps s0 x0 := inc_ok h0 rfl
  clear_value x0
  exact Keeps.ite (readCons_ok hx0) hx0

theorem ringWrite_ok {a0 : State} {a1 : Nat} {a2 : List Byte} (h0 : Keeps s0 a0) : Keeps s0 (State.ringWrite a0 a1 a2)
    := by
  unfold State.ringWrite
  lift_lets -underBinder +implicits
  intro x0
  intro x1
  intro x2
  intro x3
  intro x4
  have hx4 : Keeps s0 x4 := hostWrite_ok h0
  clear_value x4
  intro x5
  have hx5 : Keeps s0 x5 := set_ok hx4 rfl
  clear_value x5
  exact Keeps.ite (raiseVec_ok hx5) hx5

theorem setBacklog_ok {a0 : State} {a1 : Nat} {a2 : List (List Byte)} (h0 : Keeps s0 a0) : Keeps s0 (State.setBacklog
    a0 a1 a2) := by
  unfold State.setBacklog
  exact set_ok (Keeps.other h0 rfl rfl rfl rfl) (by split <;> rfl)

theorem evPut_ok {a0 : State} {a1 : Nat} {a2 : List Byte} (h0 : Keeps s0 a0) : Keeps s0 (State.evPut a0 a1 a2) := by
  unfold State.evPut
  lift_lets -underBinder +implicits
  intro x0
  exact ringWrite_ok (takeCredit_ok h0)

theorem evRecord_ok {a0 : State} {a1 : Nat} {a2 : List Byte} (h0 : Keeps s0 a0) : Keeps s0 (State.evRecord a0 a1 a2)
    := by
  unfold State.evRecord
  lift_lets -underBinder +implicits
  intro x0
  exact Keeps.ite (evPut_ok h0) (setBacklog_ok h0)

theorem evDrain_ok {a0 : List (List Byte)} {a1 : Nat} {a2 : State} (h2 : Keeps s0 a2) : Keeps s0 (evDrain a0 a1 a2) :=
    by
  induction a0 generalizing a2 with
  | nil => exact setBacklog_ok h2
  | cons e rest ih => unfold evDrain; exact Keeps.ite (ih (evPut_ok h2)) (setBacklog_ok h2)

theorem settle_ok {a0 : State} {a1 : Nat} (h0 : Keeps s0 a0) : Keeps s0 (State.settle a0 a1) := by
  unfold State.settle
  lift_lets -underBinder +implicits
  intro x0
  exact forEach_ok (Keeps.other h0 rfl rfl rfl rfl) (fun a1 t2 ht2 => firnAppend_ok ht2)

theorem writebackNow_ok {a0 : State} {a1 : Nat} {a2 : Bool} {a3 : Bool} (h0 : Keeps s0 a0) : Keeps s0
    (State.writebackNow a0 a1 a2 a3) := by
  unfold State.writebackNow
  lift_lets -underBinder +implicits
  intro x0
  intro x1
  intro x2
  intro x3
  intro x4
  have hx4 : Keeps s0 x4 := hostWrite_ok h0
  clear_value x4
  intro x5
  intro x6
  have hx6 : Keeps s0 x6 := set_ok (put_ok (set_ok (set_ok hx4 rfl) rfl) rfl) rfl
  clear_value x6
  intro x7
  have hx7 : Keeps s0 x7 := settle_ok (put_ok hx6 rfl)
  clear_value x7
  exact Keeps.ite (raiseVec_ok hx7) hx7

theorem writeback_ok {a0 : State} {a1 : Nat} {a2 : Bool} {a3 : Bool} (h0 : Keeps s0 a0) : Keeps s0 (State.writeback a0
    a1 a2 a3) := by
  unfold State.writeback
  exact Keeps.ite (put_ok h0 rfl) (writebackNow_ok h0)

theorem advanceDone_ok {a0 : State} {a1 : Nat} (h0 : Keeps s0 a0) : Keeps s0 (State.advanceDone a0 a1) := by
  unfold State.advanceDone
  lift_lets -underBinder +implicits
  intro x0
  intro x1
  intro x2
  have hx2 : Keeps s0 x2 := setEnts_ok h0
  clear_value x2
  intro x3
  have hx3 : Keeps s0 x3 := set_ok hx2 rfl
  clear_value x3
  intro x4
  have hx4 : Keeps s0 x4 := set_ok hx3 rfl
  clear_value x4
  intro x5
  have hx5 : Keeps s0 x5 := forEach_ok hx4 (fun a6 t7 ht7 => hostWrite_ok ht7)
  clear_value x5
  intro x8
  have hx8 : Keeps s0 x8 := put_ok (Keeps.other hx5 rfl rfl rfl rfl) rfl
  clear_value x8
  exact Keeps.ite h0 (Keeps.ite hx4 (Keeps.ite (writeback_ok hx8) hx8))

theorem accountReset_ok {a0 : State} {a1 : Nat} {a2 : Ent} {a3 : Nat} (h0 : Keeps s0 a0) : Keeps s0
    (State.accountReset a0 a1 a2 a3) := by
  unfold State.accountReset
  lift_lets -underBinder +implicits
  intro x0
  intro x1
  have hx1 : Keeps s0 x1 := firnAppend_ok (dropEnt_ok h0)
  clear_value x1
  exact Keeps.ite (inc_ok hx1 rfl) (evRecord_ok (inc_ok hx1 rfl))

theorem quarRecord_ok {a0 : State} {a1 : Nat} {a2 : Ent} {a3 : Nat} (h0 : Keeps s0 a0) : Keeps s0 (State.quarRecord a0
    a1 a2 a3) := by
  unfold State.quarRecord
  lift_lets -underBinder +implicits
  intro x0
  exact evRecord_ok (firnAppend_ok (dropEnt_ok h0))

theorem issue_ok {a0 : State} {a1 : Compl} (h0 : Keeps s0 a0) : Keeps s0 (State.issue a0 a1) := by
  unfold State.issue
  split
  · exact h0
  · lift_lets -underBinder +implicits
    intro x1
    have hx1 : ∀ y2, Keeps s0 y2 → Keeps s0 (x1 y2) := by
      intro y2 hy2
      exact advanceDone_ok (updEnt_ok hy2)
    clear_value x1
    exact Keeps.ite h0 (Keeps.ite (accountReset_ok h0) (Keeps.ite (quarRecord_ok h0) (Keeps.ite (hx1 _ (ringWrite_ok
        (pmu_ok (firnAppend_ok h0)))) (hx1 _ (pmu_ok h0)))))

theorem complete_ok {a0 : State} {a1 : Compl} (h0 : Keeps s0 a0) : Keeps s0 (State.complete a0 a1) := by
  unfold State.complete
  split
  · exact h0
  · lift_lets -underBinder +implicits
    intro x1
    exact Keeps.ite h0 (Keeps.ite (updEnt_ok h0) (Keeps.ite (issue_ok (twinSend_ok h0)) (Keeps.ite (twinAwait_ok
        (updEnt_ok h0)) (issue_ok h0))))

theorem unhold_ok {a0 : State} {a1 : Compl} (h0 : Keeps s0 a0) : Keeps s0 (State.unhold a0 a1) := by
  unfold State.unhold
  exact complete_ok (updEnt_ok h0)

theorem releaseCompl_ok {a0 : State} (h0 : Keeps s0 a0) : Keeps s0 (State.releaseCompl a0) := by
  unfold State.releaseCompl
  lift_lets -underBinder +implicits
  intro x0
  have hx0 : Keeps s0 x0 := forEach_ok h0 (fun a1 t2 ht2 => Keeps.ite ht2 (unhold_ok ht2))
  clear_value x0
  exact forEach_ok hx0 (fun a3 t4 ht4 => writeback_ok ht4)

theorem finish_ok {a0 : State} {a1 : Nat} {a2 : Nat} {a3 : Nat} {a4 : Nat} {a5 : Nat} (h0 : Keeps s0 a0) : Keeps s0
    (State.finish a0 a1 a2 a3 a4 a5) := by
  unfold State.finish
  exact complete_ok h0

theorem markSent_ok {a0 : State} {a1 : Nat} {a2 : Nat} (h0 : Keeps s0 a0) : Keeps s0 (State.markSent a0 a1 a2) := by
  unfold State.markSent
  exact updEnt_ok h0

theorem markWay_ok {a0 : State} {a1 : Nat} {a2 : Nat} (h0 : Keeps s0 a0) : Keeps s0 (State.markWay a0 a1 a2) := by
  unfold State.markWay
  exact updEnt_ok h0

theorem dueAt_ok {a0 : State} {a1 : Nat} {a2 : Nat} (h0 : Keeps s0 a0) : Keeps s0 (State.dueAt a0 a1 a2) := by
  unfold State.dueAt
  exact set_ok (set_ok (put_ok h0 rfl) rfl) rfl

theorem pollIssue_ok {a0 : State} {a1 : Nat} (h0 : Keeps s0 a0) : Keeps s0 (State.pollIssue a0 a1) := by
  unfold State.pollIssue
  lift_lets -underBinder +implicits
  intro x0
  intro x1
  have hx1 : Keeps s0 x1 := hostRead_ok h0
  clear_value x1
  exact pmu_ok (set_ok (put_ok (set_ok (put_ok hx1 rfl) rfl) rfl) rfl)

theorem discardFetched_ok {a0 : State} {a1 : Nat} (h0 : Keeps s0 a0) : Keeps s0 (State.discardFetched a0 a1) := by
  unfold State.discardFetched
  lift_lets -underBinder +implicits
  intro x0
  have hx0 : Keeps s0 x0 := Keeps.ite h0 (dueAt_ok h0)
  clear_value x0
  intro x1
  have hx1 : Keeps s0 x1 := Keeps.ite (set_ok hx0 rfl) hx0
  clear_value x1
  intro x2
  have hx2 : Keeps s0 x2 := Keeps.ite (firnAppend_ok hx1) hx1
  clear_value x2
  intro x3
  have hx3 : Keeps s0 x3 := Keeps.other hx2 rfl rfl rfl rfl
  clear_value x3
  intro x4
  intro x5
  have hx5 : Keeps s0 x5 := put_ok (put_ok (put_ok (put_ok (setFetched_ok hx3) rfl) rfl) rfl) rfl
  clear_value x5
  intro x6
  have hx6 : Keeps s0 x6 := put_ok hx5 rfl
  clear_value x6
  exact Keeps.ite (mirrorCtx_ok hx6) hx6

theorem acceptNow_ok {a0 : State} {a1 : Nat} (h0 : Keeps s0 a0) : Keeps s0 (State.acceptNow a0 a1) := by
  unfold State.acceptNow
  split
  · exact h0
  · lift_lets -underBinder +implicits
    intro x2
    intro x3
    intro x4
    have hx4 : Keeps s0 x4 := setEnts_ok (setFetched_ok h0)
    clear_value x4
    intro x5
    have hx5 : Keeps s0 x5 := inc_ok (set_ok hx4 rfl) rfl
    clear_value x5
    intro x6
    have hx6 : Keeps s0 x6 := put_ok (put_ok (put_ok (put_ok hx5 rfl) rfl) rfl) rfl
    clear_value x6
    intro x7
    have hx7 : Keeps s0 x7 := set_ok hx6 rfl
    clear_value x7
    intro x8
    have hx8 : Keeps s0 x8 := writeback_ok (pmu_ok hx7)
    clear_value x8
    exact Keeps.ite (finish_ok hx8) (Keeps.ite (finish_ok hx8) (Keeps.ite (hostRead_ok hx8) hx8))

theorem acceptSteps_ok {a0 : State} {a1 : Nat} (h0 : Keeps s0 a0) : Keeps s0 (State.acceptSteps a0 a1) := by
  unfold State.acceptSteps
  split
  · exact h0
  · lift_lets -underBinder +implicits
    intro x2
    have hx2 : Keeps s0 x2 := Keeps.ite (put_ok (put_ok (takeCredit_ok h0) rfl) rfl) h0
    clear_value x2
    intro x3
    intro x4
    have hx4 : Keeps s0 x4 := Keeps.ite hx2 (put_ok (firnAppend_ok hx2) rfl)
    clear_value x4
    exact Keeps.ite h0 (Keeps.ite (Keeps.ite h0 (pmu_ok (put_ok (set_ok (inc_ok (put_ok h0 rfl) rfl) rfl) rfl)))
        (Keeps.ite (twinAwait_ok (put_ok hx4 rfl)) (Keeps.ite (acceptNow_ok (twinSend_ok hx4)) (acceptNow_ok hx4))))

theorem queueError_ok {a0 : State} {a1 : Nat} {a2 : Nat} (h0 : Keeps s0 a0) : Keeps s0 (State.queueError a0 a1 a2) := by
  unfold State.queueError
  lift_lets -underBinder +implicits
  intro x0
  have hx0 : Keeps s0 x0 := discardFetched_ok h0
  clear_value x0
  intro x1
  have hx1 : Keeps s0 x1 := put_ok (put_ok (put_ok hx0 rfl) rfl) rfl
  clear_value x1
  intro x2
  have hx2 : Keeps s0 x2 := setQ_ok (set_ok hx1 rfl)
  clear_value x2
  exact evRecord_ok hx2

theorem disableNow_ok {a0 : State} {a1 : Nat} {a2 : Bool} (h0 : Keeps s0 a0) : Keeps s0 (State.disableNow a0 a1 a2) :=
    by
  unfold State.disableNow
  lift_lets -underBinder +implicits
  intro x0
  have hx0 : Keeps s0 x0 := firnAppend_ok h0
  clear_value x0
  intro x1
  have hx1 : Keeps s0 x1 := Keeps.ite (writeback_ok hx0) hx0
  clear_value x1
  exact setQ_ok (set_ok (put_ok (put_ok hx1 rfl) rfl) rfl)

end Sys2Proof.Laws
end

