-- ==== Sys2Proof/Laws/KeepsCipherOps.lean ====
section
/-! SUPPORT. Sys2Proof/Laws/KeepsCipherOps.lean: `Keeps` of each operation of Machine/CipherOps.lean. -/

namespace Sys2Proof.Laws

open Sys2Proof.Machine

variable {s0 : Base}

theorem keyShares_ok {a0 : State} {a1 : Nat} {a2 : Nat} {a3 : List Byte} {a4 : List Byte} (h0 : Keeps s0 a0) : Keeps
    s0 (State.keyShares a0 a1 a2 a3 a4) := by
  unfold State.keyShares
  exact wr_ok (wr_ok h0)

theorem loadKey_ok {a0 : State} {a1 : Nat} {a2 : Nat} {a3 : Nat} {a4 : List Byte} (h0 : Keeps s0 a0) : Keeps s0
    (State.loadKey a0 a1 a2 a3 a4) := by
  unfold State.loadKey
  lift_lets -underBinder +implicits
  intro x0
  have hx0 : KeepsS s0 x0 := freshBytes_ok h0
  clear_value x0
  intro x1
  have hx1 : Keeps s0 x1 := set_ok (keyShares_ok (KeepsS.to hx0)) rfl
  clear_value x1
  exact inc_ok (put_ok hx1 rfl) rfl

theorem remask_ok {a0 : State} {a1 : Nat} {a2 : Nat} (h0 : Keeps s0 a0) : Keeps s0 (State.remask a0 a1 a2) := by
  unfold State.remask
  lift_lets -underBinder +implicits
  intro x0
  have hx0 : KeepsS s0 x0 := freshBytes_ok h0
  clear_value x0
  exact keyShares_ok (KeepsS.to hx0)

theorem split3_ok {a0 : State} {a1 : List Byte} (h0 : Keeps s0 a0) : KeepsS s0 (State.split3 a0 a1) := by
  unfold State.split3
  lift_lets -underBinder +implicits
  intro x0
  have hx0 : KeepsS s0 x0 := freshBytes_ok h0
  clear_value x0
  intro x1
  have hx1 : KeepsS s0 x1 := freshBytes_ok (KeepsS.to hx0)
  clear_value x1
  exact KeepsS.of (KeepsS.to hx1)

theorem fetchKey_ok {a0 : State} {a1 : Nat} {a2 : Nat} (h0 : Keeps s0 a0) : KeepsS s0 (State.fetchKey a0 a1 a2) := by
  unfold State.fetchKey
  exact split3_ok (remask_ok h0)

theorem setJobs_ok {a0 : State} {a1 : List Job} (h0 : Keeps s0 a0) : Keeps s0 (State.setJobs a0 a1) := by
  unfold State.setJobs
  exact Keeps.other h0 rfl rfl rfl rfl

theorem addJob_ok {a0 : State} {a1 : Job} (h0 : Keeps s0 a0) : Keeps s0 (State.addJob a0 a1) := by
  unfold State.addJob
  exact setJobs_ok (inc_ok h0 rfl)

theorem jobWrite_ok {a0 : State} {a1 : Job} {a2 : Nat} {a3 : List Byte} {a4 : Bool} {a5 : Bool} (h0 : Keeps s0 a0) :
    Keeps s0 (State.jobWrite a0 a1 a2 a3 a4 a5) := by
  unfold State.jobWrite
  exact Keeps.ite (hostWrite_ok h0) (Keeps.ite h0 (wr_ok h0))

theorem jobReport_ok {a0 : State} {a1 : Job} {a2 : Nat} {a3 : Nat} (h0 : Keeps s0 a0) : Keeps s0 (State.jobReport a0
    a1 a2 a3) := by
  unfold State.jobReport
  lift_lets -underBinder +implicits
  intro x0
  intro x1
  have hx1 : Keeps s0 x1 := Keeps.ite (inc_ok h0 rfl) h0
  clear_value x1
  exact Keeps.ite (finish_ok hx1) (Keeps.ite (Keeps.ite (Keeps.ite hx1 (inc_ok hx1 rfl)) (Keeps.other hx1 rfl rfl rfl
      rfl)) hx1)

theorem jobStop_ok {a0 : State} {a1 : Job} (h0 : Keeps s0 a0) : KeepsS s0 (State.jobStop a0 a1) := by
  unfold State.jobStop
  refine ite_of (Q := KeepsS s0) (KeepsS.of h0) ?_
  split
  · next m0 m1 heq =>
    have hm1 : Keeps s0 m1 := by
      refine KeepsS.eq heq ?_
      exact fresh_ok h0
    exact KeepsS.of hm1

theorem jobPart_ok {a0 : State} {a1 : Job} (h0 : Keeps s0 a0) : KeepsS s0 (State.jobPart a0 a1) := by
  unfold State.jobPart
  split
  · next m0 m1 heq =>
    have hm1 : Keeps s0 m1 := by
      refine KeepsS.eq heq ?_
      exact jobStop_ok h0
    lift_lets -underBinder +implicits
    intro x2
    intro x3
    intro x4
    have hx4 : KeepsS s0 x4 := freshBytes_ok hm1
    clear_value x4
    exact ite_of (Q := KeepsS s0) (KeepsS.of hm1) (ite_of (Q := KeepsS s0) (KeepsS.of (jobWrite_ok hm1)) (KeepsS.of
        (jobWrite_ok (KeepsS.to hx4))))

theorem jobAbort_ok {a0 : State} {a1 : Job} {a2 : Nat} (h0 : Keeps s0 a0) : Keeps s0 (State.jobAbort a0 a1 a2) := by
  unfold State.jobAbort
  split
  · next m0 m1 heq =>
    have hm1 : Keeps s0 m1 := by
      refine KeepsS.eq heq ?_
      exact jobPart_ok h0
    exact jobReport_ok (setJobs_ok hm1)

theorem wipeKey_ok {a0 : State} {a1 : Nat} {a2 : Nat} (h0 : Keeps s0 a0) : Keeps s0 (State.wipeKey a0 a1 a2) := by
  unfold State.wipeKey
  exact keyShares_ok h0

theorem zeroSlot_ok {a0 : State} {a1 : Nat} {a2 : Nat} (h0 : Keeps s0 a0) : Keeps s0 (State.zeroSlot a0 a1 a2) := by
  unfold State.zeroSlot
  lift_lets -underBinder +implicits
  intro x0
  have hx0 : Keeps s0 x0 := set_ok (wipeKey_ok h0) rfl
  clear_value x0
  intro x1
  have hx1 : Keeps s0 x1 := inc_ok (put_ok hx0 rfl) rfl
  clear_value x1
  intro x2
  have hx2 : Keeps s0 x2 := setJobs_ok hx1
  clear_value x2
  exact forEach_ok hx2 (fun a3 t4 ht4 => jobAbort_ok ht4)

theorem zeroPage_ok {a0 : State} {a1 : Nat} (h0 : Keeps s0 a0) : Keeps s0 (State.zeroPage a0 a1) := by
  unfold State.zeroPage
  exact forEach_ok h0 (fun a0 t1 ht1 => zeroSlot_ok ht1)

theorem zeroOwner_ok {a0 : State} {a1 : Nat} (h0 : Keeps s0 a0) : Keeps s0 (State.zeroOwner a0 a1) := by
  unfold State.zeroOwner
  exact forEach_ok h0 (fun a0 t1 ht1 => zeroPage_ok ht1)

theorem zeroRng_ok {a0 : State} (h0 : Keeps s0 a0) : Keeps s0 (State.zeroRng a0) := by
  unfold State.zeroRng
  lift_lets -underBinder +implicits
  intro x0
  have hx0 : Keeps s0 x0 := wr_ok (wr_ok h0)
  clear_value x0
  exact put_ok (set_ok hx0 rfl) rfl

theorem zeroAll_ok {a0 : State} (h0 : Keeps s0 a0) : Keeps s0 (State.zeroAll a0) := by
  unfold State.zeroAll
  refine zeroRng_ok ?_
  refine setJobs_ok ?_
  refine forEach_ok h0 (fun a0 t1 ht1 => ?_)
  lift_lets -underBinder +implicits
  intro x2
  have hx2 : Keeps s0 x2 := set_ok (wipeKey_ok ht1) rfl
  clear_value x2
  exact inc_ok (put_ok hx2 rfl) rfl

theorem drbgEntropy_ok {a0 : State} (h0 : Keeps s0 a0) : Keeps s0 (State.drbgEntropy a0) := by
  unfold State.drbgEntropy
  lift_lets -underBinder +implicits
  intro x0
  have hx0 : KeepsS s0 x0 := freshBytes_ok h0
  clear_value x0
  exact set_ok (wr_ok (KeepsS.to hx0)) rfl

theorem zeroLink_ok {a0 : State} (h0 : Keeps s0 a0) : Keeps s0 (State.zeroLink a0) := by
  unfold State.zeroLink
  exact put_ok (wr_ok h0) rfl

theorem mirrorPage_ok {a0 : State} {a1 : Nat} {a2 : Nat} (h0 : Keeps s0 a0) : Keeps s0 (State.mirrorPage a0 a1 a2) := by
  unfold State.mirrorPage
  exact Keeps.ite (twinAwait_ok (put_ok h0 rfl)) (Keeps.ite (twinSend_ok h0) h0)

theorem saPut_ok {a0 : State} {a1 : Nat} {a2 : List Byte} (h0 : Keeps s0 a0) : Keeps s0 (State.saPut a0 a1 a2) := by
  unfold State.saPut
  lift_lets -underBinder +implicits
  intro x0
  have hx0 : Keeps s0 x0 := put_ok (put_ok (wr_ok h0) rfl) rfl
  clear_value x0
  exact Keeps.other hx0 rfl rfl rfl rfl

theorem laneFail_ok {a0 : State} {a1 : Nat} (h0 : Keeps s0 a0) : Keeps s0 (State.laneFail a0 a1) := by
  unfold State.laneFail
  lift_lets -underBinder +implicits
  intro x0
  have hx0 : Keeps s0 x0 := set_ok h0 rfl
  clear_value x0
  split
  · exact Keeps.ite (setJobs_ok hx0) (jobAbort_ok hx0)
  · exact hx0

theorem jobRun_ok {a0 : State} {a1 : Job} {a2 : Nat} (h0 : Keeps s0 a0) : Keeps s0 (State.jobRun a0 a1 a2) := by
  unfold State.jobRun
  lift_lets -underBinder +implicits
  intro x0
  have hx0 : KeepsS s0 x0 := fetchKey_ok h0
  clear_value x0
  intro x1
  have hx1 : KeepsS s0 x1 := split3_ok (KeepsS.to hx0)
  clear_value x1
  exact setJobs_ok (KeepsS.to hx1)

theorem jobSuspend_ok {a0 : State} {a1 : Job} (h0 : Keeps s0 a0) : Keeps s0 (State.jobSuspend a0 a1) := by
  unfold State.jobSuspend
  lift_lets -underBinder +implicits
  intro x0
  split
  · next m1 m2 heq =>
    have hm2 : Keeps s0 m2 := by
      refine KeepsS.eq heq ?_
      exact jobStop_ok h0
    lift_lets -underBinder +implicits
    intro x3
    have hx3 : KeepsS s0 x3 := freshBytes_ok hm2
    clear_value x3
    intro x4
    have hx4 : KeepsS s0 x4 := split3_ok (KeepsS.to hx3)
    clear_value x4
    intro x5
    have hx5 : Keeps s0 x5 := pmu_ok (inc_ok (set_ok (KeepsS.to hx4) rfl) rfl)
    clear_value x5
    exact setJobs_ok hx5

theorem cphDwrr_ok {a0 : List Nat} {a1 a2 : Nat} {a3 : State} (h3 : Keeps s0 a3) : KeepsS s0 (cphDwrr a0 a1 a2 a3) := by
  induction a1 generalizing a2 a3 with
  | zero => exact h3
  | succ n ih =>
    unfold cphDwrr
    split
    · exact h3
    · exact ite_of (Q := KeepsS s0) (KeepsS.of (set_ok h3 rfl)) (ih (set_ok h3 rfl))

theorem cphCharge_ok {a0 : State} {a1 : Job} (h0 : Keeps s0 a0) : Keeps s0 (State.cphCharge a0 a1) := by
  unfold State.cphCharge
  exact set_ok h0 rfl

theorem cphIdle_ok {a0 : State} (h0 : Keeps s0 a0) : Keeps s0 (State.cphIdle a0) := by
  unfold State.cphIdle
  exact forEach_ok h0 (fun a0 t1 ht1 => set_ok ht1 rfl)

theorem jobReads_ok {a0 : State} {a1 : Job} (h0 : Keeps s0 a0) : Keeps s0 (State.jobReads a0 a1) := by
  unfold State.jobReads
  split
  · exact h0
  · lift_lets -underBinder +implicits
    intro x1
    intro x2
    have hx2 : Keeps s0 x2 := Keeps.ite (forEach_ok h0 (fun a3 t4 ht4 => hostRead_ok ht4)) (hostRead_ok h0)
    clear_value x2
    exact Keeps.ite (hostRead_ok hx2) hx2

theorem jobDrop_ok {a0 : State} {a1 : Job} (h0 : Keeps s0 a0) : Keeps s0 (State.jobDrop a0 a1) := by
  unfold State.jobDrop
  exact setJobs_ok h0

theorem jobBegin_ok {a0 : State} {a1 : Job} {a2 : Nat} (h0 : Keeps s0 a0) : Keeps s0 (State.jobBegin a0 a1 a2) := by
  unfold State.jobBegin
  lift_lets -underBinder +implicits
  intro x0
  have hx0 : Keeps s0 x0 := cphCharge_ok (pmu_ok h0)
  clear_value x0
  intro x1
  have hx1 : Keeps s0 x1 := pmu_ok (jobRun_ok hx0)
  clear_value x1
  exact Keeps.ite (jobReport_ok (jobDrop_ok hx0)) (Keeps.ite (jobReport_ok (jobDrop_ok hx0)) (Keeps.ite (jobReads_ok
      hx1) hx1))

end Sys2Proof.Laws
end

