-- ==== Sys2Proof/Laws/KeepsFrameOps.lean ====
section
/-! SUPPORT. Sys2Proof/Laws/KeepsFrameOps.lean: `Keeps` of each operation of Machine/FrameOps.lean. -/

namespace Sys2Proof.Laws

open Sys2Proof.Machine

variable {s0 : Base}

theorem cnt_ok {a0 : State} {a1 : Nat} {a2 : Nat} {a3 : Nat} (h0 : Keeps s0 a0) : Keeps s0 (State.cnt a0 a1 a2 a3) := by
  unfold State.cnt
  exact add_ok h0 rfl

theorem lcnt_ok {a0 : State} {a1 : Nat} {a2 : Nat} (h0 : Keeps s0 a0) : Keeps s0 (State.lcnt a0 a1 a2) := by
  unfold State.lcnt
  exact inc_ok h0 rfl

theorem setFrame_ok {a0 : State} {a1 : Nat} {a2 : Frame} (h0 : Keeps s0 a0) : Keeps s0 (State.setFrame a0 a1 a2) := by
  unfold State.setFrame
  exact Keeps.other h0 rfl rfl rfl rfl

theorem updFrame_ok {a0 : State} {a1 : Nat} {a2 : Frame → Frame} (h0 : Keeps s0 a0) : Keeps s0 (State.updFrame a0 a1
    a2) := by
  unfold State.updFrame
  exact setFrame_ok h0

theorem newFrame_ok {a0 : State} {a1 : Frame} (h0 : Keeps s0 a0) : Keeps s0 (State.newFrame a0 a1) := by
  unfold State.newFrame
  exact Keeps.other h0 rfl rfl rfl rfl

theorem setCharge_ok {a0 : State} {a1 : Nat} {a2 : Nat} (h0 : Keeps s0 a0) : Keeps s0 (State.setCharge a0 a1 a2) := by
  unfold State.setCharge
  lift_lets -underBinder +implicits
  intro x0
  intro x1
  have hx1 : Keeps s0 x1 := set_ok h0 rfl
  clear_value x1
  exact set_ok hx1 rfl

theorem ownFrame_ok {a0 : State} {a1 : Nat} {a2 : List Byte} (h0 : Keeps s0 a0) : Keeps s0 (State.ownFrame a0 a1 a2)
    := by
  unfold State.ownFrame
  lift_lets -underBinder +implicits
  intro x0
  intro x1
  have hx1 : Keeps s0 x1 := emit_ok h0 rfl
  clear_value x1
  intro x2
  have hx2 : Keeps s0 x2 := lcnt_ok hx1
  clear_value x2
  exact Keeps.ite (cnt_ok (emit_ok h0 rfl)) (Keeps.ite (Keeps.ite (forEach_ok hx2 (fun a3 t4 ht4 => cnt_ok ht4)) hx2)
      hx1)

theorem sendOwn_ok {a0 : State} {a1 : Nat} {a2 : List Byte} (h0 : Keeps s0 a0) : Keeps s0 (State.sendOwn a0 a1 a2) := by
  unfold State.sendOwn
  exact Keeps.ite (Keeps.other h0 rfl rfl rfl rfl) (ownFrame_ok h0)

theorem flushOwn_ok {a0 : State} {a1 : Nat} (h0 : Keeps s0 a0) : Keeps s0 (State.flushOwn a0 a1) := by
  unfold State.flushOwn
  exact forEach_ok (Keeps.other h0 rfl rfl rfl rfl) (fun a0 t1 ht1 => ownFrame_ok ht1)

theorem sendCtl_ok {a0 : State} {a1 : Nat} {a2 : Nat} {a3 : Option Nat} {a4 : List Byte} (h0 : Keeps s0 a0) : Keeps s0
    (State.sendCtl a0 a1 a2 a3 a4) := by
  unfold State.sendCtl
  split
  · exact sendOwn_ok h0
  · split
    · next m1 m2 heq =>
      have hm2 : Keeps s0 m2 := by
        refine KeepsS.eq heq ?_
        exact fresh_ok h0
      exact sendOwn_ok hm2

theorem sendChpause_ok {a0 : State} {a1 : Nat} {a2 : Nat} {a3 : Nat} (h0 : Keeps s0 a0) : Keeps s0 (State.sendChpause
    a0 a1 a2 a3) := by
  unfold State.sendChpause
  exact Keeps.ite (sendCtl_ok h0) h0

theorem sendPause_ok {a0 : State} {a1 : Nat} {a2 : Nat} {a3 : Nat} (h0 : Keeps s0 a0) : Keeps s0 (State.sendPause a0
    a1 a2 a3) := by
  unfold State.sendPause
  exact Keeps.ite (sendOwn_ok h0) h0

theorem judgeXoff_ok {a0 : State} {a1 : Nat} {a2 : Nat} {a3 : Nat} {a4 : Nat} {a5 : Nat → State → State} {a6 : Nat}
    (h0 : Keeps s0 a0) (h5 : ∀ z0, ∀ z1, Keeps s0 z1 → Keeps s0 (a5 z0 z1)) : Keeps s0 (State.judgeXoff a0 a1 a2 a3 a4
    a5 a6) := by
  unfold State.judgeXoff
  exact Keeps.ite (put_ok h0 rfl) (Keeps.ite (Keeps.ite (h5 _ _ (put_ok h0 rfl)) h0) (Keeps.ite (h5 _ _ (put_ok h0
      rfl)) h0))

theorem judgePort_ok {a0 : State} {a1 : Nat} (h0 : Keeps s0 a0) : Keeps s0 (State.judgePort a0 a1) := by
  unfold State.judgePort
  lift_lets -underBinder +implicits
  intro x0
  have hx0 : Keeps s0 x0 := Keeps.ite h0 (put_ok h0 rfl)
  clear_value x0
  intro x1
  have hx1 : Keeps s0 x1 := Keeps.ite hx0 (forEach_ok hx0 (fun a2 t3 ht3 => put_ok ht3 rfl))
  clear_value x1
  intro x4
  intro x5
  intro x6
  intro x7
  intro x8
  exact Keeps.ite (Keeps.ite (judgeXoff_ok hx1 (fun y9 y10 hy10 => sendPause_ok hy10)) (Keeps.ite (forEach_ok hx1 (fun
      a11 t12 ht12 => judgeXoff_ok ht12 (fun y13 y14 hy14 => sendPause_ok hy14))) hx1)) (Keeps.ite (judgeXoff_ok h0
      (fun y15 y16 hy16 => sendChpause_ok hy16)) h0)

theorem freeFrame_ok {a0 : State} {a1 : Nat} (h0 : Keeps s0 a0) : Keeps s0 (State.freeFrame a0 a1) := by
  unfold State.freeFrame
  lift_lets -underBinder +implicits
  intro x0
  intro x1
  have hx1 : Keeps s0 x1 := Keeps.other h0 rfl rfl rfl rfl
  clear_value x1
  exact Keeps.ite (judgePort_ok (setCharge_ok hx1)) (Keeps.ite (set_ok hx1 rfl) hx1)

theorem endFrame_ok {a0 : State} {a1 : Nat} {a2 : Nat} (h0 : Keeps s0 a0) : Keeps s0 (State.endFrame a0 a1 a2) := by
  unfold State.endFrame
  lift_lets -underBinder +implicits
  intro x0
  intro x1
  have hx1 : Keeps s0 x1 := freeFrame_ok h0
  clear_value x1
  refine Keeps.ite hx1 ?_
  split
  · exact Keeps.ite (finish_ok hx1) hx1
  · exact hx1

theorem polRefill_ok {a0 : State} {a1 : Nat} {a2 : Nat} {a3 : Nat} (h0 : Keeps s0 a0) : Keeps s0 (State.polRefill a0
    a1 a2 a3) := by
  unfold State.polRefill
  lift_lets -underBinder +implicits
  intro x0
  intro x1
  intro x2
  intro x3
  intro x4
  have hx4 : Keeps s0 x4 := set_ok h0 rfl
  clear_value x4
  exact Keeps.ite (set_ok (set_ok hx4 rfl) rfl) (set_ok (set_ok hx4 rfl) rfl)

theorem meter_ok {a0 : State} {a1 : Nat} {a2 : Bool} {a3 : Nat} {a4 : Nat} {a5 : Nat} (h0 : Keeps s0 a0) : KeepsS s0
    (State.meter a0 a1 a2 a3 a4 a5) := by
  unfold State.meter
  lift_lets -underBinder +implicits
  intro x0
  have hx0 : Keeps s0 x0 := polRefill_ok h0
  clear_value x0
  intro x1
  exact ite_of (Q := KeepsS s0) (KeepsS.of h0) (ite_of (Q := KeepsS s0) (KeepsS.of (set_ok hx0 rfl)) (KeepsS.of hx0))

theorem excRefill_ok {a0 : State} {a1 : Nat} {a2 : Nat} {a3 : Nat} (h0 : Keeps s0 a0) : Keeps s0 (State.excRefill a0
    a1 a2 a3) := by
  unfold State.excRefill
  lift_lets -underBinder +implicits
  intro x0
  intro x1
  intro x2
  intro x3
  intro x4
  have hx4 : Keeps s0 x4 := set_ok h0 rfl
  clear_value x4
  exact Keeps.ite (set_ok (set_ok hx4 rfl) rfl) (set_ok (set_ok hx4 rfl) rfl)

theorem toException_ok {a0 : State} {a1 : Nat} {a2 : Nat} (h0 : Keeps s0 a0) : Keeps s0 (State.toException a0 a1 a2)
    := by
  unfold State.toException
  lift_lets -underBinder +implicits
  intro x0
  intro x1
  intro x2
  have hx2 : Keeps s0 x2 := pmu_ok (inc_ok h0 rfl)
  clear_value x2
  intro x3
  have hx3 : Keeps s0 x3 := excRefill_ok (excRefill_ok hx2)
  clear_value x3
  intro x4
  have hx4 : Keeps s0 x4 := set_ok hx3 rfl
  clear_value x4
  intro x5
  have hx5 : Keeps s0 x5 := set_ok hx4 rfl
  clear_value x5
  intro x6
  have hx6 : Keeps s0 x6 := updFrame_ok hx5
  clear_value x6
  exact Keeps.ite (endFrame_ok (inc_ok hx3 rfl)) (Keeps.ite (endFrame_ok (inc_ok hx4 rfl)) (Keeps.other hx6 rfl rfl
      rfl rfl))

theorem addDepth_ok {a0 : State} {a1 : Nat} {a2 : Nat → Nat} (h0 : Keeps s0 a0) : Keeps s0 (State.addDepth a0 a1 a2)
    := by
  unfold State.addDepth
  split
  · exact forEach_ok h0 (fun a3 t4 ht4 => set_ok ht4 rfl)

theorem drainShow_ok {a0 : State} (h0 : Keeps s0 a0) : Keeps s0 (State.drainShow a0) := by
  unfold State.drainShow
  exact put_ok h0 rfl

theorem leafTidy_ok {a0 : State} {a1 : Nat} (h0 : Keeps s0 a0) : Keeps s0 (State.leafTidy a0 a1) := by
  unfold State.leafTidy
  split
  · lift_lets -underBinder +implicits
    intro x3
    have hx3 : Keeps s0 x3 := forEach_ok h0 (fun a4 t5 ht5 => Keeps.ite (set_ok ht5 rfl) ht5)
    clear_value x3
    exact Keeps.ite (drainShow_ok (put_ok (put_ok hx3 rfl) rfl)) hx3

theorem putLeaf_ok {a0 : State} {a1 : Nat} {a2 : Nat} (h0 : Keeps s0 a0) : Keeps s0 (State.putLeaf a0 a1 a2) := by
  unfold State.putLeaf
  lift_lets -underBinder +implicits
  intro x0
  intro x1
  have hx1 : Keeps s0 x1 := addDepth_ok (updFrame_ok h0)
  clear_value x1
  intro x2
  have hx2 : Keeps s0 x2 := pmu_ok hx1
  clear_value x2
  exact Keeps.other hx2 rfl rfl rfl rfl

theorem enqueueAll_ok {a0 : State} {a1 : List Nat} {a2 : Nat} (h0 : Keeps s0 a0) : Keeps s0 (State.enqueueAll a0 a1
    a2) := by
  unfold State.enqueueAll
  lift_lets -underBinder +implicits
  intro x0
  intro x1
  intro x2
  have hx2 : ∀ y3, Plain y3 → Keeps s0 (x2 y3) := by
    intro y3 hy3
    exact forEach_ok h0 (fun a4 t5 ht5 => endFrame_ok (pmu_ok (inc_ok ht5 hy3)))
  clear_value x2
  exact Keeps.ite (hx2 _ rfl) (Keeps.ite (hx2 _ rfl) (forEach_ok h0 (fun a6 t7 ht7 => putLeaf_ok ht7)))

theorem enqueue_ok {a0 : State} {a1 : Nat} {a2 : Nat} (h0 : Keeps s0 a0) : Keeps s0 (State.enqueue a0 a1 a2) := by
  unfold State.enqueue
  exact enqueueAll_ok h0

end Sys2Proof.Laws
end

