-- ==== Sys2Proof/Laws/KeepsDmaOps.lean ====
section
/-! SUPPORT. Sys2Proof/Laws/KeepsDmaOps.lean: `Keeps` of each operation of Machine/DmaOps.lean. -/

namespace Sys2Proof.Laws

open Sys2Proof.Machine

variable {s0 : Base}

theorem setCh_ok {a0 : State} {a1 a2 : Nat} (h0 : Keeps s0 a0)
    (h2 : s0.wf = true → modeOk (Reg.DMA_CH_STATUS_state.id % 4096) (a2 % 8) = true) : Keeps s0 (State.setCh a0 a1 a2)
        := by
  unfold State.setCh
  exact put_ok (set_mode h0 h2) rfl

theorem setFifo_ok {a0 : State} {a1 : Nat} {a2 : List Byte} (h0 : Keeps s0 a0) : Keeps s0 (State.setFifo a0 a1 a2) := by
  unfold State.setFifo
  exact set_ok (Keeps.other h0 rfl rfl rfl rfl) rfl

theorem chSettle_ok {a0 : State} {a1 : Nat} (h0 : Keeps s0 a0) : Keeps s0 (State.chSettle a0 a1) := by
  unfold State.chSettle
  lift_lets -underBinder +implicits
  intro x0
  have hx0 : Keeps s0 x0 := Keeps.ite (put_ok h0 rfl) h0
  clear_value x0
  exact Keeps.ite (setCh_ok hx0 (fun _ => by split <;> decide)) h0

theorem setBy_ok {a0 : State} {a1 : Nat} {a2 : DmaBy} (h0 : Keeps s0 a0) : Keeps s0 (State.setBy a0 a1 a2) := by
  unfold State.setBy
  lift_lets -underBinder +implicits
  intro x0
  have hx0 : Keeps s0 x0 := set_ok h0 rfl
  clear_value x0
  split
  · exact set_ok (set_ok hx0 rfl) rfl
  · exact set_ok (set_ok (set_ok hx0 rfl) rfl) rfl
  · exact hx0

theorem dmaReport_ok {a0 : State} {a1 : Nat} {a2 : DmaBy} {a3 : Nat} (h0 : Keeps s0 a0) : Keeps s0 (State.dmaReport a0
    a1 a2 a3) := by
  unfold State.dmaReport
  lift_lets -underBinder +implicits
  intro x0
  split
  · exact finish_ok h0
  · exact Keeps.ite (Keeps.ite h0 (inc_ok h0 rfl)) (Keeps.other h0 rfl rfl rfl rfl)
  · lift_lets -underBinder +implicits
    intro x7
    have hx7 : Keeps s0 x7 := set_ok (put_ok h0 rfl) rfl
    clear_value x7
    split
    · exact Keeps.ite (raiseVec_ok hx7) hx7
    · exact hx7

theorem handOver_ok {a0 : State} {a1 : Nat} (h0 : Keeps s0 a0) : Keeps s0 (State.handOver a0 a1) := by
  unfold State.handOver
  lift_lets -underBinder +implicits
  intro x0
  have hx0 : Keeps s0 x0 := set_ok (set_ok h0 rfl) rfl
  clear_value x0
  intro x1
  have hx1 : Keeps s0 x1 := set_ok (set_ok (set_ok hx0 rfl) rfl) rfl
  clear_value x1
  intro x2
  exact Keeps.ite (set_ok (set_ok (put_ok hx1 rfl) rfl) rfl) h0

theorem dmaBegin_ok {a0 : State} {a1 : Nat} {a2 : DmaBy} {a3 : Nat} {a4 : Nat} {a5 : Nat} {a6 : Nat} {a7 : Nat} (h0 :
    Keeps s0 a0) : Keeps s0 (State.dmaBegin a0 a1 a2 a3 a4 a5 a6 a7) := by
  unfold State.dmaBegin
  lift_lets -underBinder +implicits
  intro x0
  have hx0 : Keeps s0 x0 := set_ok (setBy_ok h0) rfl
  clear_value x0
  intro x1
  have hx1 : Keeps s0 x1 := set_ok (set_ok (set_ok hx0 rfl) rfl) rfl
  clear_value x1
  intro x2
  have hx2 : Keeps s0 x2 := set_ok (set_ok (set_ok (set_ok hx1 rfl) rfl) rfl) rfl
  clear_value x2
  exact Keeps.ite (dmaReport_ok hx2) (chSettle_ok (setCh_ok (put_ok hx2 rfl) (fun _ => by decide)))

theorem dmaStored_ok {a0 : State} {a1 : Nat} {a2 : DmaReq} {a3 : DmaBy} (h0 : Keeps s0 a0) : Keeps s0 (State.dmaStored
    a0 a1 a2 a3) := by
  unfold State.dmaStored
  lift_lets -underBinder +implicits
  intro x0
  intro x1
  intro x2
  intro x3
  exact Keeps.ite (dmaReport_ok (set_ok h0 rfl)) (dmaBegin_ok h0)

theorem dmaStart_ok {a0 : State} {a1 : Nat} {a2 : DmaReq} {a3 : DmaBy} (h0 : Keeps s0 a0) : Keeps s0 (State.dmaStart
    a0 a1 a2 a3) := by
  unfold State.dmaStart
  exact dmaStored_ok (handOver_ok h0)

theorem dmaEntry_ok {a0 : State} {a1 : Nat} {a2 : Nat} {a3 : Nat} (h0 : Keeps s0 a0) : Keeps s0 (State.dmaEntry a0 a1
    a2 a3) := by
  unfold State.dmaEntry
  split
  · exact h0
  · lift_lets -underBinder +implicits
    intro x1
    have hx1 : Keeps s0 x1 := markWay_ok (Keeps.other h0 rfl rfl rfl rfl)
    try clear_value x1
    intro x2
    intro x3
    have hx3 : Keeps s0 x3 := handOver_ok hx1
    try clear_value x3
    intro x4
    exact Keeps.ite (finish_ok hx1) (Keeps.ite (dmaStart_ok hx1) (dmaBegin_ok hx3))

theorem dmaNext_ok {a0 : State} {a1 : Nat} (h0 : Keeps s0 a0) : Keeps s0 (State.dmaNext a0 a1) := by
  unfold State.dmaNext
  split
  · exact h0
  · exact Keeps.ite (Keeps.other h0 rfl rfl rfl rfl) (Keeps.ite (dmaEntry_ok h0) h0)

theorem dmaEnd_ok {a0 : State} {a1 : Nat} {a2 : Nat} (h0 : Keeps s0 a0) : Keeps s0 (State.dmaEnd a0 a1 a2) := by
  unfold State.dmaEnd
  lift_lets -underBinder +implicits
  intro x0
  intro x1
  intro x2
  have hx2 : Keeps s0 x2 := set_ok (setCh_ok h0 (fun _ => by decide)) rfl
  clear_value x2
  intro x3
  have hx3 : Keeps s0 x3 := Keeps.ite (put_ok hx2 rfl) hx2
  clear_value x3
  intro x4
  have hx4 : Keeps s0 x4 := dmaReport_ok hx3
  clear_value x4
  exact Keeps.ite (dmaStored_ok (handOver_ok hx4)) (dmaNext_ok hx4)

theorem sendMgmt_ok {a0 : State} {a1 : Nat} {a2 : Bool} {a3 : Nat} {a4 : Nat} {a5 : List Byte} (h0 : Keeps s0 a0) :
    Keeps s0 (State.sendMgmt a0 a1 a2 a3 a4 a5) := by
  unfold State.sendMgmt
  lift_lets -underBinder +implicits
  intro x0
  intro x1
  have hx1 : Keeps s0 x1 := set_ok h0 rfl
  clear_value x1
  intro x2
  have hx2 : Keeps s0 x2 := put_ok hx1 rfl
  clear_value x2
  exact sendCtl_ok hx2

theorem shlKick_ok {a0 : State} {a1 : Nat} (h0 : Keeps s0 a0) : Keeps s0 (State.shlKick a0 a1) := by
  unfold State.shlKick
  refine Keeps.ite h0 ?_
  split
  · exact h0
  · split
    · lift_lets -underBinder +implicits
      intro x3
      exact sendMgmt_ok (put_ok (set_ok h0 rfl) rfl)

theorem bulkDone_ok {a0 : State} {a1 : Nat} (h0 : Keeps s0 a0) : Keeps s0 (State.bulkDone a0 a1) := by
  unfold State.bulkDone
  exact Keeps.ite (chSettle_ok (setCh_ok h0 (fun _ => by decide))) (setCh_ok h0 (fun _ => by decide))

theorem bulkSend_ok {a0 : List (Nat × Nat × List Byte)} {a1 : Nat} {a2 : State} (h2 : Keeps s0 a2) :
    Keeps s0 (bulkSend a0 a1 a2) := by
  induction a0 generalizing a2 with
  | nil => exact Keeps.other h2 rfl rfl rfl rfl
  | cons e l ih =>
    simp only [bulkSend]
    refine Keeps.ite (ih ?_) (Keeps.other h2 rfl rfl rfl rfl)
    have hx := add_ok (f := Reg.DMA_CH_XFER_bytes) (i := e.1) (n := e.2.2.length)
      (sendCtl_ok (a1 := a1) (a2 := 0x05) (a3 := none) (a4 := beBytes 8 e.2.1 ++ e.2.2)
        (set_ok (f := Reg.TLK_STATUS_credit) (i := a1) (v := a2.get Reg.TLK_STATUS_credit a1 - (e.2.2.length + 1023) /
            1024)
          h2 rfl)) rfl
    exact Keeps.ite hx (bulkDone_ok hx)

theorem bulkKick_ok {a0 : State} {a1 : Nat} (h0 : Keeps s0 a0) : Keeps s0 (State.bulkKick a0 a1) := by
  unfold State.bulkKick
  exact shlKick_ok (bulkSend_ok h0)

theorem shellDrop_ok {a0 : State} {a1 : Nat} (h0 : Keeps s0 a0) : Keeps s0 (State.shellDrop a0 a1) := by
  unfold State.shellDrop
  lift_lets -underBinder +implicits
  intro x0
  intro x1
  have hx1 : Keeps s0 x1 := Keeps.other h0 rfl rfl rfl rfl
  clear_value x1
  exact Keeps.ite (Keeps.ite (set_ok hx1 rfl) hx1) h0

theorem saStore_ok {a0 : Who} {a1 : Nat} {a2 : List Byte} {a3 : Nat} {a4 : State} (h4 : Keeps s0 a4) :
    KeepsT s0 (saStore a0 a1 a2 a3 a4) := by
  induction a1 generalizing a2 a3 a4 with
  | zero => exact h4
  | succ n ih =>
    simp only [saStore]
    exact ite_of (Q := KeepsT s0) (KeepsT.of h4) (KeepsT.of (KeepsT.to (ih (saPut_ok h4))))

theorem dmaPut_ok {a0 : State} {a1 : Nat} {a2 : Nat} {a3 : List Byte} (h0 : Keeps s0 a0) : KeepsS s0 (State.dmaPut a0
    a1 a2 a3) := by
  unfold State.dmaPut
  lift_lets -underBinder +implicits
  intro x0
  intro x1
  intro x2
  have hx2 : Keeps s0 x2 := pmu_ok h0
  clear_value x2
  split
  · split
    · lift_lets -underBinder +implicits
      intro x4
      exact KeepsS.of (add_ok (hostWriteCut_ok hx2) rfl)
    · exact KeepsS.of hx2
  · exact KeepsS.of (add_ok (wr_ok hx2) rfl)
  · exact KeepsS.of (add_ok (wr_ok hx2) rfl)
  · lift_lets -underBinder +implicits
    intro x5
    have hx5 : Keeps s0 x5 := Keeps.ite hx2 (wr_ok hx2)
    clear_value x5
    exact KeepsS.of (add_ok hx5 rfl)
  · lift_lets -underBinder +implicits
    intro x6
    intro x7
    exact ite_of (Q := KeepsS s0) (KeepsS.of hx2) (KeepsS.of (Keeps.other hx2 rfl rfl rfl rfl))
  · split
    · next m8 m9 m10 heq =>
      have hm10 : Keeps s0 m10 := by
        refine KeepsT.eq heq ?_
        exact saStore_ok hx2
      exact KeepsS.of (add_ok hm10 rfl)
  · exact KeepsS.of hx2

theorem dmaBack_ok {a0 : State} {a1 : Nat} {a2 : Nat} (h0 : Keeps s0 a0) : Keeps s0 (State.dmaBack a0 a1 a2) := by
  unfold State.dmaBack
  lift_lets -underBinder +implicits
  intro x0
  have hx0 : Keeps s0 x0 := set_ok h0 rfl
  clear_value x0
  intro x1
  intro x2
  have hx2 : Keeps s0 x2 := setCh_ok hx0 (fun _ => by decide)
  clear_value x2
  refine Keeps.ite (dmaEnd_ok hx0) ?_
  refine Keeps.ite (bulkKick_ok (setCh_ok hx0 (fun _ => by decide))) ?_
  refine Keeps.ite (dmaEnd_ok hx0) ?_
  split
  · split
    · exact hostRead_ok hx2
  · exact shlKick_ok hx2
  · exact hx2

theorem dmaReads_ok {a0 : State} {a1 : Nat} (h0 : Keeps s0 a0) : Keeps s0 (State.dmaReads a0 a1) := by
  unfold State.dmaReads
  split
  · exact h0
  · lift_lets -underBinder +implicits
    intro x1
    intro x2
    split
    · split
      · exact Keeps.ite (forEach_ok h0 (fun a6 t7 ht7 => hostReadCut_ok ht7)) (hostReadCut_ok h0)
      · exact h0
    · exact hostReadCut_ok h0

theorem dmaDwrr_ok {a0 : Nat} {a1 a2 : List Nat} {a3 a4 : Nat} {a5 : State} (h5 : Keeps s0 a5) :
    KeepsS s0 (dmaDwrr a0 a1 a2 a3 a4 a5) := by
  induction a3 generalizing a4 a5 with
  | zero => exact h5
  | succ n ih =>
    unfold dmaDwrr
    split
    · exact h5
    · exact ite_of (Q := KeepsS s0) (KeepsS.of (set_ok (set_ok (set_ok h5 rfl) rfl) rfl)) (ih (set_ok h5 rfl))

theorem engPick_ok {a0 : State} {a1 : Nat} (h0 : Keeps s0 a0) : KeepsS s0 (State.engPick a0 a1) := by
  unfold State.engPick
  lift_lets -underBinder +implicits
  intro x0
  intro x1
  intro x2
  intro x3
  have hx3 : Keeps s0 x3 := forEach_ok h0 (fun a4 t5 ht5 => set_ok ht5 rfl)
  clear_value x3
  intro x6
  exact dmaDwrr_ok hx3

theorem dmaTrigger_ok {a0 : State} {a1 : Nat} (h0 : Keeps s0 a0) : Keeps s0 (State.dmaTrigger a0 a1) := by
  unfold State.dmaTrigger
  exact Keeps.ite (inc_ok h0 rfl) (Keeps.ite (put_ok h0 rfl) (dmaStart_ok h0))

theorem dmaCut_ok {a0 : State} {a1 : Nat} {a2 : Nat} (h0 : Keeps s0 a0) : Keeps s0 (State.dmaCut a0 a1 a2) := by
  unfold State.dmaCut
  exact dmaEnd_ok (shellDrop_ok h0)

end Sys2Proof.Laws
end

