-- ==== Sys2Proof/Laws/KeepsMbxOps.lean ====
section
/-! SUPPORT. Sys2Proof/Laws/KeepsMbxOps.lean: `Keeps` of each operation of Machine/MbxOps.lean. -/

namespace Sys2Proof.Laws

open Sys2Proof.Machine

variable {s0 : Base}

theorem mbxIgnore_ok {a0 : State} (h0 : Keeps s0 a0) : Keeps s0 (State.mbxIgnore a0) := by
  unfold State.mbxIgnore
  exact inc_ok h0 rfl

theorem sendMbx_ok {a0 : State} {a1 : Nat} {a2 : Option Nat} {a3 : List Byte} (h0 : Keeps s0 a0) : Keeps s0
    (State.sendMbx a0 a1 a2 a3) := by
  unfold State.sendMbx
  exact Keeps.ite (sendCtl_ok h0) h0

theorem doorbell_ok {a0 : State} {a1 : Nat} (h0 : Keeps s0 a0) : Keeps s0 (State.doorbell a0 a1) := by
  unfold State.doorbell
  lift_lets -underBinder +implicits
  intro x0
  intro x1
  exact Keeps.ite (Keeps.ite (raiseVec_ok h0) h0) (Keeps.ite (raiseEv_ok h0) (Keeps.ite (sendMbx_ok h0) h0))

theorem putWords_ok {a0 : State} {a1 : Fld} {a2 : Nat} {a3 : List Nat} (h0 : Keeps s0 a0) (h1 : Plain a1) :
    Keeps s0 (State.putWords a0 a1 a2 a3) := by
  induction a3 generalizing a0 a2 with
  | nil => unfold State.putWords; exact h0
  | cons w ws ih => unfold State.putWords; exact ih (set_ok h0 h1)

theorem mbxSeen_ok {a0 : State} {a1 : Nat} {a2 : Nat} (h0 : Keeps s0 a0) : Keeps s0 (State.mbxSeen a0 a1 a2) := by
  unfold State.mbxSeen
  lift_lets -underBinder +implicits
  intro x0
  exact Keeps.ite h0 (Keeps.other h0 rfl rfl rfl rfl)

theorem mbxTake_ok {a0 : State} {a1 : Nat} {a2 : Nat} {a3 : List Nat} (h0 : Keeps s0 a0) : Keeps s0 (State.mbxTake a0
    a1 a2 a3) := by
  unfold State.mbxTake
  lift_lets -underBinder +implicits
  intro x0
  have hx0 : Keeps s0 x0 := putWords_ok h0 rfl
  clear_value x0
  intro x1
  have hx1 : Keeps s0 x1 := set_ok hx0 rfl
  clear_value x1
  exact doorbell_ok (pmu_ok (put_ok (mbxSeen_ok (put_ok hx1 rfl)) rfl))

theorem mbxPost_ok {a0 : State} {a1 : Nat} {a2 : Nat} {a3 : List Nat} (h0 : Keeps s0 a0) : KeepsS s0 (State.mbxPost a0
    a1 a2 a3) := by
  unfold State.mbxPost
  exact ite_of (Q := KeepsS s0) (KeepsS.of (pmu_ok h0)) (ite_of (Q := KeepsS s0) (KeepsS.of (pmu_ok h0)) (ite_of (Q :=
      KeepsS s0) (KeepsS.of (pmu_ok h0)) (KeepsS.of (mbxTake_ok h0))))

theorem mbxEmpty_ok {a0 : State} {a1 : Nat} (h0 : Keeps s0 a0) : Keeps s0 (State.mbxEmpty a0 a1) := by
  unfold State.mbxEmpty
  lift_lets -underBinder +implicits
  intro x0
  have hx0 : Keeps s0 x0 := forEach_ok h0 (fun a1 t2 ht2 => set_ok (KeepsS.to (fresh_ok ht2)) rfl)
  clear_value x0
  exact put_ok (set_ok hx0 rfl) rfl

theorem mbxPop_ok {a0 : State} {a1 : Nat} (h0 : Keeps s0 a0) : Keeps s0 (State.mbxPop a0 a1) := by
  unfold State.mbxPop
  exact pmu_ok (mbxEmpty_ok h0)

theorem mbxUnstage_ok {a0 : State} {a1 : Nat} (h0 : Keeps s0 a0) : Keeps s0 (State.mbxUnstage a0 a1) := by
  unfold State.mbxUnstage
  exact putWords_ok h0 rfl

theorem lockFree_ok {a0 : State} {a1 : Nat} (h0 : Keeps s0 a0) : Keeps s0 (State.lockFree a0 a1) := by
  unfold State.lockFree
  lift_lets -underBinder +implicits
  intro x0
  have hx0 : Keeps s0 x0 := set_ok h0 rfl
  clear_value x0
  exact Keeps.ite (mbxUnstage_ok hx0) hx0

theorem lockRead_ok {a0 : State} {a1 : Nat} {a2 : Nat} (h0 : Keeps s0 a0) : KeepsS s0 (State.lockRead a0 a1 a2) := by
  unfold State.lockRead
  exact ite_of (Q := KeepsS s0) (KeepsS.of (set_ok h0 rfl)) (KeepsS.of h0)

theorem mbxSenderAt_ok {a0 : State} {a1 : Nat} {a2 : Nat} (h0 : Keeps s0 a0) : Keeps s0 (State.mbxSenderAt a0 a1 a2)
    := by
  unfold State.mbxSenderAt
  lift_lets -underBinder +implicits
  intro x0
  have hx0 : Keeps s0 x0 := Keeps.other h0 rfl rfl rfl rfl
  clear_value x0
  intro x1
  have hx1 : Keeps s0 x1 := inc_ok hx0 rfl
  clear_value x1
  exact Keeps.ite (Keeps.ite (put_ok (mbxEmpty_ok hx1) rfl) hx1) h0

theorem mbxReset_ok {a0 : State} {a1 : Nat} (h0 : Keeps s0 a0) : Keeps s0 (State.mbxReset a0 a1) := by
  unfold State.mbxReset
  lift_lets -underBinder +implicits
  intro x0
  have hx0 : Keeps s0 x0 := forEach_ok h0 (fun a1 t2 ht2 => lockFree_ok ht2)
  clear_value x0
  exact forEach_ok hx0 (fun a3 t4 ht4 => mbxSenderAt_ok ht4)

theorem mbxOwe_ok {a0 : State} {a1 : Nat} (h0 : Keeps s0 a0) : Keeps s0 (State.mbxOwe a0 a1) := by
  unfold State.mbxOwe
  exact forEach_ok h0 (fun a0 t1 ht1 => put_ok ht1 rfl)

theorem mbxRing_ok {a0 : State} {a1 : Nat} (h0 : Keeps s0 a0) : Keeps s0 (State.mbxRing a0 a1) := by
  unfold State.mbxRing
  exact forEach_ok h0 (fun a0 t1 ht1 => Keeps.ite (doorbell_ok (put_ok ht1 rfl)) ht1)

theorem mbxLinkUp_ok {a0 : State} {a1 : Nat} (h0 : Keeps s0 a0) : Keeps s0 (State.mbxLinkUp a0 a1) := by
  unfold State.mbxLinkUp
  exact forEach_ok h0 (fun a0 t1 ht1 => doorbell_ok ht1)

theorem pvPend_ok {a0 : State} {a1 : Nat} {a2 : Bool} (h0 : Keeps s0 a0) : Keeps s0 (State.pvPend a0 a1 a2) := by
  unfold State.pvPend
  lift_lets -underBinder +implicits
  intro x0
  intro x1
  exact set_ok h0 rfl

theorem pvUpRing_ok {a0 : State} {a1 : Nat} (h0 : Keeps s0 a0) : Keeps s0 (State.pvUpRing a0 a1) := by
  unfold State.pvUpRing
  lift_lets -underBinder +implicits
  intro x0
  exact Keeps.ite (raiseVec_ok h0) h0

theorem pvDnRing_ok {a0 : State} {a1 : Nat} (h0 : Keeps s0 a0) : Keeps s0 (State.pvDnRing a0 a1) := by
  unfold State.pvDnRing
  exact Keeps.ite (raiseVec_ok h0) h0

theorem copyWords_ok {a0 : State} {a1 : Fld} {a2 : Fld} {a3 : Nat} {a4 : Nat} (h0 : Keeps s0 a0) (h1 : Plain a1) (h2 :
    Plain a2) : Keeps s0 (State.copyWords a0 a1 a2 a3 a4) := by
  unfold State.copyWords
  exact putWords_ok h0 h2

theorem loseWords_ok {a0 : State} {a1 : Fld} {a2 : Nat} (h0 : Keeps s0 a0) (h1 : Plain a1) : Keeps s0 (State.loseWords
    a0 a1 a2) := by
  unfold State.loseWords
  exact forEach_ok h0 (fun a0 t1 ht1 => set_ok (KeepsS.to (fresh_ok ht1)) h1)

theorem pvUpEmpty_ok {a0 : State} {a1 : Nat} (h0 : Keeps s0 a0) : Keeps s0 (State.pvUpEmpty a0 a1) := by
  unfold State.pvUpEmpty
  exact pvPend_ok (put_ok (set_ok (loseWords_ok h0 rfl) rfl) rfl)

theorem pvDnEmpty_ok {a0 : State} {a1 : Nat} (h0 : Keeps s0 a0) : Keeps s0 (State.pvDnEmpty a0 a1) := by
  unfold State.pvDnEmpty
  exact put_ok (set_ok (loseWords_ok h0 rfl) rfl) rfl

theorem pvVfReset_ok {a0 : State} {a1 : Nat} (h0 : Keeps s0 a0) : Keeps s0 (State.pvVfReset a0 a1) := by
  unfold State.pvVfReset
  lift_lets -underBinder +implicits
  intro x0
  have hx0 : Keeps s0 x0 := putWords_ok h0 rfl
  clear_value x0
  intro x1
  have hx1 : Keeps s0 x1 := inc_ok (put_ok hx0 rfl) rfl
  clear_value x1
  intro x2
  have hx2 : Keeps s0 x2 := Keeps.ite (Keeps.ite (pvUpEmpty_ok hx1) hx1) hx0
  clear_value x2
  exact Keeps.ite (put_ok hx2 rfl) hx2

theorem pvPfReset_ok {a0 : State} {a1 : Nat} (h0 : Keeps s0 a0) : Keeps s0 (State.pvPfReset a0 a1) := by
  unfold State.pvPfReset
  lift_lets -underBinder +implicits
  intro x0
  refine forEach_ok h0 (fun a1 t2 ht2 => ?_)
  lift_lets -underBinder +implicits
  intro x3
  have hx3 : Keeps s0 x3 := putWords_ok ht2 rfl
  clear_value x3
  intro x4
  have hx4 : Keeps s0 x4 := inc_ok (put_ok hx3 rfl) rfl
  clear_value x4
  intro x5
  have hx5 : Keeps s0 x5 := Keeps.ite (Keeps.ite (pvDnEmpty_ok hx4) hx4) hx3
  clear_value x5
  exact Keeps.ite (put_ok hx5 rfl) hx5

theorem pvClear_ok {a0 : State} {a1 : Nat} (h0 : Keeps s0 a0) : Keeps s0 (State.pvClear a0 a1) := by
  unfold State.pvClear
  lift_lets -underBinder +implicits
  intro x0
  intro x1
  have hx1 : Keeps s0 x1 := putWords_ok (putWords_ok (putWords_ok h0 rfl) rfl) rfl
  clear_value x1
  intro x2
  have hx2 : Keeps s0 x2 := putWords_ok hx1 rfl
  clear_value x2
  intro x3
  have hx3 : Keeps s0 x3 := forEach_mem (P := fun f => Plain f) hx2 (by decide) (fun a4 t5 ha4 ht5 => set_ok ht5 ha4)
  clear_value x3
  exact pvPend_ok hx3

theorem pvRing_ok {a0 : State} {a1 : Nat} (h0 : Keeps s0 a0) : Keeps s0 (State.pvRing a0 a1) := by
  unfold State.pvRing
  exact Keeps.ite (forEach_ok h0 (fun a0 t1 ht1 => pvUpRing_ok (put_ok ht1 rfl))) (Keeps.ite (pvDnRing_ok (put_ok h0
      rfl)) h0)

end Sys2Proof.Laws
end

