-- ==== Sys2Proof/Laws/KeepsPortOps.lean ====
section
/-! SUPPORT. Sys2Proof/Laws/KeepsPortOps.lean: `Keeps` of each operation of Machine/PortOps.lean. -/

namespace Sys2Proof.Laws

open Sys2Proof.Machine

variable {s0 : Base}

theorem sdsTidy_ok {a0 : State} (h0 : Keeps s0 a0) : Keeps s0 (State.sdsTidy a0) := by
  unfold State.sdsTidy
  exact set_ok h0 rfl

theorem shlFree_ok {a0 : State} {a1 : Nat} (h0 : Keeps s0 a0) : Keeps s0 (State.shlFree a0 a1) := by
  unfold State.shlFree
  exact set_ok (put_ok (put_ok (put_ok h0 rfl) rfl) rfl) rfl

theorem shlEnd_ok {a0 : State} {a1 : Nat} {a2 : Nat} (h0 : Keeps s0 a0) : Keeps s0 (State.shlEnd a0 a1 a2) := by
  unfold State.shlEnd
  lift_lets -underBinder +implicits
  intro x0
  intro x1
  have hx1 : Keeps s0 x1 := shlFree_ok h0
  clear_value x1
  exact Keeps.ite h0 (Keeps.ite (shlKick_ok (set_ok hx1 rfl)) (Keeps.ite (shlKick_ok (dmaEnd_ok hx1)) (shlKick_ok hx1)))

theorem tlinkDown_ok {a0 : State} {a1 : Nat} (h0 : Keeps s0 a0) : Keeps s0 (State.tlinkDown a0 a1) := by
  unfold State.tlinkDown
  lift_lets -underBinder +implicits
  intro x0
  have hx0 : Keeps s0 x0 := set_ok (put_ok (put_ok h0 rfl) rfl) rfl
  clear_value x0
  intro x1
  have hx1 : Keeps s0 x1 := shlEnd_ok (Keeps.other hx0 rfl rfl rfl rfl)
  clear_value x1
  exact Keeps.ite h0 (forEach_ok hx1 (fun a2 t3 ht3 => dmaCut_ok ht3))

theorem nlinkDown_ok {a0 : State} {a1 : Nat} (h0 : Keeps s0 a0) : Keeps s0 (State.nlinkDown a0 a1) := by
  unfold State.nlinkDown
  exact Keeps.ite (put_ok (put_ok (Keeps.other h0 rfl rfl rfl rfl) rfl) rfl) h0

theorem linkDown_ok {a0 : State} {a1 : Nat} (h0 : Keeps s0 a0) : Keeps s0 (State.linkDown a0 a1) := by
  unfold State.linkDown
  exact Keeps.ite (nlinkDown_ok h0) (tlinkDown_ok h0)

theorem linkDrop_ok {a0 : State} {a1 : Nat} (h0 : Keeps s0 a0) : Keeps s0 (State.linkDrop a0 a1) := by
  unfold State.linkDrop
  exact Keeps.ite (pmu_ok (cnt_ok h0)) h0

theorem netDrop_ok {a0 : State} {a1 : Nat} (h0 : Keeps s0 a0) : Keeps s0 (State.netDrop a0 a1) := by
  unfold State.netDrop
  exact Keeps.ite (pmu_ok (cnt_ok h0)) h0

theorem countPaused_ok {a0 : State} {a1 : Nat} (h0 : Keeps s0 a0) : Keeps s0 (State.countPaused a0 a1) := by
  unfold State.countPaused
  lift_lets -underBinder +implicits
  intro x0
  have hx0 : Keeps s0 x0 := Keeps.ite (cnt_ok h0) h0
  clear_value x0
  exact set_ok (put_ok hx0 rfl) rfl

theorem netPause_ok {a0 : State} {a1 : Nat} {a2 : Nat} {a3 : Nat} (h0 : Keeps s0 a0) : Keeps s0 (State.netPause a0 a1
    a2 a3) := by
  unfold State.netPause
  lift_lets -underBinder +implicits
  intro x0
  intro x1
  have hx1 : Keeps s0 x1 := set_ok h0 rfl
  clear_value x1
  intro x2
  have hx2 : Keeps s0 x2 := Keeps.ite (put_ok hx1 rfl) (set_ok hx1 rfl)
  clear_value x2
  exact countPaused_ok hx2

theorem chPause_ok {a0 : State} {a1 : Nat} {a2 : Nat} (h0 : Keeps s0 a0) : Keeps s0 (State.chPause a0 a1 a2) := by
  unfold State.chPause
  lift_lets -underBinder +implicits
  intro x0
  intro x1
  have hx1 : Keeps s0 x1 := set_ok h0 rfl
  clear_value x1
  exact countPaused_ok (put_ok hx1 rfl)

theorem rxChpause_ok {a0 : State} {a1 : Nat} {a2 : Nat} {a3 : Nat} (h0 : Keeps s0 a0) : Keeps s0 (State.rxChpause a0
    a1 a2 a3) := by
  unfold State.rxChpause
  refine forEach_ok h0 (fun a0 t1 ht1 => ?_)
  lift_lets -underBinder +implicits
  intro x2
  exact cnt_ok (chPause_ok ht1)

theorem rxPause_ok {a0 : State} {a1 : Nat} {a2 : Nat} (h0 : Keeps s0 a0) : Keeps s0 (State.rxPause a0 a1 a2) := by
  unfold State.rxPause
  exact Keeps.ite (cnt_ok (netPause_ok h0)) (cnt_ok h0)

theorem rxPfc_ok {a0 : State} {a1 : Nat} {a2 : Nat} {a3 : List Nat} (h0 : Keeps s0 a0) : Keeps s0 (State.rxPfc a0 a1
    a2 a3) := by
  unfold State.rxPfc
  lift_lets -underBinder +implicits
  intro x0
  have hx0 : Keeps s0 x0 := forEach_ok h0 (fun a1 t2 ht2 => cnt_ok ht2)
  clear_value x0
  exact Keeps.ite (cnt_ok (forEach_ok hx0 (fun a3 t4 ht4 => netPause_ok ht4))) (cnt_ok hx0)

theorem rxMgmt_ok {a0 : State} {a1 : Nat} {a2 : Nat} {a3 : Nat} {a4 : List Byte} (h0 : Keeps s0 a0) : Keeps s0
    (State.rxMgmt a0 a1 a2 a3 a4) := by
  unfold State.rxMgmt
  lift_lets -underBinder +implicits
  intro x0
  intro x1
  have hx1 : Keeps s0 x1 := shlFree_ok h0
  clear_value x1
  intro x2
  have hx2 : Keeps s0 x2 := set_ok (set_ok hx1 rfl) rfl
  clear_value x2
  intro x3
  have hx3 : Keeps s0 x3 := Keeps.ite hx2 (set_ok hx2 rfl)
  clear_value x3
  exact Keeps.ite (Keeps.ite (shlKick_ok hx3) (Keeps.ite (shlKick_ok (dmaEnd_ok hx1)) (shlKick_ok hx1))) (lcnt_ok h0)

theorem rxCredit_ok {a0 : State} {a1 : Nat} {a2 : Nat} (h0 : Keeps s0 a0) : Keeps s0 (State.rxCredit a0 a1 a2) := by
  unfold State.rxCredit
  exact bulkKick_ok (set_ok h0 rfl)

theorem slotRst_ok {a0 : State} {a1 : Nat} {a2 : Bool} (h0 : Keeps s0 a0) : Keeps s0 (State.slotRst a0 a1 a2) := by
  unfold State.slotRst
  lift_lets -underBinder +implicits
  intro x0
  have hx0 : Keeps s0 x0 := Keeps.ite (mbxReset_ok h0) h0
  clear_value x0
  exact Keeps.ite (Keeps.ite (put_ok h0 rfl) h0) (tlinkDown_ok (put_ok hx0 rfl))

theorem slotSeq_ok {a0 : State} {a1 : Nat} {a2 : Nat} (h0 : Keeps s0 a0) : Keeps s0 (State.slotSeq a0 a1 a2) := by
  unfold State.slotSeq
  exact put_ok (set_ok h0 rfl) rfl

theorem slotRefuse_ok {a0 : State} {a1 : Nat} (h0 : Keeps s0 a0) : Keeps s0 (State.slotRefuse a0 a1) := by
  unfold State.slotRefuse
  exact put_ok h0 rfl

theorem slotHit_ok {a0 : State} {a1 : Nat} (h0 : Keeps s0 a0) : Keeps s0 (State.slotHit a0 a1) := by
  unfold State.slotHit
  exact set_ok h0 rfl

theorem slotOff_ok {a0 : State} {a1 : Nat} (h0 : Keeps s0 a0) : Keeps s0 (State.slotOff a0 a1) := by
  unfold State.slotOff
  exact slotSeq_ok (slotRst_ok h0)

end Sys2Proof.Laws
end

