-- ==== Sys2Proof/Laws/KeepsSchedOps.lean ====
section
/-! SUPPORT. Sys2Proof/Laws/KeepsSchedOps.lean: `Keeps` of each operation of Machine/SchedOps.lean. -/

namespace Sys2Proof.Laws

open Sys2Proof.Machine

variable {s0 : Base}

theorem bucket_ok {a0 : State} {a1 : Fld} {a2 : Fld} {a3 : Nat} {a4 : Nat} {a5 : Nat} {a6 : Nat} (h0 : Keeps s0 a0)
    (h1 : Plain a1) (h2 : Plain a2) : Keeps s0 (State.bucket a0 a1 a2 a3 a4 a5 a6) := by
  unfold State.bucket
  lift_lets -underBinder +implicits
  intro x0
  intro x1
  exact Keeps.ite (set_ok (set_ok h0 h1) h2) (set_ok (set_ok h0 h1) h2)

theorem nodeRefill_ok {a0 : State} {a1 : Nat} (h0 : Keeps s0 a0) : Keeps s0 (State.nodeRefill a0 a1) := by
  unfold State.nodeRefill
  lift_lets -underBinder +implicits
  intro x0
  intro x1
  intro x2
  have hx2 : Keeps s0 x2 := bucket_ok h0 rfl rfl
  clear_value x2
  intro x3
  have hx3 : Keeps s0 x3 := bucket_ok hx2 rfl rfl
  clear_value x3
  exact set_ok hx3 rfl

theorem refillPath_ok {a0 : State} {a1 : Nat} (h0 : Keeps s0 a0) : Keeps s0 (State.refillPath a0 a1) := by
  unfold State.refillPath
  split
  · exact forEach_ok h0 (fun a3 t4 ht4 => nodeRefill_ok ht4)

theorem drr_ok {a0 a1 : Nat} {a2 : Nat → State → Nat} {a3 : List Nat} {a4 a5 : Nat} {a6 : State} (h6 : Keeps s0 a6) :
    KeepsS s0 (drr a0 a1 a2 a3 a4 a5 a6) := by
  induction a4 generalizing a5 a6 with
  | zero => exact h6
  | succ n ih =>
    unfold drr
    exact ite_of (Q := KeepsS s0) (KeepsS.of (set_ok (set_ok h6 rfl) rfl)) (ih (set_ok h6 rfl))

theorem choose_ok {a0 : State} {a1 : Nat} {a2 : Nat} {a3 : Bool} {a4 : Nat → State → Nat} {a5 : List Nat} (h0 : Keeps
    s0 a0) : KeepsS s0 (State.choose a0 a1 a2 a3 a4 a5) := by
  unfold State.choose
  split
  · lift_lets -underBinder +implicits
    intro x3
    split
    · exact KeepsS.of h0
    · exact drr_ok h0

theorem pick3_ok {a0 : State} {a1 : List Cand} {a2 : Nat} (h0 : Keeps s0 a0) : KeepsS s0 (State.pick3 a0 a1 a2) := by
  unfold State.pick3
  lift_lets -underBinder +implicits
  intro x0
  exact choose_ok h0

theorem pick2_ok {a0 : State} {a1 : List Cand} {a2 : Nat} (h0 : Keeps s0 a0) : KeepsS s0 (State.pick2 a0 a1 a2) := by
  unfold State.pick2
  lift_lets -underBinder +implicits
  intro x0
  split
  · next m1 m2 heq =>
    have hm2 : Keeps s0 m2 := by
      refine KeepsS.eq heq ?_
      exact choose_ok h0
    exact pick3_ok hm2
  · next m3 heq =>
    have hm3 : Keeps s0 m3 := by
      refine KeepsS.eq heq ?_
      exact choose_ok h0
    exact KeepsS.of hm3

theorem pick1_ok {a0 : State} {a1 : List Cand} {a2 : Nat} (h0 : Keeps s0 a0) : KeepsS s0 (State.pick1 a0 a1 a2) := by
  unfold State.pick1
  lift_lets -underBinder +implicits
  intro x0
  split
  · next m1 m2 heq =>
    have hm2 : Keeps s0 m2 := by
      refine KeepsS.eq heq ?_
      exact choose_ok h0
    exact pick2_ok hm2
  · next m3 heq =>
    have hm3 : Keeps s0 m3 := by
      refine KeepsS.eq heq ?_
      exact choose_ok h0
    exact KeepsS.of hm3

theorem pickMac_ok {a0 : State} {a1 : List Cand} {a2 : Nat} (h0 : Keeps s0 a0) : KeepsS s0 (State.pickMac a0 a1 a2) :=
    by
  unfold State.pickMac
  refine ite_of (Q := KeepsS s0) ?_ (pick1_ok h0)
  split
  · next m0 m1 heq =>
    have hm1 : Keeps s0 m1 := by
      refine KeepsS.eq heq ?_
      exact choose_ok h0
    exact pick1_ok hm1
  · next m2 heq =>
    have hm2 : Keeps s0 m2 := by
      refine KeepsS.eq heq ?_
      exact choose_ok h0
    exact KeepsS.of hm2

theorem dequeue_ok {a0 : State} {a1 : Nat} {a2 : Bool} (h0 : Keeps s0 a0) : Keeps s0 (State.dequeue a0 a1 a2) := by
  unfold State.dequeue
  split
  · exact h0
  · split
    · lift_lets -underBinder +implicits
      intro x4
      intro x5
      intro x6
      have hx6 : Keeps s0 x6 := Keeps.other h0 rfl rfl rfl rfl
      clear_value x6
      intro x7
      have hx7 : Keeps s0 x7 := addDepth_ok hx6
      clear_value x7
      intro x8
      have hx8 : Keeps s0 x8 := forEach_ok hx7 (fun a9 t10 ht10 => Keeps.ite (set_ok (set_ok ht10 rfl) rfl) ht10)
      clear_value x8
      exact leafTidy_ok (updFrame_ok hx8)

theorem headDrop_ok {a0 : State} {a1 : Nat} (h0 : Keeps s0 a0) : KeepsO s0 (State.headDrop a0 a1) := by
  unfold State.headDrop
  split
  · exact KeepsO.none
  · lift_lets -underBinder +implicits
    intro x1
    intro x2
    intro x3
    exact ite_of (Q := KeepsO s0) (ite_of (Q := KeepsO s0) (KeepsO.some (endFrame_ok (inc_ok (dequeue_ok h0) rfl)))
        KeepsO.none) (ite_of (Q := KeepsO s0) (KeepsO.some (endFrame_ok (inc_ok (dequeue_ok h0) rfl))) KeepsO.none)

theorem dropHeads_ok {a0 a1 : Nat} {a2 : State} (h2 : Keeps s0 a2) : Keeps s0 (dropHeads a0 a1 a2) := by
  induction a1 generalizing a2 with
  | zero => exact h2
  | succ n ih =>
    unfold dropHeads
    split
    · next t heq => exact ih ((headDrop_ok h2 : KeepsO s0 _) _ heq)
    · exact h2

theorem select_ok {a0 : State} {a1 : Nat} (h0 : Keeps s0 a0) : KeepsS s0 (State.select a0 a1) := by
  unfold State.select
  lift_lets -underBinder +implicits
  intro x0
  intro x1
  intro x2
  have hx2 : Keeps s0 x2 := forEach_ok h0 (fun a3 t4 ht4 => dropHeads_ok ht4)
  clear_value x2
  intro x5
  have hx5 : Keeps s0 x5 := forEach_ok hx2 (fun a6 t7 ht7 => refillPath_ok ht7)
  clear_value x5
  intro x8
  have hx8 : Keeps s0 x8 := pmu_ok hx5
  clear_value x8
  exact pickMac_ok hx8

end Sys2Proof.Laws
end

