-- ==== Sys2Proof/Laws/KeepsEgressOps.lean ====
section
/-! SUPPORT. Sys2Proof/Laws/KeepsEgressOps.lean: `Keeps` of each operation of Machine/EgressOps.lean. -/

namespace Sys2Proof.Laws

open Sys2Proof.Machine

variable {s0 : Base}

theorem macOut_ok {a0 : State} {a1 : Nat} {a2 : Nat} (h0 : Keeps s0 a0) : KeepsS s0 (State.macOut a0 a1 a2) := by
  unfold State.macOut
  lift_lets -underBinder +implicits
  intro x0
  intro x1
  intro x2
  intro x3
  intro x4
  intro x5
  intro x6
  intro x7
  have hx7 : Keeps s0 x7 := Keeps.ite (inc_ok h0 rfl) h0
  clear_value x7
  intro x8
  intro x9
  have hx9 : Keeps s0 x9 := Keeps.ite (cnt_ok hx7) hx7
  clear_value x9
  exact KeepsS.of hx9

theorem startTx_ok {a0 : State} {a1 : Nat} {a2 : Nat} {a3 : Nat} (h0 : Keeps s0 a0) : Keeps s0 (State.startTx a0 a1 a2
    a3) := by
  unfold State.startTx
  refine Keeps.ite (updFrame_ok (set_ok h0 rfl)) ?_
  split
  · next g heq =>
    refine endFrame_ok ?_
    revert heq
    unfold State.egressDrop
    split
    · intro e; cases e; exact cnt_ok h0
    · split
      · intro e; cases e; exact lcnt_ok h0
      · intro e; cases e
  · exact updFrame_ok (set_ok (KeepsS.to (macOut_ok (Keeps.ite (cnt_ok h0) h0))) rfl)

end Sys2Proof.Laws
end

