-- ==== Sys2Proof/Laws/KeepsRxOps.lean ====
section
/-! SUPPORT. Sys2Proof/Laws/KeepsRxOps.lean: `Keeps` of each operation of Machine/RxOps.lean. -/

namespace Sys2Proof.Laws

open Sys2Proof.Machine

variable {s0 : Base}

theorem returnBuffers_ok {a0 : State} {a1 : Nat} (h0 : Keeps s0 a0) : Keeps s0 (State.returnBuffers a0 a1) := by
  unfold State.returnBuffers
  exact Keeps.ite (forEach_ok h0 (fun a0 t1 ht1 => finish_ok ht1)) h0

theorem rxPop_ok {a0 : State} {a1 : Nat} (h0 : Keeps s0 a0) : Keeps s0 (State.rxPop a0 a1) := by
  unfold State.rxPop
  lift_lets -underBinder +implicits
  intro x0
  have hx0 : Keeps s0 x0 := put_ok h0 rfl
  clear_value x0
  exact Keeps.other hx0 rfl rfl rfl rfl

theorem fillBuffer_ok {a0 : State} {a1 : Nat} {a2 : Nat} {a3 : Ent} (h0 : Keeps s0 a0) : Keeps s0 (State.fillBuffer a0
    a1 a2 a3) := by
  unfold State.fillBuffer
  lift_lets -underBinder +implicits
  intro x0
  intro x1
  intro x2
  intro x3
  have hx3 : Keeps s0 x3 := hostWrite_ok h0
  clear_value x3
  intro x4
  have hx4 : Keeps s0 x4 := complete_ok hx3
  clear_value x4
  exact Keeps.ite (put_ok (updFrame_ok hx4) rfl) (endFrame_ok (rxPop_ok hx4))

theorem rxPump_ok {a0 a1 : Nat} {a2 : State} (h2 : Keeps s0 a2) : Keeps s0 (rxPump a0 a1 a2) := by
  induction a1 generalizing a2 with
  | zero => exact h2
  | succ n ih =>
    unfold rxPump
    split
    · exact h2
    · refine Keeps.ite (ih (endFrame_ok (inc_ok (rxPop_ok h2) rfl))) (Keeps.ite h2 ?_)
      split
      · exact h2
      · exact ih (fillBuffer_ok h2)

theorem pump_ok {a0 : State} {a1 : Nat} (h0 : Keeps s0 a0) : Keeps s0 (State.pump a0 a1) := by
  unfold State.pump
  lift_lets -underBinder +implicits
  intro x0
  have hx0 : Keeps s0 x0 := rxPump_ok h0
  clear_value x0
  exact Keeps.ite (returnBuffers_ok hx0) hx0

theorem deliver_ok {a0 : State} {a1 : Nat} {a2 : Nat} (h0 : Keeps s0 a0) : Keeps s0 (State.deliver a0 a1 a2) := by
  unfold State.deliver
  lift_lets -underBinder +implicits
  intro x0
  intro x1
  have hx1 : Keeps s0 x1 := updFrame_ok h0
  clear_value x1
  exact pump_ok (Keeps.other hx1 rfl rfl rfl rfl)

theorem flushCoal_ok {a0 : State} {a1 : Coal} (h0 : Keeps s0 a0) : Keeps s0 (State.flushCoal a0 a1) := by
  unfold State.flushCoal
  lift_lets -underBinder +implicits
  intro x0
  have hx0 : Keeps s0 x0 := Keeps.other h0 rfl rfl rfl rfl
  clear_value x0
  exact deliver_ok (updFrame_ok hx0)

theorem flushCoalQ_ok {a0 : State} {a1 : Nat} (h0 : Keeps s0 a0) : Keeps s0 (State.flushCoalQ a0 a1) := by
  unfold State.flushCoalQ
  exact forEach_ok h0 (fun a0 t1 ht1 => flushCoal_ok ht1)

end Sys2Proof.Laws
end

