-- ==== Sys2Proof/Laws/KeepsTimeOps.lean ====
section
/-! SUPPORT. Sys2Proof/Laws/KeepsTimeOps.lean: `Keeps` of each operation of Machine/TimeOps.lean. -/

namespace Sys2Proof.Laws

open Sys2Proof.Machine

variable {s0 : Base}

theorem mtIrq_ok {a0 : State} {a1 : Nat} (h0 : Keeps s0 a0) : Keeps s0 (State.mtIrq a0 a1) := by
  unfold State.mtIrq
  exact Keeps.ite (Keeps.ite (raiseVec_ok h0) h0) h0

theorem mtRefuse_ok {a0 : State} (h0 : Keeps s0 a0) : Keeps s0 (State.mtRefuse a0) := by
  unfold State.mtRefuse
  exact put_ok h0 rfl

theorem dropSlew_ok {a0 : State} (h0 : Keeps s0 a0) : Keeps s0 (State.dropSlew a0) := by
  unfold State.dropSlew
  exact put_ok (put_ok (set_ok h0 rfl) rfl) rfl

theorem enterDrift_ok {a0 : State} {a1 : Nat} (h0 : Keeps s0 a0) : Keeps s0 (State.enterDrift a0 a1) := by
  unfold State.enterDrift
  lift_lets -underBinder +implicits
  intro x0
  intro x1
  intro x2
  have hx2 : Keeps s0 x2 := Keeps.ite (put_ok h0 rfl) h0
  clear_value x2
  intro x3
  have hx3 : Keeps s0 x3 := set_ok hx2 rfl
  clear_value x3
  intro x4
  have hx4 : Keeps s0 x4 := dropSlew_ok (put_ok hx3 rfl)
  clear_value x4
  exact Keeps.ite (set_ok (set_ok hx4 rfl) rfl) hx4

theorem trigEnd_ok {a0 : State} {a1 : Nat} {a2 : Nat} {a3 : Nat} (h0 : Keeps s0 a0) : Keeps s0 (State.trigEnd a0 a1 a2
    a3) := by
  unfold State.trigEnd
  lift_lets -underBinder +implicits
  intro x0
  intro x1
  have hx1 : Keeps s0 x1 := put_ok (put_ok (put_ok h0 rfl) rfl) rfl
  clear_value x1
  intro x2
  have hx2 : Keeps s0 x2 := set_ok (put_ok hx1 rfl) rfl
  clear_value x2
  intro x3
  have hx3 : Keeps s0 x3 := set_ok (put_ok hx2 rfl) rfl
  clear_value x3
  exact Keeps.ite (Keeps.ite hx2 (Keeps.other hx2 rfl rfl rfl rfl)) (mtIrq_ok hx3)

theorem endTrigs_ok {a0 : State} {a1 : Nat} (h0 : Keeps s0 a0) : Keeps s0 (State.endTrigs a0 a1) := by
  unfold State.endTrigs
  exact forEach_ok h0 (fun a0 t1 ht1 => trigEnd_ok ht1)

theorem slotTrig_ok {a0 : State} {a1 : Nat} {a2 : Nat} {a3 : Bool} (h0 : Keeps s0 a0) : Keeps s0 (State.slotTrig a0 a1
    a2 a3) := by
  unfold State.slotTrig
  exact Keeps.ite (put_ok h0 rfl) (Keeps.ite h0 (put_ok (set_ok h0 rfl) rfl))

theorem trigLoad_ok {a0 : State} {a1 : Nat} {a2 : Nat} {a3 : Nat} {a4 : Nat} {a5 : Nat} {a6 : Nat} (h0 : Keeps s0 a0)
    : Keeps s0 (State.trigLoad a0 a1 a2 a3 a4 a5 a6) := by
  unfold State.trigLoad
  lift_lets -underBinder +implicits
  intro x0
  have hx0 : Keeps s0 x0 := set_ok (set_ok (set_ok (set_ok (set_ok h0 rfl) rfl) rfl) rfl) rfl
  clear_value x0
  intro x1
  have hx1 : Keeps s0 x1 := put_ok (put_ok (put_ok hx0 rfl) rfl) rfl
  clear_value x1
  intro x2
  have hx2 : Keeps s0 x2 := set_ok hx1 rfl
  clear_value x2
  split
  · exact rearm_ok hx2
  · exact hx2

theorem sendTrg_ok {a0 : State} {a1 : Nat} (h0 : Keeps s0 a0) : Keeps s0 (State.sendTrg a0 a1) := by
  unfold State.sendTrg
  lift_lets -underBinder +implicits
  intro x0
  intro x1
  intro x2
  have hx2 : Keeps s0 x2 := pmu_ok (put_ok h0 rfl)
  clear_value x2
  exact Keeps.ite (Keeps.ite (sendOwn_ok hx2) hx2) h0

theorem disarm_ok {a0 : State} {a1 : Nat} (h0 : Keeps s0 a0) : Keeps s0 (State.disarm a0 a1) := by
  unfold State.disarm
  exact Keeps.ite h0 (trigEnd_ok h0)

theorem capture_ok {a0 : State} {a1 : Nat} {a2 : Nat} {a3 : Bool} (h0 : Keeps s0 a0) : Keeps s0 (State.capture a0 a1
    a2 a3) := by
  unfold State.capture
  lift_lets -underBinder +implicits
  intro x0
  have hx0 : Keeps s0 x0 := pmu_ok h0
  clear_value x0
  intro x1
  have hx1 : Keeps s0 x1 := put_ok hx0 rfl
  clear_value x1
  intro x2
  have hx2 : Keeps s0 x2 := set_ok (set_ok hx0 rfl) rfl
  clear_value x2
  intro x3
  have hx3 : Keeps s0 x3 := put_ok (put_ok hx2 rfl) rfl
  clear_value x3
  intro x4
  have hx4 : Keeps s0 x4 := mtIrq_ok hx3
  clear_value x4
  refine Keeps.ite (set_ok hx1 rfl) ?_
  split
  · exact raiseEv_ok hx4
  · exact hx4

theorem edgeOn_ok {a0 : State} {a1 : Nat} {a2 : Nat} {a3 : Bool} (h0 : Keeps s0 a0) : Keeps s0 (State.edgeOn a0 a1 a2
    a3) := by
  unfold State.edgeOn
  lift_lets -underBinder +implicits
  intro x0
  exact Keeps.ite h0 (forEach_ok h0 (fun a1 t2 ht2 => Keeps.ite (capture_ok ht2) ht2))

theorem drivePps_ok {a0 : State} {a1 : Bool} {a2 : Nat} (h0 : Keeps s0 a0) : Keeps s0 (State.drivePps a0 a1 a2) := by
  unfold State.drivePps
  exact Keeps.ite h0 (edgeOn_ok (put_ok h0 rfl))

theorem tickTrigs_ok {a0 : State} {a1 : Nat} {a2 : Bool} (h0 : Keeps s0 a0) : Keeps s0 (State.tickTrigs a0 a1 a2) := by
  unfold State.tickTrigs
  exact forEach_ok h0 (fun a0 t1 ht1 => Keeps.ite (set_ok (set_ok ht1 rfl) rfl) ht1)

theorem addTime_ok {a0 : State} {a1 : Int} [Moves s0] (h0 : Keeps s0 a0) : Keeps s0 (State.addTime a0 a1) := by
  unfold State.addTime
  lift_lets -underBinder +implicits
  intro x0
  exact set_ok (now_ok h0) rfl

theorem slewTake_ok {a0 : State} {a1 : Nat} (h0 : Keeps s0 a0) : Keeps s0 (State.slewTake a0 a1) := by
  unfold State.slewTake
  lift_lets -underBinder +implicits
  intro x0
  exact Keeps.ite (Keeps.ite (dropSlew_ok h0) (set_ok h0 rfl)) h0

theorem tickDrift_ok {a0 : State} (h0 : Keeps s0 a0) : Keeps s0 (State.tickDrift a0) := by
  unfold State.tickDrift
  exact Keeps.ite (Keeps.ite (set_ok (set_ok h0 rfl) rfl) (inc_ok h0 rfl)) h0

theorem tickCores_ok {a0 : State} (h0 : Keeps s0 a0) : Keeps s0 (State.tickCores a0) := by
  unfold State.tickCores
  exact Keeps.ite (forEach_ok h0 (fun a0 t1 ht1 => add_ok ht1 rfl)) h0

theorem ticked_ok {a0 : State} (h0 : Keeps s0 a0) : Keeps s0 (State.ticked a0) := by
  unfold State.ticked
  lift_lets -underBinder +implicits
  intro x0
  have hx0 : Keeps s0 x0 := forEach_mem (P := fun f => Plain f) h0 (by decide) (fun a1 t2 ha1 ht2 => put_ok ht2 ha1)
  clear_value x0
  exact inc_ok (put_ok (put_ok hx0 rfl) rfl) rfl

theorem ppsWrap_ok {a0 : State} {a1 : Nat} (h0 : Keeps s0 a0) : Keeps s0 (State.ppsWrap a0 a1) := by
  unfold State.ppsWrap
  exact Keeps.ite (set_ok h0 rfl) h0

theorem advance_ok {a0 : State} [Moves s0] (h0 : Keeps s0 a0) : Keeps s0 (State.advance a0) := by
  unfold State.advance
  lift_lets -underBinder +implicits
  intro x0
  have hx0 : Keeps s0 x0 := tickCores_ok h0
  clear_value x0
  intro x1
  intro x2
  intro x3
  intro x4
  intro x5
  intro x6
  have hx6 : Keeps s0 x6 := tickDrift_ok (slewTake_ok (addTime_ok hx0))
  clear_value x6
  intro x7
  have hx7 : Keeps s0 x7 := ppsWrap_ok (ticked_ok hx6)
  clear_value x7
  intro x8
  intro x9
  intro x10
  have hx10 : Keeps s0 x10 := put_ok (put_ok (addTime_ok hx7) rfl) rfl
  clear_value x10
  intro x11
  have hx11 : Keeps s0 x11 := Keeps.ite (set_ok hx10 rfl) (ppsWrap_ok hx10)
  clear_value x11
  exact Keeps.ite h0 (Keeps.ite (Keeps.ite (put_ok (endTrigs_ok hx11) rfl) (tickTrigs_ok hx11)) (tickTrigs_ok hx7))

end Sys2Proof.Laws
end

