-- ==== Sys2Proof/Laws/KeepsFaultOps.lean ====
section
/-! SUPPORT. Sys2Proof/Laws/KeepsFaultOps.lean: `Keeps` of each operation of Machine/FaultOps.lean. -/

namespace Sys2Proof.Laws

open Sys2Proof.Machine

variable {s0 : Base}

theorem unlist_ok {a0 : State} {a1 : Nat} (h0 : Keeps s0 a0) : Keeps s0 (State.unlist a0 a1) := by
  unfold State.unlist
  lift_lets -underBinder +implicits
  intro x0
  intro x1
  intro x2
  have hx2 : Keeps s0 x2 := by
    unfold x2
    split
    · exact addDepth_ok h0
    · exact Keeps.ite (set_ok h0 rfl) h0
    · exact set_ok h0 rfl
    · exact h0
  clear_value x2
  intro x6
  have hx6 : Keeps s0 x6 := Keeps.other hx2 rfl rfl rfl rfl
  clear_value x6
  clear_value x0
  split
  · exact leafTidy_ok hx6
  · exact hx6

theorem dropFrame_ok {a0 : State} {a1 : Nat} {a2 : Nat} (h0 : Keeps s0 a0) : Keeps s0 (State.dropFrame a0 a1 a2) := by
  unfold State.dropFrame
  exact endFrame_ok (unlist_ok (Keeps.other h0 rfl rfl rfl rfl))

theorem dropRx_ok {a0 : State} {a1 : Nat} (h0 : Keeps s0 a0) : Keeps s0 (State.dropRx a0 a1) := by
  unfold State.dropRx
  lift_lets -underBinder +implicits
  intro x0
  exact forEach_ok (put_ok h0 rfl) (fun a1 t2 ht2 => dropFrame_ok (inc_ok ht2 rfl))

theorem unsend_ok {a0 : State} {a1 : Nat} (h0 : Keeps s0 a0) : Keeps s0 (State.unsend a0 a1) := by
  unfold State.unsend
  exact forEach_ok h0 (fun a0 t1 ht1 => freeFrame_ok ht1)

theorem detachQ_ok {a0 : State} {a1 : Nat} (h0 : Keeps s0 a0) : Keeps s0 (State.detachQ a0 a1) := by
  unfold State.detachQ
  lift_lets -underBinder +implicits
  intro x0
  have hx0 : Keeps s0 x0 := dropRx_ok h0
  clear_value x0
  intro x1
  have hx1 : Keeps s0 x1 := Keeps.other hx0 rfl rfl rfl rfl
  clear_value x1
  exact unsend_ok hx1

theorem dmaCutQ_ok {a0 : State} {a1 : Nat} (h0 : Keeps s0 a0) : Keeps s0 (State.dmaCutQ a0 a1) := by
  unfold State.dmaCutQ
  exact forEach_ok h0 (fun a0 t1 ht1 => dmaCut_ok ht1)

theorem ownStatus_ok {a0 : State} {a1 : Nat} {a2 : Ent} {a3 : Ent → Nat → State → State} (h0 : Keeps s0 a0) (h3 : ∀
    z0, ∀ z1, ∀ z2, Keeps s0 z2 → Keeps s0 (a3 z0 z1 z2)) : Keeps s0 (State.ownStatus a0 a1 a2 a3) := by
  unfold State.ownStatus
  exact Keeps.ite (dropEnt_ok h0) (h3 _ _ _ h0)

theorem passedOut_ok {a0 : State} {a1 : Nat} {a2 : Ent → Nat → State → State} (h0 : Keeps s0 a0) (h2 : ∀ z0, ∀ z1, ∀
    z2, Keeps s0 z2 → Keeps s0 (a2 z0 z1 z2)) : Keeps s0 (State.passedOut a0 a1 a2) := by
  unfold State.passedOut
  exact forEach_ok (Keeps.other h0 rfl rfl rfl rfl) (fun a0 t1 ht1 => h2 _ _ _ ht1)

theorem quarEvents_ok {a0 : State} {a1 : Nat} (h0 : Keeps s0 a0) : Keeps s0 (State.quarEvents a0 a1) := by
  unfold State.quarEvents
  lift_lets -underBinder +implicits
  intro x0
  intro x1
  have hx1 : ∀ y2, ∀ y3, ∀ y4, Keeps s0 y4 → Keeps s0 (x1 y2 y3 y4) := by
    intro y2 y3 y4 hy4
    exact quarRecord_ok hy4
  clear_value x1
  intro x5
  have hx5 : Keeps s0 x5 := passedOut_ok h0 (fun y6 y7 y8 hy8 => hx1 _ _ _ hy8)
  clear_value x5
  intro x9
  have hx9 : Keeps s0 x9 := by
    unfold x9
    refine forEach_ok hx5 (fun a10 t11 ht11 => ?_)
    split
    · exact unhold_ok ht11
    · exact Keeps.ite (ownStatus_ok ht11 (fun y13 y14 y15 hy15 => hx1 _ _ _ hy15)) (Keeps.ite ht11 (finish_ok ht11))
  clear_value x9
  exact detachQ_ok (dmaCutQ_ok hx9)

theorem quarQueue_ok {a0 : State} {a1 : Nat} {a2 : Nat} (h0 : Keeps s0 a0) : Keeps s0 (State.quarQueue a0 a1 a2) := by
  unfold State.quarQueue
  lift_lets -underBinder +implicits
  intro x0
  intro x1
  have hx1 : Keeps s0 x1 := set_ok (put_ok h0 rfl) rfl
  clear_value x1
  intro x2
  have hx2 : Keeps s0 x2 := Keeps.ite (queueError_ok hx1) hx1
  clear_value x2
  exact Keeps.ite h0 (quarEvents_ok hx2)

theorem quarRing_ok {a0 : State} {a1 : Nat} (h0 : Keeps s0 a0) : Keeps s0 (State.quarRing a0 a1) := by
  unfold State.quarRing
  exact Keeps.ite h0 (forEach_ok (put_ok h0 rfl) (fun a0 t1 ht1 => quarQueue_ok ht1))

theorem quarFn_ok {a0 : State} {a1 : Nat} (h0 : Keeps s0 a0) : Keeps s0 (State.quarFn a0 a1) := by
  unfold State.quarFn
  lift_lets -underBinder +implicits
  intro x0
  have hx0 : Keeps s0 x0 := put_ok (put_ok h0 rfl) rfl
  clear_value x0
  refine Keeps.ite h0 ?_
  refine forEach_ok hx0 (fun a1 t2 ht2 => ?_)
  lift_lets -underBinder +implicits
  intro x3
  have hx3 : Keeps s0 x3 := discardFetched_ok ht2
  clear_value x3
  intro x4
  have hx4 : Keeps s0 x4 := forEach_ok hx3 (fun a5 t6 ht6 => Keeps.ite ht6 (finish_ok ht6))
  clear_value x4
  exact detachQ_ok (dmaCutQ_ok hx4)

theorem quarPort_ok {a0 : State} {a1 : Nat} (h0 : Keeps s0 a0) : Keeps s0 (State.quarPort a0 a1) := by
  unfold State.quarPort
  exact linkDown_ok (put_ok h0 rfl)

theorem quarLane_ok {a0 : State} {a1 : Nat} (h0 : Keeps s0 a0) : Keeps s0 (State.quarLane a0 a1) := by
  unfold State.quarLane
  lift_lets -underBinder +implicits
  intro x0
  intro x1
  have hx1 : Keeps s0 x1 := laneFail_ok h0
  clear_value x1
  clear_value x0
  split
  · exact dropFrame_ok hx1
  · exact hx1

theorem quarEngine_ok {a0 : State} {a1 : Nat} (h0 : Keeps s0 a0) : Keeps s0 (State.quarEngine a0 a1) := by
  unfold State.quarEngine
  exact Keeps.ite h0 (forEach_ok (put_ok h0 rfl) (fun a0 t1 ht1 => Keeps.ite ht1 (dmaCut_ok ht1)))

theorem quarFrame_ok {a0 : State} {a1 : Nat} (h0 : Keeps s0 a0) : Keeps s0 (State.quarFrame a0 a1) := by
  unfold State.quarFrame
  split
  · exact h0
  · split
    · exact h0
    · exact h0
    · exact dropFrame_ok (inc_ok h0 rfl)

theorem slotFaulted_ok {a0 : State} {a1 : Nat} (h0 : Keeps s0 a0) : Keeps s0 (State.slotFaulted a0 a1) := by
  unfold State.slotFaulted
  exact Keeps.ite (slotOff_ok h0) h0

theorem quarantine_ok {a0 : State} {a1 : Nat} {a2 : Nat} (h0 : Keeps s0 a0) : Keeps s0 (State.quarantine a0 a1 a2) := by
  unfold State.quarantine
  split
  · exact Keeps.ite (badFlow_ok h0) (badEntry_ok h0)
  · exact quarFrame_ok h0
  · exact quarQueue_ok h0
  · exact quarRing_ok h0
  · exact Keeps.ite (quarFn_ok h0) h0
  · exact quarPort_ok h0
  · exact quarLane_ok h0
  · exact quarEngine_ok h0
  · exact slotFaulted_ok h0
  · exact h0

theorem beginFlush_ok {a0 : State} {a1 : Nat} (h0 : Keeps s0 a0) : Keeps s0 (State.beginFlush a0 a1) := by
  unfold State.beginFlush
  exact Keeps.ite h0 (set_ok (put_ok h0 rfl) rfl)

theorem woRecord_ok {a0 : State} {a1 : Nat} {a2 : Nat} {a3 : Nat} (h0 : Keeps s0 a0) : Keeps s0 (State.woRecord a0 a1
    a2 a3) := by
  unfold State.woRecord
  lift_lets -underBinder +implicits
  intro x0
  have hx0 : Keeps s0 x0 := put_ok (put_ok (put_ok h0 rfl) rfl) rfl
  clear_value x0
  intro x1
  have hx1 : Keeps s0 x1 := set_ok (set_ok (set_ok hx0 rfl) rfl) rfl
  clear_value x1
  exact set_ok (set_ok hx1 rfl) rfl

theorem woLater_ok {a0 : State} {a1 : Nat} (h0 : Keeps s0 a0) : Keeps s0 (State.woLater a0 a1) := by
  unfold State.woLater
  exact Keeps.ite (set_ok h0 rfl) h0

theorem woJoin_ok {a0 : State} {a1 : Nat} {a2 : Nat} (h0 : Keeps s0 a0) : Keeps s0 (State.woJoin a0 a1 a2) := by
  unfold State.woJoin
  lift_lets -underBinder +implicits
  intro x0
  intro x1
  have hx1 : Keeps s0 x1 := put_ok h0 rfl
  clear_value x1
  exact Keeps.ite (set_ok (set_ok hx1 rfl) rfl) hx1

theorem discardAll_ok {a0 : State} (h0 : Keeps s0 a0) : Keeps s0 (State.discardAll a0) := by
  unfold State.discardAll
  exact forEach_ok h0 (fun a0 t1 ht1 => discardFetched_ok ht1)

theorem endDebug_ok {a0 : State} (h0 : Keeps s0 a0) : Keeps s0 (State.endDebug a0) := by
  unfold State.endDebug
  exact resetAll_ok (set_ok (put_ok h0 rfl) rfl) rfl

theorem whiteoutOutputs_ok {a0 : State} (h0 : Keeps s0 a0) : Keeps s0 (State.whiteoutOutputs a0) := by
  unfold State.whiteoutOutputs
  lift_lets -underBinder +implicits
  intro x0
  have hx0 : Keeps s0 x0 := discardAll_ok h0
  clear_value x0
  intro x1
  have hx1 : Keeps s0 x1 := forEach_ok hx0 (fun a2 t3 ht3 => aer_ok ht3)
  clear_value x1
  intro x4
  have hx4 : Keeps s0 x4 := Keeps.other hx1 rfl rfl rfl rfl
  clear_value x4
  intro x5
  have hx5 : Keeps s0 x5 := forEach_ok hx4 (fun a6 t7 ht7 => slotSeq_ok (put_ok (slotRst_ok ht7) rfl))
  clear_value x5
  intro x8
  have hx8 : Keeps s0 x8 := put_ok hx5 rfl
  clear_value x8
  intro x9
  have hx9 : Keeps s0 x9 := endTrigs_ok (put_ok (Keeps.other hx8 rfl rfl rfl rfl) rfl)
  clear_value x9
  intro x10
  have hx10 : Keeps s0 x10 := forEach_ok (endDebug_ok hx9) (fun a11 t12 ht12 => setCh_ok ht12 (fun _ => by decide))
  clear_value x10
  intro x13
  have hx13 : Keeps s0 x13 := put_ok (Keeps.ite (twinSend_ok hx10) hx10) rfl
  clear_value x13
  intro x14
  have hx14 : Keeps s0 x14 := Keeps.other hx13 rfl rfl rfl rfl
  clear_value x14
  intro x15
  have hx15 : Keeps s0 x15 := put_ok (set_mode hx14 (fun _ => by decide)) rfl
  clear_value x15
  intro x16
  have hx16 : Keeps s0 x16 := put_ok (put_ok hx15 rfl) rfl
  clear_value x16
  intro x17
  have hx17 : Keeps s0 x17 := Keeps.other hx16 rfl rfl rfl rfl
  clear_value x17
  exact enterDrift_ok (zeroLink_ok (zeroAll_ok hx17))

theorem enterWhiteout_ok {a0 : State} {a1 : Nat} {a2 : Nat} (h0 : Keeps s0 a0) : Keeps s0 (State.enterWhiteout a0 a1
    a2) := by
  unfold State.enterWhiteout
  refine Keeps.ite (Keeps.ite (woJoin_ok h0) (woLater_ok h0)) ?_
  split
  · exact h0
  · next hc =>
    have hg : a0.dev ≠ dsAonOnly ∧ a0.dev ≠ 0 := by simpa using hc
    lift_lets -underBinder +implicits
    intro x0
    refine Keeps.ite (whiteout_ok (woLater_ok h0) (fun hw => ?_)) (whiteout_ok (whiteoutOutputs_ok (beginFlush_ok
        (set_ok (woRecord_ok h0) rfl)))
      (fun hw => ?_))
    · exact dev_kept (fun b h => woLater_ok h) hg (h0.form hw)
    · exact dev_kept (fun b h => whiteoutOutputs_ok (beginFlush_ok (set_ok (woRecord_ok h) rfl))) hg (h0.form hw)

theorem powerWarn_ok {a0 : State} {a1 : Nat} (h0 : Keeps s0 a0) : Keeps s0 (State.powerWarn a0 a1) := by
  unfold State.powerWarn
  lift_lets -underBinder +implicits
  intro x0
  have hx0 : Keeps s0 x0 := beginFlush_ok (put_ok (put_ok h0 rfl) rfl)
  clear_value x0
  exact Keeps.ite (woLater_ok h0) (Keeps.ite h0 (discardAll_ok (set_ok (set_ok hx0 rfl) rfl)))

theorem fltLogPut_ok {a0 : State} {a1 : List Byte} (h0 : Keeps s0 a0) : Keeps s0 (State.fltLogPut a0 a1) := by
  unfold State.fltLogPut
  exact Keeps.ite (inc_ok h0 rfl) (Keeps.other h0 rfl rfl rfl rfl)

theorem fltIrqs_ok {a0 : State} {a1 : Nat} (h0 : Keeps s0 a0) : Keeps s0 (State.fltIrqs a0 a1) := by
  unfold State.fltIrqs
  lift_lets -underBinder +implicits
  intro x0
  have hx0 : ∀ y1, ∀ y2, ∀ y3, Keeps s0 y3 → Keeps s0 (x0 y1 y2 y3) := by
    intro y1 y2 y3 hy3
    exact Keeps.ite (raiseVec_ok hy3) hy3
  clear_value x0
  exact hx0 _ _ _ (hx0 _ _ _ h0)

theorem fltCount_ok {a0 : State} {a1 : Nat} {a2 : Bool} (h0 : Keeps s0 a0) : Keeps s0 (State.fltCount a0 a1 a2) := by
  unfold State.fltCount
  lift_lets -underBinder +implicits
  intro x0
  have hx0 : Keeps s0 x0 := set_ok (put_ok (put_ok h0 rfl) rfl) rfl
  clear_value x0
  exact Keeps.ite (put_ok hx0 rfl) hx0

theorem detectWith_ok {a0 : State} {a1 : Nat} {a2 : Nat} {a3 : Bool} {a4 : State → State} (h0 : Keeps s0 a0) (h4 : ∀
    z0, Keeps s0 z0 → Keeps s0 (a4 z0)) : Keeps s0 (State.detectWith a0 a1 a2 a3 a4) := by
  unfold State.detectWith
  lift_lets -underBinder +implicits
  intro x0
  intro x1
  intro x2
  intro x3
  have hx3 : Keeps s0 x3 := Keeps.ite h0 (set_ok (fltLogPut_ok (fltCount_ok h0)) rfl)
  clear_value x3
  intro x4
  have hx4 : Keeps s0 x4 := Keeps.ite (pmu_ok hx3) hx3
  clear_value x4
  intro x5
  have hx5 : ∀ y6, Keeps s0 y6 → Keeps s0 (x5 y6) := by
    intro y6 hy6
    exact Keeps.ite hy6 (fltIrqs_ok hy6)
  clear_value x5
  intro x7
  have hx7 : Keeps s0 x7 := Keeps.ite (aerCor_ok (aerCor_ok hx4)) (Keeps.ite hx4 (h4 _ hx4))
  clear_value x7
  exact Keeps.ite h0 (Keeps.ite (powerWarn_ok (hx5 _ hx4)) (Keeps.ite (enterWhiteout_ok hx4) (hx5 _ hx7)))

theorem detect_ok {a0 : State} {a1 : Nat} {a2 : Nat} {a3 : Bool} (h0 : Keeps s0 a0) : Keeps s0 (State.detect a0 a1 a2
    a3) := by
  unfold State.detect
  exact detectWith_ok h0 (fun y0 hy0 => quarantine_ok hy0)

theorem foundBad_ok {a0 : State} {a1 : BadEntry} {a2 : Nat} {a3 : Nat} (h0 : Keeps s0 a0) : Keeps s0 (State.foundBad
    a0 a1 a2 a3) := by
  unfold State.foundBad
  exact detectWith_ok h0 (fun y0 hy0 => badEntry_ok hy0)

theorem foundBadFlow_ok {a0 : State} {a1 : Nat} (h0 : Keeps s0 a0) : Keeps s0 (State.foundBadFlow a0 a1) := by
  unfold State.foundBadFlow
  exact detect_ok h0

theorem foundBadFlows_ok {a0 : State} {a1 : List Nat} (h0 : Keeps s0 a0) : Keeps s0 (State.foundBadFlows a0 a1) := by
  unfold State.foundBadFlows
  exact forEach_ok h0 (fun a0 t1 ht1 => foundBadFlow_ok ht1)

theorem foundBads_ok {a0 : State} {a1 : BadEntry} {a2 : Nat} {a3 : List Nat} (h0 : Keeps s0 a0) : Keeps s0
    (State.foundBads a0 a1 a2 a3) := by
  unfold State.foundBads
  exact forEach_ok h0 (fun a0 t1 ht1 => foundBad_ok ht1)

end Sys2Proof.Laws
end

