-- ==== Sys2Proof/Laws/KeepsOffloadOps.lean ====
section
/-! SUPPORT. Sys2Proof/Laws/KeepsOffloadOps.lean: `Keeps` of each operation of Machine/OffloadOps.lean. -/

namespace Sys2Proof.Laws

open Sys2Proof.Machine

variable {s0 : Base}

theorem oflEvent_ok {a0 : State} {a1 : Nat} {a2 : Nat} (h0 : Keeps s0 a0) : Keeps s0 (State.oflEvent a0 a1 a2) := by
  unfold State.oflEvent
  exact Keeps.ite (inc_ok h0 rfl) (Keeps.other h0 rfl rfl rfl rfl)

theorem oflCnt_ok {a0 : State} {a1 : Nat} (h0 : Keeps s0 a0) : Keeps s0 (State.oflCnt a0 a1) := by
  unfold State.oflCnt
  exact inc_ok h0 rfl

theorem toStage_ok {a0 : State} {a1 : Nat} {a2 : Nat} (h0 : Keeps s0 a0) : Keeps s0 (State.toStage a0 a1 a2) := by
  unfold State.toStage
  lift_lets -underBinder +implicits
  intro x0
  have hx0 : Keeps s0 x0 := updFrame_ok h0
  clear_value x0
  exact Keeps.ite (Keeps.other hx0 rfl rfl rfl rfl) (enqueue_ok (updFrame_ok h0))

theorem egPop_ok {a0 : State} {a1 : Nat} (h0 : Keeps s0 a0) : Keeps s0 (State.egPop a0 a1) := by
  unfold State.egPop
  exact Keeps.other h0 rfl rfl rfl rfl

theorem stageEnd_ok {a0 : State} {a1 : Nat} {a2 : Nat} (h0 : Keeps s0 a0) : Keeps s0 (State.stageEnd a0 a1 a2) := by
  unfold State.stageEnd
  split
  · exact forEach_ok (egPop_ok h0) (fun a1 t2 ht2 => endFrame_ok ht2)
  · exact endFrame_ok (set_ok h0 rfl)
  · exact endFrame_ok h0

theorem noHeader_ok {a0 : State} {a1 : Nat} (h0 : Keeps s0 a0) : Keeps s0 (State.noHeader a0 a1) := by
  unfold State.noHeader
  exact stageEnd_ok (oflCnt_ok h0)

theorem splitFrame_ok {a0 : State} {a1 : Nat} {a2 : Nat} {a3 : List (List Byte)} {a4 : Nat} {a5 : Nat} {a6 : Nat} (h0
    : Keeps s0 a0) : Keeps s0 (State.splitFrame a0 a1 a2 a3 a4 a5 a6) := by
  unfold State.splitFrame
  lift_lets -underBinder +implicits
  intro x0
  intro x1
  intro x2
  have hx2 : KeepsF s0 x2 := foldl_of (Q := KeepsF s0) (KeepsF.of h0) (fun t4 a3 ht4 => KeepsF.of (newFrame_ok
      (KeepsF.to ht4)))
  clear_value x2
  intro x5
  have hx5 : Keeps s0 x5 := updFrame_ok (KeepsF.to hx2)
  clear_value x5
  intro x6
  have hx6 : Keeps s0 x6 := Keeps.ite (pmu_ok hx5) hx5
  clear_value x6
  exact Keeps.other hx6 rfl rfl rfl rfl

theorem stepEncap_ok {a0 : State} {a1 : Frame} {a2 : List (List Byte)} (h0 : Keeps s0 a0) :
    KeepsS s0 (State.stepEncap a0 a1 a2) := by
  induction a2 generalizing a0 with
  | nil => exact h0
  | cons b bs ih => unfold State.stepEncap; exact KeepsS.of (KeepsS.to (ih (inc_ok h0 rfl)))

theorem egSteps_ok {a0 : State} {a1 : Nat} {a2 : Nat} (h0 : Keeps s0 a0) : Keeps s0 (State.egSteps a0 a1 a2) := by
  unfold State.egSteps
  lift_lets -underBinder +implicits
  intro x0
  split
  · exact noHeader_ok h0
  · lift_lets -underBinder +implicits
    intro x2
    intro x3
    have hx3 : Keeps s0 x3 := Keeps.ite (oflCnt_ok h0) h0
    clear_value x3
    intro x4
    intro x5
    intro x6
    intro x7
    refine Keeps.ite (noHeader_ok hx3) ?_
    refine Keeps.ite (stageEnd_ok hx3) ?_
    refine Keeps.ite (stageEnd_ok (Keeps.ite (oflCnt_ok hx3) hx3)) ?_
    clear_value x7
    split
    · exact noHeader_ok hx3
    · lift_lets -underBinder +implicits
      intro x9
      have hx9 : KeepsS s0 x9 := ite_of (Q := KeepsS s0) (stepEncap_ok hx3) (KeepsS.of hx3)
      clear_value x9
      exact Keeps.ite (splitFrame_ok (KeepsS.to hx9)) (splitFrame_ok (KeepsS.to hx9))

theorem egPrep_ok {a0 : State} {a1 : Nat} {a2 : Nat} (h0 : Keeps s0 a0) : Keeps s0 (State.egPrep a0 a1 a2) := by
  unfold State.egPrep
  lift_lets -underBinder +implicits
  intro x0
  intro x1
  exact Keeps.ite (stageEnd_ok h0) (Keeps.ite (Keeps.ite (updFrame_ok h0) (Keeps.ite (noHeader_ok h0) (stageEnd_ok
      h0))) (egSteps_ok h0))

theorem egLeave_ok {a0 : State} {a1 : Nat} (h0 : Keeps s0 a0) : Keeps s0 (State.egLeave a0 a1) := by
  unfold State.egLeave
  lift_lets -underBinder +implicits
  intro x0
  exact Keeps.ite (enqueueAll_ok (egPop_ok h0)) h0

theorem rxSteps_ok {a0 : State} {a1 : Nat} {a2 : Nat} (h0 : Keeps s0 a0) : Keeps s0 (State.rxSteps a0 a1 a2) := by
  unfold State.rxSteps
  lift_lets -underBinder +implicits
  intro x0
  intro x1
  have hx1 : Keeps s0 x1 := by
    unfold x1
    refine Keeps.ite ?_ h0
    split
    · exact updFrame_ok h0
    · exact oflCnt_ok h0
  clear_value x1
  intro x5
  refine Keeps.ite hx1 ?_
  split
  · exact hx1
  · lift_lets -underBinder +implicits
    intro x7
    intro x8
    exact updFrame_ok hx1

theorem scatter_ok {a0 : Nat} {a1 : List (Nat × Nat × Bool × Bool)} {a2 : Nat} {a3 : List Byte} {a4 : State}
    (h4 : Keeps s0 a4) : Keeps s0 (scatter a0 a1 a2 a3 a4) := by
  induction a1 generalizing a2 a3 a4 with
  | nil => exact h4
  | cons d ds ih => unfold scatter; exact Keeps.ite h4 (Keeps.ite (ih h4) (ih (hostWrite_ok h4)))

theorem entWrite_ok {a0 : State} {a1 : Nat} {a2 : Ent} {a3 : Nat} {a4 : Nat} {a5 : List Byte} (h0 : Keeps s0 a0) :
    Keeps s0 (State.entWrite a0 a1 a2 a3 a4 a5) := by
  unfold State.entWrite
  exact Keeps.ite (scatter_ok h0) (hostWrite_ok h0)

theorem placeEnd_ok {a0 : State} {a1 : Place} {a2 : Nat} (h0 : Keeps s0 a0) : Keeps s0 (State.placeEnd a0 a1 a2) := by
  unfold State.placeEnd
  exact finish_ok (Keeps.other h0 rfl rfl rfl rfl)

theorem nvLost_ok {a0 : State} {a1 : Nat} (h0 : Keeps s0 a0) : Keeps s0 (State.nvLost a0 a1) := by
  unfold State.nvLost
  lift_lets -underBinder +implicits
  intro x0
  intro x1
  have hx1 : Keeps s0 x1 := wr_ok h0
  clear_value x1
  intro x2
  have hx2 : Keeps s0 x2 := oflEvent_ok (Keeps.other hx1 rfl rfl rfl rfl)
  clear_value x2
  exact forEach_ok hx2 (fun a3 t4 ht4 => placeEnd_ok ht4)

theorem placeData_ok {a0 : State} {a1 : Place} {a2 : Ent} {a3 : Nat} {a4 : List Byte} (h0 : Keeps s0 a0) : Keeps s0
    (State.placeData a0 a1 a2 a3 a4) := by
  unfold State.placeData
  lift_lets -underBinder +implicits
  intro x0
  intro x1
  intro x2
  intro x3
  intro x4
  intro x5
  intro x6
  intro x7
  intro x8
  intro x9
  intro x10
  have hx10 : KeepsS s0 x10 := fetchKey_ok h0
  clear_value x10
  intro x11
  exact Keeps.ite (Keeps.ite h0 (pmu_ok (entWrite_ok (inc_ok (KeepsS.to hx10) rfl)))) (pmu_ok (entWrite_ok h0))

theorem nvGrow_ok {a0 : State} {a1 : Nat} {a2 : Nat} {a3 : List Byte} (h0 : Keeps s0 a0) : KeepsT s0 (State.nvGrow a0
    a1 a2 a3) := by
  unfold State.nvGrow
  refine ite_of (Q := KeepsT s0) (KeepsT.of h0) ?_
  split
  · exact KeepsT.of h0
  · split
    · exact KeepsT.of h0
    · lift_lets -underBinder +implicits
      intro x2
      intro x3
      intro x4
      intro x5
      intro x6
      intro x7
      have hx7 : Keeps s0 x7 := placeData_ok h0
      clear_value x7
      intro x8
      intro x9
      intro x10
      intro x11
      have hx11 : Keeps s0 x11 := Keeps.other hx7 rfl rfl rfl rfl
      clear_value x11
      exact ite_of (Q := KeepsT s0) (KeepsT.of (placeEnd_ok h0)) (ite_of (Q := KeepsT s0) (KeepsT.of (placeEnd_ok h0))
          (ite_of (Q := KeepsT s0) (KeepsT.of (placeEnd_ok hx11)) (KeepsT.of hx11)))

theorem nvFeed_ok {a0 a1 : Nat} {a2 : List Byte} {a3 : Bool × Bool × Bool} {a4 : State} (h4 : Keeps s0 a4) :
    KeepsS s0 (nvFeed a0 a1 a2 a3 a4) := by
  induction a1 generalizing a2 a3 a4 with
  | zero => cases a2 <;> exact h4
  | succ n ih =>
    cases a2 with
    | nil => exact h4
    | cons b bs =>
      simp only [nvFeed]
      refine ite_of (Q := KeepsS s0) (ih (wr_ok h4)) ?_
      refine ite_of (Q := KeepsS s0) (ih (Keeps.other h4 rfl rfl rfl rfl)) ?_
      refine ite_of (Q := KeepsS s0) (KeepsS.of h4) (ite_of (Q := KeepsS s0) (KeepsS.of h4) ?_)
      exact ih (wr_ok (Keeps.other (KeepsT.to (nvGrow_ok h4)) rfl rfl rfl rfl))

theorem nvTrack_ok {a0 : State} {a1 : Nat} {a2 : Nat} (h0 : Keeps s0 a0) : Keeps s0 (State.nvTrack a0 a1 a2) := by
  unfold State.nvTrack
  lift_lets -underBinder +implicits
  intro x0
  intro x1
  intro x2
  refine Keeps.ite h0 ?_
  refine Keeps.ite (oflCnt_ok h0) ?_
  split
  · exact oflCnt_ok h0
  · lift_lets -underBinder +implicits
    intro x7
    have hx7 : Keeps s0 x7 := updFrame_ok h0
    clear_value x7
    intro x8
    refine Keeps.ite hx7 ?_
    refine Keeps.ite ?_ (Keeps.ite hx7 (nvLost_ok hx7))
    split
    · next m9 m10 heq =>
      have hm10 : Keeps s0 m10 := by
        refine KeepsS.eq heq ?_
        exact nvFeed_ok hx7
      lift_lets -underBinder +implicits
      intro x11
      have hx11 : Keeps s0 x11 := updFrame_ok hm10
      clear_value x11
      exact Keeps.ite (nvLost_ok hx11) (wr_ok hx11)

theorem openCoal_ok {a0 : State} {a1 : Nat} {a2 : Nat} {a3 : Nat} {a4 : List Byte} {a5 : Hdrs} {a6 : Nat} (h0 : Keeps
    s0 a0) : Keeps s0 (State.openCoal a0 a1 a2 a3 a4 a5 a6) := by
  unfold State.openCoal
  lift_lets -underBinder +implicits
  intro x0
  intro x1
  intro x2
  have hx2 : Keeps s0 x2 := by
    unfold x2
    refine Keeps.ite ?_ h0
    split
    · exact flushCoal_ok h0
    · exact h0
  clear_value x2
  intro x5
  intro x6
  have hx6 : Keeps s0 x6 := Keeps.other hx2 rfl rfl rfl rfl
  clear_value x6
  exact Keeps.ite (flushCoal_ok hx6) hx6

theorem mergeInto_ok {a0 : State} {a1 : Coal} {a2 : Nat} {a3 : Hdrs} {a4 : Nat} (h0 : Keeps s0 a0) : Keeps s0
    (State.mergeInto a0 a1 a2 a3 a4) := by
  unfold State.mergeInto
  lift_lets -underBinder +implicits
  intro x0
  intro x1
  split
  · exact h0
  · lift_lets -underBinder +implicits
    intro x5
    intro x6
    have hx6 : Keeps s0 x6 := updFrame_ok h0
    clear_value x6
    intro x7
    intro x8
    have hx8 : Keeps s0 x8 := pmu_ok (Keeps.other hx6 rfl rfl rfl rfl)
    clear_value x8
    intro x9
    have hx9 : Keeps s0 x9 := endFrame_ok hx8
    clear_value x9
    exact Keeps.ite (flushCoal_ok hx9) hx9

theorem coalesce_ok {a0 : State} {a1 : Nat} {a2 : Nat} {a3 : Nat} (h0 : Keeps s0 a0) : Keeps s0 (State.coalesce a0 a1
    a2 a3) := by
  unfold State.coalesce
  lift_lets -underBinder +implicits
  intro x0
  intro x1
  split
  · exact deliver_ok h0
  · lift_lets -underBinder +implicits
    intro x5
    intro x6
    split
    · exact Keeps.ite (openCoal_ok h0) (deliver_ok h0)
    · lift_lets -underBinder +implicits
      intro x8
      intro x9
      exact Keeps.ite (Keeps.ite (openCoal_ok (flushCoal_ok h0)) (mergeInto_ok h0)) (deliver_ok (flushCoal_ok h0))

theorem rxFinish_ok {a0 : State} {a1 : Nat} {a2 : Nat} (h0 : Keeps s0 a0) : Keeps s0 (State.rxFinish a0 a1 a2) := by
  unfold State.rxFinish
  lift_lets -underBinder +implicits
  intro x0
  intro x1
  intro x2
  have hx2 : Keeps s0 x2 := nvTrack_ok h0
  clear_value x2
  exact coalesce_ok (set_ok hx2 rfl)

theorem rxTrack_ok {a0 : State} {a1 : Nat} {a2 : Nat} (h0 : Keeps s0 a0) : Keeps s0 (State.rxTrack a0 a1 a2) := by
  unfold State.rxTrack
  exact Keeps.ite (updFrame_ok h0) (rxFinish_ok h0)

theorem rxMiddle_ok {a0 : State} {a1 : Nat} {a2 : Nat} (h0 : Keeps s0 a0) : Keeps s0 (State.rxMiddle a0 a1 a2) := by
  unfold State.rxMiddle
  lift_lets -underBinder +implicits
  intro x0
  intro x1
  have hx1 : Keeps s0 x1 := rxSteps_ok h0
  clear_value x1
  exact Keeps.ite (Keeps.ite (updFrame_ok hx1) (noHeader_ok hx1)) (rxTrack_ok hx1)

theorem rxPrep_ok {a0 : State} {a1 : Nat} {a2 : Nat} (h0 : Keeps s0 a0) : Keeps s0 (State.rxPrep a0 a1 a2) := by
  unfold State.rxPrep
  lift_lets -underBinder +implicits
  intro x0
  intro x1
  exact Keeps.ite (stageEnd_ok h0) (Keeps.ite (updFrame_ok h0) (rxMiddle_ok h0))

end Sys2Proof.Laws
end

