-- ==== Sys2Proof/Laws/KeepsThreadOps.lean ====
section
/-! SUPPORT. Sys2Proof/Laws/KeepsThreadOps.lean: `Keeps` of each operation of Machine/ThreadOps.lean. -/

namespace Sys2Proof.Laws

open Sys2Proof.Machine

variable {s0 : Base}

theorem tput_ok {a0 : State} {a1 : Nat} {a2 : Nat} {a3 : Nat} (h0 : Keeps s0 a0) : Keeps s0 (State.tput a0 a1 a2 a3)
    := by
  unfold State.tput
  exact Keeps.ite h0 (set_ok h0 rfl)

theorem coreCtr_ok {a0 a1 : Nat} {a2 : State} (h2 : Keeps s0 a2) : Keeps s0 (coreCtr a0 a1 a2) := by
  induction a0 generalizing a1 a2 with
  | zero => exact h2
  | succ n ih =>
    unfold coreCtr
    exact Keeps.ite (Keeps.ite (ih (put_ok (set_ok h2 rfl) rfl)) (put_ok (set_ok h2 rfl) rfl)) (set_ok h2 rfl)

theorem coreEvOne_ok {a0 : State} {a1 : Nat} {a2 : Nat} (h0 : Keeps s0 a0) : Keeps s0 (State.coreEvOne a0 a1 a2) := by
  unfold State.coreEvOne
  refine Keeps.ite h0 ?_
  refine forEach_ok h0 (fun a0 t1 ht1 => ?_)
  lift_lets -underBinder +implicits
  intro x2
  exact Keeps.ite (coreCtr_ok ht1) ht1

theorem coreEv_ok {a0 : State} {a1 : Nat} {a2 : Nat} (h0 : Keeps s0 a0) : Keeps s0 (State.coreEv a0 a1 a2) := by
  unfold State.coreEv
  exact forEach_ok h0 (fun a0 t1 ht1 => coreEvOne_ok ht1)

theorem slotIs_ok {a0 : State} {a1 : Nat} {a2 : SlotClass} (h0 : Keeps s0 a0) : Keeps s0 (State.slotIs a0 a1 a2) := by
  unfold State.slotIs
  exact coreEv_ok (forEach_ok h0 (fun _ _ ht => inc_ok ht (by cases a2 <;> rfl)))

theorem slotPass_ok {a0 : State} {a1 : Nat} (h0 : Keeps s0 a0) : Keeps s0 (State.slotPass a0 a1) := by
  unfold State.slotPass
  exact forEach_ok (inc_ok h0 rfl) (fun a0 t1 ht1 => set_ok ht1 rfl)

theorem wakeCluster_ok {a0 : State} {a1 : Nat} (h0 : Keeps s0 a0) : Keeps s0 (State.wakeCluster a0 a1) := by
  unfold State.wakeCluster
  lift_lets -underBinder +implicits
  intro x0
  exact Keeps.ite (inc_ok (set_ok h0 rfl) rfl) h0

theorem newHandle_ok {a0 : State} (h0 : Keeps s0 a0) : KeepsS s0 (State.newHandle a0) := by
  unfold State.newHandle
  lift_lets -underBinder +implicits
  intro x0
  intro x1
  have hx1 : KeepsS s0 x1 := fresh_ok h0
  clear_value x1
  exact KeepsS.of (KeepsS.to hx1)

theorem setDom_ok {a0 : State} {a1 : Nat} {a2 : List Ticket} (h0 : Keeps s0 a0) : Keeps s0 (State.setDom a0 a1 a2) := by
  unfold State.setDom
  exact Keeps.other h0 rfl rfl rfl rfl

theorem takeTicket_ok {a0 : State} {a1 : Nat} {a2 : Nat} (h0 : Keeps s0 a0) : KeepsS s0 (State.takeTicket a0 a1 a2) :=
    by
  unfold State.takeTicket
  lift_lets -underBinder +implicits
  intro x0
  intro x1
  have hx1 : Keeps s0 x1 := KeepsS.to (newHandle_ok h0)
  clear_value x1
  intro x2
  intro x3
  have hx3 : Keeps s0 x3 := setDom_ok hx1
  clear_value x3
  exact KeepsS.of (put_ok (set_ok (set_ok (set_ok hx3 rfl) rfl) rfl) rfl)

theorem ordDrain_ok {a0 : State} {a1 : Nat} (h0 : Keeps s0 a0) : Keeps s0 (State.ordDrain a0 a1) := by
  unfold State.ordDrain
  lift_lets -underBinder +implicits
  intro x0
  intro x1
  intro x2
  have hx2 : Keeps s0 x2 := setDom_ok h0
  clear_value x2
  refine forEach_ok hx2 (fun a3 t4 ht4 => ?_)
  lift_lets -underBinder +implicits
  intro x5
  intro x6
  have hx6 : Keeps s0 x6 := Keeps.ite (set_ok ht4 rfl) ht4
  clear_value x6
  exact Keeps.ite ht4 (toStage_ok hx6)

theorem useTicket_ok {a0 : State} {a1 : Nat} {a2 : Nat} {a3 : Nat} (h0 : Keeps s0 a0) : Keeps s0 (State.useTicket a0
    a1 a2 a3) := by
  unfold State.useTicket
  lift_lets -underBinder +implicits
  intro x0
  intro x1
  intro x2
  have hx2 : Keeps s0 x2 := put_ok (set_ok (set_ok h0 rfl) rfl) rfl
  clear_value x2
  intro x3
  exact ordDrain_ok (setDom_ok hx2)

theorem dropTickets_ok {a0 : State} {a1 : Nat} (h0 : Keeps s0 a0) : Keeps s0 (State.dropTickets a0 a1) := by
  unfold State.dropTickets
  exact forEach_ok h0 (fun a0 t1 ht1 => Keeps.ite ht1 (useTicket_ok ht1))

theorem freeTags_ok {a0 : State} {a1 : Nat} (h0 : Keeps s0 a0) : Keeps s0 (State.freeTags a0 a1) := by
  unfold State.freeTags
  exact forEach_ok h0 (fun a0 t1 ht1 => inc_ok (put_ok (put_ok ht1 rfl) rfl) rfl)

theorem startThread_ok {a0 : State} {a1 : Nat} {a2 : Nat} {a3 : Bool} (h0 : Keeps s0 a0) : Keeps s0 (State.startThread
    a0 a1 a2 a3) := by
  unfold State.startThread
  lift_lets -underBinder +implicits
  intro x0
  have hx0 : Keeps s0 x0 := forEach_ok h0 (fun a1 t2 ht2 => set_ok (set_ok ht2 rfl) rfl)
  clear_value x0
  intro x3
  have hx3 : Keeps s0 x3 := forEach_ok hx0 (fun a4 t5 ht5 => put_ok ht5 rfl)
  clear_value x3
  intro x6
  have hx6 : Keeps s0 x6 := put_ok (set_ok (set_ok (freeTags_ok hx3) rfl) rfl) rfl
  clear_value x6
  intro x7
  have hx7 : KeepsS s0 x7 := fresh_ok hx6
  clear_value x7
  intro x8
  intro x9
  have hx9 : Keeps s0 x9 := put_ok (set_ok (set_ok (KeepsS.to hx7) rfl) rfl) rfl
  clear_value x9
  intro x10
  have hx10 : Keeps s0 x10 := set_ok (put_ok (set_ok hx9 rfl) rfl) rfl
  clear_value x10
  exact rearm_ok (forEach_ok hx10 (fun a11 t12 ht12 => slotIs_ok ht12))

theorem endThread_ok {a0 : State} {a1 : Nat} (h0 : Keeps s0 a0) : Keeps s0 (State.endThread a0 a1) := by
  unfold State.endThread
  lift_lets -underBinder +implicits
  intro x0
  have hx0 : Keeps s0 x0 := set_ok (put_ok (set_ok h0 rfl) rfl) rfl
  clear_value x0
  exact rearm_ok (set_ok (set_ok (put_ok hx0 rfl) rfl) rfl)

theorem dropPacket_ok {a0 : State} {a1 : Nat} {a2 : Nat} (h0 : Keeps s0 a0) : Keeps s0 (State.dropPacket a0 a1 a2) := by
  unfold State.dropPacket
  split
  · exact h0
  · lift_lets -underBinder +implicits
    intro x1
    have hx1 : Keeps s0 x1 := Keeps.ite (inc_ok h0 rfl) h0
    clear_value x1
    exact endFrame_ok (set_ok hx1 rfl)

theorem dispose_ok {a0 : State} {a1 : Nat} {a2 : Nat} (h0 : Keeps s0 a0) : Keeps s0 (State.dispose a0 a1 a2) := by
  unfold State.dispose
  lift_lets -underBinder +implicits
  intro x0
  have hx0 : Keeps s0 x0 := inc_ok (freeTags_ok (dropPacket_ok (dropTickets_ok h0))) rfl
  clear_value x0
  exact set_ok (set_ok (put_ok hx0 rfl) rfl) rfl

theorem faultPut_ok {a0 : State} {a1 : Nat} {a2 : Nat → List Byte} (h0 : Keeps s0 a0) : Keeps s0 (State.faultPut a0 a1
    a2) := by
  unfold State.faultPut
  lift_lets -underBinder +implicits
  intro x0
  intro x1
  intro x2
  intro x3
  have hx3 : Keeps s0 x3 := set_ok h0 rfl
  clear_value x3
  exact Keeps.ite (set_ok h0 rfl) (Keeps.other hx3 rfl rfl rfl rfl)

theorem faultCount_ok {a0 : State} {a1 : Nat} (h0 : Keeps s0 a0) : Keeps s0 (State.faultCount a0 a1) := by
  unfold State.faultCount
  exact coreEv_ok (Keeps.ite (inc_ok h0 rfl) h0)

theorem supFault_ok {a0 : State} {a1 : Nat} (h0 : Keeps s0 a0) : Keeps s0 (State.supFault a0 a1) := by
  unfold State.supFault
  lift_lets -underBinder +implicits
  intro x0
  have hx0 : Keeps s0 x0 := set_ok (dispose_ok h0) rfl
  clear_value x0
  exact Keeps.ite (detect_ok hx0) hx0

theorem trap_ok {a0 : State} {a1 : Nat} {a2 : Nat} (h0 : Keeps s0 a0) : Keeps s0 (State.trap a0 a1 a2) := by
  unfold State.trap
  lift_lets -underBinder +implicits
  intro x0
  have hx0 : Keeps s0 x0 := set_ok (set_ok h0 rfl) rfl
  clear_value x0
  intro x1
  have hx1 : Keeps s0 x1 := set_ok (put_ok hx0 rfl) rfl
  clear_value x1
  exact set_ok hx1 rfl

theorem park_ok {a0 : State} {a1 : Nat} {a2 : Nat} {a3 : Nat} {a4 : Nat} (h0 : Keeps s0 a0) : Keeps s0 (State.park a0
    a1 a2 a3 a4) := by
  unfold State.park
  lift_lets -underBinder +implicits
  intro x0
  intro x1
  have hx1 : Keeps s0 x1 := set_ok (dispose_ok h0) rfl
  clear_value x1
  exact raiseEv_ok (faultPut_ok hx1)

theorem takeFault_ok {a0 : State} {a1 : Nat} {a2 : Nat} {a3 : Nat} {a4 : Nat} (h0 : Keeps s0 a0) : Keeps s0
    (State.takeFault a0 a1 a2 a3 a4) := by
  unfold State.takeFault
  lift_lets -underBinder +implicits
  intro x0
  have hx0 : Keeps s0 x0 := faultCount_ok h0
  clear_value x0
  exact Keeps.ite (supFault_ok hx0) (Keeps.ite (trap_ok hx0) (park_ok hx0))

theorem fault_ok {a0 : State} {a1 : Nat} {a2 : Nat} {a3 : Nat} {a4 : Nat} (h0 : Keeps s0 a0) : Keeps s0 (State.fault
    a0 a1 a2 a3 a4) := by
  unfold State.fault
  exact takeFault_ok (slotIs_ok h0)

theorem mirror_ok {a0 : State} {a1 : Nat} (h0 : Keeps s0 a0) : Keeps s0 (State.mirror a0 a1) := by
  unfold State.mirror
  lift_lets -underBinder +implicits
  intro x0
  have hx0 : ∀ y1, Plain y1 → ∀ y2, ∀ y3, Keeps s0 y3 → Keeps s0 (x0 y1 y2 y3) := by
    intro y1 hy1 y2 y3 hy3
    exact forEach_ok hy3 (fun a4 t5 ht5 => set_ok ht5 hy1)
  clear_value x0
  intro x6
  have hx6 : Keeps s0 x6 := hx0 _ rfl _ _ (hx0 _ rfl _ _ (hx0 _ rfl _ _ (hx0 _ rfl _ _ (hx0 _ rfl _ _ h0))))
  clear_value x6
  exact Keeps.ite (wr_ok hx6) h0

theorem startMgmt_ok {a0 : State} (h0 : Keeps s0 a0) : Keeps s0 (State.startMgmt a0) := by
  unfold State.startMgmt
  exact put_ok (forEach_ok h0 (fun a0 t1 ht1 => set_ok (startThread_ok ht1) rfl)) rfl

end Sys2Proof.Laws
end

