-- ==== Sys2Proof/Laws/KeepsFnOps.lean ====
section
/-! SUPPORT. Sys2Proof/Laws/KeepsFnOps.lean: `Keeps` of each operation of Machine/FnOps.lean. -/

namespace Sys2Proof.Laws

open Sys2Proof.Machine

variable {s0 : Base}

theorem cfgFlr_ok {a0 : State} {a1 : Nat} (h0 : Keeps s0 a0) : Keeps s0 (State.cfgFlr a0 a1) := by
  unfold State.cfgFlr
  lift_lets -underBinder +implicits
  intro x0
  have hx0 : Keeps s0 x0 := forEach_mem (P := fun f => Plain f) h0 (by decide) (fun a1 t2 ha1 ht2 => set_ok ht2 ha1)
  clear_value x0
  exact forEach_mem (P := fun f => Plain f) hx0 (by decide) (fun a3 t4 ha3 ht4 => vecReset_ok ht4 ha3)

theorem cfgSriov_ok {a0 : State} {a1 : Nat} (h0 : Keeps s0 a0) : Keeps s0 (State.cfgSriov a0 a1) := by
  unfold State.cfgSriov
  exact put_ok (set_ok (put_ok h0 rfl) rfl) rfl

theorem cfgCold_ok {a0 : State} {a1 : Nat} (h0 : Keeps s0 a0) : Keeps s0 (State.cfgCold a0 a1) := by
  unfold State.cfgCold
  lift_lets -underBinder +implicits
  intro x0
  have hx0 : Keeps s0 x0 := Keeps.other h0 rfl rfl rfl rfl
  clear_value x0
  exact forEach_mem (P := fun f => Plain f) hx0 (by decide) (fun a1 t2 ha1 ht2 => set_ok ht2 ha1)

theorem resetAcc_ok {a0 : State} {a1 : Nat} {a2 : Ent} {a3 : Nat} (h0 : Keeps s0 a0) : Keeps s0 (State.resetAcc a0 a1
    a2 a3) := by
  unfold State.resetAcc
  exact finish_ok h0

theorem resetEnt_ok {a0 : State} {a1 : Nat} {a2 : Ent} (h0 : Keeps s0 a0) : Keeps s0 (State.resetEnt a0 a1 a2) := by
  unfold State.resetEnt
  lift_lets -underBinder +implicits
  intro x0
  refine Keeps.ite (ownStatus_ok h0 (fun y1 y2 y3 hy3 => accountReset_ok hy3)) ?_
  refine Keeps.ite ?_ ?_
  · split
    · exact unhold_ok h0
    · exact h0
  · refine Keeps.ite (resetAcc_ok h0) ?_
    refine Keeps.ite (Keeps.ite h0 (resetAcc_ok h0)) ?_
    refine Keeps.ite ?_ (Keeps.ite (resetAcc_ok h0) h0)
    split
    · exact Keeps.ite h0 (resetAcc_ok (jobDrop_ok h0))
    · exact resetAcc_ok h0

theorem resetQueue_ok {a0 : State} {a1 : Nat} (h0 : Keeps s0 a0) : Keeps s0 (State.resetQueue a0 a1) := by
  unfold State.resetQueue
  lift_lets -underBinder +implicits
  intro x0
  have hx0 : Keeps s0 x0 := dropRx_ok (discardFetched_ok h0)
  clear_value x0
  intro x1
  have hx1 : Keeps s0 x1 := forEach_mem (P := fun f => Plain f) hx0 (by decide) (fun a2 t3 ha2 ht3 => put_ok ht3 ha2)
  clear_value x1
  intro x4
  have hx4 : Keeps s0 x4 := Keeps.other hx1 rfl rfl rfl rfl
  clear_value x4
  intro x5
  have hx5 : Keeps s0 x5 := passedOut_ok hx4 (fun y6 y7 y8 hy8 => accountReset_ok hy8)
  clear_value x5
  intro x9
  have hx9 : Keeps s0 x9 := forEach_ok hx5 (fun a10 t11 ht11 => resetEnt_ok ht11)
  clear_value x9
  exact unsend_ok hx9

theorem resetRun_ok {a0 : State} {a1 : Nat} (h0 : Keeps s0 a0) : Keeps s0 (State.resetRun a0 a1) := by
  unfold State.resetRun
  lift_lets -underBinder +implicits
  intro x0
  exact Keeps.ite (dmaCut_ok h0) h0

theorem migSeen_ok {a0 : State} {a1 : Nat} {a2 : Nat} (h0 : Keeps s0 a0) : Keeps s0 (State.migSeen a0 a1 a2) := by
  unfold State.migSeen
  exact set_ok (set_ok h0 rfl) rfl

theorem migReset_ok {a0 : State} {a1 : Nat} (h0 : Keeps s0 a0) : Keeps s0 (State.migReset a0 a1) := by
  unfold State.migReset
  refine forEach_ok h0 (fun a0 t1 ht1 => ?_)
  lift_lets -underBinder +implicits
  intro x2
  have hx2 : Keeps s0 x2 := Keeps.ite (set_ok ht1 rfl) ht1
  clear_value x2
  intro x3
  have hx3 : Keeps s0 x3 := set_ok (set_ok (put_ok hx2 rfl) rfl) rfl
  clear_value x3
  exact Keeps.ite (Keeps.other hx3 rfl rfl rfl rfl) hx2

theorem resetRing_ok {a0 : State} {a1 : Nat} (h0 : Keeps s0 a0) : Keeps s0 (State.resetRing a0 a1) := by
  unfold State.resetRing
  exact put_ok (set_ok (put_ok h0 rfl) rfl) rfl

theorem fnReset_ok {a0 : State} {a1 : Nat} {a2 : Bool} (h0 : Keeps s0 a0) : Keeps s0 (State.fnReset a0 a1 a2) := by
  unfold State.fnReset
  lift_lets -underBinder +implicits
  intro x0
  have hx0 : Keeps s0 x0 := set_ok (put_ok (set_mode (migReset_ok h0) (fun _ => by decide)) rfl) rfl
  clear_value x0
  intro x1
  have hx1 : Keeps s0 x1 := Keeps.other hx0 rfl rfl rfl rfl
  clear_value x1
  intro x2
  have hx2 : Keeps s0 x2 := forEach_ok hx1 (fun a3 t4 ht4 => resetQueue_ok ht4)
  clear_value x2
  intro x5
  have hx5 : Keeps s0 x5 := forEach_ok hx2 (fun a6 t7 ht7 => resetRun_ok ht7)
  clear_value x5
  intro x8
  have hx8 : Keeps s0 x8 := forEach_ok hx5 (fun a9 t10 ht10 => resetRing_ok ht10)
  clear_value x8
  intro x11
  have hx11 : Keeps s0 x11 := cfgFlr_ok (zeroOwner_ok hx8)
  clear_value x11
  exact Keeps.ite (put_ok h0 rfl) (Keeps.ite (pvVfReset_ok hx11) hx11)

theorem windowsClose_ok {a0 : State} {a1 : Nat} (h0 : Keeps s0 a0) : Keeps s0 (State.windowsClose a0 a1) := by
  unfold State.windowsClose
  exact forEach_ok h0 (fun a0 t1 ht1 => put_ok (set_ok (set_ok (put_ok ht1 rfl) rfl) rfl) rfl)

theorem pfReset_ok {a0 : State} {a1 : Nat} (h0 : Keeps s0 a0) : Keeps s0 (State.pfReset a0 a1) := by
  unfold State.pfReset
  lift_lets -underBinder +implicits
  intro x0
  have hx0 : Keeps s0 x0 := forEach_ok h0 (fun a1 t2 ht2 => fnReset_ok ht2)
  clear_value x0
  intro x3
  have hx3 : Keeps s0 x3 := windowsClose_ok (cfgSriov_ok (setBacklog_ok (fnReset_ok hx0)))
  clear_value x3
  exact Keeps.ite h0 (mbxOwe_ok (mbxReset_ok (pvPfReset_ok hx3)))

theorem flr_ok {a0 : State} {a1 : Nat} (h0 : Keeps s0 a0) : Keeps s0 (State.flr a0 a1) := by
  unfold State.flr
  exact Keeps.ite (Keeps.ite (cfgSriov_ok (cfgFlr_ok h0)) (cfgFlr_ok h0)) (Keeps.ite (pfReset_ok h0) (fnReset_ok h0))

theorem vfOn_ok {a0 : State} {a1 : Nat} (h0 : Keeps s0 a0) : Keeps s0 (State.vfOn a0 a1) := by
  unfold State.vfOn
  lift_lets -underBinder +implicits
  intro x0
  have hx0 : Keeps s0 x0 := put_ok h0 rfl
  clear_value x0
  exact forEach_ok hx0 (fun a1 t2 ht2 => Keeps.ite (set_mode ht2 (fun _ => by decide)) ht2)

theorem vfOff_ok {a0 : State} {a1 : Nat} (h0 : Keeps s0 a0) : Keeps s0 (State.vfOff a0 a1) := by
  unfold State.vfOff
  lift_lets -underBinder +implicits
  intro x0
  have hx0 : Keeps s0 x0 := put_ok h0 rfl
  clear_value x0
  exact Keeps.ite hx0 (forEach_ok hx0 (fun a1 t2 ht2 => fnReset_ok ht2))

theorem fnLeave_ok {a0 : State} {a1 : Nat} (h0 : Keeps s0 a0) : Keeps s0 (State.fnLeave a0 a1) := by
  unfold State.fnLeave
  lift_lets -underBinder +implicits
  intro x0
  intro x1
  have hx1 : Keeps s0 x1 := put_ok (put_ok (put_ok h0 rfl) rfl) rfl
  clear_value x1
  intro x2
  have hx2 : Keeps s0 x2 := Keeps.ite (set_ok (put_ok hx1 rfl) rfl) hx1
  clear_value x2
  exact Keeps.ite (set_mode (pvClear_ok hx2) (fun _ => by decide)) (set_mode hx2 (fun _ => by decide))

theorem putWordsAt_ok {a0 : State} {a1 : List (Nat × Nat × List (Nat × Fld))} {a2 : Nat} {a3 : List Byte} (h0 : Keeps
    s0 a0)
    (h1 : ∀ w ∈ a1, Plains w.2.2 := by decide) : Keeps s0 (State.putWordsAt a0 a1 a2 a3) :=
  foldl_mem (Q := Keeps s0) (P := fun w : Nat × Nat × List (Nat × Fld) => Plains w.2.2) h0 h1 (fun _ _ hw ht =>
      unpack_ok ht hw)

theorem putQCtx_ok {a0 : State} {a1 : Nat} {a2 : List Byte} (h0 : Keeps s0 a0) : Keeps s0 (State.putQCtx a0 a1 a2) := by
  unfold State.putQCtx
  lift_lets -underBinder +implicits
  intro x0
  have hx0 : Keeps s0 x0 := putWordsAt_ok h0
  clear_value x0
  exact set_ok (set_ok hx0 rfl) rfl

theorem putCrCtx_ok {a0 : State} {a1 : Nat} {a2 : List Byte} (h0 : Keeps s0 a0) : Keeps s0 (State.putCrCtx a0 a1 a2)
    := by
  unfold State.putCrCtx
  exact putWordsAt_ok h0

theorem putPvPage_ok {a0 : State} {a1 : Nat} {a2 : List Byte} (h0 : Keeps s0 a0) : Keeps s0 (State.putPvPage a0 a1 a2)
    := by
  unfold State.putPvPage
  lift_lets -underBinder +implicits
  intro x0
  intro x1
  have hx1 : Keeps s0 x1 := putWords_ok (putWords_ok (putWords_ok h0 rfl) rfl) rfl
  clear_value x1
  intro x2
  have hx2 : Keeps s0 x2 := set_ok (set_ok (putWords_ok hx1 rfl) rfl) rfl
  clear_value x2
  intro x3
  have hx3 : Keeps s0 x3 := unpack_ok hx2 (by decide)
  clear_value x3
  intro x4
  have hx4 : Keeps s0 x4 := unpack_ok hx3 (by decide)
  clear_value x4
  exact pvPend_ok (unpack_ok hx4 (by decide))

theorem putShares_ok {a0 : Nat} {a1 : List (Nat × List (Nat × Fld))} {a2 : List Byte} {a3 : State} (h3 : Keeps s0 a3)
    (h1 : ∀ w ∈ a1, Plains w.2 := by decide) : Keeps s0 (putShares a0 a1 a2 a3) := by
  induction a1 generalizing a2 a3 with
  | nil => exact h3
  | cons w ws ih =>
    exact ih (unpack_ok h3 (h1 w List.mem_cons_self)) (fun x hx => h1 x (List.mem_cons_of_mem _ hx))

theorem putVecEntry_ok {a0 : State} {a1 : Nat} {a2 : Nat} {a3 : List Byte} (h0 : Keeps s0 a0) : Keeps s0
    (State.putVecEntry a0 a1 a2 a3) := by
  unfold State.putVecEntry
  lift_lets -underBinder +implicits
  intro x0
  exact set_ok (set_ok (set_ok h0 rfl) rfl) rfl

theorem putFnSection_ok {a0 : State} {a1 : Nat} {a2 : List Byte} (h0 : Keeps s0 a0) : Keeps s0 (State.putFnSection a0
    a1 a2) := by
  unfold State.putFnSection
  lift_lets -underBinder +implicits
  intro x0
  have hx0 : Keeps s0 x0 := by
    refine forEach_ok h0 (fun a1 t2 ht2 => ?_)
    lift_lets -underBinder +implicits
    intro x3
    intro x4
    intro x5
    have hx5 : Keeps s0 x5 := set_ok (putVecEntry_ok ht2) rfl
    clear_value x5
    exact set_ok (set_ok hx5 rfl) rfl
  clear_value x0
  intro x6
  have hx6 : Keeps s0 x6 := put_ok (put_ok hx0 rfl) rfl
  clear_value x6
  exact putPvPage_ok (putShares_ok hx6)

theorem putSlot_ok {a0 : State} {a1 : Nat} {a2 : List Byte} {a3 : List Byte} {a4 : Nat} (h0 : Keeps s0 a0) : KeepsS s0
    (State.putSlot a0 a1 a2 a3 a4) := by
  unfold State.putSlot
  lift_lets -underBinder +implicits
  intro x0
  intro x1
  intro x2
  refine ite_of (Q := KeepsS s0) (KeepsS.of (set_ok (put_ok h0 rfl) rfl)) ?_
  split
  · exact ite_of (Q := KeepsS s0) (KeepsS.of (set_ok (loadKey_ok h0) rfl)) (KeepsS.of (put_ok h0 rfl))
  · exact KeepsS.of (put_ok h0 rfl)

theorem putPage_ok {a0 : State} {a1 : List Byte} {a2 : List Byte} (h0 : Keeps s0 a0) : KeepsS s0 (State.putPage a0 a1
    a2) := by
  unfold State.putPage
  lift_lets -underBinder +implicits
  intro x0
  refine foldl_of (Q := KeepsS s0) (KeepsS.of (put_ok h0 rfl)) (fun t2 a1 ht2 => ?_)
  lift_lets -underBinder +implicits
  intro x3
  have hx3 : KeepsS s0 x3 := putSlot_ok (KeepsS.to ht2)
  clear_value x3
  exact KeepsS.of (KeepsS.to hx3)

theorem migEnd_ok {a0 : State} {a1 : Nat} {a2 : Nat} (h0 : Keeps s0 a0) : Keeps s0 (State.migEnd a0 a1 a2) := by
  unfold State.migEnd
  lift_lets -underBinder +implicits
  intro x0
  have hx0 : Keeps s0 x0 := set_ok (set_ok (put_ok h0 rfl) rfl) rfl
  clear_value x0
  exact Keeps.other hx0 rfl rfl rfl rfl

theorem migBegin_ok {a0 : State} {a1 : Nat} {a2 : Nat} {a3 : Nat} {a4 : Nat} (h0 : Keeps s0 a0) : Keeps s0
    (State.migBegin a0 a1 a2 a3 a4) := by
  unfold State.migBegin
  lift_lets -underBinder +implicits
  intro x0
  have hx0 : Keeps s0 x0 := put_ok (set_ok (put_ok h0 rfl) rfl) rfl
  clear_value x0
  exact set_ok (set_ok hx0 rfl) rfl

theorem freezeQueue_ok {a0 : State} {a1 : Nat} (h0 : Keeps s0 a0) : Keeps s0 (State.freezeQueue a0 a1) := by
  unfold State.freezeQueue
  lift_lets -underBinder +implicits
  intro x0
  have hx0 : Keeps s0 x0 := set_ok (discardFetched_ok (flushCoalQ_ok h0)) rfl
  clear_value x0
  intro x1
  have hx1 : Keeps s0 x1 := forEach_mem (P := fun f => Plain f) hx0 (by decide) (fun a2 t3 ha2 ht3 => put_ok ht3 ha2)
  clear_value x1
  exact forEach_ok (pump_ok hx1) (fun a4 t5 ht5 => placeEnd_ok ht5)

theorem freezeDone_ok {a0 : State} {a1 : Nat} (h0 : Keeps s0 a0) : Keeps s0 (State.freezeDone a0 a1) := by
  unfold State.freezeDone
  lift_lets -underBinder +implicits
  intro x0
  exact Keeps.ite (setQ_ok (writeback_ok (firnAppend_ok h0))) h0

theorem thawQueue_ok {a0 : State} {a1 : Nat} {a2 : Nat} (h0 : Keeps s0 a0) : Keeps s0 (State.thawQueue a0 a1 a2) := by
  unfold State.thawQueue
  lift_lets -underBinder +implicits
  intro x0
  intro x1
  intro x2
  have hx2 : Keeps s0 x2 := set_ok (setQ_ok (put_ok h0 rfl)) rfl
  clear_value x2
  intro x3
  have hx3 : Keeps s0 x3 := put_ok hx2 rfl
  clear_value x3
  exact Keeps.ite (queueError_ok hx3) (Keeps.ite (dueAt_ok hx3) hx3)

theorem install_ok {a0 : State} {a1 : Nat} {a2 : List Byte} {a3 : List Byte} (h0 : Keeps s0 a0) : KeepsS s0
    (State.install a0 a1 a2 a3) := by
  unfold State.install
  lift_lets -underBinder +implicits
  intro x0
  have hx0 : Keeps s0 x0 := putFnSection_ok h0
  clear_value x0
  intro x1
  have hx1 : Keeps s0 x1 := forEach_ok hx0 (fun a2 t3 ht3 => putCrCtx_ok ht3)
  clear_value x1
  intro x4
  have hx4 : Keeps s0 x4 := forEach_ok hx1 (fun a5 t6 ht6 => putQCtx_ok ht6)
  clear_value x4
  split
  · next m7 m8 heq =>
    have hm8 : Keeps s0 m8 := by
      refine KeepsS.eq heq ?_
      refine foldl_of (Q := KeepsS s0) (KeepsS.of hx4) (fun t10 a9 ht10 => ?_)
      lift_lets -underBinder +implicits
      intro x11
      have hx11 : KeepsS s0 x11 := putPage_ok (KeepsS.to ht10)
      clear_value x11
      exact KeepsS.of (KeepsS.to hx11)
    exact KeepsS.of (forEach_ok hm8 (fun a12 t13 ht13 => thawQueue_ok ht13))

theorem harvest_ok {a0 : State} {a1 : Nat} (h0 : Keeps s0 a0) : Keeps s0 (State.harvest a0 a1) := by
  unfold State.harvest
  lift_lets -underBinder +implicits
  intro x0
  intro x1
  intro x2
  intro x3
  have hx3 : Keeps s0 x3 := by
    refine forEach_ok h0 (fun a4 t5 ht5 => ?_)
    lift_lets -underBinder +implicits
    intro x6
    intro x7
    have hx7 : Keeps s0 x7 := forEach_ok ht5 (fun a8 t9 ht9 => put_ok ht9 rfl)
    clear_value x7
    exact hostWrite_ok hx7
  clear_value x3
  exact Keeps.ite hx3 (hostRead_ok (put_ok hx3 rfl))

end Sys2Proof.Laws
end

