-- ==== Sys2Proof/Laws/KeepsTwinOps.lean ====
section
/-! SUPPORT. Sys2Proof/Laws/KeepsTwinOps.lean: `Keeps` of each operation of Machine/TwinOps.lean. -/

namespace Sys2Proof.Laws

open Sys2Proof.Machine

variable {s0 : Base}

theorem setTwin_ok {a0 : State} {a1 : Nat} (h0 : Keeps s0 a0)
    (h1 : s0.wf = true → modeOk (Reg.TWN_STATUS_state.id % 4096) (a1 % 8) = true) : Keeps s0 (State.setTwin a0 a1) := by
  unfold State.setTwin
  exact sdsTidy_ok (put_ok (put_ok (set_mode h0 h1) rfl) rfl)

theorem twinRefuse_ok {a0 : State} {a1 : Nat} (h0 : Keeps s0 a0) : Keeps s0 (State.twinRefuse a0 a1) := by
  unfold State.twinRefuse
  exact set_ok (put_ok h0 rfl) rfl

theorem pairRefuse_ok {a0 : State} {a1 : Nat} (h0 : Keeps s0 a0) : Keeps s0 (State.pairRefuse a0 a1) := by
  unfold State.pairRefuse
  refine setTwin_ok (twinRefuse_ok h0) (fun w => ?_)
  have h := get_mode (f := Reg.TWX_prev) (i := 0) (h0.form w) rfl
  simp only [modeOk, show modeMax (Reg.TWX_prev.id % 4096) = some 6 from rfl, show hardWired (Reg.TWX_prev.id % 4096)
      = false from rfl,
    Bool.not_false, Bool.true_and, decide_eq_true_eq] at h
  simp only [modeOk, show modeMax (Reg.TWN_STATUS_state.id % 4096) = some 6 from rfl, show hardWired
      (Reg.TWN_STATUS_state.id % 4096) = false from rfl,
    Bool.not_false, Bool.true_and, decide_eq_true_eq]
  omega

theorem twinGo_ok {a0 : State} {a1 : TwinWait} (h0 : Keeps s0 a0) : Keeps s0 (State.twinGo a0 a1) := by
  unfold State.twinGo
  split
  · lift_lets -underBinder +implicits
    intro x1
    have hx1 : Keeps s0 x1 := put_ok (put_ok h0 rfl) rfl
    clear_value x1
    exact Keeps.ite (Keeps.ite (acceptNow_ok hx1) hx1) h0
  · exact issue_ok h0
  · exact h0
  · exact put_ok h0 rfl
  · exact put_ok h0 rfl
  · exact twinSend_ok (put_ok h0 rfl)

theorem twinAck_ok {a0 : State} {a1 : Nat} (h0 : Keeps s0 a0) : Keeps s0 (State.twinAck a0 a1) := by
  unfold State.twinAck
  lift_lets -underBinder +implicits
  intro x0
  intro x1
  have hx1 : Keeps s0 x1 := Keeps.other h0 rfl rfl rfl rfl
  clear_value x1
  refine forEach_ok hx1 (fun a2 t3 ht3 => ?_)
  lift_lets -underBinder +implicits
  intro x4
  exact twinGo_ok (set_ok (set_ok ht3 rfl) rfl)

theorem twinRelease_ok {a0 : State} (h0 : Keeps s0 a0) : Keeps s0 (State.twinRelease a0) := by
  unfold State.twinRelease
  lift_lets -underBinder +implicits
  intro x0
  exact forEach_ok (Keeps.other h0 rfl rfl rfl rfl) (fun a1 t2 ht2 => Keeps.ite ht2 (twinGo_ok (set_ok ht2 rfl)))

theorem sendCopies_ok {a0 : State} (h0 : Keeps s0 a0) : Keeps s0 (State.sendCopies a0) := by
  unfold State.sendCopies
  lift_lets -underBinder +implicits
  intro x0
  have hx0 : Keeps s0 x0 := forEach_ok h0 (fun a1 t2 ht2 => twinSend_ok ht2)
  clear_value x0
  intro x3
  have hx3 : Keeps s0 x3 := forEach_ok hx0 (fun a4 t5 ht5 => twinSend_ok ht5)
  clear_value x3
  exact twinAwait_ok hx3

theorem startSync_ok {a0 : State} {a1 : Nat} (h0 : Keeps s0 a0)
    (h1 : s0.wf = true → modeOk (Reg.TWN_STATUS_state.id % 4096) (a1 % 8) = true) : Keeps s0 (State.startSync a0 a1)
        := by
  unfold State.startSync
  exact sendCopies_ok (twinRelease_ok (put_ok (put_ok (setTwin_ok h0 h1) rfl) rfl))

theorem dropCopies_ok {a0 : State} (h0 : Keeps s0 a0) : Keeps s0 (State.dropCopies a0) := by
  unfold State.dropCopies
  lift_lets -underBinder +implicits
  intro x0
  have hx0 : Keeps s0 x0 := resetAll_ok h0 rfl
  clear_value x0
  exact Keeps.other hx0 rfl rfl rfl rfl

theorem setTwinQ_ok {a0 : State} {a1 : Nat} {a2 : TwinQ} (h0 : Keeps s0 a0) : Keeps s0 (State.setTwinQ a0 a1 a2) := by
  unfold State.setTwinQ
  exact Keeps.other h0 rfl rfl rfl rfl

theorem syncCtx_ok {a0 : State} {a1 : Nat} {a2 : List Byte} (h0 : Keeps s0 a0) : Keeps s0 (State.syncCtx a0 a1 a2) := by
  unfold State.syncCtx
  exact Keeps.ite (put_ok (setTwinQ_ok h0) rfl) h0

theorem syncRec_ok {a0 : State} {a1 : MirRec} (h0 : Keeps s0 a0) : Keeps s0 (State.syncRec a0 a1) := by
  unfold State.syncRec
  split
  · exact syncCtx_ok h0
  · exact Keeps.other h0 rfl rfl rfl rfl
  · exact Keeps.other h0 rfl rfl rfl rfl
  · split
    · exact setTwinQ_ok h0
    · exact h0
  · split
    · exact setTwinQ_ok h0
    · exact h0
  · exact h0

theorem mirRec_ok {a0 : State} {a1 : MirRec} (h0 : Keeps s0 a0) : Keeps s0 (State.mirRec a0 a1) := by
  unfold State.mirRec
  split
  · split
    · exact h0
    · exact Keeps.ite h0 (Keeps.ite (setTwinQ_ok h0) (setTwinQ_ok h0))
  · split
    · exact h0
    · lift_lets -underBinder +implicits
      intro x9
      intro x10
      exact setTwinQ_ok h0
  · lift_lets -underBinder +implicits
    intro x14
    have hx14 : Keeps s0 x14 := by
      unfold x14
      split
      · exact setTwinQ_ok h0
      · exact h0
    clear_value x14
    exact Keeps.ite hx14 (Keeps.other hx14 rfl rfl rfl rfl)
  · split
    · exact h0
    · exact setTwinQ_ok h0
  · exact Keeps.ite h0 (Keeps.other h0 rfl rfl rfl rfl)
  · exact Keeps.ite h0 (Keeps.other h0 rfl rfl rfl rfl)

theorem twinRx_ok {a0 : State} {a1 : Nat} {a2 : Bool} {a3 : State → State} (h0 : Keeps s0 a0) (h3 : ∀ z0, Keeps s0 z0
    → Keeps s0 (a3 z0)) : Keeps s0 (State.twinRx a0 a1 a2 a3) := by
  unfold State.twinRx
  exact Keeps.ite h0 (Keeps.ite (inc_ok h0 rfl) (h3 _ (set_ok (set_ok h0 rfl) rfl)))

theorem degrade_ok {a0 : State} (h0 : Keeps s0 a0) : Keeps s0 (State.degrade a0) := by
  unfold State.degrade
  lift_lets -underBinder +implicits
  intro x0
  have hx0 : Keeps s0 x0 := set_ok (set_ok (setTwin_ok h0 (fun _ => by decide)) rfl) rfl
  clear_value x0
  exact Keeps.ite h0 (twinRelease_ok (detect_ok hx0))

theorem twinVecs_ok {a0 : State} {a1 : List Nat} (h0 : Keeps s0 a0) : Keeps s0 (State.twinVecs a0 a1) := by
  unfold State.twinVecs
  exact forEach_ok h0 (fun a0 t1 ht1 => Keeps.ite (raiseVec_ok ht1) ht1)

theorem widow_ok {a0 : State} (h0 : Keeps s0 a0) : Keeps s0 (State.widow a0) := by
  unfold State.widow
  lift_lets -underBinder +implicits
  intro x0
  exact twinVecs_ok (twinRelease_ok (dropCopies_ok h0))

theorem takeRing_ok {a0 : State} {a1 : Nat} {a2 : Option Nat} (h0 : Keeps s0 a0) : Keeps s0 (State.takeRing a0 a1 a2)
    := by
  unfold State.takeRing
  lift_lets -underBinder +implicits
  intro x0
  intro x1
  intro x2
  have hx2 : Keeps s0 x2 := set_ok (putCrCtx_ok h0) rfl
  clear_value x2
  intro x3
  intro x4
  have hx4 : Keeps s0 x4 := hostRead_ok hx2
  clear_value x4
  intro x5
  intro x6
  intro x7
  have hx7 : Keeps s0 x7 := forEach_ok hx4 (fun a8 t9 ht9 => ringWrite_ok (set_ok ht9 rfl))
  clear_value x7
  exact set_ok (set_ok (set_ok hx7 rfl) rfl) rfl

theorem takeBatch_ok {a0 : State} {a1 : Nat} {a2 : Nat} {a3 : TwinQ} (h0 : Keeps s0 a0) : Keeps s0 (State.takeBatch a0
    a1 a2 a3) := by
  unfold State.takeBatch
  lift_lets -underBinder +implicits
  intro x0
  intro x1
  have hx1 : Keeps s0 x1 := forEach_ok h0 (fun a2 t3 ht3 => hostWrite_ok ht3)
  clear_value x1
  intro x4
  exact writeback_ok (set_ok (set_ok hx1 rfl) rfl)

theorem takeLost_ok {a0 : State} {a1 : Nat} {a2 : Nat × Nat} (h0 : Keeps s0 a0) : Keeps s0 (State.takeLost a0 a1 a2)
    := by
  unfold State.takeLost
  refine Keeps.ite ?_ (set_ok (hostWrite_ok h0) rfl)
  split
  · next m0 m1 heq =>
    have hm1 : Keeps s0 m1 := by
      refine KeepsS.eq heq ?_
      exact fresh_ok h0
    lift_lets -underBinder +implicits
    intro x2
    exact ringWrite_ok (takeCredit_ok hm1)

theorem takeQueue_ok {a0 : State} {a1 : Nat} {a2 : TwinQ} {a3 : Option Nat} (h0 : Keeps s0 a0) : Keeps s0
    (State.takeQueue a0 a1 a2 a3) := by
  unfold State.takeQueue
  lift_lets -underBinder +implicits
  intro x0
  have hx0 : Keeps s0 x0 := putQCtx_ok h0
  clear_value x0
  intro x1
  have hx1 : Keeps s0 x1 := hostRead_ok hx0
  clear_value x1
  intro x2
  intro x3
  have hx3 : Keeps s0 x3 := set_ok (set_ok (set_ok hx1 rfl) rfl) rfl
  clear_value x3
  intro x4
  have hx4 : Keeps s0 x4 := Keeps.ite hx3 (takeBatch_ok hx3)
  clear_value x4
  intro x5
  have hx5 : Keeps s0 x5 := forEach_ok hx4 (fun a6 t7 ht7 => takeLost_ok ht7)
  clear_value x5
  intro x8
  have hx8 : Keeps s0 x8 := writeback_ok (set_ok hx5 rfl)
  clear_value x8
  intro x9
  have hx9 : Keeps s0 x9 := setQ_ok (firnAppend_ok (put_ok hx8 rfl))
  clear_value x9
  exact dueAt_ok hx9

theorem promote_ok {a0 : State} {a1 : List Nat} {a2 : List Nat} (h0 : Keeps s0 a0) : Keeps s0 (State.promote a0 a1 a2)
    := by
  unfold State.promote
  lift_lets -underBinder +implicits
  intro x0
  intro x1
  intro x2
  intro x3
  have hx3 : Keeps s0 x3 := put_ok h0 rfl
  clear_value x3
  intro x4
  have hx4 : Keeps s0 x4 := forEach_ok hx3 (fun a5 t6 ht6 => KeepsS.to (putPage_ok ht6))
  clear_value x4
  intro x7
  have hx7 : Keeps s0 x7 := forEach_ok hx4 (fun a8 t9 ht9 => takeRing_ok ht9)
  clear_value x7
  intro x10
  have hx10 : Keeps s0 x10 := resetAll_ok hx7 rfl
  clear_value x10
  intro x11
  have hx11 : Keeps s0 x11 := by
    unfold x11
    refine forEach_ok hx10 (fun a12 t13 ht13 => ?_)
    split
    · exact takeQueue_ok ht13
    · exact ht13
  clear_value x11
  exact twinVecs_ok (twinRelease_ok (dropCopies_ok hx11))

theorem twinLost_ok {a0 : State} {a1 : List Nat} {a2 : List Nat} (h0 : Keeps s0 a0) : Keeps s0 (State.twinLost a0 a1
    a2) := by
  unfold State.twinLost
  lift_lets -underBinder +implicits
  intro x0
  intro x1
  have hx1 : Keeps s0 x1 := set_ok (setTwin_ok h0 (fun _ => by decide)) rfl
  clear_value x1
  intro x2
  have hx2 : Keeps s0 x2 := detect_ok (mbxReset_ok hx1)
  clear_value x2
  exact Keeps.ite hx2 (Keeps.ite (promote_ok hx2) (widow_ok hx2))

end Sys2Proof.Laws
end

