-- ==== Sys2Proof/Laws/KeepsPowerOps.lean ====
section
/-! SUPPORT. Sys2Proof/Laws/KeepsPowerOps.lean: `Keeps` of each operation of Machine/PowerOps.lean. -/

namespace Sys2Proof.Laws

open Sys2Proof.Machine

variable {s0 : Base}

theorem setDomains_spares {g : Fld} {j : Nat} {s t : State} {on : Bool} (h : Spares g j s t)
    (hg : ∀ f ∈ [Reg.PWR_DOMAIN_core, Reg.PWR_DOMAIN_sram, Reg.PWR_DOMAIN_hbm, Reg.PWR_CLK_STATUS_pll_core,
      Reg.PWR_CLK_STATUS_pll_ppl, Reg.PWR_CLK_STATUS_pll_dma], g.id % 4096 ≠ f.id % 4096) : Spares g j s (t.setDomains
          on) := by
  unfold State.setDomains
  refine Spares.forEach (Spares.ite h (Spares.forEach h (fun a ha v hv => hv.put (hg a ?_)))) (fun a ha v hv => hv.put
      (hg a ?_))
  · simp only [List.mem_cons, List.not_mem_nil, or_false] at ha ⊢
    rcases ha with e | e | e <;> simp [e]
  · simp only [List.mem_cons, List.not_mem_nil, or_false] at ha ⊢
    rcases ha with e | e | e <;> simp [e]

/-- A start puts the device into BOOTING (R511). -/
theorem startBoot_dev {s : State} {entry : Nat} (hs : SM.sorted s.fld = true) : (s.startBoot entry).dev = dsBooting :=
    by
  have h : Spares Reg.GLB_STATE_state 0 (s.set Reg.GLB_STATE_state 0 dsBooting) (s.startBoot entry) := by
    unfold State.startBoot
    lift_lets -underBinder +implicits
    intro x0 x1 x2 x3 x4
    have h1 : Spares Reg.GLB_STATE_state 0 (s.set Reg.GLB_STATE_state 0 dsBooting) x1 :=
      setDomains_spares (Spares.refl.set (by decide)) (by decide)
    have h2 : Spares Reg.GLB_STATE_state 0 (s.set Reg.GLB_STATE_state 0 dsBooting) x2 := Spares.ite (h1.set (by
        decide)) h1
    have h3 : Spares Reg.GLB_STATE_state 0 (s.set Reg.GLB_STATE_state 0 dsBooting) x3 :=
      ((h2.set (by decide)).put (by decide)).set (by decide)
    have h4 : Spares Reg.GLB_STATE_state 0 (s.set Reg.GLB_STATE_state 0 dsBooting) x4 := (h3.set (by decide)).set (by
        decide)
    clear_value x4
    exact h4.other rfl
  exact (h (set_sorted hs)).2.trans (get_set_same hs)

theorem coreReset_ok {a0 : State} [Leaves s0] [Shifts s0] (h0 : Keeps s0 a0) : Keeps s0 (State.coreReset a0) := by
  unfold State.coreReset
  lift_lets -underBinder +implicits
  intro x0
  have hx0 : Keeps s0 x0 := keepFrom_ok h0 (.inl (Nat.le_refl _)) (by decide)
  clear_value x0
  intro x1
  have hx1 : Keeps s0 x1 := forEach_ok hx0 (fun a2 t3 ht3 => put_ok (put_ok ht3 rfl) rfl)
  clear_value x1
  exact enterDrift_ok (put_ok hx1 rfl)

theorem setDomains_ok {a0 : State} {a1 : Bool} (h0 : Keeps s0 a0) : Keeps s0 (State.setDomains a0 a1) := by
  unfold State.setDomains
  exact forEach_mem (P := fun f => Plain f) (Keeps.ite h0 (forEach_mem (P := fun f => Plain f) h0 (by decide) (fun a0
      t1 ha0 ht1 => put_ok ht1 ha0))) (by decide) (fun a2 t3 ha2 ht3 => put_ok ht3 ha2)

theorem toAonOnly_ok {a0 : State} {a1 : Nat} [Leaves s0] [Shifts s0] (h0 : Keeps s0 a0) : Keeps s0 (State.toAonOnly a0
    a1) := by
  unfold State.toAonOnly
  lift_lets -underBinder +implicits
  intro x0
  exact set_ok (setDomains_ok (dev_ok (coreReset_ok h0) (by decide))) rfl

theorem ledgerPut_ok {a0 : State} {a1 : Nat} {a2 : List Byte} (h0 : Keeps s0 a0) : Keeps s0 (State.ledgerPut a0 a1 a2)
    := by
  unfold State.ledgerPut
  split
  · exact h0
  · exact Keeps.other h0 rfl rfl rfl rfl

theorem outcome_ok {a0 : State} {a1 : Nat} {a2 : Nat} (h0 : Keeps s0 a0) : Keeps s0 (State.outcome a0 a1 a2) := by
  unfold State.outcome
  exact ledgerPut_ok h0

theorem stepStart_ok {a0 : State} (h0 : Keeps s0 a0) : Keeps s0 (State.stepStart a0) := by
  unfold State.stepStart
  exact set_ok h0 rfl

theorem startBoot_ok {a0 : State} {a1 : Nat} [Leaves s0] [Shifts s0] (h0 : Keeps s0 a0) : Keeps s0 (State.startBoot a0
    a1) := by
  unfold State.startBoot
  lift_lets -underBinder +implicits
  intro x0
  intro x1
  have hx1 : Keeps s0 x1 := setDomains_ok (set_ok (dev_ok h0 (by decide)) rfl)
  clear_value x1
  intro x2
  have hx2 : Keeps s0 x2 := Keeps.ite (set_ok hx1 rfl) hx1
  clear_value x2
  intro x3
  have hx3 : Keeps s0 x3 := set_ok (put_ok (set_ok hx2 rfl) rfl) rfl
  clear_value x3
  intro x4
  have hx4 : Keeps s0 x4 := stepStart_ok (set_ok hx3 rfl)
  clear_value x4
  exact Keeps.other hx4 rfl rfl rfl rfl

theorem tryBoot_ok {a0 : State} [Shifts s0] (h0 : Keeps s0 a0) : Keeps s0 (State.tryBoot a0) := by
  unfold State.tryBoot
  split
  · next hc =>
    refine h0.guard (dev_ne (v := dsAonOnly) (by simp at hc; exact hc.1.1.1) (by decide)) (fun b _ e h => ?_)
    have : Shifts b := ⟨e ▸ Shifts.out⟩
    exact startBoot_ok (set_ok h rfl)
  · exact h0

theorem ledgerEnd_ok {a0 : State} (h0 : Keeps s0 a0) : Keeps s0 (State.ledgerEnd a0) := by
  unfold State.ledgerEnd
  exact ledgerPut_ok h0

theorem loadSeg_ok {a0 : State} {a1 : Nat × Nat × Nat × Nat × List Byte} (h0 : Keeps s0 a0) : Keeps s0 (State.loadSeg
    a0 a1) := by
  unfold State.loadSeg
  split
  · lift_lets -underBinder +implicits
    intro x5
    have hx5 : ∀ y6, (∀ z0, ∀ z1, Keeps s0 z1 → Keeps s0 (y6 z0 z1)) → ∀ y7, Keeps s0 y7 → Keeps s0 (x5 y6 y7) := by
      intro y6 hy6 y7 hy7
      exact hy6 _ _ (hy6 _ _ hy7)
    clear_value x5
    split
    · exact hx5 _ (fun y8 y9 hy9 => wr_ok hy9) _ h0
    · exact hx5 _ (fun y10 y11 hy11 => forEach_ok hy11 (fun a12 t13 ht13 => wr_ok ht13)) _ h0
    · exact hx5 _ (fun y14 y15 hy15 => wr_ok hy15) _ h0
    · exact forEach_ok h0 (fun a16 t17 ht17 => unpack_ok ht17 (by decide))
    · refine hx5 _ (fun y18 y19 hy19 => ?_) _ h0
      lift_lets -underBinder +implicits
      intro x20
      have hx20 : Keeps s0 x20 := set_ok hy19 rfl
      clear_value x20
      exact forEach_ok hx20 (fun a21 t22 ht22 => set_ok ht22 rfl)
    · exact wr_ok h0
    · exact set_ok h0 rfl
    · exact h0

theorem loadRoms_ok {a0 : State} {a1 : List Byte} (h0 : Keeps s0 a0) : Keeps s0 (State.loadRoms a0 a1) := by
  unfold State.loadRoms
  exact forEach_ok h0 (fun a0 t1 ht1 => Keeps.ite (wr_ok ht1) (Keeps.ite (wr_ok ht1) ht1))

theorem loadIds_ok {a0 : State} {a1 : List Byte} (h0 : Keeps s0 a0) : Keeps s0 (State.loadIds a0 a1) := by
  unfold State.loadIds
  lift_lets -underBinder +implicits
  intro x0
  intro x1
  exact Keeps.ite (set_ok (set_ok h0 rfl) rfl) (set_ok (set_ok h0 rfl) rfl)

theorem firnQueue_ok {a0 : State} {a1 : Bool} {a2 : Bool} {a3 : Nat} {a4 : FirnQ} (h0 : Keeps s0 a0) : Keeps s0
    (State.firnQueue a0 a1 a2 a3 a4) := by
  unfold State.firnQueue
  lift_lets -underBinder +implicits
  intro x0
  have hx0 : Keeps s0 x0 := add_ok h0 rfl
  clear_value x0
  intro x1
  have hx1 : Keeps s0 x1 := Keeps.other h0 rfl rfl rfl rfl
  clear_value x1
  intro x2
  have hx2 : Keeps s0 x2 := inc_ok (put_ok (put_ok hx1 rfl) rfl) rfl
  clear_value x2
  intro x3
  intro x4
  have hx4 : Keeps s0 x4 := set_ok (set_ok (set_ok hx2 rfl) rfl) rfl
  clear_value x4
  intro x5
  have hx5 : Keeps s0 x5 := set_ok (set_ok (put_ok hx4 rfl) rfl) rfl
  clear_value x5
  exact Keeps.ite (Keeps.other hx0 rfl rfl rfl rfl) (Keeps.ite (set_ok (set_ok (set_ok (set_ok hx5 rfl) rfl) rfl) rfl)
      h0)

theorem firnCheck_ok {a0 : State} (h0 : Keeps s0 a0) : Keeps s0 (State.firnCheck a0) := by
  unfold State.firnCheck
  lift_lets -underBinder +implicits
  intro x0
  intro x1
  intro x2
  intro x3
  have hx3 : Keeps s0 x3 := put_ok h0 rfl
  clear_value x3
  intro x4
  have hx4 : Keeps s0 x4 := put_ok (put_ok (put_ok hx3 rfl) rfl) rfl
  clear_value x4
  intro x5
  have hx5 : Keeps s0 x5 := put_ok (set_ok hx3 rfl) rfl
  clear_value x5
  exact Keeps.ite (Keeps.other hx4 rfl rfl rfl rfl) (forEach_ok hx5 (fun a6 t7 ht7 => firnQueue_ok ht7))

end Sys2Proof.Laws
end

