-- ==== Sys2Proof/Laws/KeepsPower.lean ====
section
/-! SUPPORT. Sys2Proof/Laws/KeepsPower.lean: `Keeps` of each operation of Machine/Power.lean. -/

namespace Sys2Proof.Laws

open Sys2Proof.Machine

variable {s0 : Base}

theorem execAonStart_ok {a0 : Bool} {a1 : Bool} {a2 : Nat} {a3 : State} [Leaves s0] [Shifts s0] [Moves s0] (h3 : Keeps
    s0 a3) : KeepsR s0 (execAonStart a0 a1 a2 a3) := by
  unfold execAonStart
  lift_lets -underBinder +implicits
  intro x0
  have hx0 : Keeps s0 x0 := keepFrom_ok h3 (.inr Moves.out) (by decide)
  clear_value x0
  intro x1
  have hx1 : Keeps s0 x1 := Keeps.other hx0 rfl rfl rfl rfl
  clear_value x1
  intro x2
  have hx2 : Keeps s0 x2 := dev_ok (put_ok (put_ok hx1 rfl) rfl) (by decide)
  clear_value x2
  exact ite_of (Q := KeepsR s0) (KeepsR.next h3) (KeepsR.next (tryBoot_ok (setDomains_ok hx2)))

theorem execVddAonLoss_ok {a0 : State} [Leaves s0] [Shifts s0] [Moves s0] (h0 : Keeps s0 a0) : KeepsR s0
    (execVddAonLoss a0) := by
  unfold execVddAonLoss
  lift_lets -underBinder +implicits
  intro x0
  have hx0 : Keeps s0 x0 := keepFrom_ok h0 (.inr Moves.out) (by decide)
  clear_value x0
  intro x1
  have hx1 : Keeps s0 x1 := Keeps.other hx0 rfl rfl rfl rfl
  clear_value x1
  exact ite_of (Q := KeepsR s0) (KeepsR.next h0) (KeepsR.next (dev_ok (setDomains_ok hx1) (by decide)))

theorem execRailLeavesRange_ok {a0 : Nat} {a1 : State} [Leaves s0] [Shifts s0] (h1 : Keeps s0 a1) : KeepsR s0
    (execRailLeavesRange a0 a1) := by
  unfold execRailLeavesRange
  lift_lets -underBinder +implicits
  intro x0
  have hx0 : Keeps s0 x0 := set_ok h1 rfl
  clear_value x0
  intro x1
  have hx1 : Keeps s0 x1 := set_ok hx0 rfl
  clear_value x1
  exact ite_of (Q := KeepsR s0) (KeepsR.next h1) (KeepsR.next (put_ok (toAonOnly_ok hx1) rfl))

theorem execRailEntersRange_ok {a0 : Nat} {a1 : State} [Shifts s0] (h1 : Keeps s0 a1) : KeepsR s0 (execRailEntersRange
    a0 a1) := by
  unfold execRailEntersRange
  lift_lets -underBinder +implicits
  intro x0
  have hx0 : Keeps s0 x0 := set_ok (set_ok h1 rfl) rfl
  clear_value x0
  exact ite_of (Q := KeepsR s0) (KeepsR.next h1) (KeepsR.next (tryBoot_ok (put_ok hx0 rfl)))

theorem execSysRstNAssert_ok {a0 : State} [Leaves s0] [Shifts s0] (h0 : Keeps s0 a0) : KeepsR s0 (execSysRstNAssert
    a0) := by
  unfold execSysRstNAssert
  lift_lets -underBinder +implicits
  intro x0
  have hx0 : Keeps s0 x0 := put_ok h0 rfl
  clear_value x0
  exact ite_of (Q := KeepsR s0) (KeepsR.next h0) (ite_of (Q := KeepsR s0) (KeepsR.next hx0) (KeepsR.next (toAonOnly_ok
      hx0)))

theorem execSysRstNRelease_ok {a0 : Bool} {a1 : Nat} {a2 : State} [Shifts s0] (h2 : Keeps s0 a2) : KeepsR s0
    (execSysRstNRelease a0 a1 a2) := by
  unfold execSysRstNRelease
  exact ite_of (Q := KeepsR s0) (KeepsR.next h2) (KeepsR.next (tryBoot_ok (put_ok (put_ok h2 rfl) rfl)))

theorem execUvHoldClear_ok {a0 : Nat} {a1 : State} [Leaves s0] [Shifts s0] (h1 : Keeps s0 a1) : KeepsR s0
    (execUvHoldClear a0 a1) := by
  unfold execUvHoldClear
  lift_lets -underBinder +implicits
  intro x0
  have hx0 : Keeps s0 x0 := set_ok (set_ok (put_ok h1 rfl) rfl) rfl
  clear_value x0
  exact ite_of (Q := KeepsR s0) (KeepsR.next h1) (ite_of (Q := KeepsR s0) (KeepsR.next (toAonOnly_ok hx0))
      (KeepsR.next (tryBoot_ok hx0)))

theorem execDevReset_ok {a0 : Who} {am : Nat} {a2 : State} [Rights s0 a0] (h2 : Keeps s0 a2) :
    KeepsR s0 (execDevReset a0 am a2) := by
  unfold execDevReset
  split
  · next hc =>
    have : Leaves s0 := ⟨(Rights.out hc.1).1⟩
    have : Shifts s0 := ⟨(Rights.out hc.1).2⟩
    exact KeepsR.next (tryBoot_ok (toAonOnly_ok h2))
  · exact KeepsR.next h2

theorem execGlbProfileWrite_ok {a0 : Who} {a1 : Nat} {a2 : State} (h2 : Keeps s0 a2) : KeepsR s0 (execGlbProfileWrite
    a0 a1 a2) := by
  unfold execGlbProfileWrite
  lift_lets -underBinder +implicits
  intro x0
  exact ite_of (Q := KeepsR s0) (KeepsR.next h2) (ite_of (Q := KeepsR s0) (KeepsR.next (put_ok h2 rfl)) (KeepsR.next
      (put_ok (set_ok h2 rfl) rfl)))

theorem execProfileChangeDone_ok {a0 : State} [Shifts s0] (h0 : Keeps s0 a0) : KeepsR s0 (execProfileChangeDone a0) :=
    by
  unfold execProfileChangeDone
  split
  · next hc =>
    refine KeepsR.next (h0.guard (dev_ne (v := dsIdle) (by simp at hc; exact hc.2) (by decide)) (fun b _ e h => ?_))
    have : Shifts b := ⟨e ▸ Shifts.out⟩
    exact Keeps.ite (dev_ok (put_ok (put_ok (set_ok h rfl) rfl) rfl) (by decide)) (put_ok (put_ok (set_ok h rfl) rfl)
        rfl)
  · exact KeepsR.next h0

theorem execDpEnSet_ok {a0 : Who} {a1 : State} [Shifts s0] (h1 : Keeps s0 a1) : KeepsR s0 (execDpEnSet a0 a1) := by
  unfold execDpEnSet
  refine ite_of (Q := KeepsR s0) (KeepsR.next h1) ?_
  lift_lets -underBinder +implicits
  intro x0
  split
  · next hc =>
    refine KeepsR.next (h1.guard (dev_ne hc (by decide)) (fun b _ e h => ?_))
    have : Shifts b := ⟨e ▸ Shifts.out⟩
    exact Keeps.ite (put_ok (put_ok h rfl) rfl) (dev_ok (put_ok h rfl) (by decide))
  · exact ite_of (Q := KeepsR s0) (KeepsR.next (put_ok (put_ok h1 rfl) rfl)) (KeepsR.next (put_ok h1 rfl))

theorem execDpEnClear_ok {a0 : Who} {a1 : State} (h1 : Keeps s0 a1) : KeepsR s0 (execDpEnClear a0 a1) := by
  unfold execDpEnClear
  lift_lets -underBinder +implicits
  intro x0
  have hx0 : Keeps s0 x0 := put_ok h1 rfl
  clear_value x0
  exact ite_of (Q := KeepsR s0) (KeepsR.next h1) (ite_of (Q := KeepsR s0) (KeepsR.next (discardAll_ok (put_ok hx0
      rfl))) (KeepsR.next (put_ok hx0 rfl)))

theorem execDrainComplete_ok {a0 : State} [Shifts s0] (h0 : Keeps s0 a0) : KeepsR s0 (execDrainComplete a0) := by
  unfold execDrainComplete
  split
  · next hc =>
    refine KeepsR.next (h0.guard (dev_ne (v := dsService) (by simp at hc; exact hc.1.1.1) (by decide)) (fun b _ e h =>
        ?_))
    have : Shifts b := ⟨e ▸ Shifts.out⟩
    exact dev_ok (put_ok h rfl) (by decide)
  · exact KeepsR.next h0

theorem execFirnFlushDone_ok {a0 : State} (h0 : Keeps s0 a0) : KeepsR s0 (execFirnFlushDone a0) := by
  unfold execFirnFlushDone
  split
  · exact KeepsR.next h0
  · next hc =>
    have hg : a0.dev ≠ dsAonOnly ∧ a0.dev ≠ 0 := by simp at hc; exact ⟨hc.1.1.2, hc.1.2⟩
    lift_lets -underBinder +implicits
    intro x0 x1
    have k : ∀ b : Base, Keeps b a0 → Keeps b x1 := fun b h => set_ok (put_ok (put_ok (firnDrain_ok h) rfl) rfl) rfl
    exact KeepsR.next (Keeps.ite (whiteout_ok (k _ h0) (fun hw => dev_kept k hg (h0.form hw))) (k _ h0))

theorem execPwrWarn_ok {a0 : State} (h0 : Keeps s0 a0) : KeepsR s0 (execPwrWarn a0) := by
  unfold execPwrWarn
  exact ite_of (Q := KeepsR s0) (KeepsR.next h0) (KeepsR.next (detect_ok h0))

theorem execCompletionSeal_ok {a0 : State} (h0 : Keeps s0 a0) : KeepsR s0 (execCompletionSeal a0) := by
  unfold execCompletionSeal
  split
  · next hc =>
    have hg : a0.dev ≠ dsAonOnly ∧ a0.dev ≠ 0 := by simp at hc; exact ⟨hc.1.2, hc.2⟩
    lift_lets -underBinder +implicits
    intro x0
    have k : ∀ b : Base, Keeps b a0 → Keeps b x0 := fun b h => put_ok (whiteoutOutputs_ok (woRecord_ok h)) rfl
    exact KeepsR.next (Keeps.ite (k _ h0) (whiteout_ok (k _ h0) (fun hw => dev_kept k hg (h0.form hw))))
  · exact KeepsR.next h0

theorem stepDone_ok {a0 : State} {a1 : Nat} (h0 : Keeps s0 a0) : Keeps s0 (State.stepDone a0 a1) := by
  unfold State.stepDone
  lift_lets -underBinder +implicits
  intro x0
  have hx0 : Keeps s0 x0 := stepStart_ok (ledgerEnd_ok (outcome_ok (set_ok h0 rfl)))
  clear_value x0
  exact Keeps.ite (outcome_ok hx0) hx0

theorem bootFuses_ok {a0 : State} (h0 : Keeps s0 a0) : Keeps s0 (State.bootFuses a0) := by
  unfold State.bootFuses
  lift_lets -underBinder +implicits
  intro x0
  have hx0 : Keeps s0 x0 := set_ok (put_ok h0 rfl) rfl
  clear_value x0
  intro x1
  have hx1 : Keeps s0 x1 := put_ok (set_ok hx0 rfl) rfl
  clear_value x1
  exact Keeps.ite hx1 (put_ok (set_ok hx1 rfl) rfl)

theorem bootSerdes_ok {a0 : State} {a1 : Nat} (h0 : Keeps s0 a0) : Keeps s0 (State.bootSerdes a0 a1) := by
  unfold State.bootSerdes
  lift_lets -underBinder +implicits
  intro x0
  have hx0 : Keeps s0 x0 := set_ok h0 rfl
  clear_value x0
  intro x1
  have hx1 : Keeps s0 x1 := set_ok hx0 rfl
  clear_value x1
  exact put_ok (drbgEntropy_ok hx1) rfl

theorem takeImage_ok {a0 : State} {a1 : List Byte} {a2 : Bool} (h0 : Keeps s0 a0) : Keeps s0 (State.takeImage a0 a1
    a2) := by
  unfold State.takeImage
  lift_lets -underBinder +implicits
  intro x0
  have hx0 : Keeps s0 x0 := ledgerPut_ok (put_ok h0 rfl)
  clear_value x0
  intro x1
  have hx1 : Keeps s0 x1 := loadRoms_ok (set_ok (set_ok hx0 rfl) rfl)
  clear_value x1
  intro x2
  have hx2 : Keeps s0 x2 := loadIds_ok hx1
  clear_value x2
  exact Keeps.other hx2 rfl rfl rfl rfl

theorem execBootStepComplete_ok {a0 : Nat} {a1 : List Byte} {a2 : Bool} {a3 : List Byte} {a4 : Bool} {a5 : Nat} {a6 :
    State} (h6 : Keeps s0 a6) : KeepsR s0 (execBootStepComplete a0 a1 a2 a3 a4 a5 a6) := by
  unfold execBootStepComplete
  refine ite_of (Q := KeepsR s0) (KeepsR.next h6) ?_
  split
  · exact KeepsR.next (stepDone_ok (bootFuses_ok h6))
  · exact KeepsR.next (stepDone_ok (forEach_mem (P := fun f => Plain f) h6 (by decide) (fun a0 t1 ha0 ht1 => put_ok
      ht1 ha0)))
  · split
    · exact KeepsR.next h6
    · exact KeepsR.next (stepDone_ok (takeImage_ok h6))
  · exact KeepsR.next (stepDone_ok (firnCheck_ok h6))
  · exact KeepsR.next (stepDone_ok (bootSerdes_ok h6))
  · lift_lets -underBinder +implicits
    intro x4
    have hx4 : Keeps s0 x4 := forEach_ok h6 (fun a5 t6 ht6 => loadSeg_ok ht6)
    clear_value x4
    exact ite_of (Q := KeepsR s0) (KeepsR.next (stepDone_ok (startMgmt_ok (Keeps.other hx4 rfl rfl rfl rfl))))
        (KeepsR.next h6)
  · exact KeepsR.next h6
  · exact ite_of (Q := KeepsR s0) (KeepsR.next h6) (KeepsR.next (stepDone_ok h6))

theorem ledgerRestart_ok {s a0 : State} (h0 : Keeps s0 s) (k : ∀ b : Base, Keeps b s → Keeps b a0)
    (hd : s.dev = dsBooting) : Keeps s0 (State.ledgerRestart a0) := by
  unfold State.ledgerRestart
  lift_lets -underBinder +implicits
  intro x0 x1 x2
  refine forEach_ok (h0.guard (dev_ne hd (by decide)) (fun b _ _ h => ?_)) (fun a4 t5 ht5 => detect_ok (put_ok ht5 rfl))
  refine h.back (fun hw => ?_) (fun c _ e h => ?_)
  · rw [hd]
    have : Leaves ⟨s, false, false, false⟩ := ⟨rfl⟩
    have : Shifts ⟨s, false, false, false⟩ := ⟨rfl⟩
    exact startBoot_dev (set_sorted (wf_sorted ((coreReset_ok (k ⟨s, false, false, false⟩ .refl)).form hw)))
  · have : Leaves c := ⟨e.trans Leaves.out⟩
    exact startBoot_ok (set_ok (coreReset_ok (k _ h)) rfl)

theorem bootDead_ok {a0 : State} {a1 : Nat} (h0 : Keeps s0 a0) : Keeps s0 (State.bootDead a0 a1) := by
  unfold State.bootDead
  exact enterWhiteout_ok (outcome_ok h0)

theorem execBootStepFail_ok {am : Nat} {a1 : Bool} {a2 : State} (h2 : Keeps s0 a2) :
    KeepsR s0 (execBootStepFail am a1 a2) := by
  unfold execBootStepFail
  lift_lets -underBinder +implicits
  intro x0 x1 x2 x3
  split
  · exact KeepsR.next h2
  · next hc =>
    have hx1 : Keeps s0 x1 := ledgerEnd_ok h2
    have k : ∀ b : Base, Keeps b a2 → Keeps b x3 := fun b h => stepStart_ok (outcome_ok (set_ok (set_ok (ledgerEnd_ok
        h) rfl) rfl))
    refine ite_of (Q := KeepsR s0) (KeepsR.next (detect_ok hx1)) (ite_of (Q := KeepsR s0) (KeepsR.next (detect_ok hx1))
      (ite_of (Q := KeepsR s0) (KeepsR.next ?_) (KeepsR.next (bootDead_ok hx1))))
    exact Keeps.ite (ledgerRestart_ok h2 k (Decidable.not_not.1 hc)) (k _ h2)

theorem execReady_ok {a0 : Who} {am : Nat} {a2 : State} [Shifts s0] (h2 : Keeps s0 a2) : KeepsR s0 (execReady a0 am
    a2) := by
  unfold execReady
  lift_lets -underBinder +implicits
  intro x0
  split
  · next hc =>
    refine KeepsR.next (h2.guard (dev_ne (v := dsBooting) (by simp at hc; exact hc.1.1.1.2) (by decide)) (fun b _ e h
        => ?_))
    have : Shifts b := ⟨e ▸ Shifts.out⟩
    exact dev_ok (stepDone_ok (set_ok (put_ok h rfl) rfl)) (by decide)
  · exact KeepsR.next h2

theorem execClearAlt_ok {a0 : Who} {a1 : Nat} {a2 : State} (h2 : Keeps s0 a2) : KeepsR s0 (execClearAlt a0 a1 a2) := by
  unfold execClearAlt
  exact ite_of (Q := KeepsR s0) (KeepsR.next (set_ok h2 rfl)) (KeepsR.next h2)

theorem fuseRefuse_ok {a0 : State} (h0 : Keeps s0 a0) : Keeps s0 (State.fuseRefuse a0) := by
  unfold State.fuseRefuse
  exact put_ok (put_ok h0 rfl) rfl

theorem execFuseArm_ok {a0 : Who} {a1 : Nat} {a2 : Nat} {a3 : State} (h3 : Keeps s0 a3) : KeepsR s0 (execFuseArm a0 a1
    a2 a3) := by
  unfold execFuseArm
  exact ite_of (Q := KeepsR s0) (KeepsR.next h3) (ite_of (Q := KeepsR s0) (KeepsR.next (put_ok h3 rfl)) (ite_of (Q :=
      KeepsR s0) (KeepsR.next (set_ok (set_ok (set_ok (put_ok h3 rfl) rfl) rfl) rfl)) (KeepsR.next h3)))

theorem fuseRun_ok {a0 : State} {a1 : Who} {a2 : Nat} {a3 : Nat} {a4 : Bool} {a5 : State → State} (h0 : Keeps s0 a0)
    (h5 : ∀ z0, Keeps s0 z0 → Keeps s0 (a5 z0)) : Keeps s0 (State.fuseRun a0 a1 a2 a3 a4 a5) := by
  unfold State.fuseRun
  exact Keeps.ite h0 (Keeps.ite (put_ok h0 rfl) (Keeps.ite (fuseRefuse_ok h0) (h5 _ (put_ok (put_ok h0 rfl) rfl))))

theorem execDebugClose_ok {a0 : Who} {a1 : Nat} {a2 : State} (h2 : Keeps s0 a2) : KeepsR s0 (execDebugClose a0 a1 a2)
    := by
  unfold execDebugClose
  exact KeepsR.next (fuseRun_ok h2 (fun y0 hy0 => fuse_ok hy0))

theorem execRevoke_ok {a0 : Who} {a1 : Nat} {a2 : State} (h2 : Keeps s0 a2) : KeepsR s0 (execRevoke a0 a1 a2) := by
  unfold execRevoke
  exact KeepsR.next (fuseRun_ok h2 (fun y0 hy0 => set_ok hy0 rfl))

theorem execSvn_ok {a0 : Who} {a1 : Nat} {a2 : State} (h2 : Keeps s0 a2) : KeepsR s0 (execSvn a0 a1 a2) := by
  unfold execSvn
  exact KeepsR.next (fuseRun_ok h2 (fun y0 hy0 => set_ok hy0 rfl))

theorem execLedgerSelect_ok {a0 : Who} {a1 : Nat} {a2 : State} (h2 : Keeps s0 a2) : KeepsR s0 (execLedgerSelect a0 a1
    a2) := by
  unfold execLedgerSelect
  exact ite_of (Q := KeepsR s0) (KeepsR.next (set_ok h2 rfl)) (KeepsR.next h2)

theorem refGone_ok {a0 : State} (h0 : Keeps s0 a0) : Keeps s0 (State.refGone a0) := by
  unfold State.refGone
  lift_lets -underBinder +implicits
  intro x0
  have hx0 : Keeps s0 x0 := put_ok h0 rfl
  clear_value x0
  exact Keeps.ite (enterDrift_ok hx0) hx0

theorem execSysRefclkLost_ok {a0 : State} (h0 : Keeps s0 a0) : KeepsR s0 (execSysRefclkLost a0) := by
  unfold execSysRefclkLost
  lift_lets -underBinder +implicits
  intro x0
  have hx0 : Keeps s0 x0 := put_ok (put_ok h0 rfl) rfl
  clear_value x0
  exact ite_of (Q := KeepsR s0) (KeepsR.next h0) (KeepsR.next (Keeps.ite (refGone_ok hx0) hx0))

theorem execSysRefclkReturn_ok {a0 : State} (h0 : Keeps s0 a0) : KeepsR s0 (execSysRefclkReturn a0) := by
  unfold execSysRefclkReturn
  exact ite_of (Q := KeepsR s0) (KeepsR.next h0) (KeepsR.next (put_ok h0 rfl))

theorem execSdsCalibrationDone_ok {a0 : Nat} {a1 : State} (h1 : Keeps s0 a1) : KeepsR s0 (execSdsCalibrationDone a0
    a1) := by
  unfold execSdsCalibrationDone
  exact ite_of (Q := KeepsR s0) (KeepsR.next (set_ok h1 rfl)) (KeepsR.next h1)

end Sys2Proof.Laws
end

