-- ==== Sys2Proof/Laws/DevState.lean ====
section
/-! SUPPORT. Sys2Proof/Laws/DevState.lean: which state the device is in after the operations that move it (Table OV-4). -/

namespace Sys2Proof.Laws

open Sys2Proof.Machine

variable {s t : State}

theorem dev_of_set {v : Nat} (h : SM.sorted s.fld = true) (hv : v ≤ 5) : (s.set Reg.GLB_STATE_state 0 v).dev = v :=
  (get_set_same h).trans (Nat.mod_eq_of_lt (Nat.lt_of_le_of_lt hv (by decide)))

theorem Spares.dev (h : Spares Reg.GLB_STATE_state 0 s t) (hs : SM.sorted s.fld = true) : t.dev = s.dev := (h hs).2

theorem sorted_keepFrom {n : Nat} (h : SM.sorted s.fld = true) : SM.sorted (s.keepFrom n).fld = true := sm_sorted_filter h

theorem enterDrift_sorted {c : Nat} (h : SM.sorted s.fld = true) : SM.sorted (s.enterDrift c).fld = true := by
  unfold State.enterDrift State.dropSlew
  lift_lets -underBinder +implicits
  intro x0 x1 x2
  have h2 : SM.sorted x2.fld = true := ite_of (Q := fun t => SM.sorted (State.fld t) = true) (set_sorted h) h
  clear_value x2
  intro x3
  have h3 : SM.sorted x3.fld = true := set_sorted h2
  clear_value x3
  intro x4
  have h4 : SM.sorted x4.fld = true := set_sorted (set_sorted (set_sorted (set_sorted h3)))
  clear_value x4
  exact ite_of (Q := fun t => SM.sorted (State.fld t) = true) (set_sorted (set_sorted h4)) h4

theorem coreReset_sorted (h : SM.sorted s.fld = true) : SM.sorted s.coreReset.fld = true := by
  unfold State.coreReset
  lift_lets -underBinder +implicits
  intro x0 x1
  have h1 : SM.sorted x1.fld = true := by
    have k : Spares Reg.GLB_STATE_state 0 x0 x1 := Spares.forEach .refl (fun a _ v hv => (hv.put (by decide)).put (by decide))
    exact (k (sorted_keepFrom h)).1
  clear_value x1
  exact enterDrift_sorted (set_sorted h1)

/-- A fall to AON_ONLY. -/
theorem toAonOnly_dev {entry : Nat} (h : SM.sorted s.fld = true) :
    (s.toAonOnly entry).dev = dsAonOnly ∧ SM.sorted (s.toAonOnly entry).fld = true := by
  unfold State.toAonOnly
  lift_lets -underBinder +implicits
  intro x0
  have k : Spares Reg.GLB_STATE_state 0 (s.coreReset.set Reg.GLB_STATE_state 0 dsAonOnly)
      (((s.coreReset.set Reg.GLB_STATE_state 0 dsAonOnly).setDomains false).set Reg.BTX_entry 0 x0) :=
    (setDomains_spares .refl (by decide)).set (by decide)
  have hs := coreReset_sorted h
  exact ⟨(k.dev (set_sorted hs)).trans (dev_of_set hs (by decide)), (k (set_sorted hs)).1⟩

/-- From AON_ONLY the device starts if every rail is in range, `SYS_RST_N` is released and `uv_hold` is clear; otherwise
nothing changes. -/
theorem tryBoot_dev (h : SM.sorted s.fld = true) :
    s.tryBoot.dev = if s.dev = dsAonOnly ∧ s.flag Reg.RAIL_out 0 = false ∧ s.flag Reg.RST_low 0 = false ∧
      s.flag Reg.FLT_RAIL_uv_hold 0 = false then dsBooting else s.dev := by
  unfold State.tryBoot
  by_cases hc : s.dev = dsAonOnly ∧ s.flag Reg.RAIL_out 0 = false ∧ s.flag Reg.RST_low 0 = false ∧
      s.flag Reg.FLT_RAIL_uv_hold 0 = false
  · rw [if_pos hc, if_pos (by simp [hc.1, hc.2.1, hc.2.2.1, hc.2.2.2])]
    exact startBoot_dev (set_sorted h)
  · rw [if_neg hc, if_neg (fun e => hc (by simp at e; simp [e]))]

end Sys2Proof.Laws
end

