-- ==== Sys2Proof/Laws/KeepsInline.lean ====
section
/-! SUPPORT. Sys2Proof/Laws/KeepsInline.lean: `Keeps` of each operation of Machine/Inline.lean. -/

namespace Sys2Proof.Laws

open Sys2Proof.Machine

variable {s0 : Base}

theorem saNear_ok {a0 : State} {a1 : Nat} {a2 : List Byte} (h0 : Keeps s0 a0) : Keeps s0 (State.saNear a0 a1 a2) := by
  unfold State.saNear
  exact Keeps.ite (oflEvent_ok (put_ok h0 rfl)) h0

theorem inlineTake_ok {a0 : State} {a1 : Nat} {a2 : Nat} {a3 : Nat} {a4 : List Byte} (h0 : Keeps s0 a0) : Keeps s0
    (State.inlineTake a0 a1 a2 a3 a4) := by
  unfold State.inlineTake
  lift_lets -underBinder +implicits
  intro x0
  intro x1
  intro x2
  intro x3
  intro x4
  intro x5
  intro x6
  intro x7
  have hx7 : Keeps s0 x7 := Keeps.ite h0 (wr_ok h0)
  clear_value x7
  intro x8
  have hx8 : Keeps s0 x8 := Keeps.ite (saNear_ok hx7) hx7
  clear_value x8
  intro x9
  have hx9 : KeepsS s0 x9 := fetchKey_ok hx8
  clear_value x9
  intro x10
  exact addJob_ok (pmu_ok (KeepsS.to hx9))

theorem placeTake_ok {a0 : State} {a1 : Nat} {a2 : Nat} (h0 : Keeps s0 a0) : Keeps s0 (State.placeTake a0 a1 a2) := by
  unfold State.placeTake
  exact addJob_ok (pmu_ok h0)

theorem saExhaust_ok {a0 : State} {a1 : Nat} {a2 : Nat} (h0 : Keeps s0 a0) : Keeps s0 (State.saExhaust a0 a1 a2) := by
  unfold State.saExhaust
  lift_lets -underBinder +implicits
  intro x0
  have hx0 : Keeps s0 x0 := Keeps.ite h0 (oflEvent_ok (put_ok h0 rfl))
  clear_value x0
  exact stageEnd_ok (oflCnt_ok hx0)

theorem execInlineJobStart_ok {a0 : Nat} {a1 : State} (h1 : Keeps s0 a1) : KeepsR s0 (execInlineJobStart a0 a1) := by
  unfold execInlineJobStart
  split
  · lift_lets -underBinder +implicits
    intro x2
    intro x3
    intro x4
    intro x5
    exact ite_of (Q := KeepsR s0) (KeepsR.next h1) (ite_of (Q := KeepsR s0) (KeepsR.next (placeTake_ok h1)) (ite_of (Q
        := KeepsR s0) (KeepsR.next (stageEnd_ok (inc_ok h1 rfl))) (ite_of (Q := KeepsR s0) (KeepsR.next (stageEnd_ok
        h1)) (ite_of (Q := KeepsR s0) (KeepsR.next (saExhaust_ok h1)) (KeepsR.next (inlineTake_ok h1))))))
  · exact KeepsR.next h1

theorem inlineNext_ok {a0 : State} {a1 : Nat} {a2 : List Byte} {a3 : RxInfo → RxInfo} (h0 : Keeps s0 a0) : Keeps s0
    (State.inlineNext a0 a1 a2 a3) := by
  unfold State.inlineNext
  exact updFrame_ok h0

theorem saKeep_ok {a0 : State} {a1 : Job} {a2 : List Byte} (h0 : Keeps s0 a0) : Keeps s0 (State.saKeep a0 a1 a2) := by
  unfold State.saKeep
  exact Keeps.ite h0 (wr_ok h0)

theorem saOctets_ok {a0 : State} {a1 : Job} {a2 : Nat} (h0 : Keeps s0 a0) : Keeps s0 (State.saOctets a0 a1 a2) := by
  unfold State.saOctets
  exact saKeep_ok h0

theorem inlineFrameStep_ok {a0 : State} {a1 : Job} (h0 : Keeps s0 a0) : Keeps s0 (State.inlineFrameStep a0 a1) := by
  unfold State.inlineFrameStep
  lift_lets -underBinder +implicits
  intro x0
  intro x1
  intro x2
  intro x3
  intro x4
  refine Keeps.ite ?_ ?_
  · clear_value x3
    split
    · exact noHeader_ok h0
    · exact inlineNext_ok (saOctets_ok h0)
  · clear_value x4
    split
    · exact inlineNext_ok (saKeep_ok h0)
    · exact Keeps.ite (inlineNext_ok h0) (stageEnd_ok (oflCnt_ok h0))

theorem tlsFollow_ok {a0 : State} {a1 : Job} {a2 : Nat} {a3 : Nat} {a4 : List Byte} (h0 : Keeps s0 a0) : Keeps s0
    (State.tlsFollow a0 a1 a2 a3 a4) := by
  unfold State.tlsFollow
  lift_lets -underBinder +implicits
  intro x0
  intro x1
  intro x2
  intro x3
  have hx3 : Keeps s0 x3 := inlineNext_ok h0
  clear_value x3
  intro x4
  have hx4 : Keeps s0 x4 := oflEvent_ok (saKeep_ok (Keeps.other hx3 rfl rfl rfl rfl))
  clear_value x4
  intro x5
  intro x6
  have hx6 : Keeps s0 x6 := saKeep_ok h0
  clear_value x6
  intro x7
  have hx7 : Keeps s0 x7 := Keeps.ite hx6 (Keeps.other hx6 rfl rfl rfl rfl)
  clear_value x7
  exact Keeps.ite hx3 (Keeps.ite (Keeps.ite hx4 (inlineNext_ok hx7)) (Keeps.ite hx3 hx4))

theorem inlineStream_ok {a0 : State} {a1 : Job} (h0 : Keeps s0 a0) : Keeps s0 (State.inlineStream a0 a1) := by
  unfold State.inlineStream
  lift_lets -underBinder +implicits
  intro x0
  intro x1
  split
  · exact noHeader_ok h0
  · refine Keeps.ite ?_ ?_
    · refine Keeps.ite (tlsFollow_ok h0) ?_
      split
      · exact stageEnd_ok h0
      · exact inlineNext_ok (saOctets_ok h0)
    · split
      · exact noHeader_ok h0
      · lift_lets -underBinder +implicits
        intro x8
        exact inlineNext_ok (saOctets_ok h0)

theorem inlineEnd_ok {a0 : State} {a1 : Job} (h0 : Keeps s0 a0) : Keeps s0 (State.inlineEnd a0 a1) := by
  unfold State.inlineEnd
  lift_lets -underBinder +implicits
  intro x0
  have hx0 : Keeps s0 x0 := pmu_ok (jobDrop_ok h0)
  clear_value x0
  exact Keeps.ite (stageEnd_ok hx0) (Keeps.ite (updFrame_ok hx0) (Keeps.ite (inlineFrameStep_ok hx0) (inlineStream_ok
      hx0)))

theorem jobResult_ok {a0 : State} {a1 : Job} {a2 : List Byte} {a3 : List Byte} (h0 : Keeps s0 a0) : KeepsS s0
    (State.jobResult a0 a1 a2 a3) := by
  unfold State.jobResult
  lift_lets -underBinder +implicits
  intro x0
  have hx0 : KeepsS s0 x0 := freshBytes_ok h0
  clear_value x0
  intro x1
  have hx1 : KeepsS s0 x1 := freshBytes_ok (KeepsS.to hx0)
  clear_value x1
  exact ite_of (Q := KeepsS s0) (KeepsS.of (KeepsS.to hx1)) (KeepsS.of h0)

theorem jobFinish_ok {a0 : State} {a1 : Job} {a2 : List Byte} {a3 : List Byte} (h0 : Keeps s0 a0) : Keeps s0
    (State.jobFinish a0 a1 a2 a3) := by
  unfold State.jobFinish
  split
  · split
    · lift_lets -underBinder +implicits
      intro x4
      intro x5
      intro x6
      intro x7
      intro x8
      intro x9
      have hx9 : KeepsS s0 x9 := jobResult_ok h0
      clear_value x9
      intro x10
      have hx10 : Keeps s0 x10 := Keeps.ite (jobWrite_ok (KeepsS.to hx9)) (KeepsS.to hx9)
      clear_value x10
      intro x11
      have hx11 : Keeps s0 x11 := Keeps.ite (jobWrite_ok hx10) hx10
      clear_value x11
      exact jobReport_ok (jobDrop_ok hx11)

theorem laneFreed_ok {a0 : State} {a1 : Nat} (h0 : Keeps s0 a0) : Keeps s0 (State.laneFreed a0 a1) := by
  unfold State.laneFreed
  lift_lets -underBinder +implicits
  intro x0
  refine Keeps.ite h0 ?_
  split
  · exact jobRun_ok h0
  · exact h0

theorem execJobComplete_ok {a0 : Nat} {a1 : ReadResult} {a2 : ReadResult} {a3 : State} (h3 : Keeps s0 a3) : KeepsR s0
    (execJobComplete a0 a1 a2 a3) := by
  unfold execJobComplete
  split
  · exact KeepsR.next h3
  · lift_lets -underBinder +implicits
    intro x1
    have hx1 : ∀ y2, Keeps s0 (x1 y2) := by
      intro y2
      exact laneFreed_ok (jobAbort_ok (aer_ok h3))
    clear_value x1
    refine ite_of (Q := KeepsR s0) (KeepsR.next (inlineEnd_ok h3)) ?_
    refine ite_of (Q := KeepsR s0) (KeepsR.next (laneFreed_ok (jobFinish_ok h3))) ?_
    split
    · exact KeepsR.next (laneFreed_ok (jobFinish_ok h3))
    · exact ite_of (Q := KeepsR s0) (KeepsR.next (hx1 _)) (KeepsR.next (laneFreed_ok (jobFinish_ok h3)))
    · exact KeepsR.next (hx1 _)

theorem execDrbgReseed_ok {a0 : Nat} {a1 : State} (h1 : Keeps s0 a1) : KeepsR s0 (execDrbgReseed a0 a1) := by
  unfold execDrbgReseed
  refine ite_of (Q := KeepsR s0) (KeepsR.next h1) ?_
  split
  · exact KeepsR.next (drbgEntropy_ok h1)
  · exact KeepsR.next (inc_ok h1 rfl)
  · exact KeepsR.next (detect_ok h1)

end Sys2Proof.Laws
end

