-- ==== Sys2Proof/Laws/KeepsHostEp.lean ====
section
/-! SUPPORT. Sys2Proof/Laws/KeepsHostEp.lean: `Keeps` of each operation of Machine/HostEp.lean. -/

namespace Sys2Proof.Laws

open Sys2Proof.Machine

variable {s0 : Base}

theorem cfgFields_plain {off : Nat} : Plains (cfgFields off) := by
  unfold cfgFields
  repeat' split
  all_goals decide

theorem hostLink_ok {a0 : State} {a1 : Nat} {a2 : Bool} (h0 : Keeps s0 a0) : Keeps s0 (State.hostLink a0 a1 a2) := by
  unfold State.hostLink
  exact Keeps.ite h0 (inc_ok (put_ok h0 rfl) rfl)

theorem execPcieLinkUp_ok {a0 : Nat} {a1 : Nat} {a2 : Nat} {a3 : Bool} {a4 : State} (h4 : Keeps s0 a4) : KeepsR s0
    (execPcieLinkUp a0 a1 a2 a3 a4) := by
  unfold execPcieLinkUp
  lift_lets -underBinder +implicits
  intro x0
  intro x1
  have hx1 : Keeps s0 x1 := set_ok (set_ok (put_ok h4 rfl) rfl) rfl
  clear_value x1
  intro x2
  have hx2 : Keeps s0 x2 := put_ok (put_ok hx1 rfl) rfl
  clear_value x2
  exact ite_of (Q := KeepsR s0) (KeepsR.next h4) (KeepsR.next (Keeps.ite hx2 (inc_ok hx2 rfl)))

theorem portReset_ok {a0 : State} {a1 : Nat} (h0 : Keeps s0 a0) : Keeps s0 (State.portReset a0 a1) := by
  unfold State.portReset
  lift_lets -underBinder +implicits
  intro x0
  intro x1
  have hx1 : Keeps s0 x1 := put_ok h0 rfl
  clear_value x1
  intro x2
  have hx2 : Keeps s0 x2 := Keeps.ite hx1 (pfReset_ok hx1)
  clear_value x2
  intro x3
  have hx3 : Keeps s0 x3 := cfgSriov_ok (forEach_ok hx2 (fun a4 t5 ht5 => cfgCold_ok (cfgFlr_ok ht5)))
  clear_value x3
  intro x6
  have hx6 : Keeps s0 x6 := Keeps.other hx3 rfl rfl rfl rfl
  clear_value x6
  exact detect_ok hx6

theorem execPerstAssert_ok {a0 : Nat} {a1 : State} (h1 : Keeps s0 a1) : KeepsR s0 (execPerstAssert a0 a1) := by
  unfold execPerstAssert
  lift_lets -underBinder +implicits
  intro x0
  have hx0 : Keeps s0 x0 := put_ok h1 rfl
  clear_value x0
  exact ite_of (Q := KeepsR s0) (KeepsR.next h1) (KeepsR.next (hostLink_ok (Keeps.ite (portReset_ok hx0) hx0)))

theorem execPerstRelease_ok {a0 : Nat} {a1 : State} (h1 : Keeps s0 a1) : KeepsR s0 (execPerstRelease a0 a1) := by
  unfold execPerstRelease
  exact KeepsR.next (put_ok h1 rfl)

theorem execHotReset_ok {a0 : Nat} {a1 : State} (h1 : Keeps s0 a1) : KeepsR s0 (execHotReset a0 a1) := by
  unfold execHotReset
  exact ite_of (Q := KeepsR s0) (KeepsR.next h1) (KeepsR.next (portReset_ok h1))

theorem execDlDown_ok {a0 : Nat} {a1 : State} (h1 : Keeps s0 a1) : KeepsR s0 (execDlDown a0 a1) := by
  unfold execDlDown
  exact ite_of (Q := KeepsR s0) (KeepsR.next h1) (KeepsR.next (hostLink_ok (Keeps.ite (portReset_ok h1) h1)))

theorem reissue_ok {a0 : State} {a1 : Rd} [Leaves s0] (h0 : Keeps s0 a0) : Keeps s0 (State.reissue a0 a1) := by
  unfold State.reissue
  exact Keeps.ite (Keeps.other h0 rfl rfl rfl rfl) (sendRead_ok h0)

theorem kickReads_ok {a0 : State} (h0 : Keeps s0 a0) : Keeps s0 (State.kickReads a0) := by
  unfold State.kickReads
  refine forEach_ok (Keeps.other h0 rfl rfl rfl rfl) (fun _ t ht => ?_)
  split
  · exact ht
  · next hd => exact ht.guard (alive_dev hd) (fun _ _ _ h => reissue_ok h)

theorem resume_ok {a0 : State} {a1 : Nat} (h0 : Keeps s0 a0) : Keeps s0 (State.resume a0 a1) := by
  unfold State.resume
  lift_lets -underBinder +implicits
  intro x0
  intro x1
  have hx1 : Keeps s0 x1 := releaseCompl_ok (releaseHeld_ok (kickReads_ok h0))
  clear_value x1
  intro x2
  have hx2 : Keeps s0 x2 := by
    unfold x2
    refine forEach_ok hx1 (fun a3 t4 ht4 => ?_)
    split
    · exact Keeps.ite ht4 (setCh_ok ht4 (fun _ => by decide))
    · exact ht4
  clear_value x2
  intro x6
  have hx6 : Keeps s0 x6 := forEach_ok hx2 (fun a7 t8 ht8 => Keeps.ite ht8 (pump_ok ht8))
  clear_value x6
  exact forEach_ok hx6 (fun a9 t10 ht10 => releaseVecs_ok ht10)

theorem execBmeClear_ok {a0 : Nat} {a1 : State} (h1 : Keeps s0 a1) : KeepsR s0 (execBmeClear a0 a1) := by
  unfold execBmeClear
  exact ite_of (Q := KeepsR s0) (KeepsR.next (put_ok h1 rfl)) (KeepsR.next h1)

theorem execBmeSet_ok {a0 : Nat} {a1 : State} (h1 : Keeps s0 a1) : KeepsR s0 (execBmeSet a0 a1) := by
  unfold execBmeSet
  exact ite_of (Q := KeepsR s0) (KeepsR.next (resume_ok (put_ok h1 rfl))) (KeepsR.next h1)

theorem execD3hotEntry_ok {a0 : Nat} {a1 : State} (h1 : Keeps s0 a1) : KeepsR s0 (execD3hotEntry a0 a1) := by
  unfold execD3hotEntry
  exact ite_of (Q := KeepsR s0) (KeepsR.next (put_ok h1 rfl)) (KeepsR.next h1)

theorem setMasked_ok {a0 : State} {a1 : Fld} {a2 : Nat} {a3 : Nat} {a4 : Nat} {a5 : Nat} (h0 : Keeps s0 a0) (h1 :
    Plain a1) : Keeps s0 (State.setMasked a0 a1 a2 a3 a4 a5) := by
  unfold State.setMasked
  exact set_ok h0 h1

theorem setBar_ok {a0 : State} {a1 : Fld} {a2 : Nat} {a3 : Nat} {a4 : Nat} {a5 : Nat} {a6 : Nat} (h0 : Keeps s0 a0)
    (h1 : Plain a1) : Keeps s0 (State.setBar a0 a1 a2 a3 a4 a5 a6) := by
  unfold State.setBar
  lift_lets -underBinder +implicits
  intro x0
  exact set_ok h0 h1

theorem aerService_ok {a0 : State} {a1 : Nat} {a2 : Nat} (h0 : Keeps s0 a0) : Keeps s0 (State.aerService a0 a1 a2) := by
  unfold State.aerService
  split
  · exact set_ok h0 rfl
  · lift_lets -underBinder +implicits
    intro x3
    have hx3 : Keeps s0 x3 := Keeps.ite (Keeps.other h0 rfl rfl rfl rfl) h0
    clear_value x3
    intro x4
    intro x5
    exact set_ok hx3 rfl

theorem cfgSpecial_ok {a0 : State} {a1 : Nat} {a2 : Nat} {a3 : Nat} {a4 : Nat} (h0 : Keeps s0 a0) : Keeps s0
    (State.cfgSpecial a0 a1 a2 a3 a4) := by
  unfold State.cfgSpecial
  lift_lets -underBinder +implicits
  intro x0
  intro x1
  have hx1 : Keeps s0 x1 := put_ok (put_ok h0 rfl) rfl
  clear_value x1
  intro x2
  have hx2 : Keeps s0 x2 := releaseVecs_ok hx1
  clear_value x2
  intro x3
  have hx3 : Keeps s0 x3 := setMasked_ok h0 rfl
  clear_value x3
  exact Keeps.ite (Keeps.ite (Keeps.ite (resume_ok (put_ok h0 rfl)) (put_ok h0 rfl)) h0) (Keeps.ite (setBar_ok h0 rfl)
      (Keeps.ite (setBar_ok h0 rfl) (Keeps.ite (setBar_ok h0 rfl) (Keeps.ite (setBar_ok h0 rfl) (Keeps.ite
      (setMasked_ok h0 rfl) (Keeps.ite (Keeps.ite (Keeps.ite (Keeps.ite (put_ok h0 rfl) h0) (Keeps.ite (resume_ok
      (put_ok h0 rfl)) h0)) h0) (Keeps.ite (Keeps.ite (Keeps.ite (Keeps.ite (pvRing_ok (mbxRing_ok hx2)) (pvRing_ok
      hx2)) hx2) h0) (Keeps.ite (Keeps.ite (flr_ok h0) h0) (Keeps.ite (aerService_ok h0) (Keeps.ite (setMasked_ok h0
      rfl) (Keeps.ite (setMasked_ok h0 rfl) (Keeps.ite (set_ok h0 rfl) (Keeps.ite (setMasked_ok h0 rfl) (Keeps.ite
      (Keeps.ite (set_ok h0 rfl) h0) (Keeps.ite (Keeps.ite (Keeps.ite (vfOn_ok h0) (Keeps.ite (vfOff_ok h0) h0)) h0)
      (Keeps.ite (Keeps.ite h0 (Keeps.ite h0 hx3)) (Keeps.ite (setBar_ok h0 rfl) (Keeps.ite (setBar_ok h0 rfl)
      h0))))))))))))))))))

theorem execConfigWrite_ok {a0 : Nat} {a1 : Nat} {a2 : Nat} {a3 : Nat} {a4 : State} (h4 : Keeps s0 a4) :
    KeepsR s0 (execConfigWrite a0 a1 a2 a3 a4) := by
  unfold execConfigWrite
  refine ite_of (Q := KeepsR s0) (KeepsR.next h4) (KeepsR.next (cfgSpecial_ok ?_))
  have hx : Keeps s0 ((cfgFields a1).foldl (fun t p => t.setMasked p.2 a0 p.1 a3 (beMask a2)) a4) :=
    foldl_mem (Q := Keeps s0) (P := fun p : Nat × Fld => Plain p.2) h4 cfgFields_plain (fun _ _ hp ht => setMasked_ok
        ht hp)
  exact Keeps.ite (set_ok hx rfl) hx

theorem execInboundBadAccess_ok {a0 : Nat} {a1 : Bool} {a2 : List Byte} {a3 : State} (h3 : Keeps s0 a3) : KeepsR s0
    (execInboundBadAccess a0 a1 a2 a3) := by
  unfold execInboundBadAccess
  lift_lets -underBinder +implicits
  intro x0
  intro x1
  have hx1 : Keeps s0 x1 := aer_ok (inc_ok h3 rfl)
  clear_value x1
  exact ite_of (Q := KeepsR s0) (KeepsR.next h3) (KeepsR.next (Keeps.ite (emit_ok hx1 rfl) hx1))

theorem execAerErrorDetected_ok {a0 : Nat} {a1 : Bool} {a2 : Nat} {a3 : List Byte} {a4 : State} (h4 : Keeps s0 a4) :
    KeepsR s0 (execAerErrorDetected a0 a1 a2 a3 a4) := by
  unfold execAerErrorDetected
  exact ite_of (Q := KeepsR s0) (KeepsR.next h4) (ite_of (Q := KeepsR s0) (ite_of (Q := KeepsR s0) (KeepsR.next
      (aerCor_ok h4)) (KeepsR.next h4)) (ite_of (Q := KeepsR s0) (KeepsR.next (aer_ok h4)) (ite_of (Q := KeepsR s0)
      (KeepsR.next (aer_ok h4)) (KeepsR.next h4))))

theorem readFail_ok {a0 : State} {a1 : ReadFor} (h0 : Keeps s0 a0) : Keeps s0 (State.readFail a0 a1) := by
  unfold State.readFail
  split
  · exact Keeps.ite (queueError_ok (put_ok h0 rfl)) h0
  · split
    · exact h0
    · split
      · exact endFrame_ok h0
      · split
        · exact laneFreed_ok (jobAbort_ok h0)
        · exact Keeps.ite (finish_ok h0) h0
  · exact put_ok h0 rfl
  · exact Keeps.ite (dmaEnd_ok h0) h0
  · exact h0

theorem aerMark_ok {a0 : State} {a1 : Nat} (h0 : Keeps s0 a0) : Keeps s0 (State.aerMark a0 a1) := by
  unfold State.aerMark
  exact set_ok h0 rfl

theorem execCompletionTimeout_ok {a0 a1 : Nat} {aw : ReadFor} {a2 : List Byte} {a3 : State} (h3 : Keeps s0 a3) :
    KeepsR s0 (execCompletionTimeout a0 a1 aw a2 a3) := by
  unfold execCompletionTimeout
  split
  · exact KeepsR.next h3
  · refine ite_of (Q := KeepsR s0) (KeepsR.next h3) ?_
    lift_lets -underBinder +implicits
    intro x0
    have hx0 : Keeps s0 x0 := pmu_ok (inc_ok h3 rfl)
    clear_value x0
    intro x1
    have hx1 : Keeps s0 x1 := Keeps.other hx0 rfl rfl rfl rfl
    clear_value x1
    dsimp only
    split
    all_goals
      split
      · next hc =>
        exact KeepsR.next (hx1.guard (alive_dev (g := _) (Bool.eq_false_iff.1 hc.2.2)) (fun _ _ _ h => reissue_ok
            (aerMark_ok h)))
      · exact KeepsR.next (readFail_ok (aer_ok hx1))

theorem execCompletionArrival_ok {a0 : Nat} {a1 : Nat} {a2 : List Byte} {a3 : State} (h3 : Keeps s0 a3) : KeepsR s0
    (execCompletionArrival a0 a1 a2 a3) := by
  unfold execCompletionArrival
  refine ite_of (Q := KeepsR s0) (KeepsR.next h3) ?_
  split
  · lift_lets -underBinder +implicits
    intro x1
    have hx1 : Keeps s0 x1 := Keeps.other h3 rfl rfl rfl rfl
    clear_value x1
    exact KeepsR.next (Keeps.ite (kickReads_ok hx1) (kickReads_ok (aer_ok hx1)))
  · lift_lets -underBinder +implicits
    intro x2
    exact KeepsR.next (aer_ok (inc_ok h3 rfl))

theorem execTagQuarantineEnd_ok {a0 : Nat} {a1 : Nat} {a2 : State} (h2 : Keeps s0 a2) : KeepsR s0
    (execTagQuarantineEnd a0 a1 a2) := by
  unfold execTagQuarantineEnd
  exact ite_of (Q := KeepsR s0) (KeepsR.next (kickReads_ok (Keeps.other h2 rfl rfl rfl rfl))) (KeepsR.next h2)

end Sys2Proof.Laws
end

