-- ==== Sys2Proof/Laws/KeepsCfgSpace.lean ====
section
/-! SUPPORT. Sys2Proof/Laws/KeepsCfgSpace.lean: `Keeps` of each operation of Machine/CfgSpace.lean. -/

namespace Sys2Proof.Laws

open Sys2Proof.Machine

variable {s0 : Base}

theorem cfgRead_ok {a0 : State} {a1 : Who} {a2 : Nat} {a3 : Nat} {a4 : Nat} (h0 : Keeps s0 a0) : Keeps s0
    (State.cfgRead a0 a1 a2 a3 a4) := by
  unfold State.cfgRead
  exact Keeps.ite (emit_ok h0 rfl) h0

end Sys2Proof.Laws
end

