-- ==== Sys2Proof/Laws/KeepsCipher.lean ====
section
/-! SUPPORT. Sys2Proof/Laws/KeepsCipher.lean: `Keeps` of each operation of Machine/Cipher.lean. -/

namespace Sys2Proof.Laws

open Sys2Proof.Machine

variable {s0 : Base}

theorem cphRefuse_ok {a0 : State} (h0 : Keeps s0 a0) : Keeps s0 (State.cphRefuse a0) := by
  unfold State.cphRefuse
  exact put_ok h0 rfl

theorem execLaneCfgWrite_ok {a0 : Who} {a1 : Nat} {a2 : State} (h2 : Keeps s0 a2) : KeepsR s0 (execLaneCfgWrite a0 a1
    a2) := by
  unfold execLaneCfgWrite
  exact ite_of (Q := KeepsR s0) (KeepsR.next h2) (ite_of (Q := KeepsR s0) (KeepsR.next (set_ok h2 rfl)) (KeepsR.next
      (cphRefuse_ok h2)))

theorem cphQueue_ok {a0 : State} {a1 : Nat} {a2 : Nat} {a3 : Nat} (h0 : Keeps s0 a0) : Keeps s0 (State.cphQueue a0 a1
    a2 a3) := by
  unfold State.cphQueue
  split
  · exact h0
  · exact Keeps.ite (addJob_ok (markWay_ok h0)) h0

theorem execEncrypt_ok {a0 : Nat} {a1 : Nat} {a2 : State} (h2 : Keeps s0 a2) : KeepsR s0 (execEncrypt a0 a1 a2) := by
  unfold execEncrypt
  exact KeepsR.next (cphQueue_ok h2)

theorem execDecrypt_ok {a0 : Nat} {a1 : Nat} {a2 : State} (h2 : Keeps s0 a2) : KeepsR s0 (execDecrypt a0 a1 a2) := by
  unfold execDecrypt
  exact KeepsR.next (cphQueue_ok h2)

theorem execMacGen_ok {a0 : Nat} {a1 : Nat} {a2 : State} (h2 : Keeps s0 a2) : KeepsR s0 (execMacGen a0 a1 a2) := by
  unfold execMacGen
  exact KeepsR.next (cphQueue_ok h2)

theorem execMacVerify_ok {a0 : Nat} {a1 : Nat} {a2 : State} (h2 : Keeps s0 a2) : KeepsR s0 (execMacVerify a0 a1 a2) :=
    by
  unfold execMacVerify
  exact KeepsR.next (cphQueue_ok h2)

theorem jobNormal_ok {a0 : State} {a1 : Nat} (h0 : Keeps s0 a0) : Keeps s0 (State.jobNormal a0 a1) := by
  unfold State.jobNormal
  split
  · exact jobRun_ok h0
  · lift_lets -underBinder +implicits
    intro x1
    split
    · next m2 m3 heq =>
      have hm3 : Keeps s0 m3 := by
        refine KeepsS.eq heq ?_
        exact cphDwrr_ok (cphIdle_ok h0)
      exact jobBegin_ok hm3
    · next m4 heq =>
      have hm4 : Keeps s0 m4 := by
        refine KeepsS.eq heq ?_
        exact cphDwrr_ok (cphIdle_ok h0)
      exact hm4

theorem jobPreempt_ok {a0 : State} {a1 : Job} (h0 : Keeps s0 a0) : Keeps s0 (State.jobPreempt a0 a1) := by
  unfold State.jobPreempt
  split
  · exact jobBegin_ok (jobSuspend_ok h0)
  · exact h0

theorem execJobStart_ok {a0 : State} (h0 : Keeps s0 a0) : KeepsR s0 (execJobStart a0) := by
  unfold execJobStart
  refine ite_of (Q := KeepsR s0) (KeepsR.next h0) ?_
  split
  · exact KeepsR.next (Keeps.ite (jobBegin_ok h0) (jobPreempt_ok h0))
  · exact KeepsR.next (jobPreempt_ok h0)
  · exact KeepsR.next (jobNormal_ok h0)
  · exact KeepsR.next h0

theorem keyCmd_ok {a0 : State} {a1 : Who} {a2 : Nat → Nat → List Byte → State → Nat × State} (h0 : Keeps s0 a0) (h2 :
    ∀ z0, ∀ z1, ∀ z2, ∀ z3, Keeps s0 z3 → KeepsS s0 (a2 z0 z1 z2 z3)) : Keeps s0 (State.keyCmd a0 a1 a2) := by
  unfold State.keyCmd
  split
  · exact h0
  · lift_lets -underBinder +implicits
    intro x1
    intro x2
    have hx2 : KeepsS s0 x2 := h2 _ _ _ _ h0
    clear_value x2
    intro x3
    have hx3 : Keeps s0 x3 := set_ok (KeepsS.to hx2) rfl
    clear_value x3
    exact Keeps.ite h0 (Keeps.ite (set_ok h0 rfl) (Keeps.ite (mirrorPage_ok hx3) hx3))

theorem loadWrapped_ok {a0 : State} {a1 : Nat} {a2 : List Byte} (h0 : Keeps s0 a0) : KeepsS s0 (State.loadWrapped a0
    a1 a2) := by
  unfold State.loadWrapped
  split
  · exact KeepsS.of h0
  · lift_lets -underBinder +implicits
    intro x1
    intro x2
    refine ite_of (Q := KeepsS s0) (KeepsS.of h0) ?_
    split
    · exact KeepsS.of h0
    · exact KeepsS.of (loadKey_ok h0)

theorem loadClear_ok {a0 : State} {a1 : Nat} {a2 : Nat} {a3 : List Byte} (h0 : Keeps s0 a0) : KeepsS s0
    (State.loadClear a0 a1 a2 a3) := by
  unfold State.loadClear
  refine ite_of (Q := KeepsS s0) (KeepsS.of h0) ?_
  split
  · exact KeepsS.of h0
  · exact KeepsS.of (loadKey_ok h0)

theorem execLoadWrapped_ok {a0 : Who} {a1 : State} (h1 : Keeps s0 a1) : KeepsR s0 (execLoadWrapped a0 a1) := by
  unfold execLoadWrapped
  exact KeepsR.next (keyCmd_ok h1 (fun y0 y1 y2 y3 hy3 => loadWrapped_ok hy3))

theorem execLoadClear_ok {a0 : Who} {a1 : State} (h1 : Keeps s0 a1) : KeepsR s0 (execLoadClear a0 a1) := by
  unfold execLoadClear
  exact KeepsR.next (keyCmd_ok h1 (fun y0 y1 y2 y3 hy3 => loadClear_ok hy3))

theorem execClearSlot_ok {a0 : Who} {a1 : Nat} {a2 : State} (h2 : Keeps s0 a2) : KeepsR s0 (execClearSlot a0 a1 a2) :=
    by
  unfold execClearSlot
  exact KeepsR.next (keyCmd_ok h2 (fun y0 y1 y2 y3 hy3 => KeepsS.of (zeroSlot_ok hy3)))

theorem execZeroisePage_ok {a0 : Who} {a1 : State} (h1 : Keeps s0 a1) : KeepsR s0 (execZeroisePage a0 a1) := by
  unfold execZeroisePage
  exact KeepsR.next (keyCmd_ok h1 (fun y0 y1 y2 y3 hy3 => KeepsS.of (zeroPage_ok hy3)))

theorem pageWrite_ok {a0 : State} {a1 : Nat} {a2 : Nat} (h0 : Keeps s0 a0) : Keeps s0 (State.pageWrite a0 a1 a2) := by
  unfold State.pageWrite
  lift_lets -underBinder +implicits
  intro x0
  intro x1
  intro x2
  intro x3
  have hx3 : Keeps s0 x3 := Keeps.ite (zeroPage_ok h0) h0
  clear_value x3
  intro x4
  have hx4 : Keeps s0 x4 := put_ok (set_ok hx3 rfl) rfl
  clear_value x4
  exact Keeps.ite (twinAwait_ok (put_ok hx4 rfl)) (Keeps.ite (twinSend_ok hx4) hx4)

theorem execPageOwnerWrite_ok {a0 : Who} {a1 : Nat} {a2 : Nat} {a3 : State} (h3 : Keeps s0 a3) : KeepsR s0
    (execPageOwnerWrite a0 a1 a2 a3) := by
  unfold execPageOwnerWrite
  exact ite_of (Q := KeepsR s0) (KeepsR.next h3) (ite_of (Q := KeepsR s0) (KeepsR.next (cphRefuse_ok h3)) (KeepsR.next
      (pageWrite_ok h3)))

theorem saStatus_ok {a0 : State} {a1 : Nat} (h0 : Keeps s0 a0) : Keeps s0 (State.saStatus a0 a1) := by
  unfold State.saStatus
  exact set_ok h0 rfl

theorem saCmd_ok {a0 : State} {a1 : Who} {a2 : State → State} (h0 : Keeps s0 a0) (h2 : ∀ z0, Keeps s0 z0 → Keeps s0
    (a2 z0)) : Keeps s0 (State.saCmd a0 a1 a2) := by
  unfold State.saCmd
  exact Keeps.ite h0 (Keeps.ite (saStatus_ok h0) (h2 _ (put_ok h0 rfl)))

theorem execSaWrite_ok {a0 : Who} {a1 : Nat} {a2 : State} (h2 : Keeps s0 a2) : KeepsR s0 (execSaWrite a0 a1 a2) := by
  unfold execSaWrite
  lift_lets -underBinder +implicits
  intro x0
  exact KeepsR.next (saCmd_ok h2 (fun y1 hy1 => Keeps.ite (saStatus_ok hy1) (Keeps.ite (saStatus_ok hy1) (saStatus_ok
      (saPut_ok hy1)))))

theorem execSaInvalidate_ok {a0 : Who} {a1 : Nat} {a2 : State} (h2 : Keeps s0 a2) : KeepsR s0 (execSaInvalidate a0 a1
    a2) := by
  unfold execSaInvalidate
  lift_lets -underBinder +implicits
  intro x0
  exact KeepsR.next (saCmd_ok h2 (fun y1 hy1 => Keeps.ite (saStatus_ok hy1) (saStatus_ok (saPut_ok hy1))))

theorem execSaRead_ok {a0 : Who} {a1 : Nat} {a2 : State} (h2 : Keeps s0 a2) : KeepsR s0 (execSaRead a0 a1 a2) := by
  unfold execSaRead
  lift_lets -underBinder +implicits
  intro x0
  exact KeepsR.next (saCmd_ok h2 (fun y1 hy1 => Keeps.ite (saStatus_ok hy1) (saStatus_ok (putArea_ok hy1 rfl))))

theorem maskSeed_ok {a0 : State} {a1 : Nat} (h0 : Keeps s0 a0) : Keeps s0 (State.maskSeed a0 a1) := by
  unfold State.maskSeed
  lift_lets -underBinder +implicits
  intro x0
  exact inc_ok (wr_ok (wr_ok h0)) rfl

theorem execMaskReseed_ok {a0 : State} (h0 : Keeps s0 a0) : KeepsR s0 (execMaskReseed a0) := by
  unfold execMaskReseed
  lift_lets -underBinder +implicits
  intro x0
  have hx0 : Keeps s0 x0 := forEach_ok h0 (fun a1 t2 ht2 => maskSeed_ok ht2)
  clear_value x0
  exact ite_of (Q := KeepsR s0) (KeepsR.next (Keeps.ite (drbgEntropy_ok hx0) hx0)) (KeepsR.next h0)

end Sys2Proof.Laws
end

