-- ==== Sys2Proof/Laws/KeepsDevOps.lean ====
section
/-! SUPPORT. Sys2Proof/Laws/KeepsDevOps.lean: `Keeps` of each operation of Machine/DevOps.lean. -/

namespace Sys2Proof.Laws

open Sys2Proof.Machine

variable {s0 : Base}

theorem ran_ok {a0 : State} {a1 : Res} (h0 : Keeps s0 a0) (h1 : KeepsR s0 a1) : Keeps s0 (ran a0 a1) := by
  unfold ran
  split
  · exact h1 _ rfl
  · exact h0

theorem genField_ok {a0 : State} {a1 : Nat × Fld} {a2 a3 : Nat} (h0 : Keeps s0 a0) (h1 : a1.2.acc = .ro ∨ Plain a1.2) :
    Keeps s0 (State.genField a0 a1 a2 a3) := by
  unfold State.genField
  rcases h1 with h | h
  · rw [h]; exact h0
  · split <;> first | exact h0 | exact set_ok h0 h

theorem genWrite_ok {a0 : State} {a1 : List (Nat × Fld)} {a2 a3 : Nat} (h0 : Keeps s0 a0) (h1 : Safes a1) :
    Keeps s0 (State.genWrite a0 a1 a2 a3) :=
  foldl_mem (Q := Keeps s0) (P := fun p : Nat × Fld => p.2.acc = .ro ∨ Plain p.2) h0 h1 (fun _ _ hp ht => genField_ok
      ht hp)

theorem clearBits_ok {a0 : State} {a1 : List (Nat × Fld)} {a2 a3 : Nat} (h0 : Keeps s0 a0) (h1 : Safes a1) :
    Keeps s0 (State.clearBits a0 a1 a2 a3) :=
  foldl_mem (Q := Keeps s0) (P := fun p : Nat × Fld => p.2.acc = .ro ∨ Plain p.2) h0 h1
    (fun _ _ hp ht => Keeps.ite (genField_ok ht hp) ht)

theorem ranged_ok {a0 : State} {a1 : Fld} {a2 : Nat} {a3 : Nat} {a4 : Nat} {a5 : Nat} (h0 : Keeps s0 a0) (h1 : Plain
    a1) : Keeps s0 (State.ranged a0 a1 a2 a3 a4 a5) := by
  unfold State.ranged
  exact Keeps.ite (set_ok h0 h1) h0

end Sys2Proof.Laws
end

