-- ==== Sys2Proof/Laws/KeepsNirisOps.lean ====
section
/-! SUPPORT. Sys2Proof/Laws/KeepsNirisOps.lean: `Keeps` of each operation of Machine/NirisOps.lean. -/

namespace Sys2Proof.Laws

open Sys2Proof.Machine

variable {s0 : Base}

theorem retire_ok {a0 : State} {a1 : Nat} (h0 : Keeps s0 a0) : Keeps s0 (State.retire a0 a1) := by
  unfold State.retire
  exact rearm_ok (set_ok (set_ok (slotIs_ok h0) rfl) rfl)

theorem jump_ok {a0 : State} {a1 : Nat} {a2 : Nat} (h0 : Keeps s0 a0) : Keeps s0 (State.jump a0 a1 a2) := by
  unfold State.jump
  exact rearm_ok (set_ok (slotIs_ok h0) rfl)

theorem back_ok {a0 : State} {a1 : Nat} (h0 : Keeps s0 a0) : Keeps s0 (State.back a0 a1) := by
  unfold State.back
  exact slotIs_ok h0

theorem budgetFault_ok {a0 : State} {a1 : Nat} (h0 : Keeps s0 a0) : Keeps s0 (State.budgetFault a0 a1) := by
  unfold State.budgetFault
  lift_lets -underBinder +implicits
  intro x0
  have hx0 : Keeps s0 x0 := forEach_ok h0 (fun a1 t2 ht2 => put_ok ht2 rfl)
  clear_value x0
  exact fault_ok (set_ok hx0 rfl)

theorem mismatch_ok {a0 : State} {a1 : Nat} (h0 : Keeps s0 a0) : Keeps s0 (State.mismatch a0 a1) := by
  unfold State.mismatch
  exact fault_ok (put_ok h0 rfl)

theorem slotRun_ok {a0 : State} {a1 : Nat} {a2 : Nat} {a3 : Bool} {a4 : State → State} (h0 : Keeps s0 a0) (h4 : ∀ z0,
    Keeps s0 z0 → Keeps s0 (a4 z0)) : Keeps s0 (State.slotRun a0 a1 a2 a3 a4) := by
  unfold State.slotRun
  lift_lets -underBinder +implicits
  intro x0
  have hx0 : Keeps s0 x0 := slotPass_ok h0
  clear_value x0
  exact Keeps.ite (fault_ok (put_ok hx0 rfl)) (Keeps.ite (budgetFault_ok hx0) (Keeps.ite (fault_ok hx0) (Keeps.ite
      (mismatch_ok hx0) (Keeps.ite (set_ok (set_ok (slotIs_ok hx0) rfl) rfl) (Keeps.ite (slotIs_ok hx0) (h4 _
      hx0))))))

theorem slotEnd_ok {a0 : State} {a1 : Nat} (h0 : Keeps s0 a0) : Keeps s0 (State.slotEnd a0 a1) := by
  unfold State.slotEnd
  exact Keeps.ite h0 (mirror_ok h0)

theorem slotDo_ok {a0 : State} {a1 : Nat} {a2 : Nat} {a3 : Bool} {a4 : State → State} (h0 : Keeps s0 a0) (h4 : ∀ z0,
    Keeps s0 z0 → Keeps s0 (a4 z0)) : Keeps s0 (State.slotDo a0 a1 a2 a3 a4) := by
  unfold State.slotDo
  exact slotEnd_ok (slotRun_ok h0 (fun y0 hy0 => h4 _ hy0))

theorem slotIf_ok {a0 : State} {a1 : Nat} {a2 : Nat} {a3 : Bool} {a4 : Nat → Bool} {a5 : Nat → Nat → State → State}
    (h0 : Keeps s0 a0) (h5 : ∀ z0, ∀ z1, ∀ z2, Keeps s0 z2 → Keeps s0 (a5 z0 z1 z2)) : Keeps s0 (State.slotIf a0 a1 a2
    a3 a4 a5) := by
  unfold State.slotIf
  lift_lets -underBinder +implicits
  intro x0
  exact Keeps.ite (slotDo_ok h0 (fun y1 hy1 => h5 _ _ _ hy1)) h0

theorem slot_ok {a0 : State} {a1 : Nat} {a2 : Nat} {a3 : Bool} {a4 : Nat → Nat → State → State} (h0 : Keeps s0 a0) (h4
    : ∀ z0, ∀ z1, ∀ z2, Keeps s0 z2 → Keeps s0 (a4 z0 z1 z2)) : Keeps s0 (State.slot a0 a1 a2 a3 a4) := by
  unfold State.slot
  exact slotIf_ok h0 (fun y0 y1 y2 hy2 => h4 _ _ _ hy2)

theorem alu_ok {a0 : Nat → Nat → Nat → Nat} {a1 : Bool} {a2 : Nat} {a3 : Nat} {a4 : State} (h4 : Keeps s0 a4) : Keeps
    s0 (State.alu a0 a1 a2 a3 a4) := by
  unfold State.alu
  lift_lets -underBinder +implicits
  intro x0
  intro x1
  exact retire_ok (tput_ok h4)

theorem compare_ok {a0 : Bool} {a1 : Nat} {a2 : Nat} {a3 : State} (h3 : Keeps s0 a3) : Keeps s0 (State.compare a0 a1
    a2 a3) := by
  unfold State.compare
  lift_lets -underBinder +implicits
  intro x0
  intro x1
  exact retire_ok (put_ok h3 rfl)

theorem selOp_ok {a0 : Bool} {a1 : Nat} {a2 : Nat} {a3 : State} (h3 : Keeps s0 a3) : Keeps s0 (State.selOp a0 a1 a2
    a3) := by
  unfold State.selOp
  lift_lets -underBinder +implicits
  intro x0
  exact retire_ok (tput_ok h3)

theorem unary_ok {a0 : Nat → Nat → Nat} {a1 : Nat} {a2 : Nat} {a3 : State} (h3 : Keeps s0 a3) : Keeps s0 (State.unary
    a0 a1 a2 a3) := by
  unfold State.unary
  lift_lets -underBinder +implicits
  intro x0
  exact retire_ok (tput_ok h3)

theorem semExt_ok {a0 : Nat} {a1 : Nat} {a2 : State} (h2 : Keeps s0 a2) : Keeps s0 (semExt a0 a1 a2) := by
  unfold semExt
  lift_lets -underBinder +implicits
  intro x0
  intro x1
  exact retire_ok (tput_ok h2)

theorem semIns_ok {a0 : Nat} {a1 : Nat} {a2 : State} (h2 : Keeps s0 a2) : Keeps s0 (semIns a0 a1 a2) := by
  unfold semIns
  exact retire_ok (tput_ok h2)

theorem semCsum_ok {a0 : Nat} {a1 : Nat} {a2 : State} (h2 : Keeps s0 a2) : Keeps s0 (semCsum a0 a1 a2) := by
  unfold semCsum
  lift_lets -underBinder +implicits
  intro x0
  exact retire_ok (tput_ok h2)

theorem access_ok {a0 : State} {a1 : Nat} {a2 : Nat} {a3 : Nat × Nat} {a4 : Nat → State → State} (h0 : Keeps s0 a0)
    (h4 : ∀ z0, ∀ z1, Keeps s0 z1 → Keeps s0 (a4 z0 z1)) : Keeps s0 (State.access a0 a1 a2 a3 a4) := by
  unfold State.access
  lift_lets -underBinder +implicits
  intro x0
  exact Keeps.ite (h4 _ _ h0) (fault_ok h0)

theorem sharedResult_ok {a0 : State} {a1 : Nat} {a2 : Nat} {a3 : Nat} (h0 : Keeps s0 a0) : Keeps s0
    (State.sharedResult a0 a1 a2 a3) := by
  unfold State.sharedResult
  lift_lets -underBinder +implicits
  intro x0
  have hx0 : KeepsS s0 x0 := fresh_ok h0
  clear_value x0
  intro x1
  intro x2
  have hx2 : Keeps s0 x2 := tput_ok (KeepsS.to hx0)
  clear_value x2
  intro x3
  have hx3 : Keeps s0 x3 := Keeps.ite hx2 (set_ok hx2 rfl)
  clear_value x3
  exact Keeps.ite (coreEv_ok hx3) hx3

theorem semLd_ok {a0 : Nat} {a1 : Nat} {a2 : State} (h2 : Keeps s0 a2) : Keeps s0 (semLd a0 a1 a2) := by
  unfold semLd
  exact Keeps.ite (Keeps.ite (retire_ok (tput_ok h2)) (fault_ok h2)) (access_ok h2 (fun y0 y1 hy1 => Keeps.ite
      (mismatch_ok hy1) (retire_ok (tput_ok hy1))))

theorem localStore_ok {a0 : State} {a1 : Nat} {a2 : Nat} {a3 : List Byte} (h0 : Keeps s0 a0) : Keeps s0
    (State.localStore a0 a1 a2 a3) := by
  unfold State.localStore
  lift_lets -underBinder +implicits
  intro x0
  have hx0 : Keeps s0 x0 := wr_ok h0
  clear_value x0
  exact Keeps.ite (wr_ok hx0) hx0

theorem semSt_ok {a0 : Nat} {a1 : Nat} {a2 : State} (h2 : Keeps s0 a2) : Keeps s0 (semSt a0 a1 a2) := by
  unfold semSt
  exact access_ok h2 (fun y0 y1 hy1 => retire_ok (localStore_ok hy1))

theorem semPld_ok {a0 : Nat} {a1 : Nat} {a2 : State} (h2 : Keeps s0 a2) : Keeps s0 (semPld a0 a1 a2) := by
  unfold semPld
  exact access_ok h2 (fun y0 y1 hy1 => retire_ok (tput_ok hy1))

theorem semPst_ok {a0 : Nat} {a1 : Nat} {a2 : State} (h2 : Keeps s0 a2) : Keeps s0 (semPst a0 a1 a2) := by
  unfold semPst
  refine access_ok h2 (fun y0 y1 hy1 => ?_)
  lift_lets -underBinder +implicits
  intro x2
  exact retire_ok (wr_ok hy1)

theorem semSld_ok {a0 : Nat} {a1 : Nat} {a2 : State} (h2 : Keeps s0 a2) : Keeps s0 (semSld a0 a1 a2) := by
  unfold semSld
  exact access_ok h2 (fun y0 y1 hy1 => retire_ok (sharedResult_ok hy1))

theorem semSst_ok {a0 : Nat} {a1 : Nat} {a2 : State} (h2 : Keeps s0 a2) : Keeps s0 (semSst a0 a1 a2) := by
  unfold semSst
  exact access_ok h2 (fun y0 y1 hy1 => retire_ok (wr_ok hy1))

theorem semSadd_ok {a0 : Nat} {a1 : Nat} {a2 : State} (h2 : Keeps s0 a2) : Keeps s0 (semSadd a0 a1 a2) := by
  unfold semSadd
  refine access_ok h2 (fun y0 y1 hy1 => ?_)
  lift_lets -underBinder +implicits
  intro x2
  exact retire_ok (sharedResult_ok (wr_ok hy1))

theorem semScas_ok {a0 : Nat} {a1 : Nat} {a2 : State} (h2 : Keeps s0 a2) : Keeps s0 (semScas a0 a1 a2) := by
  unfold semScas
  refine access_ok h2 (fun y0 y1 hy1 => ?_)
  lift_lets -underBinder +implicits
  intro x2
  intro x3
  have hx3 : Keeps s0 x3 := Keeps.ite (wr_ok hy1) hy1
  clear_value x3
  exact retire_ok (sharedResult_ok hx3)

theorem semBr_ok {a0 : Nat} {a1 : Nat} {a2 : State} (h2 : Keeps s0 a2) : Keeps s0 (semBr a0 a1 a2) := by
  unfold semBr
  exact jump_ok h2

theorem semBrc_ok {a0 : Nat} {a1 : Nat} {a2 : State} (h2 : Keeps s0 a2) : Keeps s0 (semBrc a0 a1 a2) := by
  unfold semBrc
  lift_lets -underBinder +implicits
  intro x0
  intro x1
  exact Keeps.ite (jump_ok h2) (retire_ok h2)

theorem semCall_ok {a0 : Nat} {a1 : Nat} {a2 : State} (h2 : Keeps s0 a2) : Keeps s0 (semCall a0 a1 a2) := by
  unfold semCall
  lift_lets -underBinder +implicits
  intro x0
  exact Keeps.ite (fault_ok h2) (jump_ok (set_ok (set_ok h2 rfl) rfl))

theorem semRet_ok {a0 : Nat} {a1 : Nat} {a2 : State} (h2 : Keeps s0 a2) : Keeps s0 (semRet a0 a1 a2) := by
  unfold semRet
  split
  · exact jump_ok (set_ok h2 rfl)
  · exact Keeps.ite (fault_ok h2) (Keeps.ite (fault_ok h2) (endThread_ok (slotIs_ok h2)))

theorem semJmpt_ok {a0 : Nat} {a1 : Nat} {a2 : State} (h2 : Keeps s0 a2) : Keeps s0 (semJmpt a0 a1 a2) := by
  unfold semJmpt
  lift_lets -underBinder +implicits
  intro x0
  exact Keeps.ite (jump_ok h2) (retire_ok h2)

theorem waitTimer_ok {a0 : State} {a1 : Nat} {a2 : Nat} (h0 : Keeps s0 a0) : Keeps s0 (State.waitTimer a0 a1 a2) := by
  unfold State.waitTimer
  lift_lets -underBinder +implicits
  intro x0
  intro x1
  have hx1 : Keeps s0 x1 := set_ok (set_ok h0 rfl) rfl
  clear_value x1
  exact Keeps.ite (set_ok h0 rfl) (Keeps.ite (set_ok hx1 rfl) hx1)

theorem semWaite_ok {a0 : Nat} {a1 : Nat} {a2 : State} (h2 : Keeps s0 a2) : Keeps s0 (semWaite a0 a1 a2) := by
  unfold semWaite
  lift_lets -underBinder +implicits
  intro x0
  have hx0 : Keeps s0 x0 := waitTimer_ok h2
  clear_value x0
  intro x1
  exact Keeps.ite (back_ok hx0) (retire_ok (tput_ok (set_ok hx0 rfl)))

theorem semSige_ok {a0 : Nat} {a1 : Nat} {a2 : State} (h2 : Keeps s0 a2) : Keeps s0 (semSige a0 a1 a2) := by
  unfold semSige
  lift_lets -underBinder +implicits
  intro x0
  intro x1
  have hx1 : Keeps s0 x1 := retire_ok h2
  clear_value x1
  exact Keeps.ite (Keeps.ite (raiseEv_ok hx1) hx1) (Keeps.ite (raiseEv_ok hx1) hx1)

theorem semWaitt_ok {a0 : Nat} {a1 : Nat} {a2 : State} (h2 : Keeps s0 a2) : Keeps s0 (semWaitt a0 a1 a2) := by
  unfold semWaitt
  lift_lets -underBinder +implicits
  intro x0
  exact Keeps.ite (retire_ok (tput_ok h2)) (back_ok (set_ok (set_ok h2 rfl) rfl))

theorem semRdt_ok {a0 : Nat} {a1 : Nat} {a2 : State} (h2 : Keeps s0 a2) : Keeps s0 (semRdt a0 a1 a2) := by
  unfold semRdt
  exact retire_ok (tput_ok h2)

theorem semCmdw_ok {a0 : Nat} {a1 : Nat} {a2 : State} (h2 : Keeps s0 a2) : Keeps s0 (semCmdw a0 a1 a2) := by
  unfold semCmdw
  exact retire_ok (set_ok h2 rfl)

theorem semCmdr_ok {a0 : Nat} {a1 : Nat} {a2 : State} (h2 : Keeps s0 a2) : Keeps s0 (semCmdr a0 a1 a2) := by
  unfold semCmdr
  lift_lets -underBinder +implicits
  intro x0
  exact Keeps.ite (retire_ok (tput_ok h2)) (fault_ok h2)

theorem semTkt_ok {a0 : Nat} {a1 : Nat} {a2 : State} (h2 : Keeps s0 a2) : Keeps s0 (semTkt a0 a1 a2) := by
  unfold semTkt
  lift_lets -underBinder +implicits
  intro x0
  have hx0 : KeepsS s0 x0 := takeTicket_ok h2
  clear_value x0
  exact Keeps.ite (fault_ok h2) (retire_ok (tput_ok (KeepsS.to hx0)))

end Sys2Proof.Laws
end

