-- ==== Sys2Proof/Laws/KeepsRelOps.lean ====
section
/-! SUPPORT. Sys2Proof/Laws/KeepsRelOps.lean: `Keeps` of each operation of Machine/RelOps.lean. -/

namespace Sys2Proof.Laws

open Sys2Proof.Machine

variable {s0 : Base}

theorem released_ok {a0 : State} {a1 : Nat} {a2 : Nat} (h0 : Keeps s0 a0) : Keeps s0 (State.released a0 a1 a2) := by
  unfold State.released
  lift_lets -underBinder +implicits
  intro x0
  have hx0 : Keeps s0 x0 := coreEv_ok h0
  clear_value x0
  exact Keeps.ite (endThread_ok (slotIs_ok hx0)) (retire_ok (put_ok (set_ok hx0 rfl) rfl))

theorem relUse_ok {a0 : State} {a1 : Option Nat} {a2 : Nat} {a3 : Nat} (h0 : Keeps s0 a0) : Keeps s0 (State.relUse a0
    a1 a2 a3) := by
  unfold State.relUse
  split
  · exact useTicket_ok h0
  · exact toStage_ok h0

theorem relLeaf_ok {a0 : State} {a1 : Nat} {a2 : Option Nat} {a3 : Nat} {a4 : Nat} {a5 : Frame → Frame} (h0 : Keeps s0
    a0) : Keeps s0 (State.relLeaf a0 a1 a2 a3 a4 a5) := by
  unfold State.relLeaf
  split
  · exact released_ok (toStage_ok (updFrame_ok h0))
  · lift_lets -underBinder +implicits
    intro x1
    exact Keeps.ite (released_ok (relUse_ok (updFrame_ok h0))) (Keeps.ite (back_ok h0) (released_ok (relUse_ok (set_ok
        (updFrame_ok h0) rfl))))

theorem relDropTicket_ok {a0 : State} {a1 : Option Nat} (h0 : Keeps s0 a0) : Keeps s0 (State.relDropTicket a0 a1) := by
  unfold State.relDropTicket
  split
  · exact useTicket_ok h0
  · exact h0

theorem semRelForward_ok {a0 : Nat} {a1 : Nat} {a2 : State} (h2 : Keeps s0 a2) : Keeps s0 (semRelForward a0 a1 a2) := by
  unfold semRelForward
  lift_lets -underBinder +implicits
  intro x0
  intro x1
  intro x2
  intro x3
  intro x4
  refine Keeps.ite (fault_ok h2) ?_
  refine Keeps.ite (fault_ok h2) ?_
  split
  · exact fault_ok h2
  · lift_lets -underBinder +implicits
    intro x6
    intro x7
    exact Keeps.ite (released_ok (toException_ok (relDropTicket_ok (updFrame_ok h2)))) (relLeaf_ok h2)

theorem semRelDrop_ok {a0 : Nat} {a1 : Nat} {a2 : State} (h2 : Keeps s0 a2) : Keeps s0 (semRelDrop a0 a1 a2) := by
  unfold semRelDrop
  lift_lets -underBinder +implicits
  intro x0
  intro x1
  intro x2
  exact Keeps.ite (fault_ok h2) (released_ok (endFrame_ok (relDropTicket_ok h2)))

theorem semRelPass_ok {a0 : Nat} {a1 : Nat} {a2 : State} (h2 : Keeps s0 a2) : Keeps s0 (semRelPass a0 a1 a2) := by
  unfold semRelPass
  split
  · exact fault_ok h2
  · exact retire_ok (useTicket_ok h2)

theorem semThst_ok {a0 : Nat} {a1 : Nat} {a2 : State} (h2 : Keeps s0 a2) : Keeps s0 (semThst a0 a1 a2) := by
  unfold semThst
  split
  · exact fault_ok h2
  · exact Keeps.ite (retire_ok (tput_ok (tput_ok (set_ok (startThread_ok h2) rfl)))) (retire_ok (tput_ok h2))

theorem semThrs_ok {a0 : Nat} {a1 : Nat} {a2 : State} (h2 : Keeps s0 a2) : Keeps s0 (semThrs a0 a1 a2) := by
  unfold semThrs
  split
  · exact fault_ok h2
  · exact Keeps.ite (retire_ok (tput_ok h2)) (retire_ok (tput_ok (endThread_ok (dispose_ok h2))))

theorem semFltr_ok {a0 : Nat} {a1 : Nat} {a2 : State} (h2 : Keeps s0 a2) : Keeps s0 (semFltr a0 a1 a2) := by
  unfold semFltr
  lift_lets -underBinder +implicits
  intro x0
  split
  · exact retire_ok (tput_ok (tput_ok (tput_ok (tput_ok h2))))
  · lift_lets -underBinder +implicits
    intro x3
    have hx3 : Keeps s0 x3 := Keeps.other h2 rfl rfl rfl rfl
    clear_value x3
    exact retire_ok (tput_ok (tput_ok (tput_ok (tput_ok hx3))))

end Sys2Proof.Laws
end

