-- ==== Sys2Proof/Laws/KeepsEngineOps.lean ====
section
/-! SUPPORT. Sys2Proof/Laws/KeepsEngineOps.lean: `Keeps` of each operation of Machine/EngineOps.lean. -/

namespace Sys2Proof.Laws

open Sys2Proof.Machine

variable {s0 : Base}

theorem tagOut_ok {a0 : State} {a1 : Nat} {a2 : Nat} (h0 : Keeps s0 a0) : Keeps s0 (State.tagOut a0 a1 a2) := by
  unfold State.tagOut
  exact inc_ok (put_ok (put_ok h0 rfl) rfl) rfl

theorem cmdc_ok {a0 : Bool} {a1 : Nat → Nat → State → Commit} {a2 : Nat} {a3 : Nat} {a4 : State} (h1 : ∀ z0, ∀ z1, ∀
    z2, Keeps s0 z2 → KeepsE s0 (a1 z0 z1 z2)) (h4 : Keeps s0 a4) : Keeps s0 (State.cmdc a0 a1 a2 a3 a4) := by
  unfold State.cmdc
  lift_lets -underBinder +implicits
  intro x0
  intro x1
  refine Keeps.ite (fault_ok h4) ?_
  refine Keeps.ite (back_ok h4) ?_
  split
  · exact fault_ok h4
  · next m3 heq =>
    have hm3 : Keeps s0 m3 := by
      refine KeepsE.eq heq ?_
      exact h1 _ _ _ (Keeps.ite h4 (tagOut_ok h4))
    exact retire_ok (coreEv_ok hm3)

theorem cmdResult_ok {a0 : State} {a1 : Nat} {a2 : Nat} {a3 : Nat} {a4 : List Nat} (h0 : Keeps s0 a0) : Keeps s0
    (State.cmdResult a0 a1 a2 a3 a4) := by
  unfold State.cmdResult
  exact Keeps.ite (toThread_ok h0) (Keeps.ite h0 (Keeps.ite (inc_ok h0 rfl) (inc_ok h0 rfl)))

theorem withOp_ok {a0 : Nat} {a1 : Nat → Nat → State → Commit} {a2 : Nat} {a3 : Nat} {a4 : State} (h1 : ∀ z0, ∀ z1, ∀
    z2, Keeps s0 z2 → KeepsE s0 (a1 z0 z1 z2)) (h4 : Keeps s0 a4) : KeepsE s0 (withOp a0 a1 a2 a3 a4) := by
  unfold withOp
  exact ite_of (Q := KeepsE s0) (h1 _ _ _ h4) KeepsE.error

theorem slotCmd_ok {a0 : State} {a1 : Nat} {a2 : Nat} {a3 : Nat} {a4 : Bool} {a5 : Bool} {a6 : Nat → Nat → State →
    Commit} (h0 : Keeps s0 a0) (h6 : ∀ z0, ∀ z1, ∀ z2, Keeps s0 z2 → KeepsE s0 (a6 z0 z1 z2)) : Keeps s0
    (State.slotCmd a0 a1 a2 a3 a4 a5 a6) := by
  unfold State.slotCmd
  lift_lets -underBinder +implicits
  intro x0
  exact slotIf_ok h0 (fun y1 y2 y3 hy3 => cmdc_ok (fun y4 y5 y6 hy6 => withOp_ok (fun y7 y8 y9 hy9 => h6 _ _ _ hy9)
      hy6) hy3)

theorem flowResult_ok {a0 : State} {a1 : Nat} {a2 : Nat} {a3 : Nat} {a4 : Nat} {a5 : List Byte} (h0 : Keeps s0 a0) :
    Keeps s0 (State.flowResult a0 a1 a2 a3 a4 a5) := by
  unfold State.flowResult
  exact cmdResult_ok h0

theorem cmdFlowLookup_ok {a0 : Nat} {a1 : Nat} {a2 : Nat} {a3 : State} (h3 : Keeps s0 a3) : KeepsE s0 (cmdFlowLookup
    a0 a1 a2 a3) := by
  unfold cmdFlowLookup
  lift_lets -underBinder +implicits
  intro x0
  have hx0 : KeepsS s0 x0 := flowLookup_ok h3
  clear_value x0
  exact ite_of (Q := KeepsE s0) KeepsE.error (KeepsE.ok (flowResult_ok (foundBadFlows_ok (KeepsS.to hx0))))

theorem cmdFlowInsert_ok {a0 : Nat} {a1 : Nat} {a2 : State} (h2 : Keeps s0 a2) : KeepsE s0 (cmdFlowInsert a0 a1 a2) :=
    by
  unfold cmdFlowInsert
  lift_lets -underBinder +implicits
  intro x0
  have hx0 : KeepsS s0 x0 := flowInsert_ok h2
  clear_value x0
  intro x1
  exact ite_of (Q := KeepsE s0) KeepsE.error (KeepsE.ok (flowResult_ok (KeepsS.to hx0)))

theorem cmdFlowDelete_ok {a0 : Nat} {a1 : Nat} {a2 : State} (h2 : Keeps s0 a2) : KeepsE s0 (cmdFlowDelete a0 a1 a2) :=
    by
  unfold cmdFlowDelete
  lift_lets -underBinder +implicits
  intro x0
  intro x1
  have hx1 : KeepsS s0 x1 := flowDelete_ok h2
  clear_value x1
  exact ite_of (Q := KeepsE s0) KeepsE.error (KeepsE.ok (flowResult_ok (KeepsS.to hx1)))

theorem cmdLpmLookup_ok {a0 : Bool} {a1 : Nat} {a2 : Nat} {a3 : State} (h3 : Keeps s0 a3) : KeepsE s0 (cmdLpmLookup a0
    a1 a2 a3) := by
  unfold cmdLpmLookup
  lift_lets -underBinder +implicits
  intro x0
  intro x1
  intro x2
  exact ite_of (Q := KeepsE s0) KeepsE.error (KeepsE.ok (cmdResult_ok (foundBads_ok h3)))

theorem cmdL2Lookup_ok {a0 : Nat} {a1 : Nat} {a2 : Nat} {a3 : State} (h3 : Keeps s0 a3) : KeepsE s0 (cmdL2Lookup a0 a1
    a2 a3) := by
  unfold cmdL2Lookup
  lift_lets -underBinder +implicits
  intro x0
  intro x1
  have hx1 : Keeps s0 x1 := flushSome_ok h3
  clear_value x1
  intro x2
  exact ite_of (Q := KeepsE s0) KeepsE.error (KeepsE.ok (cmdResult_ok (foundBads_ok hx1)))

theorem cmdCipher_ok {a0 : Nat} {a1 : Nat} {a2 : State} (h2 : Keeps s0 a2) : KeepsE s0 (cmdCipher a0 a1 a2) := by
  unfold cmdCipher
  lift_lets -underBinder +implicits
  intro x0
  exact ite_of (Q := KeepsE s0) KeepsE.error (ite_of (Q := KeepsE s0) KeepsE.error (KeepsE.ok (addJob_ok h2)))

theorem cmdDmaStart_ok {a0 : Nat} {a1 : Nat} {a2 : State} (h2 : Keeps s0 a2) : KeepsE s0 (cmdDmaStart a0 a1 a2) := by
  unfold cmdDmaStart
  lift_lets -underBinder +implicits
  intro x0
  exact ite_of (Q := KeepsE s0) KeepsE.error (ite_of (Q := KeepsE s0) KeepsE.error (ite_of (Q := KeepsE s0) (KeepsE.ok
      (cmdResult_ok h2)) (KeepsE.ok (dmaStart_ok h2))))

theorem cmdDmaCopy_ok {a0 : Nat} {a1 : Nat} {a2 : State} (h2 : Keeps s0 a2) : KeepsE s0 (cmdDmaCopy a0 a1 a2) := by
  unfold cmdDmaCopy
  lift_lets -underBinder +implicits
  intro x0
  intro x1
  intro x2
  intro x3
  intro x4
  intro x5
  have hx5 : Keeps s0 x5 := handOver_ok h2
  clear_value x5
  exact ite_of (Q := KeepsE s0) KeepsE.error (ite_of (Q := KeepsE s0) KeepsE.error (ite_of (Q := KeepsE s0)
      KeepsE.error (ite_of (Q := KeepsE s0) KeepsE.error (ite_of (Q := KeepsE s0) KeepsE.error (ite_of (Q := KeepsE
      s0) (KeepsE.ok (cmdResult_ok h2)) (KeepsE.ok (dmaBegin_ok hx5)))))))

theorem ctrCmd_ok {a0 : Nat → State → State × List Nat} {a1 : Nat} {a2 : Nat} {a3 : State} (h0 : ∀ z0, ∀ z1, Keeps s0
    z1 → KeepsF s0 (a0 z0 z1)) (h3 : Keeps s0 a3) : KeepsE s0 (ctrCmd a0 a1 a2 a3) := by
  unfold ctrCmd
  lift_lets -underBinder +implicits
  intro x0
  intro x1
  intro x2
  intro x3
  have hx3 : KeepsF s0 x3 := h0 _ _ h3
  clear_value x3
  exact ite_of (Q := KeepsE s0) KeepsE.error (ite_of (Q := KeepsE s0) (ite_of (Q := KeepsE s0) (KeepsE.ok (inc_ok h3
      rfl)) KeepsE.error) (KeepsE.ok (cmdResult_ok (KeepsF.to hx3))))

theorem cmdCounterAdd_ok {a0 : Nat} {a1 : Nat} {a2 : State} (h2 : Keeps s0 a2) : KeepsE s0 (cmdCounterAdd a0 a1 a2) :=
    by
  unfold cmdCounterAdd
  exact ctrCmd_ok (fun y0 y1 hy1 => KeepsF.of (add_ok (add_ok hy1 rfl) rfl)) h2

theorem cmdCounterRead_ok {a0 : Nat} {a1 : Nat} {a2 : State} (h2 : Keeps s0 a2) : KeepsE s0 (cmdCounterRead a0 a1 a2)
    := by
  unfold cmdCounterRead
  exact ctrCmd_ok (fun y0 y1 hy1 => KeepsF.of hy1) h2

theorem cmdCounterReadClear_ok {a0 : Nat} {a1 : Nat} {a2 : State} (h2 : Keeps s0 a2) : KeepsE s0 (cmdCounterReadClear
    a0 a1 a2) := by
  unfold cmdCounterReadClear
  exact ctrCmd_ok (fun y0 y1 hy1 => KeepsF.of (set_ok (set_ok hy1 rfl) rfl)) h2

theorem cmdSendFrame_ok {a0 : Nat} {a1 : Nat} {a2 : State} (h2 : Keeps s0 a2) : KeepsE s0 (cmdSendFrame a0 a1 a2) := by
  unfold cmdSendFrame
  lift_lets -underBinder +implicits
  intro x0
  intro x1
  intro x2
  intro x3
  intro x4
  exact ite_of (Q := KeepsE s0) KeepsE.error (ite_of (Q := KeepsE s0) KeepsE.error (KeepsE.ok (cmdResult_ok
      (toStage_ok (newFrame_ok h2)))))

theorem cmdSendMbx_ok {a0 : Nat} {a1 : Nat} {a2 : State} (h2 : Keeps s0 a2) : KeepsE s0 (cmdSendMbx a0 a1 a2) := by
  unfold cmdSendMbx
  lift_lets -underBinder +implicits
  intro x0
  intro x1
  intro x2
  refine ite_of (Q := KeepsE s0) KeepsE.error ?_
  refine ite_of (Q := KeepsE s0) KeepsE.error ?_
  split
  · next m3 heq =>
    have hm3 : Keeps s0 m3 := by
      refine KeepsS.eq heq ?_
      exact mbxPost_ok h2
    exact KeepsE.error
  · next m4 m5 _ heq =>
    have hm5 : Keeps s0 m5 := by
      refine KeepsS.eq heq ?_
      exact mbxPost_ok h2
    exact KeepsE.ok (cmdResult_ok hm5)

theorem cmdTriggerArm_ok {a0 : Nat} {a1 : Nat} {a2 : State} (h2 : Keeps s0 a2) : KeepsE s0 (cmdTriggerArm a0 a1 a2) :=
    by
  unfold cmdTriggerArm
  lift_lets -underBinder +implicits
  intro x0
  intro x1
  intro x2
  intro x3
  intro x4
  intro x5
  intro x6
  have hx6 : Keeps s0 x6 := put_ok (trigLoad_ok h2) rfl
  clear_value x6
  intro x7
  have hx7 : Keeps s0 x7 := set_ok (set_ok (set_ok hx6 rfl) rfl) rfl
  clear_value x7
  exact ite_of (Q := KeepsE s0) KeepsE.error (ite_of (Q := KeepsE s0) KeepsE.error (ite_of (Q := KeepsE s0) (KeepsE.ok
      (cmdResult_ok h2)) (ite_of (Q := KeepsE s0) (KeepsE.ok (cmdResult_ok h2)) (ite_of (Q := KeepsE s0) (KeepsE.ok
      (cmdResult_ok h2)) (KeepsE.ok (Keeps.ite (sendTrg_ok hx7) hx7))))))

theorem cmdTriggerDisarm_ok {a0 : Nat} {a1 : Nat} {a2 : State} (h2 : Keeps s0 a2) : KeepsE s0 (cmdTriggerDisarm a0 a1
    a2) := by
  unfold cmdTriggerDisarm
  lift_lets -underBinder +implicits
  intro x0
  exact ite_of (Q := KeepsE s0) KeepsE.error (ite_of (Q := KeepsE s0) (KeepsE.ok (cmdResult_ok h2)) (ite_of (Q :=
      KeepsE s0) (KeepsE.ok (cmdResult_ok (disarm_ok h2))) (KeepsE.ok (cmdResult_ok h2))))

theorem cmdOf_ok {a0 : Nat} {a1 : Nat} {a2 : Nat} {a3 : Nat} {a4 : State} (h4 : Keeps s0 a4) : KeepsE s0 (cmdOf a0 a1
    a2 a3 a4) := by
  unfold cmdOf
  split
  · exact cmdFlowLookup_ok h4
  · exact cmdFlowInsert_ok h4
  · exact cmdFlowDelete_ok h4
  · exact cmdLpmLookup_ok h4
  · exact cmdL2Lookup_ok h4
  · exact cmdCipher_ok h4
  · exact cmdCipher_ok h4
  · exact cmdCipher_ok h4
  · exact cmdCipher_ok h4
  · exact cmdDmaStart_ok h4
  · exact cmdDmaCopy_ok h4
  · exact cmdCounterAdd_ok h4
  · exact cmdCounterRead_ok h4
  · exact cmdCounterReadClear_ok h4
  · exact cmdSendFrame_ok h4
  · exact cmdSendMbx_ok h4
  · exact cmdTriggerArm_ok h4
  · exact cmdTriggerDisarm_ok h4
  · exact KeepsE.error

theorem semCmdc_ok {a0 : Nat} {a1 : Nat} {a2 : State} (h2 : Keeps s0 a2) : Keeps s0 (semCmdc a0 a1 a2) := by
  unfold semCmdc
  exact cmdc_ok (fun y0 y1 y2 hy2 => cmdOf_ok hy2) h2

theorem semOf_ok {a0 : Nat} {a1 : Nat} {a2 : Nat} {a3 : State} (h3 : Keeps s0 a3) : Keeps s0 (semOf a0 a1 a2 a3) := by
  unfold semOf
  split
  · exact alu_ok h3
  · exact alu_ok h3
  · exact alu_ok h3
  · exact alu_ok h3
  · exact alu_ok h3
  · exact alu_ok h3
  · exact alu_ok h3
  · exact alu_ok h3
  · exact alu_ok h3
  · exact alu_ok h3
  · exact alu_ok h3
  · exact alu_ok h3
  · exact alu_ok h3
  · exact alu_ok h3
  · exact alu_ok h3
  · exact alu_ok h3
  · exact alu_ok h3
  · exact alu_ok h3
  · exact alu_ok h3
  · exact alu_ok h3
  · exact compare_ok h3
  · exact compare_ok h3
  · exact selOp_ok h3
  · exact selOp_ok h3
  · exact semExt_ok h3
  · exact semIns_ok h3
  · exact unary_ok h3
  · exact unary_ok h3
  · exact unary_ok h3
  · exact semCsum_ok h3
  · exact semLd_ok h3
  · exact semSt_ok h3
  · exact semPld_ok h3
  · exact semPst_ok h3
  · exact semSld_ok h3
  · exact semSst_ok h3
  · exact semSadd_ok h3
  · exact semScas_ok h3
  · exact semBr_ok h3
  · exact semBrc_ok h3
  · exact semCall_ok h3
  · exact semRet_ok h3
  · exact semJmpt_ok h3
  · exact semWaite_ok h3
  · exact semSige_ok h3
  · exact semWaitt_ok h3
  · exact semRdt_ok h3
  · exact semCmdw_ok h3
  · exact semCmdc_ok h3
  · exact semCmdr_ok h3
  · exact semTkt_ok h3
  · exact Keeps.ite (semRelForward_ok h3) (Keeps.ite (semRelDrop_ok h3) (semRelPass_ok h3))
  · exact semThst_ok h3
  · exact semThrs_ok h3
  · exact semFltr_ok h3
  · exact h3

end Sys2Proof.Laws
end

