-- ==== Sys2Proof/Laws/KeepsThread.lean ====
section
/-! SUPPORT. Sys2Proof/Laws/KeepsThread.lean: `Keeps` of each operation of Machine/Thread.lean. -/

namespace Sys2Proof.Laws

open Sys2Proof.Machine

variable {s0 : Base}

theorem dispatchFrame_ok {a0 : State} {a1 : Nat} {a2 : Nat} {a3 : Nat} (h0 : Keeps s0 a0) : Keeps s0
    (State.dispatchFrame a0 a1 a2 a3) := by
  unfold State.dispatchFrame
  lift_lets -underBinder +implicits
  intro x0
  intro x1
  intro x2
  have hx2 : KeepsS s0 x2 := takeTicket_ok h0
  clear_value x2
  intro x3
  have hx3 : Keeps s0 x3 := wr_ok (KeepsS.to hx2)
  clear_value x3
  intro x4
  have hx4 : Keeps s0 x4 := set_ok (set_ok (startThread_ok hx3) rfl) rfl
  clear_value x4
  intro x5
  have hx5 : Keeps s0 x5 := set_ok (put_ok hx4 rfl) rfl
  clear_value x5
  exact mirror_ok (coreEv_ok (pmu_ok (updFrame_ok hx5)))

theorem execPacketDispatch_ok {a0 : Nat} {a1 : State} (h1 : Keeps s0 a1) : KeepsR s0 (execPacketDispatch a0 a1) := by
  unfold execPacketDispatch
  split
  · lift_lets -underBinder +implicits
    intro x3
    have hx3 : Keeps s0 x3 := Keeps.other h1 rfl rfl rfl rfl
    clear_value x3
    exact ite_of (Q := KeepsR s0) (KeepsR.next (set_ok (dispatchFrame_ok hx3) rfl)) (KeepsR.next h1)
  · exact KeepsR.next h1

theorem execEvTimeout_ok {a0 : Nat} {a1 : State} (h1 : Keeps s0 a1) : KeepsR s0 (execEvTimeout a0 a1) := by
  unfold execEvTimeout
  lift_lets -underBinder +implicits
  intro x0
  exact ite_of (Q := KeepsR s0) (KeepsR.next (raiseEv_ok (set_ok (forEach_ok h1 (fun a1 t2 ht2 => slotIs_ok
      (slotPass_ok ht2))) rfl))) (KeepsR.next h1)

theorem execTicketHoldExpiry_ok {a0 : Nat} {a1 : Nat} {a2 : State} (h2 : Keeps s0 a2) : KeepsR s0
    (execTicketHoldExpiry a0 a1 a2) := by
  unfold execTicketHoldExpiry
  exact ite_of (Q := KeepsR s0) (ite_of (Q := KeepsR s0) (KeepsR.next (budgetFault_ok (slotPass_ok h2))) (KeepsR.next
      (takeFault_ok (put_ok h2 rfl)))) (KeepsR.next h2)

theorem execSlotBudgetExpiry_ok {a0 : Nat} {a1 : State} (h1 : Keeps s0 a1) : KeepsR s0 (execSlotBudgetExpiry a0 a1) :=
    by
  unfold execSlotBudgetExpiry
  lift_lets -underBinder +implicits
  intro x0
  intro x1
  exact ite_of (Q := KeepsR s0) (KeepsR.next (budgetFault_ok (Keeps.ite (set_ok h1 rfl) (forEach_ok h1 (fun a2 t3 ht3
      => slotIs_ok (slotPass_ok ht3)))))) (KeepsR.next h1)

theorem execClusterDeadlock_ok {a0 : Nat} {a1 : State} (h1 : Keeps s0 a1) : KeepsR s0 (execClusterDeadlock a0 a1) := by
  unfold execClusterDeadlock
  lift_lets -underBinder +implicits
  intro x0
  have hx0 : Keeps s0 x0 := put_ok (put_ok h1 rfl) rfl
  clear_value x0
  exact ite_of (Q := KeepsR s0) (KeepsR.next (detect_ok (forEach_ok hx0 (fun a1 t2 ht2 => raiseEv_ok ht2))))
      (KeepsR.next h1)

theorem supStart_ok {a0 : State} {a1 : Nat} {a2 : Nat} (h0 : Keeps s0 a0) : Keeps s0 (State.supStart a0 a1 a2) := by
  unfold State.supStart
  lift_lets -underBinder +implicits
  intro x0
  have hx0 : Keeps s0 x0 := Keeps.ite (dispose_ok h0) h0
  clear_value x0
  exact Keeps.ite (startThread_ok hx0) h0

theorem execSupRestart_ok {a0 : Who} {a1 : Nat} {a2 : Nat} {a3 : State} (h3 : Keeps s0 a3) : KeepsR s0 (execSupRestart
    a0 a1 a2 a3) := by
  unfold execSupRestart
  lift_lets -underBinder +implicits
  intro x0
  have hx0 : Keeps s0 x0 := set_ok h3 rfl
  clear_value x0
  exact ite_of (Q := KeepsR s0) (KeepsR.next (forEach_ok hx0 (fun a1 t2 ht2 => supStart_ok ht2))) (KeepsR.next h3)

theorem execLockstepResyncDone_ok {a0 : Nat} {a1 : State} (h1 : Keeps s0 a1) : KeepsR s0 (execLockstepResyncDone a0
    a1) := by
  unfold execLockstepResyncDone
  lift_lets -underBinder +implicits
  intro x0
  have hx0 : Keeps s0 x0 := wr_ok h1
  clear_value x0
  exact ite_of (Q := KeepsR s0) (KeepsR.next (put_ok (forEach_ok hx0 (fun a1 t2 ht2 => mirror_ok ht2)) rfl))
      (KeepsR.next h1)

theorem resumeThread_ok {a0 : State} {a1 : Nat} (h0 : Keeps s0 a0) : Keeps s0 (State.resumeThread a0 a1) := by
  unfold State.resumeThread
  lift_lets -underBinder +implicits
  intro x0
  have hx0 : Keeps s0 x0 := put_ok h0 rfl
  clear_value x0
  exact Keeps.ite (endThread_ok (put_ok hx0 rfl)) hx0

theorem sessionEnd_ok {a0 : State} {a1 : Nat} (h0 : Keeps s0 a0) : Keeps s0 (State.sessionEnd a0 a1) := by
  unfold State.sessionEnd
  lift_lets -underBinder +implicits
  intro x0
  intro x1
  have hx1 : Keeps s0 x1 := forEach_ok h0 (fun a2 t3 ht3 => resumeThread_ok ht3)
  clear_value x1
  exact forEach_ok hx1 (fun a4 t5 ht5 => set_ok ht5 rfl)

theorem sessionTo_ok {a0 : State} {a1 : Bool} {a2 : Nat} (h0 : Keeps s0 a0) : Keeps s0 (State.sessionTo a0 a1 a2) := by
  unfold State.sessionTo
  lift_lets -underBinder +implicits
  intro x0
  exact forEach_ok (set_ok (put_ok h0 rfl) rfl) (fun a1 t2 ht2 => sessionEnd_ok ht2)

theorem execSessionOpen_ok {a0 : Who} {a1 : Nat} {a2 : State} (h2 : Keeps s0 a2) : KeepsR s0 (execSessionOpen a0 a1
    a2) := by
  unfold execSessionOpen
  exact ite_of (Q := KeepsR s0) (KeepsR.next (sessionTo_ok h2)) (KeepsR.next h2)

theorem execSessionClose_ok {a0 : Who} {a1 : State} (h1 : Keeps s0 a1) : KeepsR s0 (execSessionClose a0 a1) := by
  unfold execSessionClose
  exact ite_of (Q := KeepsR s0) (KeepsR.next (sessionTo_ok h1)) (KeepsR.next h1)

theorem dbgCmd_ok {a0 : State} {a1 : Who} {a2 : Nat} {a3 : Bool} {a4 : State → State} (h0 : Keeps s0 a0) (h4 : ∀ z0,
    Keeps s0 z0 → Keeps s0 (a4 z0)) : Keeps s0 (State.dbgCmd a0 a1 a2 a3 a4) := by
  unfold State.dbgCmd
  exact Keeps.ite h0 (Keeps.ite (put_ok h0 rfl) (Keeps.ite (Keeps.ite (put_ok h0 rfl) h0) (h4 _ (wakeCluster_ok
      (set_ok h0 rfl)))))

theorem execHalt_ok {a0 : Who} {a1 : Nat} {a2 : State} (h2 : Keeps s0 a2) : KeepsR s0 (execHalt a0 a1 a2) := by
  unfold execHalt
  exact KeepsR.next (dbgCmd_ok h2 (fun y0 hy0 => rearm_ok (put_ok hy0 rfl)))

theorem execResume_ok {a0 : Who} {a1 : Nat} {a2 : State} (h2 : Keeps s0 a2) : KeepsR s0 (execResume a0 a1 a2) := by
  unfold execResume
  exact KeepsR.next (dbgCmd_ok h2 (fun y0 hy0 => Keeps.ite (resumeThread_ok hy0) hy0))

theorem debugStep_ok {a0 : State} {a1 : Nat} (h0 : Keeps s0 a0) : Keeps s0 (State.debugStep a0 a1) := by
  unfold State.debugStep
  lift_lets -underBinder +implicits
  intro x0
  exact Keeps.ite (slotDo_ok h0 (fun y1 hy1 => semOf_ok hy1)) h0

theorem execStep_ok {a0 : Who} {a1 : Nat} {a2 : State} (h2 : Keeps s0 a2) : KeepsR s0 (execStep a0 a1 a2) := by
  unfold execStep
  exact KeepsR.next (dbgCmd_ok h2 (fun y0 hy0 => debugStep_ok hy0))

theorem debugRelease_ok {a0 : State} {a1 : Nat} (h0 : Keeps s0 a0) : Keeps s0 (State.debugRelease a0 a1) := by
  unfold State.debugRelease
  lift_lets -underBinder +implicits
  intro x0
  exact Keeps.ite (put_ok (dispose_ok h0) rfl) h0

theorem execDebugRelease_ok {a0 : Who} {a1 : Nat} {a2 : State} (h2 : Keeps s0 a2) : KeepsR s0 (execDebugRelease a0 a1
    a2) := by
  unfold execDebugRelease
  exact KeepsR.next (dbgCmd_ok h2 (fun y0 hy0 => debugRelease_ok hy0))

theorem execHeartbeat_ok {a0 : Who} {a1 : Nat} {a2 : State} (h2 : Keeps s0 a2) : KeepsR s0 (execHeartbeat a0 a1 a2) :=
    by
  unfold execHeartbeat
  lift_lets -underBinder +implicits
  intro x0
  have hx0 : Keeps s0 x0 := Keeps.ite h2 (set_ok h2 rfl)
  clear_value x0
  exact ite_of (Q := KeepsR s0) (KeepsR.next (put_ok (set_ok hx0 rfl) rfl)) (KeepsR.next h2)

theorem execMgmtStall_ok {a0 : State} (h0 : Keeps s0 a0) : KeepsR s0 (execMgmtStall a0) := by
  unfold execMgmtStall
  exact ite_of (Q := KeepsR s0) (KeepsR.next (detect_ok (enterDrift_ok (set_ok (put_ok h0 rfl) rfl)))) (KeepsR.next h0)

theorem mgmtReset_ok {a0 : State} {a1 : Nat} (h0 : Keeps s0 a0) : Keeps s0 (State.mgmtReset a0 a1) := by
  unfold State.mgmtReset
  lift_lets -underBinder +implicits
  intro x0
  intro x1
  have hx1 : Keeps s0 x1 := set_ok (put_ok (endThread_ok (dispose_ok h0)) rfl) rfl
  clear_value x1
  exact mbxOwe_ok (mbxReset_ok hx1)

theorem execMgmtRestart_ok {a0 : Who} {a1 : State} (h1 : Keeps s0 a1) : KeepsR s0 (execMgmtRestart a0 a1) := by
  unfold execMgmtRestart
  exact ite_of (Q := KeepsR s0) (KeepsR.next (enterDrift_ok (put_ok (put_ok (forEach_ok h1 (fun a0 t1 ht1 =>
      mgmtReset_ok ht1)) rfl) rfl))) (KeepsR.next h1)

theorem execMgmtRestartDone_ok {a0 : List Byte} {a1 : State} (h1 : Keeps s0 a1) : KeepsR s0 (execMgmtRestartDone a0
    a1) := by
  unfold execMgmtRestartDone
  lift_lets -underBinder +implicits
  intro x0
  have hx0 : Keeps s0 x0 := forEach_ok h1 (fun a1 t2 ht2 => loadSeg_ok ht2)
  clear_value x0
  exact ite_of (Q := KeepsR s0) (KeepsR.next (forEach_ok (put_ok (startMgmt_ok hx0) rfl) (fun a3 t4 ht4 => mbxRing_ok
      ht4))) (KeepsR.next h1)

theorem execExceptionFrameDispatch_ok {a0 : Nat} {a1 : State} (h1 : Keeps s0 a1) : KeepsR s0
    (execExceptionFrameDispatch a0 a1) := by
  unfold execExceptionFrameDispatch
  lift_lets -underBinder +implicits
  intro x0
  split
  · lift_lets -underBinder +implicits
    intro x3
    have hx3 : Keeps s0 x3 := wr_ok (Keeps.other h1 rfl rfl rfl rfl)
    clear_value x3
    exact ite_of (Q := KeepsR s0) (KeepsR.next (updFrame_ok (set_ok hx3 rfl))) (KeepsR.next h1)
  · exact KeepsR.next h1

end Sys2Proof.Laws
end

