-- ==== Sys2Proof/Laws/KeepsGate.lean ====
section
/-! SUPPORT. Sys2Proof/Laws/KeepsGate.lean: `Keeps` of each operation of Machine/Gate.lean. -/

namespace Sys2Proof.Laws

open Sys2Proof.Machine

variable {s0 : Base}

theorem wakeLane_ok {a0 : State} {a1 : Nat} (h0 : Keeps s0 a0) : Keeps s0 (State.wakeLane a0 a1) := by
  unfold State.wakeLane
  lift_lets -underBinder +implicits
  intro x0
  exact Keeps.ite (inc_ok (set_ok h0 rfl) rfl) h0

theorem execGateCfgWrite_ok {a0 : Who} {a1 : Nat} {a2 : State} (h2 : Keeps s0 a2) : KeepsR s0 (execGateCfgWrite a0 a1
    a2) := by
  unfold execGateCfgWrite
  lift_lets -underBinder +implicits
  intro x0
  intro x1
  have hx1 : Keeps s0 x1 := put_ok h2 rfl
  clear_value x1
  intro x2
  have hx2 : Keeps s0 x2 := Keeps.ite hx1 (set_ok hx1 rfl)
  clear_value x2
  intro x3
  have hx3 : Keeps s0 x3 := Keeps.ite hx2 (set_ok hx2 rfl)
  clear_value x3
  exact ite_of (Q := KeepsR s0) (KeepsR.next (Keeps.ite hx3 (forEach_ok (forEach_ok hx3 (fun a4 t5 ht5 =>
      wakeCluster_ok ht5)) (fun a6 t7 ht7 => wakeLane_ok ht7)))) (KeepsR.next h2)

theorem execClusterGate_ok {a0 : Nat} {a1 : State} (h1 : Keeps s0 a1) : KeepsR s0 (execClusterGate a0 a1) := by
  unfold execClusterGate
  lift_lets -underBinder +implicits
  intro x0
  exact ite_of (Q := KeepsR s0) (KeepsR.next (set_ok h1 rfl)) (KeepsR.next h1)

theorem execClusterWake_ok {a0 : Nat} {a1 : State} (h1 : Keeps s0 a1) : KeepsR s0 (execClusterWake a0 a1) := by
  unfold execClusterWake
  exact ite_of (Q := KeepsR s0) (KeepsR.next (wakeCluster_ok h1)) (KeepsR.next h1)

theorem execLaneGate_ok {a0 : Nat} {a1 : State} (h1 : Keeps s0 a1) : KeepsR s0 (execLaneGate a0 a1) := by
  unfold execLaneGate
  lift_lets -underBinder +implicits
  intro x0
  exact ite_of (Q := KeepsR s0) (KeepsR.next (set_ok h1 rfl)) (KeepsR.next h1)

theorem execLaneWake_ok {a0 : Nat} {a1 : State} (h1 : Keeps s0 a1) : KeepsR s0 (execLaneWake a0 a1) := by
  unfold execLaneWake
  exact ite_of (Q := KeepsR s0) (KeepsR.next (wakeLane_ok h1)) (KeepsR.next h1)

end Sys2Proof.Laws
end

