-- ==== Sys2Proof/Laws/KeepsPipe.lean ====
section
/-! SUPPORT. Sys2Proof/Laws/KeepsPipe.lean: `Keeps` of each operation of Machine/Pipe.lean. -/

namespace Sys2Proof.Laws

open Sys2Proof.Machine

variable {s0 : Base}

theorem pipeExc_ok {a0 : State} {a1 : Nat} {a2 : Found} {a3 : Nat} (h0 : Keeps s0 a0) : Keeps s0 (State.pipeExc a0 a1
    a2 a3) := by
  unfold State.pipeExc
  lift_lets -underBinder +implicits
  intro x0
  have hx0 : Keeps s0 x0 := updFrame_ok h0
  clear_value x0
  exact toException_ok hx0

theorem lookups_ok {a0 : State} {a1 : Nat} {a2 : Frame} {a3 : Found} {a4 : Nat} (h0 : Keeps s0 a0) : KeepsS s0
    (State.lookups a0 a1 a2 a3 a4) := by
  unfold State.lookups
  lift_lets -underBinder +implicits
  intro x0
  intro x1
  split
  · next m2 m3 heq =>
    have hm3 : Keeps s0 m3 := by
      refine KeepsS.eq heq ?_
      exact ite_of (Q := KeepsS s0) (flowLookup_ok h0) (KeepsS.of h0)
    lift_lets -underBinder +implicits
    intro x4
    intro x5
    intro x6
    intro x7
    have hx7 : Keeps s0 x7 := Keeps.ite (flushSome_ok hm3) hm3
    clear_value x7
    intro x8
    intro x9
    have hx9 : Keeps s0 x9 := Keeps.ite (l2Source_ok hx7) hx7
    clear_value x9
    intro x10
    have hx10 : Keeps s0 x10 := foundBads_ok (foundBads_ok (foundBadFlows_ok hx9))
    clear_value x10
    intro x11
    have hx11 : Keeps s0 x11 := Keeps.ite (foundBads_ok hx10) hx10
    clear_value x11
    exact KeepsS.of hx11

theorem actOn_ok {a0 : State} {a1 : Nat} {a2 : Nat} {a3 : Frame} {a4 : Found} (h0 : Keeps s0 a0) : Keeps s0
    (State.actOn a0 a1 a2 a3 a4) := by
  unfold State.actOn
  lift_lets -underBinder +implicits
  intro x0
  intro x1
  intro x2
  intro x3
  intro x4
  intro x5
  have hx5 : Keeps s0 x5 := updFrame_ok h0
  clear_value x5
  exact Keeps.ite (endFrame_ok (inc_ok h0 rfl)) (Keeps.ite (pipeExc_ok h0) (Keeps.other hx5 rfl rfl rfl rfl))

theorem classify_ok {a0 : State} {a1 : Nat} {a2 : Nat} {a3 : Frame} {a4 : Found} {a5 : Nat} (h0 : Keeps s0 a0) : Keeps
    s0 (State.classify a0 a1 a2 a3 a4 a5) := by
  unfold State.classify
  split
  · exact pipeExc_ok h0
  · lift_lets -underBinder +implicits
    intro x1
    intro x2
    intro x3
    have hx3 : Keeps s0 x3 := pmu_ok h0
    clear_value x3
    intro x4
    intro x5
    have hx5 : KeepsS s0 x5 := lookups_ok hx3
    clear_value x5
    exact Keeps.ite (pipeExc_ok (foundBad_ok h0)) (Keeps.ite (pipeExc_ok (foundBad_ok hx3)) (actOn_ok (updFrame_ok
        (KeepsS.to hx5))))

theorem parseIn_ok {a0 : State} {a1 : Nat} {a2 : Nat} {a3 : Nat} (h0 : Keeps s0 a0) : Keeps s0 (State.parseIn a0 a1 a2
    a3) := by
  unfold State.parseIn
  lift_lets -underBinder +implicits
  intro x0
  intro x1
  have hx1 : Keeps s0 x1 := pmu_ok h0
  clear_value x1
  intro x2
  intro x3
  clear_value x3
  split
  · exact pipeExc_ok hx1
  · lift_lets -underBinder +implicits
    intro x5
    intro x6
    intro x7
    intro x8
    have hx8 : Keeps s0 x8 := Keeps.ite (inc_ok hx1 rfl) hx1
    clear_value x8
    intro x9
    have hx9 : Keeps s0 x9 := Keeps.ite (inc_ok hx8 rfl) hx8
    clear_value x9
    refine Keeps.ite (pipeExc_ok (foundBad_ok hx1)) ?_
    refine Keeps.ite (pipeExc_ok (foundBad_ok hx1)) ?_
    split
    · exact pipeExc_ok hx9
    · exact classify_ok hx9

theorem parse_ok {a0 : State} {a1 : Nat} {a2 : Nat} {a3 : Nat} (h0 : Keeps s0 a0) : Keeps s0 (State.parse a0 a1 a2 a3)
    := by
  unfold State.parse
  lift_lets -underBinder +implicits
  intro x0
  intro x1
  intro x2
  have hx2 : KeepsS s0 x2 := meter_ok (markWay_ok h0)
  clear_value x2
  exact Keeps.ite (parseIn_ok h0) (Keeps.ite (parseIn_ok (KeepsS.to hx2)) (endFrame_ok (inc_ok (KeepsS.to hx2) rfl)))

theorem execFrameParse_ok {a0 : Nat} {a1 : Nat} {a2 : State} (h2 : Keeps s0 a2) : KeepsR s0 (execFrameParse a0 a1 a2)
    := by
  unfold execFrameParse
  lift_lets -underBinder +implicits
  intro x0
  intro x1
  intro x2
  refine ite_of (Q := KeepsR s0) (KeepsR.next h2) ?_
  split
  · exact KeepsR.next h2
  · exact KeepsR.next (parse_ok (set_ok h2 rfl))

theorem setUpd_ok {a0 : State} {a1 : Nat} {a2 : List (Nat × Nat × List Byte)} (h0 : Keeps s0 a0) : Keeps s0
    (State.setUpd a0 a1 a2) := by
  unfold State.setUpd
  exact set_ok (Keeps.other h0 rfl rfl rfl rfl) rfl

theorem updRefuse_ok {a0 : State} {a1 : Nat} {a2 : Nat} (h0 : Keeps s0 a0) : Keeps s0 (State.updRefuse a0 a1 a2) := by
  unfold State.updRefuse
  exact set_ok (put_ok h0 rfl) rfl

theorem push_ok {a0 : State} {a1 : Who} {a2 : Nat} {a3 : Nat} {a4 : Nat} {a5 : Nat} {a6 : List Byte → Bool} (h0 :
    Keeps s0 a0) : Keeps s0 (State.push a0 a1 a2 a3 a4 a5 a6) := by
  unfold State.push
  lift_lets -underBinder +implicits
  intro x0
  exact Keeps.ite h0 (Keeps.ite (updRefuse_ok h0) (Keeps.ite (updRefuse_ok h0) (Keeps.ite (updRefuse_ok h0) (Keeps.ite
      (updRefuse_ok h0) (setUpd_ok h0)))))

theorem execClsWrite_ok {a0 : Who} {a1 : Nat} {a2 : Nat} {a3 : State} (h3 : Keeps s0 a3) : KeepsR s0 (execClsWrite a0
    a1 a2 a3) := by
  unfold execClsWrite
  exact KeepsR.next (push_ok h3)

theorem execClsInval_ok {a0 : Who} {a1 : Nat} {a2 : Nat} {a3 : State} (h3 : Keeps s0 a3) : KeepsR s0 (execClsInval a0
    a1 a2 a3) := by
  unfold execClsInval
  exact KeepsR.next (push_ok h3)

theorem execSelWrite_ok {a0 : Who} {a1 : Nat} {a2 : Nat} {a3 : State} (h3 : Keeps s0 a3) : KeepsR s0 (execSelWrite a0
    a1 a2 a3) := by
  unfold execSelWrite
  exact KeepsR.next (push_ok h3)

theorem execPrfWrite_ok {a0 : Who} {a1 : Nat} {a2 : Nat} {a3 : State} (h3 : Keeps s0 a3) : KeepsR s0 (execPrfWrite a0
    a1 a2 a3) := by
  unfold execPrfWrite
  exact KeepsR.next (push_ok h3)

theorem execKselWrite_ok {a0 : Who} {a1 : Nat} {a2 : Nat} {a3 : State} (h3 : Keeps s0 a3) : KeepsR s0 (execKselWrite
    a0 a1 a2 a3) := by
  unfold execKselWrite
  exact KeepsR.next (push_ok h3)

theorem execPclassWrite_ok {a0 : Who} {a1 : Nat} {a2 : Nat} {a3 : State} (h3 : Keeps s0 a3) : KeepsR s0
    (execPclassWrite a0 a1 a2 a3) := by
  unfold execPclassWrite
  exact KeepsR.next (push_ok h3)

theorem updApply_ok {a0 : State} {a1 : Nat} {a2 : Nat × Nat × List Byte} (h0 : Keeps s0 a0) : Keeps s0 (State.updApply
    a0 a1 a2) := by
  unfold State.updApply
  lift_lets -underBinder +implicits
  intro x0
  intro x1
  split
  · exact clsWrite_ok h0
  · exact clsInval_ok h0
  · exact putSel_ok h0
  · exact putPrf_ok h0
  · exact putKsel_ok h0
  · exact set_ok h0 rfl

theorem execUpdateCommit_ok {a0 : Who} {a1 : Nat} {a2 : State} (h2 : Keeps s0 a2) : KeepsR s0 (execUpdateCommit a0 a1
    a2) := by
  unfold execUpdateCommit
  exact ite_of (Q := KeepsR s0) (KeepsR.next h2) (ite_of (Q := KeepsR s0) (KeepsR.next (updRefuse_ok h2)) (ite_of (Q
      := KeepsR s0) (KeepsR.next h2) (KeepsR.next (put_ok (put_ok (put_ok h2 rfl) rfl) rfl))))

theorem execUpdateDiscard_ok {a0 : Who} {a1 : Nat} {a2 : State} (h2 : Keeps s0 a2) : KeepsR s0 (execUpdateDiscard a0
    a1 a2) := by
  unfold execUpdateDiscard
  exact ite_of (Q := KeepsR s0) (KeepsR.next h2) (ite_of (Q := KeepsR s0) (KeepsR.next (updRefuse_ok h2)) (KeepsR.next
      (setUpd_ok h2)))

theorem clsRead_ok {a0 : State} {a1 : Nat} (h0 : Keeps s0 a0) : Keeps s0 (State.clsRead a0 a1) := by
  unfold State.clsRead
  lift_lets -underBinder +implicits
  intro x0
  intro x1
  have hx1 : Keeps s0 x1 := putArea_ok h0 rfl
  clear_value x1
  exact put_ok (put_ok (put_ok hx1 rfl) rfl) rfl

theorem execUpdateWindowEnd_ok {a0 : Nat} {a1 : Nat} {a2 : State} (h2 : Keeps s0 a2) : KeepsR s0 (execUpdateWindowEnd
    a0 a1 a2) := by
  unfold execUpdateWindowEnd
  lift_lets -underBinder +implicits
  intro x0
  intro x1
  intro x2
  have hx2 : Keeps s0 x2 := setUpd_ok (forEach_ok h2 (fun a3 t4 ht4 => updApply_ok ht4))
  clear_value x2
  intro x5
  have hx5 : Keeps s0 x5 := put_ok (put_ok (put_ok hx2 rfl) rfl) rfl
  clear_value x5
  intro x6
  have hx6 : Keeps s0 x6 := set_ok (set_ok hx5 rfl) rfl
  clear_value x6
  intro x7
  have hx7 : Keeps s0 x7 := pmu_ok hx6
  clear_value x7
  exact ite_of (Q := KeepsR s0) (KeepsR.next h2) (ite_of (Q := KeepsR s0) (KeepsR.next (clsRead_ok hx7)) (KeepsR.next
      hx7))

theorem execClsRead_ok {a0 : Who} {a1 : Nat} {a2 : Nat} {a3 : State} (h3 : Keeps s0 a3) : KeepsR s0 (execClsRead a0 a1
    a2 a3) := by
  unfold execClsRead
  lift_lets -underBinder +implicits
  intro x0
  have hx0 : Keeps s0 x0 := put_ok (set_ok h3 rfl) rfl
  clear_value x0
  exact ite_of (Q := KeepsR s0) (KeepsR.next h3) (ite_of (Q := KeepsR s0) (KeepsR.next (put_ok hx0 rfl)) (KeepsR.next
      (clsRead_ok hx0)))

end Sys2Proof.Laws
end

