-- ==== Sys2Proof/Laws/KeepsPort.lean ====
section
/-! SUPPORT. Sys2Proof/Laws/KeepsPort.lean: `Keeps` of each operation of Machine/Port.lean. -/

namespace Sys2Proof.Laws

open Sys2Proof.Machine

variable {s0 : Base}

theorem clearCnt_ok {a0 : State} {a1 : Nat} (h0 : Keeps s0 a0) : Keeps s0 (State.clearCnt a0 a1) := by
  unfold State.clearCnt
  exact forEach_ok (countPaused_ok h0) (fun a0 t1 ht1 => set_ok ht1 rfl)

theorem quadChange_ok {a0 : State} {a1 : Nat} (h0 : Keeps s0 a0) : Keeps s0 (State.quadChange a0 a1) := by
  unfold State.quadChange
  lift_lets -underBinder +implicits
  intro x0
  intro x1
  have hx1 : Keeps s0 x1 := forEach_ok h0 (fun a2 t3 ht3 => clearCnt_ok (nlinkDown_ok ht3))
  clear_value x1
  exact sdsTidy_ok (set_ok hx1 rfl)

theorem execNmodeWrite_ok {a0 : Who} {a1 : Nat} {a2 : State} (h2 : Keeps s0 a2) : KeepsR s0 (execNmodeWrite a0 a1 a2)
    := by
  unfold execNmodeWrite
  lift_lets -underBinder +implicits
  intro x0
  have hx0 : Keeps s0 x0 := Keeps.ite (put_ok h2 rfl) h2
  clear_value x0
  intro x1
  exact ite_of (Q := KeepsR s0) (KeepsR.next h2) (ite_of (Q := KeepsR s0) (KeepsR.next hx0) (ite_of (Q := KeepsR s0)
      (KeepsR.next (put_ok hx0 rfl)) (KeepsR.next (quadChange_ok hx0))))

theorem execLinkUp_ok {a0 : Nat} {a1 : State} (h1 : Keeps s0 a1) : KeepsR s0 (execLinkUp a0 a1) := by
  unfold execLinkUp
  lift_lets -underBinder +implicits
  intro x0
  intro x1
  have hx1 : Keeps s0 x1 := set_ok (put_ok (put_ok h1 rfl) rfl) rfl
  clear_value x1
  exact ite_of (Q := KeepsR s0) (KeepsR.next h1) (ite_of (Q := KeepsR s0) (ite_of (Q := KeepsR s0) (KeepsR.next
      (put_ok (put_ok h1 rfl) rfl)) (KeepsR.next h1)) (ite_of (Q := KeepsR s0) (KeepsR.next (put_ok h1 rfl)) (ite_of
      (Q := KeepsR s0) (KeepsR.next (mbxLinkUp_ok (put_ok hx1 rfl))) (KeepsR.next h1))))

theorem execLinkDown_ok {a0 : Nat} {a1 : State} (h1 : Keeps s0 a1) : KeepsR s0 (execLinkDown a0 a1) := by
  unfold execLinkDown
  exact ite_of (Q := KeepsR s0) (KeepsR.next (put_ok h1 rfl)) (KeepsR.next (linkDown_ok h1))

theorem execChpause_ok {a0 : Nat} {a1 : Nat} {a2 : Nat} {a3 : State} (h3 : Keeps s0 a3) : KeepsR s0 (execChpause a0 a1
    a2 a3) := by
  unfold execChpause
  exact ite_of (Q := KeepsR s0) (KeepsR.next (rxChpause_ok (lcnt_ok h3))) (KeepsR.next (linkDrop_ok h3))

theorem execChpauseExpiry_ok {a0 : Nat} {a1 : Nat} {a2 : State} (h2 : Keeps s0 a2) : KeepsR s0 (execChpauseExpiry a0
    a1 a2) := by
  unfold execChpauseExpiry
  lift_lets -underBinder +implicits
  intro x0
  exact ite_of (Q := KeepsR s0) (KeepsR.next (chPause_ok h2)) (KeepsR.next h2)

theorem execChpauseRefresh_ok {a0 : Nat} {a1 : State} (h1 : Keeps s0 a1) : KeepsR s0 (execChpauseRefresh a0 a1) := by
  unfold execChpauseRefresh
  lift_lets -underBinder +implicits
  intro x0
  exact ite_of (Q := KeepsR s0) (KeepsR.next h1) (KeepsR.next (sendChpause_ok h1))

theorem execPause_ok {a0 : Nat} {a1 : Nat} {a2 : State} (h2 : Keeps s0 a2) : KeepsR s0 (execPause a0 a1 a2) := by
  unfold execPause
  exact ite_of (Q := KeepsR s0) (KeepsR.next (rxPause_ok h2)) (KeepsR.next (netDrop_ok h2))

theorem execPfc_ok {a0 : Nat} {a1 : Nat} {a2 : List Nat} {a3 : State} (h3 : Keeps s0 a3) : KeepsR s0 (execPfc a0 a1 a2
    a3) := by
  unfold execPfc
  exact ite_of (Q := KeepsR s0) (KeepsR.next (rxPfc_ok h3)) (KeepsR.next (netDrop_ok h3))

theorem execPauseExpiry_ok {a0 : Nat} {a1 : Nat} {a2 : State} (h2 : Keeps s0 a2) : KeepsR s0 (execPauseExpiry a0 a1
    a2) := by
  unfold execPauseExpiry
  lift_lets -underBinder +implicits
  intro x0
  exact ite_of (Q := KeepsR s0) (KeepsR.next (netPause_ok h2)) (KeepsR.next h2)

theorem execPauseRefresh_ok {a0 : Nat} {a1 : State} (h1 : Keeps s0 a1) : KeepsR s0 (execPauseRefresh a0 a1) := by
  unfold execPauseRefresh
  lift_lets -underBinder +implicits
  intro x0
  intro x1
  intro x2
  intro x3
  exact ite_of (Q := KeepsR s0) (KeepsR.next h1) (ite_of (Q := KeepsR s0) (ite_of (Q := KeepsR s0) (KeepsR.next
      (sendPause_ok h1)) (KeepsR.next h1)) (ite_of (Q := KeepsR s0) (ite_of (Q := KeepsR s0) (KeepsR.next h1)
      (KeepsR.next (sendPause_ok h1))) (KeepsR.next h1)))

theorem execMgmtReq_ok {a0 : Who} {a1 : Nat} {a2 : Nat} {a3 : State} (h3 : Keeps s0 a3) : KeepsR s0 (execMgmtReq a0 a1
    a2 a3) := by
  unfold execMgmtReq
  lift_lets -underBinder +implicits
  intro x0
  have hx0 : Keeps s0 x0 := put_ok (set_ok (set_ok h3 rfl) rfl) rfl
  clear_value x0
  intro x1
  intro x2
  intro x3
  have hx3 : Keeps s0 x3 := sendMgmt_ok hx0
  clear_value x3
  exact ite_of (Q := KeepsR s0) (KeepsR.next h3) (ite_of (Q := KeepsR s0) (KeepsR.next (put_ok h3 rfl)) (ite_of (Q :=
      KeepsR s0) (KeepsR.next (set_ok (set_ok (set_ok hx0 rfl) rfl) rfl)) (KeepsR.next (set_ok (put_ok hx3 rfl)
      rfl))))

theorem execMgmtRsp_ok {a0 : Nat} {a1 : Nat} {a2 : Nat} {a3 : List Byte} {a4 : State} (h4 : Keeps s0 a4) : KeepsR s0
    (execMgmtRsp a0 a1 a2 a3 a4) := by
  unfold execMgmtRsp
  exact ite_of (Q := KeepsR s0) (KeepsR.next (rxMgmt_ok (lcnt_ok h4))) (KeepsR.next (linkDrop_ok h4))

theorem execMgmtReqTimeout_ok {a0 : Nat} {a1 : State} (h1 : Keeps s0 a1) : KeepsR s0 (execMgmtReqTimeout a0 a1) := by
  unfold execMgmtReqTimeout
  exact KeepsR.next (shlEnd_ok h1)

theorem execCredit_ok {a0 : Nat} {a1 : Nat} {a2 : State} (h2 : Keeps s0 a2) : KeepsR s0 (execCredit a0 a1 a2) := by
  unfold execCredit
  exact ite_of (Q := KeepsR s0) (KeepsR.next (rxCredit_ok (lcnt_ok h2))) (KeepsR.next (linkDrop_ok h2))

theorem execPowerOn_ok {a0 : Who} {a1 : Nat} {a2 : State} (h2 : Keeps s0 a2) : KeepsR s0 (execPowerOn a0 a1 a2) := by
  unfold execPowerOn
  exact ite_of (Q := KeepsR s0) (KeepsR.next h2) (ite_of (Q := KeepsR s0) (KeepsR.next (slotRefuse_ok h2))
      (KeepsR.next (slotSeq_ok (put_ok h2 rfl))))

theorem execPowerGood_ok {a0 : Nat} {a1 : State} (h1 : Keeps s0 a1) : KeepsR s0 (execPowerGood a0 a1) := by
  unfold execPowerGood
  lift_lets -underBinder +implicits
  intro x0
  have hx0 : Keeps s0 x0 := put_ok h1 rfl
  clear_value x0
  exact ite_of (Q := KeepsR s0) (KeepsR.next (slotSeq_ok hx0)) (KeepsR.next h1)

theorem execResetDelayExpiry_ok {a0 : Nat} {a1 : State} (h1 : Keeps s0 a1) : KeepsR s0 (execResetDelayExpiry a0 a1) :=
    by
  unfold execResetDelayExpiry
  lift_lets -underBinder +implicits
  intro x0
  exact ite_of (Q := KeepsR s0) (KeepsR.next (slotSeq_ok (Keeps.ite (slotRst_ok h1) h1))) (ite_of (Q := KeepsR s0)
      (KeepsR.next (slotSeq_ok (slotRst_ok h1))) (KeepsR.next h1))

theorem execPowerOff_ok {a0 : Who} {a1 : Nat} {a2 : State} (h2 : Keeps s0 a2) : KeepsR s0 (execPowerOff a0 a1 a2) := by
  unfold execPowerOff
  exact ite_of (Q := KeepsR s0) (KeepsR.next h2) (ite_of (Q := KeepsR s0) (KeepsR.next (slotRefuse_ok h2))
      (KeepsR.next (slotOff_ok h2)))

theorem execPowerOffDelayExpiry_ok {a0 : Nat} {a1 : State} (h1 : Keeps s0 a1) : KeepsR s0 (execPowerOffDelayExpiry a0
    a1) := by
  unfold execPowerOffDelayExpiry
  exact ite_of (Q := KeepsR s0) (KeepsR.next (zeroOwner_ok (slotSeq_ok (put_ok h1 rfl)))) (KeepsR.next h1)

theorem execReset_ok {a0 : Who} {a1 : Nat} {a2 : State} (h2 : Keeps s0 a2) : KeepsR s0 (execReset a0 a1 a2) := by
  unfold execReset
  exact ite_of (Q := KeepsR s0) (KeepsR.next h2) (ite_of (Q := KeepsR s0) (KeepsR.next (slotRefuse_ok h2))
      (KeepsR.next (slotSeq_ok (slotRst_ok h2))))

theorem execHold_ok {a0 : Who} {a1 : Nat} {a2 : State} (h2 : Keeps s0 a2) : KeepsR s0 (execHold a0 a1 a2) := by
  unfold execHold
  exact ite_of (Q := KeepsR s0) (KeepsR.next h2) (ite_of (Q := KeepsR s0) (KeepsR.next (slotRefuse_ok h2))
      (KeepsR.next (slotRst_ok h2)))

theorem execRelease_ok {a0 : Who} {a1 : Nat} {a2 : State} (h2 : Keeps s0 a2) : KeepsR s0 (execRelease a0 a1 a2) := by
  unfold execRelease
  exact ite_of (Q := KeepsR s0) (KeepsR.next h2) (ite_of (Q := KeepsR s0) (KeepsR.next (slotRefuse_ok h2))
      (KeepsR.next (slotRst_ok h2)))

theorem execSlotPrsntChange_ok {a0 : Nat} {a1 : Bool} {a2 : State} (h2 : Keeps s0 a2) : KeepsR s0 (execSlotPrsntChange
    a0 a1 a2) := by
  unfold execSlotPrsntChange
  lift_lets -underBinder +implicits
  intro x0
  have hx0 : Keeps s0 x0 := put_ok (put_ok h2 rfl) rfl
  clear_value x0
  intro x1
  have hx1 : Keeps s0 x1 := Keeps.ite hx0 (slotHit_ok hx0)
  clear_value x1
  exact ite_of (Q := KeepsR s0) (KeepsR.next h2) (ite_of (Q := KeepsR s0) (KeepsR.next (slotOff_ok hx1)) (KeepsR.next
      hx1))

theorem execI2cGo_ok {a0 : Who} {a1 : Nat} {a2 : Nat} {a3 : State} (h3 : Keeps s0 a3) : KeepsR s0 (execI2cGo a0 a1 a2
    a3) := by
  unfold execI2cGo
  lift_lets -underBinder +implicits
  intro x0
  intro x1
  intro x2
  have hx2 : Keeps s0 x2 := Keeps.ite (set_ok h3 rfl) h3
  clear_value x2
  intro x3
  have hx3 : Keeps s0 x3 := Keeps.ite (set_ok hx2 rfl) hx2
  clear_value x3
  intro x4
  have hx4 : Keeps s0 x4 := put_ok (set_ok hx3 rfl) rfl
  clear_value x4
  intro x5
  have hx5 : Keeps s0 x5 := put_ok (put_ok hx4 rfl) rfl
  clear_value x5
  exact ite_of (Q := KeepsR s0) (KeepsR.next h3) (KeepsR.next (emit_ok hx5 rfl))

theorem execI2cDone_ok {a0 : Nat} {a1 : Nat} {a2 : List Byte} {a3 : State} (h3 : Keeps s0 a3) : KeepsR s0 (execI2cDone
    a0 a1 a2 a3) := by
  unfold execI2cDone
  lift_lets -underBinder +implicits
  intro x0
  intro x1
  intro x2
  have hx2 : Keeps s0 x2 := Keeps.ite (set_ok h3 rfl) h3
  clear_value x2
  intro x3
  have hx3 : Keeps s0 x3 := Keeps.ite (emit_ok hx2 rfl) hx2
  clear_value x3
  exact ite_of (Q := KeepsR s0) (KeepsR.next h3) (KeepsR.next (set_ok (put_ok (put_ok hx3 rfl) rfl) rfl))

theorem cntRead_ok {a0 : State} {a1 : Nat} {a2 : Bool} {a3 a4 : Nat} {a5 : Bool} {a6 : Nat} (h0 : Keeps s0 a0) :
    KeepsF s0 (State.cntRead a0 a1 a2 a3 a4 a5 a6) := by
  unfold State.cntRead cntField
  exact ite_of (Q := KeepsF s0) (KeepsF.of h0)
    (KeepsF.of (set_ok (set_ok (Keeps.ite (countPaused_ok h0) h0) (by split <;> rfl)) rfl))

theorem execPortCounterRead_ok {a0 : Who} {a1 : Bool} {a2 : Nat} {a3 : Nat} {a4 : Bool} {a5 : Nat} {a6 : State} (h6 :
    Keeps s0 a6) : KeepsR s0 (execPortCounterRead a0 a1 a2 a3 a4 a5 a6) := by
  unfold execPortCounterRead
  split
  · exact KeepsR.next h6
  · exact KeepsR.next (answer_ok h6 (cntRead_ok h6))

end Sys2Proof.Laws
end

