-- ==== Sys2Proof/Laws/KeepsQueue.lean ====
section
/-! SUPPORT. Sys2Proof/Laws/KeepsQueue.lean: `Keeps` of each operation of Machine/Queue.lean. -/

namespace Sys2Proof.Laws

open Sys2Proof.Machine

variable {s0 : Base}

theorem pollServe_ok {a0 : State} {a1 : Nat} (h0 : Keeps s0 a0) : Keeps s0 (pollServe a0 a1) := by
  unfold pollServe
  lift_lets -underBinder +implicits
  intro x0
  have hx0 : Keeps s0 x0 := Keeps.ite (inc_ok h0 rfl) h0
  clear_value x0
  exact Keeps.ite (dueAt_ok (readCons_ok hx0)) (pollIssue_ok hx0)

theorem execPollDue_ok {a0 : List Nat} {a1 : State} (h1 : Keeps s0 a1) : KeepsR s0 (execPollDue a0 a1) := by
  unfold execPollDue
  lift_lets -underBinder +implicits
  intro x0
  have hx0 : Keeps s0 x0 := forEach_ok h1 (fun a1 t2 ht2 => Keeps.ite (dueAt_ok ht2) ht2)
  clear_value x0
  intro x3
  refine ite_of (Q := KeepsR s0) (KeepsR.next hx0) ?_
  split
  · split
    · exact KeepsR.next hx0
    · exact KeepsR.next (set_ok (set_ok (pollServe_ok hx0) rfl) rfl)

theorem execPollDataReturn_ok {a0 : Nat} {a1 : ReadResult} {a2 : State} (h2 : Keeps s0 a2) : KeepsR s0
    (execPollDataReturn a0 a1 a2) := by
  unfold execPollDataReturn
  lift_lets -underBinder +implicits
  intro x0
  intro x1
  have hx1 : Keeps s0 x1 := put_ok (put_ok h2 rfl) rfl
  clear_value x1
  refine ite_of (Q := KeepsR s0) (KeepsR.next h2) ?_
  refine ite_of (Q := KeepsR s0) (KeepsR.next hx1) ?_
  split
  · lift_lets -underBinder +implicits
    intro x3
    intro x4
    have hx4 : Keeps s0 x4 := pmu_ok (inc_ok hx1 rfl)
    clear_value x4
    intro x5
    have hx5 : Keeps s0 x5 := dueAt_ok (set_ok (setFetched_ok hx1) rfl)
    clear_value x5
    exact ite_of (Q := KeepsR s0) (KeepsR.next hx1) (ite_of (Q := KeepsR s0) (KeepsR.next (dueAt_ok hx1)) (ite_of (Q
        := KeepsR s0) (ite_of (Q := KeepsR s0) (KeepsR.next (setQ_ok hx4)) (KeepsR.next (dueAt_ok hx4))) (ite_of (Q :=
        KeepsR s0) (KeepsR.next (writeback_ok (put_ok hx5 rfl))) (KeepsR.next hx5))))
  · exact KeepsR.next (queueError_ok (aer_ok hx1))

theorem execDormancyStart_ok {a0 : Nat} {a1 : State} (h1 : Keeps s0 a1) : KeepsR s0 (execDormancyStart a0 a1) := by
  unfold execDormancyStart
  exact ite_of (Q := KeepsR s0) (KeepsR.next (pollIssue_ok (put_ok (writeback_ok (put_ok h1 rfl)) rfl))) (KeepsR.next
      h1)

theorem armNow_ok {a0 : State} {a1 : Nat} (h0 : Keeps s0 a0) : Keeps s0 (State.armNow a0 a1) := by
  unfold State.armNow
  lift_lets -underBinder +implicits
  intro x0
  have hx0 : Keeps s0 x0 := setQ_ok (put_ok (set_ok h0 rfl) rfl)
  clear_value x0
  exact dueAt_ok (writeback_ok hx0)

theorem execArmWrite_ok {a0 : Nat} {a1 : Nat} {a2 : State} (h2 : Keeps s0 a2) : KeepsR s0 (execArmWrite a0 a1 a2) := by
  unfold execArmWrite
  refine ite_of (Q := KeepsR s0) (KeepsR.next h2) ?_
  split
  · exact KeepsR.next h2
  · lift_lets -underBinder +implicits
    intro x1
    have hx1 : Keeps s0 x1 := pmu_ok h2
    clear_value x1
    exact ite_of (Q := KeepsR s0) (ite_of (Q := KeepsR s0) (KeepsR.next hx1) (KeepsR.next (armNow_ok hx1))) (ite_of (Q
        := KeepsR s0) (KeepsR.next (put_ok hx1 rfl)) (KeepsR.next hx1))

theorem execEntryAccept_ok {a0 : Nat} {a1 : State} (h1 : Keeps s0 a1) : KeepsR s0 (execEntryAccept a0 a1) := by
  unfold execEntryAccept
  exact ite_of (Q := KeepsR s0) (KeepsR.next (acceptSteps_ok h1)) (KeepsR.next h1)

theorem execFragmentTableReadReturn_ok {a0 : Nat} {a1 : Nat} {a2 : ReadResult} {a3 : State} (h3 : Keeps s0 a3) :
    KeepsR s0 (execFragmentTableReadReturn a0 a1 a2 a3) := by
  unfold execFragmentTableReadReturn
  split
  · exact KeepsR.next h3
  · refine ite_of (Q := KeepsR s0) (KeepsR.next h3) ?_
    split
    · lift_lets -underBinder +implicits
      intro x2
      exact ite_of (Q := KeepsR s0) (KeepsR.next (updEnt_ok h3)) (KeepsR.next (finish_ok h3))
    · exact KeepsR.next (finish_ok (aer_ok h3))

theorem execWbTimerExpiry_ok {a0 : Nat} {a1 : State} (h1 : Keeps s0 a1) : KeepsR s0 (execWbTimerExpiry a0 a1) := by
  unfold execWbTimerExpiry
  exact ite_of (Q := KeepsR s0) (KeepsR.next (writeback_ok h1)) (KeepsR.next h1)

theorem recovRing_ok {a0 : List FirnEnt} {a1 : Nat} {a2 : State} (h2 : Keeps s0 a2) : Keeps s0 (recovRing a0 a1 a2) :=
    by
  induction a0 generalizing a2 with
  | nil => exact Keeps.other h2 rfl rfl rfl rfl
  | cons e rest ih =>
    simp only [recovRing]
    exact Keeps.ite (Keeps.other h2 rfl rfl rfl rfl) (ih (firnAppend_ok (ringWrite_ok (takeCredit_ok h2))))

theorem recovBatch_ok {a0 : State} {a1 : Nat} {a2 : List FirnEnt} (h0 : Keeps s0 a0) : Keeps s0 (recovBatch a0 a1 a2)
    := by
  unfold recovBatch
  lift_lets -underBinder +implicits
  intro x0
  have hx0 : Keeps s0 x0 := forEach_ok h0 (fun a1 t2 ht2 => hostWrite_ok ht2)
  clear_value x0
  intro x3
  have hx3 : Keeps s0 x3 := Keeps.other hx0 rfl rfl rfl rfl
  clear_value x3
  intro x4
  intro x5
  intro x6
  have hx6 : Keeps s0 x6 := set_ok (set_ok (set_ok hx3 rfl) rfl) rfl
  clear_value x6
  exact Keeps.ite hx3 (set_ok (writeback_ok hx6) rfl)

theorem recovDone_ok {a0 : State} {a1 : Nat} (h0 : Keeps s0 a0) : Keeps s0 (State.recovDone a0 a1) := by
  unfold State.recovDone
  lift_lets -underBinder +implicits
  intro x0
  have hx0 : Keeps s0 x0 := forEach_ok h0 (fun a1 t2 ht2 => firnAppend_ok ht2)
  clear_value x0
  intro x3
  have hx3 : Keeps s0 x3 := firnAppend_ok hx0
  clear_value x3
  intro x4
  have hx4 : Keeps s0 x4 := put_ok (put_ok hx3 rfl) rfl
  clear_value x4
  intro x5
  have hx5 : Keeps s0 x5 := set_ok hx4 rfl
  clear_value x5
  exact Keeps.ite h0 (writeback_ok (set_ok hx5 rfl))

theorem recovStart_ok {a0 : State} {a1 : Nat} (h0 : Keeps s0 a0) : Keeps s0 (State.recovStart a0 a1) := by
  unfold State.recovStart
  lift_lets -underBinder +implicits
  intro x0
  exact Keeps.ite (Keeps.ite (recovDone_ok (recovRing_ok h0)) (recovDone_ok (recovBatch_ok h0))) (recovDone_ok
      (Keeps.other h0 rfl rfl rfl rfl))

theorem qRefuse_ok {a0 : State} {a1 : Nat} (h0 : Keeps s0 a0) : Keeps s0 (State.qRefuse a0 a1) := by
  unfold State.qRefuse
  exact put_ok h0 rfl

theorem execQueueEnable_ok {a0 : Who} {a1 : Nat} {a2 : State} (h2 : Keeps s0 a2) : KeepsR s0 (execQueueEnable a0 a1
    a2) := by
  unfold execQueueEnable
  lift_lets -underBinder +implicits
  intro x0
  have hx0 : Keeps s0 x0 := put_ok (put_ok (set_ok h2 rfl) rfl) rfl
  clear_value x0
  intro x1
  have hx1 : Keeps s0 x1 := Keeps.ite (recovStart_ok hx0) hx0
  clear_value x1
  exact ite_of (Q := KeepsR s0) (KeepsR.next h2) (ite_of (Q := KeepsR s0) (KeepsR.next (qRefuse_ok h2)) (ite_of (Q :=
      KeepsR s0) (KeepsR.next h2) (ite_of (Q := KeepsR s0) (KeepsR.next (qRefuse_ok h2)) (KeepsR.next (dueAt_ok
      (setQ_ok hx1))))))

theorem cancelPlaces_ok {a0 : State} {a1 : Nat} (h0 : Keeps s0 a0) : Keeps s0 (State.cancelPlaces a0 a1) := by
  unfold State.cancelPlaces
  refine forEach_ok h0 (fun a0 t1 ht1 => ?_)
  lift_lets -underBinder +implicits
  intro x2
  have hx2 : Keeps s0 x2 := finish_ok ht1
  clear_value x2
  exact Keeps.other hx2 rfl rfl rfl rfl

theorem execQueueDisable_ok {a0 : Who} {a1 : Nat} {a2 : State} (h2 : Keeps s0 a2) : KeepsR s0 (execQueueDisable a0 a1
    a2) := by
  unfold execQueueDisable
  lift_lets -underBinder +implicits
  intro x0
  have hx0 : Keeps s0 x0 := discardFetched_ok (flushCoalQ_ok h2)
  clear_value x0
  intro x1
  have hx1 : Keeps s0 x1 := setQ_ok (put_ok (put_ok hx0 rfl) rfl)
  clear_value x1
  intro x2
  have hx2 : Keeps s0 x2 := pump_ok (put_ok h2 rfl)
  clear_value x2
  exact ite_of (Q := KeepsR s0) (KeepsR.next h2) (ite_of (Q := KeepsR s0) (KeepsR.next (cancelPlaces_ok (pump_ok
      hx1))) (ite_of (Q := KeepsR s0) (ite_of (Q := KeepsR s0) (KeepsR.next (disableNow_ok hx2)) (KeepsR.next hx2))
      (KeepsR.next h2)))

theorem execQueueDrainComplete_ok {a0 : Nat} {a1 : State} (h1 : Keeps s0 a1) : KeepsR s0 (execQueueDrainComplete a0
    a1) := by
  unfold execQueueDrainComplete
  exact ite_of (Q := KeepsR s0) (KeepsR.next (disableNow_ok h1)) (KeepsR.next h1)

theorem execStartIndexWrite_ok {a0 : Who} {a1 : Nat} {a2 : Nat} {a3 : State} (h3 : Keeps s0 a3) : KeepsR s0
    (execStartIndexWrite a0 a1 a2 a3) := by
  unfold execStartIndexWrite
  exact ite_of (Q := KeepsR s0) (KeepsR.next h3) (ite_of (Q := KeepsR s0) (KeepsR.next (qRefuse_ok h3)) (ite_of (Q :=
      KeepsR s0) (ite_of (Q := KeepsR s0) (KeepsR.next (set_ok (set_ok h3 rfl) rfl)) (KeepsR.next (qRefuse_ok h3)))
      (KeepsR.next (set_ok (set_ok (set_ok h3 rfl) rfl) rfl))))

theorem recoveryRecords_ok {a0 : State} {a1 : Nat} (h0 : Keeps s0 a0) : Keeps s0 (State.recoveryRecords a0 a1) := by
  unfold State.recoveryRecords
  lift_lets -underBinder +implicits
  intro x0
  have hx0 : Plain x0 := by unfold x0; split <;> rfl
  intro x1
  intro x2
  have hx2 : Keeps s0 x2 := forEach_ok h0 (fun a3 t4 ht4 => evRecord_ok (put_ok ht4 rfl))
  clear_value x2
  exact Keeps.ite h0 (set_ok (put_ok (evRecord_ok hx2) hx0) rfl)

theorem evReady_ok {a0 : State} {a1 : Nat} (h0 : Keeps s0 a0) : Keeps s0 (State.evReady a0 a1) := by
  unfold State.evReady
  exact Keeps.ite (recoveryRecords_ok (evDrain_ok h0)) h0

theorem execCringEnable_ok {a0 : Who} {a1 : Nat} {a2 : State} (h2 : Keeps s0 a2) : KeepsR s0 (execCringEnable a0 a1
    a2) := by
  unfold execCringEnable
  lift_lets -underBinder +implicits
  intro x0
  intro x1
  intro x2
  have hx2 : Keeps s0 x2 := set_ok (set_ok (set_ok h2 rfl) rfl) rfl
  clear_value x2
  exact ite_of (Q := KeepsR s0) (KeepsR.next h2) (ite_of (Q := KeepsR s0) (KeepsR.next h2) (ite_of (Q := KeepsR s0)
      (KeepsR.next (put_ok h2 rfl)) (KeepsR.next (forEach_ok (put_ok hx2 rfl) (fun a3 t4 ht4 => evReady_ok ht4)))))

theorem execCringDisable_ok {a0 : Who} {a1 : Nat} {a2 : State} (h2 : Keeps s0 a2) : KeepsR s0 (execCringDisable a0 a1
    a2) := by
  unfold execCringDisable
  lift_lets -underBinder +implicits
  intro x0
  exact ite_of (Q := KeepsR s0) (KeepsR.next h2) (ite_of (Q := KeepsR s0) (KeepsR.next h2) (ite_of (Q := KeepsR s0)
      (KeepsR.next (put_ok (put_ok h2 rfl) rfl)) (KeepsR.next (forEach_ok h2 (fun a1 t2 ht2 => qRefuse_ok ht2)))))

theorem execConsumerWordReadReturn_ok {a0 : Nat} {a1 : ReadResult} {a2 : State} (h2 : Keeps s0 a2) : KeepsR s0
    (execConsumerWordReadReturn a0 a1 a2) := by
  unfold execConsumerWordReadReturn
  lift_lets -underBinder +implicits
  intro x0
  have hx0 : Keeps s0 x0 := put_ok h2 rfl
  clear_value x0
  refine ite_of (Q := KeepsR s0) (KeepsR.next h2) ?_
  split
  · lift_lets -underBinder +implicits
    intro x2
    intro x3
    have hx3 : Keeps s0 x3 := set_ok hx0 rfl
    clear_value x3
    intro x4
    intro x5
    have hx5 : Keeps s0 x5 := forEach_ok hx3 (fun a6 t7 ht7 => recovDone_ok (recovRing_ok ht7))
    clear_value x5
    intro x8
    have hx8 : Keeps s0 x8 := Keeps.ite (readCons_ok hx5) hx5
    clear_value x8
    exact ite_of (Q := KeepsR s0) (KeepsR.next (forEach_ok hx8 (fun a9 t10 ht10 => evDrain_ok ht10))) (KeepsR.next
        (put_ok hx0 rfl))
  · exact KeepsR.next (aer_ok hx0)

theorem execCqStall_ok {a0 : Nat} {a1 : State} (h1 : Keeps s0 a1) : KeepsR s0 (execCqStall a0 a1) := by
  unfold execCqStall
  lift_lets -underBinder +implicits
  intro x0
  exact ite_of (Q := KeepsR s0) (KeepsR.next (evRecord_ok (put_ok h1 rfl))) (KeepsR.next h1)

theorem execEvringWrite_ok {a0 : Who} {a1 : Nat} {a2 : Nat} {a3 : State} (h3 : Keeps s0 a3) : KeepsR s0
    (execEvringWrite a0 a1 a2 a3) := by
  unfold execEvringWrite
  lift_lets -underBinder +implicits
  intro x0
  intro x1
  intro x2
  have hx2 : Keeps s0 x2 := put_ok h3 rfl
  clear_value x2
  intro x3
  have hx3 : Keeps s0 x3 := put_ok (set_ok hx2 rfl) rfl
  clear_value x3
  intro x4
  have hx4 : Keeps s0 x4 := Keeps.ite (put_ok hx3 rfl) hx3
  clear_value x4
  exact ite_of (Q := KeepsR s0) (KeepsR.next h3) (KeepsR.next (evReady_ok hx4))

theorem execEvBacklogConsRead_ok {a0 : Nat} {a1 : State} (h1 : Keeps s0 a1) : KeepsR s0 (execEvBacklogConsRead a0 a1)
    := by
  unfold execEvBacklogConsRead
  exact ite_of (Q := KeepsR s0) (KeepsR.next (readCons_ok h1)) (KeepsR.next h1)

end Sys2Proof.Laws
end

