-- ==== Sys2Proof/Laws/KeepsTable.lean ====
section
/-! SUPPORT. Sys2Proof/Laws/KeepsTable.lean: `Keeps` of each operation of Machine/Table.lean. -/

namespace Sys2Proof.Laws

open Sys2Proof.Machine

variable {s0 : Base}

theorem tblOut_ok {a0 : State} {a1 : Nat} {a2 : Nat} (h0 : Keeps s0 a0) : Keeps s0 (State.tblOut a0 a1 a2) := by
  unfold State.tblOut
  exact set_ok (set_ok h0 rfl) rfl

theorem tblCmd_ok {a0 : State} {a1 : Who} {a2 : State → State} (h0 : Keeps s0 a0) (h2 : ∀ z0, Keeps s0 z0 → Keeps s0
    (a2 z0)) : Keeps s0 (State.tblCmd a0 a1 a2) := by
  unfold State.tblCmd
  exact Keeps.ite h0 (Keeps.ite (put_ok h0 rfl) (h2 _ (put_ok h0 rfl)))

theorem tblFlow_ok {a0 : Nat × State} (h0 : KeepsS s0 a0) : Keeps s0 (tblFlow a0) := by
  unfold tblFlow
  exact tblOut_ok (KeepsS.to h0)

theorem tblL2_ok {a0 : State} {a1 : Nat} {a2 : Nat} {a3 : List Byte} (h0 : Keeps s0 a0) : KeepsS s0 (State.tblL2 a0 a1
    a2 a3) := by
  unfold State.tblL2
  exact ite_of (Q := KeepsS s0) (l2Static_ok h0) (l2Delete_ok h0)

theorem tblJoin_ok {a0 : State} {a1 : Nat} {a2 : Nat} (h0 : Keeps s0 a0) : Keeps s0 (State.tblJoin a0 a1 a2) := by
  unfold State.tblJoin
  exact tblOut_ok h0

theorem tblStart_ok {a0 : State} {a1 : Nat} {a2 : Nat} {a3 : Nat} {a4 : List Byte} (h0 : Keeps s0 a0) : Keeps s0
    (State.tblStart a0 a1 a2 a3 a4) := by
  unfold State.tblStart
  lift_lets -underBinder +implicits
  intro x0
  intro x1
  have hx1 : Keeps s0 x1 := set_ok (tblJoin_ok h0) rfl
  clear_value x1
  intro x2
  have hx2 : KeepsS s0 x2 := tblL2_ok h0
  clear_value x2
  exact Keeps.ite (Keeps.other hx1 rfl rfl rfl rfl) (tblJoin_ok (KeepsS.to hx2))

theorem tblBegin_ok {a0 : Nat} {a1 : State} (h1 : Keeps s0 a1) : Keeps s0 (State.tblBegin a0 a1) := by
  induction a0 generalizing a1 with
  | zero => exact h1
  | succ n ih =>
    simp only [State.tblBegin]
    split
    · exact ih (tblStart_ok (Keeps.other h1 rfl rfl rfl rfl))
    · exact h1

theorem tblStep1_ok {a0 : State} {a1 : TblStep} (h0 : Keeps s0 a0) : Keeps s0 (State.tblStep1 a0 a1) := by
  unfold State.tblStep1
  split
  · exact set_ok h0 rfl
  · exact set_ok h0 rfl
  · exact pmu_ok (set_ok h0 rfl)
  · exact set_ok h0 rfl
  · exact set_ok h0 rfl
  · exact Keeps.ite (rgInsert_ok h0) (Keeps.ite (rgDelete_ok h0) (rgRewrite_ok h0))
  · exact h0

theorem tblNext_ok {a0 : State} (h0 : Keeps s0 a0) : Keeps s0 (State.tblNext a0) := by
  unfold State.tblNext
  split
  · exact h0
  · exact tblBegin_ok (set_ok (tblStep1_ok (Keeps.other h0 rfl rfl rfl rfl)) rfl)

theorem tblDue_ok {a0 : State} (h0 : Keeps s0 a0) : Keeps s0 (State.tblDue a0) := by
  unfold State.tblDue
  exact Keeps.ite (tblNext_ok h0) h0

theorem tblAll_ok {a0 : Nat} {a1 : State} (h1 : Keeps s0 a1) : Keeps s0 (State.tblAll a0 a1) := by
  induction a0 generalizing a1 with
  | zero => exact h1
  | succ n ih => exact Keeps.ite h1 (ih (tblNext_ok h1))

theorem tblPipes_ok {a0 : State} {a1 : Nat} {a2 : Nat} {a3 : Nat} {a4 : List Byte} (h0 : Keeps s0 a0) : Keeps s0
    (State.tblPipes a0 a1 a2 a3 a4) := by
  unfold State.tblPipes
  lift_lets -underBinder +implicits
  intro x0
  have hx0 : Keeps s0 x0 := Keeps.ite (set_ok h0 rfl) h0
  clear_value x0
  intro x1
  have hx1 : Keeps s0 x1 := set_ok (tblOut_ok hx0) rfl
  clear_value x1
  exact Keeps.ite (tblOut_ok hx0) (tblBegin_ok (Keeps.other hx1 rfl rfl rfl rfl))

theorem tblRead_ok {a0 : State} {a1 : Nat} {a2 : Nat → List Byte} (h0 : Keeps s0 a0) : Keeps s0 (State.tblRead a0 a1
    a2) := by
  unfold State.tblRead
  split
  · exact tblOut_ok (putArea_ok h0 rfl)
  · exact tblOut_ok h0

theorem execTblFlowInsert_ok {a0 : Who} {a1 : State} (h1 : Keeps s0 a1) : KeepsR s0 (execTblFlowInsert a0 a1) := by
  unfold execTblFlowInsert
  refine KeepsR.next ?_
  refine tblCmd_ok h1 (fun y0 hy0 => ?_)
  lift_lets -underBinder +implicits
  intro x1
  exact tblFlow_ok (flowInsert_ok hy0)

theorem flowReplace_ok {a0 : State} {a1 : List Byte} {a2 : List Byte} {a3 : Bool} (h0 : Keeps s0 a0) : KeepsS s0
    (State.flowReplace a0 a1 a2 a3) := by
  unfold State.flowReplace
  split
  · exact KeepsS.of (putFlow_ok h0)
  · exact flowInsert_ok h0

theorem execFlowReplace_ok {a0 : Who} {a1 : State} (h1 : Keeps s0 a1) : KeepsR s0 (execFlowReplace a0 a1) := by
  unfold execFlowReplace
  refine KeepsR.next ?_
  refine tblCmd_ok h1 (fun y0 hy0 => ?_)
  lift_lets -underBinder +implicits
  intro x1
  exact tblFlow_ok (flowReplace_ok hy0)

theorem execTblFlowDelete_ok {a0 : Who} {a1 : State} (h1 : Keeps s0 a1) : KeepsR s0 (execTblFlowDelete a0 a1) := by
  unfold execTblFlowDelete
  exact KeepsR.next (tblCmd_ok h1 (fun y0 hy0 => tblFlow_ok (flowDelete_ok hy0)))

theorem execFlowRead_ok {a0 : Who} {a1 : State} (h1 : Keeps s0 a1) : KeepsR s0 (execFlowRead a0 a1) := by
  unfold execFlowRead
  exact KeepsR.next (tblCmd_ok h1 (fun y0 hy0 => tblOut_ok (putArea_ok hy0 rfl)))

theorem execTblFlowLookup_ok {a0 : Who} {a1 : Nat} {a2 : State} (h2 : Keeps s0 a2) : KeepsR s0 (execTblFlowLookup a0
    a1 a2) := by
  unfold execTblFlowLookup
  refine KeepsR.next ?_
  refine tblCmd_ok h2 (fun y0 hy0 => ?_)
  lift_lets -underBinder +implicits
  intro x1
  have hx1 : KeepsS s0 x1 := flowLookup_ok hy0
  clear_value x1
  intro x2
  have hx2 : Keeps s0 x2 := Keeps.ite (putArea_ok (KeepsS.to hx1) rfl) (KeepsS.to hx1)
  clear_value x2
  exact tblOut_ok (foundBadFlows_ok hx2)

theorem execLpmInsert_ok {a0 : Who} {a1 : Nat} {a2 : State} (h2 : Keeps s0 a2) : KeepsR s0 (execLpmInsert a0 a1 a2) :=
    by
  unfold execLpmInsert
  exact KeepsR.next (tblCmd_ok h2 (fun y0 hy0 => tblPipes_ok hy0))

theorem execLpmDelete_ok {a0 : Who} {a1 : Nat} {a2 : State} (h2 : Keeps s0 a2) : KeepsR s0 (execLpmDelete a0 a1 a2) :=
    by
  unfold execLpmDelete
  exact KeepsR.next (tblCmd_ok h2 (fun y0 hy0 => tblPipes_ok hy0))

theorem execLpmReplace_ok {a0 : Who} {a1 : Nat} {a2 : State} (h2 : Keeps s0 a2) : KeepsR s0 (execLpmReplace a0 a1 a2)
    := by
  unfold execLpmReplace
  exact KeepsR.next (tblCmd_ok h2 (fun y0 hy0 => tblPipes_ok hy0))

theorem execLpmRewrite_ok {a0 : Who} {a1 : Nat} {a2 : Nat} {a3 : State} (h3 : Keeps s0 a3) : KeepsR s0 (execLpmRewrite
    a0 a1 a2 a3) := by
  unfold execLpmRewrite
  exact KeepsR.next (tblCmd_ok h3 (fun y0 hy0 => tblPipes_ok hy0))

theorem execLpmRead_ok {a0 : Who} {a1 : Nat} {a2 : Nat} {a3 : State} (h3 : Keeps s0 a3) : KeepsR s0 (execLpmRead a0 a1
    a2 a3) := by
  unfold execLpmRead
  refine KeepsR.next ?_
  refine tblCmd_ok h3 (fun y0 hy0 => ?_)
  lift_lets -underBinder +implicits
  intro x1
  have hx1 : Keeps s0 x1 := set_ok hy0 rfl
  clear_value x1
  exact Keeps.ite (tblOut_ok hx1) (tblRead_ok hx1)

theorem execL2Static_ok {a0 : Who} {a1 : Nat} {a2 : State} (h2 : Keeps s0 a2) : KeepsR s0 (execL2Static a0 a1 a2) := by
  unfold execL2Static
  exact KeepsR.next (tblCmd_ok h2 (fun y0 hy0 => tblPipes_ok hy0))

theorem execL2Delete_ok {a0 : Who} {a1 : Nat} {a2 : State} (h2 : Keeps s0 a2) : KeepsR s0 (execL2Delete a0 a1 a2) := by
  unfold execL2Delete
  exact KeepsR.next (tblCmd_ok h2 (fun y0 hy0 => tblPipes_ok hy0))

theorem execL2Flush_ok {a0 : Who} {a1 : Nat} {a2 : State} (h2 : Keeps s0 a2) : KeepsR s0 (execL2Flush a0 a1 a2) := by
  unfold execL2Flush
  refine KeepsR.next ?_
  refine tblCmd_ok h2 (fun y0 hy0 => ?_)
  lift_lets -underBinder +implicits
  intro x1
  intro x2
  have hx2 : Keeps s0 x2 := set_ok (set_ok (set_ok hy0 rfl) rfl) rfl
  clear_value x2
  exact Keeps.ite (tblOut_ok hy0) (tblOut_ok (set_ok (set_ok hx2 rfl) rfl))

theorem execL2Read_ok {a0 : Who} {a1 : Nat} {a2 : Nat} {a3 : State} (h3 : Keeps s0 a3) : KeepsR s0 (execL2Read a0 a1
    a2 a3) := by
  unfold execL2Read
  exact KeepsR.next (tblCmd_ok h3 (fun y0 hy0 => tblRead_ok hy0))

theorem execTblCmdDone_ok {a0 : State} (h0 : Keeps s0 a0) : KeepsR s0 (execTblCmdDone a0) := by
  unfold execTblCmdDone
  lift_lets -underBinder +implicits
  intro x0
  have hx0 : Keeps s0 x0 := set_ok (flushTo_ok (tblAll_ok h0)) rfl
  clear_value x0
  intro x1
  have hx1 : Keeps s0 x1 := set_ok (set_ok hx0 rfl) rfl
  clear_value x1
  exact ite_of (Q := KeepsR s0) (KeepsR.next h0) (KeepsR.next (put_ok (set_ok hx1 rfl) rfl))

theorem execFlowAgeScan_ok {a0 : Nat} {a1 : Bool} {a2 : State} (h2 : Keeps s0 a2) : KeepsR s0 (execFlowAgeScan a0 a1
    a2) := by
  unfold execFlowAgeScan
  lift_lets -underBinder +implicits
  intro x0
  exact ite_of (Q := KeepsR s0) (KeepsR.next h2) (ite_of (Q := KeepsR s0) (KeepsR.next (foundBadFlow_ok h2)) (ite_of
      (Q := KeepsR s0) (KeepsR.next h2) (ite_of (Q := KeepsR s0) (KeepsR.next (putFlow_ok h2)) (ite_of (Q := KeepsR
      s0) (KeepsR.next h2) (KeepsR.next (putFlow_ok (tblEvent_ok (inc_ok h2 rfl))))))))

theorem execL2Learn_ok {a0 : Nat} {a1 : State} (h1 : Keeps s0 a1) : KeepsR s0 (execL2Learn a0 a1) := by
  unfold execL2Learn
  split
  · exact KeepsR.next h1
  · exact ite_of (Q := KeepsR s0) (KeepsR.next h1) (KeepsR.next (l2Learn_ok (flushSome_ok (Keeps.other h1 rfl rfl rfl
      rfl))))

theorem execL2HoldEnd_ok {a0 : Nat} {a1 : Nat} {a2 : State} (h2 : Keeps s0 a2) : KeepsR s0 (execL2HoldEnd a0 a1 a2) :=
    by
  unfold execL2HoldEnd
  lift_lets -underBinder +implicits
  intro x0
  exact ite_of (Q := KeepsR s0) (KeepsR.next (putL2_ok h2)) (KeepsR.next h2)

theorem execL2AgeScan_ok {a0 : Nat} {a1 : Nat} {a2 : State} (h2 : Keeps s0 a2) : KeepsR s0 (execL2AgeScan a0 a1 a2) :=
    by
  unfold execL2AgeScan
  lift_lets -underBinder +implicits
  intro x0
  exact ite_of (Q := KeepsR s0) (KeepsR.next h2) (ite_of (Q := KeepsR s0) (KeepsR.next (putL2_ok h2)) (ite_of (Q :=
      KeepsR s0) (KeepsR.next h2) (KeepsR.next (l2New_ok h2))))

theorem execScrubVisit_ok {a0 : Nat} {a1 : Nat} {a2 : Nat} {a3 : Bool} {a4 : State} (h4 : Keeps s0 a4) : KeepsR s0
    (execScrubVisit a0 a1 a2 a3 a4) := by
  unfold execScrubVisit
  exact ite_of (Q := KeepsR s0) (KeepsR.next (foundBad_ok h4)) (KeepsR.next h4)

theorem execTblEvqPop_ok {a0 : Who} {a1 : State} (h1 : Keeps s0 a1) : KeepsR s0 (execTblEvqPop a0 a1) := by
  unfold execTblEvqPop
  exact ite_of (Q := KeepsR s0) (KeepsR.next (Keeps.other h1 rfl rfl rfl rfl)) (KeepsR.next h1)

end Sys2Proof.Laws
end

