-- ==== Sys2Proof/Laws/KeepsDevA.lean ====
section
/-! SUPPORT. Sys2Proof/Laws/KeepsDevA.lean: `Keeps` of each operation of Machine/DevA.lean. -/

namespace Sys2Proof.Laws

open Sys2Proof.Machine

variable {s0 : Base}

theorem qcFixed_safe {b : Nat} : Safes (qcFixed b) := by
  unfold qcFixed
  split <;> decide

theorem wGlb_ok {a0 : Who} {a1 : Nat} {a2 : Nat} {a3 : Nat} {a4 : State} [Shifts s0] (h4 : Keeps s0 a4) : KeepsO s0
    (wGlb a0 a1 a2 a3 a4) := by
  unfold wGlb
  split
  · exact KeepsO.some (ran_ok h4 (execGlbProfileWrite_ok h4))
  · exact KeepsO.some (ran_ok h4 (ite_of (Q := KeepsR s0) (execDpEnSet_ok h4) (execDpEnClear_ok h4)))
  · exact KeepsO.some (Keeps.ite (clearBits_ok h4 (by decide)) h4)
  · exact KeepsO.none

theorem qcSet_ok {a0 : State} {a1 : Nat} {a2 : Nat} {a3 : Nat} (h0 : Keeps s0 a0) : KeepsO s0 (State.qcSet a0 a1 a2
    a3) := by
  unfold State.qcSet
  exact ite_of (Q := KeepsO s0) (ite_of (Q := KeepsO s0) (KeepsO.some (mirrorCtx_ok (genWrite_ok h0 qcFixed_safe)))
      KeepsO.none) (KeepsO.some h0)

theorem wQctx_ok {a0 : Who} {a1 : Nat} {a2 : Nat} {a3 : Nat} {a4 : State} (h4 : Keeps s0 a4) : KeepsO s0 (wQctx a0 a1
    a2 a3 a4) := by
  unfold wQctx
  lift_lets -underBinder +implicits
  intro x0
  refine ite_of (Q := KeepsO s0) (KeepsO.some h4) ?_
  split
  · exact ite_of (Q := KeepsO s0) (KeepsO.some h4) (KeepsO.some (KeepsO.getD (qcSet_ok h4) (qRefuse_ok h4)))
  · refine ite_of (Q := KeepsO s0) (KeepsO.some h4) ?_
    split
    · exact KeepsO.some (qRefuse_ok h4)
    · next m1 heq =>
      have hm1 : Keeps s0 m1 := by
        refine KeepsO.eq heq ?_
        exact qcSet_ok h4
      lift_lets -underBinder +implicits
      intro x2
      have hx2 : Keeps s0 x2 := Keeps.ite hm1 (mirrorCtx_ok (set_ok hm1 rfl))
      clear_value x2
      exact KeepsO.some (ran_ok hx2 (ite_of (Q := KeepsR s0) (execQueueEnable_ok hx2) (execQueueDisable_ok hx2)))
  · exact KeepsO.some (ran_ok h4 (execStartIndexWrite_ok h4))
  · exact KeepsO.some (Keeps.ite (mirrorCtx_ok (genWrite_ok h4 (by decide))) h4)
  · exact KeepsO.some (Keeps.ite (mirrorCtx_ok (genWrite_ok h4 (by decide))) h4)
  · exact KeepsO.some (Keeps.ite (clearBits_ok h4 (by decide)) h4)
  · exact ite_of (Q := KeepsO s0) (KeepsO.some h4) (KeepsO.some (KeepsO.getD (qcSet_ok h4) (qRefuse_ok h4)))

theorem mirrorRing_ok {a0 : State} {a1 : Nat} (h0 : Keeps s0 a0) : Keeps s0 (State.mirrorRing a0 a1) := by
  unfold State.mirrorRing
  exact forEach_ok h0 (fun a0 t1 ht1 => mirrorCtx_ok ht1)

theorem crRefuse_ok {a0 : State} {a1 : Nat} (h0 : Keeps s0 a0) : Keeps s0 (State.crRefuse a0 a1) := by
  unfold State.crRefuse
  exact put_ok h0 rfl

theorem wCrctx_ok {a0 : Who} {a1 : Nat} {a2 : Nat} {a3 : Nat} {a4 : State} (h4 : Keeps s0 a4) : KeepsO s0 (wCrctx a0
    a1 a2 a3 a4) := by
  unfold wCrctx
  lift_lets -underBinder +implicits
  intro x0
  intro x1
  intro x2
  have hx2 : Safes x2 := by unfold x2; (repeat' split) <;> decide
  intro x3
  have hx3 : Keeps s0 x3 := Keeps.ite (mirrorRing_ok (genWrite_ok h4 hx2)) h4
  clear_value x3
  intro x4
  have hx4 : Keeps s0 x4 := clearBits_ok h4 (by decide)
  clear_value x4
  intro x5
  have hx5 : Safes x5 := by unfold x5; (repeat' split) <;> decide
  exact ite_of (Q := KeepsO s0) (KeepsO.some h4) (ite_of (Q := KeepsO s0) (ite_of (Q := KeepsO s0) (KeepsO.some h4)
      (ite_of (Q := KeepsO s0) (KeepsO.some (crRefuse_ok h4)) (KeepsO.some (ran_ok hx3 (ite_of (Q := KeepsR s0)
      (execCringEnable_ok hx3) (execCringDisable_ok hx3)))))) (ite_of (Q := KeepsO s0) (KeepsO.some h4) (ite_of (Q :=
      KeepsO s0) (KeepsO.some (mirrorRing_ok (genWrite_ok hx4 (by decide)))) (KeepsO.some (Keeps.ite h4 (Keeps.ite
      (crRefuse_ok h4) (mirrorRing_ok (genWrite_ok h4 hx5))))))))

theorem wQm_ok {a0 : Who} {a1 : Nat} {a2 : Nat} {a3 : Nat} {a4 : State} (h4 : Keeps s0 a4) : KeepsO s0 (wQm a0 a1 a2
    a3 a4) := by
  unfold wQm
  exact ite_of (Q := KeepsO s0) (KeepsO.some (ran_ok h4 (execEvringWrite_ok h4))) (ite_of (Q := KeepsO s0) (wCrctx_ok
      h4) (ite_of (Q := KeepsO s0) (wQctx_ok h4) (ite_of (Q := KeepsO s0) (KeepsO.some h4) KeepsO.none)))

theorem dbgWrite_ok {a0 : State} {a1 : Who} {a2 : Nat} (h0 : Keeps s0 a0) : Keeps s0 (State.dbgWrite a0 a1 a2) := by
  unfold State.dbgWrite
  lift_lets -underBinder +implicits
  intro x0
  split
  · exact ran_ok h0 (execHalt_ok h0)
  · exact ran_ok h0 (execResume_ok h0)
  · exact ran_ok h0 (execStep_ok h0)
  · exact ran_ok h0 (execDebugRelease_ok h0)
  · exact h0

theorem wFp_ok {a0 : Who} {a1 : Nat} {a2 : Nat} {a3 : Nat} {a4 : State} (h4 : Keeps s0 a4) : KeepsO s0 (wFp a0 a1 a2
    a3 a4) := by
  unfold wFp
  refine ite_of (Q := KeepsO s0) (KeepsO.some h4) ?_
  split
  · exact KeepsO.some (ranged_ok (ranged_ok h4 rfl) rfl)
  · exact KeepsO.some (ran_ok h4 (execSupRestart_ok h4))
  · exact ite_of (Q := KeepsO s0) (KeepsO.some h4) KeepsO.none
  · exact ite_of (Q := KeepsO s0) (KeepsO.some (ran_ok h4 (execSessionOpen_ok h4))) (KeepsO.some (Keeps.ite h4 (set_ok
      (ran_ok h4 (execSessionClose_ok h4)) rfl)))
  · exact KeepsO.some (dbgWrite_ok h4)
  · exact KeepsO.some (Keeps.ite (ran_ok h4 (execMgmtRestart_ok h4)) h4)
  · exact KeepsO.some (ran_ok h4 (execHeartbeat_ok h4))
  · exact KeepsO.some (ranged_ok (ranged_ok h4 rfl) rfl)
  · exact ite_of (Q := KeepsO s0) (KeepsO.some h4) KeepsO.none
  · exact KeepsO.none

theorem pushWrite_ok {a0 : State} {a1 : Who} {a2 : Nat} {a3 : Nat} (h0 : Keeps s0 a0) : Keeps s0 (State.pushWrite a0
    a1 a2 a3) := by
  unfold State.pushWrite
  lift_lets -underBinder +implicits
  intro x0
  split
  · exact ran_ok h0 (execClsWrite_ok h0)
  · exact ran_ok h0 (execClsInval_ok h0)
  · exact ran_ok h0 (execSelWrite_ok h0)
  · exact ran_ok h0 (execPrfWrite_ok h0)
  · exact ran_ok h0 (execKselWrite_ok h0)
  · exact ran_ok h0 (execPclassWrite_ok h0)
  · exact Keeps.ite (updRefuse_ok h0) (Keeps.ite (updRefuse_ok h0) (updRefuse_ok h0))

theorem wPpl_ok {a0 : Who} {a1 : Nat} {a2 : Nat} {a3 : Nat} {a4 : State} (h4 : Keeps s0 a4) : KeepsO s0 (wPpl a0 a1 a2
    a3 a4) := by
  unfold wPpl
  refine ite_of (Q := KeepsO s0) (KeepsO.some h4) ?_
  split
  · exact KeepsO.some (pushWrite_ok h4)
  · lift_lets -underBinder +implicits
    intro x0
    have hx0 : Keeps s0 x0 := Keeps.ite (ran_ok h4 (execUpdateDiscard_ok h4)) h4
    clear_value x0
    exact KeepsO.some (Keeps.ite (ran_ok hx0 (execUpdateCommit_ok hx0)) hx0)
  · exact KeepsO.some (ran_ok h4 (execClsRead_ok h4))
  · exact KeepsO.none

theorem tblWrite_ok {a0 : State} {a1 : Who} {a2 : Nat} (h0 : Keeps s0 a0) : Keeps s0 (State.tblWrite a0 a1 a2) := by
  unfold State.tblWrite
  lift_lets -underBinder +implicits
  intro x0
  intro x1
  split
  · exact ran_ok h0 (execTblFlowInsert_ok h0)
  · exact ran_ok h0 (execFlowReplace_ok h0)
  · exact ran_ok h0 (execTblFlowDelete_ok h0)
  · exact ran_ok h0 (execFlowRead_ok h0)
  · exact ran_ok h0 (execTblFlowLookup_ok h0)
  · exact ran_ok h0 (execLpmInsert_ok h0)
  · exact ran_ok h0 (execLpmDelete_ok h0)
  · exact ran_ok h0 (execLpmReplace_ok h0)
  · exact ran_ok h0 (execLpmRewrite_ok h0)
  · exact ran_ok h0 (execLpmRead_ok h0)
  · exact ran_ok h0 (execL2Static_ok h0)
  · exact ran_ok h0 (execL2Delete_ok h0)
  · exact ran_ok h0 (execL2Flush_ok h0)
  · exact ran_ok h0 (execL2Read_ok h0)
  · exact tblCmd_ok h0 (fun y3 hy3 => tblOut_ok hy3)

theorem wTbl_ok {a0 : Who} {a1 : Nat} {a2 : Nat} {a3 : Nat} {a4 : State} (h4 : Keeps s0 a4) : KeepsO s0 (wTbl a0 a1 a2
    a3 a4) := by
  unfold wTbl
  refine ite_of (Q := KeepsO s0) (KeepsO.some h4) ?_
  split
  · exact KeepsO.some (tblWrite_ok h4)
  · exact ite_of (Q := KeepsO s0) KeepsO.none (KeepsO.some (put_ok h4 rfl))
  · exact KeepsO.some (lpmResize_ok h4)
  · exact ite_of (Q := KeepsO s0) (KeepsO.some (set_ok h4 rfl)) KeepsO.none
  · exact KeepsO.some (ran_ok h4 (execTblEvqPop_ok h4))
  · exact KeepsO.none

theorem slotWrite_ok {a0 : State} {a1 : Who} {a2 : Nat} {a3 : Nat} (h0 : Keeps s0 a0) : Keeps s0 (State.slotWrite a0
    a1 a2 a3) := by
  unfold State.slotWrite
  split
  · exact ran_ok h0 (execPowerOn_ok h0)
  · exact ran_ok h0 (execPowerOff_ok h0)
  · exact ran_ok h0 (execReset_ok h0)
  · exact ran_ok h0 (execHold_ok h0)
  · exact ran_ok h0 (execRelease_ok h0)
  · exact h0

theorem wSb_ok {a0 : Who} {a1 : Nat} {a2 : Nat} {a3 : Nat} {a4 : State} (h4 : Keeps s0 a4) : KeepsO s0 (wSb a0 a1 a2
    a3 a4) := by
  unfold wSb
  refine ite_of (Q := KeepsO s0) (KeepsO.some h4) ?_
  split
  · lift_lets -underBinder +implicits
    intro x0
    have hx0 : Keeps s0 x0 := ranged_ok (ranged_ok h4 rfl) rfl
    clear_value x0
    exact KeepsO.some (genWrite_ok hx0 (by decide))
  · exact KeepsO.some (slotWrite_ok h4)
  · exact KeepsO.some (clearBits_ok h4 (by decide))
  · lift_lets -underBinder +implicits
    intro x1
    have hx1 : Keeps s0 x1 := genWrite_ok h4 (by decide)
    clear_value x1
    exact ite_of (Q := KeepsO s0) (KeepsO.some (ran_ok h4 (execI2cGo_ok h4))) (ite_of (Q := KeepsO s0) (KeepsO.some
        h4) (KeepsO.some (ranged_ok (ranged_ok hx1 rfl) rfl)))
  · exact KeepsO.some (genWrite_ok h4 (by decide))
  · exact KeepsO.some h4

theorem portEn_ok {a0 : State} {a1 : Nat} {a2 : Fld} {a3 : Bool} (h0 : Keeps s0 a0) (h2 : Plain a2) : Keeps s0
    (State.portEn a0 a1 a2 a3) := by
  unfold State.portEn
  lift_lets -underBinder +implicits
  intro x0
  intro x1
  have hx1 : Keeps s0 x1 := put_ok h0 h2
  clear_value x1
  exact sdsTidy_ok (Keeps.ite hx1 (linkDown_ok hx1))

theorem wMac_ok {a0 : Who} {a1 : Nat} {a2 : Nat} {a3 : Nat} {a4 : State} (h4 : Keeps s0 a4) : KeepsO s0 (wMac a0 a1 a2
    a3 a4) := by
  unfold wMac
  refine ite_of (Q := KeepsO s0) (wSb_ok h4) ?_
  refine ite_of (Q := KeepsO s0) (KeepsO.some h4) ?_
  split
  · exact KeepsO.some (ran_ok h4 (execNmodeWrite_ok h4))
  · lift_lets -underBinder +implicits
    intro x0
    have hx0 : Keeps s0 x0 := ranged_ok (put_ok h4 rfl) rfl
    clear_value x0
    exact KeepsO.some (portEn_ok hx0 rfl)
  · exact KeepsO.some (judgePort_ok (genWrite_ok h4 (by decide)))
  · exact KeepsO.some (judgePort_ok (genWrite_ok h4 (by decide)))
  · lift_lets -underBinder +implicits
    intro x1
    have hx1 : Keeps s0 x1 := ranged_ok (genWrite_ok h4 (by decide)) rfl
    clear_value x1
    exact KeepsO.some (portEn_ok hx1 rfl)
  · lift_lets -underBinder +implicits
    intro x2
    have hx2 : Keeps s0 x2 := clearBits_ok h4 (by decide)
    clear_value x2
    exact ite_of (Q := KeepsO s0) (KeepsO.some (ran_ok hx2 (execMgmtReq_ok hx2))) (KeepsO.some (genWrite_ok hx2 (by
        decide)))
  · exact KeepsO.none

end Sys2Proof.Laws
end

