-- ==== Sys2Proof/Laws/KeepsDma.lean ====
section
/-! SUPPORT. Sys2Proof/Laws/KeepsDma.lean: `Keeps` of each operation of Machine/Dma.lean. -/

namespace Sys2Proof.Laws

open Sys2Proof.Machine

variable {s0 : Base}

theorem dmaHand_ok {a0 : State} {a1 : Nat} {a2 : Nat} {a3 : Nat} (h0 : Keeps s0 a0) : Keeps s0 (State.dmaHand a0 a1 a2
    a3) := by
  unfold State.dmaHand
  split
  · exact h0
  · lift_lets -underBinder +implicits
    intro x1
    intro x2
    exact Keeps.ite (Keeps.ite (dmaEntry_ok h0) (Keeps.ite (dmaNext_ok h0) (dmaNext_ok (Keeps.other h0 rfl rfl rfl
        rfl)))) h0

theorem execCopy_ok {a0 : Nat} {a1 : Nat} {a2 : State} (h2 : Keeps s0 a2) : KeepsR s0 (execCopy a0 a1 a2) := by
  unfold execCopy
  exact KeepsR.next (dmaHand_ok h2)

theorem execStart_ok {a0 : Nat} {a1 : Nat} {a2 : State} (h2 : Keeps s0 a2) : KeepsR s0 (execStart a0 a1 a2) := by
  unfold execStart
  exact KeepsR.next (dmaHand_ok h2)

theorem execChannelStart_ok {a0 : Who} {a1 : Nat} {a2 : State} (h2 : Keeps s0 a2) : KeepsR s0 (execChannelStart a0 a1
    a2) := by
  unfold execChannelStart
  exact ite_of (Q := KeepsR s0) (KeepsR.next h2) (ite_of (Q := KeepsR s0) (KeepsR.next (put_ok h2 rfl)) (KeepsR.next
      (dmaStart_ok h2)))

theorem execDmaStop_ok {a0 : Who} {a1 : Nat} {a2 : State} (h2 : Keeps s0 a2) : KeepsR s0 (execDmaStop a0 a1 a2) := by
  unfold execDmaStop
  exact ite_of (Q := KeepsR s0) (KeepsR.next h2) (KeepsR.next (dmaCut_ok h2))

theorem execEos_ok {a0 : Who} {a1 : Nat} {a2 : State} (h2 : Keeps s0 a2) : KeepsR s0 (execEos a0 a1 a2) := by
  unfold execEos
  exact ite_of (Q := KeepsR s0) (KeepsR.next h2) (KeepsR.next (chSettle_ok (put_ok h2 rfl)))

theorem fifoPush_ok {a0 : State} {a1 : Nat} {a2 : List Byte} (h0 : Keeps s0 a0) : Keeps s0 (State.fifoPush a0 a1 a2)
    := by
  unfold State.fifoPush
  exact Keeps.ite (put_ok h0 rfl) (chSettle_ok (setFifo_ok h0))

theorem execFifoPush_ok {a0 : Who} {a1 : Nat} {a2 : Nat} {a3 : State} (h3 : Keeps s0 a3) : KeepsR s0 (execFifoPush a0
    a1 a2 a3) := by
  unfold execFifoPush
  split
  · exact ite_of (Q := KeepsR s0) (KeepsR.next h3) (KeepsR.next (fifoPush_ok h3))
  · exact KeepsR.next h3

theorem execShadowArm_ok {a0 : Who} {a1 : Nat} {a2 : State} (h2 : Keeps s0 a2) : KeepsR s0 (execShadowArm a0 a1 a2) :=
    by
  unfold execShadowArm
  exact ite_of (Q := KeepsR s0) (KeepsR.next h2) (KeepsR.next (put_ok h2 rfl))

theorem stimeReached_ok {a0 : State} {a1 : Nat} (h0 : Keeps s0 a0) : Keeps s0 (State.stimeReached a0 a1) := by
  unfold State.stimeReached
  exact Keeps.ite (chSettle_ok h0) h0

theorem execDmaStimeReached_ok {a0 : Nat} {a1 : State} (h1 : Keeps s0 a1) : KeepsR s0 (execDmaStimeReached a0 a1) := by
  unfold execDmaStimeReached
  exact KeepsR.next (stimeReached_ok h1)

theorem runBegin_ok {a0 : State} {a1 : Nat} (h0 : Keeps s0 a0) : Keeps s0 (State.runBegin a0 a1) := by
  unfold State.runBegin
  lift_lets -underBinder +implicits
  intro x0
  intro x1
  have hx1 : Keeps s0 x1 := pmu_ok h0
  clear_value x1
  intro x2
  have hx2 : Keeps s0 x2 := Keeps.ite (set_ok (put_ok hx1 rfl) rfl) hx1
  clear_value x2
  exact setCh_ok hx2 (fun _ => by decide)

theorem runMove_ok {a0 : State} {a1 : Nat} {a2 : ReadResult} (h0 : Keeps s0 a0) : Keeps s0 (State.runMove a0 a1 a2) :=
    by
  unfold State.runMove
  lift_lets -underBinder +implicits
  intro x0
  intro x1
  intro x2
  have hx2 : Keeps s0 x2 := dmaReads_ok h0
  clear_value x2
  intro x3
  have hx3 : KeepsS s0 x3 := dmaPut_ok h0
  clear_value x3
  refine Keeps.ite ?_ (dmaBack_ok (KeepsS.to hx3))
  split
  · lift_lets -underBinder +implicits
    intro x5
    intro x6
    have hx6 : KeepsS s0 x6 := dmaPut_ok hx2
    clear_value x6
    exact dmaBack_ok (KeepsS.to hx6)
  · split
    · exact dmaEnd_ok (aer_ok hx2)
    · exact dmaEnd_ok hx2

theorem execDmaRunStart_ok {a0 : Nat} {a1 : ReadResult} {a2 : State} (h2 : Keeps s0 a2) : KeepsR s0 (execDmaRunStart
    a0 a1 a2) := by
  unfold execDmaRunStart
  refine ite_of (Q := KeepsR s0) (KeepsR.next h2) ?_
  split
  · next m0 heq =>
    have hm0 : Keeps s0 m0 := by
      refine KeepsS.eq heq ?_
      exact engPick_ok h2
    exact KeepsR.next hm0
  · next m1 m2 heq =>
    have hm2 : Keeps s0 m2 := by
      refine KeepsS.eq heq ?_
      exact engPick_ok h2
    lift_lets -underBinder +implicits
    intro x3
    exact ite_of (Q := KeepsR s0) (KeepsR.next (setCh_ok (pmu_ok hm2) (fun _ => by decide))) (ite_of (Q := KeepsR s0)
        (KeepsR.next (runBegin_ok hm2)) (KeepsR.next (runMove_ok (runBegin_ok hm2))))

theorem execStreamBurstEnd_ok {a0 : Nat} {a1 : State} (h1 : Keeps s0 a1) : KeepsR s0 (execStreamBurstEnd a0 a1) := by
  unfold execStreamBurstEnd
  lift_lets -underBinder +implicits
  intro x0
  intro x1
  intro x2
  have hx2 : KeepsS s0 x2 := dmaPut_ok h1
  clear_value x2
  intro x3
  have hx3 : Keeps s0 x3 := setFifo_ok (KeepsS.to hx2)
  clear_value x3
  exact ite_of (Q := KeepsR s0) (KeepsR.next h1) (ite_of (Q := KeepsR s0) (KeepsR.next (setCh_ok (pmu_ok h1) (fun _ =>
      by decide))) (ite_of (Q := KeepsR s0) (KeepsR.next (dmaBack_ok hx3)) (KeepsR.next (chSettle_ok (setCh_ok hx3
      (fun _ => by decide))))))

theorem execDmaReadbackReturn_ok {a0 : Nat} {a1 : ReadResult} {a2 : State} (h2 : Keeps s0 a2) : KeepsR s0
    (execDmaReadbackReturn a0 a1 a2) := by
  unfold execDmaReadbackReturn
  lift_lets -underBinder +implicits
  intro x0
  refine ite_of (Q := KeepsR s0) (KeepsR.next h2) ?_
  split
  · exact KeepsR.next h2
  · split
    · exact KeepsR.next (dmaEnd_ok h2)
    · split
      · exact KeepsR.next (dmaEnd_ok (aer_ok h2))
      · exact KeepsR.next (dmaEnd_ok h2)
  · exact KeepsR.next (dmaEnd_ok h2)

end Sys2Proof.Laws
end

