-- ==== Sys2Proof/Laws/KeepsOffload.lean ====
section
/-! SUPPORT. Sys2Proof/Laws/KeepsOffload.lean: `Keeps` of each operation of Machine/Offload.lean. -/

namespace Sys2Proof.Laws

open Sys2Proof.Machine

variable {s0 : Base}

theorem execEgressStage_ok {a0 : Nat} {a1 : State} (h1 : Keeps s0 a1) : KeepsR s0 (execEgressStage a0 a1) := by
  unfold execEgressStage
  refine ite_of (Q := KeepsR s0) (KeepsR.next h1) ?_
  split
  · lift_lets -underBinder +implicits
    intro x1
    have hx1 : Keeps s0 x1 := Keeps.ite (egPrep_ok h1) (egSteps_ok h1)
    clear_value x1
    exact KeepsR.next (egLeave_ok hx1)
  · exact KeepsR.next (egLeave_ok h1)

theorem execReceiveStage_ok {a0 : Nat} {a1 : State} (h1 : Keeps s0 a1) : KeepsR s0 (execReceiveStage a0 a1) := by
  unfold execReceiveStage
  split
  · exact KeepsR.next h1
  · lift_lets -underBinder +implicits
    intro x1
    exact ite_of (Q := KeepsR s0) (KeepsR.next h1) (ite_of (Q := KeepsR s0) (KeepsR.next (rxPrep_ok h1)) (ite_of (Q :=
        KeepsR s0) (KeepsR.next (rxMiddle_ok h1)) (ite_of (Q := KeepsR s0) (KeepsR.next (rxTrack_ok h1)) (ite_of (Q :=
        KeepsR s0) (KeepsR.next (rxFinish_ok h1)) (KeepsR.next h1)))))

theorem execCoalTimeout_ok {a0 : Nat} {a1 : State} (h1 : Keeps s0 a1) : KeepsR s0 (execCoalTimeout a0 a1) := by
  unfold execCoalTimeout
  split
  · exact ite_of (Q := KeepsR s0) (KeepsR.next (flushCoal_ok h1)) (KeepsR.next h1)
  · exact KeepsR.next h1

theorem oflCmd_ok {a0 : State} {a1 : Who} {a2 : Fld} {a3 : Fld} {a4 : State → State} (h0 : Keeps s0 a0) (h2 : Plain
    a2) (h3 : Plain a3) (h4 : ∀ z0, Keeps s0 z0 → Keeps s0 (a4 z0)) : Keeps s0 (State.oflCmd a0 a1 a2 a3 a4) := by
  unfold State.oflCmd
  exact Keeps.ite h0 (Keeps.ite (set_ok h0 h3) (h4 _ (put_ok h0 h2)))

theorem execTmplWrite_ok {a0 : Who} {a1 : Nat} {a2 : State} (h2 : Keeps s0 a2) : KeepsR s0 (execTmplWrite a0 a1 a2) :=
    by
  unfold execTmplWrite
  lift_lets -underBinder +implicits
  intro x0
  exact KeepsR.next (oflCmd_ok h2 rfl rfl (fun y1 hy1 => Keeps.ite (set_ok hy1 rfl) (Keeps.ite (set_ok hy1 rfl)
      (set_ok (set_ok (wr_ok hy1) rfl) rfl))))

theorem execTmplRead_ok {a0 : Who} {a1 : Nat} {a2 : State} (h2 : Keeps s0 a2) : KeepsR s0 (execTmplRead a0 a1 a2) := by
  unfold execTmplRead
  exact KeepsR.next (oflCmd_ok h2 rfl rfl (fun y0 hy0 => set_ok (putArea_ok hy0 rfl) rfl))

theorem execNvcWrite_ok {a0 : Who} {a1 : Nat} {a2 : State} (h2 : Keeps s0 a2) : KeepsR s0 (execNvcWrite a0 a1 a2) := by
  unfold execNvcWrite
  lift_lets -underBinder +implicits
  intro x0
  intro x1
  refine KeepsR.next ?_
  refine oflCmd_ok h2 rfl rfl (fun y2 hy2 => ?_)
  lift_lets -underBinder +implicits
  intro x3
  have hx3 : Keeps s0 x3 := forEach_ok hy2 (fun a4 t5 ht5 => placeEnd_ok ht5)
  clear_value x3
  intro x6
  have hx6 : Keeps s0 x6 := wr_ok (Keeps.other hx3 rfl rfl rfl rfl)
  clear_value x6
  exact Keeps.ite (set_ok hy2 rfl) (set_ok (set_ok hx6 rfl) rfl)

theorem execNvcRead_ok {a0 : Who} {a1 : Nat} {a2 : State} (h2 : Keeps s0 a2) : KeepsR s0 (execNvcRead a0 a1 a2) := by
  unfold execNvcRead
  exact KeepsR.next (oflCmd_ok h2 rfl rfl (fun y0 hy0 => set_ok (putArea_ok hy0 rfl) rfl))

theorem execOflEvqPop_ok {a0 : Who} {a1 : State} (h1 : Keeps s0 a1) : KeepsR s0 (execOflEvqPop a0 a1) := by
  unfold execOflEvqPop
  exact ite_of (Q := KeepsR s0) (KeepsR.next (Keeps.other h1 rfl rfl rfl rfl)) (KeepsR.next h1)

theorem execPlace_ok {a0 : Nat} {a1 : Nat} {a2 : State} (h2 : Keeps s0 a2) : KeepsR s0 (execPlace a0 a1 a2) := by
  unfold execPlace
  split
  · exact KeepsR.next h2
  · lift_lets -underBinder +implicits
    intro x1
    intro x2
    intro x3
    have hx3 : Keeps s0 x3 := markWay_ok h2
    clear_value x3
    exact ite_of (Q := KeepsR s0) (KeepsR.next (finish_ok hx3)) (ite_of (Q := KeepsR s0) (KeepsR.next (finish_ok hx3))
        (ite_of (Q := KeepsR s0) (KeepsR.next (finish_ok hx3)) (KeepsR.next (Keeps.other hx3 rfl rfl rfl rfl))))

theorem execNvmeCancel_ok {a0 : Nat} {a1 : Nat} {a2 : State} (h2 : Keeps s0 a2) : KeepsR s0 (execNvmeCancel a0 a1 a2)
    := by
  unfold execNvmeCancel
  split
  · exact KeepsR.next h2
  · lift_lets -underBinder +implicits
    intro x1
    intro x2
    have hx2 : Keeps s0 x2 := markWay_ok h2
    clear_value x2
    split
    · exact ite_of (Q := KeepsR s0) (KeepsR.next (finish_ok (placeEnd_ok hx2))) (KeepsR.next (finish_ok hx2))
    · exact KeepsR.next (finish_ok hx2)

theorem execSend_ok {a0 : Nat} {a1 : Nat} {a2 : State} (h2 : Keeps s0 a2) : KeepsR s0 (execSend a0 a1 a2) := by
  unfold execSend
  split
  · exact KeepsR.next h2
  · exact ite_of (Q := KeepsR s0) (KeepsR.next (newFrame_ok (markSent_ok h2))) (KeepsR.next h2)

theorem execBuffer_ok {a0 : Nat} {a1 : Nat} {a2 : State} (h2 : Keeps s0 a2) : KeepsR s0 (execBuffer a0 a1 a2) := by
  unfold execBuffer
  split
  · exact KeepsR.next h2
  · exact ite_of (Q := KeepsR s0) (KeepsR.next (pump_ok (markWay_ok h2))) (KeepsR.next h2)

end Sys2Proof.Laws
end

