-- ==== Sys2Proof/Laws/KeepsSched.lean ====
section
/-! SUPPORT. Sys2Proof/Laws/KeepsSched.lean: `Keeps` of each operation of Machine/Sched.lean. -/

namespace Sys2Proof.Laws

open Sys2Proof.Machine

variable {s0 : Base}

theorem bufSet_ok {a0 : State} {a1 : Nat} {a2 : Option (Nat × Nat × Nat)} (h0 : Keeps s0 a0) : Keeps s0 (State.bufSet
    a0 a1 a2) := by
  unfold State.bufSet
  lift_lets -underBinder +implicits
  intro x0
  have hx0 : Keeps s0 x0 := set_ok h0 rfl
  clear_value x0
  intro x1
  have hx1 : Keeps s0 x1 := set_ok hx0 rfl
  clear_value x1
  split
  · exact hx1
  · lift_lets -underBinder +implicits
    intro x5
    intro x6
    intro x7
    intro x8
    have hx8 : Keeps s0 x8 := set_ok hx1 rfl
    clear_value x8
    exact set_ok (set_ok hx8 rfl) rfl

theorem execBufCfgWrite_ok {a0 : Who} {a1 : Bool} {a2 : Nat} {a3 : Nat} {a4 : State} (h4 : Keeps s0 a4) : KeepsR s0
    (execBufCfgWrite a0 a1 a2 a3 a4) := by
  unfold execBufCfgWrite
  lift_lets -underBinder +implicits
  intro x0
  have hx0 : Keeps s0 x0 := Keeps.ite (put_ok h4 rfl) h4
  clear_value x0
  intro x1
  intro x2
  intro x3
  intro x4
  exact ite_of (Q := KeepsR s0) (KeepsR.next h4) (ite_of (Q := KeepsR s0) (ite_of (Q := KeepsR s0) (KeepsR.next hx0)
      (ite_of (Q := KeepsR s0) (KeepsR.next (put_ok hx0 rfl)) (KeepsR.next (bufSet_ok hx0)))) (ite_of (Q := KeepsR s0)
      (KeepsR.next h4) (ite_of (Q := KeepsR s0) (KeepsR.next h4) (ite_of (Q := KeepsR s0) (KeepsR.next (put_ok h4
      rfl)) (KeepsR.next (bufSet_ok h4))))))

theorem polReset_ok {a0 : State} {a1 : Nat} {a2 : Nat} (h0 : Keeps s0 a0) : Keeps s0 (State.polReset a0 a1 a2) := by
  unfold State.polReset
  exact set_ok (set_ok (set_ok h0 rfl) rfl) rfl

theorem execPolicerWrite_ok {a0 : Who} {a1 : Bool} {a2 : Nat} {a3 : Nat} {a4 : State} (h4 : Keeps s0 a4) : KeepsR s0
    (execPolicerWrite a0 a1 a2 a3 a4) := by
  unfold execPolicerWrite
  lift_lets -underBinder +implicits
  intro x0
  have hx0 : Keeps s0 x0 := set_ok (set_ok (put_ok h4 rfl) rfl) rfl
  clear_value x0
  intro x1
  have hx1 : Keeps s0 x1 := set_ok (set_ok (put_ok h4 rfl) rfl) rfl
  clear_value x1
  exact ite_of (Q := KeepsR s0) (KeepsR.next h4) (ite_of (Q := KeepsR s0) (ite_of (Q := KeepsR s0) (KeepsR.next h4)
      (KeepsR.next (polReset_ok hx0))) (ite_of (Q := KeepsR s0) (KeepsR.next h4) (KeepsR.next (polReset_ok hx1))))

theorem nodeSet_ok {a0 : State} {a1 : Nat} {a2 : Nat} {a3 : List Byte} (h0 : Keeps s0 a0) : Keeps s0 (State.nodeSet a0
    a1 a2 a3) := by
  unfold State.nodeSet
  lift_lets -underBinder +implicits
  intro x0
  intro x1
  have hx1 : Keeps s0 x1 := Keeps.ite h0 (set_ok (set_ok h0 rfl) rfl)
  clear_value x1
  intro x2
  have hx2 : Keeps s0 x2 := set_ok (put_ok (set_ok hx1 rfl) rfl) rfl
  clear_value x2
  intro x3
  have hx3 : Keeps s0 x3 := set_ok (set_ok (set_ok hx2 rfl) rfl) rfl
  clear_value x3
  intro x4
  have hx4 : Keeps s0 x4 := set_ok (set_ok (set_ok hx3 rfl) rfl) rfl
  clear_value x4
  intro x5
  intro x6
  have hx6 : Keeps s0 x6 := set_ok (set_ok (set_ok hx4 rfl) rfl) rfl
  clear_value x6
  intro x7
  have hx7 : Keeps s0 x7 := set_ok (set_ok (set_ok hx6 rfl) rfl) rfl
  clear_value x7
  exact Keeps.ite hx7 (Keeps.ite (drainShow_ok (put_ok (put_ok hx7 rfl) rfl)) (Keeps.ite (drainShow_ok (put_ok hx7
      rfl)) (put_ok hx7 rfl)))

theorem execNodeWrite_ok {a0 : Who} {a1 : Nat} {a2 : Nat} {a3 : State} (h3 : Keeps s0 a3) : KeepsR s0 (execNodeWrite
    a0 a1 a2 a3) := by
  unfold execNodeWrite
  lift_lets -underBinder +implicits
  intro x0
  intro x1
  intro x2
  have hx2 : Keeps s0 x2 := put_ok h3 rfl
  clear_value x2
  exact ite_of (Q := KeepsR s0) (KeepsR.next h3) (ite_of (Q := KeepsR s0) (KeepsR.next (set_ok h3 rfl)) (ite_of (Q :=
      KeepsR s0) (KeepsR.next (set_ok (nodeSet_ok hx2) rfl)) (KeepsR.next (set_ok hx2 rfl))))

theorem execNodeRead_ok {a0 : Who} {a1 : Nat} {a2 : Nat} {a3 : State} (h3 : Keeps s0 a3) : KeepsR s0 (execNodeRead a0
    a1 a2 a3) := by
  unfold execNodeRead
  lift_lets -underBinder +implicits
  intro x0
  have hx0 : Keeps s0 x0 := put_ok h3 rfl
  clear_value x0
  intro x1
  have hx1 : Keeps s0 x1 := putArea_ok hx0 rfl
  clear_value x1
  exact ite_of (Q := KeepsR s0) (KeepsR.next h3) (ite_of (Q := KeepsR s0) (KeepsR.next (set_ok h3 rfl)) (ite_of (Q :=
      KeepsR s0) (KeepsR.next (set_ok hx0 rfl)) (KeepsR.next (set_ok (drainShow_ok (set_ok hx1 rfl)) rfl))))

theorem execFrameSelect_ok {a0 : Nat} {a1 : State} (h1 : Keeps s0 a1) : KeepsR s0 (execFrameSelect a0 a1) := by
  unfold execFrameSelect
  refine ite_of (Q := KeepsR s0) (KeepsR.next h1) ?_
  split
  · next m0 heq =>
    have hm0 : Keeps s0 m0 := by
      refine KeepsS.eq heq ?_
      exact select_ok h1
    exact KeepsR.next hm0
  · next m1 m2 heq =>
    have hm2 : Keeps s0 m2 := by
      refine KeepsS.eq heq ?_
      exact select_ok h1
    split
    · exact KeepsR.next hm2
    · exact KeepsR.next (startTx_ok (pmu_ok (dequeue_ok hm2)))

theorem boundary_ok {a0 : State} {a1 : Nat} (h0 : Keeps s0 a0) : Keeps s0 (State.boundary a0 a1) := by
  unfold State.boundary
  lift_lets -underBinder +implicits
  intro x0
  have hx0 : Keeps s0 x0 := flushOwn_ok h0
  clear_value x0
  exact Keeps.ite (bulkKick_ok hx0) hx0

theorem execFrameTxEnd_ok {a0 : Nat} {a1 : State} (h1 : Keeps s0 a1) : KeepsR s0 (execFrameTxEnd a0 a1) := by
  unfold execFrameTxEnd
  lift_lets -underBinder +implicits
  intro x0
  refine ite_of (Q := KeepsR s0) (KeepsR.next h1) ?_
  split
  · lift_lets -underBinder +implicits
    intro x2
    intro x3
    have hx3 : Keeps s0 x3 := cnt_ok (cnt_ok (set_ok h1 rfl))
    clear_value x3
    exact KeepsR.next (endFrame_ok (boundary_ok (emit_ok hx3 rfl)))
  · exact KeepsR.next (boundary_ok (set_ok h1 rfl))

theorem gateRefuse_ok {a0 : State} {a1 : Nat} {a2 : Nat} (h0 : Keeps s0 a0) : Keeps s0 (State.gateRefuse a0 a1 a2) := by
  unfold State.gateRefuse
  exact set_ok (put_ok h0 rfl) rfl

theorem execGateCommit_ok {a0 : Who} {a1 : Nat} {a2 : State} (h2 : Keeps s0 a2) : KeepsR s0 (execGateCommit a0 a1 a2)
    := by
  unfold execGateCommit
  lift_lets -underBinder +implicits
  intro x0
  intro x1
  intro x2
  intro x3
  intro x4
  have hx4 : Keeps s0 x4 := set_ok (set_ok (set_ok h2 rfl) rfl) rfl
  clear_value x4
  intro x5
  have hx5 : Keeps s0 x5 := set_ok hx4 rfl
  clear_value x5
  exact ite_of (Q := KeepsR s0) (KeepsR.next h2) (ite_of (Q := KeepsR s0) (KeepsR.next (gateRefuse_ok h2)) (ite_of (Q
      := KeepsR s0) (KeepsR.next (put_ok h2 rfl)) (KeepsR.next (put_ok hx5 rfl))))

theorem execGateCancel_ok {a0 : Who} {a1 : Nat} {a2 : State} (h2 : Keeps s0 a2) : KeepsR s0 (execGateCancel a0 a1 a2)
    := by
  unfold execGateCancel
  exact ite_of (Q := KeepsR s0) (KeepsR.next h2) (ite_of (Q := KeepsR s0) (KeepsR.next (gateRefuse_ok h2)) (ite_of (Q
      := KeepsR s0) (KeepsR.next h2) (ite_of (Q := KeepsR s0) (KeepsR.next (gateRefuse_ok h2)) (KeepsR.next (put_ok h2
      rfl)))))

theorem takeover_ok {a0 : State} {a1 : Nat} (h0 : Keeps s0 a0) : Keeps s0 (State.takeover a0 a1) := by
  unfold State.takeover
  lift_lets -underBinder +implicits
  intro x0
  intro x1
  have hx1 : Keeps s0 x1 := put_ok (put_ok h0 rfl) rfl
  clear_value x1
  intro x2
  have hx2 : Keeps s0 x2 := set_ok (set_ok hx1 rfl) rfl
  clear_value x2
  intro x3
  have hx3 : Keeps s0 x3 := set_ok (set_ok hx2 rfl) rfl
  clear_value x3
  exact Keeps.ite (set_ok (set_ok hx3 rfl) rfl) h0

theorem execGateTakeover_ok {a0 : Nat} {a1 : State} (h1 : Keeps s0 a1) : KeepsR s0 (execGateTakeover a0 a1) := by
  unfold execGateTakeover
  exact KeepsR.next (takeover_ok h1)

theorem execGateEntryWrite_ok {a0 : Who} {a1 : Nat} {a2 : Nat} {a3 : State} (h3 : Keeps s0 a3) : KeepsR s0
    (execGateEntryWrite a0 a1 a2 a3) := by
  unfold execGateEntryWrite
  lift_lets -underBinder +implicits
  intro x0
  intro x1
  exact ite_of (Q := KeepsR s0) (KeepsR.next h3) (ite_of (Q := KeepsR s0) (KeepsR.next (gateRefuse_ok h3))
      (KeepsR.next (putArea_ok h3 rfl)))

theorem smpSwitch_ok {a0 : State} (h0 : Keeps s0 a0) : Keeps s0 (State.smpSwitch a0) := by
  unfold State.smpSwitch
  exact set_ok (set_ok h0 rfl) rfl

theorem smpHand_ok {a0 : State} (h0 : Keeps s0 a0) : Keeps s0 (State.smpHand a0) := by
  unfold State.smpHand
  lift_lets -underBinder +implicits
  intro x0
  intro x1
  have hx1 : Keeps s0 x1 := put_ok h0 rfl
  clear_value x1
  exact Keeps.ite hx1 (smpSwitch_ok hx1)

theorem smpPut_ok {a0 : State} {a1 : Nat} (h0 : Keeps s0 a0) : Keeps s0 (State.smpPut a0 a1) := by
  unfold State.smpPut
  lift_lets -underBinder +implicits
  intro x0
  have hx0 : Keeps s0 x0 := Keeps.ite (smpSwitch_ok h0) h0
  try clear_value x0
  intro x1
  intro x2
  intro x3
  have hx3 : Keeps s0 x3 := Keeps.other hx0 rfl rfl rfl rfl
  try clear_value x3
  intro x4
  have hx4 : Keeps s0 x4 := inc_ok (put_ok hx3 rfl) rfl
  try clear_value x4
  exact Keeps.ite (put_ok (inc_ok hx0 rfl) rfl) (Keeps.ite (smpHand_ok hx4) hx4)

theorem execSamplePeriod_ok {a0 : State} (h0 : Keeps s0 a0) : KeepsR s0 (execSamplePeriod a0) := by
  unfold execSamplePeriod
  lift_lets -underBinder +implicits
  intro x0
  intro x1
  intro x2
  intro x3
  exact ite_of (Q := KeepsR s0) (KeepsR.next h0) (KeepsR.next (forEach_ok h0 (fun a4 t5 ht5 => set_ok (smpPut_ok ht5)
      rfl)))

end Sys2Proof.Laws
end

