-- ==== Sys2Proof/Laws/KeepsTime.lean ====
section
/-! SUPPORT. Sys2Proof/Laws/KeepsTime.lean: `Keeps` of each operation of Machine/Time.lean. -/

namespace Sys2Proof.Laws

open Sys2Proof.Machine

variable {s0 : Base}

theorem latchNow_ok {a0 : State} {a1 : Who} (h0 : Keeps s0 a0) : Keeps s0 (State.latchNow a0 a1) := by
  unfold State.latchNow
  split
  · exact set_ok (set_ok h0 rfl) rfl
  · exact h0

theorem execNowRead_ok {a0 : Who} {a1 : Nat} {a2 : State} (h2 : Keeps s0 a2) : KeepsR s0 (execNowRead a0 a1 a2) := by
  unfold execNowRead
  exact KeepsR.next (answer_ok h2 (KeepsF.of (latchNow_ok h2)))

theorem execMtIncWrite_ok {a0 : Who} {a1 : Nat} {a2 : State} (h2 : Keeps s0 a2) : KeepsR s0 (execMtIncWrite a0 a1 a2)
    := by
  unfold execMtIncWrite
  lift_lets -underBinder +implicits
  intro x0
  exact ite_of (Q := KeepsR s0) (KeepsR.next h2) (ite_of (Q := KeepsR s0) (KeepsR.next (mtRefuse_ok h2)) (KeepsR.next
      (set_ok h2 rfl)))

theorem adjCtrl_ok {a0 : State} {a1 : Bool} {a2 : Nat} (h0 : Keeps s0 a0) : Keeps s0 (State.adjCtrl a0 a1 a2) := by
  unfold State.adjCtrl
  lift_lets -underBinder +implicits
  intro x0
  have hx0 : Keeps s0 x0 := put_ok h0 rfl
  clear_value x0
  exact Keeps.ite (set_ok hx0 rfl) hx0

theorem startStep_ok {a0 : State} (h0 : Keeps s0 a0) : Keeps s0 (State.startStep a0) := by
  unfold State.startStep
  exact set_ok (put_ok (dropSlew_ok h0) rfl) rfl

theorem startSlew_ok {a0 : State} (h0 : Keeps s0 a0) : Keeps s0 (State.startSlew a0) := by
  unfold State.startSlew
  lift_lets -underBinder +implicits
  intro x0
  intro x1
  have hx1 : Keeps s0 x1 := put_ok (dropSlew_ok h0) rfl
  clear_value x1
  exact Keeps.ite hx1 (put_ok (put_ok (set_ok hx1 rfl) rfl) rfl)

theorem execAdjStep_ok {a0 : Who} {a1 : Nat} {a2 : State} (h2 : Keeps s0 a2) : KeepsR s0 (execAdjStep a0 a1 a2) := by
  unfold execAdjStep
  lift_lets -underBinder +implicits
  intro x0
  have hx0 : Keeps s0 x0 := adjCtrl_ok h2
  clear_value x0
  exact ite_of (Q := KeepsR s0) (KeepsR.next h2) (ite_of (Q := KeepsR s0) (KeepsR.next (mtRefuse_ok hx0)) (KeepsR.next
      (put_ok (startStep_ok hx0) rfl)))

theorem execAdjSlew_ok {a0 : Who} {a1 : Nat} {a2 : State} (h2 : Keeps s0 a2) : KeepsR s0 (execAdjSlew a0 a1 a2) := by
  unfold execAdjSlew
  lift_lets -underBinder +implicits
  intro x0
  have hx0 : Keeps s0 x0 := adjCtrl_ok h2
  clear_value x0
  exact ite_of (Q := KeepsR s0) (KeepsR.next h2) (ite_of (Q := KeepsR s0) (KeepsR.next (mtRefuse_ok hx0)) (KeepsR.next
      (put_ok (startSlew_ok hx0) rfl)))

theorem refChange_ok {a0 : State} (h0 : Keeps s0 a0) : Keeps s0 (State.refChange a0) := by
  unfold State.refChange
  lift_lets -underBinder +implicits
  intro x0
  have hx0 : Keeps s0 x0 := put_ok h0 rfl
  clear_value x0
  exact Keeps.ite (enterDrift_ok hx0) hx0

theorem execRefLost_ok {a0 : State} (h0 : Keeps s0 a0) : KeepsR s0 (execRefLost a0) := by
  unfold execRefLost
  exact ite_of (Q := KeepsR s0) (KeepsR.next h0) (KeepsR.next (refChange_ok (put_ok h0 rfl)))

theorem execRefLock_ok {a0 : State} (h0 : Keeps s0 a0) : KeepsR s0 (execRefLock a0) := by
  unfold execRefLock
  exact ite_of (Q := KeepsR s0) (KeepsR.next h0) (KeepsR.next (put_ok (put_ok (put_ok h0 rfl) rfl) rfl))

theorem execDriftEnter_ok {a0 : Who} {a1 : State} (h1 : Keeps s0 a1) : KeepsR s0 (execDriftEnter a0 a1) := by
  unfold execDriftEnter
  exact ite_of (Q := KeepsR s0) (KeepsR.next h1) (KeepsR.next (enterDrift_ok h1))

theorem leaveDrift_ok {a0 : State} (h0 : Keeps s0 a0) : Keeps s0 (State.leaveDrift a0) := by
  unfold State.leaveDrift
  exact put_ok (put_ok (set_ok h0 rfl) rfl) rfl

theorem execDriftExit_ok {a0 : Who} {a1 : Bool} {a2 : State} (h2 : Keeps s0 a2) : KeepsR s0 (execDriftExit a0 a1 a2)
    := by
  unfold execDriftExit
  lift_lets -underBinder +implicits
  intro x0
  have hx0 : Keeps s0 x0 := put_ok h2 rfl
  clear_value x0
  intro x1
  have hx1 : Keeps s0 x1 := leaveDrift_ok hx0
  clear_value x1
  exact ite_of (Q := KeepsR s0) (KeepsR.next h2) (ite_of (Q := KeepsR s0) (KeepsR.next hx0) (ite_of (Q := KeepsR s0)
      (KeepsR.next (mtRefuse_ok hx0)) (ite_of (Q := KeepsR s0) (KeepsR.next hx1) (KeepsR.next (Keeps.ite (startStep_ok
      hx1) (startSlew_ok hx1))))))

theorem trigCfg_ok {a0 : State} {a1 : Nat} {a2 : Nat} (h0 : Keeps s0 a0) : Keeps s0 (State.trigCfg a0 a1 a2) := by
  unfold State.trigCfg
  lift_lets -underBinder +implicits
  intro x0
  intro x1
  intro x2
  intro x3
  have hx3 : Keeps s0 x3 := Keeps.ite (Keeps.ite (mtRefuse_ok h0) (set_ok (set_ok (set_ok (set_ok h0 rfl) rfl) rfl)
      rfl)) h0
  clear_value x3
  exact Keeps.ite (mtRefuse_ok h0) (set_ok hx3 rfl)

theorem execTrigCfgWrite_ok {a0 : Who} {a1 : Nat} {a2 : Nat} {a3 : Nat} {a4 : State} (h4 : Keeps s0 a4) : KeepsR s0
    (execTrigCfgWrite a0 a1 a2 a3 a4) := by
  unfold execTrigCfgWrite
  exact ite_of (Q := KeepsR s0) (KeepsR.next h4) (ite_of (Q := KeepsR s0) (KeepsR.next (trigCfg_ok h4)) (ite_of (Q :=
      KeepsR s0) (ite_of (Q := KeepsR s0) (KeepsR.next h4) (ite_of (Q := KeepsR s0) (KeepsR.next (mtRefuse_ok h4))
      (KeepsR.next (set_ok h4 rfl)))) (ite_of (Q := KeepsR s0) (ite_of (Q := KeepsR s0) (KeepsR.next h4) (ite_of (Q :=
      KeepsR s0) (KeepsR.next (mtRefuse_ok h4)) (KeepsR.next (set_ok h4 rfl)))) (KeepsR.next h4))))

theorem armReg_ok {a0 : State} {a1 : Nat} (h0 : Keeps s0 a0) : Keeps s0 (State.armReg a0 a1) := by
  unfold State.armReg
  lift_lets -underBinder +implicits
  intro x0
  intro x1
  intro x2
  have hx2 : Keeps s0 x2 := trigLoad_ok h0
  clear_value x2
  exact Keeps.ite (trigEnd_ok h0) (Keeps.ite (put_ok h0 rfl) (Keeps.ite (sendTrg_ok hx2) hx2))

theorem execArm_ok {a0 : Who} {a1 : Nat} {a2 : Bool} {a3 : State} (h3 : Keeps s0 a3) : KeepsR s0 (execArm a0 a1 a2 a3)
    := by
  unfold execArm
  lift_lets -underBinder +implicits
  intro x0
  exact ite_of (Q := KeepsR s0) (KeepsR.next h3) (ite_of (Q := KeepsR s0) (KeepsR.next (mtRefuse_ok h3)) (ite_of (Q :=
      KeepsR s0) (ite_of (Q := KeepsR s0) (KeepsR.next (disarm_ok (mtRefuse_ok h3))) (KeepsR.next (mtRefuse_ok h3)))
      (ite_of (Q := KeepsR s0) (KeepsR.next (mtRefuse_ok h3)) (ite_of (Q := KeepsR s0) (KeepsR.next (trigEnd_ok h3))
      (KeepsR.next (armReg_ok h3))))))

theorem execDisarm_ok {a0 : Who} {a1 : Nat} {a2 : State} (h2 : Keeps s0 a2) : KeepsR s0 (execDisarm a0 a1 a2) := by
  unfold execDisarm
  exact ite_of (Q := KeepsR s0) (KeepsR.next h2) (ite_of (Q := KeepsR s0) (KeepsR.next (mtRefuse_ok h2)) (ite_of (Q :=
      KeepsR s0) (KeepsR.next (disarm_ok h2)) (KeepsR.next h2)))

theorem stageLoad_ok {a0 : State} {a1 : Nat} (h0 : Keeps s0 a0) : Keeps s0 (State.stageLoad a0 a1) := by
  unfold State.stageLoad
  lift_lets -underBinder +implicits
  intro x0
  intro x1
  exact Keeps.ite (trigLoad_ok h0) h0

theorem execTrigStageLoad_ok {a0 : Nat} {a1 : State} (h1 : Keeps s0 a1) : KeepsR s0 (execTrigStageLoad a0 a1) := by
  unfold execTrigStageLoad
  exact KeepsR.next (stageLoad_ok h1)

theorem trgLead_ok {a0 : State} {a1 : Nat} (h0 : Keeps s0 a0) : Keeps s0 (State.trgLead a0 a1) := by
  unfold State.trgLead
  exact Keeps.ite (sendTrg_ok h0) h0

theorem execTrgLead_ok {a0 : Nat} {a1 : State} (h1 : Keeps s0 a1) : KeepsR s0 (execTrgLead a0 a1) := by
  unfold execTrgLead
  exact KeepsR.next (trgLead_ok h1)

theorem pulseEnd_ok {a0 : State} {a1 : Nat} (h0 : Keeps s0 a0) : Keeps s0 (State.pulseEnd a0 a1) := by
  unfold State.pulseEnd
  lift_lets -underBinder +implicits
  intro x0
  exact forEach_ok (Keeps.other h0 rfl rfl rfl rfl) (fun a1 t2 ht2 => slotTrig_ok ht2)

theorem execPulseEnd_ok {a0 : Nat} {a1 : State} (h1 : Keeps s0 a1) : KeepsR s0 (execPulseEnd a0 a1) := by
  unfold execPulseEnd
  exact KeepsR.next (pulseEnd_ok h1)

theorem execCaptureEdge_ok {a0 : Nat} {a1 : Nat} {a2 : Bool} {a3 : State} (h3 : Keeps s0 a3) : KeepsR s0
    (execCaptureEdge a0 a1 a2 a3) := by
  unfold execCaptureEdge
  exact ite_of (Q := KeepsR s0) (KeepsR.next h3) (KeepsR.next (edgeOn_ok h3))

theorem execCaptureSw_ok {a0 : Who} {a1 : Nat} {a2 : State} (h2 : Keeps s0 a2) : KeepsR s0 (execCaptureSw a0 a1 a2) :=
    by
  unfold execCaptureSw
  exact ite_of (Q := KeepsR s0) (KeepsR.next h2) (KeepsR.next (capture_ok h2))

theorem ppsFields_ok {a0 : State} {a1 : Nat} (h0 : Keeps s0 a0) : Keeps s0 (State.ppsFields a0 a1) := by
  unfold State.ppsFields
  lift_lets -underBinder +implicits
  intro x0
  intro x1
  intro x2
  have hx2 : Keeps s0 x2 := Keeps.ite (set_ok h0 rfl) h0
  clear_value x2
  exact Keeps.ite (set_ok hx2 rfl) hx2

theorem execPpsWrite_ok {a0 : Who} {a1 : Nat} {a2 : State} (h2 : Keeps s0 a2) : KeepsR s0 (execPpsWrite a0 a1 a2) := by
  unfold execPpsWrite
  lift_lets -underBinder +implicits
  intro x0
  intro x1
  intro x2
  have hx2 : Keeps s0 x2 := ppsFields_ok h2
  clear_value x2
  intro x3
  have hx3 : Keeps s0 x3 := set_ok (put_ok hx2 rfl) rfl
  clear_value x3
  exact ite_of (Q := KeepsR s0) (KeepsR.next h2) (ite_of (Q := KeepsR s0) (KeepsR.next (drivePps_ok (set_ok (put_ok
      hx2 rfl) rfl))) (ite_of (Q := KeepsR s0) (KeepsR.next (set_ok hx2 rfl)) (KeepsR.next (set_ok hx3 rfl))))

theorem ppsRise_ok {a0 : State} (h0 : Keeps s0 a0) : Keeps s0 (State.ppsRise a0) := by
  unfold State.ppsRise
  lift_lets -underBinder +implicits
  intro x0
  intro x1
  have hx1 : Keeps s0 x1 := set_ok (set_ok (set_ok h0 rfl) rfl) rfl
  clear_value x1
  exact Keeps.ite (drivePps_ok (set_ok hx1 rfl)) h0

theorem execPpsRise_ok {a0 : State} (h0 : Keeps s0 a0) : KeepsR s0 (execPpsRise a0) := by
  unfold execPpsRise
  exact KeepsR.next (ppsRise_ok h0)

theorem ppsFall_ok {a0 : State} (h0 : Keeps s0 a0) : Keeps s0 (State.ppsFall a0) := by
  unfold State.ppsFall
  exact Keeps.ite (drivePps_ok h0) h0

theorem execPpsFall_ok {a0 : State} (h0 : Keeps s0 a0) : KeepsR s0 (execPpsFall a0) := by
  unfold execPpsFall
  exact KeepsR.next (ppsFall_ok h0)

end Sys2Proof.Laws
end

