-- ==== Sys2Proof/Laws/KeepsDevB.lean ====
section
/-! SUPPORT. Sys2Proof/Laws/KeepsDevB.lean: `Keeps` of each operation of Machine/DevB.lean. -/

namespace Sys2Proof.Laws

open Sys2Proof.Machine

variable {s0 : Base}

theorem shadowFlds_safe {b : Nat} : Safes (shadowFlds b) := by
  unfold shadowFlds
  (repeat' split) <;> decide

theorem gateWrite_ok {a0 : State} {a1 : Who} {a2 : Nat} {a3 : Nat} {a4 : Nat} {a5 : Nat} (h0 : Keeps s0 a0) : Keeps s0
    (State.gateWrite a0 a1 a2 a3 a4 a5) := by
  unfold State.gateWrite
  lift_lets -underBinder +implicits
  intro x0
  intro x1
  exact ran_ok h0 (execGateEntryWrite_ok h0)

theorem wSch_ok {a0 : Who} {a1 : Nat} {a2 : Nat} {a3 : Nat} {a4 : State} (h4 : Keeps s0 a4) : KeepsO s0 (wSch a0 a1 a2
    a3 a4) := by
  unfold wSch
  refine ite_of (Q := KeepsO s0) (KeepsO.some h4) ?_
  split
  · exact KeepsO.some (ran_ok h4 (execBufCfgWrite_ok h4))
  · exact KeepsO.some (ran_ok h4 (execBufCfgWrite_ok h4))
  · exact KeepsO.some (ran_ok h4 (execPolicerWrite_ok h4))
  · exact KeepsO.some (ran_ok h4 (execPolicerWrite_ok h4))
  · refine KeepsO.some ?_
    split
    · exact ran_ok h4 (execNodeWrite_ok h4)
    · exact ran_ok h4 (execNodeRead_ok h4)
    · exact h4
  · lift_lets -underBinder +implicits
    intro x1
    have hx1 : Keeps s0 x1 := Keeps.ite (ran_ok h4 (execGateCancel_ok h4)) h4
    clear_value x1
    exact KeepsO.some (Keeps.ite (ran_ok hx1 (execGateCommit_ok hx1)) hx1)
  · exact ite_of (Q := KeepsO s0) KeepsO.none (KeepsO.some h4)
  · exact ite_of (Q := KeepsO s0) KeepsO.none (KeepsO.some h4)
  · exact ite_of (Q := KeepsO s0) KeepsO.none (KeepsO.some h4)
  · exact KeepsO.some (ranged_ok (put_ok h4 rfl) rfl)
  · exact KeepsO.none

theorem refSel_ok {a0 : State} {a1 : Nat} (h0 : Keeps s0 a0) : Keeps s0 (State.refSel a0 a1) := by
  unfold State.refSel
  exact Keeps.ite h0 (refChange_ok (put_ok (set_ok h0 rfl) rfl))

theorem capWrite_ok {a0 : State} {a1 : Who} {a2 : Nat} {a3 : Nat} (h0 : Keeps s0 a0) : Keeps s0 (State.capWrite a0 a1
    a2 a3) := by
  unfold State.capWrite
  lift_lets -underBinder +implicits
  intro x0
  have hx0 : Keeps s0 x0 := set_ok (set_ok (set_ok (put_ok h0 rfl) rfl) rfl) rfl
  clear_value x0
  intro x1
  have hx1 : Keeps s0 x1 := Keeps.ite (mtRefuse_ok h0) (ranged_ok hx0 rfl)
  clear_value x1
  exact Keeps.ite (ran_ok hx1 (execCaptureSw_ok hx1)) hx1

theorem mtCtrl_ok {a0 : State} {a1 : Who} {a2 : Nat} (h0 : Keeps s0 a0) : Keeps s0 (State.mtCtrl a0 a1 a2) := by
  unfold State.mtCtrl
  lift_lets -underBinder +implicits
  intro x0
  have hx0 : Keeps s0 x0 := put_ok h0 rfl
  clear_value x0
  exact Keeps.ite (ran_ok hx0 (execDriftEnter_ok hx0)) (Keeps.ite (ran_ok hx0 (execDriftExit_ok hx0)) hx0)

theorem wMt_ok {a0 : Who} {a1 : Nat} {a2 : Nat} {a3 : Nat} {a4 : State} (h4 : Keeps s0 a4) : KeepsO s0 (wMt a0 a1 a2
    a3 a4) := by
  unfold wMt
  refine ite_of (Q := KeepsO s0) (KeepsO.some h4) ?_
  split
  · exact KeepsO.some (refSel_ok (set_ok h4 rfl))
  · exact KeepsO.some (ran_ok h4 (execMtIncWrite_ok h4))
  · exact KeepsO.some (Keeps.ite (adjCtrl_ok h4) (Keeps.ite (ran_ok h4 (execAdjSlew_ok h4)) (ran_ok h4 (execAdjStep_ok
      h4))))
  · exact KeepsO.some (mtCtrl_ok h4)
  · exact KeepsO.some (ran_ok h4 (execPpsWrite_ok h4))
  · exact KeepsO.some (ran_ok h4 (execTrigCfgWrite_ok h4))
  · exact KeepsO.some (Keeps.ite (ran_ok h4 (execArm_ok h4)) (Keeps.ite (ran_ok h4 (execDisarm_ok h4)) h4))
  · exact KeepsO.some (ran_ok h4 (execTrigCfgWrite_ok h4))
  · exact KeepsO.some (ran_ok h4 (execTrigCfgWrite_ok h4))
  · exact KeepsO.some (capWrite_ok h4)
  · exact ite_of (Q := KeepsO s0) KeepsO.none (KeepsO.some h4)
  · exact KeepsO.none

theorem keyWrite_ok {a0 : State} {a1 : Who} {a2 : Nat} (h0 : Keeps s0 a0) : Keeps s0 (State.keyWrite a0 a1 a2) := by
  unfold State.keyWrite
  split
  · exact ran_ok h0 (execLoadWrapped_ok h0)
  · exact ran_ok h0 (execLoadClear_ok h0)
  · exact ran_ok h0 (execClearSlot_ok h0)
  · exact ran_ok h0 (execZeroisePage_ok h0)
  · exact h0

theorem wKey_ok {a0 : Who} {a1 : Nat} {a2 : Nat} {a3 : Nat} {a4 : State} (h4 : Keeps s0 a4) : KeepsO s0 (wKey a0 a1 a2
    a3 a4) := by
  unfold wKey
  lift_lets -underBinder +implicits
  intro x0
  refine ite_of (Q := KeepsO s0) (KeepsO.some h4) ?_
  split
  · exact KeepsO.some (Keeps.ite (set_ok h4 rfl) (set_ok h4 rfl))
  · exact KeepsO.some (keyWrite_ok h4)
  · exact KeepsO.none
  · exact KeepsO.some h4

theorem shareWrite_ok {a0 : State} {a1 : Fld} {a2 : Fld} {a3 : Fld} {a4 : Nat} {a5 : Nat} (h0 : Keeps s0 a0) (h1 :
    Plain a1) (h2 : Plain a2) (h3 : Plain a3) : Keeps s0 (State.shareWrite a0 a1 a2 a3 a4 a5) := by
  unfold State.shareWrite
  exact ranged_ok (ranged_ok (put_ok h0 h1) h2) h3

theorem wCph_ok {a0 : Who} {a1 : Nat} {a2 : Nat} {a3 : Nat} {a4 : State} (h4 : Keeps s0 a4) : KeepsO s0 (wCph a0 a1 a2
    a3 a4) := by
  unfold wCph
  refine ite_of (Q := KeepsO s0) (wKey_ok h4) ?_
  refine ite_of (Q := KeepsO s0) (KeepsO.some h4) ?_
  split
  · exact KeepsO.some (ran_ok h4 (execLaneCfgWrite_ok h4))
  · exact KeepsO.some (shareWrite_ok h4 rfl rfl rfl)
  · exact KeepsO.some (Keeps.ite (shareWrite_ok h4 rfl rfl rfl) h4)
  · refine KeepsO.some ?_
    split
    · exact ran_ok h4 (execSaWrite_ok h4)
    · exact ran_ok h4 (execSaInvalidate_ok h4)
    · exact ran_ok h4 (execSaRead_ok h4)
    · exact h4
  · exact KeepsO.some (ran_ok h4 (execPageOwnerWrite_ok h4))
  · exact KeepsO.none

theorem wOfl_ok {a0 : Who} {a1 : Nat} {a2 : Nat} {a3 : Nat} {a4 : State} (h4 : Keeps s0 a4) : KeepsO s0 (wOfl a0 a1 a2
    a3 a4) := by
  unfold wOfl
  refine ite_of (Q := KeepsO s0) (KeepsO.some h4) ?_
  split
  · refine KeepsO.some ?_
    split
    · exact ran_ok h4 (execTmplWrite_ok h4)
    · exact ran_ok h4 (execTmplRead_ok h4)
    · exact h4
  · refine KeepsO.some ?_
    split
    · exact ran_ok h4 (execNvcWrite_ok h4)
    · exact ran_ok h4 (execNvcRead_ok h4)
    · exact h4
  · exact KeepsO.some (ran_ok h4 (execOflEvqPop_ok h4))
  · lift_lets -underBinder +implicits
    intro x2
    have hx2 : Keeps s0 x2 := genWrite_ok h4 (by decide)
    clear_value x2
    exact ite_of (Q := KeepsO s0) (KeepsO.some h4) (KeepsO.some (ranged_ok (ranged_ok hx2 rfl) rfl))
  · exact KeepsO.none

theorem chOwnerWrite_ok {a0 : State} {a1 : Who} {a2 : Nat} {a3 : Nat} (h0 : Keeps s0 a0) : Keeps s0
    (State.chOwnerWrite a0 a1 a2 a3) := by
  unfold State.chOwnerWrite
  lift_lets -underBinder +implicits
  intro x0
  intro x1
  intro x2
  exact Keeps.ite h0 (put_ok (put_ok (set_ok h0 rfl) rfl) rfl)

theorem chCmd_ok {a0 : State} {a1 : Who} {a2 : Nat} {a3 : Nat} (h0 : Keeps s0 a0) : Keeps s0 (State.chCmd a0 a1 a2 a3)
    := by
  unfold State.chCmd
  lift_lets -underBinder +implicits
  intro x0
  have hx0 : Keeps s0 x0 := Keeps.ite (ran_ok h0 (execDmaStop_ok h0)) h0
  clear_value x0
  intro x1
  have hx1 : Keeps s0 x1 := Keeps.ite (ran_ok hx0 (execEos_ok hx0)) hx0
  clear_value x1
  exact Keeps.ite (ran_ok hx1 (execChannelStart_ok hx1)) hx1

theorem wDma_ok {a0 : Who} {a1 : Nat} {a2 : Nat} {a3 : Nat} {a4 : State} (h4 : Keeps s0 a4) : KeepsO s0 (wDma a0 a1 a2
    a3 a4) := by
  unfold wDma
  refine ite_of (Q := KeepsO s0) (KeepsO.some h4) ?_
  split
  · exact KeepsO.some (Keeps.ite h4 (ranged_ok (ranged_ok h4 rfl) rfl))
  · exact KeepsO.some (chOwnerWrite_ok h4)
  · exact KeepsO.some (chCmd_ok h4)
  · exact KeepsO.some (Keeps.ite (ran_ok h4 (execShadowArm_ok h4)) h4)
  · exact KeepsO.some (ran_ok h4 (execFifoPush_ok h4))
  · exact ite_of (Q := KeepsO s0) KeepsO.none (ite_of (Q := KeepsO s0) (KeepsO.some h4) (ite_of (Q := KeepsO s0)
      (ite_of (Q := KeepsO s0) (ite_of (Q := KeepsO s0) (KeepsO.some (set_ok h4 rfl)) KeepsO.none) (KeepsO.some
      (put_ok h4 rfl))) (ite_of (Q := KeepsO s0) (KeepsO.some (set_ok (genWrite_ok h4 shadowFlds_safe) rfl))
      KeepsO.none)))

end Sys2Proof.Laws
end

