-- ==== Sys2Proof/Laws/KeepsFault.lean ====
section
/-! SUPPORT. Sys2Proof/Laws/KeepsFault.lean: `Keeps` of each operation of Machine/Fault.lean. -/

namespace Sys2Proof.Laws

open Sys2Proof.Machine

variable {s0 : Base}

theorem execPgTimeout_ok {a0 : Nat} {a1 : State} (h1 : Keeps s0 a1) : KeepsR s0 (execPgTimeout a0 a1) := by
  unfold execPgTimeout
  lift_lets -underBinder +implicits
  intro x0
  have hx0 : Keeps s0 x0 := slotSeq_ok (put_ok (put_ok h1 rfl) rfl)
  clear_value x0
  exact ite_of (Q := KeepsR s0) (KeepsR.next (detect_ok hx0)) (KeepsR.next h1)

theorem execSlotFault_ok {a0 : Nat} {a1 : Bool} {a2 : State} (h2 : Keeps s0 a2) : KeepsR s0 (execSlotFault a0 a1 a2)
    := by
  unfold execSlotFault
  lift_lets -underBinder +implicits
  intro x0
  intro x1
  have hx1 : Keeps s0 x1 := put_ok h2 rfl
  clear_value x1
  intro x2
  have hx2 : Keeps s0 x2 := detect_ok (slotHit_ok (put_ok hx1 rfl))
  clear_value x2
  exact ite_of (Q := KeepsR s0) (KeepsR.next h2) (ite_of (Q := KeepsR s0) (ite_of (Q := KeepsR s0) (KeepsR.next
      (slotFaulted_ok hx2)) (KeepsR.next hx2)) (KeepsR.next hx1))

theorem execFaultDetection_ok {a0 : Nat} {a1 : Nat} {a2 : Bool} {a3 : State} (h3 : Keeps s0 a3) : KeepsR s0
    (execFaultDetection a0 a1 a2 a3) := by
  unfold execFaultDetection
  lift_lets -underBinder +implicits
  intro x0
  have hx0 : Keeps s0 x0 := Keeps.ite (put_ok h3 rfl) h3
  clear_value x0
  exact ite_of (Q := KeepsR s0) (KeepsR.next h3) (KeepsR.next (detect_ok hx0))

theorem unquar_ok {a0 : State} {a1 : Nat → Bool} (h0 : Keeps s0 a0) : Keeps s0 (State.unquar a0 a1) := by
  unfold State.unquar
  exact forEach_ok h0 (fun a0 t1 ht1 => set_ok (put_ok ht1 rfl) rfl)

theorem lift_ok {a0 : State} {a1 : Nat} (h0 : Keeps s0 a0) : Keeps s0 (State.lift a0 a1) := by
  unfold State.lift
  split
  · exact unquar_ok h0
  · lift_lets -underBinder +implicits
    intro x0
    exact forEach_ok (unquar_ok h0) (fun a1 t2 ht2 => put_ok ht2 rfl)
  · exact put_ok h0 rfl
  · exact put_ok h0 rfl
  · exact h0

theorem execActiveClear_ok {a0 : Who} {a1 : Nat} {a2 : Bool} {a3 : State} (h3 : Keeps s0 a3) : KeepsR s0
    (execActiveClear a0 a1 a2 a3) := by
  unfold execActiveClear
  lift_lets -underBinder +implicits
  intro x0
  have hx0 : Keeps s0 x0 := lift_ok h3
  clear_value x0
  intro x1
  intro x2
  have hx2 : Keeps s0 x2 := put_ok (put_ok hx0 rfl) rfl
  clear_value x2
  exact ite_of (Q := KeepsR s0) (KeepsR.next h3) (ite_of (Q := KeepsR s0) (KeepsR.next (set_ok h3 rfl)) (KeepsR.next
      (set_ok hx2 rfl)))

theorem execFaultInject_ok {a0 : Who} {a1 : Nat} {a2 : Nat} {a3 : State} (h3 : Keeps s0 a3) : KeepsR s0
    (execFaultInject a0 a1 a2 a3) := by
  unfold execFaultInject
  exact ite_of (Q := KeepsR s0) (KeepsR.next h3) (ite_of (Q := KeepsR s0) (KeepsR.next (detect_ok h3)) (KeepsR.next
      (put_ok h3 rfl)))

theorem execLogPop_ok {a0 : Who} {a1 : State} (h1 : Keeps s0 a1) : KeepsR s0 (execLogPop a0 a1) := by
  unfold execLogPop
  exact ite_of (Q := KeepsR s0) (KeepsR.next (Keeps.other h1 rfl rfl rfl rfl)) (KeepsR.next h1)

theorem execRailWarning_ok {a0 : Nat} {a1 : State} (h1 : Keeps s0 a1) : KeepsR s0 (execRailWarning a0 a1) := by
  unfold execRailWarning
  exact ite_of (Q := KeepsR s0) (KeepsR.next h1) (KeepsR.next (detect_ok (set_ok h1 rfl)))

theorem execRailUndervoltage_ok {a0 : Nat} {a1 : State} (h1 : Keeps s0 a1) : KeepsR s0 (execRailUndervoltage a0 a1) :=
    by
  unfold execRailUndervoltage
  lift_lets -underBinder +implicits
  intro x0
  have hx0 : Keeps s0 x0 := set_ok h1 rfl
  clear_value x0
  intro x1
  have hx1 : Keeps s0 x1 := put_ok (set_ok hx0 rfl) rfl
  clear_value x1
  exact ite_of (Q := KeepsR s0) (KeepsR.next h1) (KeepsR.next (detect_ok hx1))

end Sys2Proof.Laws
end

