-- ==== Sys2Proof/Laws/KeepsFunc.lean ====
section
/-! SUPPORT. Sys2Proof/Laws/KeepsFunc.lean: `Keeps` of each operation of Machine/Func.lean. -/

namespace Sys2Proof.Laws

open Sys2Proof.Machine

variable {s0 : Base}

theorem execFlr_ok {a0 : Nat} {a1 : State} (h1 : Keeps s0 a1) : KeepsR s0 (execFlr a0 a1) := by
  unfold execFlr
  exact ite_of (Q := KeepsR s0) (KeepsR.next (flr_ok h1)) (KeepsR.next h1)

theorem vfsLeave_ok {a0 : State} {a1 : Nat} (h0 : Keeps s0 a0) : Keeps s0 (State.vfsLeave a0 a1) := by
  unfold State.vfsLeave
  lift_lets -underBinder +implicits
  intro x0
  exact Keeps.ite (forEach_ok h0 (fun a1 t2 ht2 => fnLeave_ok ht2)) h0

theorem execFlrQuiesceDone_ok {a0 : Nat} {a1 : State} (h1 : Keeps s0 a1) : KeepsR s0 (execFlrQuiesceDone a0 a1) := by
  unfold execFlrQuiesceDone
  lift_lets -underBinder +implicits
  intro x0
  have hx0 : Keeps s0 x0 := forEach_ok h1 (fun a1 t2 ht2 => Keeps.ite ht2 (disableNow_ok (put_ok ht2 rfl)))
  clear_value x0
  exact ite_of (Q := KeepsR s0) (KeepsR.next h1) (ite_of (Q := KeepsR s0) (KeepsR.next (vfsLeave_ok hx0)) (KeepsR.next
      (fnLeave_ok hx0)))

theorem execVfEnable_ok {a0 : Nat} {a1 : State} (h1 : Keeps s0 a1) : KeepsR s0 (execVfEnable a0 a1) := by
  unfold execVfEnable
  exact ite_of (Q := KeepsR s0) (KeepsR.next (vfOn_ok h1)) (KeepsR.next h1)

theorem execVfDisable_ok {a0 : Nat} {a1 : State} (h1 : Keeps s0 a1) : KeepsR s0 (execVfDisable a0 a1) := by
  unfold execVfDisable
  exact ite_of (Q := KeepsR s0) (KeepsR.next (vfOff_ok h1)) (KeepsR.next h1)

theorem execVmodWrite_ok {a0 : Who} {a1 : Nat} {a2 : Nat} {a3 : State} (h3 : Keeps s0 a3) : KeepsR s0 (execVmodWrite
    a0 a1 a2 a3) := by
  unfold execVmodWrite
  lift_lets -underBinder +implicits
  intro x0
  intro x1
  intro x2
  intro x3
  intro x4
  intro x5
  intro x6
  have hx6 : Keeps s0 x6 := set_ok (set_ok h3 rfl) rfl
  clear_value x6
  exact ite_of (Q := KeepsR s0) (KeepsR.next h3) (ite_of (Q := KeepsR s0) (KeepsR.next hx6) (ite_of (Q := KeepsR s0)
      (KeepsR.next (sendVec_ok (put_ok (set_ok hx6 rfl) rfl))) (KeepsR.next (vmodStart_ok hx6))))

theorem execVmodTimer_ok {a0 : Nat} {a1 : Nat} {a2 : State} (h2 : Keeps s0 a2) : KeepsR s0 (execVmodTimer a0 a1 a2) :=
    by
  unfold execVmodTimer
  lift_lets -underBinder +implicits
  intro x0
  exact ite_of (Q := KeepsR s0) (KeepsR.next (sendVec_ok (put_ok (set_ok h2 rfl) rfl))) (KeepsR.next h2)

theorem execFreeze_ok {a0 : Who} {a1 : Nat} {a2 : Nat} {a3 : State} (h3 : Keeps s0 a3) : KeepsR s0 (execFreeze a0 a1
    a2 a3) := by
  unfold execFreeze
  split
  · exact KeepsR.next h3
  · lift_lets -underBinder +implicits
    intro x1
    have hx1 : Keeps s0 x1 := migSeen_ok h3
    clear_value x1
    intro x2
    intro x3
    have hx3 : Keeps s0 x3 := set_mode (migBegin_ok hx1) (fun _ => by decide)
    clear_value x3
    exact ite_of (Q := KeepsR s0) (KeepsR.next h3) (ite_of (Q := KeepsR s0) (KeepsR.next (set_ok (set_ok hx1 rfl)
        rfl)) (KeepsR.next (forEach_ok hx3 (fun a4 t5 ht5 => freezeQueue_ok ht5))))

theorem execFreezeWorkDone_ok {a0 : Nat} {a1 : State} (h1 : Keeps s0 a1) : KeepsR s0 (execFreezeWorkDone a0 a1) := by
  unfold execFreezeWorkDone
  lift_lets -underBinder +implicits
  intro x0
  intro x1
  intro x2
  have hx2 : Keeps s0 x2 := forEach_ok h1 (fun a3 t4 ht4 => freezeDone_ok ht4)
  clear_value x2
  refine ite_of (Q := KeepsR s0) (KeepsR.next h1) ?_
  split
  · exact KeepsR.next (migEnd_ok hx2)
  · lift_lets -underBinder +implicits
    intro x6
    intro x7
    intro x8
    have hx8 : Keeps s0 x8 := set_ok (hostWrite_ok hx2) rfl
    clear_value x8
    exact KeepsR.next (set_ok (set_ok (hostRead_ok hx8) rfl) rfl)

theorem execFreezeImageDone_ok {a0 : Nat} {a1 : ReadResult} {a2 : State} (h2 : Keeps s0 a2) : KeepsR s0
    (execFreezeImageDone a0 a1 a2) := by
  unfold execFreezeImageDone
  lift_lets -underBinder +implicits
  intro x0
  refine ite_of (Q := KeepsR s0) (KeepsR.next h2) ?_
  split
  · exact KeepsR.next (migEnd_ok (set_mode h2 (fun _ => by decide)))
  · exact KeepsR.next (migEnd_ok (aer_ok h2))

theorem migCancel_ok {a0 : State} {a1 : Nat} (h0 : Keeps s0 a0) : Keeps s0 (State.migCancel a0 a1) := by
  unfold State.migCancel
  exact forEach_ok h0 (fun a0 t1 ht1 => Keeps.ite (migEnd_ok ht1) ht1)

theorem execCancel_ok {a0 : Who} {a1 : Nat} {a2 : Nat} {a3 : State} (h3 : Keeps s0 a3) : KeepsR s0 (execCancel a0 a1
    a2 a3) := by
  unfold execCancel
  split
  · exact KeepsR.next h3
  · lift_lets -underBinder +implicits
    intro x1
    have hx1 : Keeps s0 x1 := migSeen_ok h3
    clear_value x1
    intro x2
    have hx2 : Keeps s0 x2 := set_ok (set_mode (migCancel_ok hx1) (fun _ => by decide)) rfl
    clear_value x2
    intro x3
    have hx3 : Keeps s0 x3 := forEach_ok hx2 (fun a4 t5 ht5 => Keeps.ite (thawQueue_ok ht5) (Keeps.ite (dueAt_ok ht5)
        ht5))
    clear_value x3
    exact ite_of (Q := KeepsR s0) (KeepsR.next h3) (ite_of (Q := KeepsR s0) (KeepsR.next (set_ok hx1 rfl)) (ite_of (Q
        := KeepsR s0) (KeepsR.next (set_ok (set_ok hx1 rfl) rfl)) (ite_of (Q := KeepsR s0) (KeepsR.next (set_ok
        (set_ok hx1 rfl) rfl)) (KeepsR.next (releaseVecs_ok hx3)))))

theorem execThaw_ok {a0 : Who} {a1 : Nat} {a2 : Nat} {a3 : ReadResult} {a4 : State} (h4 : Keeps s0 a4) : KeepsR s0
    (execThaw a0 a1 a2 a3 a4) := by
  unfold execThaw
  split
  · exact KeepsR.next h4
  · lift_lets -underBinder +implicits
    intro x1
    have hx1 : Keeps s0 x1 := migSeen_ok h4
    clear_value x1
    intro x2
    refine ite_of (Q := KeepsR s0) (KeepsR.next h4) ?_
    refine ite_of (Q := KeepsR s0) (KeepsR.next (set_ok h4 rfl)) ?_
    refine ite_of (Q := KeepsR s0) (KeepsR.next (set_ok (set_ok hx1 rfl) rfl)) ?_
    split
    · lift_lets -underBinder +implicits
      intro x4
      intro x5
      have hx5 : Keeps s0 x5 := hostRead_ok hx1
      clear_value x5
      intro x6
      intro x7
      have hx7 : Keeps s0 x7 := set_ok (set_mode (migBegin_ok hx5) (fun _ => by decide)) rfl
      clear_value x7
      exact ite_of (Q := KeepsR s0) (KeepsR.next (set_ok (set_ok hx5 rfl) rfl)) (KeepsR.next (Keeps.other hx7 rfl rfl
          rfl rfl))
    · lift_lets -underBinder +implicits
      intro x9
      have hx9 : Keeps s0 x9 := aer_ok (hostRead_ok hx1)
      clear_value x9
      exact KeepsR.next (set_ok (set_ok hx9 rfl) rfl)

theorem execThawDone_ok {a0 : Nat} {a1 : State} (h1 : Keeps s0 a1) : KeepsR s0 (execThawDone a0 a1) := by
  unfold execThawDone
  lift_lets -underBinder +implicits
  intro x0
  split
  · exact ite_of (Q := KeepsR s0) (KeepsR.next (set_mode (migEnd_ok h1) (fun _ => by decide))) (KeepsR.next h1)
  · lift_lets -underBinder +implicits
    intro x2
    have hx2 : Keeps s0 x2 := set_mode h1 (fun _ => by decide)
    clear_value x2
    refine ite_of (Q := KeepsR s0) (KeepsR.next h1) ?_
    split
    · next m3 m4 heq =>
      have hm4 : Keeps s0 m4 := by
        refine KeepsS.eq heq ?_
        exact install_ok hx2
      exact KeepsR.next (releaseVecs_ok (put_ok (migEnd_ok hm4) rfl))

theorem execHarvest_ok {a0 : Who} {a1 : Nat} {a2 : State} (h2 : Keeps s0 a2) : KeepsR s0 (execHarvest a0 a1 a2) := by
  unfold execHarvest
  exact ite_of (Q := KeepsR s0) (KeepsR.next (harvest_ok h2)) (KeepsR.next h2)

theorem execHarvestDone_ok {a0 : Nat} {a1 : ReadResult} {a2 : State} (h2 : Keeps s0 a2) : KeepsR s0 (execHarvestDone
    a0 a1 a2) := by
  unfold execHarvestDone
  lift_lets -underBinder +implicits
  intro x0
  have hx0 : Keeps s0 x0 := put_ok h2 rfl
  clear_value x0
  refine ite_of (Q := KeepsR s0) ?_ (KeepsR.next h2)
  split
  · exact KeepsR.next hx0
  · exact KeepsR.next (aer_ok hx0)

end Sys2Proof.Laws
end

