-- ==== Sys2Proof/Laws/KeepsMbx.lean ====
section
/-! SUPPORT. Sys2Proof/Laws/KeepsMbx.lean: `Keeps` of each operation of Machine/Mbx.lean. -/

namespace Sys2Proof.Laws

open Sys2Proof.Machine

variable {s0 : Base}

theorem execMbxCommit_ok {a0 : Who} {a1 : Nat} {a2 : Nat} {a3 : State} (h3 : Keeps s0 a3) : KeepsR s0 (execMbxCommit
    a0 a1 a2 a3) := by
  unfold execMbxCommit
  lift_lets -underBinder +implicits
  intro x0
  exact ite_of (Q := KeepsR s0) (KeepsR.next h3) (ite_of (Q := KeepsR s0) (KeepsR.next (mbxIgnore_ok h3)) (ite_of (Q
      := KeepsR s0) (KeepsR.next (put_ok (pmu_ok h3) rfl)) (ite_of (Q := KeepsR s0) (KeepsR.next (put_ok (pmu_ok h3)
      rfl)) (KeepsR.next (mbxTake_ok h3)))))

theorem rxPopRead_ok {a0 : State} {a1 : Who} {a2 : Nat} (h0 : Keeps s0 a0) : KeepsF s0 (State.rxPopRead a0 a1 a2) := by
  unfold State.rxPopRead
  exact ite_of (Q := KeepsF s0) (KeepsF.of (mbxPop_ok h0)) (KeepsF.of h0)

theorem execMbxChRxPop_ok {a0 : Who} {a1 : Nat} {a2 : State} (h2 : Keeps s0 a2) : KeepsR s0 (execMbxChRxPop a0 a1 a2)
    := by
  unfold execMbxChRxPop
  exact KeepsR.next (answer_ok h2 (rxPopRead_ok h2))

theorem lockReadBy_ok {a0 : State} {a1 : Who} {a2 : Nat} (h0 : Keeps s0 a0) : KeepsF s0 (State.lockReadBy a0 a1 a2) :=
    by
  unfold State.lockReadBy
  lift_lets -underBinder +implicits
  intro x0
  have hx0 : KeepsS s0 x0 := lockRead_ok h0
  clear_value x0
  exact ite_of (Q := KeepsF s0) (KeepsF.of (KeepsS.to hx0)) (KeepsF.of h0)

theorem execMbxLock_ok {a0 : Who} {a1 : Nat} {a2 : State} (h2 : Keeps s0 a2) : KeepsR s0 (execMbxLock a0 a1 a2) := by
  unfold execMbxLock
  exact KeepsR.next (answer_ok h2 (lockReadBy_ok h2))

theorem execMbxUnlock_ok {a0 : Who} {a1 : Nat} {a2 : Nat} {a3 : State} (h3 : Keeps s0 a3) : KeepsR s0 (execMbxUnlock
    a0 a1 a2 a3) := by
  unfold execMbxUnlock
  lift_lets -underBinder +implicits
  intro x0
  intro x1
  exact ite_of (Q := KeepsR s0) (KeepsR.next h3) (ite_of (Q := KeepsR s0) (KeepsR.next (lockFree_ok h3)) (KeepsR.next
      (mbxIgnore_ok h3)))

theorem execMbxCfgWrite_ok {a0 : Who} {a1 : Nat} {a2 : Bool} {a3 : Nat} {a4 : State} (h4 : Keeps s0 a4) : KeepsR s0
    (execMbxCfgWrite a0 a1 a2 a3 a4) := by
  unfold execMbxCfgWrite
  lift_lets -underBinder +implicits
  intro x0
  exact ite_of (Q := KeepsR s0) (KeepsR.next h4) (ite_of (Q := KeepsR s0) (KeepsR.next (put_ok h4 rfl)) (ite_of (Q :=
      KeepsR s0) (KeepsR.next (set_ok (put_ok h4 rfl) rfl)) (KeepsR.next (set_ok (put_ok (set_ok h4 rfl) rfl) rfl))))

theorem shellPost_ok {a0 : State} {a1 : Nat} {a2 : Nat} {a3 : Nat} {a4 : List Nat} (h0 : Keeps s0 a0) : Keeps s0
    (State.shellPost a0 a1 a2 a3 a4) := by
  unfold State.shellPost
  lift_lets -underBinder +implicits
  intro x0
  have hx0 : KeepsS s0 x0 := mbxPost_ok h0
  clear_value x0
  exact sendMbx_ok (KeepsS.to hx0)

theorem shellPop_ok {a0 : State} {a1 : Nat} {a2 : Nat} {a3 : Nat} (h0 : Keeps s0 a0) : Keeps s0 (State.shellPop a0 a1
    a2 a3) := by
  unfold State.shellPop
  exact Keeps.ite (mbxPop_ok h0) h0

theorem shellLock_ok {a0 : State} {a1 : Nat} {a2 : Nat} (h0 : Keeps s0 a0) : Keeps s0 (State.shellLock a0 a1 a2) := by
  unfold State.shellLock
  lift_lets -underBinder +implicits
  intro x0
  have hx0 : KeepsS s0 x0 := lockRead_ok h0
  clear_value x0
  exact Keeps.ite (sendMbx_ok (KeepsS.to hx0)) (lcnt_ok h0)

theorem shellUnlock_ok {a0 : State} {a1 : Nat} {a2 : Nat} (h0 : Keeps s0 a0) : Keeps s0 (State.shellUnlock a0 a1 a2)
    := by
  unfold State.shellUnlock
  exact Keeps.ite (Keeps.ite (lockFree_ok h0) (mbxIgnore_ok h0)) (lcnt_ok h0)

theorem execPost_ok {a0 : Nat} {a1 : Nat} {a2 : Nat} {a3 : List Nat} {a4 : State} (h4 : Keeps s0 a4) : KeepsR s0
    (execPost a0 a1 a2 a3 a4) := by
  unfold execPost
  exact ite_of (Q := KeepsR s0) (KeepsR.next (shellPost_ok (lcnt_ok h4))) (KeepsR.next h4)

theorem execPop_ok {a0 : Nat} {a1 : Nat} {a2 : Nat} {a3 : State} (h3 : Keeps s0 a3) : KeepsR s0 (execPop a0 a1 a2 a3)
    := by
  unfold execPop
  exact ite_of (Q := KeepsR s0) (KeepsR.next (shellPop_ok (lcnt_ok h3))) (KeepsR.next h3)

theorem execLock_ok {a0 : Nat} {a1 : Nat} {a2 : State} (h2 : Keeps s0 a2) : KeepsR s0 (execLock a0 a1 a2) := by
  unfold execLock
  exact ite_of (Q := KeepsR s0) (KeepsR.next (shellLock_ok (lcnt_ok h2))) (KeepsR.next h2)

theorem execUnlock_ok {a0 : Nat} {a1 : Nat} {a2 : State} (h2 : Keeps s0 a2) : KeepsR s0 (execUnlock a0 a1 a2) := by
  unfold execUnlock
  exact ite_of (Q := KeepsR s0) (KeepsR.next (shellUnlock_ok (lcnt_ok h2))) (KeepsR.next h2)

theorem shellMbx_ok {a0 : State} {a1 : Nat} {a2 : Nat} {a3 : List Byte} (h0 : Keeps s0 a0) : Keeps s0 (State.shellMbx
    a0 a1 a2 a3) := by
  unfold State.shellMbx
  lift_lets -underBinder +implicits
  intro x0
  intro x1
  exact Keeps.ite (shellPost_ok h0) (Keeps.ite (shellPop_ok h0) (Keeps.ite (shellLock_ok h0) (Keeps.ite
      (shellUnlock_ok h0) (lcnt_ok h0))))

theorem execUpCommit_ok {a0 : Who} {a1 : Nat} {a2 : Nat} {a3 : State} (h3 : Keeps s0 a3) : KeepsR s0 (execUpCommit a0
    a1 a2 a3) := by
  unfold execUpCommit
  lift_lets -underBinder +implicits
  intro x0
  intro x1
  have hx1 : Keeps s0 x1 := set_ok (copyWords_ok h3 rfl rfl) rfl
  clear_value x1
  exact ite_of (Q := KeepsR s0) (KeepsR.next h3) (ite_of (Q := KeepsR s0) (KeepsR.next (mbxIgnore_ok h3)) (ite_of (Q
      := KeepsR s0) (KeepsR.next (put_ok (pmu_ok h3) rfl)) (ite_of (Q := KeepsR s0) (KeepsR.next (pmu_ok h3))
      (KeepsR.next (pvUpRing_ok (pvPend_ok (put_ok (put_ok (pmu_ok hx1) rfl) rfl)))))))

theorem execDnCommit_ok {a0 : Who} {a1 : Nat} {a2 : Nat} {a3 : State} (h3 : Keeps s0 a3) : KeepsR s0 (execDnCommit a0
    a1 a2 a3) := by
  unfold execDnCommit
  lift_lets -underBinder +implicits
  intro x0
  intro x1
  have hx1 : Keeps s0 x1 := set_ok (copyWords_ok h3 rfl rfl) rfl
  clear_value x1
  exact ite_of (Q := KeepsR s0) (KeepsR.next h3) (ite_of (Q := KeepsR s0) (KeepsR.next (mbxIgnore_ok h3)) (ite_of (Q
      := KeepsR s0) (KeepsR.next (put_ok (pmu_ok h3) rfl)) (ite_of (Q := KeepsR s0) (KeepsR.next (pmu_ok h3))
      (KeepsR.next (pvDnRing_ok (put_ok (put_ok (pmu_ok hx1) rfl) rfl))))))

theorem upPopRead_ok {a0 : State} {a1 : Who} {a2 : Nat} (h0 : Keeps s0 a0) : KeepsF s0 (State.upPopRead a0 a1 a2) := by
  unfold State.upPopRead
  exact ite_of (Q := KeepsF s0) (KeepsF.of (pmu_ok (pvUpEmpty_ok h0))) (KeepsF.of h0)

theorem dnPopRead_ok {a0 : State} {a1 : Who} {a2 : Nat} (h0 : Keeps s0 a0) : KeepsF s0 (State.dnPopRead a0 a1 a2) := by
  unfold State.dnPopRead
  exact ite_of (Q := KeepsF s0) (KeepsF.of (pmu_ok (pvDnEmpty_ok h0))) (KeepsF.of h0)

theorem execUpPop_ok {a0 : Who} {a1 : Nat} {a2 : State} (h2 : Keeps s0 a2) : KeepsR s0 (execUpPop a0 a1 a2) := by
  unfold execUpPop
  exact KeepsR.next (answer_ok h2 (upPopRead_ok h2))

theorem execDnPop_ok {a0 : Who} {a1 : Nat} {a2 : State} (h2 : Keeps s0 a2) : KeepsR s0 (execDnPop a0 a1 a2) := by
  unfold execDnPop
  exact KeepsR.next (answer_ok h2 (dnPopRead_ok h2))

theorem execMbxPost_ok {a0 : Nat} {a1 : List Nat} {a2 : State} (h2 : Keeps s0 a2) : KeepsR s0 (execMbxPost a0 a1 a2)
    := by
  unfold execMbxPost
  lift_lets -underBinder +implicits
  intro x0
  have hx0 : KeepsS s0 x0 := mbxPost_ok h2
  clear_value x0
  exact ite_of (Q := KeepsR s0) (KeepsR.next h2) (ite_of (Q := KeepsR s0) (KeepsR.next (emit_ok h2 rfl)) (KeepsR.next
      (emit_ok (KeepsS.to hx0) rfl)))

theorem execSetEndpointId_ok {a0 : Nat} {a1 : Nat} {a2 : State} (h2 : Keeps s0 a2) : KeepsR s0 (execSetEndpointId a0
    a1 a2) := by
  unfold execSetEndpointId
  exact ite_of (Q := KeepsR s0) (KeepsR.next h2) (ite_of (Q := KeepsR s0) (KeepsR.next (emit_ok h2 rfl)) (KeepsR.next
      (emit_ok (mbxReset_ok (set_ok h2 rfl)) rfl)))

theorem execGetEndpointId_ok {a0 : State} (h0 : Keeps s0 a0) : KeepsR s0 (execGetEndpointId a0) := by
  unfold execGetEndpointId
  exact ite_of (Q := KeepsR s0) (KeepsR.next h0) (KeepsR.next (emit_ok h0 rfl))

theorem execGetMctpVersionSupport_ok {a0 : Nat} {a1 : State} (h1 : Keeps s0 a1) : KeepsR s0 (execGetMctpVersionSupport
    a0 a1) := by
  unfold execGetMctpVersionSupport
  exact ite_of (Q := KeepsR s0) (KeepsR.next h1) (ite_of (Q := KeepsR s0) (KeepsR.next (emit_ok h1 rfl)) (KeepsR.next
      (emit_ok h1 rfl)))

theorem execGetMessageTypeSupport_ok {a0 : State} (h0 : Keeps s0 a0) : KeepsR s0 (execGetMessageTypeSupport a0) := by
  unfold execGetMessageTypeSupport
  exact ite_of (Q := KeepsR s0) (KeepsR.next h0) (KeepsR.next (emit_ok h0 rfl))

theorem execGetVendorDefinedMessageSupport_ok {a0 : Nat} {a1 : State} (h1 : Keeps s0 a1) : KeepsR s0
    (execGetVendorDefinedMessageSupport a0 a1) := by
  unfold execGetVendorDefinedMessageSupport
  exact ite_of (Q := KeepsR s0) (KeepsR.next h1) (ite_of (Q := KeepsR s0) (KeepsR.next (emit_ok h1 rfl)) (KeepsR.next
      (emit_ok h1 rfl)))

theorem execWinCfgWrite_ok {a0 : Who} {a1 : Nat} {a2 : Nat} {a3 : Nat} {a4 : State} (h4 : Keeps s0 a4) : KeepsR s0
    (execWinCfgWrite a0 a1 a2 a3 a4) := by
  unfold execWinCfgWrite
  lift_lets -underBinder +implicits
  intro x0
  intro x1
  have hx1 : Keeps s0 x1 := Keeps.ite (put_ok h4 rfl) h4
  clear_value x1
  intro x2
  intro x3
  intro x4
  intro x5
  intro x6
  have hx6 : Keeps s0 x6 := set_ok (set_ok (set_ok (set_ok hx1 rfl) rfl) rfl) rfl
  clear_value x6
  exact ite_of (Q := KeepsR s0) (KeepsR.next h4) (ite_of (Q := KeepsR s0) (ite_of (Q := KeepsR s0) (KeepsR.next
      (put_ok (put_ok hx1 rfl) rfl)) (KeepsR.next (put_ok hx1 rfl))) (ite_of (Q := KeepsR s0) (KeepsR.next (put_ok hx1
      rfl)) (KeepsR.next (Keeps.ite (set_ok (put_ok hx6 rfl) rfl) hx6))))

end Sys2Proof.Laws
end

