-- ==== Sys2Proof/Laws/KeepsPmuOps.lean ====
section
/-! SUPPORT. Sys2Proof/Laws/KeepsPmuOps.lean: `Keeps` of each operation of Machine/PmuOps.lean. -/

namespace Sys2Proof.Laws

open Sys2Proof.Machine

variable {s0 : Base}

theorem strobe_ok {a0 : State} {a1 : Nat} (h0 : Keeps s0 a0) : Keeps s0 (State.strobe a0 a1) := by
  unfold State.strobe
  lift_lets -underBinder +implicits
  intro x0
  have hx0 : Keeps s0 x0 := set_ok (put_ok (inc_ok (set_ok h0 rfl) rfl) rfl) rfl
  clear_value x0
  intro x1
  intro x2
  have hx2 : Keeps s0 x2 := put_ok (set_ok hx0 rfl) rfl
  clear_value x2
  exact Keeps.ite h0 (Keeps.ite h0 (Keeps.ite (set_ok (inc_ok h0 rfl) rfl) (Keeps.other hx2 rfl rfl rfl rfl)))

theorem startPeriod_ok {a0 : State} (h0 : Keeps s0 a0) : Keeps s0 (State.startPeriod a0) := by
  unfold State.startPeriod
  lift_lets -underBinder +implicits
  intro x0
  exact set_ok (set_ok (set_ok h0 rfl) rfl) rfl

theorem halfDone_ok {a0 : State} {a1 : Nat} (h0 : Keeps s0 a0) : Keeps s0 (State.halfDone a0 a1) := by
  unfold State.halfDone
  lift_lets -underBinder +implicits
  intro x0
  have hx0 : Keeps s0 x0 := Keeps.ite (set_ok h0 rfl) h0
  clear_value x0
  intro x1
  have hx1 : Keeps s0 x1 := put_ok hx0 rfl
  clear_value x1
  exact Keeps.other hx1 rfl rfl rfl rfl

theorem pmuPayload_ok {a0 : State} {a1 : Nat} (h0 : Keeps s0 a0) : KeepsOS s0 (State.pmuPayload a0 a1) := by
  unfold State.pmuPayload
  lift_lets -underBinder +implicits
  intro x0
  intro x1
  intro x2
  have hx2 : Keeps s0 x2 := Keeps.ite (put_ok h0 rfl) h0
  clear_value x2
  refine ite_of (Q := KeepsOS s0) (KeepsOS.some (KeepsS.of (Keeps.other hx2 rfl rfl rfl rfl))) ?_
  split
  · exact KeepsOS.none
  · lift_lets -underBinder +implicits
    intro x4
    intro x5
    intro x6
    intro x7
    split
    · exact KeepsOS.some (KeepsS.of (set_ok h0 rfl))
    · exact KeepsOS.some (KeepsS.of (set_ok (halfDone_ok h0) rfl))

theorem winHand_ok {a0 : State} {a1 : Nat} {a2 : Nat} {a3 : List Byte} (h0 : Keeps s0 a0) : Keeps s0 (State.winHand a0
    a1 a2 a3) := by
  unfold State.winHand
  lift_lets -underBinder +implicits
  intro x0
  intro x1
  intro x2
  intro x3
  have hx3 : Keeps s0 x3 := hostWrite_ok (hostWrite_ok h0)
  clear_value x3
  intro x4
  have hx4 : Keeps s0 x4 := hostWrite_ok hx3
  clear_value x4
  intro x5
  intro x6
  exact set_ok (set_ok hx4 rfl) rfl

theorem winPay_ok {a0 : State} {a1 : Nat} {a2 : List Byte} (h0 : Keeps s0 a0) : KeepsOS s0 (State.winPay a0 a1 a2) := by
  unfold State.winPay
  lift_lets -underBinder +implicits
  intro x0
  split
  · exact ite_of (Q := KeepsOS s0) (pmuPayload_ok h0) KeepsOS.none
  · exact KeepsOS.some (KeepsS.of h0)
  · exact KeepsOS.none

theorem winTake_ok {a0 : State} {a1 : Nat} {a2 : Nat} {a3 : ReadResult} {a4 : List Byte} (h0 : Keeps s0 a0) : Keeps s0
    (State.winTake a0 a1 a2 a3 a4) := by
  unfold State.winTake
  refine Keeps.ite h0 ?_
  split
  · exact h0
  · next m0 m1 heq =>
    have hm1 : Keeps s0 m1 := by
      refine KeepsOS.eq heq ?_
      exact winPay_ok h0
    lift_lets -underBinder +implicits
    intro x2
    have hx2 : ∀ y3, Keeps s0 y3 → Keeps s0 (x2 y3) := by
      intro y3 hy3
      exact hostRead_ok hy3
    clear_value x2
    split
    · exact Keeps.ite (winHand_ok (put_ok (hx2 _ hm1) rfl)) (set_ok (put_ok (inc_ok (hx2 _ h0) rfl) rfl) rfl)
    · exact aer_ok (hx2 _ h0)

end Sys2Proof.Laws
end

