-- ==== Sys2Proof/Laws/KeepsPmu.lean ====
section
/-! SUPPORT. Sys2Proof/Laws/KeepsPmu.lean: `Keeps` of each operation of Machine/Pmu.lean. -/

namespace Sys2Proof.Laws

open Sys2Proof.Machine

variable {s0 : Base}

theorem execSnapGo_ok {a0 : Who} {a1 : State} (h1 : Keeps s0 a1) : KeepsR s0 (execSnapGo a0 a1) := by
  unfold execSnapGo
  exact ite_of (Q := KeepsR s0) (KeepsR.next (strobe_ok h1)) (KeepsR.next h1)

theorem periodic_ok {a0 : State} (h0 : Keeps s0 a0) : Keeps s0 (State.periodic a0) := by
  unfold State.periodic
  lift_lets -underBinder +implicits
  intro x0
  intro x1
  have hx1 : Keeps s0 x1 := Keeps.ite h0 (smpHand_ok h0)
  clear_value x1
  intro x2
  have hx2 : Keeps s0 x2 := set_ok hx1 rfl
  clear_value x2
  exact Keeps.ite (strobe_ok (set_ok hx2 rfl)) h0

theorem execPeriodicStrobe_ok {a0 : State} (h0 : Keeps s0 a0) : KeepsR s0 (execPeriodicStrobe a0) := by
  unfold execPeriodicStrobe
  exact KeepsR.next (periodic_ok h0)

theorem execDumpEnable_ok {a0 : Who} {a1 : Nat} {a2 : State} (h2 : Keeps s0 a2) : KeepsR s0 (execDumpEnable a0 a1 a2)
    := by
  unfold execDumpEnable
  lift_lets -underBinder +implicits
  intro x0
  intro x1
  intro x2
  have hx2 : Keeps s0 x2 := set_ok (set_ok (set_ok h2 rfl) rfl) rfl
  clear_value x2
  exact ite_of (Q := KeepsR s0) (KeepsR.next h2) (ite_of (Q := KeepsR s0) (KeepsR.next (Keeps.ite hx2 (startPeriod_ok
      (set_ok (set_ok (put_ok hx2 rfl) rfl) rfl)))) (KeepsR.next (put_ok h2 rfl)))

theorem execSlotClear_ok {a0 : Who} {a1 : Nat} {a2 : State} (h2 : Keeps s0 a2) : KeepsR s0 (execSlotClear a0 a1 a2) :=
    by
  unfold execSlotClear
  exact ite_of (Q := KeepsR s0) (KeepsR.next h2) (KeepsR.next (forEach_ok h2 (fun a0 t1 ht1 => set_ok (set_ok (set_ok
      (set_ok ht1 rfl) rfl) rfl) rfl)))

theorem execWinBlockTake_ok {a0 : Nat} {a1 : Nat} {a2 : ReadResult} {a3 : List Byte} {a4 : State} (h4 : Keeps s0 a4) :
    KeepsR s0 (execWinBlockTake a0 a1 a2 a3 a4) := by
  unfold execWinBlockTake
  exact ite_of (Q := KeepsR s0) (KeepsR.next h4) (KeepsR.next (winTake_ok h4))

theorem execWinRetry_ok {a0 : Nat} {a1 : Nat} {a2 : ReadResult} {a3 : List Byte} {a4 : State} (h4 : Keeps s0 a4) :
    KeepsR s0 (execWinRetry a0 a1 a2 a3 a4) := by
  unfold execWinRetry
  lift_lets -underBinder +implicits
  intro x0
  exact ite_of (Q := KeepsR s0) (KeepsR.next (winTake_ok h4)) (KeepsR.next h4)

end Sys2Proof.Laws
end

