-- ==== Sys2Proof/Laws/KeepsTwin.lean ====
section
/-! SUPPORT. Sys2Proof/Laws/KeepsTwin.lean: `Keeps` of each operation of Machine/Twin.lean. -/

namespace Sys2Proof.Laws

open Sys2Proof.Machine

variable {s0 : Base}

theorem hello_ok {a0 : State} (h0 : Keeps s0 a0) : Keeps s0 (State.hello a0) := by
  unfold State.hello
  exact twinSend_ok h0

theorem execPair_ok {a0 : Who} {a1 : State} (h1 : Keeps s0 a1) : KeepsR s0 (execPair a0 a1) := by
  unfold execPair
  refine ite_of (Q := KeepsR s0) (KeepsR.next h1) (KeepsR.next (hello_ok ?_))
  refine forEach_mem (P := fun f => Plain f) (set_ok (put_ok (setTwin_ok (set_mode h1 (fun w => ?_)) (fun _ => by
      decide)) rfl) rfl)
    (by decide) (fun _ _ hf ht => set_ok ht hf)
  have h := get_mode (f := Reg.TWN_STATUS_state) (i := 0) (h1.form w) rfl
  simp only [modeOk, show modeMax (Reg.TWN_STATUS_state.id % 4096) = some 6 from rfl, show hardWired
      (Reg.TWN_STATUS_state.id % 4096) = false from rfl,
    Bool.not_false, Bool.true_and, decide_eq_true_eq] at h
  simp only [modeOk, show modeMax (Reg.TWX_prev.id % 4096) = some 6 from rfl, show hardWired (Reg.TWX_prev.id % 4096)
      = false from rfl,
    Bool.not_false, Bool.true_and, State.twin]
  exact decide_eq_true (Nat.le_trans (Nat.mod_le _ _) h)

theorem helloTake_ok {a0 : State} {a1 : Bool} (h0 : Keeps s0 a0) : Keeps s0 (State.helloTake a0 a1) := by
  unfold State.helloTake
  lift_lets -underBinder +implicits
  intro x0
  have hx0 : Keeps s0 x0 := hello_ok h0
  clear_value x0
  intro x1
  intro x2
  have hx2 : Keeps s0 x2 := put_ok hx0 rfl
  clear_value x2
  exact startSync_ok (forEach_ok hx2 (fun a3 t4 ht4 => tlinkDown_ok ht4)) (fun _ => by decide)

theorem execHello_ok {a0 : Nat} {a1 : Bool} {a2 : Nat} {a3 : Nat} {a4 : Bool} {a5 : Bool} {a6 : Bool} {a7 : State} (h7
    : Keeps s0 a7) : KeepsR s0 (execHello a0 a1 a2 a3 a4 a5 a6 a7) := by
  unfold execHello
  lift_lets -underBinder +implicits
  intro x0
  have hx0 : Keeps s0 x0 := set_ok h7 rfl
  clear_value x0
  intro x1
  exact ite_of (Q := KeepsR s0) (KeepsR.next h7) (ite_of (Q := KeepsR s0) (KeepsR.next (inc_ok h7 rfl)) (ite_of (Q :=
      KeepsR s0) (KeepsR.next (helloTake_ok hx0)) (KeepsR.next (pairRefuse_ok hx0))))

theorem execPairTimeout_ok {a0 : State} (h0 : Keeps s0 a0) : KeepsR s0 (execPairTimeout a0) := by
  unfold execPairTimeout
  exact ite_of (Q := KeepsR s0) (KeepsR.next (pairRefuse_ok h0)) (KeepsR.next h0)

theorem execUnpair_ok {a0 : Who} {a1 : State} (h1 : Keeps s0 a1) : KeepsR s0 (execUnpair a0 a1) := by
  unfold execUnpair
  exact ite_of (Q := KeepsR s0) (KeepsR.next h1) (ite_of (Q := KeepsR s0) (KeepsR.next (twinRefuse_ok h1))
      (KeepsR.next (Keeps.ite h1 (set_ok (put_ok h1 rfl) rfl))))

theorem unpairNow_ok {a0 : State} (h0 : Keeps s0 a0) : Keeps s0 (State.unpairNow a0) := by
  unfold State.unpairNow
  lift_lets -underBinder +implicits
  intro x0
  have hx0 : Keeps s0 x0 := setTwin_ok (put_ok (twinSend_ok h0) rfl) (fun _ => by decide)
  clear_value x0
  exact forEach_ok (twinRelease_ok (dropCopies_ok hx0)) (fun a1 t2 ht2 => tlinkDown_ok ht2)

theorem execUnpairGoodbye_ok {a0 : Bool} {a1 : State} (h1 : Keeps s0 a1) : KeepsR s0 (execUnpairGoodbye a0 a1) := by
  unfold execUnpairGoodbye
  exact ite_of (Q := KeepsR s0) (KeepsR.next (unpairNow_ok h1)) (KeepsR.next h1)

theorem execResync_ok {a0 : Who} {a1 : State} (h1 : Keeps s0 a1) : KeepsR s0 (execResync a0 a1) := by
  unfold execResync
  exact ite_of (Q := KeepsR s0) (KeepsR.next (startSync_ok h1 (fun _ => by decide))) (KeepsR.next h1)

theorem execResyncStart_ok {a0 : State} (h0 : Keeps s0 a0) : KeepsR s0 (execResyncStart a0) := by
  unfold execResyncStart
  exact ite_of (Q := KeepsR s0) (KeepsR.next (startSync_ok h0 (fun _ => by decide))) (KeepsR.next h0)

theorem execHeartbeatSend_ok {a0 : Bool} {a1 : State} (h1 : Keeps s0 a1) : KeepsR s0 (execHeartbeatSend a0 a1) := by
  unfold execHeartbeatSend
  lift_lets -underBinder +implicits
  intro x0
  have hx0 : Keeps s0 x0 := put_ok h1 rfl
  clear_value x0
  exact ite_of (Q := KeepsR s0) (KeepsR.next (twinSend_ok hx0)) (KeepsR.next hx0)

theorem execTwinHeartbeat_ok {a0 : Nat} {a1 : Bool} {a2 : State} (h2 : Keeps s0 a2) : KeepsR s0 (execTwinHeartbeat a0
    a1 a2) := by
  unfold execTwinHeartbeat
  exact KeepsR.next (twinRx_ok h2 (fun y0 hy0 => Keeps.ite (set_ok hy0 rfl) hy0))

theorem execHeartbeatMiss_ok {a0 : Bool} {a1 : List Nat} {a2 : List Nat} {a3 : State} (h3 : Keeps s0 a3) : KeepsR s0
    (execHeartbeatMiss a0 a1 a2 a3) := by
  unfold execHeartbeatMiss
  lift_lets -underBinder +implicits
  intro x0
  have hx0 : Keeps s0 x0 := put_ok h3 rfl
  clear_value x0
  intro x1
  intro x2
  have hx2 : Keeps s0 x2 := set_ok (set_ok (inc_ok (pmu_ok hx0) rfl) rfl) rfl
  clear_value x2
  exact ite_of (Q := KeepsR s0) (KeepsR.next hx0) (ite_of (Q := KeepsR s0) (KeepsR.next hx2) (ite_of (Q := KeepsR s0)
      (KeepsR.next (degrade_ok hx2)) (KeepsR.next (twinLost_ok hx2))))

theorem execAliveWireFault_ok {a0 : State} (h0 : Keeps s0 a0) : KeepsR s0 (execAliveWireFault a0) := by
  unfold execAliveWireFault
  lift_lets -underBinder +implicits
  intro x0
  have hx0 : Keeps s0 x0 := detect_ok (put_ok h0 rfl)
  clear_value x0
  exact ite_of (Q := KeepsR s0) (ite_of (Q := KeepsR s0) (KeepsR.next hx0) (KeepsR.next (degrade_ok hx0)))
      (KeepsR.next h0)

theorem mirApply_ok {a0 : State} {a1 : Nat} {a2 : List MirRec} (h0 : Keeps s0 a0) : Keeps s0 (State.mirApply a0 a1 a2)
    := by
  unfold State.mirApply
  lift_lets -underBinder +implicits
  intro x0
  have hx0 : Keeps s0 x0 := forEach_ok h0 (fun a1 t2 ht2 => mirRec_ok ht2)
  clear_value x0
  exact Keeps.ite (Keeps.ite (startSync_ok hx0 (fun _ => by decide)) (twinSend_ok hx0)) h0

theorem execMirror_ok {a0 : Nat} {a1 : Bool} {a2 : List MirRec} {a3 : State} (h3 : Keeps s0 a3) : KeepsR s0
    (execMirror a0 a1 a2 a3) := by
  unfold execMirror
  exact KeepsR.next (twinRx_ok h3 (fun y0 hy0 => mirApply_ok hy0))

theorem execAck_ok {a0 : Nat} {a1 : Bool} {a2 : Nat} {a3 : State} (h3 : Keeps s0 a3) : KeepsR s0 (execAck a0 a1 a2 a3)
    := by
  unfold execAck
  exact KeepsR.next (twinRx_ok h3 (fun y0 hy0 => twinAck_ok (pmu_ok hy0)))

theorem syncApply_ok {a0 : State} {a1 : Nat} {a2 : List MirRec} {a3 : Bool} (h0 : Keeps s0 a0) : Keeps s0
    (State.syncApply a0 a1 a2 a3) := by
  unfold State.syncApply
  lift_lets -underBinder +implicits
  intro x0
  have hx0 : Keeps s0 x0 := Keeps.ite h0 (startSync_ok h0 (fun _ => by decide))
  clear_value x0
  intro x1
  have hx1 : Keeps s0 x1 := forEach_ok hx0 (fun a2 t3 ht3 => syncRec_ok ht3)
  clear_value x1
  exact twinSend_ok (Keeps.ite (put_ok hx1 rfl) hx1)

theorem execSync_ok {a0 : Nat} {a1 : Bool} {a2 : List MirRec} {a3 : Bool} {a4 : State} (h4 : Keeps s0 a4) : KeepsR s0
    (execSync a0 a1 a2 a3 a4) := by
  unfold execSync
  exact KeepsR.next (twinRx_ok h4 (fun y0 hy0 => syncApply_ok hy0))

theorem execSyncDone_ok {a0 : List Nat} {a1 : State} (h1 : Keeps s0 a1) : KeepsR s0 (execSyncDone a0 a1) := by
  unfold execSyncDone
  lift_lets -underBinder +implicits
  intro x0
  have hx0 : Keeps s0 x0 := forEach_ok h1 (fun a1 t2 ht2 => inc_ok (set_ok ht2 rfl) rfl)
  clear_value x0
  exact ite_of (Q := KeepsR s0) (KeepsR.next (Keeps.ite (startSync_ok hx0 (fun _ => by decide)) (setTwin_ok hx0 (fun _
      => by decide)))) (KeepsR.next h1)

theorem execGoodbye_ok {a0 : Nat} {a1 : Bool} {a2 : Bool} {a3 : List Nat} {a4 : List Nat} {a5 : State} (h5 : Keeps s0
    a5) : KeepsR s0 (execGoodbye a0 a1 a2 a3 a4 a5) := by
  unfold execGoodbye
  exact KeepsR.next (twinRx_ok h5 (fun y0 hy0 => Keeps.ite (twinRelease_ok (dropCopies_ok (setTwin_ok hy0 (fun _ => by
      decide)))) (twinLost_ok hy0)))

theorem execTwinMbx_ok {a0 : Nat} {a1 : Bool} {a2 : Bool} {a3 : Nat} {a4 : List Nat} {a5 : Nat} {a6 : State} (h6 :
    Keeps s0 a6) : KeepsR s0 (execTwinMbx a0 a1 a2 a3 a4 a5 a6) := by
  unfold execTwinMbx
  refine KeepsR.next ?_
  refine twinRx_ok h6 (fun y0 hy0 => ?_)
  lift_lets -underBinder +implicits
  intro x1
  have hx1 : KeepsS s0 x1 := mbxPost_ok hy0
  clear_value x1
  exact Keeps.ite hy0 (twinSend_ok (KeepsS.to hx1))

theorem execTsync_ok {a0 : Nat} {a1 : Bool} {a2 : Nat} {a3 : State} (h3 : Keeps s0 a3) : KeepsR s0 (execTsync a0 a1 a2
    a3) := by
  unfold execTsync
  exact KeepsR.next (twinRx_ok h3 (fun y0 hy0 => set_ok hy0 rfl))

theorem execTwnKeyLoad_ok {a0 : Who} {a1 : State} (h1 : Keeps s0 a1) : KeepsR s0 (execTwnKeyLoad a0 a1) := by
  unfold execTwnKeyLoad
  lift_lets -underBinder +implicits
  intro x0
  exact ite_of (Q := KeepsR s0) (KeepsR.next (putArea_ok (put_ok (wr_ok h1) rfl) rfl)) (KeepsR.next h1)

theorem execTwnKeyClear_ok {a0 : Who} {a1 : State} (h1 : Keeps s0 a1) : KeepsR s0 (execTwnKeyClear a0 a1) := by
  unfold execTwnKeyClear
  exact ite_of (Q := KeepsR s0) (KeepsR.next (zeroLink_ok h1)) (KeepsR.next h1)

end Sys2Proof.Laws
end

