-- ==== Sys2Proof/Laws/KeepsDevC.lean ====
section
/-! SUPPORT. Sys2Proof/Laws/KeepsDevC.lean: `Keeps` of each operation of Machine/DevC.lean. -/

namespace Sys2Proof.Laws

open Sys2Proof.Machine

variable {s0 : Base}

theorem migWrite_ok {a0 : State} {a1 : Who} {a2 : Nat} {a3 : Nat} (h0 : Keeps s0 a0) : Keeps s0 (State.migWrite a0 a1
    a2 a3) := by
  unfold State.migWrite
  lift_lets -underBinder +implicits
  intro x0
  split
  · exact ran_ok h0 (execFreeze_ok h0)
  · lift_lets -underBinder +implicits
    intro x1
    have hx1 : KeepsS s0 x1 := freshBytes_ok h0
    clear_value x1
    exact ran_ok h0 (execThaw_ok (KeepsS.to hx1))
  · exact ran_ok h0 (execCancel_ok h0)
  · exact h0

theorem dlogWrite_ok {a0 : State} {a1 : Who} {a2 : Nat} {a3 : Nat} (h0 : Keeps s0 a0) : Keeps s0 (State.dlogWrite a0
    a1 a2 a3) := by
  unfold State.dlogWrite
  lift_lets -underBinder +implicits
  intro x0
  intro x1
  have hx1 : Keeps s0 x1 := Keeps.ite (put_ok h0 rfl) h0
  clear_value x1
  intro x2
  have hx2 : Keeps s0 x2 := Keeps.ite hx1 (set_ok hx1 rfl)
  clear_value x2
  intro x3
  have hx3 : Keeps s0 x3 := Keeps.ite (put_ok (forEach_ok hx2 (fun a4 t5 ht5 => put_ok ht5 rfl)) rfl) (put_ok hx2 rfl)
  clear_value x3
  exact Keeps.ite (ran_ok hx3 (execHarvest_ok hx3)) hx3

theorem wFn_ok {a0 : Who} {a1 : Nat} {a2 : Nat} {a3 : Nat} {a4 : State} (h4 : Keeps s0 a4) : KeepsO s0 (wFn a0 a1 a2
    a3 a4) := by
  unfold wFn
  refine ite_of (Q := KeepsO s0) (KeepsO.some h4) ?_
  split
  · exact KeepsO.some (ranged_ok (set_ok h4 rfl) rfl)
  · lift_lets -underBinder +implicits
    intro x0
    have hx0 : Keeps s0 x0 := clearBits_ok h4 (by decide)
    clear_value x0
    intro x1
    exact ite_of (Q := KeepsO s0) (KeepsO.some h4) (KeepsO.some (Keeps.ite hx0 (Keeps.ite (put_ok hx0 rfl) (set_ok hx0
        rfl))))
  · exact KeepsO.some (migWrite_ok h4)
  · exact ite_of (Q := KeepsO s0) KeepsO.none (KeepsO.some h4)
  · exact KeepsO.some (ran_ok h4 (execVmodWrite_ok h4))
  · exact KeepsO.some (Keeps.ite h4 (set_ok h4 rfl))
  · exact KeepsO.some (Keeps.ite h4 (ranged_ok h4 rfl))
  · exact KeepsO.some (Keeps.ite h4 (set_ok h4 rfl))
  · exact KeepsO.some (Keeps.ite (dlogWrite_ok h4) h4)
  · exact KeepsO.some (Keeps.ite h4 (ranged_ok (ranged_ok (ranged_ok h4 rfl) rfl) rfl))
  · exact KeepsO.none

theorem pvWrite_ok {a0 : State} {a1 : Who} {a2 : Nat} {a3 : Nat} {a4 : Nat} (h0 : Keeps s0 a0) : Keeps s0
    (State.pvWrite a0 a1 a2 a3 a4) := by
  unfold State.pvWrite
  lift_lets -underBinder +implicits
  intro x0
  have hx0 : Keeps s0 x0 := Keeps.ite (put_ok h0 rfl) h0
  clear_value x0
  intro x1
  have hx1 : Keeps s0 x1 := put_ok h0 rfl
  clear_value x1
  exact Keeps.ite h0 (Keeps.ite (Keeps.ite (put_ok (set_ok h0 rfl) rfl) (mbxIgnore_ok h0)) (Keeps.ite (ran_ok h0
      (execUpCommit_ok h0)) (Keeps.ite (Keeps.ite (put_ok (set_ok h0 rfl) rfl) (mbxIgnore_ok h0)) (Keeps.ite (ran_ok
      h0 (execDnCommit_ok h0)) (Keeps.ite (Keeps.ite (put_ok hx0 rfl) hx0) (Keeps.ite (Keeps.ite (Keeps.ite (set_ok
      hx1 rfl) hx1) (mbxIgnore_ok h0)) (Keeps.ite (Keeps.ite (put_ok (put_ok h0 rfl) rfl) (mbxIgnore_ok h0)) h0)))))))

theorem mbxStage_ok {a0 : State} {a1 : Who} {a2 : Nat} {a3 : Nat} (h0 : Keeps s0 a0) : Keeps s0 (State.mbxStage a0 a1
    a2 a3) := by
  unfold State.mbxStage
  lift_lets -underBinder +implicits
  intro x0
  exact Keeps.ite h0 (Keeps.ite (mbxIgnore_ok h0) (mbxSeen_ok (set_ok h0 rfl)))

theorem wMbx_ok {a0 : Who} {a1 : Nat} {a2 : Nat} {a3 : Nat} {a4 : State} (h4 : Keeps s0 a4) : KeepsO s0 (wMbx a0 a1 a2
    a3 a4) := by
  unfold wMbx
  refine ite_of (Q := KeepsO s0) (KeepsO.some h4) ?_
  split
  · exact KeepsO.some (ran_ok h4 (execMbxCfgWrite_ok h4))
  · exact KeepsO.some (ran_ok h4 (execMbxCfgWrite_ok h4))
  · exact ite_of (Q := KeepsO s0) KeepsO.none (KeepsO.some h4)
  · exact KeepsO.some (mbxStage_ok h4)
  · exact KeepsO.some (ran_ok h4 (execMbxCommit_ok h4))
  · exact KeepsO.some (ran_ok h4 (execMbxUnlock_ok h4))
  · split
    · exact KeepsO.some h4
    · lift_lets -underBinder +implicits
      intro x1
      have hx1 : Keeps s0 x1 := set_ok h4 rfl
      clear_value x1
      exact KeepsO.some (Keeps.ite (put_ok hx1 rfl) hx1)
  · split
    · exact KeepsO.some (set_ok (put_ok h4 rfl) rfl)
    · exact KeepsO.some h4
  · exact KeepsO.some (Keeps.ite h4 (Keeps.ite (put_ok h4 rfl) (set_ok h4 rfl)))
  · exact KeepsO.some (ran_ok h4 (execWinCfgWrite_ok h4))
  · exact KeepsO.some h4

theorem twnCtrl_ok {a0 : State} {a1 : Who} {a2 : Nat} (h0 : Keeps s0 a0) : Keeps s0 (State.twnCtrl a0 a1 a2) := by
  unfold State.twnCtrl
  lift_lets -underBinder +implicits
  intro x0
  have hx0 : Keeps s0 x0 := put_ok h0 rfl
  clear_value x0
  intro x1
  have hx1 : Keeps s0 x1 := Keeps.ite (ran_ok hx0 (execPair_ok hx0)) hx0
  clear_value x1
  intro x2
  have hx2 : Keeps s0 x2 := Keeps.ite (ran_ok hx1 (execUnpair_ok hx1)) hx1
  clear_value x2
  exact Keeps.ite (ran_ok hx2 (execResync_ok hx2)) hx2

theorem wTwn_ok {a0 : Who} {a1 : Nat} {a2 : Nat} {a3 : Nat} {a4 : State} (h4 : Keeps s0 a4) : KeepsO s0 (wTwn a0 a1 a2
    a3 a4) := by
  unfold wTwn
  refine ite_of (Q := KeepsO s0) (ite_of (Q := KeepsO s0) (KeepsO.some (set_ok h4 rfl)) (KeepsO.some h4)) ?_
  refine ite_of (Q := KeepsO s0) ?_ ?_
  · refine KeepsO.some ?_
    split
    · exact ran_ok h4 (execTwnKeyLoad_ok h4)
    · exact ran_ok h4 (execTwnKeyClear_ok h4)
    · exact h4
  · refine ite_of (Q := KeepsO s0) (KeepsO.some h4) ?_
    split
    · exact KeepsO.some (twnCtrl_ok h4)
    · exact ite_of (Q := KeepsO s0) KeepsO.none (KeepsO.some h4)
    · exact KeepsO.some (set_ok h4 rfl)
    · exact KeepsO.some (Keeps.ite h4 (set_ok h4 rfl))
    · exact ite_of (Q := KeepsO s0) KeepsO.none (KeepsO.some h4)
    · exact KeepsO.none

theorem fltCtrl_ok {a0 : State} {a1 : Who} {a2 : Nat} [Rights s0 a1] (h0 : Keeps s0 a0) : Keeps s0 (State.fltCtrl a0
    a1 a2) := by
  unfold State.fltCtrl
  lift_lets -underBinder +implicits
  intro x0
  have hx0 : Keeps s0 x0 := Keeps.ite (put_ok h0 rfl) h0
  clear_value x0
  exact Keeps.ite (ran_ok hx0 (execDevReset_ok hx0)) hx0

theorem srcCfg_ok {a0 : State} {a1 : Nat} {a2 : Nat} (h0 : Keeps s0 a0) : Keeps s0 (State.srcCfg a0 a1 a2) := by
  unfold State.srcCfg
  lift_lets -underBinder +implicits
  intro x0
  have hx0 : Keeps s0 x0 := genWrite_ok h0 (by decide)
  clear_value x0
  intro x1
  have hx1 : Keeps s0 x1 := Keeps.ite hx0 (put_ok hx0 rfl)
  clear_value x1
  exact Keeps.ite (put_ok hx1 rfl) hx1

theorem wFlt_ok {a0 : Who} {a1 : Nat} {a2 : Nat} {a3 : Nat} {a4 : State} [Rights s0 a0] (h4 : Keeps s0 a4) : KeepsO s0
    (wFlt a0 a1 a2 a3 a4) := by
  unfold wFlt
  refine ite_of (Q := KeepsO s0) (KeepsO.some h4) ?_
  split
  · exact KeepsO.some (fltCtrl_ok h4)
  · exact KeepsO.some (Keeps.ite (ran_ok h4 (execFaultInject_ok h4)) h4)
  · exact KeepsO.some (ran_ok h4 (execLogPop_ok h4))
  · exact KeepsO.some (srcCfg_ok h4)
  · lift_lets -underBinder +implicits
    intro x0
    have hx0 : KeepsS s0 x0 := fresh_ok h4
    clear_value x0
    exact KeepsO.some (Keeps.ite (ran_ok h4 (execActiveClear_ok (KeepsS.to hx0))) h4)
  · exact KeepsO.none

theorem dumpCfg_ok {a0 : State} {a1 : Who} {a2 : Nat} (h0 : Keeps s0 a0) : Keeps s0 (State.dumpCfg a0 a1 a2) := by
  unfold State.dumpCfg
  lift_lets -underBinder +implicits
  intro x0
  have hx0 : Keeps s0 x0 := clearBits_ok h0 (by decide)
  clear_value x0
  exact Keeps.ite (ran_ok hx0 (execDumpEnable_ok hx0)) (genWrite_ok hx0 (by decide))

theorem wPmu_ok {a0 : Who} {a1 : Nat} {a2 : Nat} {a3 : Nat} {a4 : State} (h4 : Keeps s0 a4) : KeepsO s0 (wPmu a0 a1 a2
    a3 a4) := by
  unfold wPmu
  refine ite_of (Q := KeepsO s0) (KeepsO.some h4) ?_
  split
  · exact KeepsO.some (dumpCfg_ok h4)
  · lift_lets -underBinder +implicits
    intro x0
    have hx0 : Keeps s0 x0 := ranged_ok h4 rfl
    clear_value x0
    exact KeepsO.some (Keeps.ite (startPeriod_ok hx0) hx0)
  · exact KeepsO.some (Keeps.ite (ran_ok h4 (execSnapGo_ok h4)) h4)
  · exact KeepsO.some (ran_ok h4 (execSlotClear_ok h4))
  · exact ite_of (Q := KeepsO s0) (KeepsO.some (genWrite_ok h4 (by decide))) KeepsO.none
  · exact KeepsO.none

theorem bootCtrl_ok {a0 : State} {a1 : Who} {a2 : Nat} [Shifts s0] (h0 : Keeps s0 a0) : Keeps s0 (State.bootCtrl a0 a1
    a2) := by
  unfold State.bootCtrl
  lift_lets -underBinder +implicits
  intro x0
  have hx0 : Keeps s0 x0 := Keeps.ite h0 (ran_ok h0 (execClearAlt_ok h0))
  clear_value x0
  exact Keeps.ite (ran_ok hx0 (execReady_ok hx0)) hx0

theorem fuseWrite_ok {a0 : State} {a1 : Who} {a2 : Nat} (h0 : Keeps s0 a0) : Keeps s0 (State.fuseWrite a0 a1 a2) := by
  unfold State.fuseWrite
  lift_lets -underBinder +implicits
  intro x0
  have hx0 : Keeps s0 x0 := clearBits_ok h0 (by decide)
  clear_value x0
  intro x1
  intro x2
  refine Keeps.ite (ran_ok hx0 (execFuseArm_ok hx0)) ?_
  refine Keeps.ite ?_ hx0
  clear_value x1
  split
  · exact ran_ok hx0 (execDebugClose_ok hx0)
  · exact ran_ok hx0 (execRevoke_ok hx0)
  · exact ran_ok hx0 (execSvn_ok hx0)
  · exact hx0

theorem wBoot_ok {a0 : Who} {a1 : Nat} {a2 : Nat} {a3 : Nat} {a4 : State} [Shifts s0] (h4 : Keeps s0 a4) : KeepsO s0
    (wBoot a0 a1 a2 a3 a4) := by
  unfold wBoot
  refine ite_of (Q := KeepsO s0) (KeepsO.some h4) ?_
  split
  · exact KeepsO.some (ran_ok h4 (execGateCfgWrite_ok h4))
  · exact KeepsO.some (bootCtrl_ok h4)
  · lift_lets -underBinder +implicits
    intro x0
    have hx0 : Keeps s0 x0 := put_ok h4 rfl
    clear_value x0
    exact KeepsO.some (Keeps.ite (put_ok hx0 rfl) hx0)
  · exact KeepsO.some (fuseWrite_ok h4)
  · exact KeepsO.some (ran_ok h4 (execLedgerSelect_ok h4))
  · exact KeepsO.none

end Sys2Proof.Laws
end

