-- ==== Sys2Proof/Laws/KeepsDevRead.lean ====
section
/-! SUPPORT. Sys2Proof/Laws/KeepsDevRead.lean: `Keeps` of each operation of Machine/DevRead.lean. -/

namespace Sys2Proof.Laws

open Sys2Proof.Machine

variable {s0 : Base}

theorem clearRead_ok {a0 : State} {a1 : RegDesc} {a2 a3 a4 : Nat} (h0 : Keeps s0 a0) (h1 : Safes a1.fields) :
    Keeps s0 (State.clearRead a0 a1 a2 a3 a4) := by
  refine foldl_mem (Q := Keeps s0) (P := fun p : Nat × Fld => p.2.acc = .ro ∨ Plain p.2) h0 h1 (fun t p hp ht => ?_)
  split
  · next hc =>
    rcases hp with hp | hp
    · rw [hp] at hc; exact absurd hc.1 (by decide)
    · exact set_ok ht hp
  · exact ht

theorem nowRead_ok {a0 : State} {a1 : Who} {a2 : Nat} {a3 : Nat} (h0 : Keeps s0 a0) : KeepsF s0 (State.nowRead a0 a1
    a2 a3) := by
  unfold State.nowRead
  exact ite_of (Q := KeepsF s0) (KeepsF.of h0) (KeepsF.of (latchNow_ok h0))

theorem tsauxRead_ok {a0 : State} {a1 : RegDesc} {a2 : Who} {a3 : Nat} {a4 : Nat} {a5 : Nat} (h0 : Keeps s0 a0) (h1 :
    Safes a1.fields) : KeepsF s0 (State.tsauxRead a0 a1 a2 a3 a4 a5) := by
  unfold State.tsauxRead
  lift_lets -underBinder +implicits
  intro x0
  split
  · exact KeepsF.of h0
  · exact ite_of (Q := KeepsF s0) (KeepsF.of (set_ok h0 rfl)) (KeepsF.of h0)

theorem counterRead_ok {a0 : State} {a1 : Who} {a2 : Bool} {a3 : Nat} {a4 : Nat} {a5 : Nat} (h0 : Keeps s0 a0) :
    KeepsF s0 (State.counterRead a0 a1 a2 a3 a4 a5) := by
  unfold State.counterRead
  split
  · exact KeepsF.of h0
  · exact cntRead_ok h0

theorem fieldRead_ok {a0 : State} {a1 : Who} {a2 : RegDesc} {a3 : Nat} {a4 : Nat} {a5 : Nat} (h0 : Keeps s0 a0) (h2 :
    Safes a2.fields) : KeepsF s0 (State.fieldRead a0 a1 a2 a3 a4 a5) := by
  unfold State.fieldRead
  exact KeepsF.of (clearRead_ok h0 h2)

theorem tempSample_ok {a0 : State} (h0 : Keeps s0 a0) : Keeps s0 (State.tempSample a0) := by
  unfold State.tempSample
  split
  · next m0 m1 heq =>
    have hm1 : Keeps s0 m1 := by
      refine KeepsS.eq heq ?_
      exact fresh_ok h0
    split
    · next m2 m3 heq =>
      have hm3 : Keeps s0 m3 := by
        refine KeepsS.eq heq ?_
        exact fresh_ok hm1
      exact set_ok (set_ok hm3 rfl) rfl

theorem regRead_ok {a0 : State} {a1 : Who} {a2 : RegDesc} {a3 : Nat} {a4 : Nat} {a5 : Nat} (h0 : Keeps s0 a0) (h2 :
    Safes a2.fields) : KeepsF s0 (State.regRead a0 a1 a2 a3 a4 a5) := by
  unfold State.regRead
  refine ite_of (Q := KeepsF s0) (KeepsF.of h0) ?_
  split
  · exact nowRead_ok h0
  · exact KeepsF.of h0
  · exact tsauxRead_ok h0 h2
  · exact counterRead_ok h0
  · exact counterRead_ok h0
  · exact lockReadBy_ok h0
  · exact rxPopRead_ok h0
  · exact fieldRead_ok (tempSample_ok h0) h2
  · exact fieldRead_ok h0 h2

end Sys2Proof.Laws
end

