-- ==== Sys2Proof/Laws/KeepsDevice.lean ====
section
/-! SUPPORT. Sys2Proof/Laws/KeepsDevice.lean: `Keeps` of each operation of Machine/Device.lean. -/

namespace Sys2Proof.Laws

open Sys2Proof.Machine

variable {s0 : Base}

theorem keyReg_safe {g o : Nat} {d : RegDesc} {x : Nat × Nat} (h : keyReg g o = some (d, x)) : Safes d.fields := by
  unfold keyReg at h
  split at h
  · cases h
  · split at h
    · next heq => cases h; exact findReg_safe heq
    · cases h

theorem regAt_safe {w : Who} {bar : Bar} {off : Nat} {wr : Bool} {d : RegDesc} {x : Nat × Nat}
    (h : regAt w bar off wr = some (d, x)) : Safes d.fields := by
  unfold regAt at h
  split at h
  · exact findReg_safe h
  · cases h
  · split at h
    · exact keyReg_safe h
    · split at h
      · obtain ⟨a, -, h⟩ := Option.bind_eq_some_iff.1 h
        exact findReg_safe h
      · cases h
  · cases h
  · cases h

theorem regRule_ok {a0 : Who} {a1 : Nat} {a2 : Nat} {a3 : Nat} {a4 : State} [Shifts s0] [Rights s0 a0] (h4 : Keeps s0
    a4) : KeepsO s0 (regRule a0 a1 a2 a3 a4) := by
  unfold regRule
  exact ite_of (Q := KeepsO s0) (wGlb_ok h4) (ite_of (Q := KeepsO s0) (wFn_ok h4) (ite_of (Q := KeepsO s0) (wQm_ok h4)
      (ite_of (Q := KeepsO s0) (wFp_ok h4) (ite_of (Q := KeepsO s0) (wPpl_ok h4) (ite_of (Q := KeepsO s0) (wTbl_ok h4)
      (ite_of (Q := KeepsO s0) (wMac_ok h4) (ite_of (Q := KeepsO s0) (wSch_ok h4) (ite_of (Q := KeepsO s0) (wMt_ok h4)
      (ite_of (Q := KeepsO s0) (wCph_ok h4) (ite_of (Q := KeepsO s0) (wOfl_ok h4) (ite_of (Q := KeepsO s0) (wDma_ok
      h4) (ite_of (Q := KeepsO s0) (wMbx_ok h4) (ite_of (Q := KeepsO s0) (wTwn_ok h4) (ite_of (Q := KeepsO s0)
      (wFlt_ok h4) (ite_of (Q := KeepsO s0) (wPmu_ok h4) (wBoot_ok h4))))))))))))))))

theorem regWrite_ok {a0 : State} {a1 : Who} {a2 : RegDesc} {a3 : Nat} {a4 : Nat} {a5 : Nat} {a6 : Nat} [Shifts s0]
    [Rights s0 a1] (h0 : Keeps s0 a0) (h2 : Safes a2.fields) : Keeps s0 (State.regWrite a0 a1 a2 a3 a4 a5 a6) := by
  unfold State.regWrite
  lift_lets -underBinder +implicits
  intro x0
  split
  · next m1 heq =>
    have hm1 : Keeps s0 m1 := by
      refine KeepsO.eq heq ?_
      exact regRule_ok h0
    exact hm1
  · exact genWrite_ok h0 h2

theorem msixWrite_ok {a0 : State} {a1 : Nat} {a2 : Nat} {a3 : Nat} (h0 : Keeps s0 a0) : Keeps s0 (State.msixWrite a0
    a1 a2 a3) := by
  unfold State.msixWrite
  lift_lets -underBinder +implicits
  intro x0
  refine Keeps.ite h0 ?_
  split
  · exact set_ok h0 rfl
  · exact set_ok h0 rfl
  · exact set_ok h0 rfl
  · exact releaseVecs_ok (put_ok h0 rfl)

theorem pvRead_ok {a0 : State} {a1 : Who} {a2 : Nat} {a3 : Nat} (h0 : Keeps s0 a0) : KeepsF s0 (State.pvRead a0 a1 a2
    a3) := by
  unfold State.pvRead
  exact ite_of (Q := KeepsF s0) (upPopRead_ok h0) (ite_of (Q := KeepsF s0) (dnPopRead_ok h0) (ite_of (Q := KeepsF s0)
      (KeepsF.of h0) (ite_of (Q := KeepsF s0) (KeepsF.of h0) (ite_of (Q := KeepsF s0) (KeepsF.of h0) (ite_of (Q :=
      KeepsF s0) (KeepsF.of h0) (ite_of (Q := KeepsF s0) (KeepsF.of h0) (ite_of (Q := KeepsF s0) (KeepsF.of h0)
      (ite_of (Q := KeepsF s0) (KeepsF.of h0) (KeepsF.of h0)))))))))

theorem fpWinWrite_ok {a0 : State} {a1 : Nat} {a2 : Nat} (h0 : Keeps s0 a0) : Keeps s0 (State.fpWinWrite a0 a1 a2) := by
  unfold State.fpWinWrite
  lift_lets -underBinder +implicits
  intro x0
  intro x1
  have hx1 : Keeps s0 x1 := wr_ok (wakeCluster_ok h0)
  clear_value x1
  exact Keeps.ite (wr_ok (wakeCluster_ok hx1)) hx1

theorem win0Read_ok {a0 : State} {a1 : Who} {a2 : Nat} (h0 : Keeps s0 a0) : KeepsOF s0 (State.win0Read a0 a1 a2) := by
  unfold State.win0Read
  lift_lets -underBinder +implicits
  intro x0
  intro x1
  refine ite_of (Q := KeepsOF s0) (KeepsOF.some (KeepsF.of h0)) ?_
  refine ite_of (Q := KeepsOF s0) (KeepsOF.some (KeepsF.of h0)) ?_
  refine ite_of (Q := KeepsOF s0) ?_ (ite_of (Q := KeepsOF s0) (KeepsOF.some (KeepsF.of (wakeCluster_ok h0)))
      KeepsOF.none)
  split
  · exact KeepsOF.some (ite_of (Q := KeepsF s0) (pvRead_ok h0) (KeepsF.of h0))
  · exact KeepsOF.some (KeepsF.of h0)

theorem win0Write_ok {a0 : State} {a1 : Who} {a2 : Nat} {a3 : Nat} (h0 : Keeps s0 a0) : KeepsO s0 (State.win0Write a0
    a1 a2 a3) := by
  unfold State.win0Write
  refine ite_of (Q := KeepsO s0) (KeepsO.some h0) ?_
  refine ite_of (Q := KeepsO s0) (KeepsO.some (Keeps.ite (gateWrite_ok h0) h0)) ?_
  refine ite_of (Q := KeepsO s0) ?_ (ite_of (Q := KeepsO s0) (KeepsO.some (Keeps.ite (fpWinWrite_ok h0) h0))
      KeepsO.none)
  split
  · exact KeepsO.some (Keeps.ite (pvWrite_ok h0) h0)
  · exact KeepsO.some h0

theorem winRead_ok {a0 : State} {a1 : Who} {a2 : Bar} {a3 : Nat} (h0 : Keeps s0 a0) : KeepsOF s0 (State.winRead a0 a1
    a2 a3) := by
  unfold State.winRead
  split
  · exact win0Read_ok h0
  · exact KeepsOF.some (ite_of (Q := KeepsF s0) (KeepsF.of h0) (ite_of (Q := KeepsF s0) (KeepsF.of h0) (ite_of (Q :=
      KeepsF s0) (KeepsF.of h0) (KeepsF.of h0))))
  · exact KeepsOF.some (KeepsF.of h0)
  · exact ite_of (Q := KeepsOF s0) (KeepsOF.some (KeepsF.of h0)) (ite_of (Q := KeepsOF s0) (KeepsOF.some (pvRead_ok
      h0)) (ite_of (Q := KeepsOF s0) (KeepsOF.some (KeepsF.of h0)) (ite_of (Q := KeepsOF s0) (KeepsOF.some (KeepsF.of
      h0)) KeepsOF.none)))
  · exact KeepsOF.some (KeepsF.of h0)
  · exact KeepsOF.some (KeepsF.of h0)

theorem winWrite_ok {a0 : State} {a1 : Who} {a2 : Bar} {a3 : Nat} {a4 : Nat} (h0 : Keeps s0 a0) : KeepsO s0
    (State.winWrite a0 a1 a2 a3 a4) := by
  unfold State.winWrite
  split
  · exact win0Write_ok h0
  · exact KeepsO.some (Keeps.ite (msixWrite_ok h0) h0)
  · exact KeepsO.some h0
  · exact ite_of (Q := KeepsO s0) (KeepsO.some h0) (ite_of (Q := KeepsO s0) (KeepsO.some (pvWrite_ok h0)) (ite_of (Q
      := KeepsO s0) (KeepsO.some (msixWrite_ok h0)) (ite_of (Q := KeepsO s0) (KeepsO.some h0) KeepsO.none)))
  · exact KeepsO.some h0
  · exact KeepsO.some h0

theorem accRead_ok {a0 : State} {a1 : Who} {a2 : Bar} {a3 a4 a5 : Nat} (h0 : Keeps s0 a0) :
    KeepsF s0 (State.accRead a0 a1 a2 a3 a4 a5) := by
  induction a3 generalizing a0 a4 a5 with
  | zero => exact h0
  | succ n ih =>
    cases a5 with
    | zero => exact h0
    | succ m =>
      simp only [State.accRead]
      split
      · next t v heq =>
        refine KeepsF.of (KeepsF.to (ih (KeepsOF.eq heq ?_)))
        exact ite_of (Q := KeepsOF s0) (winRead_ok h0) KeepsOF.none
      · split
        · next d i r heq => exact KeepsF.of (KeepsF.to (ih (KeepsF.to (regRead_ok h0 (regAt_safe heq)))))
        · exact KeepsF.of (KeepsF.to (ih h0))

theorem accWrite_ok {a0 : State} {a1 : Who} {a2 : Bar} {a3 a4 a5 a6 : Nat} [Shifts s0] [Rights s0 a1] (h0 : Keeps s0
    a0) :
    Keeps s0 (State.accWrite a0 a1 a2 a3 a4 a5 a6) := by
  induction a3 generalizing a0 a4 a5 a6 with
  | zero => exact h0
  | succ n ih =>
    cases a5 with
    | zero => exact h0
    | succ m =>
      simp only [State.accWrite]
      split
      · next t heq =>
        refine ih (KeepsO.eq heq ?_)
        exact ite_of (Q := KeepsO s0) (winWrite_ok h0) KeepsO.none
      · split
        · next d i r heq => exact ih (regWrite_ok h0 (regAt_safe heq))
        · exact ih h0

theorem devRead_ok {a0 : State} {a1 : Who} {a2 : Bar} {a3 : Nat} {a4 : Nat} (h0 : Keeps s0 a0) : KeepsF s0
    (State.devRead a0 a1 a2 a3 a4) := by
  unfold State.devRead
  refine ite_of (Q := KeepsF s0) ?_ (accRead_ok h0)
  refine ite_of (Q := KeepsF s0) (KeepsF.of (latchNow_ok h0)) ?_
  split
  · lift_lets -underBinder +implicits
    intro x3
    have hx3 : KeepsF s0 x3 := accRead_ok h0
    clear_value x3
    intro x4
    have hx4 : KeepsF s0 x4 := accRead_ok (KeepsF.to hx3)
    clear_value x4
    exact ite_of (Q := KeepsF s0) (KeepsF.of h0) (KeepsF.of (KeepsF.to hx4))
  · lift_lets -underBinder +implicits
    intro x5
    have hx5 : KeepsF s0 x5 := accRead_ok h0
    clear_value x5
    intro x6
    have hx6 : KeepsF s0 x6 := accRead_ok (KeepsF.to hx5)
    clear_value x6
    exact KeepsF.of (KeepsF.to hx6)

theorem devWrite_ok {a0 : State} {a1 : Who} {a2 : Bar} {a3 : Nat} {a4 : Nat} {a5 : Nat} [Shifts s0] [Rights s0 a1] (h0
    : Keeps s0 a0) : Keeps s0 (State.devWrite a0 a1 a2 a3 a4 a5) := by
  unfold State.devWrite
  split
  · exact Keeps.ite (ran_ok h0 (execArmWrite_ok h0)) (accWrite_ok h0)
  · exact Keeps.ite (ran_ok h0 (execArmWrite_ok h0)) (accWrite_ok h0)
  · exact accWrite_ok h0

theorem badAccess_ok {a0 : State} {a1 : Nat} {a2 : Bool} (h0 : Keeps s0 a0) : Keeps s0 (State.badAccess a0 a1 a2) := by
  unfold State.badAccess
  lift_lets -underBinder +implicits
  intro x0
  have hx0 : KeepsS s0 x0 := freshBytes_ok h0
  clear_value x0
  exact ran_ok (KeepsS.to hx0) (execInboundBadAccess_ok (KeepsS.to hx0))

theorem bmcWrite_ok {a0 : State} {a1 : Nat} {a2 : Nat} [Shifts s0] [Rights s0 .bmc] (h0 : Keeps s0 a0) : Keeps s0
    (State.bmcWrite a0 a1 a2) := by
  unfold State.bmcWrite
  exact Keeps.ite h0 (devWrite_ok h0)

theorem execRegRead_ok {a0 : Nat} {a1 : State} (h1 : Keeps s0 a1) : KeepsR s0 (execRegRead a0 a1) := by
  unfold execRegRead
  lift_lets -underBinder +implicits
  intro x0
  intro x1
  have hx1 : KeepsF s0 x1 := devRead_ok h1
  clear_value x1
  exact ite_of (Q := KeepsR s0) (KeepsR.next h1) (ite_of (Q := KeepsR s0) (KeepsR.next (emit_ok h1 rfl)) (KeepsR.next
      (emit_ok (KeepsF.to hx1) rfl)))

theorem execRegWrite_ok {a0 : Nat} {a1 : Nat} {a2 : State} [Leaves s0] [Shifts s0] (h2 : Keeps s0 a2) : KeepsR s0
    (execRegWrite a0 a1 a2) := by
  have : Rights s0 .bmc := ⟨fun _ => ⟨Leaves.out, Shifts.out⟩⟩
  unfold execRegWrite
  lift_lets -underBinder +implicits
  intro x0
  exact ite_of (Q := KeepsR s0) (KeepsR.next h2)
    (ite_of (Q := KeepsR s0) (KeepsR.next (emit_ok h2 rfl)) (KeepsR.next (emit_ok (bmcWrite_ok h2) rfl)))

theorem execRegisterWrite_ok {a0 : Who} {a1 : Bar} {a2 : Nat} {a3 : Nat} {a4 : Nat} {a5 : State} [Shifts s0] [Rights
    s0 a0] (h5 : Keeps s0 a5) : KeepsR s0 (execRegisterWrite a0 a1 a2 a3 a4 a5) := by
  unfold execRegisterWrite
  split
  · exact KeepsR.next (Keeps.ite (bmcWrite_ok h5) h5)
  · exact KeepsR.next (Keeps.ite (devWrite_ok h5) h5)
  · split
    · exact KeepsR.next h5
    · exact ite_of (Q := KeepsR s0) (KeepsR.next h5) (ite_of (Q := KeepsR s0) (KeepsR.next (badAccess_ok h5)) (ite_of
        (Q := KeepsR s0) (KeepsR.next (devWrite_ok h5)) (KeepsR.next h5)))

theorem execRcRead_ok {a0 : Who} {a1 : Bar} {a2 : Nat} {a3 : Nat} {a4 : State} (h4 : Keeps s0 a4) : KeepsR s0
    (execRcRead a0 a1 a2 a3 a4) := by
  unfold execRcRead
  split
  · lift_lets -underBinder +implicits
    intro x0
    have hx0 : KeepsF s0 x0 := devRead_ok h4
    clear_value x0
    exact ite_of (Q := KeepsR s0) (KeepsR.next (emit_ok (KeepsF.to hx0) rfl)) (KeepsR.next h4)
  · lift_lets -underBinder +implicits
    intro x2
    have hx2 : KeepsF s0 x2 := devRead_ok h4
    clear_value x2
    exact ite_of (Q := KeepsR s0) (ite_of (Q := KeepsR s0) (KeepsR.next (emit_ok (KeepsF.to hx2) rfl)) (KeepsR.next
        h4)) (KeepsR.next h4)
  · split
    · exact KeepsR.next (Keeps.ite (cfgRead_ok h4) h4)
    · lift_lets -underBinder +implicits
      intro x6
      have hx6 : KeepsF s0 x6 := devRead_ok h4
      clear_value x6
      exact ite_of (Q := KeepsR s0) (KeepsR.next h4) (ite_of (Q := KeepsR s0) (KeepsR.next (badAccess_ok h4)) (ite_of
          (Q := KeepsR s0) (KeepsR.next (emit_ok (KeepsF.to hx6) rfl)) (KeepsR.next (answer_ok h4 (KeepsF.of h4)))))

end Sys2Proof.Laws
end

