-- ==== Sys2Proof/Laws/KeepsEngine.lean ====
section
/-! SUPPORT. Sys2Proof/Laws/KeepsEngine.lean: `Keeps` of each operation of Machine/Engine.lean. -/

namespace Sys2Proof.Laws

open Sys2Proof.Machine

variable {s0 : Base}

theorem execFlowLookup_ok {a0 : Nat} {a1 : Bool} {a2 : Bool} {a3 : Nat} {a4 : State} (h4 : Keeps s0 a4) : KeepsR s0
    (execFlowLookup a0 a1 a2 a3 a4) := by
  unfold execFlowLookup
  exact KeepsR.next (slotCmd_ok h4 (fun y0 y1 y2 hy2 => cmdFlowLookup_ok hy2))

theorem execFlowInsert_ok {a0 : Nat} {a1 : Bool} {a2 : Bool} {a3 : State} (h3 : Keeps s0 a3) : KeepsR s0
    (execFlowInsert a0 a1 a2 a3) := by
  unfold execFlowInsert
  exact KeepsR.next (slotCmd_ok h3 (fun y0 y1 y2 hy2 => cmdFlowInsert_ok hy2))

theorem execFlowDelete_ok {a0 : Nat} {a1 : Bool} {a2 : Bool} {a3 : State} (h3 : Keeps s0 a3) : KeepsR s0
    (execFlowDelete a0 a1 a2 a3) := by
  unfold execFlowDelete
  exact KeepsR.next (slotCmd_ok h3 (fun y0 y1 y2 hy2 => cmdFlowDelete_ok hy2))

theorem execLpmLookup_ok {a0 : Nat} {a1 : Bool} {a2 : Bool} {a3 : Bool} {a4 : State} (h4 : Keeps s0 a4) : KeepsR s0
    (execLpmLookup a0 a1 a2 a3 a4) := by
  unfold execLpmLookup
  exact KeepsR.next (slotCmd_ok h4 (fun y0 y1 y2 hy2 => cmdLpmLookup_ok hy2))

theorem execL2Lookup_ok {a0 : Nat} {a1 : Bool} {a2 : Bool} {a3 : Nat} {a4 : State} (h4 : Keeps s0 a4) : KeepsR s0
    (execL2Lookup a0 a1 a2 a3 a4) := by
  unfold execL2Lookup
  exact KeepsR.next (slotCmd_ok h4 (fun y0 y1 y2 hy2 => cmdL2Lookup_ok hy2))

theorem execCipherEncrypt_ok {a0 : Nat} {a1 : Bool} {a2 : Bool} {a3 : State} (h3 : Keeps s0 a3) : KeepsR s0
    (execCipherEncrypt a0 a1 a2 a3) := by
  unfold execCipherEncrypt
  exact KeepsR.next (slotCmd_ok h3 (fun y0 y1 y2 hy2 => cmdCipher_ok hy2))

theorem execCipherDecrypt_ok {a0 : Nat} {a1 : Bool} {a2 : Bool} {a3 : State} (h3 : Keeps s0 a3) : KeepsR s0
    (execCipherDecrypt a0 a1 a2 a3) := by
  unfold execCipherDecrypt
  exact KeepsR.next (slotCmd_ok h3 (fun y0 y1 y2 hy2 => cmdCipher_ok hy2))

theorem execCipherMacGen_ok {a0 : Nat} {a1 : Bool} {a2 : Bool} {a3 : State} (h3 : Keeps s0 a3) : KeepsR s0
    (execCipherMacGen a0 a1 a2 a3) := by
  unfold execCipherMacGen
  exact KeepsR.next (slotCmd_ok h3 (fun y0 y1 y2 hy2 => cmdCipher_ok hy2))

theorem execCipherMacVerify_ok {a0 : Nat} {a1 : Bool} {a2 : Bool} {a3 : State} (h3 : Keeps s0 a3) : KeepsR s0
    (execCipherMacVerify a0 a1 a2 a3) := by
  unfold execCipherMacVerify
  exact KeepsR.next (slotCmd_ok h3 (fun y0 y1 y2 hy2 => cmdCipher_ok hy2))

theorem execDmaStart_ok {a0 : Nat} {a1 : Bool} {a2 : Bool} {a3 : State} (h3 : Keeps s0 a3) : KeepsR s0 (execDmaStart
    a0 a1 a2 a3) := by
  unfold execDmaStart
  exact KeepsR.next (slotCmd_ok h3 (fun y0 y1 y2 hy2 => cmdDmaStart_ok hy2))

theorem execDmaCopy_ok {a0 : Nat} {a1 : Bool} {a2 : Bool} {a3 : State} (h3 : Keeps s0 a3) : KeepsR s0 (execDmaCopy a0
    a1 a2 a3) := by
  unfold execDmaCopy
  exact KeepsR.next (slotCmd_ok h3 (fun y0 y1 y2 hy2 => cmdDmaCopy_ok hy2))

theorem execCounterAdd_ok {a0 : Nat} {a1 : Bool} {a2 : Bool} {a3 : State} (h3 : Keeps s0 a3) : KeepsR s0
    (execCounterAdd a0 a1 a2 a3) := by
  unfold execCounterAdd
  exact KeepsR.next (slotCmd_ok h3 (fun y0 y1 y2 hy2 => cmdCounterAdd_ok hy2))

theorem execCounterRead_ok {a0 : Nat} {a1 : Bool} {a2 : Bool} {a3 : State} (h3 : Keeps s0 a3) : KeepsR s0
    (execCounterRead a0 a1 a2 a3) := by
  unfold execCounterRead
  exact KeepsR.next (slotCmd_ok h3 (fun y0 y1 y2 hy2 => cmdCounterRead_ok hy2))

theorem execCounterReadClear_ok {a0 : Nat} {a1 : Bool} {a2 : Bool} {a3 : State} (h3 : Keeps s0 a3) : KeepsR s0
    (execCounterReadClear a0 a1 a2 a3) := by
  unfold execCounterReadClear
  exact KeepsR.next (slotCmd_ok h3 (fun y0 y1 y2 hy2 => cmdCounterReadClear_ok hy2))

theorem execSendFrame_ok {a0 : Nat} {a1 : Bool} {a2 : Bool} {a3 : State} (h3 : Keeps s0 a3) : KeepsR s0 (execSendFrame
    a0 a1 a2 a3) := by
  unfold execSendFrame
  exact KeepsR.next (slotCmd_ok h3 (fun y0 y1 y2 hy2 => cmdSendFrame_ok hy2))

theorem execSendMbx_ok {a0 : Nat} {a1 : Bool} {a2 : Bool} {a3 : State} (h3 : Keeps s0 a3) : KeepsR s0 (execSendMbx a0
    a1 a2 a3) := by
  unfold execSendMbx
  exact KeepsR.next (slotCmd_ok h3 (fun y0 y1 y2 hy2 => cmdSendMbx_ok hy2))

theorem execTriggerArm_ok {a0 : Nat} {a1 : Bool} {a2 : Bool} {a3 : State} (h3 : Keeps s0 a3) : KeepsR s0
    (execTriggerArm a0 a1 a2 a3) := by
  unfold execTriggerArm
  exact KeepsR.next (slotCmd_ok h3 (fun y0 y1 y2 hy2 => cmdTriggerArm_ok hy2))

theorem execTriggerDisarm_ok {a0 : Nat} {a1 : Bool} {a2 : Bool} {a3 : State} (h3 : Keeps s0 a3) : KeepsR s0
    (execTriggerDisarm a0 a1 a2 a3) := by
  unfold execTriggerDisarm
  exact KeepsR.next (slotCmd_ok h3 (fun y0 y1 y2 hy2 => cmdTriggerDisarm_ok hy2))

theorem resultIn_ok {a0 : State} {a1 : Nat} {a2 : Nat} {a3 : List Nat} (h0 : Keeps s0 a0) : Keeps s0 (State.resultIn
    a0 a1 a2 a3) := by
  unfold State.resultIn
  lift_lets -underBinder +implicits
  intro x0
  have hx0 : Keeps s0 x0 := put_ok (put_ok h0 rfl) rfl
  clear_value x0
  exact raiseEv_ok (forEach_ok hx0 (fun a1 t2 ht2 => set_ok ht2 rfl))

theorem execCmdResultArrival_ok {a0 : Nat} {a1 : State} (h1 : Keeps s0 a1) : KeepsR s0 (execCmdResultArrival a0 a1) :=
    by
  unfold execCmdResultArrival
  split
  · exact KeepsR.next h1
  · exact ite_of (Q := KeepsR s0) (KeepsR.next (resultIn_ok (Keeps.other h1 rfl rfl rfl rfl)))
      (KeepsR.next (Keeps.other h1 rfl rfl rfl rfl))

end Sys2Proof.Laws
end

