-- ==== Sys2Proof/Laws/KeepsFire.lean ====
section
/-! SUPPORT. Sys2Proof/Laws/KeepsFire.lean: `Keeps` of each operation of Machine/Fire.lean. -/

namespace Sys2Proof.Laws

open Sys2Proof.Machine

variable {s0 : Base}

theorem fireSlot_ok {a0 : State} {a1 : Nat} {a2 : Nat} {a3 : Nat} (h0 : Keeps s0 a0) : Keeps s0 (State.fireSlot a0 a1
    a2 a3) := by
  unfold State.fireSlot
  lift_lets -underBinder +implicits
  intro x0
  intro x1
  have hx1 : Keeps s0 x1 := slotTrig_ok h0
  clear_value x1
  exact Keeps.ite (slotTrig_ok h0) (Keeps.ite (slotTrig_ok h0) (Keeps.ite (Keeps.other hx1 rfl rfl rfl rfl) h0))

theorem fireDest_ok {a0 : State} {a1 : Nat} {a2 : Nat} (h0 : Keeps s0 a0) : Keeps s0 (State.fireDest a0 a1 a2) := by
  unfold State.fireDest
  lift_lets -underBinder +implicits
  intro x0
  split
  · exact fireSlot_ok h0
  · split
    · exact raiseEv_ok h0
    · exact Keeps.ite (dmaTrigger_ok h0) (Keeps.ite (strobe_ok h0) (Keeps.ite (capture_ok h0) h0))

theorem fire_ok {a0 : State} {a1 : Nat} (h0 : Keeps s0 a0) : Keeps s0 (State.fire a0 a1) := by
  unfold State.fire
  lift_lets -underBinder +implicits
  intro x0
  intro x1
  intro x2
  intro x3
  intro x4
  have hx4 : Keeps s0 x4 := fireDest_ok (sendTrg_ok h0)
  clear_value x4
  intro x5
  have hx5 : Keeps s0 x5 := pmu_ok hx4
  clear_value x5
  intro x6
  have hx6 : Keeps s0 x6 := Keeps.ite hx5 (set_ok hx5 rfl)
  clear_value x6
  exact Keeps.ite h0 (trigEnd_ok hx6)

theorem execTrigFire_ok {a0 : Nat} {a1 : State} (h1 : Keeps s0 a1) : KeepsR s0 (execTrigFire a0 a1) := by
  unfold execTrigFire
  exact KeepsR.next (fire_ok h1)

end Sys2Proof.Laws
end

