-- ==== Sys2Proof/Laws/KeepsIngress.lean ====
section
/-! SUPPORT. Sys2Proof/Laws/KeepsIngress.lean: `Keeps` of each operation of Machine/Ingress.lean. -/

namespace Sys2Proof.Laws

open Sys2Proof.Machine

variable {s0 : Base}

theorem execFrameFirstCell_ok {a0 : Nat} {a1 : FirstCell} {a2 : Nat} {a3 : State} (h3 : Keeps s0 a3) : KeepsR s0
    (execFrameFirstCell a0 a1 a2 a3) := by
  unfold execFrameFirstCell
  lift_lets -underBinder +implicits
  intro x0
  intro x1
  intro x2
  intro x3
  intro x4
  have hx4 : Keeps s0 x4 := newFrame_ok h3
  clear_value x4
  exact ite_of (Q := KeepsR s0) (KeepsR.next h3) (ite_of (Q := KeepsR s0) (KeepsR.next (pmu_ok (cnt_ok h3)))
      (KeepsR.next (judgePort_ok (pmu_ok (set_ok (setCharge_ok hx4) rfl)))))

theorem rxDiscard_ok {a0 : State} {a1 : Nat} (h0 : Keeps s0 a0) : Keeps s0 (State.rxDiscard a0 a1) := by
  unfold State.rxDiscard
  exact freeFrame_ok h0

theorem macControl_ok {a0 : State} {a1 : Nat} {a2 : List Byte} (h0 : Keeps s0 a0) : Keeps s0 (State.macControl a0 a1
    a2) := by
  unfold State.macControl
  exact Keeps.ite (rxPause_ok h0) (Keeps.ite (rxPfc_ok h0) (cnt_ok h0))

theorem ctlFrame_ok {a0 : State} {a1 : Nat} {a2 : List Byte} (h0 : Keeps s0 a0) : Keeps s0 (State.ctlFrame a0 a1 a2)
    := by
  unfold State.ctlFrame
  lift_lets -underBinder +implicits
  intro x0
  intro x1
  intro x2
  intro x3
  exact Keeps.ite (lcnt_ok h0) (Keeps.ite (rxChpause_ok (lcnt_ok h0)) (Keeps.ite (shellMbx_ok (lcnt_ok h0)) (Keeps.ite
      (rxMgmt_ok (lcnt_ok h0)) (Keeps.ite (rxCredit_ok (lcnt_ok h0)) (lcnt_ok h0)))))

theorem rxStore_ok {a0 : State} {a1 : Nat} {a2 : Nat} {a3 : List Byte} (h0 : Keeps s0 a0) : Keeps s0 (State.rxStore a0
    a1 a2 a3) := by
  unfold State.rxStore
  lift_lets -underBinder +implicits
  intro x0
  intro x1
  have hx1 : KeepsS s0 x1 := meter_ok h0
  clear_value x1
  intro x2
  intro x3
  have hx3 : Keeps s0 x3 := updFrame_ok (KeepsS.to hx1)
  clear_value x3
  exact Keeps.ite (rxDiscard_ok (cnt_ok (KeepsS.to hx1))) (judgePort_ok (cnt_ok (cnt_ok hx3)))

theorem moveFrame_ok {a0 : State} {a1 : Nat} {a2 : Nat} (h0 : Keeps s0 a0) : Keeps s0 (State.moveFrame a0 a1 a2) := by
  unfold State.moveFrame
  lift_lets -underBinder +implicits
  intro x0
  intro x1
  have hx1 : Keeps s0 x1 := judgePort_ok (setCharge_ok h0)
  clear_value x1
  exact Keeps.ite h0 (judgePort_ok (updFrame_ok (setCharge_ok hx1)))

theorem tagIn_ok {a0 : State} {a1 : Nat} {a2 : Nat} {a3 : Nat} {a4 : List Byte} (h0 : Keeps s0 a0) : Keeps s0
    (State.tagIn a0 a1 a2 a3 a4) := by
  unfold State.tagIn
  lift_lets -underBinder +implicits
  intro x0
  intro x1
  intro x2
  have hx2 : Keeps s0 x2 := Keeps.ite (set_ok (set_ok h0 rfl) rfl) h0
  clear_value x2
  exact Keeps.ite (rxDiscard_ok (lcnt_ok h0)) (Keeps.ite (rxDiscard_ok (lcnt_ok h0)) (Keeps.ite (ctlFrame_ok
      (rxDiscard_ok h0)) (Keeps.ite (rxDiscard_ok (lcnt_ok h0)) (Keeps.ite (rxDiscard_ok (lcnt_ok h0)) (rxStore_ok
      (moveFrame_ok hx2))))))

theorem execFrameEnd_ok {a0 : Nat} {a1 : Bool} {a2 : List Byte} {a3 : State} (h3 : Keeps s0 a3) : KeepsR s0
    (execFrameEnd a0 a1 a2 a3) := by
  unfold execFrameEnd
  split
  · exact KeepsR.next h3
  · lift_lets -underBinder +implicits
    intro x1
    have hx1 : Keeps s0 x1 := set_ok h3 rfl
    clear_value x1
    intro x2
    intro x3
    intro x4
    intro x5
    intro x6
    have hx6 : ∀ y7, ∀ y8, Keeps s0 (x6 y7 y8) := by
      intro y7 y8
      exact Keeps.ite (lcnt_ok hx1) (cnt_ok hx1)
    clear_value x6
    exact ite_of (Q := KeepsR s0) (KeepsR.next (rxDiscard_ok hx1)) (ite_of (Q := KeepsR s0) (KeepsR.next (rxDiscard_ok
        (hx6 _ _))) (ite_of (Q := KeepsR s0) (KeepsR.next (rxDiscard_ok (hx6 _ _))) (ite_of (Q := KeepsR s0)
        (KeepsR.next (rxDiscard_ok (hx6 _ _))) (ite_of (Q := KeepsR s0) (KeepsR.next (tagIn_ok hx1)) (ite_of (Q :=
        KeepsR s0) (KeepsR.next (macControl_ok (rxDiscard_ok hx1))) (KeepsR.next (rxStore_ok hx1)))))))

theorem poolDwrr_ok {a0 : List Nat} {a1 a2 : Nat} {a3 : State} (h3 : Keeps s0 a3) : KeepsS s0 (poolDwrr a0 a1 a2 a3)
    := by
  induction a1 generalizing a2 a3 with
  | zero => exact h3
  | succ n ih =>
    unfold poolDwrr
    split
    · exact h3
    · exact ite_of (Q := KeepsS s0) (KeepsS.of (set_ok (set_ok h3 rfl) rfl)) (ih (set_ok h3 rfl))

theorem execHostFrameFetch_ok {a0 : State} (h0 : Keeps s0 a0) : KeepsR s0 (execHostFrameFetch a0) := by
  unfold execHostFrameFetch
  lift_lets -underBinder +implicits
  intro x0
  intro x1
  intro x2
  have hx2 : Keeps s0 x2 := forEach_ok h0 (fun a3 t4 ht4 => set_ok ht4 rfl)
  clear_value x2
  refine ite_of (Q := KeepsR s0) (KeepsR.next h0) ?_
  split
  · next m5 heq =>
    have hm5 : Keeps s0 m5 := by
      refine KeepsS.eq heq ?_
      exact poolDwrr_ok hx2
    exact KeepsR.next hx2
  · next m6 m7 m8 heq =>
    have hm8 : Keeps s0 m8 := by
      refine KeepsS.eq heq ?_
      exact poolDwrr_ok hx2
    lift_lets -underBinder +implicits
    intro x9
    intro x10
    intro x11
    have hx11 : Keeps s0 x11 := updFrame_ok (set_ok (set_ok hm8 rfl) rfl)
    clear_value x11
    refine ite_of (Q := KeepsR s0) (KeepsR.next hx2) ?_
    split
    · exact KeepsR.next hx11
    · exact ite_of (Q := KeepsR s0) (KeepsR.next (forEach_ok hx11 (fun a13 t14 ht14 => hostRead_ok ht14)))
        (KeepsR.next (hostRead_ok hx11))

theorem execHostFrameReady_ok {a0 : Nat} {a1 : Nat} {a2 : ReadResult} {a3 : State} (h3 : Keeps s0 a3) : KeepsR s0
    (execHostFrameReady a0 a1 a2 a3) := by
  unfold execHostFrameReady
  split
  · exact KeepsR.next h3
  · split
    · exact KeepsR.next (pmu_ok (updFrame_ok h3))
    · exact KeepsR.next (endFrame_ok (aer_ok h3))

end Sys2Proof.Laws
end

