-- ==== Sys2Proof/Laws/KeepsNiris.lean ====
section
/-! SUPPORT. Sys2Proof/Laws/KeepsNiris.lean: `Keeps` of each operation of Machine/Niris.lean. -/

namespace Sys2Proof.Laws

open Sys2Proof.Machine

variable {s0 : Base}

theorem execAdd_ok {a0 : Nat} {a1 : Bool} {a2 : State} (h2 : Keeps s0 a2) : KeepsR s0 (execAdd a0 a1 a2) := by
  unfold execAdd
  exact KeepsR.next (slot_ok h2 (fun y0 y1 y2 hy2 => alu_ok hy2))

theorem execAddi_ok {a0 : Nat} {a1 : Bool} {a2 : State} (h2 : Keeps s0 a2) : KeepsR s0 (execAddi a0 a1 a2) := by
  unfold execAddi
  exact KeepsR.next (slot_ok h2 (fun y0 y1 y2 hy2 => alu_ok hy2))

theorem execSub_ok {a0 : Nat} {a1 : Bool} {a2 : State} (h2 : Keeps s0 a2) : KeepsR s0 (execSub a0 a1 a2) := by
  unfold execSub
  exact KeepsR.next (slot_ok h2 (fun y0 y1 y2 hy2 => alu_ok hy2))

theorem execSubi_ok {a0 : Nat} {a1 : Bool} {a2 : State} (h2 : Keeps s0 a2) : KeepsR s0 (execSubi a0 a1 a2) := by
  unfold execSubi
  exact KeepsR.next (slot_ok h2 (fun y0 y1 y2 hy2 => alu_ok hy2))

theorem execAnd_ok {a0 : Nat} {a1 : Bool} {a2 : State} (h2 : Keeps s0 a2) : KeepsR s0 (execAnd a0 a1 a2) := by
  unfold execAnd
  exact KeepsR.next (slot_ok h2 (fun y0 y1 y2 hy2 => alu_ok hy2))

theorem execAndi_ok {a0 : Nat} {a1 : Bool} {a2 : State} (h2 : Keeps s0 a2) : KeepsR s0 (execAndi a0 a1 a2) := by
  unfold execAndi
  exact KeepsR.next (slot_ok h2 (fun y0 y1 y2 hy2 => alu_ok hy2))

theorem execOr_ok {a0 : Nat} {a1 : Bool} {a2 : State} (h2 : Keeps s0 a2) : KeepsR s0 (execOr a0 a1 a2) := by
  unfold execOr
  exact KeepsR.next (slot_ok h2 (fun y0 y1 y2 hy2 => alu_ok hy2))

theorem execOri_ok {a0 : Nat} {a1 : Bool} {a2 : State} (h2 : Keeps s0 a2) : KeepsR s0 (execOri a0 a1 a2) := by
  unfold execOri
  exact KeepsR.next (slot_ok h2 (fun y0 y1 y2 hy2 => alu_ok hy2))

theorem execXor_ok {a0 : Nat} {a1 : Bool} {a2 : State} (h2 : Keeps s0 a2) : KeepsR s0 (execXor a0 a1 a2) := by
  unfold execXor
  exact KeepsR.next (slot_ok h2 (fun y0 y1 y2 hy2 => alu_ok hy2))

theorem execXori_ok {a0 : Nat} {a1 : Bool} {a2 : State} (h2 : Keeps s0 a2) : KeepsR s0 (execXori a0 a1 a2) := by
  unfold execXori
  exact KeepsR.next (slot_ok h2 (fun y0 y1 y2 hy2 => alu_ok hy2))

theorem execShl_ok {a0 : Nat} {a1 : Bool} {a2 : State} (h2 : Keeps s0 a2) : KeepsR s0 (execShl a0 a1 a2) := by
  unfold execShl
  exact KeepsR.next (slot_ok h2 (fun y0 y1 y2 hy2 => alu_ok hy2))

theorem execShli_ok {a0 : Nat} {a1 : Bool} {a2 : State} (h2 : Keeps s0 a2) : KeepsR s0 (execShli a0 a1 a2) := by
  unfold execShli
  exact KeepsR.next (slot_ok h2 (fun y0 y1 y2 hy2 => alu_ok hy2))

theorem execShr_ok {a0 : Nat} {a1 : Bool} {a2 : State} (h2 : Keeps s0 a2) : KeepsR s0 (execShr a0 a1 a2) := by
  unfold execShr
  exact KeepsR.next (slot_ok h2 (fun y0 y1 y2 hy2 => alu_ok hy2))

theorem execShri_ok {a0 : Nat} {a1 : Bool} {a2 : State} (h2 : Keeps s0 a2) : KeepsR s0 (execShri a0 a1 a2) := by
  unfold execShri
  exact KeepsR.next (slot_ok h2 (fun y0 y1 y2 hy2 => alu_ok hy2))

theorem execSar_ok {a0 : Nat} {a1 : Bool} {a2 : State} (h2 : Keeps s0 a2) : KeepsR s0 (execSar a0 a1 a2) := by
  unfold execSar
  exact KeepsR.next (slot_ok h2 (fun y0 y1 y2 hy2 => alu_ok hy2))

theorem execSari_ok {a0 : Nat} {a1 : Bool} {a2 : State} (h2 : Keeps s0 a2) : KeepsR s0 (execSari a0 a1 a2) := by
  unfold execSari
  exact KeepsR.next (slot_ok h2 (fun y0 y1 y2 hy2 => alu_ok hy2))

theorem execRot_ok {a0 : Nat} {a1 : Bool} {a2 : State} (h2 : Keeps s0 a2) : KeepsR s0 (execRot a0 a1 a2) := by
  unfold execRot
  exact KeepsR.next (slot_ok h2 (fun y0 y1 y2 hy2 => alu_ok hy2))

theorem execRoti_ok {a0 : Nat} {a1 : Bool} {a2 : State} (h2 : Keeps s0 a2) : KeepsR s0 (execRoti a0 a1 a2) := by
  unfold execRoti
  exact KeepsR.next (slot_ok h2 (fun y0 y1 y2 hy2 => alu_ok hy2))

theorem execMul_ok {a0 : Nat} {a1 : Bool} {a2 : State} (h2 : Keeps s0 a2) : KeepsR s0 (execMul a0 a1 a2) := by
  unfold execMul
  exact KeepsR.next (slot_ok h2 (fun y0 y1 y2 hy2 => alu_ok hy2))

theorem execMuli_ok {a0 : Nat} {a1 : Bool} {a2 : State} (h2 : Keeps s0 a2) : KeepsR s0 (execMuli a0 a1 a2) := by
  unfold execMuli
  exact KeepsR.next (slot_ok h2 (fun y0 y1 y2 hy2 => alu_ok hy2))

theorem execCmp_ok {a0 : Nat} {a1 : Bool} {a2 : State} (h2 : Keeps s0 a2) : KeepsR s0 (execCmp a0 a1 a2) := by
  unfold execCmp
  exact KeepsR.next (slot_ok h2 (fun y0 y1 y2 hy2 => compare_ok hy2))

theorem execCmpi_ok {a0 : Nat} {a1 : Bool} {a2 : State} (h2 : Keeps s0 a2) : KeepsR s0 (execCmpi a0 a1 a2) := by
  unfold execCmpi
  exact KeepsR.next (slot_ok h2 (fun y0 y1 y2 hy2 => compare_ok hy2))

theorem execSel_ok {a0 : Nat} {a1 : Bool} {a2 : State} (h2 : Keeps s0 a2) : KeepsR s0 (execSel a0 a1 a2) := by
  unfold execSel
  exact KeepsR.next (slot_ok h2 (fun y0 y1 y2 hy2 => selOp_ok hy2))

theorem execSeli_ok {a0 : Nat} {a1 : Bool} {a2 : State} (h2 : Keeps s0 a2) : KeepsR s0 (execSeli a0 a1 a2) := by
  unfold execSeli
  exact KeepsR.next (slot_ok h2 (fun y0 y1 y2 hy2 => selOp_ok hy2))

theorem execExt_ok {a0 : Nat} {a1 : Bool} {a2 : State} (h2 : Keeps s0 a2) : KeepsR s0 (execExt a0 a1 a2) := by
  unfold execExt
  exact KeepsR.next (slot_ok h2 (fun y0 y1 y2 hy2 => semExt_ok hy2))

theorem execIns_ok {a0 : Nat} {a1 : Bool} {a2 : State} (h2 : Keeps s0 a2) : KeepsR s0 (execIns a0 a1 a2) := by
  unfold execIns
  exact KeepsR.next (slot_ok h2 (fun y0 y1 y2 hy2 => semIns_ok hy2))

theorem execPopc_ok {a0 : Nat} {a1 : Bool} {a2 : State} (h2 : Keeps s0 a2) : KeepsR s0 (execPopc a0 a1 a2) := by
  unfold execPopc
  exact KeepsR.next (slot_ok h2 (fun y0 y1 y2 hy2 => unary_ok hy2))

theorem execClz_ok {a0 : Nat} {a1 : Bool} {a2 : State} (h2 : Keeps s0 a2) : KeepsR s0 (execClz a0 a1 a2) := by
  unfold execClz
  exact KeepsR.next (slot_ok h2 (fun y0 y1 y2 hy2 => unary_ok hy2))

theorem execBswap_ok {a0 : Nat} {a1 : Bool} {a2 : State} (h2 : Keeps s0 a2) : KeepsR s0 (execBswap a0 a1 a2) := by
  unfold execBswap
  exact KeepsR.next (slot_ok h2 (fun y0 y1 y2 hy2 => unary_ok hy2))

theorem execCsum_ok {a0 : Nat} {a1 : Bool} {a2 : State} (h2 : Keeps s0 a2) : KeepsR s0 (execCsum a0 a1 a2) := by
  unfold execCsum
  exact KeepsR.next (slot_ok h2 (fun y0 y1 y2 hy2 => semCsum_ok hy2))

theorem execPld_ok {a0 : Nat} {a1 : Bool} {a2 : State} (h2 : Keeps s0 a2) : KeepsR s0 (execPld a0 a1 a2) := by
  unfold execPld
  exact KeepsR.next (slot_ok h2 (fun y0 y1 y2 hy2 => semPld_ok hy2))

theorem execPst_ok {a0 : Nat} {a1 : Bool} {a2 : State} (h2 : Keeps s0 a2) : KeepsR s0 (execPst a0 a1 a2) := by
  unfold execPst
  exact KeepsR.next (slot_ok h2 (fun y0 y1 y2 hy2 => semPst_ok hy2))

theorem execSld_ok {a0 : Nat} {a1 : Bool} {a2 : State} (h2 : Keeps s0 a2) : KeepsR s0 (execSld a0 a1 a2) := by
  unfold execSld
  exact KeepsR.next (slot_ok h2 (fun y0 y1 y2 hy2 => semSld_ok hy2))

theorem execSst_ok {a0 : Nat} {a1 : Bool} {a2 : State} (h2 : Keeps s0 a2) : KeepsR s0 (execSst a0 a1 a2) := by
  unfold execSst
  exact KeepsR.next (slot_ok h2 (fun y0 y1 y2 hy2 => semSst_ok hy2))

theorem execSadd_ok {a0 : Nat} {a1 : Bool} {a2 : State} (h2 : Keeps s0 a2) : KeepsR s0 (execSadd a0 a1 a2) := by
  unfold execSadd
  exact KeepsR.next (slot_ok h2 (fun y0 y1 y2 hy2 => semSadd_ok hy2))

theorem execScas_ok {a0 : Nat} {a1 : Bool} {a2 : State} (h2 : Keeps s0 a2) : KeepsR s0 (execScas a0 a1 a2) := by
  unfold execScas
  exact KeepsR.next (slot_ok h2 (fun y0 y1 y2 hy2 => semScas_ok hy2))

theorem execBr_ok {a0 : Nat} {a1 : Bool} {a2 : State} (h2 : Keeps s0 a2) : KeepsR s0 (execBr a0 a1 a2) := by
  unfold execBr
  exact KeepsR.next (slot_ok h2 (fun y0 y1 y2 hy2 => semBr_ok hy2))

theorem execBrc_ok {a0 : Nat} {a1 : Bool} {a2 : State} (h2 : Keeps s0 a2) : KeepsR s0 (execBrc a0 a1 a2) := by
  unfold execBrc
  exact KeepsR.next (slot_ok h2 (fun y0 y1 y2 hy2 => semBrc_ok hy2))

theorem execCall_ok {a0 : Nat} {a1 : Bool} {a2 : State} (h2 : Keeps s0 a2) : KeepsR s0 (execCall a0 a1 a2) := by
  unfold execCall
  exact KeepsR.next (slot_ok h2 (fun y0 y1 y2 hy2 => semCall_ok hy2))

theorem execRet_ok {a0 : Nat} {a1 : Bool} {a2 : State} (h2 : Keeps s0 a2) : KeepsR s0 (execRet a0 a1 a2) := by
  unfold execRet
  exact KeepsR.next (slot_ok h2 (fun y0 y1 y2 hy2 => semRet_ok hy2))

theorem execJmpt_ok {a0 : Nat} {a1 : Bool} {a2 : State} (h2 : Keeps s0 a2) : KeepsR s0 (execJmpt a0 a1 a2) := by
  unfold execJmpt
  exact KeepsR.next (slot_ok h2 (fun y0 y1 y2 hy2 => semJmpt_ok hy2))

theorem execWaite_ok {a0 : Nat} {a1 : Bool} {a2 : State} (h2 : Keeps s0 a2) : KeepsR s0 (execWaite a0 a1 a2) := by
  unfold execWaite
  exact KeepsR.next (slot_ok h2 (fun y0 y1 y2 hy2 => semWaite_ok hy2))

theorem execSige_ok {a0 : Nat} {a1 : Bool} {a2 : State} (h2 : Keeps s0 a2) : KeepsR s0 (execSige a0 a1 a2) := by
  unfold execSige
  exact KeepsR.next (slot_ok h2 (fun y0 y1 y2 hy2 => semSige_ok hy2))

theorem execWaitt_ok {a0 : Nat} {a1 : Bool} {a2 : State} (h2 : Keeps s0 a2) : KeepsR s0 (execWaitt a0 a1 a2) := by
  unfold execWaitt
  exact KeepsR.next (slot_ok h2 (fun y0 y1 y2 hy2 => semWaitt_ok hy2))

theorem execRdt_ok {a0 : Nat} {a1 : Bool} {a2 : State} (h2 : Keeps s0 a2) : KeepsR s0 (execRdt a0 a1 a2) := by
  unfold execRdt
  exact KeepsR.next (slot_ok h2 (fun y0 y1 y2 hy2 => semRdt_ok hy2))

theorem execCmdw_ok {a0 : Nat} {a1 : Bool} {a2 : State} (h2 : Keeps s0 a2) : KeepsR s0 (execCmdw a0 a1 a2) := by
  unfold execCmdw
  exact KeepsR.next (slot_ok h2 (fun y0 y1 y2 hy2 => semCmdw_ok hy2))

theorem execCmdr_ok {a0 : Nat} {a1 : Bool} {a2 : State} (h2 : Keeps s0 a2) : KeepsR s0 (execCmdr a0 a1 a2) := by
  unfold execCmdr
  exact KeepsR.next (slot_ok h2 (fun y0 y1 y2 hy2 => semCmdr_ok hy2))

theorem execTkt_ok {a0 : Nat} {a1 : Bool} {a2 : State} (h2 : Keeps s0 a2) : KeepsR s0 (execTkt a0 a1 a2) := by
  unfold execTkt
  exact KeepsR.next (slot_ok h2 (fun y0 y1 y2 hy2 => semTkt_ok hy2))

theorem execRelForward_ok {a0 : Nat} {a1 : Bool} {a2 : State} (h2 : Keeps s0 a2) : KeepsR s0 (execRelForward a0 a1 a2)
    := by
  unfold execRelForward
  exact KeepsR.next (slotIf_ok h2 (fun y0 y1 y2 hy2 => semRelForward_ok hy2))

theorem execRelDrop_ok {a0 : Nat} {a1 : Bool} {a2 : State} (h2 : Keeps s0 a2) : KeepsR s0 (execRelDrop a0 a1 a2) := by
  unfold execRelDrop
  exact KeepsR.next (slotIf_ok h2 (fun y0 y1 y2 hy2 => semRelDrop_ok hy2))

theorem execRelPass_ok {a0 : Nat} {a1 : Bool} {a2 : State} (h2 : Keeps s0 a2) : KeepsR s0 (execRelPass a0 a1 a2) := by
  unfold execRelPass
  exact KeepsR.next (slotIf_ok h2 (fun y0 y1 y2 hy2 => semRelPass_ok hy2))

theorem execThst_ok {a0 : Nat} {a1 : Bool} {a2 : State} (h2 : Keeps s0 a2) : KeepsR s0 (execThst a0 a1 a2) := by
  unfold execThst
  exact KeepsR.next (slot_ok h2 (fun y0 y1 y2 hy2 => semThst_ok hy2))

theorem execThrs_ok {a0 : Nat} {a1 : Bool} {a2 : State} (h2 : Keeps s0 a2) : KeepsR s0 (execThrs a0 a1 a2) := by
  unfold execThrs
  exact KeepsR.next (slot_ok h2 (fun y0 y1 y2 hy2 => semThrs_ok hy2))

theorem execFltr_ok {a0 : Nat} {a1 : Bool} {a2 : State} (h2 : Keeps s0 a2) : KeepsR s0 (execFltr a0 a1 a2) := by
  unfold execFltr
  exact KeepsR.next (slot_ok h2 (fun y0 y1 y2 hy2 => semFltr_ok hy2))

end Sys2Proof.Laws
end

