-- ==== Sys2Proof/Laws/KeepsNirisMem.lean ====
section
/-! SUPPORT. Sys2Proof/Laws/KeepsNirisMem.lean: `Keeps` of each operation of Machine/NirisMem.lean. -/

namespace Sys2Proof.Laws

open Sys2Proof.Machine

variable {s0 : Base}

theorem semLoad_ok {a0 : Nat} {a1 : Nat} {a2 : State} (h2 : Keeps s0 a2) : Keeps s0 (semLoad a0 a1 a2) := by
  unfold semLoad
  split
  · exact semLd_ok h2
  · lift_lets -underBinder +implicits
    intro x1
    have hx1 : KeepsF s0 x1 := devRead_ok h2
    clear_value x1
    exact Keeps.ite (fault_ok h2) (retire_ok (tput_ok (KeepsF.to hx1)))

theorem semStore_ok {a0 : Nat} {a1 : Nat} {a2 : State} [Shifts s0] (h2 : Keeps s0 a2) : Keeps s0 (semStore a0 a1 a2)
    := by
  unfold semStore
  split
  · exact semSt_ok h2
  · have : Rights s0 (.fw (a0 - 4096)) := ⟨nofun⟩
    exact Keeps.ite (fault_ok h2) (retire_ok (devWrite_ok h2))

theorem execLd_ok {a0 : Nat} {a1 : Bool} {a2 : State} (h2 : Keeps s0 a2) : KeepsR s0 (execLd a0 a1 a2) := by
  unfold execLd
  exact KeepsR.next (slot_ok h2 (fun y0 y1 y2 hy2 => semLoad_ok hy2))

theorem execSt_ok {a0 : Nat} {a1 : Bool} {a2 : State} [Shifts s0] (h2 : Keeps s0 a2) : KeepsR s0 (execSt a0 a1 a2) := by
  unfold execSt
  exact KeepsR.next (slot_ok h2 (fun y0 y1 y2 hy2 => semStore_ok hy2))

end Sys2Proof.Laws
end

