-- ==== Sys2Proof/Laws/KeepsTick.lean ====
section
/-! SUPPORT. Sys2Proof/Laws/KeepsTick.lean: `Keeps` of each operation of Machine/Tick.lean. -/

namespace Sys2Proof.Laws

open Sys2Proof.Machine

variable {s0 : Base}

theorem runDue_ok {a0 : State} (h0 : Keeps s0 a0) : Keeps s0 (State.runDue a0) := by
  unfold State.runDue
  lift_lets -underBinder +implicits
  intro x0
  have hx0 : Keeps s0 x0 := forEach_ok h0 (fun a1 t2 ht2 => takeover_ok ht2)
  clear_value x0
  intro x3
  have hx3 : Keeps s0 x3 := forEach_ok hx0 (fun a4 t5 ht5 => stageLoad_ok ht5)
  clear_value x3
  intro x6
  have hx6 : Keeps s0 x6 := forEach_ok hx3 (fun a7 t8 ht8 => trgLead_ok ht8)
  clear_value x6
  intro x9
  have hx9 : Keeps s0 x9 := forEach_ok hx6 (fun a10 t11 ht11 => fire_ok ht11)
  clear_value x9
  intro x12
  have hx12 : Keeps s0 x12 := forEach_ok hx9 (fun a13 t14 ht14 => pulseEnd_ok ht14)
  clear_value x12
  intro x15
  have hx15 : Keeps s0 x15 := ppsRise_ok (ppsFall_ok hx12)
  clear_value x15
  exact tblDue_ok (periodic_ok (forEach_ok hx15 (fun a16 t17 ht17 => stimeReached_ok ht17)))

theorem starveSlot_ok {a0 : State} {a1 : Nat} (h0 : Keeps s0 a0) : Keeps s0 (State.starveSlot a0 a1) := by
  unfold State.starveSlot
  lift_lets -underBinder +implicits
  intro x0
  have hx0 : Keeps s0 x0 := Keeps.ite (slotPass_ok h0) h0
  clear_value x0
  exact coreEvOne_ok (inc_ok hx0 rfl)

theorem starve_ok {a0 : State} (h0 : Keeps s0 a0) : Keeps s0 (State.starve a0) := by
  unfold State.starve
  lift_lets -underBinder +implicits
  intro x0
  exact Keeps.ite (forEach_ok h0 (fun a1 t2 ht2 => starveSlot_ok ht2)) h0

theorem cycleEvents_ok {a0 : State} (h0 : Keeps s0 a0) : Keeps s0 (State.cycleEvents a0) := by
  unfold State.cycleEvents
  lift_lets -underBinder +implicits
  intro x0
  intro x1
  have hx1 : Keeps s0 x1 := forEach_ok h0 (fun a2 t3 ht3 => pmu_ok ht3)
  clear_value x1
  exact Keeps.ite (forEach_ok hx1 (fun a4 t5 ht5 => pmu_ok ht5)) h0

theorem tick_ok {a0 : State} [Moves s0] (h0 : Keeps s0 a0) : Keeps s0 (State.tick a0) := by
  unfold State.tick
  exact advance_ok (cycleEvents_ok (starve_ok (runDue_ok h0)))

theorem ticks_ok {a0 : Nat} {a1 : State} [Moves s0] (h1 : Keeps s0 a1) : Keeps s0 (State.ticks a0 a1) := by
  induction a0 generalizing a1 with
  | zero => exact h1
  | succ n ih => exact ih (tick_ok h1)

theorem execSlewDone_ok {a0 : State} [Moves s0] (h0 : Keeps s0 a0) : KeepsR s0 (execSlewDone a0) := by
  unfold execSlewDone
  exact ite_of (Q := KeepsR s0) (KeepsR.next h0) (KeepsR.next (ticks_ok h0))

end Sys2Proof.Laws
end

