-- ==== Sys2Proof/Laws/Slots.lean ====
section
/-! SUPPORT. Sys2Proof/Laws/Slots.lean: what a slot of a thread may change, and when it executes the instruction that the
thread has reached. -/

namespace Sys2Proof.Laws

open Sys2Proof.Machine

variable {s u : State} {g : Fld} {j t : Nat}

/-- The numbers of the fields in which slots are counted: the classes and core counters of the PMU. -/
def slotCounters : List Nat :=
  [Reg.PMU_SLOT_RETIRED_retired.id, Reg.PMU_SLOT_WASTED_wasted.id, Reg.PMU_SLOT_FRONT_front.id, Reg.PMU_SLOT_BACK_back.id,
   Reg.PMU_CORE_CTR_value.id, Reg.PMU_CORE_CFG_ovf.id]

/-- The numbers of the fields that a retiring slot may change beside the instruction's own effect. -/
def slotFields : List Nat :=
  slotCounters ++ [Reg.TH_slots.id, Reg.TH_hz.id, Reg.TH_pc.id, Reg.TH_wait.id, Reg.CLU_dlk.id]

/-- A field of which no slot counter is a neighbour in the register file. -/
def offSlot (g : Fld) : Bool := slotFields.all (fun n => g.id % 4096 != n % 4096)

theorem offSlot_ne {n : Nat} (h : offSlot g = true) (hn : n ∈ slotFields) : g.id % 4096 ≠ n % 4096 := by
  have := List.all_eq_true.1 h n hn
  simpa using this

theorem coreCtr_spares (h : Spares g j s u) (hv : g.id % 4096 ≠ Reg.PMU_CORE_CTR_value.id % 4096)
    (ho : g.id % 4096 ≠ Reg.PMU_CORE_CFG_ovf.id % 4096) : ∀ {n i : Nat}, Spares g j s (coreCtr n i u) := by
  intro n
  induction n generalizing u with
  | zero => exact h
  | succ n ih =>
    intro i
    unfold coreCtr
    exact Spares.ite (Spares.ite (ih ((h.set hv).put ho)) ((h.set hv).put ho)) (h.set hv)

theorem coreEv_spares {e : Nat} (h : Spares g j s u) (hv : g.id % 4096 ≠ Reg.PMU_CORE_CTR_value.id % 4096)
    (ho : g.id % 4096 ≠ Reg.PMU_CORE_CFG_ovf.id % 4096) : Spares g j s (u.coreEv t e) := by
  unfold State.coreEv
  refine h.forEach (fun x _ v k => ?_)
  unfold State.coreEvOne
  exact k.ite (k.forEach (fun i _ v k => (coreCtr_spares k hv ho).ite k))

/-- Counting a slot leaves every field alone that is no slot counter. -/
theorem slotIs_spares {c : SlotClass} (h : Spares g j s u) (hg : offSlot g = true) : Spares g j s (u.slotIs t c) := by
  have ne := fun {n} => offSlot_ne (n := n) hg
  unfold State.slotIs
  refine coreEv_spares (h.forEach (fun x _ v k => ?_)) (ne (by decide)) (ne (by decide))
  cases c
  · exact k.set (ne (by decide))
  · exact k.set (ne (by decide))
  · exact k.set (ne (by decide))
  · exact k.set (ne (by decide))

theorem slotPass_spares (h : Spares g j s u) (hg : offSlot g = true) : Spares g j s (u.slotPass t) := by
  have ne := fun {n} => offSlot_ne (n := n) hg
  exact (h.set (ne (by decide))).forEach (fun r _ v k => k.set (ne (by decide)))

theorem rearm_spares (h : Spares g j s u) (hg : offSlot g = true) : Spares g j s (u.rearm t) :=
  Spares.ite (h.put (offSlot_ne hg (by decide))) h

/-- A retiring slot leaves every field alone but the slot counters, the instruction index, the wait and the deadlock
detector. -/
theorem retire_spares (h : Spares g j s u) (hg : offSlot g = true) : Spares g j s (u.retire t) :=
  rearm_spares (((slotIs_spares h hg).set (offSlot_ne hg (by decide))).set (offSlot_ne hg (by decide))) hg

theorem jump_spares {pc : Nat} (h : Spares g j s u) (hg : offSlot g = true) : Spares g j s (u.jump t pc) :=
  rearm_spares ((slotIs_spares h hg).set (offSlot_ne hg (by decide))) hg

/-! ## What a slot does not touch outside the register fields -/

/-- `u` differs from `s` in its register fields alone. -/
def FieldsOnly (s u : State) : Prop := u = { s with fld := u.fld }

theorem FieldsOnly.refl : FieldsOnly s s := rfl
theorem FieldsOnly.trans {v : State} (h : FieldsOnly s u) (k : FieldsOnly u v) : FieldsOnly s v := by
  unfold FieldsOnly at *
  rw [k, h]
theorem FieldsOnly.set {f : Fld} {i v : Nat} (h : FieldsOnly s u) : FieldsOnly s (u.set f i v) :=
  h.trans (by unfold FieldsOnly State.set; split <;> rfl)
theorem FieldsOnly.put {f : Fld} {i : Nat} {b : Bool} (h : FieldsOnly s u) : FieldsOnly s (u.put f i b) := h.set
theorem FieldsOnly.ite {c : Prop} [Decidable c] {v : State} (h : FieldsOnly s u) (k : FieldsOnly s v) :
    FieldsOnly s (if c then u else v) := by
  split
  · exact h
  · exact k
theorem FieldsOnly.forEach {α : Type} {l : List α} {f : α → State → State} (h : FieldsOnly s u)
    (hf : ∀ a v, FieldsOnly s v → FieldsOnly s (f a v)) : FieldsOnly s (forEach l f u) := by
  unfold Machine.forEach
  induction l generalizing u with
  | nil => exact h
  | cons a l ih => exact ih (hf a u h)

theorem coreCtr_fieldsOnly (h : FieldsOnly s u) : ∀ {n i : Nat}, FieldsOnly s (coreCtr n i u) := by
  intro n
  induction n generalizing u with
  | zero => exact h
  | succ n ih =>
    intro i
    unfold coreCtr
    exact FieldsOnly.ite (FieldsOnly.ite (ih (h.set.put)) h.set.put) h.set

theorem coreEv_fieldsOnly {e : Nat} (h : FieldsOnly s u) : FieldsOnly s (u.coreEv t e) := by
  unfold State.coreEv
  refine h.forEach (fun x v k => ?_)
  unfold State.coreEvOne
  exact k.ite (k.forEach (fun i v k => (coreCtr_fieldsOnly k).ite k))

theorem slotIs_fieldsOnly {c : SlotClass} (h : FieldsOnly s u) : FieldsOnly s (u.slotIs t c) :=
  coreEv_fieldsOnly (h.forEach (fun _ _ k => k.set))

theorem slotPass_fieldsOnly (h : FieldsOnly s u) : FieldsOnly s (u.slotPass t) := h.set.forEach (fun _ _ k => k.set)

theorem retire_fieldsOnly (h : FieldsOnly s u) : FieldsOnly s (u.retire t) :=
  FieldsOnly.ite (slotIs_fieldsOnly h).set.set.put (slotIs_fieldsOnly h).set.set

theorem jump_fieldsOnly {pc : Nat} (h : FieldsOnly s u) : FieldsOnly s (u.jump t pc) :=
  FieldsOnly.ite (slotIs_fieldsOnly h).set.put (slotIs_fieldsOnly h).set

/-! ## The slot itself -/

/-- Where nothing comes first, the predicate holds, no operand waits and the checker agrees, the slot is the instruction's
own effect after the slot has passed. -/
theorem slotIf_effect {op : Nat} {may : Nat → Bool} {sem : Nat → Nat → State → State} (hi : s.issues t = true)
    (hf : s.slotFirst t (s.insn t) = false) (ho : iOp (s.insn t) = op) (hm : may (s.insn t) = true)
    (hp : s.predOk t (s.insn t) = true)
    (hz : (insnRegs (s.insn t)).all (fun r => r == 0 || s.get Reg.TH_hz (32 * t + r) == 0) = true) :
    s.slotIf t op false may sem = (sem t (s.insn t) (s.slotPass t)).slotEnd t := by
  have hz' : (insnRegs (s.insn t)).any (fun r => r != 0 && s.get Reg.TH_hz (32 * t + r) != 0) = false := by
    rw [List.any_eq_false]
    intro r hr
    have := List.all_eq_true.1 hz r hr
    simp only [Bool.or_eq_true, beq_iff_eq] at this
    rcases this with e | e <;> simp [e]
  simp only [State.slotFirst, Bool.or_eq_false_iff, Bool.not_eq_false'] at hf
  unfold State.slotIf State.slotDo State.slotRun
  simp only [hi, ho, hm, hp, hz', hf.1.1, hf.1.2, hf.2, beq_self_eq_true, Bool.or_true, Bool.and_self, if_true,
    Bool.false_and, Bool.not_true, Bool.false_eq_true, if_false]

theorem slot_effect {op : Nat} {sem : Nat → Nat → State → State} (h : s.runs t op = true) :
    s.slot t op false sem = (sem t (s.insn t) (s.slotPass t)).slotEnd t := by
  unfold State.runs at h
  simp only [Bool.and_eq_true, Bool.not_eq_true', beq_iff_eq] at h
  obtain ⟨⟨⟨⟨a, b⟩, c⟩, d⟩, e⟩ := h
  exact slotIf_effect a b c rfl d e

/-! ## A register result -/

theorem tput_spares {d r : Nat} (h : Spares g j s u) (hg : g.id % 4096 ≠ Reg.TH_g.id % 4096) :
    Spares g j s (u.tput t d r) := Spares.ite h (h.set hg)

theorem tput_fieldsOnly {d r : Nat} (h : FieldsOnly s u) : FieldsOnly s (u.tput t d r) := FieldsOnly.ite h h.set

theorem tput_sorted {d r : Nat} (h : SM.sorted s.fld = true) : SM.sorted (s.tput t d r).fld = true := by
  unfold State.tput
  split
  · exact h
  · exact set_sorted h

theorem slotPass_sorted (h : SM.sorted s.fld = true) : SM.sorted (s.slotPass t).fld = true :=
  (slotPass_spares (g := Reg.TH_g) (j := 0) .refl (by decide) h).1

/-- Registers read in the slot are those before it. -/
theorem slotPass_tg {r : Nat} (h : SM.sorted s.fld = true) : (s.slotPass t).tg t r = s.tg t r := by
  unfold State.tg
  split
  · rfl
  · exact (slotPass_spares .refl (by decide) h).2

theorem slotPass_pc (h : SM.sorted s.fld = true) : (s.slotPass t).get Reg.TH_pc t = s.get Reg.TH_pc t :=
  (((Spares.refl (g := Reg.TH_pc) (j := t)).set (by decide)).forEach (fun _ _ _ k => k.set (by decide)) h).2

/-- A retired instruction is followed by the next one. -/
theorem retire_pc (h : SM.sorted s.fld = true) : (s.retire t).get Reg.TH_pc t = (s.get Reg.TH_pc t + 1) % 2 ^ 15 := by
  have h1 : SM.sorted (s.slotIs t .retired).fld = true := (slotIs_spares (g := Reg.TH_g) (j := 0) .refl (by decide) h).1
  have h2 := get_set_same (f := Reg.TH_pc) (i := t) (v := s.get Reg.TH_pc t + 1) h1
  have h3 : SM.sorted ((s.slotIs t .retired).set Reg.TH_pc t (s.get Reg.TH_pc t + 1)).fld = true := set_sorted h1
  have h4 := get_set_ne (f := Reg.TH_wait) (g := Reg.TH_pc) (i := t) (j := t) (v := 0) h3 (by decide)
  unfold State.retire State.rearm
  split
  · exact ((get_set_ne (set_sorted h3) (by decide)).trans h4).trans h2
  · exact h4.trans h2

/-- An instruction whose effect is a register result writes that register and nothing else of the program's state. -/
theorem result_onlyWrites {d r : Nat} (h : SM.sorted s.fld = true) :
    (((s.slotPass t).tput t d r).retire t).tg t d = (if d = 0 then 0 else r % 2 ^ 64) ∧
    s.onlyWrites (((s.slotPass t).tput t d r).retire t) t d := by
  have hp := slotPass_sorted (t := t) h
  have hg : ∀ j, (((s.slotPass t).tput t d r).retire t).get Reg.TH_g j = ((s.slotPass t).tput t d r).get Reg.TH_g j :=
    fun j => (retire_spares .refl (by decide) (tput_sorted hp)).2
  have hf : FieldsOnly s (((s.slotPass t).tput t d r).retire t) :=
    retire_fieldsOnly (tput_fieldsOnly (slotPass_fieldsOnly .refl))
  have hk : ∀ {f : Fld}, offSlot f = true → f.id % 4096 ≠ Reg.TH_g.id % 4096 → ∀ j,
      (((s.slotPass t).tput t d r).retire t).get f j = s.get f j := fun h1 h2 j =>
    ((retire_spares (tput_spares (slotPass_spares .refl h1) h2) h1) h).2
  refine ⟨?_, ?_, ?_, hk (by decide) (by decide), ⟨hk (by decide) (by decide), hk (by decide) (by decide),
    hk (by decide) (by decide), hk (by decide) (by decide), by rw [hf]⟩, by rw [hf]⟩
  · unfold State.tg
    split
    · rfl
    · rename_i hd
      rw [hg]
      unfold State.tput
      rw [if_neg hd]
      exact get_set_same hp
  · rw [retire_pc (tput_sorted hp)]
    congr 2
    unfold State.tput
    split
    · exact slotPass_pc h
    · exact (get_set_ne hp (by decide)).trans (slotPass_pc h)
  · intro j hj
    rw [hg]
    have hs : (s.slotPass t).get Reg.TH_g j = s.get Reg.TH_g j := (slotPass_spares .refl (by decide) h).2
    unfold State.tput
    split
    · exact hs
    · rename_i hd
      rw [get_set_other hp (by unfold fkey; omega), hs]

/-! ## Engine commands -/

theorem slotPass_tw {k : Nat} (h : SM.sorted s.fld = true) : (s.slotPass t).tw t k = s.tw t k :=
  (slotPass_spares .refl (by decide) h).2

theorem tagOut_tw {n k : Nat} (h : SM.sorted s.fld = true) : (s.tagOut t n).tw t k = s.tw t k :=
  ((((Spares.refl (g := Reg.TH_w) (j := 8 * t + k)).put (by decide)).put (by decide)).set (by decide) h).2

theorem committing_tw {k : Nat} (h : SM.sorted s.fld = true) : (s.committing t).tw t k = s.tw t k := by
  unfold State.committing
  split
  · exact slotPass_tw h
  · exact (tagOut_tw (slotPass_sorted h)).trans (slotPass_tw h)

/-- A committed command does what its engine makes of it: the command is taken, or its check fails with a reason. -/
theorem slotCmd_effect {e op : Nat} {f : Nat → Nat → State → Commit} (h : SM.sorted s.fld = true)
    (hc : s.commits t e op = true) :
    s.slotCmd t e op false false f = match f t (s.cmdTag t) (s.committing t) with
      | .error r => ((s.slotPass t).fault t 3 (16 * e + r) 0).slotEnd t
      | .ok u => u.taken t := by
  unfold State.commits at hc
  simp only [Bool.and_eq_true, Bool.or_eq_true, beq_iff_eq, Bool.not_eq_true'] at hc
  obtain ⟨⟨⟨hr, he⟩, ho⟩, ht⟩ := hc
  unfold State.runs at hr
  simp only [Bool.and_eq_true, Bool.not_eq_true', beq_iff_eq] at hr
  obtain ⟨⟨⟨⟨a, b⟩, c⟩, d⟩, z⟩ := hr
  unfold State.slotCmd
  rw [slotIf_effect a b c (by simp [he, ho]) d z]
  have hw : (s.committing t).tw t 0 % 16 = op := by rw [committing_tw h, ho]
  have hk : (s.slotPass t).flag Reg.TH_tag (4 * t + iDst (s.insn t) % 4) = s.flag Reg.TH_tag (4 * t + iDst (s.insn t) % 4) := by
    unfold State.flag
    rw [(slotPass_spares (g := Reg.TH_tag) .refl (by decide) h).2]
  unfold State.cmdTag at ht
  unfold State.cmdc
  dsimp only
  rw [he, hk]
  by_cases hp : bit (iDst (s.insn t)) 2 = true
  · have hg : s.cmdTag t = 0 := by unfold State.cmdTag; rw [if_pos hp]
    have hv : s.committing t = s.slotPass t := by unfold State.committing; rw [if_pos hg]
    rw [hv] at hw ⊢
    rw [hg]
    simp only [hp, if_true, Bool.not_true, Bool.false_and, Bool.false_eq_true, if_false, withOp, hw]
    cases f t 0 (s.slotPass t) <;> rfl
  · have hg : s.cmdTag t = iDst (s.insn t) % 4 + 1 := by unfold State.cmdTag; rw [if_neg hp]
    have hv : s.committing t = (s.slotPass t).tagOut t (iDst (s.insn t) % 4) := by
      unfold State.committing
      rw [hg, if_neg (Nat.succ_ne_zero _), Nat.add_sub_cancel]
    have htag : s.flag Reg.TH_tag (4 * t + iDst (s.insn t) % 4) = false := by
      rw [if_neg hp] at ht
      simpa using ht
    rw [hv] at hw ⊢
    rw [hg]
    simp only [hp, if_false, htag, Bool.and_false, Bool.false_eq_true, withOp, hw, if_true]
    cases f t (iDst (s.insn t) % 4 + 1) ((s.slotPass t).tagOut t (iDst (s.insn t) % 4)) <;> rfl

end Sys2Proof.Laws
end

