-- ==== Sys2Proof/Laws/State.lean ====
section
/-! SUPPORT. Sys2Proof/Laws/State.lean: what each update of a state leaves as it is, one lemma for each field and update,
and what the accessors of the register fields read after an update that leaves them. -/

namespace Sys2Proof.Laws

open Sys2Proof.Machine

variable {s : State}

/-! ## set -/

@[simp] theorem state_set_pending {f : Fld} {i v : Nat} : (s.set f i v).pending = s.pending := by unfold State.set; split <;> rfl
@[simp] theorem state_set_free {f : Fld} {i v : Nat} : (s.set f i v).free = s.free := by unfold State.set; split <;> rfl
@[simp] theorem state_set_out {f : Fld} {i v : Nat} : (s.set f i v).out = s.out := by unfold State.set; split <;> rfl
@[simp] theorem state_set_held {f : Fld} {i v : Nat} : (s.set f i v).held = s.held := by unfold State.set; split <;> rfl
@[simp] theorem state_set_ents {f : Fld} {i v : Nat} : (s.set f i v).ents = s.ents := by unfold State.set; split <;> rfl
@[simp] theorem state_set_passed {f : Fld} {i v : Nat} : (s.set f i v).passed = s.passed := by unfold State.set; split <;> rfl
@[simp] theorem state_set_fetched {f : Fld} {i v : Nat} : (s.set f i v).fetched = s.fetched := by unfold State.set; split <;> rfl
@[simp] theorem state_set_backlog {f : Fld} {i v : Nat} : (s.set f i v).backlog = s.backlog := by unfold State.set; split <;> rfl
@[simp] theorem state_set_firnStage {f : Fld} {i v : Nat} : (s.set f i v).firnStage = s.firnStage := by unfold State.set; split <;> rfl
@[simp] theorem state_set_firn {f : Fld} {i v : Nat} : (s.set f i v).firn = s.firn := by unfold State.set; split <;> rfl
@[simp] theorem state_set_recov {f : Fld} {i v : Nat} : (s.set f i v).recov = s.recov := by unfold State.set; split <;> rfl
@[simp] theorem state_set_twinWait {f : Fld} {i v : Nat} : (s.set f i v).twinWait = s.twinWait := by unfold State.set; split <;> rfl
@[simp] theorem state_set_hdrLog {f : Fld} {i v : Nat} : (s.set f i v).hdrLog = s.hdrLog := by unfold State.set; split <;> rfl
@[simp] theorem state_set_places {f : Fld} {i v : Nat} : (s.set f i v).places = s.places := by unfold State.set; split <;> rfl
@[simp] theorem state_set_mem {f : Fld} {i v : Nat} : (s.set f i v).mem = s.mem := by unfold State.set; split <;> rfl
@[simp] theorem state_set_frames {f : Fld} {i v : Nat} : (s.set f i v).frames = s.frames := by unfold State.set; split <;> rfl
@[simp] theorem state_set_dispq {f : Fld} {i v : Nat} : (s.set f i v).dispq = s.dispq := by unfold State.set; split <;> rfl
@[simp] theorem state_set_excq {f : Fld} {i v : Nat} : (s.set f i v).excq = s.excq := by unfold State.set; split <;> rfl
@[simp] theorem state_set_leafq {f : Fld} {i v : Nat} : (s.set f i v).leafq = s.leafq := by unfold State.set; split <;> rfl
@[simp] theorem state_set_domq {f : Fld} {i v : Nat} : (s.set f i v).domq = s.domq := by unfold State.set; split <;> rfl
@[simp] theorem state_set_flight {f : Fld} {i v : Nat} : (s.set f i v).flight = s.flight := by unfold State.set; split <;> rfl
@[simp] theorem state_set_faultq {f : Fld} {i v : Nat} : (s.set f i v).faultq = s.faultq := by unfold State.set; split <;> rfl
@[simp] theorem state_set_fltLog {f : Fld} {i v : Nat} : (s.set f i v).fltLog = s.fltLog := by unfold State.set; split <;> rfl
@[simp] theorem state_set_updq {f : Fld} {i v : Nat} : (s.set f i v).updq = s.updq := by unfold State.set; split <;> rfl
@[simp] theorem state_set_nextFrame {f : Fld} {i v : Nat} : (s.set f i v).nextFrame = s.nextFrame := by unfold State.set; split <;> rfl
@[simp] theorem state_set_jobs {f : Fld} {i v : Nat} : (s.set f i v).jobs = s.jobs := by unfold State.set; split <;> rfl
@[simp] theorem state_set_egq {f : Fld} {i v : Nat} : (s.set f i v).egq = s.egq := by unfold State.set; split <;> rfl
@[simp] theorem state_set_coal {f : Fld} {i v : Nat} : (s.set f i v).coal = s.coal := by unfold State.set; split <;> rfl
@[simp] theorem state_set_oflEvq {f : Fld} {i v : Nat} : (s.set f i v).oflEvq = s.oflEvq := by unfold State.set; split <;> rfl
@[simp] theorem state_set_tblEvq {f : Fld} {i v : Nat} : (s.set f i v).tblEvq = s.tblEvq := by unfold State.set; split <;> rfl
@[simp] theorem state_set_dmaWait {f : Fld} {i v : Nat} : (s.set f i v).dmaWait = s.dmaWait := by unfold State.set; split <;> rfl
@[simp] theorem state_set_fifo {f : Fld} {i v : Nat} : (s.set f i v).fifo = s.fifo := by unfold State.set; split <;> rfl
@[simp] theorem state_set_bulk {f : Fld} {i v : Nat} : (s.set f i v).bulk = s.bulk := by unfold State.set; split <;> rfl
@[simp] theorem state_set_ctlq {f : Fld} {i v : Nat} : (s.set f i v).ctlq = s.ctlq := by unfold State.set; split <;> rfl
@[simp] theorem state_set_falls {f : Fld} {i v : Nat} : (s.set f i v).falls = s.falls := by unfold State.set; split <;> rfl
@[simp] theorem state_set_tblq {f : Fld} {i v : Nat} : (s.set f i v).tblq = s.tblq := by unfold State.set; split <;> rfl
@[simp] theorem state_set_samples {f : Fld} {i v : Nat} : (s.set f i v).samples = s.samples := by unfold State.set; split <;> rfl
@[simp] theorem state_set_learnq {f : Fld} {i v : Nat} : (s.set f i v).learnq = s.learnq := by unfold State.set; split <;> rfl
@[simp] theorem state_set_rxdel {f : Fld} {i v : Nat} : (s.set f i v).rxdel = s.rxdel := by unfold State.set; split <;> rfl
@[simp] theorem state_set_tls {f : Fld} {i v : Nat} : (s.set f i v).tls = s.tls := by unfold State.set; split <;> rfl
@[simp] theorem state_set_nvp {f : Fld} {i v : Nat} : (s.set f i v).nvp = s.nvp := by unfold State.set; split <;> rfl
@[simp] theorem state_set_mbxSnd {f : Fld} {i v : Nat} : (s.set f i v).mbxSnd = s.mbxSnd := by unfold State.set; split <;> rfl
@[simp] theorem state_set_migImg {f : Fld} {i v : Nat} : (s.set f i v).migImg = s.migImg := by unfold State.set; split <;> rfl
@[simp] theorem state_set_reads {f : Fld} {i v : Nat} : (s.set f i v).reads = s.reads := by unfold State.set; split <;> rfl
@[simp] theorem state_set_tagQuar {f : Fld} {i v : Nat} : (s.set f i v).tagQuar = s.tagQuar := by unfold State.set; split <;> rfl
@[simp] theorem state_set_rdWait {f : Fld} {i v : Nat} : (s.set f i v).rdWait = s.rdWait := by unfold State.set; split <;> rfl
@[simp] theorem state_set_dump {f : Fld} {i v : Nat} : (s.set f i v).dump = s.dump := by unfold State.set; split <;> rfl
@[simp] theorem state_set_ledger {f : Fld} {i v : Nat} : (s.set f i v).ledger = s.ledger := by unfold State.set; split <;> rfl
@[simp] theorem state_set_bootImg {f : Fld} {i v : Nat} : (s.set f i v).bootImg = s.bootImg := by unfold State.set; split <;> rfl
@[simp] theorem state_set_twinQ {f : Fld} {i v : Nat} : (s.set f i v).twinQ = s.twinQ := by unfold State.set; split <;> rfl
@[simp] theorem state_set_twinR {f : Fld} {i v : Nat} : (s.set f i v).twinR = s.twinR := by unfold State.set; split <;> rfl
@[simp] theorem state_set_twinRD {f : Fld} {i v : Nat} : (s.set f i v).twinRD = s.twinRD := by unfold State.set; split <;> rfl
@[simp] theorem state_set_twinP {f : Fld} {i v : Nat} : (s.set f i v).twinP = s.twinP := by unfold State.set; split <;> rfl

/-! ## put -/

@[simp] theorem state_put_pending {f : Fld} {i : Nat} {b : Bool} : (s.put f i b).pending = s.pending := state_set_pending
@[simp] theorem state_put_free {f : Fld} {i : Nat} {b : Bool} : (s.put f i b).free = s.free := state_set_free
@[simp] theorem state_put_out {f : Fld} {i : Nat} {b : Bool} : (s.put f i b).out = s.out := state_set_out
@[simp] theorem state_put_held {f : Fld} {i : Nat} {b : Bool} : (s.put f i b).held = s.held := state_set_held
@[simp] theorem state_put_ents {f : Fld} {i : Nat} {b : Bool} : (s.put f i b).ents = s.ents := state_set_ents
@[simp] theorem state_put_passed {f : Fld} {i : Nat} {b : Bool} : (s.put f i b).passed = s.passed := state_set_passed
@[simp] theorem state_put_fetched {f : Fld} {i : Nat} {b : Bool} : (s.put f i b).fetched = s.fetched := state_set_fetched
@[simp] theorem state_put_backlog {f : Fld} {i : Nat} {b : Bool} : (s.put f i b).backlog = s.backlog := state_set_backlog
@[simp] theorem state_put_firnStage {f : Fld} {i : Nat} {b : Bool} : (s.put f i b).firnStage = s.firnStage := state_set_firnStage
@[simp] theorem state_put_firn {f : Fld} {i : Nat} {b : Bool} : (s.put f i b).firn = s.firn := state_set_firn
@[simp] theorem state_put_recov {f : Fld} {i : Nat} {b : Bool} : (s.put f i b).recov = s.recov := state_set_recov
@[simp] theorem state_put_twinWait {f : Fld} {i : Nat} {b : Bool} : (s.put f i b).twinWait = s.twinWait := state_set_twinWait
@[simp] theorem state_put_hdrLog {f : Fld} {i : Nat} {b : Bool} : (s.put f i b).hdrLog = s.hdrLog := state_set_hdrLog
@[simp] theorem state_put_places {f : Fld} {i : Nat} {b : Bool} : (s.put f i b).places = s.places := state_set_places
@[simp] theorem state_put_mem {f : Fld} {i : Nat} {b : Bool} : (s.put f i b).mem = s.mem := state_set_mem
@[simp] theorem state_put_frames {f : Fld} {i : Nat} {b : Bool} : (s.put f i b).frames = s.frames := state_set_frames
@[simp] theorem state_put_dispq {f : Fld} {i : Nat} {b : Bool} : (s.put f i b).dispq = s.dispq := state_set_dispq
@[simp] theorem state_put_excq {f : Fld} {i : Nat} {b : Bool} : (s.put f i b).excq = s.excq := state_set_excq
@[simp] theorem state_put_leafq {f : Fld} {i : Nat} {b : Bool} : (s.put f i b).leafq = s.leafq := state_set_leafq
@[simp] theorem state_put_domq {f : Fld} {i : Nat} {b : Bool} : (s.put f i b).domq = s.domq := state_set_domq
@[simp] theorem state_put_flight {f : Fld} {i : Nat} {b : Bool} : (s.put f i b).flight = s.flight := state_set_flight
@[simp] theorem state_put_faultq {f : Fld} {i : Nat} {b : Bool} : (s.put f i b).faultq = s.faultq := state_set_faultq
@[simp] theorem state_put_fltLog {f : Fld} {i : Nat} {b : Bool} : (s.put f i b).fltLog = s.fltLog := state_set_fltLog
@[simp] theorem state_put_updq {f : Fld} {i : Nat} {b : Bool} : (s.put f i b).updq = s.updq := state_set_updq
@[simp] theorem state_put_nextFrame {f : Fld} {i : Nat} {b : Bool} : (s.put f i b).nextFrame = s.nextFrame := state_set_nextFrame
@[simp] theorem state_put_jobs {f : Fld} {i : Nat} {b : Bool} : (s.put f i b).jobs = s.jobs := state_set_jobs
@[simp] theorem state_put_egq {f : Fld} {i : Nat} {b : Bool} : (s.put f i b).egq = s.egq := state_set_egq
@[simp] theorem state_put_coal {f : Fld} {i : Nat} {b : Bool} : (s.put f i b).coal = s.coal := state_set_coal
@[simp] theorem state_put_oflEvq {f : Fld} {i : Nat} {b : Bool} : (s.put f i b).oflEvq = s.oflEvq := state_set_oflEvq
@[simp] theorem state_put_tblEvq {f : Fld} {i : Nat} {b : Bool} : (s.put f i b).tblEvq = s.tblEvq := state_set_tblEvq
@[simp] theorem state_put_dmaWait {f : Fld} {i : Nat} {b : Bool} : (s.put f i b).dmaWait = s.dmaWait := state_set_dmaWait
@[simp] theorem state_put_fifo {f : Fld} {i : Nat} {b : Bool} : (s.put f i b).fifo = s.fifo := state_set_fifo
@[simp] theorem state_put_bulk {f : Fld} {i : Nat} {b : Bool} : (s.put f i b).bulk = s.bulk := state_set_bulk
@[simp] theorem state_put_ctlq {f : Fld} {i : Nat} {b : Bool} : (s.put f i b).ctlq = s.ctlq := state_set_ctlq
@[simp] theorem state_put_falls {f : Fld} {i : Nat} {b : Bool} : (s.put f i b).falls = s.falls := state_set_falls
@[simp] theorem state_put_tblq {f : Fld} {i : Nat} {b : Bool} : (s.put f i b).tblq = s.tblq := state_set_tblq
@[simp] theorem state_put_samples {f : Fld} {i : Nat} {b : Bool} : (s.put f i b).samples = s.samples := state_set_samples
@[simp] theorem state_put_learnq {f : Fld} {i : Nat} {b : Bool} : (s.put f i b).learnq = s.learnq := state_set_learnq
@[simp] theorem state_put_rxdel {f : Fld} {i : Nat} {b : Bool} : (s.put f i b).rxdel = s.rxdel := state_set_rxdel
@[simp] theorem state_put_tls {f : Fld} {i : Nat} {b : Bool} : (s.put f i b).tls = s.tls := state_set_tls
@[simp] theorem state_put_nvp {f : Fld} {i : Nat} {b : Bool} : (s.put f i b).nvp = s.nvp := state_set_nvp
@[simp] theorem state_put_mbxSnd {f : Fld} {i : Nat} {b : Bool} : (s.put f i b).mbxSnd = s.mbxSnd := state_set_mbxSnd
@[simp] theorem state_put_migImg {f : Fld} {i : Nat} {b : Bool} : (s.put f i b).migImg = s.migImg := state_set_migImg
@[simp] theorem state_put_reads {f : Fld} {i : Nat} {b : Bool} : (s.put f i b).reads = s.reads := state_set_reads
@[simp] theorem state_put_tagQuar {f : Fld} {i : Nat} {b : Bool} : (s.put f i b).tagQuar = s.tagQuar := state_set_tagQuar
@[simp] theorem state_put_rdWait {f : Fld} {i : Nat} {b : Bool} : (s.put f i b).rdWait = s.rdWait := state_set_rdWait
@[simp] theorem state_put_dump {f : Fld} {i : Nat} {b : Bool} : (s.put f i b).dump = s.dump := state_set_dump
@[simp] theorem state_put_ledger {f : Fld} {i : Nat} {b : Bool} : (s.put f i b).ledger = s.ledger := state_set_ledger
@[simp] theorem state_put_bootImg {f : Fld} {i : Nat} {b : Bool} : (s.put f i b).bootImg = s.bootImg := state_set_bootImg
@[simp] theorem state_put_twinQ {f : Fld} {i : Nat} {b : Bool} : (s.put f i b).twinQ = s.twinQ := state_set_twinQ
@[simp] theorem state_put_twinR {f : Fld} {i : Nat} {b : Bool} : (s.put f i b).twinR = s.twinR := state_set_twinR
@[simp] theorem state_put_twinRD {f : Fld} {i : Nat} {b : Bool} : (s.put f i b).twinRD = s.twinRD := state_set_twinRD
@[simp] theorem state_put_twinP {f : Fld} {i : Nat} {b : Bool} : (s.put f i b).twinP = s.twinP := state_set_twinP

/-! ## inc -/

@[simp] theorem state_inc_pending {f : Fld} {i : Nat} : (s.inc f i).pending = s.pending := state_set_pending
@[simp] theorem state_inc_free {f : Fld} {i : Nat} : (s.inc f i).free = s.free := state_set_free
@[simp] theorem state_inc_out {f : Fld} {i : Nat} : (s.inc f i).out = s.out := state_set_out
@[simp] theorem state_inc_held {f : Fld} {i : Nat} : (s.inc f i).held = s.held := state_set_held
@[simp] theorem state_inc_ents {f : Fld} {i : Nat} : (s.inc f i).ents = s.ents := state_set_ents
@[simp] theorem state_inc_passed {f : Fld} {i : Nat} : (s.inc f i).passed = s.passed := state_set_passed
@[simp] theorem state_inc_fetched {f : Fld} {i : Nat} : (s.inc f i).fetched = s.fetched := state_set_fetched
@[simp] theorem state_inc_backlog {f : Fld} {i : Nat} : (s.inc f i).backlog = s.backlog := state_set_backlog
@[simp] theorem state_inc_firnStage {f : Fld} {i : Nat} : (s.inc f i).firnStage = s.firnStage := state_set_firnStage
@[simp] theorem state_inc_firn {f : Fld} {i : Nat} : (s.inc f i).firn = s.firn := state_set_firn
@[simp] theorem state_inc_recov {f : Fld} {i : Nat} : (s.inc f i).recov = s.recov := state_set_recov
@[simp] theorem state_inc_twinWait {f : Fld} {i : Nat} : (s.inc f i).twinWait = s.twinWait := state_set_twinWait
@[simp] theorem state_inc_hdrLog {f : Fld} {i : Nat} : (s.inc f i).hdrLog = s.hdrLog := state_set_hdrLog
@[simp] theorem state_inc_places {f : Fld} {i : Nat} : (s.inc f i).places = s.places := state_set_places
@[simp] theorem state_inc_mem {f : Fld} {i : Nat} : (s.inc f i).mem = s.mem := state_set_mem
@[simp] theorem state_inc_frames {f : Fld} {i : Nat} : (s.inc f i).frames = s.frames := state_set_frames
@[simp] theorem state_inc_dispq {f : Fld} {i : Nat} : (s.inc f i).dispq = s.dispq := state_set_dispq
@[simp] theorem state_inc_excq {f : Fld} {i : Nat} : (s.inc f i).excq = s.excq := state_set_excq
@[simp] theorem state_inc_leafq {f : Fld} {i : Nat} : (s.inc f i).leafq = s.leafq := state_set_leafq
@[simp] theorem state_inc_domq {f : Fld} {i : Nat} : (s.inc f i).domq = s.domq := state_set_domq
@[simp] theorem state_inc_flight {f : Fld} {i : Nat} : (s.inc f i).flight = s.flight := state_set_flight
@[simp] theorem state_inc_faultq {f : Fld} {i : Nat} : (s.inc f i).faultq = s.faultq := state_set_faultq
@[simp] theorem state_inc_fltLog {f : Fld} {i : Nat} : (s.inc f i).fltLog = s.fltLog := state_set_fltLog
@[simp] theorem state_inc_updq {f : Fld} {i : Nat} : (s.inc f i).updq = s.updq := state_set_updq
@[simp] theorem state_inc_nextFrame {f : Fld} {i : Nat} : (s.inc f i).nextFrame = s.nextFrame := state_set_nextFrame
@[simp] theorem state_inc_jobs {f : Fld} {i : Nat} : (s.inc f i).jobs = s.jobs := state_set_jobs
@[simp] theorem state_inc_egq {f : Fld} {i : Nat} : (s.inc f i).egq = s.egq := state_set_egq
@[simp] theorem state_inc_coal {f : Fld} {i : Nat} : (s.inc f i).coal = s.coal := state_set_coal
@[simp] theorem state_inc_oflEvq {f : Fld} {i : Nat} : (s.inc f i).oflEvq = s.oflEvq := state_set_oflEvq
@[simp] theorem state_inc_tblEvq {f : Fld} {i : Nat} : (s.inc f i).tblEvq = s.tblEvq := state_set_tblEvq
@[simp] theorem state_inc_dmaWait {f : Fld} {i : Nat} : (s.inc f i).dmaWait = s.dmaWait := state_set_dmaWait
@[simp] theorem state_inc_fifo {f : Fld} {i : Nat} : (s.inc f i).fifo = s.fifo := state_set_fifo
@[simp] theorem state_inc_bulk {f : Fld} {i : Nat} : (s.inc f i).bulk = s.bulk := state_set_bulk
@[simp] theorem state_inc_ctlq {f : Fld} {i : Nat} : (s.inc f i).ctlq = s.ctlq := state_set_ctlq
@[simp] theorem state_inc_falls {f : Fld} {i : Nat} : (s.inc f i).falls = s.falls := state_set_falls
@[simp] theorem state_inc_tblq {f : Fld} {i : Nat} : (s.inc f i).tblq = s.tblq := state_set_tblq
@[simp] theorem state_inc_samples {f : Fld} {i : Nat} : (s.inc f i).samples = s.samples := state_set_samples
@[simp] theorem state_inc_learnq {f : Fld} {i : Nat} : (s.inc f i).learnq = s.learnq := state_set_learnq
@[simp] theorem state_inc_rxdel {f : Fld} {i : Nat} : (s.inc f i).rxdel = s.rxdel := state_set_rxdel
@[simp] theorem state_inc_tls {f : Fld} {i : Nat} : (s.inc f i).tls = s.tls := state_set_tls
@[simp] theorem state_inc_nvp {f : Fld} {i : Nat} : (s.inc f i).nvp = s.nvp := state_set_nvp
@[simp] theorem state_inc_mbxSnd {f : Fld} {i : Nat} : (s.inc f i).mbxSnd = s.mbxSnd := state_set_mbxSnd
@[simp] theorem state_inc_migImg {f : Fld} {i : Nat} : (s.inc f i).migImg = s.migImg := state_set_migImg
@[simp] theorem state_inc_reads {f : Fld} {i : Nat} : (s.inc f i).reads = s.reads := state_set_reads
@[simp] theorem state_inc_tagQuar {f : Fld} {i : Nat} : (s.inc f i).tagQuar = s.tagQuar := state_set_tagQuar
@[simp] theorem state_inc_rdWait {f : Fld} {i : Nat} : (s.inc f i).rdWait = s.rdWait := state_set_rdWait
@[simp] theorem state_inc_dump {f : Fld} {i : Nat} : (s.inc f i).dump = s.dump := state_set_dump
@[simp] theorem state_inc_ledger {f : Fld} {i : Nat} : (s.inc f i).ledger = s.ledger := state_set_ledger
@[simp] theorem state_inc_bootImg {f : Fld} {i : Nat} : (s.inc f i).bootImg = s.bootImg := state_set_bootImg
@[simp] theorem state_inc_twinQ {f : Fld} {i : Nat} : (s.inc f i).twinQ = s.twinQ := state_set_twinQ
@[simp] theorem state_inc_twinR {f : Fld} {i : Nat} : (s.inc f i).twinR = s.twinR := state_set_twinR
@[simp] theorem state_inc_twinRD {f : Fld} {i : Nat} : (s.inc f i).twinRD = s.twinRD := state_set_twinRD
@[simp] theorem state_inc_twinP {f : Fld} {i : Nat} : (s.inc f i).twinP = s.twinP := state_set_twinP

/-! ## add -/

@[simp] theorem state_add_pending {f : Fld} {i n : Nat} : (s.add f i n).pending = s.pending := state_set_pending
@[simp] theorem state_add_free {f : Fld} {i n : Nat} : (s.add f i n).free = s.free := state_set_free
@[simp] theorem state_add_out {f : Fld} {i n : Nat} : (s.add f i n).out = s.out := state_set_out
@[simp] theorem state_add_held {f : Fld} {i n : Nat} : (s.add f i n).held = s.held := state_set_held
@[simp] theorem state_add_ents {f : Fld} {i n : Nat} : (s.add f i n).ents = s.ents := state_set_ents
@[simp] theorem state_add_passed {f : Fld} {i n : Nat} : (s.add f i n).passed = s.passed := state_set_passed
@[simp] theorem state_add_fetched {f : Fld} {i n : Nat} : (s.add f i n).fetched = s.fetched := state_set_fetched
@[simp] theorem state_add_backlog {f : Fld} {i n : Nat} : (s.add f i n).backlog = s.backlog := state_set_backlog
@[simp] theorem state_add_firnStage {f : Fld} {i n : Nat} : (s.add f i n).firnStage = s.firnStage := state_set_firnStage
@[simp] theorem state_add_firn {f : Fld} {i n : Nat} : (s.add f i n).firn = s.firn := state_set_firn
@[simp] theorem state_add_recov {f : Fld} {i n : Nat} : (s.add f i n).recov = s.recov := state_set_recov
@[simp] theorem state_add_twinWait {f : Fld} {i n : Nat} : (s.add f i n).twinWait = s.twinWait := state_set_twinWait
@[simp] theorem state_add_hdrLog {f : Fld} {i n : Nat} : (s.add f i n).hdrLog = s.hdrLog := state_set_hdrLog
@[simp] theorem state_add_places {f : Fld} {i n : Nat} : (s.add f i n).places = s.places := state_set_places
@[simp] theorem state_add_mem {f : Fld} {i n : Nat} : (s.add f i n).mem = s.mem := state_set_mem
@[simp] theorem state_add_frames {f : Fld} {i n : Nat} : (s.add f i n).frames = s.frames := state_set_frames
@[simp] theorem state_add_dispq {f : Fld} {i n : Nat} : (s.add f i n).dispq = s.dispq := state_set_dispq
@[simp] theorem state_add_excq {f : Fld} {i n : Nat} : (s.add f i n).excq = s.excq := state_set_excq
@[simp] theorem state_add_leafq {f : Fld} {i n : Nat} : (s.add f i n).leafq = s.leafq := state_set_leafq
@[simp] theorem state_add_domq {f : Fld} {i n : Nat} : (s.add f i n).domq = s.domq := state_set_domq
@[simp] theorem state_add_flight {f : Fld} {i n : Nat} : (s.add f i n).flight = s.flight := state_set_flight
@[simp] theorem state_add_faultq {f : Fld} {i n : Nat} : (s.add f i n).faultq = s.faultq := state_set_faultq
@[simp] theorem state_add_fltLog {f : Fld} {i n : Nat} : (s.add f i n).fltLog = s.fltLog := state_set_fltLog
@[simp] theorem state_add_updq {f : Fld} {i n : Nat} : (s.add f i n).updq = s.updq := state_set_updq
@[simp] theorem state_add_nextFrame {f : Fld} {i n : Nat} : (s.add f i n).nextFrame = s.nextFrame := state_set_nextFrame
@[simp] theorem state_add_jobs {f : Fld} {i n : Nat} : (s.add f i n).jobs = s.jobs := state_set_jobs
@[simp] theorem state_add_egq {f : Fld} {i n : Nat} : (s.add f i n).egq = s.egq := state_set_egq
@[simp] theorem state_add_coal {f : Fld} {i n : Nat} : (s.add f i n).coal = s.coal := state_set_coal
@[simp] theorem state_add_oflEvq {f : Fld} {i n : Nat} : (s.add f i n).oflEvq = s.oflEvq := state_set_oflEvq
@[simp] theorem state_add_tblEvq {f : Fld} {i n : Nat} : (s.add f i n).tblEvq = s.tblEvq := state_set_tblEvq
@[simp] theorem state_add_dmaWait {f : Fld} {i n : Nat} : (s.add f i n).dmaWait = s.dmaWait := state_set_dmaWait
@[simp] theorem state_add_fifo {f : Fld} {i n : Nat} : (s.add f i n).fifo = s.fifo := state_set_fifo
@[simp] theorem state_add_bulk {f : Fld} {i n : Nat} : (s.add f i n).bulk = s.bulk := state_set_bulk
@[simp] theorem state_add_ctlq {f : Fld} {i n : Nat} : (s.add f i n).ctlq = s.ctlq := state_set_ctlq
@[simp] theorem state_add_falls {f : Fld} {i n : Nat} : (s.add f i n).falls = s.falls := state_set_falls
@[simp] theorem state_add_tblq {f : Fld} {i n : Nat} : (s.add f i n).tblq = s.tblq := state_set_tblq
@[simp] theorem state_add_samples {f : Fld} {i n : Nat} : (s.add f i n).samples = s.samples := state_set_samples
@[simp] theorem state_add_learnq {f : Fld} {i n : Nat} : (s.add f i n).learnq = s.learnq := state_set_learnq
@[simp] theorem state_add_rxdel {f : Fld} {i n : Nat} : (s.add f i n).rxdel = s.rxdel := state_set_rxdel
@[simp] theorem state_add_tls {f : Fld} {i n : Nat} : (s.add f i n).tls = s.tls := state_set_tls
@[simp] theorem state_add_nvp {f : Fld} {i n : Nat} : (s.add f i n).nvp = s.nvp := state_set_nvp
@[simp] theorem state_add_mbxSnd {f : Fld} {i n : Nat} : (s.add f i n).mbxSnd = s.mbxSnd := state_set_mbxSnd
@[simp] theorem state_add_migImg {f : Fld} {i n : Nat} : (s.add f i n).migImg = s.migImg := state_set_migImg
@[simp] theorem state_add_reads {f : Fld} {i n : Nat} : (s.add f i n).reads = s.reads := state_set_reads
@[simp] theorem state_add_tagQuar {f : Fld} {i n : Nat} : (s.add f i n).tagQuar = s.tagQuar := state_set_tagQuar
@[simp] theorem state_add_rdWait {f : Fld} {i n : Nat} : (s.add f i n).rdWait = s.rdWait := state_set_rdWait
@[simp] theorem state_add_dump {f : Fld} {i n : Nat} : (s.add f i n).dump = s.dump := state_set_dump
@[simp] theorem state_add_ledger {f : Fld} {i n : Nat} : (s.add f i n).ledger = s.ledger := state_set_ledger
@[simp] theorem state_add_bootImg {f : Fld} {i n : Nat} : (s.add f i n).bootImg = s.bootImg := state_set_bootImg
@[simp] theorem state_add_twinQ {f : Fld} {i n : Nat} : (s.add f i n).twinQ = s.twinQ := state_set_twinQ
@[simp] theorem state_add_twinR {f : Fld} {i n : Nat} : (s.add f i n).twinR = s.twinR := state_set_twinR
@[simp] theorem state_add_twinRD {f : Fld} {i n : Nat} : (s.add f i n).twinRD = s.twinRD := state_set_twinRD
@[simp] theorem state_add_twinP {f : Fld} {i n : Nat} : (s.add f i n).twinP = s.twinP := state_set_twinP

/-! ## resetAll -/

@[simp] theorem state_resetAll_pending (f : Fld) : (s.resetAll f).pending = s.pending := rfl
@[simp] theorem state_resetAll_free (f : Fld) : (s.resetAll f).free = s.free := rfl
@[simp] theorem state_resetAll_out (f : Fld) : (s.resetAll f).out = s.out := rfl
@[simp] theorem state_resetAll_held (f : Fld) : (s.resetAll f).held = s.held := rfl
@[simp] theorem state_resetAll_ents (f : Fld) : (s.resetAll f).ents = s.ents := rfl
@[simp] theorem state_resetAll_passed (f : Fld) : (s.resetAll f).passed = s.passed := rfl
@[simp] theorem state_resetAll_fetched (f : Fld) : (s.resetAll f).fetched = s.fetched := rfl
@[simp] theorem state_resetAll_backlog (f : Fld) : (s.resetAll f).backlog = s.backlog := rfl
@[simp] theorem state_resetAll_firnStage (f : Fld) : (s.resetAll f).firnStage = s.firnStage := rfl
@[simp] theorem state_resetAll_firn (f : Fld) : (s.resetAll f).firn = s.firn := rfl
@[simp] theorem state_resetAll_recov (f : Fld) : (s.resetAll f).recov = s.recov := rfl
@[simp] theorem state_resetAll_twinWait (f : Fld) : (s.resetAll f).twinWait = s.twinWait := rfl
@[simp] theorem state_resetAll_hdrLog (f : Fld) : (s.resetAll f).hdrLog = s.hdrLog := rfl
@[simp] theorem state_resetAll_places (f : Fld) : (s.resetAll f).places = s.places := rfl
@[simp] theorem state_resetAll_mem (f : Fld) : (s.resetAll f).mem = s.mem := rfl
@[simp] theorem state_resetAll_frames (f : Fld) : (s.resetAll f).frames = s.frames := rfl
@[simp] theorem state_resetAll_dispq (f : Fld) : (s.resetAll f).dispq = s.dispq := rfl
@[simp] theorem state_resetAll_excq (f : Fld) : (s.resetAll f).excq = s.excq := rfl
@[simp] theorem state_resetAll_leafq (f : Fld) : (s.resetAll f).leafq = s.leafq := rfl
@[simp] theorem state_resetAll_domq (f : Fld) : (s.resetAll f).domq = s.domq := rfl
@[simp] theorem state_resetAll_flight (f : Fld) : (s.resetAll f).flight = s.flight := rfl
@[simp] theorem state_resetAll_faultq (f : Fld) : (s.resetAll f).faultq = s.faultq := rfl
@[simp] theorem state_resetAll_fltLog (f : Fld) : (s.resetAll f).fltLog = s.fltLog := rfl
@[simp] theorem state_resetAll_updq (f : Fld) : (s.resetAll f).updq = s.updq := rfl
@[simp] theorem state_resetAll_nextFrame (f : Fld) : (s.resetAll f).nextFrame = s.nextFrame := rfl
@[simp] theorem state_resetAll_jobs (f : Fld) : (s.resetAll f).jobs = s.jobs := rfl
@[simp] theorem state_resetAll_egq (f : Fld) : (s.resetAll f).egq = s.egq := rfl
@[simp] theorem state_resetAll_coal (f : Fld) : (s.resetAll f).coal = s.coal := rfl
@[simp] theorem state_resetAll_oflEvq (f : Fld) : (s.resetAll f).oflEvq = s.oflEvq := rfl
@[simp] theorem state_resetAll_tblEvq (f : Fld) : (s.resetAll f).tblEvq = s.tblEvq := rfl
@[simp] theorem state_resetAll_dmaWait (f : Fld) : (s.resetAll f).dmaWait = s.dmaWait := rfl
@[simp] theorem state_resetAll_fifo (f : Fld) : (s.resetAll f).fifo = s.fifo := rfl
@[simp] theorem state_resetAll_bulk (f : Fld) : (s.resetAll f).bulk = s.bulk := rfl
@[simp] theorem state_resetAll_ctlq (f : Fld) : (s.resetAll f).ctlq = s.ctlq := rfl
@[simp] theorem state_resetAll_falls (f : Fld) : (s.resetAll f).falls = s.falls := rfl
@[simp] theorem state_resetAll_tblq (f : Fld) : (s.resetAll f).tblq = s.tblq := rfl
@[simp] theorem state_resetAll_samples (f : Fld) : (s.resetAll f).samples = s.samples := rfl
@[simp] theorem state_resetAll_learnq (f : Fld) : (s.resetAll f).learnq = s.learnq := rfl
@[simp] theorem state_resetAll_rxdel (f : Fld) : (s.resetAll f).rxdel = s.rxdel := rfl
@[simp] theorem state_resetAll_tls (f : Fld) : (s.resetAll f).tls = s.tls := rfl
@[simp] theorem state_resetAll_nvp (f : Fld) : (s.resetAll f).nvp = s.nvp := rfl
@[simp] theorem state_resetAll_mbxSnd (f : Fld) : (s.resetAll f).mbxSnd = s.mbxSnd := rfl
@[simp] theorem state_resetAll_migImg (f : Fld) : (s.resetAll f).migImg = s.migImg := rfl
@[simp] theorem state_resetAll_reads (f : Fld) : (s.resetAll f).reads = s.reads := rfl
@[simp] theorem state_resetAll_tagQuar (f : Fld) : (s.resetAll f).tagQuar = s.tagQuar := rfl
@[simp] theorem state_resetAll_rdWait (f : Fld) : (s.resetAll f).rdWait = s.rdWait := rfl
@[simp] theorem state_resetAll_dump (f : Fld) : (s.resetAll f).dump = s.dump := rfl
@[simp] theorem state_resetAll_ledger (f : Fld) : (s.resetAll f).ledger = s.ledger := rfl
@[simp] theorem state_resetAll_bootImg (f : Fld) : (s.resetAll f).bootImg = s.bootImg := rfl
@[simp] theorem state_resetAll_twinQ (f : Fld) : (s.resetAll f).twinQ = s.twinQ := rfl
@[simp] theorem state_resetAll_twinR (f : Fld) : (s.resetAll f).twinR = s.twinR := rfl
@[simp] theorem state_resetAll_twinRD (f : Fld) : (s.resetAll f).twinRD = s.twinRD := rfl
@[simp] theorem state_resetAll_twinP (f : Fld) : (s.resetAll f).twinP = s.twinP := rfl

/-! ## emit -/

@[simp] theorem state_emit_pending (o : Out) : (s.emit o).pending = s.pending := rfl
@[simp] theorem state_emit_fld (o : Out) : (s.emit o).fld = s.fld := rfl
@[simp] theorem state_emit_free (o : Out) : (s.emit o).free = s.free := rfl
@[simp] theorem state_emit_held (o : Out) : (s.emit o).held = s.held := rfl
@[simp] theorem state_emit_ents (o : Out) : (s.emit o).ents = s.ents := rfl
@[simp] theorem state_emit_passed (o : Out) : (s.emit o).passed = s.passed := rfl
@[simp] theorem state_emit_fetched (o : Out) : (s.emit o).fetched = s.fetched := rfl
@[simp] theorem state_emit_backlog (o : Out) : (s.emit o).backlog = s.backlog := rfl
@[simp] theorem state_emit_firnStage (o : Out) : (s.emit o).firnStage = s.firnStage := rfl
@[simp] theorem state_emit_firn (o : Out) : (s.emit o).firn = s.firn := rfl
@[simp] theorem state_emit_recov (o : Out) : (s.emit o).recov = s.recov := rfl
@[simp] theorem state_emit_twinWait (o : Out) : (s.emit o).twinWait = s.twinWait := rfl
@[simp] theorem state_emit_hdrLog (o : Out) : (s.emit o).hdrLog = s.hdrLog := rfl
@[simp] theorem state_emit_places (o : Out) : (s.emit o).places = s.places := rfl
@[simp] theorem state_emit_mem (o : Out) : (s.emit o).mem = s.mem := rfl
@[simp] theorem state_emit_frames (o : Out) : (s.emit o).frames = s.frames := rfl
@[simp] theorem state_emit_dispq (o : Out) : (s.emit o).dispq = s.dispq := rfl
@[simp] theorem state_emit_excq (o : Out) : (s.emit o).excq = s.excq := rfl
@[simp] theorem state_emit_leafq (o : Out) : (s.emit o).leafq = s.leafq := rfl
@[simp] theorem state_emit_domq (o : Out) : (s.emit o).domq = s.domq := rfl
@[simp] theorem state_emit_flight (o : Out) : (s.emit o).flight = s.flight := rfl
@[simp] theorem state_emit_faultq (o : Out) : (s.emit o).faultq = s.faultq := rfl
@[simp] theorem state_emit_fltLog (o : Out) : (s.emit o).fltLog = s.fltLog := rfl
@[simp] theorem state_emit_updq (o : Out) : (s.emit o).updq = s.updq := rfl
@[simp] theorem state_emit_nextFrame (o : Out) : (s.emit o).nextFrame = s.nextFrame := rfl
@[simp] theorem state_emit_jobs (o : Out) : (s.emit o).jobs = s.jobs := rfl
@[simp] theorem state_emit_egq (o : Out) : (s.emit o).egq = s.egq := rfl
@[simp] theorem state_emit_coal (o : Out) : (s.emit o).coal = s.coal := rfl
@[simp] theorem state_emit_oflEvq (o : Out) : (s.emit o).oflEvq = s.oflEvq := rfl
@[simp] theorem state_emit_tblEvq (o : Out) : (s.emit o).tblEvq = s.tblEvq := rfl
@[simp] theorem state_emit_dmaWait (o : Out) : (s.emit o).dmaWait = s.dmaWait := rfl
@[simp] theorem state_emit_fifo (o : Out) : (s.emit o).fifo = s.fifo := rfl
@[simp] theorem state_emit_bulk (o : Out) : (s.emit o).bulk = s.bulk := rfl
@[simp] theorem state_emit_ctlq (o : Out) : (s.emit o).ctlq = s.ctlq := rfl
@[simp] theorem state_emit_falls (o : Out) : (s.emit o).falls = s.falls := rfl
@[simp] theorem state_emit_tblq (o : Out) : (s.emit o).tblq = s.tblq := rfl
@[simp] theorem state_emit_samples (o : Out) : (s.emit o).samples = s.samples := rfl
@[simp] theorem state_emit_learnq (o : Out) : (s.emit o).learnq = s.learnq := rfl
@[simp] theorem state_emit_rxdel (o : Out) : (s.emit o).rxdel = s.rxdel := rfl
@[simp] theorem state_emit_tls (o : Out) : (s.emit o).tls = s.tls := rfl
@[simp] theorem state_emit_nvp (o : Out) : (s.emit o).nvp = s.nvp := rfl
@[simp] theorem state_emit_mbxSnd (o : Out) : (s.emit o).mbxSnd = s.mbxSnd := rfl
@[simp] theorem state_emit_migImg (o : Out) : (s.emit o).migImg = s.migImg := rfl
@[simp] theorem state_emit_reads (o : Out) : (s.emit o).reads = s.reads := rfl
@[simp] theorem state_emit_tagQuar (o : Out) : (s.emit o).tagQuar = s.tagQuar := rfl
@[simp] theorem state_emit_rdWait (o : Out) : (s.emit o).rdWait = s.rdWait := rfl
@[simp] theorem state_emit_dump (o : Out) : (s.emit o).dump = s.dump := rfl
@[simp] theorem state_emit_ledger (o : Out) : (s.emit o).ledger = s.ledger := rfl
@[simp] theorem state_emit_bootImg (o : Out) : (s.emit o).bootImg = s.bootImg := rfl
@[simp] theorem state_emit_twinQ (o : Out) : (s.emit o).twinQ = s.twinQ := rfl
@[simp] theorem state_emit_twinR (o : Out) : (s.emit o).twinR = s.twinR := rfl
@[simp] theorem state_emit_twinRD (o : Out) : (s.emit o).twinRD = s.twinRD := rfl
@[simp] theorem state_emit_twinP (o : Out) : (s.emit o).twinP = s.twinP := rfl
@[simp] theorem state_emit_get (o : Out) (g : Fld) (j : Nat) : (s.emit o).get g j = s.get g j := rfl
@[simp] theorem state_emit_flag (o : Out) (g : Fld) (j : Nat) : (s.emit o).flag g j = s.flag g j := rfl
@[simp] theorem state_emit_dev (o : Out) : (s.emit o).dev = s.dev := rfl
@[simp] theorem state_emit_now (o : Out) : (s.emit o).now = s.now := rfl
@[simp] theorem state_emit_out (o : Out) : (s.emit o).out = s.out ++ [o] := rfl

/-! ## wr -/

@[simp] theorem state_wr_pending (a : Nat) (bs : List Byte) : (s.wr a bs).pending = s.pending := rfl
@[simp] theorem state_wr_fld (a : Nat) (bs : List Byte) : (s.wr a bs).fld = s.fld := rfl
@[simp] theorem state_wr_free (a : Nat) (bs : List Byte) : (s.wr a bs).free = s.free := rfl
@[simp] theorem state_wr_out (a : Nat) (bs : List Byte) : (s.wr a bs).out = s.out := rfl
@[simp] theorem state_wr_held (a : Nat) (bs : List Byte) : (s.wr a bs).held = s.held := rfl
@[simp] theorem state_wr_ents (a : Nat) (bs : List Byte) : (s.wr a bs).ents = s.ents := rfl
@[simp] theorem state_wr_passed (a : Nat) (bs : List Byte) : (s.wr a bs).passed = s.passed := rfl
@[simp] theorem state_wr_fetched (a : Nat) (bs : List Byte) : (s.wr a bs).fetched = s.fetched := rfl
@[simp] theorem state_wr_backlog (a : Nat) (bs : List Byte) : (s.wr a bs).backlog = s.backlog := rfl
@[simp] theorem state_wr_firnStage (a : Nat) (bs : List Byte) : (s.wr a bs).firnStage = s.firnStage := rfl
@[simp] theorem state_wr_firn (a : Nat) (bs : List Byte) : (s.wr a bs).firn = s.firn := rfl
@[simp] theorem state_wr_recov (a : Nat) (bs : List Byte) : (s.wr a bs).recov = s.recov := rfl
@[simp] theorem state_wr_twinWait (a : Nat) (bs : List Byte) : (s.wr a bs).twinWait = s.twinWait := rfl
@[simp] theorem state_wr_hdrLog (a : Nat) (bs : List Byte) : (s.wr a bs).hdrLog = s.hdrLog := rfl
@[simp] theorem state_wr_places (a : Nat) (bs : List Byte) : (s.wr a bs).places = s.places := rfl
@[simp] theorem state_wr_frames (a : Nat) (bs : List Byte) : (s.wr a bs).frames = s.frames := rfl
@[simp] theorem state_wr_dispq (a : Nat) (bs : List Byte) : (s.wr a bs).dispq = s.dispq := rfl
@[simp] theorem state_wr_excq (a : Nat) (bs : List Byte) : (s.wr a bs).excq = s.excq := rfl
@[simp] theorem state_wr_leafq (a : Nat) (bs : List Byte) : (s.wr a bs).leafq = s.leafq := rfl
@[simp] theorem state_wr_domq (a : Nat) (bs : List Byte) : (s.wr a bs).domq = s.domq := rfl
@[simp] theorem state_wr_flight (a : Nat) (bs : List Byte) : (s.wr a bs).flight = s.flight := rfl
@[simp] theorem state_wr_faultq (a : Nat) (bs : List Byte) : (s.wr a bs).faultq = s.faultq := rfl
@[simp] theorem state_wr_fltLog (a : Nat) (bs : List Byte) : (s.wr a bs).fltLog = s.fltLog := rfl
@[simp] theorem state_wr_updq (a : Nat) (bs : List Byte) : (s.wr a bs).updq = s.updq := rfl
@[simp] theorem state_wr_nextFrame (a : Nat) (bs : List Byte) : (s.wr a bs).nextFrame = s.nextFrame := rfl
@[simp] theorem state_wr_jobs (a : Nat) (bs : List Byte) : (s.wr a bs).jobs = s.jobs := rfl
@[simp] theorem state_wr_egq (a : Nat) (bs : List Byte) : (s.wr a bs).egq = s.egq := rfl
@[simp] theorem state_wr_coal (a : Nat) (bs : List Byte) : (s.wr a bs).coal = s.coal := rfl
@[simp] theorem state_wr_oflEvq (a : Nat) (bs : List Byte) : (s.wr a bs).oflEvq = s.oflEvq := rfl
@[simp] theorem state_wr_tblEvq (a : Nat) (bs : List Byte) : (s.wr a bs).tblEvq = s.tblEvq := rfl
@[simp] theorem state_wr_dmaWait (a : Nat) (bs : List Byte) : (s.wr a bs).dmaWait = s.dmaWait := rfl
@[simp] theorem state_wr_fifo (a : Nat) (bs : List Byte) : (s.wr a bs).fifo = s.fifo := rfl
@[simp] theorem state_wr_bulk (a : Nat) (bs : List Byte) : (s.wr a bs).bulk = s.bulk := rfl
@[simp] theorem state_wr_ctlq (a : Nat) (bs : List Byte) : (s.wr a bs).ctlq = s.ctlq := rfl
@[simp] theorem state_wr_falls (a : Nat) (bs : List Byte) : (s.wr a bs).falls = s.falls := rfl
@[simp] theorem state_wr_tblq (a : Nat) (bs : List Byte) : (s.wr a bs).tblq = s.tblq := rfl
@[simp] theorem state_wr_samples (a : Nat) (bs : List Byte) : (s.wr a bs).samples = s.samples := rfl
@[simp] theorem state_wr_learnq (a : Nat) (bs : List Byte) : (s.wr a bs).learnq = s.learnq := rfl
@[simp] theorem state_wr_rxdel (a : Nat) (bs : List Byte) : (s.wr a bs).rxdel = s.rxdel := rfl
@[simp] theorem state_wr_tls (a : Nat) (bs : List Byte) : (s.wr a bs).tls = s.tls := rfl
@[simp] theorem state_wr_nvp (a : Nat) (bs : List Byte) : (s.wr a bs).nvp = s.nvp := rfl
@[simp] theorem state_wr_mbxSnd (a : Nat) (bs : List Byte) : (s.wr a bs).mbxSnd = s.mbxSnd := rfl
@[simp] theorem state_wr_migImg (a : Nat) (bs : List Byte) : (s.wr a bs).migImg = s.migImg := rfl
@[simp] theorem state_wr_reads (a : Nat) (bs : List Byte) : (s.wr a bs).reads = s.reads := rfl
@[simp] theorem state_wr_tagQuar (a : Nat) (bs : List Byte) : (s.wr a bs).tagQuar = s.tagQuar := rfl
@[simp] theorem state_wr_rdWait (a : Nat) (bs : List Byte) : (s.wr a bs).rdWait = s.rdWait := rfl
@[simp] theorem state_wr_dump (a : Nat) (bs : List Byte) : (s.wr a bs).dump = s.dump := rfl
@[simp] theorem state_wr_ledger (a : Nat) (bs : List Byte) : (s.wr a bs).ledger = s.ledger := rfl
@[simp] theorem state_wr_bootImg (a : Nat) (bs : List Byte) : (s.wr a bs).bootImg = s.bootImg := rfl
@[simp] theorem state_wr_twinQ (a : Nat) (bs : List Byte) : (s.wr a bs).twinQ = s.twinQ := rfl
@[simp] theorem state_wr_twinR (a : Nat) (bs : List Byte) : (s.wr a bs).twinR = s.twinR := rfl
@[simp] theorem state_wr_twinRD (a : Nat) (bs : List Byte) : (s.wr a bs).twinRD = s.twinRD := rfl
@[simp] theorem state_wr_twinP (a : Nat) (bs : List Byte) : (s.wr a bs).twinP = s.twinP := rfl
@[simp] theorem state_wr_get (a : Nat) (bs : List Byte) (g : Fld) (j : Nat) : (s.wr a bs).get g j = s.get g j := rfl
@[simp] theorem state_wr_flag (a : Nat) (bs : List Byte) (g : Fld) (j : Nat) : (s.wr a bs).flag g j = s.flag g j := rfl
@[simp] theorem state_wr_dev (a : Nat) (bs : List Byte) : (s.wr a bs).dev = s.dev := rfl
@[simp] theorem state_wr_now (a : Nat) (bs : List Byte) : (s.wr a bs).now = s.now := rfl
@[simp] theorem state_wr_mem (a : Nat) (bs : List Byte) : (s.wr a bs).mem = Memory.writeBytes s.mem a bs := rfl

/-! ## setEnts -/

@[simp] theorem state_setEnts_pending (q : Nat) (l : List Ent) : (s.setEnts q l).pending = s.pending := rfl
@[simp] theorem state_setEnts_fld (q : Nat) (l : List Ent) : (s.setEnts q l).fld = s.fld := rfl
@[simp] theorem state_setEnts_free (q : Nat) (l : List Ent) : (s.setEnts q l).free = s.free := rfl
@[simp] theorem state_setEnts_out (q : Nat) (l : List Ent) : (s.setEnts q l).out = s.out := rfl
@[simp] theorem state_setEnts_held (q : Nat) (l : List Ent) : (s.setEnts q l).held = s.held := rfl
@[simp] theorem state_setEnts_passed (q : Nat) (l : List Ent) : (s.setEnts q l).passed = s.passed := rfl
@[simp] theorem state_setEnts_fetched (q : Nat) (l : List Ent) : (s.setEnts q l).fetched = s.fetched := rfl
@[simp] theorem state_setEnts_backlog (q : Nat) (l : List Ent) : (s.setEnts q l).backlog = s.backlog := rfl
@[simp] theorem state_setEnts_firnStage (q : Nat) (l : List Ent) : (s.setEnts q l).firnStage = s.firnStage := rfl
@[simp] theorem state_setEnts_firn (q : Nat) (l : List Ent) : (s.setEnts q l).firn = s.firn := rfl
@[simp] theorem state_setEnts_recov (q : Nat) (l : List Ent) : (s.setEnts q l).recov = s.recov := rfl
@[simp] theorem state_setEnts_twinWait (q : Nat) (l : List Ent) : (s.setEnts q l).twinWait = s.twinWait := rfl
@[simp] theorem state_setEnts_hdrLog (q : Nat) (l : List Ent) : (s.setEnts q l).hdrLog = s.hdrLog := rfl
@[simp] theorem state_setEnts_places (q : Nat) (l : List Ent) : (s.setEnts q l).places = s.places := rfl
@[simp] theorem state_setEnts_mem (q : Nat) (l : List Ent) : (s.setEnts q l).mem = s.mem := rfl
@[simp] theorem state_setEnts_frames (q : Nat) (l : List Ent) : (s.setEnts q l).frames = s.frames := rfl
@[simp] theorem state_setEnts_dispq (q : Nat) (l : List Ent) : (s.setEnts q l).dispq = s.dispq := rfl
@[simp] theorem state_setEnts_excq (q : Nat) (l : List Ent) : (s.setEnts q l).excq = s.excq := rfl
@[simp] theorem state_setEnts_leafq (q : Nat) (l : List Ent) : (s.setEnts q l).leafq = s.leafq := rfl
@[simp] theorem state_setEnts_domq (q : Nat) (l : List Ent) : (s.setEnts q l).domq = s.domq := rfl
@[simp] theorem state_setEnts_flight (q : Nat) (l : List Ent) : (s.setEnts q l).flight = s.flight := rfl
@[simp] theorem state_setEnts_faultq (q : Nat) (l : List Ent) : (s.setEnts q l).faultq = s.faultq := rfl
@[simp] theorem state_setEnts_fltLog (q : Nat) (l : List Ent) : (s.setEnts q l).fltLog = s.fltLog := rfl
@[simp] theorem state_setEnts_updq (q : Nat) (l : List Ent) : (s.setEnts q l).updq = s.updq := rfl
@[simp] theorem state_setEnts_nextFrame (q : Nat) (l : List Ent) : (s.setEnts q l).nextFrame = s.nextFrame := rfl
@[simp] theorem state_setEnts_jobs (q : Nat) (l : List Ent) : (s.setEnts q l).jobs = s.jobs := rfl
@[simp] theorem state_setEnts_egq (q : Nat) (l : List Ent) : (s.setEnts q l).egq = s.egq := rfl
@[simp] theorem state_setEnts_coal (q : Nat) (l : List Ent) : (s.setEnts q l).coal = s.coal := rfl
@[simp] theorem state_setEnts_oflEvq (q : Nat) (l : List Ent) : (s.setEnts q l).oflEvq = s.oflEvq := rfl
@[simp] theorem state_setEnts_tblEvq (q : Nat) (l : List Ent) : (s.setEnts q l).tblEvq = s.tblEvq := rfl
@[simp] theorem state_setEnts_dmaWait (q : Nat) (l : List Ent) : (s.setEnts q l).dmaWait = s.dmaWait := rfl
@[simp] theorem state_setEnts_fifo (q : Nat) (l : List Ent) : (s.setEnts q l).fifo = s.fifo := rfl
@[simp] theorem state_setEnts_bulk (q : Nat) (l : List Ent) : (s.setEnts q l).bulk = s.bulk := rfl
@[simp] theorem state_setEnts_ctlq (q : Nat) (l : List Ent) : (s.setEnts q l).ctlq = s.ctlq := rfl
@[simp] theorem state_setEnts_falls (q : Nat) (l : List Ent) : (s.setEnts q l).falls = s.falls := rfl
@[simp] theorem state_setEnts_tblq (q : Nat) (l : List Ent) : (s.setEnts q l).tblq = s.tblq := rfl
@[simp] theorem state_setEnts_samples (q : Nat) (l : List Ent) : (s.setEnts q l).samples = s.samples := rfl
@[simp] theorem state_setEnts_learnq (q : Nat) (l : List Ent) : (s.setEnts q l).learnq = s.learnq := rfl
@[simp] theorem state_setEnts_rxdel (q : Nat) (l : List Ent) : (s.setEnts q l).rxdel = s.rxdel := rfl
@[simp] theorem state_setEnts_tls (q : Nat) (l : List Ent) : (s.setEnts q l).tls = s.tls := rfl
@[simp] theorem state_setEnts_nvp (q : Nat) (l : List Ent) : (s.setEnts q l).nvp = s.nvp := rfl
@[simp] theorem state_setEnts_mbxSnd (q : Nat) (l : List Ent) : (s.setEnts q l).mbxSnd = s.mbxSnd := rfl
@[simp] theorem state_setEnts_migImg (q : Nat) (l : List Ent) : (s.setEnts q l).migImg = s.migImg := rfl
@[simp] theorem state_setEnts_reads (q : Nat) (l : List Ent) : (s.setEnts q l).reads = s.reads := rfl
@[simp] theorem state_setEnts_tagQuar (q : Nat) (l : List Ent) : (s.setEnts q l).tagQuar = s.tagQuar := rfl
@[simp] theorem state_setEnts_rdWait (q : Nat) (l : List Ent) : (s.setEnts q l).rdWait = s.rdWait := rfl
@[simp] theorem state_setEnts_dump (q : Nat) (l : List Ent) : (s.setEnts q l).dump = s.dump := rfl
@[simp] theorem state_setEnts_ledger (q : Nat) (l : List Ent) : (s.setEnts q l).ledger = s.ledger := rfl
@[simp] theorem state_setEnts_bootImg (q : Nat) (l : List Ent) : (s.setEnts q l).bootImg = s.bootImg := rfl
@[simp] theorem state_setEnts_twinQ (q : Nat) (l : List Ent) : (s.setEnts q l).twinQ = s.twinQ := rfl
@[simp] theorem state_setEnts_twinR (q : Nat) (l : List Ent) : (s.setEnts q l).twinR = s.twinR := rfl
@[simp] theorem state_setEnts_twinRD (q : Nat) (l : List Ent) : (s.setEnts q l).twinRD = s.twinRD := rfl
@[simp] theorem state_setEnts_twinP (q : Nat) (l : List Ent) : (s.setEnts q l).twinP = s.twinP := rfl
@[simp] theorem state_setEnts_get (q : Nat) (l : List Ent) (g : Fld) (j : Nat) : (s.setEnts q l).get g j = s.get g j := rfl
@[simp] theorem state_setEnts_flag (q : Nat) (l : List Ent) (g : Fld) (j : Nat) : (s.setEnts q l).flag g j = s.flag g j := rfl
@[simp] theorem state_setEnts_dev (q : Nat) (l : List Ent) : (s.setEnts q l).dev = s.dev := rfl
@[simp] theorem state_setEnts_now (q : Nat) (l : List Ent) : (s.setEnts q l).now = s.now := rfl

/-! ## setFetched -/

@[simp] theorem state_setFetched_pending (q : Nat) (l : List (List Byte)) : (s.setFetched q l).pending = s.pending := rfl
@[simp] theorem state_setFetched_fld (q : Nat) (l : List (List Byte)) : (s.setFetched q l).fld = s.fld := rfl
@[simp] theorem state_setFetched_free (q : Nat) (l : List (List Byte)) : (s.setFetched q l).free = s.free := rfl
@[simp] theorem state_setFetched_out (q : Nat) (l : List (List Byte)) : (s.setFetched q l).out = s.out := rfl
@[simp] theorem state_setFetched_held (q : Nat) (l : List (List Byte)) : (s.setFetched q l).held = s.held := rfl
@[simp] theorem state_setFetched_ents (q : Nat) (l : List (List Byte)) : (s.setFetched q l).ents = s.ents := rfl
@[simp] theorem state_setFetched_passed (q : Nat) (l : List (List Byte)) : (s.setFetched q l).passed = s.passed := rfl
@[simp] theorem state_setFetched_backlog (q : Nat) (l : List (List Byte)) : (s.setFetched q l).backlog = s.backlog := rfl
@[simp] theorem state_setFetched_firnStage (q : Nat) (l : List (List Byte)) : (s.setFetched q l).firnStage = s.firnStage := rfl
@[simp] theorem state_setFetched_firn (q : Nat) (l : List (List Byte)) : (s.setFetched q l).firn = s.firn := rfl
@[simp] theorem state_setFetched_recov (q : Nat) (l : List (List Byte)) : (s.setFetched q l).recov = s.recov := rfl
@[simp] theorem state_setFetched_twinWait (q : Nat) (l : List (List Byte)) : (s.setFetched q l).twinWait = s.twinWait := rfl
@[simp] theorem state_setFetched_hdrLog (q : Nat) (l : List (List Byte)) : (s.setFetched q l).hdrLog = s.hdrLog := rfl
@[simp] theorem state_setFetched_places (q : Nat) (l : List (List Byte)) : (s.setFetched q l).places = s.places := rfl
@[simp] theorem state_setFetched_mem (q : Nat) (l : List (List Byte)) : (s.setFetched q l).mem = s.mem := rfl
@[simp] theorem state_setFetched_frames (q : Nat) (l : List (List Byte)) : (s.setFetched q l).frames = s.frames := rfl
@[simp] theorem state_setFetched_dispq (q : Nat) (l : List (List Byte)) : (s.setFetched q l).dispq = s.dispq := rfl
@[simp] theorem state_setFetched_excq (q : Nat) (l : List (List Byte)) : (s.setFetched q l).excq = s.excq := rfl
@[simp] theorem state_setFetched_leafq (q : Nat) (l : List (List Byte)) : (s.setFetched q l).leafq = s.leafq := rfl
@[simp] theorem state_setFetched_domq (q : Nat) (l : List (List Byte)) : (s.setFetched q l).domq = s.domq := rfl
@[simp] theorem state_setFetched_flight (q : Nat) (l : List (List Byte)) : (s.setFetched q l).flight = s.flight := rfl
@[simp] theorem state_setFetched_faultq (q : Nat) (l : List (List Byte)) : (s.setFetched q l).faultq = s.faultq := rfl
@[simp] theorem state_setFetched_fltLog (q : Nat) (l : List (List Byte)) : (s.setFetched q l).fltLog = s.fltLog := rfl
@[simp] theorem state_setFetched_updq (q : Nat) (l : List (List Byte)) : (s.setFetched q l).updq = s.updq := rfl
@[simp] theorem state_setFetched_nextFrame (q : Nat) (l : List (List Byte)) : (s.setFetched q l).nextFrame = s.nextFrame := rfl
@[simp] theorem state_setFetched_jobs (q : Nat) (l : List (List Byte)) : (s.setFetched q l).jobs = s.jobs := rfl
@[simp] theorem state_setFetched_egq (q : Nat) (l : List (List Byte)) : (s.setFetched q l).egq = s.egq := rfl
@[simp] theorem state_setFetched_coal (q : Nat) (l : List (List Byte)) : (s.setFetched q l).coal = s.coal := rfl
@[simp] theorem state_setFetched_oflEvq (q : Nat) (l : List (List Byte)) : (s.setFetched q l).oflEvq = s.oflEvq := rfl
@[simp] theorem state_setFetched_tblEvq (q : Nat) (l : List (List Byte)) : (s.setFetched q l).tblEvq = s.tblEvq := rfl
@[simp] theorem state_setFetched_dmaWait (q : Nat) (l : List (List Byte)) : (s.setFetched q l).dmaWait = s.dmaWait := rfl
@[simp] theorem state_setFetched_fifo (q : Nat) (l : List (List Byte)) : (s.setFetched q l).fifo = s.fifo := rfl
@[simp] theorem state_setFetched_bulk (q : Nat) (l : List (List Byte)) : (s.setFetched q l).bulk = s.bulk := rfl
@[simp] theorem state_setFetched_ctlq (q : Nat) (l : List (List Byte)) : (s.setFetched q l).ctlq = s.ctlq := rfl
@[simp] theorem state_setFetched_falls (q : Nat) (l : List (List Byte)) : (s.setFetched q l).falls = s.falls := rfl
@[simp] theorem state_setFetched_tblq (q : Nat) (l : List (List Byte)) : (s.setFetched q l).tblq = s.tblq := rfl
@[simp] theorem state_setFetched_samples (q : Nat) (l : List (List Byte)) : (s.setFetched q l).samples = s.samples := rfl
@[simp] theorem state_setFetched_learnq (q : Nat) (l : List (List Byte)) : (s.setFetched q l).learnq = s.learnq := rfl
@[simp] theorem state_setFetched_rxdel (q : Nat) (l : List (List Byte)) : (s.setFetched q l).rxdel = s.rxdel := rfl
@[simp] theorem state_setFetched_tls (q : Nat) (l : List (List Byte)) : (s.setFetched q l).tls = s.tls := rfl
@[simp] theorem state_setFetched_nvp (q : Nat) (l : List (List Byte)) : (s.setFetched q l).nvp = s.nvp := rfl
@[simp] theorem state_setFetched_mbxSnd (q : Nat) (l : List (List Byte)) : (s.setFetched q l).mbxSnd = s.mbxSnd := rfl
@[simp] theorem state_setFetched_migImg (q : Nat) (l : List (List Byte)) : (s.setFetched q l).migImg = s.migImg := rfl
@[simp] theorem state_setFetched_reads (q : Nat) (l : List (List Byte)) : (s.setFetched q l).reads = s.reads := rfl
@[simp] theorem state_setFetched_tagQuar (q : Nat) (l : List (List Byte)) : (s.setFetched q l).tagQuar = s.tagQuar := rfl
@[simp] theorem state_setFetched_rdWait (q : Nat) (l : List (List Byte)) : (s.setFetched q l).rdWait = s.rdWait := rfl
@[simp] theorem state_setFetched_dump (q : Nat) (l : List (List Byte)) : (s.setFetched q l).dump = s.dump := rfl
@[simp] theorem state_setFetched_ledger (q : Nat) (l : List (List Byte)) : (s.setFetched q l).ledger = s.ledger := rfl
@[simp] theorem state_setFetched_bootImg (q : Nat) (l : List (List Byte)) : (s.setFetched q l).bootImg = s.bootImg := rfl
@[simp] theorem state_setFetched_twinQ (q : Nat) (l : List (List Byte)) : (s.setFetched q l).twinQ = s.twinQ := rfl
@[simp] theorem state_setFetched_twinR (q : Nat) (l : List (List Byte)) : (s.setFetched q l).twinR = s.twinR := rfl
@[simp] theorem state_setFetched_twinRD (q : Nat) (l : List (List Byte)) : (s.setFetched q l).twinRD = s.twinRD := rfl
@[simp] theorem state_setFetched_twinP (q : Nat) (l : List (List Byte)) : (s.setFetched q l).twinP = s.twinP := rfl
@[simp] theorem state_setFetched_get (q : Nat) (l : List (List Byte)) (g : Fld) (j : Nat) : (s.setFetched q l).get g j = s.get g j := rfl
@[simp] theorem state_setFetched_flag (q : Nat) (l : List (List Byte)) (g : Fld) (j : Nat) : (s.setFetched q l).flag g j = s.flag g j := rfl
@[simp] theorem state_setFetched_dev (q : Nat) (l : List (List Byte)) : (s.setFetched q l).dev = s.dev := rfl
@[simp] theorem state_setFetched_now (q : Nat) (l : List (List Byte)) : (s.setFetched q l).now = s.now := rfl

/-! ## setJobs -/

@[simp] theorem state_setJobs_pending (l : List Job) : (s.setJobs l).pending = s.pending := rfl
@[simp] theorem state_setJobs_fld (l : List Job) : (s.setJobs l).fld = s.fld := rfl
@[simp] theorem state_setJobs_free (l : List Job) : (s.setJobs l).free = s.free := rfl
@[simp] theorem state_setJobs_out (l : List Job) : (s.setJobs l).out = s.out := rfl
@[simp] theorem state_setJobs_held (l : List Job) : (s.setJobs l).held = s.held := rfl
@[simp] theorem state_setJobs_ents (l : List Job) : (s.setJobs l).ents = s.ents := rfl
@[simp] theorem state_setJobs_passed (l : List Job) : (s.setJobs l).passed = s.passed := rfl
@[simp] theorem state_setJobs_fetched (l : List Job) : (s.setJobs l).fetched = s.fetched := rfl
@[simp] theorem state_setJobs_backlog (l : List Job) : (s.setJobs l).backlog = s.backlog := rfl
@[simp] theorem state_setJobs_firnStage (l : List Job) : (s.setJobs l).firnStage = s.firnStage := rfl
@[simp] theorem state_setJobs_firn (l : List Job) : (s.setJobs l).firn = s.firn := rfl
@[simp] theorem state_setJobs_recov (l : List Job) : (s.setJobs l).recov = s.recov := rfl
@[simp] theorem state_setJobs_twinWait (l : List Job) : (s.setJobs l).twinWait = s.twinWait := rfl
@[simp] theorem state_setJobs_hdrLog (l : List Job) : (s.setJobs l).hdrLog = s.hdrLog := rfl
@[simp] theorem state_setJobs_places (l : List Job) : (s.setJobs l).places = s.places := rfl
@[simp] theorem state_setJobs_mem (l : List Job) : (s.setJobs l).mem = s.mem := rfl
@[simp] theorem state_setJobs_frames (l : List Job) : (s.setJobs l).frames = s.frames := rfl
@[simp] theorem state_setJobs_dispq (l : List Job) : (s.setJobs l).dispq = s.dispq := rfl
@[simp] theorem state_setJobs_excq (l : List Job) : (s.setJobs l).excq = s.excq := rfl
@[simp] theorem state_setJobs_leafq (l : List Job) : (s.setJobs l).leafq = s.leafq := rfl
@[simp] theorem state_setJobs_domq (l : List Job) : (s.setJobs l).domq = s.domq := rfl
@[simp] theorem state_setJobs_flight (l : List Job) : (s.setJobs l).flight = s.flight := rfl
@[simp] theorem state_setJobs_faultq (l : List Job) : (s.setJobs l).faultq = s.faultq := rfl
@[simp] theorem state_setJobs_fltLog (l : List Job) : (s.setJobs l).fltLog = s.fltLog := rfl
@[simp] theorem state_setJobs_updq (l : List Job) : (s.setJobs l).updq = s.updq := rfl
@[simp] theorem state_setJobs_nextFrame (l : List Job) : (s.setJobs l).nextFrame = s.nextFrame := rfl
@[simp] theorem state_setJobs_egq (l : List Job) : (s.setJobs l).egq = s.egq := rfl
@[simp] theorem state_setJobs_coal (l : List Job) : (s.setJobs l).coal = s.coal := rfl
@[simp] theorem state_setJobs_oflEvq (l : List Job) : (s.setJobs l).oflEvq = s.oflEvq := rfl
@[simp] theorem state_setJobs_tblEvq (l : List Job) : (s.setJobs l).tblEvq = s.tblEvq := rfl
@[simp] theorem state_setJobs_dmaWait (l : List Job) : (s.setJobs l).dmaWait = s.dmaWait := rfl
@[simp] theorem state_setJobs_fifo (l : List Job) : (s.setJobs l).fifo = s.fifo := rfl
@[simp] theorem state_setJobs_bulk (l : List Job) : (s.setJobs l).bulk = s.bulk := rfl
@[simp] theorem state_setJobs_ctlq (l : List Job) : (s.setJobs l).ctlq = s.ctlq := rfl
@[simp] theorem state_setJobs_falls (l : List Job) : (s.setJobs l).falls = s.falls := rfl
@[simp] theorem state_setJobs_tblq (l : List Job) : (s.setJobs l).tblq = s.tblq := rfl
@[simp] theorem state_setJobs_samples (l : List Job) : (s.setJobs l).samples = s.samples := rfl
@[simp] theorem state_setJobs_learnq (l : List Job) : (s.setJobs l).learnq = s.learnq := rfl
@[simp] theorem state_setJobs_rxdel (l : List Job) : (s.setJobs l).rxdel = s.rxdel := rfl
@[simp] theorem state_setJobs_tls (l : List Job) : (s.setJobs l).tls = s.tls := rfl
@[simp] theorem state_setJobs_nvp (l : List Job) : (s.setJobs l).nvp = s.nvp := rfl
@[simp] theorem state_setJobs_mbxSnd (l : List Job) : (s.setJobs l).mbxSnd = s.mbxSnd := rfl
@[simp] theorem state_setJobs_migImg (l : List Job) : (s.setJobs l).migImg = s.migImg := rfl
@[simp] theorem state_setJobs_reads (l : List Job) : (s.setJobs l).reads = s.reads := rfl
@[simp] theorem state_setJobs_tagQuar (l : List Job) : (s.setJobs l).tagQuar = s.tagQuar := rfl
@[simp] theorem state_setJobs_rdWait (l : List Job) : (s.setJobs l).rdWait = s.rdWait := rfl
@[simp] theorem state_setJobs_dump (l : List Job) : (s.setJobs l).dump = s.dump := rfl
@[simp] theorem state_setJobs_ledger (l : List Job) : (s.setJobs l).ledger = s.ledger := rfl
@[simp] theorem state_setJobs_bootImg (l : List Job) : (s.setJobs l).bootImg = s.bootImg := rfl
@[simp] theorem state_setJobs_twinQ (l : List Job) : (s.setJobs l).twinQ = s.twinQ := rfl
@[simp] theorem state_setJobs_twinR (l : List Job) : (s.setJobs l).twinR = s.twinR := rfl
@[simp] theorem state_setJobs_twinRD (l : List Job) : (s.setJobs l).twinRD = s.twinRD := rfl
@[simp] theorem state_setJobs_twinP (l : List Job) : (s.setJobs l).twinP = s.twinP := rfl
@[simp] theorem state_setJobs_get (l : List Job) (g : Fld) (j : Nat) : (s.setJobs l).get g j = s.get g j := rfl
@[simp] theorem state_setJobs_flag (l : List Job) (g : Fld) (j : Nat) : (s.setJobs l).flag g j = s.flag g j := rfl
@[simp] theorem state_setJobs_dev (l : List Job) : (s.setJobs l).dev = s.dev := rfl
@[simp] theorem state_setJobs_now (l : List Job) : (s.setJobs l).now = s.now := rfl

/-! ## setFrame -/

@[simp] theorem state_setFrame_pending (n : Nat) (x : Frame) : (s.setFrame n x).pending = s.pending := rfl
@[simp] theorem state_setFrame_fld (n : Nat) (x : Frame) : (s.setFrame n x).fld = s.fld := rfl
@[simp] theorem state_setFrame_free (n : Nat) (x : Frame) : (s.setFrame n x).free = s.free := rfl
@[simp] theorem state_setFrame_out (n : Nat) (x : Frame) : (s.setFrame n x).out = s.out := rfl
@[simp] theorem state_setFrame_held (n : Nat) (x : Frame) : (s.setFrame n x).held = s.held := rfl
@[simp] theorem state_setFrame_ents (n : Nat) (x : Frame) : (s.setFrame n x).ents = s.ents := rfl
@[simp] theorem state_setFrame_passed (n : Nat) (x : Frame) : (s.setFrame n x).passed = s.passed := rfl
@[simp] theorem state_setFrame_fetched (n : Nat) (x : Frame) : (s.setFrame n x).fetched = s.fetched := rfl
@[simp] theorem state_setFrame_backlog (n : Nat) (x : Frame) : (s.setFrame n x).backlog = s.backlog := rfl
@[simp] theorem state_setFrame_firnStage (n : Nat) (x : Frame) : (s.setFrame n x).firnStage = s.firnStage := rfl
@[simp] theorem state_setFrame_firn (n : Nat) (x : Frame) : (s.setFrame n x).firn = s.firn := rfl
@[simp] theorem state_setFrame_recov (n : Nat) (x : Frame) : (s.setFrame n x).recov = s.recov := rfl
@[simp] theorem state_setFrame_twinWait (n : Nat) (x : Frame) : (s.setFrame n x).twinWait = s.twinWait := rfl
@[simp] theorem state_setFrame_hdrLog (n : Nat) (x : Frame) : (s.setFrame n x).hdrLog = s.hdrLog := rfl
@[simp] theorem state_setFrame_places (n : Nat) (x : Frame) : (s.setFrame n x).places = s.places := rfl
@[simp] theorem state_setFrame_mem (n : Nat) (x : Frame) : (s.setFrame n x).mem = s.mem := rfl
@[simp] theorem state_setFrame_dispq (n : Nat) (x : Frame) : (s.setFrame n x).dispq = s.dispq := rfl
@[simp] theorem state_setFrame_excq (n : Nat) (x : Frame) : (s.setFrame n x).excq = s.excq := rfl
@[simp] theorem state_setFrame_leafq (n : Nat) (x : Frame) : (s.setFrame n x).leafq = s.leafq := rfl
@[simp] theorem state_setFrame_domq (n : Nat) (x : Frame) : (s.setFrame n x).domq = s.domq := rfl
@[simp] theorem state_setFrame_flight (n : Nat) (x : Frame) : (s.setFrame n x).flight = s.flight := rfl
@[simp] theorem state_setFrame_faultq (n : Nat) (x : Frame) : (s.setFrame n x).faultq = s.faultq := rfl
@[simp] theorem state_setFrame_fltLog (n : Nat) (x : Frame) : (s.setFrame n x).fltLog = s.fltLog := rfl
@[simp] theorem state_setFrame_updq (n : Nat) (x : Frame) : (s.setFrame n x).updq = s.updq := rfl
@[simp] theorem state_setFrame_nextFrame (n : Nat) (x : Frame) : (s.setFrame n x).nextFrame = s.nextFrame := rfl
@[simp] theorem state_setFrame_jobs (n : Nat) (x : Frame) : (s.setFrame n x).jobs = s.jobs := rfl
@[simp] theorem state_setFrame_egq (n : Nat) (x : Frame) : (s.setFrame n x).egq = s.egq := rfl
@[simp] theorem state_setFrame_coal (n : Nat) (x : Frame) : (s.setFrame n x).coal = s.coal := rfl
@[simp] theorem state_setFrame_oflEvq (n : Nat) (x : Frame) : (s.setFrame n x).oflEvq = s.oflEvq := rfl
@[simp] theorem state_setFrame_tblEvq (n : Nat) (x : Frame) : (s.setFrame n x).tblEvq = s.tblEvq := rfl
@[simp] theorem state_setFrame_dmaWait (n : Nat) (x : Frame) : (s.setFrame n x).dmaWait = s.dmaWait := rfl
@[simp] theorem state_setFrame_fifo (n : Nat) (x : Frame) : (s.setFrame n x).fifo = s.fifo := rfl
@[simp] theorem state_setFrame_bulk (n : Nat) (x : Frame) : (s.setFrame n x).bulk = s.bulk := rfl
@[simp] theorem state_setFrame_ctlq (n : Nat) (x : Frame) : (s.setFrame n x).ctlq = s.ctlq := rfl
@[simp] theorem state_setFrame_falls (n : Nat) (x : Frame) : (s.setFrame n x).falls = s.falls := rfl
@[simp] theorem state_setFrame_tblq (n : Nat) (x : Frame) : (s.setFrame n x).tblq = s.tblq := rfl
@[simp] theorem state_setFrame_samples (n : Nat) (x : Frame) : (s.setFrame n x).samples = s.samples := rfl
@[simp] theorem state_setFrame_learnq (n : Nat) (x : Frame) : (s.setFrame n x).learnq = s.learnq := rfl
@[simp] theorem state_setFrame_rxdel (n : Nat) (x : Frame) : (s.setFrame n x).rxdel = s.rxdel := rfl
@[simp] theorem state_setFrame_tls (n : Nat) (x : Frame) : (s.setFrame n x).tls = s.tls := rfl
@[simp] theorem state_setFrame_nvp (n : Nat) (x : Frame) : (s.setFrame n x).nvp = s.nvp := rfl
@[simp] theorem state_setFrame_mbxSnd (n : Nat) (x : Frame) : (s.setFrame n x).mbxSnd = s.mbxSnd := rfl
@[simp] theorem state_setFrame_migImg (n : Nat) (x : Frame) : (s.setFrame n x).migImg = s.migImg := rfl
@[simp] theorem state_setFrame_reads (n : Nat) (x : Frame) : (s.setFrame n x).reads = s.reads := rfl
@[simp] theorem state_setFrame_tagQuar (n : Nat) (x : Frame) : (s.setFrame n x).tagQuar = s.tagQuar := rfl
@[simp] theorem state_setFrame_rdWait (n : Nat) (x : Frame) : (s.setFrame n x).rdWait = s.rdWait := rfl
@[simp] theorem state_setFrame_dump (n : Nat) (x : Frame) : (s.setFrame n x).dump = s.dump := rfl
@[simp] theorem state_setFrame_ledger (n : Nat) (x : Frame) : (s.setFrame n x).ledger = s.ledger := rfl
@[simp] theorem state_setFrame_bootImg (n : Nat) (x : Frame) : (s.setFrame n x).bootImg = s.bootImg := rfl
@[simp] theorem state_setFrame_twinQ (n : Nat) (x : Frame) : (s.setFrame n x).twinQ = s.twinQ := rfl
@[simp] theorem state_setFrame_twinR (n : Nat) (x : Frame) : (s.setFrame n x).twinR = s.twinR := rfl
@[simp] theorem state_setFrame_twinRD (n : Nat) (x : Frame) : (s.setFrame n x).twinRD = s.twinRD := rfl
@[simp] theorem state_setFrame_twinP (n : Nat) (x : Frame) : (s.setFrame n x).twinP = s.twinP := rfl
@[simp] theorem state_setFrame_get (n : Nat) (x : Frame) (g : Fld) (j : Nat) : (s.setFrame n x).get g j = s.get g j := rfl
@[simp] theorem state_setFrame_flag (n : Nat) (x : Frame) (g : Fld) (j : Nat) : (s.setFrame n x).flag g j = s.flag g j := rfl
@[simp] theorem state_setFrame_dev (n : Nat) (x : Frame) : (s.setFrame n x).dev = s.dev := rfl
@[simp] theorem state_setFrame_now (n : Nat) (x : Frame) : (s.setFrame n x).now = s.now := rfl

/-! ## setDom -/

@[simp] theorem state_setDom_pending (k : Nat) (l : List Ticket) : (s.setDom k l).pending = s.pending := rfl
@[simp] theorem state_setDom_fld (k : Nat) (l : List Ticket) : (s.setDom k l).fld = s.fld := rfl
@[simp] theorem state_setDom_free (k : Nat) (l : List Ticket) : (s.setDom k l).free = s.free := rfl
@[simp] theorem state_setDom_out (k : Nat) (l : List Ticket) : (s.setDom k l).out = s.out := rfl
@[simp] theorem state_setDom_held (k : Nat) (l : List Ticket) : (s.setDom k l).held = s.held := rfl
@[simp] theorem state_setDom_ents (k : Nat) (l : List Ticket) : (s.setDom k l).ents = s.ents := rfl
@[simp] theorem state_setDom_passed (k : Nat) (l : List Ticket) : (s.setDom k l).passed = s.passed := rfl
@[simp] theorem state_setDom_fetched (k : Nat) (l : List Ticket) : (s.setDom k l).fetched = s.fetched := rfl
@[simp] theorem state_setDom_backlog (k : Nat) (l : List Ticket) : (s.setDom k l).backlog = s.backlog := rfl
@[simp] theorem state_setDom_firnStage (k : Nat) (l : List Ticket) : (s.setDom k l).firnStage = s.firnStage := rfl
@[simp] theorem state_setDom_firn (k : Nat) (l : List Ticket) : (s.setDom k l).firn = s.firn := rfl
@[simp] theorem state_setDom_recov (k : Nat) (l : List Ticket) : (s.setDom k l).recov = s.recov := rfl
@[simp] theorem state_setDom_twinWait (k : Nat) (l : List Ticket) : (s.setDom k l).twinWait = s.twinWait := rfl
@[simp] theorem state_setDom_hdrLog (k : Nat) (l : List Ticket) : (s.setDom k l).hdrLog = s.hdrLog := rfl
@[simp] theorem state_setDom_places (k : Nat) (l : List Ticket) : (s.setDom k l).places = s.places := rfl
@[simp] theorem state_setDom_mem (k : Nat) (l : List Ticket) : (s.setDom k l).mem = s.mem := rfl
@[simp] theorem state_setDom_frames (k : Nat) (l : List Ticket) : (s.setDom k l).frames = s.frames := rfl
@[simp] theorem state_setDom_dispq (k : Nat) (l : List Ticket) : (s.setDom k l).dispq = s.dispq := rfl
@[simp] theorem state_setDom_excq (k : Nat) (l : List Ticket) : (s.setDom k l).excq = s.excq := rfl
@[simp] theorem state_setDom_leafq (k : Nat) (l : List Ticket) : (s.setDom k l).leafq = s.leafq := rfl
@[simp] theorem state_setDom_flight (k : Nat) (l : List Ticket) : (s.setDom k l).flight = s.flight := rfl
@[simp] theorem state_setDom_faultq (k : Nat) (l : List Ticket) : (s.setDom k l).faultq = s.faultq := rfl
@[simp] theorem state_setDom_fltLog (k : Nat) (l : List Ticket) : (s.setDom k l).fltLog = s.fltLog := rfl
@[simp] theorem state_setDom_updq (k : Nat) (l : List Ticket) : (s.setDom k l).updq = s.updq := rfl
@[simp] theorem state_setDom_nextFrame (k : Nat) (l : List Ticket) : (s.setDom k l).nextFrame = s.nextFrame := rfl
@[simp] theorem state_setDom_jobs (k : Nat) (l : List Ticket) : (s.setDom k l).jobs = s.jobs := rfl
@[simp] theorem state_setDom_egq (k : Nat) (l : List Ticket) : (s.setDom k l).egq = s.egq := rfl
@[simp] theorem state_setDom_coal (k : Nat) (l : List Ticket) : (s.setDom k l).coal = s.coal := rfl
@[simp] theorem state_setDom_oflEvq (k : Nat) (l : List Ticket) : (s.setDom k l).oflEvq = s.oflEvq := rfl
@[simp] theorem state_setDom_tblEvq (k : Nat) (l : List Ticket) : (s.setDom k l).tblEvq = s.tblEvq := rfl
@[simp] theorem state_setDom_dmaWait (k : Nat) (l : List Ticket) : (s.setDom k l).dmaWait = s.dmaWait := rfl
@[simp] theorem state_setDom_fifo (k : Nat) (l : List Ticket) : (s.setDom k l).fifo = s.fifo := rfl
@[simp] theorem state_setDom_bulk (k : Nat) (l : List Ticket) : (s.setDom k l).bulk = s.bulk := rfl
@[simp] theorem state_setDom_ctlq (k : Nat) (l : List Ticket) : (s.setDom k l).ctlq = s.ctlq := rfl
@[simp] theorem state_setDom_falls (k : Nat) (l : List Ticket) : (s.setDom k l).falls = s.falls := rfl
@[simp] theorem state_setDom_tblq (k : Nat) (l : List Ticket) : (s.setDom k l).tblq = s.tblq := rfl
@[simp] theorem state_setDom_samples (k : Nat) (l : List Ticket) : (s.setDom k l).samples = s.samples := rfl
@[simp] theorem state_setDom_learnq (k : Nat) (l : List Ticket) : (s.setDom k l).learnq = s.learnq := rfl
@[simp] theorem state_setDom_rxdel (k : Nat) (l : List Ticket) : (s.setDom k l).rxdel = s.rxdel := rfl
@[simp] theorem state_setDom_tls (k : Nat) (l : List Ticket) : (s.setDom k l).tls = s.tls := rfl
@[simp] theorem state_setDom_nvp (k : Nat) (l : List Ticket) : (s.setDom k l).nvp = s.nvp := rfl
@[simp] theorem state_setDom_mbxSnd (k : Nat) (l : List Ticket) : (s.setDom k l).mbxSnd = s.mbxSnd := rfl
@[simp] theorem state_setDom_migImg (k : Nat) (l : List Ticket) : (s.setDom k l).migImg = s.migImg := rfl
@[simp] theorem state_setDom_reads (k : Nat) (l : List Ticket) : (s.setDom k l).reads = s.reads := rfl
@[simp] theorem state_setDom_tagQuar (k : Nat) (l : List Ticket) : (s.setDom k l).tagQuar = s.tagQuar := rfl
@[simp] theorem state_setDom_rdWait (k : Nat) (l : List Ticket) : (s.setDom k l).rdWait = s.rdWait := rfl
@[simp] theorem state_setDom_dump (k : Nat) (l : List Ticket) : (s.setDom k l).dump = s.dump := rfl
@[simp] theorem state_setDom_ledger (k : Nat) (l : List Ticket) : (s.setDom k l).ledger = s.ledger := rfl
@[simp] theorem state_setDom_bootImg (k : Nat) (l : List Ticket) : (s.setDom k l).bootImg = s.bootImg := rfl
@[simp] theorem state_setDom_twinQ (k : Nat) (l : List Ticket) : (s.setDom k l).twinQ = s.twinQ := rfl
@[simp] theorem state_setDom_twinR (k : Nat) (l : List Ticket) : (s.setDom k l).twinR = s.twinR := rfl
@[simp] theorem state_setDom_twinRD (k : Nat) (l : List Ticket) : (s.setDom k l).twinRD = s.twinRD := rfl
@[simp] theorem state_setDom_twinP (k : Nat) (l : List Ticket) : (s.setDom k l).twinP = s.twinP := rfl
@[simp] theorem state_setDom_get (k : Nat) (l : List Ticket) (g : Fld) (j : Nat) : (s.setDom k l).get g j = s.get g j := rfl
@[simp] theorem state_setDom_flag (k : Nat) (l : List Ticket) (g : Fld) (j : Nat) : (s.setDom k l).flag g j = s.flag g j := rfl
@[simp] theorem state_setDom_dev (k : Nat) (l : List Ticket) : (s.setDom k l).dev = s.dev := rfl
@[simp] theorem state_setDom_now (k : Nat) (l : List Ticket) : (s.setDom k l).now = s.now := rfl

/-! ## setTwinQ -/

@[simp] theorem state_setTwinQ_pending (q : Nat) (c : TwinQ) : (s.setTwinQ q c).pending = s.pending := rfl
@[simp] theorem state_setTwinQ_fld (q : Nat) (c : TwinQ) : (s.setTwinQ q c).fld = s.fld := rfl
@[simp] theorem state_setTwinQ_free (q : Nat) (c : TwinQ) : (s.setTwinQ q c).free = s.free := rfl
@[simp] theorem state_setTwinQ_out (q : Nat) (c : TwinQ) : (s.setTwinQ q c).out = s.out := rfl
@[simp] theorem state_setTwinQ_held (q : Nat) (c : TwinQ) : (s.setTwinQ q c).held = s.held := rfl
@[simp] theorem state_setTwinQ_ents (q : Nat) (c : TwinQ) : (s.setTwinQ q c).ents = s.ents := rfl
@[simp] theorem state_setTwinQ_passed (q : Nat) (c : TwinQ) : (s.setTwinQ q c).passed = s.passed := rfl
@[simp] theorem state_setTwinQ_fetched (q : Nat) (c : TwinQ) : (s.setTwinQ q c).fetched = s.fetched := rfl
@[simp] theorem state_setTwinQ_backlog (q : Nat) (c : TwinQ) : (s.setTwinQ q c).backlog = s.backlog := rfl
@[simp] theorem state_setTwinQ_firnStage (q : Nat) (c : TwinQ) : (s.setTwinQ q c).firnStage = s.firnStage := rfl
@[simp] theorem state_setTwinQ_firn (q : Nat) (c : TwinQ) : (s.setTwinQ q c).firn = s.firn := rfl
@[simp] theorem state_setTwinQ_recov (q : Nat) (c : TwinQ) : (s.setTwinQ q c).recov = s.recov := rfl
@[simp] theorem state_setTwinQ_twinWait (q : Nat) (c : TwinQ) : (s.setTwinQ q c).twinWait = s.twinWait := rfl
@[simp] theorem state_setTwinQ_hdrLog (q : Nat) (c : TwinQ) : (s.setTwinQ q c).hdrLog = s.hdrLog := rfl
@[simp] theorem state_setTwinQ_places (q : Nat) (c : TwinQ) : (s.setTwinQ q c).places = s.places := rfl
@[simp] theorem state_setTwinQ_mem (q : Nat) (c : TwinQ) : (s.setTwinQ q c).mem = s.mem := rfl
@[simp] theorem state_setTwinQ_frames (q : Nat) (c : TwinQ) : (s.setTwinQ q c).frames = s.frames := rfl
@[simp] theorem state_setTwinQ_dispq (q : Nat) (c : TwinQ) : (s.setTwinQ q c).dispq = s.dispq := rfl
@[simp] theorem state_setTwinQ_excq (q : Nat) (c : TwinQ) : (s.setTwinQ q c).excq = s.excq := rfl
@[simp] theorem state_setTwinQ_leafq (q : Nat) (c : TwinQ) : (s.setTwinQ q c).leafq = s.leafq := rfl
@[simp] theorem state_setTwinQ_domq (q : Nat) (c : TwinQ) : (s.setTwinQ q c).domq = s.domq := rfl
@[simp] theorem state_setTwinQ_flight (q : Nat) (c : TwinQ) : (s.setTwinQ q c).flight = s.flight := rfl
@[simp] theorem state_setTwinQ_faultq (q : Nat) (c : TwinQ) : (s.setTwinQ q c).faultq = s.faultq := rfl
@[simp] theorem state_setTwinQ_fltLog (q : Nat) (c : TwinQ) : (s.setTwinQ q c).fltLog = s.fltLog := rfl
@[simp] theorem state_setTwinQ_updq (q : Nat) (c : TwinQ) : (s.setTwinQ q c).updq = s.updq := rfl
@[simp] theorem state_setTwinQ_nextFrame (q : Nat) (c : TwinQ) : (s.setTwinQ q c).nextFrame = s.nextFrame := rfl
@[simp] theorem state_setTwinQ_jobs (q : Nat) (c : TwinQ) : (s.setTwinQ q c).jobs = s.jobs := rfl
@[simp] theorem state_setTwinQ_egq (q : Nat) (c : TwinQ) : (s.setTwinQ q c).egq = s.egq := rfl
@[simp] theorem state_setTwinQ_coal (q : Nat) (c : TwinQ) : (s.setTwinQ q c).coal = s.coal := rfl
@[simp] theorem state_setTwinQ_oflEvq (q : Nat) (c : TwinQ) : (s.setTwinQ q c).oflEvq = s.oflEvq := rfl
@[simp] theorem state_setTwinQ_tblEvq (q : Nat) (c : TwinQ) : (s.setTwinQ q c).tblEvq = s.tblEvq := rfl
@[simp] theorem state_setTwinQ_dmaWait (q : Nat) (c : TwinQ) : (s.setTwinQ q c).dmaWait = s.dmaWait := rfl
@[simp] theorem state_setTwinQ_fifo (q : Nat) (c : TwinQ) : (s.setTwinQ q c).fifo = s.fifo := rfl
@[simp] theorem state_setTwinQ_bulk (q : Nat) (c : TwinQ) : (s.setTwinQ q c).bulk = s.bulk := rfl
@[simp] theorem state_setTwinQ_ctlq (q : Nat) (c : TwinQ) : (s.setTwinQ q c).ctlq = s.ctlq := rfl
@[simp] theorem state_setTwinQ_falls (q : Nat) (c : TwinQ) : (s.setTwinQ q c).falls = s.falls := rfl
@[simp] theorem state_setTwinQ_tblq (q : Nat) (c : TwinQ) : (s.setTwinQ q c).tblq = s.tblq := rfl
@[simp] theorem state_setTwinQ_samples (q : Nat) (c : TwinQ) : (s.setTwinQ q c).samples = s.samples := rfl
@[simp] theorem state_setTwinQ_learnq (q : Nat) (c : TwinQ) : (s.setTwinQ q c).learnq = s.learnq := rfl
@[simp] theorem state_setTwinQ_rxdel (q : Nat) (c : TwinQ) : (s.setTwinQ q c).rxdel = s.rxdel := rfl
@[simp] theorem state_setTwinQ_tls (q : Nat) (c : TwinQ) : (s.setTwinQ q c).tls = s.tls := rfl
@[simp] theorem state_setTwinQ_nvp (q : Nat) (c : TwinQ) : (s.setTwinQ q c).nvp = s.nvp := rfl
@[simp] theorem state_setTwinQ_mbxSnd (q : Nat) (c : TwinQ) : (s.setTwinQ q c).mbxSnd = s.mbxSnd := rfl
@[simp] theorem state_setTwinQ_migImg (q : Nat) (c : TwinQ) : (s.setTwinQ q c).migImg = s.migImg := rfl
@[simp] theorem state_setTwinQ_reads (q : Nat) (c : TwinQ) : (s.setTwinQ q c).reads = s.reads := rfl
@[simp] theorem state_setTwinQ_tagQuar (q : Nat) (c : TwinQ) : (s.setTwinQ q c).tagQuar = s.tagQuar := rfl
@[simp] theorem state_setTwinQ_rdWait (q : Nat) (c : TwinQ) : (s.setTwinQ q c).rdWait = s.rdWait := rfl
@[simp] theorem state_setTwinQ_dump (q : Nat) (c : TwinQ) : (s.setTwinQ q c).dump = s.dump := rfl
@[simp] theorem state_setTwinQ_ledger (q : Nat) (c : TwinQ) : (s.setTwinQ q c).ledger = s.ledger := rfl
@[simp] theorem state_setTwinQ_bootImg (q : Nat) (c : TwinQ) : (s.setTwinQ q c).bootImg = s.bootImg := rfl
@[simp] theorem state_setTwinQ_twinR (q : Nat) (c : TwinQ) : (s.setTwinQ q c).twinR = s.twinR := rfl
@[simp] theorem state_setTwinQ_twinRD (q : Nat) (c : TwinQ) : (s.setTwinQ q c).twinRD = s.twinRD := rfl
@[simp] theorem state_setTwinQ_twinP (q : Nat) (c : TwinQ) : (s.setTwinQ q c).twinP = s.twinP := rfl
@[simp] theorem state_setTwinQ_get (q : Nat) (c : TwinQ) (g : Fld) (j : Nat) : (s.setTwinQ q c).get g j = s.get g j := rfl
@[simp] theorem state_setTwinQ_flag (q : Nat) (c : TwinQ) (g : Fld) (j : Nat) : (s.setTwinQ q c).flag g j = s.flag g j := rfl
@[simp] theorem state_setTwinQ_dev (q : Nat) (c : TwinQ) : (s.setTwinQ q c).dev = s.dev := rfl
@[simp] theorem state_setTwinQ_now (q : Nat) (c : TwinQ) : (s.setTwinQ q c).now = s.now := rfl

end Sys2Proof.Laws
end

