-- ==== Sys2Proof/WellFormed.lean ====
section
/-! DEFINITION. Sys2Proof/WellFormed.lean: the range of every operand that numbers a unit of the device. -/

namespace Sys2Proof

/-- The accessor exists: two PFs, 64 management threads, VFs with GFNs 2 to 4,097, 4,096 threads, 16 shells. -/
def Who.wf : Who → Bool
  | .pf h => decide (h < 2)
  | .fw m => decide (m < 64)
  | .bmc => true
  | .vf g => decide (2 ≤ g ∧ g < 4098)

/-- Every operand of the command lies in the range of what it numbers. -/
def Instr.wf : Instr → Bool
  | .registerWrite who _ _ _ _ => Who.wf who
  | .rcRead who _ _ _ => Who.wf who
  | .aonStart _ _ _ => true
  | .vddAonLoss => true
  | .railLeavesRange rail => decide (rail < 7)
  | .sysRstNAssert => true
  | .sysRstNRelease _ _ => true
  | .glbProfileWrite who val => Who.wf who && decide (val < 4294967296)
  | .profileChangeDone => true
  | .dpEnSet who => Who.wf who
  | .dpEnClear who => Who.wf who
  | .drainComplete => true
  | .pollDue _ => true
  | .pollDataReturn q _ => decide (q < 262144)
  | .entryAccept q => decide (q < 262144)
  | .fragmentTableReadReturn q idx _ => decide (q < 262144) && decide (idx < 65536)
  | .wbTimerExpiry q => decide (q < 262144)
  | .dormancyStart q => decide (q < 262144)
  | .armWrite gfn _ => decide (gfn < 4098)
  | .queueEnable who q => Who.wf who && decide (q < 262144)
  | .queueDisable who q => Who.wf who && decide (q < 262144)
  | .queueDrainComplete q => decide (q < 262144)
  | .startIndexWrite who q cons => Who.wf who && decide (q < 262144) && decide (cons < 65536)
  | .cringEnable who r => Who.wf who && decide (r < 65536)
  | .cringDisable who r => Who.wf who && decide (r < 65536)
  | .consumerWordReadReturn r _ => decide (r < 65536)
  | .cqStall q => decide (q < 262144)
  | .evringWrite who pf val => Who.wf who && decide (pf < 2) && decide (val < 4294967296)
  | .evBacklogConsRead pf => decide (pf < 2)
  | .firnFlushDone => true
  | .pwrWarn => true
  | .completionSeal => true
  | .packetDispatch p => decide (p < 8)
  | .add t _ => decide (t < 4160)
  | .addi t _ => decide (t < 4160)
  | .sub t _ => decide (t < 4160)
  | .subi t _ => decide (t < 4160)
  | .and t _ => decide (t < 4160)
  | .andi t _ => decide (t < 4160)
  | .or t _ => decide (t < 4160)
  | .ori t _ => decide (t < 4160)
  | .xor t _ => decide (t < 4160)
  | .xori t _ => decide (t < 4160)
  | .shl t _ => decide (t < 4160)
  | .shli t _ => decide (t < 4160)
  | .shr t _ => decide (t < 4160)
  | .shri t _ => decide (t < 4160)
  | .sar t _ => decide (t < 4160)
  | .sari t _ => decide (t < 4160)
  | .rot t _ => decide (t < 4160)
  | .roti t _ => decide (t < 4160)
  | .mul t _ => decide (t < 4160)
  | .muli t _ => decide (t < 4160)
  | .cmp t _ => decide (t < 4160)
  | .cmpi t _ => decide (t < 4160)
  | .sel t _ => decide (t < 4160)
  | .seli t _ => decide (t < 4160)
  | .ext t _ => decide (t < 4160)
  | .ins t _ => decide (t < 4160)
  | .popc t _ => decide (t < 4160)
  | .clz t _ => decide (t < 4160)
  | .bswap t _ => decide (t < 4160)
  | .csum t _ => decide (t < 4160)
  | .ld t _ => decide (t < 4160)
  | .st t _ => decide (t < 4160)
  | .pld t _ => decide (t < 4160)
  | .pst t _ => decide (t < 4160)
  | .sld t _ => decide (t < 4160)
  | .sst t _ => decide (t < 4160)
  | .sadd t _ => decide (t < 4160)
  | .scas t _ => decide (t < 4160)
  | .br t _ => decide (t < 4160)
  | .brc t _ => decide (t < 4160)
  | .call t _ => decide (t < 4160)
  | .ret t _ => decide (t < 4160)
  | .jmpt t _ => decide (t < 4160)
  | .waite t _ => decide (t < 4160)
  | .evTimeout t => decide (t < 4160)
  | .sige t _ => decide (t < 4160)
  | .waitt t _ => decide (t < 4160)
  | .rdt t _ => decide (t < 4160)
  | .cmdw t _ => decide (t < 4160)
  | .cmdr t _ => decide (t < 4160)
  | .tkt t _ => decide (t < 4160)
  | .relForward t _ => decide (t < 4160)
  | .relDrop t _ => decide (t < 4160)
  | .relPass t _ => decide (t < 4160)
  | .thst t _ => decide (t < 4160)
  | .thrs t _ => decide (t < 4160)
  | .fltr t _ => decide (t < 4160)
  | .lockstepResyncDone k => decide (k < 128)
  | .flowLookup t _ _ bad => decide (t < 4160) && decide (bad < 16)
  | .flowInsert t _ _ => decide (t < 4160)
  | .flowDelete t _ _ => decide (t < 4160)
  | .lpmLookup t _ _ _ => decide (t < 4160)
  | .l2Lookup t _ _ bad => decide (t < 4160) && decide (bad < 16)
  | .cipherEncrypt t _ _ => decide (t < 4160)
  | .cipherDecrypt t _ _ => decide (t < 4160)
  | .cipherMacGen t _ _ => decide (t < 4160)
  | .cipherMacVerify t _ _ => decide (t < 4160)
  | .dmaStart t _ _ => decide (t < 4160)
  | .dmaCopy t _ _ => decide (t < 4160)
  | .counterAdd t _ _ => decide (t < 4160)
  | .counterRead t _ _ => decide (t < 4160)
  | .counterReadClear t _ _ => decide (t < 4160)
  | .sendFrame t _ _ => decide (t < 4160)
  | .sendMbx t _ _ => decide (t < 4160)
  | .triggerArm t _ _ => decide (t < 4160)
  | .triggerDisarm t _ _ => decide (t < 4160)
  | .cmdResultArrival _ => true
  | .ticketHoldExpiry t k => decide (t < 4096) && decide (k < 2)
  | .slotBudgetExpiry t => decide (t < 4096)
  | .clusterDeadlock k => decide (k < 16)
  | .supRestart who k val => Who.wf who && decide (k < 16) && decide (val < 4294967296)
  | .sessionOpen who mask => Who.wf who && decide (mask < 65536)
  | .sessionClose who => Who.wf who
  | .halt who t => Who.wf who && decide (t < 4096)
  | .resume who t => Who.wf who && decide (t < 4096)
  | .step who t => Who.wf who && decide (t < 4096)
  | .debugRelease who t => Who.wf who && decide (t < 4096)
  | .heartbeat who val => Who.wf who && decide (val < 4294967296)
  | .mgmtStall => true
  | .mgmtRestart who => Who.wf who
  | .mgmtRestartDone _ => true
  | .frameFirstCell id len _ => decide (id < 2048) && decide (len.pcp < 9)
  | .frameEnd m _ _ => decide (m < 32)
  | .hostFrameFetch => true
  | .hostFrameReady q idx _ => decide (q < 262144) && decide (idx < 65536)
  | .frameParse p bad => decide (p < 8) && decide (bad < 4294967296)
  | .clsWrite who p index => Who.wf who && decide (p < 8) && decide (index < 32768)
  | .clsInval who p index => Who.wf who && decide (p < 8) && decide (index < 32768)
  | .selWrite who p index => Who.wf who && decide (p < 8) && decide (index < 32768)
  | .prfWrite who p index => Who.wf who && decide (p < 8) && decide (index < 32768)
  | .kselWrite who p index => Who.wf who && decide (p < 8) && decide (index < 32768)
  | .pclassWrite who p index => Who.wf who && decide (p < 8) && decide (index < 32768)
  | .updateCommit who p => Who.wf who && decide (p < 8)
  | .updateDiscard who p => Who.wf who && decide (p < 8)
  | .updateWindowEnd p ns => decide (p < 8) && decide (ns < 65536)
  | .clsRead who p index => Who.wf who && decide (p < 8) && decide (index < 32768)
  | .tblFlowInsert who => Who.wf who
  | .flowReplace who => Who.wf who
  | .tblFlowDelete who => Who.wf who
  | .flowRead who => Who.wf who
  | .tblFlowLookup who bad => Who.wf who && decide (bad < 16)
  | .lpmInsert who pipes => Who.wf who && decide (pipes < 256)
  | .lpmDelete who pipes => Who.wf who && decide (pipes < 256)
  | .lpmReplace who pipes => Who.wf who && decide (pipes < 256)
  | .lpmRewrite who pipes index => Who.wf who && decide (pipes < 256) && decide (index < 262144)
  | .lpmRead who pipes index => Who.wf who && decide (pipes < 256) && decide (index < 262144)
  | .l2Static who pipes => Who.wf who && decide (pipes < 256)
  | .l2Delete who pipes => Who.wf who && decide (pipes < 256)
  | .l2Flush who pipes => Who.wf who && decide (pipes < 256)
  | .l2Read who pipes index => Who.wf who && decide (pipes < 256) && decide (index < 262144)
  | .flowAgeScan index _ => decide (index < 67108864)
  | .l2Learn p => decide (p < 8)
  | .l2HoldEnd p index => decide (p < 8) && decide (index < 262144)
  | .l2AgeScan p index => decide (p < 8) && decide (index < 262144)
  | .scrubVisit k p index _ => decide (k < 6) && decide (p < 8) && decide (index < 262144)
  | .tblEvqPop who => Who.wf who
  | .nmodeWrite who val => Who.wf who && decide (val < 4294967296)
  | .linkUp m => decide (m < 33)
  | .linkDown m => decide (m < 33)
  | .chpause link mask time => decide (link < 16) && decide (mask < 18446744073709551616) && decide (time < 65536)
  | .chpauseExpiry link c => decide (link < 16) && decide (c < 64)
  | .chpauseRefresh link => decide (link < 16)
  | .pause n time => decide (n < 16) && decide (time < 65536)
  | .pfc n vec _ => decide (n < 16) && decide (vec < 256)
  | .pauseExpiry n p => decide (n < 16) && decide (p < 9)
  | .pauseRefresh n => decide (n < 16)
  | .mgmtRsp slot seq status _ => decide (slot < 16) && decide (seq < 256) && decide (status < 256)
  | .mgmtReqTimeout slot => decide (slot < 16)
  | .mgmtReq who slot val => Who.wf who && decide (slot < 16) && decide (val < 18446744073709551616)
  | .credit link kib => decide (link < 16) && decide (kib < 4294967296)
  | .powerOn who slot => Who.wf who && decide (slot < 16)
  | .powerGood slot => decide (slot < 16)
  | .pgTimeout slot => decide (slot < 16)
  | .resetDelayExpiry slot => decide (slot < 16)
  | .powerOff who slot => Who.wf who && decide (slot < 16)
  | .powerOffDelayExpiry slot => decide (slot < 16)
  | .reset who slot => Who.wf who && decide (slot < 16)
  | .hold who slot => Who.wf who && decide (slot < 16)
  | .release who slot => Who.wf who && decide (slot < 16)
  | .slotFault slot _ => decide (slot < 16)
  | .slotPrsntChange slot _ => decide (slot < 16)
  | .i2cGo who slot val => Who.wf who && decide (slot < 16) && decide (val < 4294967296)
  | .i2cDone slot status _ => decide (slot < 16) && decide (status < 4)
  | .portCounterRead who _ id k _ _ => Who.wf who && decide (id < 2048) && decide (k < 32)
  | .bufCfgWrite who _ id val => Who.wf who && decide (id < 2048) && decide (val < 18446744073709551616)
  | .policerWrite who _ _ val => Who.wf who && decide (val < 18446744073709551616)
  | .nodeWrite who level index => Who.wf who && decide (level < 4) && decide (index < 262144)
  | .nodeRead who level index => Who.wf who && decide (level < 4) && decide (index < 262144)
  | .frameSelect m => decide (m < 34)
  | .frameTxEnd m => decide (m < 34)
  | .gateCommit who id => Who.wf who && decide (id < 2048)
  | .gateCancel who id => Who.wf who && decide (id < 2048)
  | .gateTakeover id => decide (id < 2048)
  | .gateEntryWrite who e val => Who.wf who && decide (e < 1024) && decide (val < 18446744073709551616)
  | .samplePeriod => true
  | .nowRead who _ => Who.wf who
  | .mtIncWrite who _ => Who.wf who
  | .adjStep who _ => Who.wf who
  | .adjSlew who _ => Who.wf who
  | .slewDone => true
  | .refLost => true
  | .refLock => true
  | .driftEnter who => Who.wf who
  | .driftExit who _ => Who.wf who
  | .trigCfgWrite who k _ val => Who.wf who && decide (k < 256) && decide (val < 18446744073709551616)
  | .arm who k _ => Who.wf who && decide (k < 256)
  | .disarm who k => Who.wf who && decide (k < 256)
  | .trigStageLoad k => decide (k < 256)
  | .trgLead k => decide (k < 256)
  | .trigFire k => decide (k < 256)
  | .pulseEnd k => decide (k < 256)
  | .captureEdge _ _ _ => true
  | .captureSw who j => Who.wf who && decide (j < 64)
  | .ppsWrite who val => Who.wf who && decide (val < 18446744073709551616)
  | .ppsRise => true
  | .ppsFall => true
  | .laneCfgWrite who val => Who.wf who && decide (val < 4294967296)
  | .encrypt q idx => decide (q < 262144) && decide (idx < 65536)
  | .decrypt q idx => decide (q < 262144) && decide (idx < 65536)
  | .macGen q idx => decide (q < 262144) && decide (idx < 65536)
  | .macVerify q idx => decide (q < 262144) && decide (idx < 65536)
  | .jobStart => true
  | .jobComplete lane _ _ => decide (lane < 32)
  | .inlineJobStart leaf => decide (leaf < 262144)
  | .loadWrapped who => Who.wf who
  | .loadClear who => Who.wf who
  | .clearSlot who k => Who.wf who && decide (k < 64)
  | .zeroisePage who => Who.wf who
  | .pageOwnerWrite who pg val => Who.wf who && decide (pg < 8192) && decide (val < 4294967296)
  | .saWrite who index => Who.wf who && decide (index < 1048576)
  | .saInvalidate who index => Who.wf who && decide (index < 1048576)
  | .saRead who index => Who.wf who && decide (index < 1048576)
  | .drbgReseed _ => true
  | .maskReseed => true
  | .egressStage l => decide (l < 262144)
  | .receiveStage h => decide (h < 2)
  | .coalTimeout _ => true
  | .tmplWrite who index => Who.wf who && decide (index < 16384)
  | .tmplRead who index => Who.wf who && decide (index < 16384)
  | .nvcWrite who index => Who.wf who && decide (index < 16384)
  | .nvcRead who index => Who.wf who && decide (index < 16384)
  | .place q idx => decide (q < 262144) && decide (idx < 65536)
  | .nvmeCancel q idx => decide (q < 262144) && decide (idx < 65536)
  | .oflEvqPop who => Who.wf who
  | .send q idx => decide (q < 262144) && decide (idx < 65536)
  | .buffer q idx => decide (q < 262144) && decide (idx < 65536)
  | .copy q idx => decide (q < 262144) && decide (idx < 65536)
  | .start q idx => decide (q < 262144) && decide (idx < 65536)
  | .channelStart who c => Who.wf who && decide (c < 1024)
  | .dmaStop who c => Who.wf who && decide (c < 1024)
  | .eos who c => Who.wf who && decide (c < 1024)
  | .fifoPush who c word => Who.wf who && decide (c < 1024) && decide (word < 4294967296)
  | .shadowArm who c => Who.wf who && decide (c < 1024)
  | .dmaStimeReached c => decide (c < 1024)
  | .dmaRunStart e _ => decide (e < 64)
  | .dmaReadbackReturn c _ => decide (c < 1024)
  | .streamBurstEnd c => decide (c < 1024)
  | .pcieLinkUp h _ _ _ => decide (h < 2)
  | .perstAssert h => decide (h < 2)
  | .perstRelease h => decide (h < 2)
  | .hotReset h => decide (h < 2)
  | .dlDown h => decide (h < 2)
  | .configWrite gfn _ _ val => decide (gfn < 4098) && decide (val < 4294967296)
  | .bmeClear gfn => decide (gfn < 4098)
  | .bmeSet gfn => decide (gfn < 4098)
  | .d3hotEntry gfn => decide (gfn < 4098)
  | .inboundBadAccess gfn _ _ => decide (gfn < 4098)
  | .completionTimeout h rtag _ _ => decide (h < 2) && decide (rtag < 65536)
  | .completionArrival h rtag _ => decide (h < 2) && decide (rtag < 65536)
  | .tagQuarantineEnd h rtag => decide (h < 2) && decide (rtag < 65536)
  | .flr gfn => decide (gfn < 4098)
  | .flrQuiesceDone gfn => decide (gfn < 4098)
  | .vfEnable h => decide (h < 2)
  | .vfDisable h => decide (h < 2)
  | .vmodWrite who pf val => Who.wf who && decide (pf < 2) && decide (val < 4294967296)
  | .vmodTimer gfn _ => decide (gfn < 4098)
  | .freeze who u _ => Who.wf who && decide (u < 4)
  | .freezeWorkDone u => decide (u < 4)
  | .freezeImageDone u _ => decide (u < 4)
  | .thaw who u _ _ => Who.wf who && decide (u < 4)
  | .thawDone u => decide (u < 4)
  | .cancel who u _ => Who.wf who && decide (u < 4)
  | .harvest who k => Who.wf who && decide (k < 16)
  | .harvestDone k _ => decide (k < 16)
  | .mbxCommit who c _ => Who.wf who && decide (c < 32)
  | .mbxChRxPop who c => Who.wf who && decide (c < 32)
  | .mbxLock who n => Who.wf who && decide (n < 64)
  | .mbxUnlock who n val => Who.wf who && decide (n < 64) && decide (val < 4294967296)
  | .mbxCfgWrite who c _ val => Who.wf who && decide (c < 32) && decide (val < 4294967296)
  | .post slot seq chan _ => decide (slot < 16) && decide (seq < 256) && decide (chan < 256)
  | .pop slot chan epoch => decide (slot < 16) && decide (chan < 256) && decide (epoch < 256)
  | .lock slot n => decide (slot < 16) && decide (n < 256)
  | .unlock slot n => decide (slot < 16) && decide (n < 256)
  | .upCommit who gfn _ => Who.wf who && decide (gfn < 4098)
  | .dnCommit who gfn _ => Who.wf who && decide (gfn < 4098)
  | .upPop who gfn => Who.wf who && decide (gfn < 4098)
  | .dnPop who gfn => Who.wf who && decide (gfn < 4098)
  | .regRead off => decide (off < 4294967296)
  | .regWrite off val => decide (off < 4294967296) && decide (val < 4294967296)
  | .mbxPost chan _ => decide (chan < 256)
  | .setEndpointId _ eid => decide (eid < 256)
  | .getEndpointId => true
  | .getMctpVersionSupport typ => decide (typ < 256)
  | .getMessageTypeSupport => true
  | .getVendorDefinedMessageSupport idx => decide (idx < 256)
  | .winCfgWrite who pf w val => Who.wf who && decide (pf < 2) && decide (w < 16) && decide (val < 18446744073709551616)
  | .winBlockTake pf w _ _ => decide (pf < 2) && decide (w < 16)
  | .winRetry pf w _ _ => decide (pf < 2) && decide (w < 16)
  | .pair who => Who.wf who
  | .hello ctr _ rev profile _ _ _ => decide (ctr < 18446744073709551616) && decide (rev < 256) && decide (profile < 256)
  | .pairTimeout => true
  | .unpair who => Who.wf who
  | .unpairGoodbye _ => true
  | .resync who => Who.wf who
  | .resyncStart => true
  | .heartbeatSend _ => true
  | .twinHeartbeat ctr _ => decide (ctr < 18446744073709551616)
  | .heartbeatMiss _ _ _ => true
  | .aliveWireFault => true
  | .mirror ctr _ _ => decide (ctr < 18446744073709551616)
  | .ack ctr _ upTo => decide (ctr < 18446744073709551616) && decide (upTo < 18446744073709551616)
  | .sync ctr _ _ _ => decide (ctr < 18446744073709551616)
  | .syncDone _ => true
  | .goodbye ctr _ _ _ _ => decide (ctr < 18446744073709551616)
  | .twinMbx ctr _ _ chan _ code => decide (ctr < 18446744073709551616) && decide (chan < 256) && decide (code < 256)
  | .tsync ctr _ _ => decide (ctr < 18446744073709551616)
  | .twnKeyLoad who => Who.wf who
  | .twnKeyClear who => Who.wf who
  | .faultDetection src detail _ => decide (src < 512) && decide (detail < 4294967296)
  | .activeClear who src _ => Who.wf who && decide (src < 512)
  | .faultInject who src detail => Who.wf who && decide (src < 512) && decide (detail < 4294967296)
  | .devReset who _ => Who.wf who
  | .logPop who => Who.wf who
  | .railWarning rail => decide (rail < 7)
  | .railUndervoltage rail => decide (rail < 7)
  | .uvHoldClear _ => true
  | .snapGo who => Who.wf who
  | .periodicStrobe => true
  | .dumpEnable who val => Who.wf who && decide (val < 4294967296)
  | .slotClear who _ => Who.wf who
  | .bootStepComplete _ _ _ _ _ _ => true
  | .bootStepFail _ _ => true
  | .ready who _ => Who.wf who
  | .clearAlt who _ => Who.wf who
  | .fuseArm who _ _ => Who.wf who
  | .debugClose who _ => Who.wf who
  | .revoke who _ => Who.wf who
  | .svn who _ => Who.wf who
  | .ledgerSelect who _ => Who.wf who
  | .sysRefclkLost => true
  | .sysRefclkReturn => true
  | .sdsCalibrationDone g => decide (g < 9)
  | .gateCfgWrite who val => Who.wf who && decide (val < 4294967296)
  | .clusterGate k => decide (k < 16)
  | .clusterWake k => decide (k < 16)
  | .laneGate l => decide (l < 32)
  | .laneWake l => decide (l < 32)
  | .railEntersRange _ => true
  | .exceptionFrameDispatch m => decide (m < 64)
  | .tblCmdDone => true
  | .aerErrorDetected gfn _ _ _ => decide (gfn < 4098)

end Sys2Proof
end

