-- ==== Sys2Proof/Tests/Slice0.lean ====
section
/-! SUPPORT. Sys2Proof/Tests/Slice0.lean: an ill-formed term for each check of `Instr.wf`, small steps and external test
vectors, and for every statement that has hypotheses one theorem `wit_<Name>` with a state and operands that meet the
hypotheses of each of its clauses. -/

namespace Sys2Proof.Tests

open Sys2Proof Sys2Proof.Machine Sys2Proof.Machine.Reg

set_option Elab.async false

/-! ## Small states -/

/-- The reset state with some fields set: entries of a field, its index and its value. -/
def st (l : List (Fld × Nat × Nat)) : State := l.foldl (fun s e => s.set e.1 e.2.1 e.2.2) State.reset

/-- Queue 0 belongs to the active PF 0, with 1,024 entries. -/
def qst (l : List (Fld × Nat × Nat)) : State :=
  st ([(FN_STATE_state, 0, fsActive), (FN_STATE_bme, 0, 1), (CFG_mse, 0, 1), (QM_QCTX_OWNER_gfn, 0, 0), (QM_QCTX_CTRL_log2size, 0, 6)] ++ l)

/-- A TX entry of one inline buffer. -/
def txEntry : List Byte := 0x01#8 :: List.replicate 15 0#8 ++ [0x40#8] ++ List.replicate 47 0#8

/-- An accepted entry at index 3 that waits for its fragment table. -/
def fragEnt : Ent :=
  { idx := 3, seq := 0, bytes := [0x01#8, 0x01#8, 0x01#8, 0#8] ++ List.replicate 12 0#8 ++ [0x40#8], frags := [], tab := true, way := false, done := none, mirr := false, acc := 0 }

/-- An instruction word: opcode, destination, sources, `mod`, `imm` (Table NI-3). -/
def enc (op d a b m imm : Nat) : Nat := op * 2 ^ 56 + d * 2 ^ 51 + a * 2 ^ 46 + b * 2 ^ 41 + m * 2 ^ 38 + imm

/-- Thread `t` in its cluster's running program with one instruction word at pc 0. -/
def thr (t w : Nat) (l : List (Fld × Nat × Nat)) : State :=
  { st ([(GLB_STATE_state, 0, dsService), (MC_CTRL_running, 0, 1), (TH_mode, t, 1)] ++ l) with
    mem := Memory.writeBytes [] (if t < 4096 then baseI (t / 256) else baseM) (leBytes 8 w) }

/-- An accepted TX entry. -/
def txEnt : Ent := { fragEnt with bytes := txEntry, tab := false }

/-- The frame of `txEnt`. -/
def txFrame : Frame := { qp1 := 1, idx := 3, need := 64 }

/-- A frame whose cells the pool can give. -/
def pooled : State :=
  { qst [(GLB_STATE_state, 0, dsService), (FHX_def, 0, 64), (FHX_ptr, 0, 0)] with frames := [(0, txFrame)], ents := [(0, [txEnt])] }

/-- A frame waits in leaf 0 of a port that is up. -/
def leafed : State :=
  { st [(GLB_STATE_state, 0, dsService), (MAC_NMODE_quad, 0, 1), (MAC_NPORT_STATUS_link, 0, 1)] with
    leafq := [(0, [0])], frames := [(0, { bytes := List.replicate 60 0#8 })] }

/-- An accepted entry of an opcode. -/
def entOf (op : Nat) (rest : List Byte) : Ent := { fragEnt with bytes := leBytes 16 op ++ rest, tab := false }

/-- The accepted entry 3 of queue 0. -/
def entryAt (op : Nat) (rest : List Byte) (s : State) : State := { s with ents := [(0, [entOf op rest])] }

/-- A security-association record: control byte and sequence number. -/
def saBytes (ctl proto seq : Nat) : List Byte := [0#8, 0#8, 0#8, BitVec.ofNat 8 ctl, BitVec.ofNat 8 proto, 15#8] ++ List.replicate 26 0#8 ++ leBytes 8 seq

/-- A frame at the egress cipher with its security association and key. -/
def inlined (ctl proto seq : Nat) (l : List (Fld × Nat × Nat)) : State :=
  { st ([(CPH_PAGE_OWNER_fp_access, 0, 1), (KY_valid, kix 0 0, 1), (KY_attr, kix 0 0, 0x5C)] ++ l) with
    egq := [(0, [0])], frames := [(0, { phase := 1, sa := 1 })], mem := Memory.writeBytes [] baseSA (saBytes ctl proto seq) }

/-- A staged header template: IPv4 and UDP. -/
def tmplStage : List (Fld × Nat × Nat) :=
  [(OFL_TMPL_STAGE_byte, 0, 1), (OFL_TMPL_STAGE_byte, 1, 50), (OFL_TMPL_STAGE_byte, 2, 14), (OFL_TMPL_STAGE_byte, 30, 0x45), (OFL_TMPL_STAGE_byte, 39, 17)]

/-- A staged blob with the first test vector of RFC 3394, and its KEK in slot 1 of page 0. -/
def wrapped : State :=
  { st ([(GLB_STATE_state, 0, dsService), (CFG_mse, 0, 1), (CPH_PAGE_OWNER_owner, 0, 0), (KY_valid, kix 0 1, 1), (KY_attr, kix 0 1, 0x20),
      (CPH_KEY_STAGE_byte, 1, 4), (CPH_KEY_STAGE_byte, 2, 1), (CPH_KEY_STAGE_byte, 3, 24)] ++
      ([0x1F, 0xA6, 0x8B, 0x0A, 0x81, 0x12, 0xB4, 0x47, 0xAE, 0xF3, 0x4B, 0xD8, 0xFB, 0x5A, 0x7B, 0x82, 0x9D, 0x3E, 0x86, 0x23, 0x71, 0xD2,
        0xCF, 0xE5] : List Nat).zipIdx.map (fun p => (CPH_KEY_STAGE_byte, 8 + p.2, p.1))) with
    mem := Memory.writeBytes [] (baseKey 0 1) ((List.range 16).map (BitVec.ofNat 8)) }

/-- A DMA channel 0 that is READY, from and to local memory of cluster 2. -/
def readyCh (l : List (Fld × Nat × Nat)) : State :=
  st ([(GLB_STATE_state, 0, dsService), (DMA_CH_STATUS_state, 0, chReady), (DMA_CH_OWNER_owner, 0, 0), (DMX_src, 0, 0x82 * 2 ^ 56),
    (DMX_dst, 0, 0x82 * 2 ^ 56)] ++ l)

/-- The first 60 bytes of an image with no contexts. -/
def smallHead : List Byte :=
  [0x56#8, 0x46#8, 0x49#8, 0x4D#8] ++ leBytes 2 0x100 ++ leBytes 2 64 ++ leBytes 4 64 ++ List.replicate 48 0#8

/-- An image with no contexts. -/
def smallImage : List Byte := smallHead ++ leBytes 4 (crcDigest smallHead)

/-- Under GUARD, every worker of cluster 0 is parked. -/
def parked : State :=
  ({ State.reset with fld := ((List.range 256).filter (fun j => !bit j 4 && j % 16 != 0)).map (fun j => (4096 * j + TH_mode.id, 2)) }.set
    GLB_STATE_state 0 dsService).set GLB_PROFILE_profile 0 3

/-- No comparator of `parked` is armed. -/
theorem parked_no_trigs : parked.trigThreads = [] := by decide +kernel

/-! ## Well-formedness -/

/-- Commands, operands at the ends of their ranges. -/
theorem test_wf_accepts_1 : ([
    .registerWrite (.pf 1) .bar2 0 0 0, .rcRead (.pf 1) .bar2 0 0, .railLeavesRange 6,
    .glbProfileWrite (.pf 1) 4294967295, .dpEnSet (.pf 1), .dpEnClear (.pf 1), .pollDataReturn 262143 .timeout,
    .entryAccept 262143, .fragmentTableReadReturn 262143 65535 .timeout, .wbTimerExpiry 262143, .dormancyStart 262143,
    .armWrite 4097 0, .queueEnable (.pf 1) 262143, .queueDisable (.pf 1) 262143, .queueDrainComplete 262143,
    .startIndexWrite (.pf 1) 262143 65535, .cringEnable (.pf 1) 65535, .cringDisable (.pf 1) 65535,
    .consumerWordReadReturn 65535 .timeout, .cqStall 262143, .evringWrite (.pf 1) 1 4294967295, .evBacklogConsRead 1,
    .packetDispatch 7, .add 4159 true, .addi 4159 true, .sub 4159 true, .subi 4159 true, .and 4159 true,
    .andi 4159 true, .or 4159 true, .ori 4159 true, .xor 4159 true, .xori 4159 true, .shl 4159 true, .shli 4159 true,
    .shr 4159 true, .shri 4159 true, .sar 4159 true, .sari 4159 true, .rot 4159 true] : List Instr).all (fun i => i.wf) = true := by decide

/-- Commands, operands at the ends of their ranges. -/
theorem test_wf_accepts_2 : ([
    .roti 4159 true, .mul 4159 true, .muli 4159 true, .cmp 4159 true, .cmpi 4159 true, .sel 4159 true,
    .seli 4159 true, .ext 4159 true, .ins 4159 true, .popc 4159 true, .clz 4159 true, .bswap 4159 true,
    .csum 4159 true, .ld 4159 true, .st 4159 true, .pld 4159 true, .pst 4159 true, .sld 4159 true, .sst 4159 true,
    .sadd 4159 true, .scas 4159 true, .br 4159 true, .brc 4159 true, .call 4159 true, .ret 4159 true, .jmpt 4159 true,
    .waite 4159 true, .evTimeout 4159, .sige 4159 true, .waitt 4159 true, .rdt 4159 true, .cmdw 4159 true,
    .cmdr 4159 true, .tkt 4159 true, .relForward 4159 true, .relDrop 4159 true, .relPass 4159 true, .thst 4159 true,
    .thrs 4159 true, .fltr 4159 true] : List Instr).all (fun i => i.wf) = true := by decide

/-- Commands, operands at the ends of their ranges. -/
theorem test_wf_accepts_3 : ([
    .lockstepResyncDone 127, .flowLookup 4159 true true 15, .flowInsert 4159 true true, .flowDelete 4159 true true,
    .lpmLookup 4159 true true true, .l2Lookup 4159 true true 15, .cipherEncrypt 4159 true true,
    .cipherDecrypt 4159 true true, .cipherMacGen 4159 true true, .cipherMacVerify 4159 true true,
    .dmaStart 4159 true true, .dmaCopy 4159 true true, .counterAdd 4159 true true, .counterRead 4159 true true,
    .counterReadClear 4159 true true, .sendFrame 4159 true true, .sendMbx 4159 true true, .triggerArm 4159 true true,
    .triggerDisarm 4159 true true, .ticketHoldExpiry 4095 1, .slotBudgetExpiry 4095, .clusterDeadlock 15,
    .supRestart (.pf 1) 15 4294967295, .sessionOpen (.pf 1) 65535, .sessionClose (.pf 1), .halt (.pf 1) 4095,
    .resume (.pf 1) 4095, .step (.pf 1) 4095, .debugRelease (.pf 1) 4095, .heartbeat (.pf 1) 4294967295,
    .mgmtRestart (.pf 1), .frameFirstCell 2047 ⟨64, 8⟩ 0, .frameEnd 31 true [], .hostFrameReady 262143 65535 .timeout,
    .frameParse 7 4294967295, .clsWrite (.pf 1) 7 32767, .clsInval (.pf 1) 7 32767, .selWrite (.pf 1) 7 32767,
    .prfWrite (.pf 1) 7 32767, .kselWrite (.pf 1) 7 32767] : List Instr).all (fun i => i.wf) = true := by decide

/-- Commands, operands at the ends of their ranges. -/
theorem test_wf_accepts_4 : ([
    .pclassWrite (.pf 1) 7 32767, .updateCommit (.pf 1) 7, .updateDiscard (.pf 1) 7, .updateWindowEnd 7 65535,
    .clsRead (.pf 1) 7 32767, .tblFlowInsert (.pf 1), .flowReplace (.pf 1), .tblFlowDelete (.pf 1), .flowRead (.pf 1),
    .tblFlowLookup (.pf 1) 15, .lpmInsert (.pf 1) 255, .lpmDelete (.pf 1) 255, .lpmReplace (.pf 1) 255,
    .lpmRewrite (.pf 1) 255 262143, .lpmRead (.pf 1) 255 262143, .l2Static (.pf 1) 255, .l2Delete (.pf 1) 255,
    .l2Flush (.pf 1) 255, .l2Read (.pf 1) 255 262143, .flowAgeScan 67108863 true, .l2Learn 7, .l2HoldEnd 7 262143,
    .l2AgeScan 7 262143, .scrubVisit 5 7 262143 true, .tblEvqPop (.pf 1), .nmodeWrite (.pf 1) 4294967295, .linkUp 32,
    .linkDown 32, .chpause 15 18446744073709551615 65535, .chpauseExpiry 15 63, .chpauseRefresh 15, .pause 15 65535,
    .pfc 15 255 [], .pauseExpiry 15 8, .pauseRefresh 15, .mgmtRsp 15 255 255 [], .mgmtReqTimeout 15,
    .mgmtReq (.pf 1) 15 18446744073709551615, .credit 15 4294967295, .powerOn (.pf 1) 15] : List Instr).all (fun i => i.wf) = true := by decide

/-- Commands, operands at the ends of their ranges. -/
theorem test_wf_accepts_5 : ([
    .powerGood 15, .pgTimeout 15, .resetDelayExpiry 15, .powerOff (.pf 1) 15, .powerOffDelayExpiry 15,
    .reset (.pf 1) 15, .hold (.pf 1) 15, .release (.pf 1) 15, .slotFault 15 true, .slotPrsntChange 15 true,
    .i2cGo (.pf 1) 15 4294967295, .i2cDone 15 3 [], .portCounterRead (.pf 1) true 2047 31 true 0,
    .bufCfgWrite (.pf 1) true 2047 18446744073709551615, .policerWrite (.pf 1) true 0 18446744073709551615,
    .nodeWrite (.pf 1) 3 262143, .nodeRead (.pf 1) 3 262143, .frameSelect 33, .frameTxEnd 33,
    .gateCommit (.pf 1) 2047, .gateCancel (.pf 1) 2047, .gateTakeover 2047,
    .gateEntryWrite (.pf 1) 1023 18446744073709551615, .nowRead (.pf 1) 0, .mtIncWrite (.pf 1) 0, .adjStep (.pf 1) 0,
    .adjSlew (.pf 1) 0, .driftEnter (.pf 1), .driftExit (.pf 1) true,
    .trigCfgWrite (.pf 1) 255 0 18446744073709551615, .arm (.pf 1) 255 true, .disarm (.pf 1) 255, .trigStageLoad 255,
    .trgLead 255, .trigFire 255, .pulseEnd 255, .captureSw (.pf 1) 63, .ppsWrite (.pf 1) 18446744073709551615,
    .laneCfgWrite (.pf 1) 4294967295, .encrypt 262143 65535] : List Instr).all (fun i => i.wf) = true := by decide

/-- Commands, operands at the ends of their ranges. -/
theorem test_wf_accepts_6 : ([
    .decrypt 262143 65535, .macGen 262143 65535, .macVerify 262143 65535, .jobComplete 31 .timeout .timeout,
    .inlineJobStart 262143, .loadWrapped (.pf 1), .loadClear (.pf 1), .clearSlot (.pf 1) 63, .zeroisePage (.pf 1),
    .pageOwnerWrite (.pf 1) 8191 4294967295, .saWrite (.pf 1) 1048575, .saInvalidate (.pf 1) 1048575,
    .saRead (.pf 1) 1048575, .egressStage 262143, .receiveStage 1, .tmplWrite (.pf 1) 16383, .tmplRead (.pf 1) 16383,
    .nvcWrite (.pf 1) 16383, .nvcRead (.pf 1) 16383, .place 262143 65535, .nvmeCancel 262143 65535,
    .oflEvqPop (.pf 1), .send 262143 65535, .buffer 262143 65535, .copy 262143 65535, .start 262143 65535,
    .channelStart (.pf 1) 1023, .dmaStop (.pf 1) 1023, .eos (.pf 1) 1023, .fifoPush (.pf 1) 1023 4294967295,
    .shadowArm (.pf 1) 1023, .dmaStimeReached 1023, .dmaRunStart 63 .timeout, .dmaReadbackReturn 1023 .timeout,
    .streamBurstEnd 1023, .pcieLinkUp 1 0 0 true, .perstAssert 1, .perstRelease 1, .hotReset 1, .dlDown 1] : List Instr).all (fun i => i.wf) = true := by decide

/-- Commands, operands at the ends of their ranges. -/
theorem test_wf_accepts_7 : ([
    .configWrite 4097 0 0 4294967295, .bmeClear 4097, .bmeSet 4097, .d3hotEntry 4097, .inboundBadAccess 4097 true [],
    .completionTimeout 1 65535 .other [], .completionArrival 1 65535 [], .tagQuarantineEnd 1 65535, .flr 4097,
    .flrQuiesceDone 4097, .vfEnable 1, .vfDisable 1, .vmodWrite (.pf 1) 1 4294967295, .vmodTimer 4097 0,
    .freeze (.pf 1) 3 0, .freezeWorkDone 3, .freezeImageDone 3 .timeout, .thaw (.pf 1) 3 0 .timeout, .thawDone 3,
    .cancel (.pf 1) 3 0, .harvest (.pf 1) 15, .harvestDone 15 .timeout, .mbxCommit (.pf 1) 31 0,
    .mbxChRxPop (.pf 1) 31, .mbxLock (.pf 1) 63, .mbxUnlock (.pf 1) 63 4294967295,
    .mbxCfgWrite (.pf 1) 31 true 4294967295, .post 15 255 255 [], .pop 15 255 255, .lock 15 255, .unlock 15 255,
    .upCommit (.pf 1) 4097 0, .dnCommit (.pf 1) 4097 0, .upPop (.pf 1) 4097, .dnPop (.pf 1) 4097, .regRead 4294967295,
    .regWrite 4294967295 4294967295, .mbxPost 255 [], .setEndpointId 0 255, .getMctpVersionSupport 255] : List Instr).all (fun i => i.wf) = true := by decide

/-- Commands, operands at the ends of their ranges. -/
theorem test_wf_accepts_8 : ([
    .getVendorDefinedMessageSupport 255, .winCfgWrite (.pf 1) 1 15 18446744073709551615,
    .winBlockTake 1 15 .timeout [], .winRetry 1 15 .timeout [], .pair (.pf 1),
    .hello 18446744073709551615 true 255 255 true true true, .unpair (.pf 1), .resync (.pf 1),
    .twinHeartbeat 18446744073709551615 true, .mirror 18446744073709551615 true [],
    .ack 18446744073709551615 true 18446744073709551615, .sync 18446744073709551615 true [] true,
    .goodbye 18446744073709551615 true true [] [], .twinMbx 18446744073709551615 true true 255 [] 255,
    .tsync 18446744073709551615 true 0, .twnKeyLoad (.pf 1), .twnKeyClear (.pf 1),
    .faultDetection 511 4294967295 true, .activeClear (.pf 1) 511 true, .faultInject (.pf 1) 511 4294967295,
    .devReset (.pf 1) 0, .logPop (.pf 1), .railWarning 6, .railUndervoltage 6, .snapGo (.pf 1),
    .dumpEnable (.pf 1) 4294967295, .slotClear (.pf 1) 0, .ready (.pf 1) 0, .clearAlt (.pf 1) 0, .fuseArm (.pf 1) 0 0,
    .debugClose (.pf 1) 0, .revoke (.pf 1) 0, .svn (.pf 1) 0, .ledgerSelect (.pf 1) 0, .sdsCalibrationDone 8,
    .gateCfgWrite (.pf 1) 4294967295, .clusterGate 15, .clusterWake 15, .laneGate 31, .laneWake 31] : List Instr).all (fun i => i.wf) = true := by decide

/-- Commands, operands at the ends of their ranges. -/
theorem test_wf_accepts_9 : ([
    .exceptionFrameDispatch 63, .aerErrorDetected 4097 true 0 [], .registerWrite (.fw 63) .bar0 0 4 0,
    .registerWrite .bmc .bar0 0 4 0, .registerWrite (.vf 2) .bar0 0 4 0, .registerWrite (.vf 4097) .bar0 0 4 0] : List Instr).all (fun i => i.wf) = true := by decide

/-- Commands, each with one operand out of its range. -/
theorem test_wf_refuses_1 : ([
    .registerWrite (.pf 2) .bar2 0 0 0, .rcRead (.pf 2) .bar2 0 0, .railLeavesRange 7,
    .glbProfileWrite (.pf 2) 4294967295, .glbProfileWrite (.pf 1) 4294967296, .dpEnSet (.pf 2), .dpEnClear (.pf 2),
    .pollDataReturn 262144 .timeout, .entryAccept 262144, .fragmentTableReadReturn 262144 65535 .timeout,
    .fragmentTableReadReturn 262143 65536 .timeout, .wbTimerExpiry 262144, .dormancyStart 262144, .armWrite 4098 0,
    .queueEnable (.pf 2) 262143, .queueEnable (.pf 1) 262144, .queueDisable (.pf 2) 262143,
    .queueDisable (.pf 1) 262144, .queueDrainComplete 262144, .startIndexWrite (.pf 2) 262143 65535,
    .startIndexWrite (.pf 1) 262144 65535, .startIndexWrite (.pf 1) 262143 65536, .cringEnable (.pf 2) 65535,
    .cringEnable (.pf 1) 65536, .cringDisable (.pf 2) 65535, .cringDisable (.pf 1) 65536,
    .consumerWordReadReturn 65536 .timeout, .cqStall 262144, .evringWrite (.pf 2) 1 4294967295,
    .evringWrite (.pf 1) 2 4294967295, .evringWrite (.pf 1) 1 4294967296, .evBacklogConsRead 2, .packetDispatch 8,
    .add 4160 true, .addi 4160 true, .sub 4160 true, .subi 4160 true, .and 4160 true, .andi 4160 true, .or 4160 true] : List Instr).all (fun i => !i.wf) = true := by decide

/-- Commands, each with one operand out of its range. -/
theorem test_wf_refuses_2 : ([
    .ori 4160 true, .xor 4160 true, .xori 4160 true, .shl 4160 true, .shli 4160 true, .shr 4160 true, .shri 4160 true,
    .sar 4160 true, .sari 4160 true, .rot 4160 true, .roti 4160 true, .mul 4160 true, .muli 4160 true, .cmp 4160 true,
    .cmpi 4160 true, .sel 4160 true, .seli 4160 true, .ext 4160 true, .ins 4160 true, .popc 4160 true, .clz 4160 true,
    .bswap 4160 true, .csum 4160 true, .ld 4160 true, .st 4160 true, .pld 4160 true, .pst 4160 true, .sld 4160 true,
    .sst 4160 true, .sadd 4160 true, .scas 4160 true, .br 4160 true, .brc 4160 true, .call 4160 true, .ret 4160 true,
    .jmpt 4160 true, .waite 4160 true, .evTimeout 4160, .sige 4160 true, .waitt 4160 true] : List Instr).all (fun i => !i.wf) = true := by decide

/-- Commands, each with one operand out of its range. -/
theorem test_wf_refuses_3 : ([
    .rdt 4160 true, .cmdw 4160 true, .cmdr 4160 true, .tkt 4160 true, .relForward 4160 true, .relDrop 4160 true,
    .relPass 4160 true, .thst 4160 true, .thrs 4160 true, .fltr 4160 true, .lockstepResyncDone 128,
    .flowLookup 4160 true true 15, .flowLookup 4159 true true 16, .flowInsert 4160 true true,
    .flowDelete 4160 true true, .lpmLookup 4160 true true true, .l2Lookup 4160 true true 15,
    .l2Lookup 4159 true true 16, .cipherEncrypt 4160 true true, .cipherDecrypt 4160 true true,
    .cipherMacGen 4160 true true, .cipherMacVerify 4160 true true, .dmaStart 4160 true true, .dmaCopy 4160 true true,
    .counterAdd 4160 true true, .counterRead 4160 true true, .counterReadClear 4160 true true,
    .sendFrame 4160 true true, .sendMbx 4160 true true, .triggerArm 4160 true true, .triggerDisarm 4160 true true,
    .ticketHoldExpiry 4096 1, .ticketHoldExpiry 4095 2, .slotBudgetExpiry 4096, .clusterDeadlock 16,
    .supRestart (.pf 2) 15 4294967295, .supRestart (.pf 1) 16 4294967295, .supRestart (.pf 1) 15 4294967296,
    .sessionOpen (.pf 2) 65535, .sessionOpen (.pf 1) 65536] : List Instr).all (fun i => !i.wf) = true := by decide

/-- Commands, each with one operand out of its range. -/
theorem test_wf_refuses_4 : ([
    .sessionClose (.pf 2), .halt (.pf 2) 4095, .halt (.pf 1) 4096, .resume (.pf 2) 4095, .resume (.pf 1) 4096,
    .step (.pf 2) 4095, .step (.pf 1) 4096, .debugRelease (.pf 2) 4095, .debugRelease (.pf 1) 4096,
    .heartbeat (.pf 2) 4294967295, .heartbeat (.pf 1) 4294967296, .mgmtRestart (.pf 2),
    .frameFirstCell 2048 ⟨64, 8⟩ 0, .frameFirstCell 2047 ⟨64, 9⟩ 0, .frameEnd 32 true [],
    .hostFrameReady 262144 65535 .timeout, .hostFrameReady 262143 65536 .timeout, .frameParse 8 4294967295,
    .frameParse 7 4294967296, .clsWrite (.pf 2) 7 32767, .clsWrite (.pf 1) 8 32767, .clsWrite (.pf 1) 7 32768,
    .clsInval (.pf 2) 7 32767, .clsInval (.pf 1) 8 32767, .clsInval (.pf 1) 7 32768, .selWrite (.pf 2) 7 32767,
    .selWrite (.pf 1) 8 32767, .selWrite (.pf 1) 7 32768, .prfWrite (.pf 2) 7 32767, .prfWrite (.pf 1) 8 32767,
    .prfWrite (.pf 1) 7 32768, .kselWrite (.pf 2) 7 32767, .kselWrite (.pf 1) 8 32767, .kselWrite (.pf 1) 7 32768,
    .pclassWrite (.pf 2) 7 32767, .pclassWrite (.pf 1) 8 32767, .pclassWrite (.pf 1) 7 32768, .updateCommit (.pf 2) 7,
    .updateCommit (.pf 1) 8, .updateDiscard (.pf 2) 7] : List Instr).all (fun i => !i.wf) = true := by decide

/-- Commands, each with one operand out of its range. -/
theorem test_wf_refuses_5 : ([
    .updateDiscard (.pf 1) 8, .updateWindowEnd 8 65535, .updateWindowEnd 7 65536, .clsRead (.pf 2) 7 32767,
    .clsRead (.pf 1) 8 32767, .clsRead (.pf 1) 7 32768, .tblFlowInsert (.pf 2), .flowReplace (.pf 2),
    .tblFlowDelete (.pf 2), .flowRead (.pf 2), .tblFlowLookup (.pf 2) 15, .tblFlowLookup (.pf 1) 16,
    .lpmInsert (.pf 2) 255, .lpmInsert (.pf 1) 256, .lpmDelete (.pf 2) 255, .lpmDelete (.pf 1) 256,
    .lpmReplace (.pf 2) 255, .lpmReplace (.pf 1) 256, .lpmRewrite (.pf 2) 255 262143, .lpmRewrite (.pf 1) 256 262143,
    .lpmRewrite (.pf 1) 255 262144, .lpmRead (.pf 2) 255 262143, .lpmRead (.pf 1) 256 262143,
    .lpmRead (.pf 1) 255 262144, .l2Static (.pf 2) 255, .l2Static (.pf 1) 256, .l2Delete (.pf 2) 255,
    .l2Delete (.pf 1) 256, .l2Flush (.pf 2) 255, .l2Flush (.pf 1) 256, .l2Read (.pf 2) 255 262143,
    .l2Read (.pf 1) 256 262143, .l2Read (.pf 1) 255 262144, .flowAgeScan 67108864 true, .l2Learn 8,
    .l2HoldEnd 8 262143, .l2HoldEnd 7 262144, .l2AgeScan 8 262143, .l2AgeScan 7 262144, .scrubVisit 6 7 262143 true] : List Instr).all (fun i => !i.wf) = true := by decide

/-- Commands, each with one operand out of its range. -/
theorem test_wf_refuses_6 : ([
    .scrubVisit 5 8 262143 true, .scrubVisit 5 7 262144 true, .tblEvqPop (.pf 2), .nmodeWrite (.pf 2) 4294967295,
    .nmodeWrite (.pf 1) 4294967296, .linkUp 33, .linkDown 33, .chpause 16 18446744073709551615 65535,
    .chpause 15 18446744073709551616 65535, .chpause 15 18446744073709551615 65536, .chpauseExpiry 16 63,
    .chpauseExpiry 15 64, .chpauseRefresh 16, .pause 16 65535, .pause 15 65536, .pfc 16 255 [], .pfc 15 256 [],
    .pauseExpiry 16 8, .pauseExpiry 15 9, .pauseRefresh 16, .mgmtRsp 16 255 255 [], .mgmtRsp 15 256 255 [],
    .mgmtRsp 15 255 256 [], .mgmtReqTimeout 16, .mgmtReq (.pf 2) 15 18446744073709551615,
    .mgmtReq (.pf 1) 16 18446744073709551615, .mgmtReq (.pf 1) 15 18446744073709551616, .credit 16 4294967295,
    .credit 15 4294967296, .powerOn (.pf 2) 15, .powerOn (.pf 1) 16, .powerGood 16, .pgTimeout 16,
    .resetDelayExpiry 16, .powerOff (.pf 2) 15, .powerOff (.pf 1) 16, .powerOffDelayExpiry 16, .reset (.pf 2) 15,
    .reset (.pf 1) 16, .hold (.pf 2) 15] : List Instr).all (fun i => !i.wf) = true := by decide

/-- Commands, each with one operand out of its range. -/
theorem test_wf_refuses_7 : ([
    .hold (.pf 1) 16, .release (.pf 2) 15, .release (.pf 1) 16, .slotFault 16 true, .slotPrsntChange 16 true,
    .i2cGo (.pf 2) 15 4294967295, .i2cGo (.pf 1) 16 4294967295, .i2cGo (.pf 1) 15 4294967296, .i2cDone 16 3 [],
    .i2cDone 15 4 [], .portCounterRead (.pf 2) true 2047 31 true 0, .portCounterRead (.pf 1) true 2048 31 true 0,
    .portCounterRead (.pf 1) true 2047 32 true 0, .bufCfgWrite (.pf 2) true 2047 18446744073709551615,
    .bufCfgWrite (.pf 1) true 2048 18446744073709551615, .bufCfgWrite (.pf 1) true 2047 18446744073709551616,
    .policerWrite (.pf 2) true 0 18446744073709551615, .policerWrite (.pf 1) true 0 18446744073709551616,
    .nodeWrite (.pf 2) 3 262143, .nodeWrite (.pf 1) 4 262143, .nodeWrite (.pf 1) 3 262144, .nodeRead (.pf 2) 3 262143,
    .nodeRead (.pf 1) 4 262143, .nodeRead (.pf 1) 3 262144, .frameSelect 34, .frameTxEnd 34, .gateCommit (.pf 2) 2047,
    .gateCommit (.pf 1) 2048, .gateCancel (.pf 2) 2047, .gateCancel (.pf 1) 2048, .gateTakeover 2048,
    .gateEntryWrite (.pf 2) 1023 18446744073709551615, .gateEntryWrite (.pf 1) 1024 18446744073709551615,
    .gateEntryWrite (.pf 1) 1023 18446744073709551616, .nowRead (.pf 2) 0, .mtIncWrite (.pf 2) 0, .adjStep (.pf 2) 0,
    .adjSlew (.pf 2) 0, .driftEnter (.pf 2), .driftExit (.pf 2) true] : List Instr).all (fun i => !i.wf) = true := by decide

/-- Commands, each with one operand out of its range. -/
theorem test_wf_refuses_8 : ([
    .trigCfgWrite (.pf 2) 255 0 18446744073709551615, .trigCfgWrite (.pf 1) 256 0 18446744073709551615,
    .trigCfgWrite (.pf 1) 255 0 18446744073709551616, .arm (.pf 2) 255 true, .arm (.pf 1) 256 true,
    .disarm (.pf 2) 255, .disarm (.pf 1) 256, .trigStageLoad 256, .trgLead 256, .trigFire 256, .pulseEnd 256,
    .captureSw (.pf 2) 63, .captureSw (.pf 1) 64, .ppsWrite (.pf 2) 18446744073709551615,
    .ppsWrite (.pf 1) 18446744073709551616, .laneCfgWrite (.pf 2) 4294967295, .laneCfgWrite (.pf 1) 4294967296,
    .encrypt 262144 65535, .encrypt 262143 65536, .decrypt 262144 65535, .decrypt 262143 65536, .macGen 262144 65535,
    .macGen 262143 65536, .macVerify 262144 65535, .macVerify 262143 65536, .jobComplete 32 .timeout .timeout,
    .inlineJobStart 262144, .loadWrapped (.pf 2), .loadClear (.pf 2), .clearSlot (.pf 2) 63, .clearSlot (.pf 1) 64,
    .zeroisePage (.pf 2), .pageOwnerWrite (.pf 2) 8191 4294967295, .pageOwnerWrite (.pf 1) 8192 4294967295,
    .pageOwnerWrite (.pf 1) 8191 4294967296, .saWrite (.pf 2) 1048575, .saWrite (.pf 1) 1048576,
    .saInvalidate (.pf 2) 1048575, .saInvalidate (.pf 1) 1048576, .saRead (.pf 2) 1048575] : List Instr).all (fun i => !i.wf) = true := by decide

/-- Commands, each with one operand out of its range. -/
theorem test_wf_refuses_9 : ([
    .saRead (.pf 1) 1048576, .egressStage 262144, .receiveStage 2, .tmplWrite (.pf 2) 16383, .tmplWrite (.pf 1) 16384,
    .tmplRead (.pf 2) 16383, .tmplRead (.pf 1) 16384, .nvcWrite (.pf 2) 16383, .nvcWrite (.pf 1) 16384,
    .nvcRead (.pf 2) 16383, .nvcRead (.pf 1) 16384, .place 262144 65535, .place 262143 65536,
    .nvmeCancel 262144 65535, .nvmeCancel 262143 65536, .oflEvqPop (.pf 2), .send 262144 65535, .send 262143 65536,
    .buffer 262144 65535, .buffer 262143 65536, .copy 262144 65535, .copy 262143 65536, .start 262144 65535,
    .start 262143 65536, .channelStart (.pf 2) 1023, .channelStart (.pf 1) 1024, .dmaStop (.pf 2) 1023,
    .dmaStop (.pf 1) 1024, .eos (.pf 2) 1023, .eos (.pf 1) 1024, .fifoPush (.pf 2) 1023 4294967295,
    .fifoPush (.pf 1) 1024 4294967295, .fifoPush (.pf 1) 1023 4294967296, .shadowArm (.pf 2) 1023,
    .shadowArm (.pf 1) 1024, .dmaStimeReached 1024, .dmaRunStart 64 .timeout, .dmaReadbackReturn 1024 .timeout,
    .streamBurstEnd 1024, .pcieLinkUp 2 0 0 true] : List Instr).all (fun i => !i.wf) = true := by decide

/-- Commands, each with one operand out of its range. -/
theorem test_wf_refuses_10 : ([
    .perstAssert 2, .perstRelease 2, .hotReset 2, .dlDown 2, .configWrite 4098 0 0 4294967295,
    .configWrite 4097 0 0 4294967296, .bmeClear 4098, .bmeSet 4098, .d3hotEntry 4098, .inboundBadAccess 4098 true [],
    .completionTimeout 2 65535 .other [], .completionTimeout 1 65536 .other [], .completionArrival 2 65535 [],
    .completionArrival 1 65536 [], .tagQuarantineEnd 2 65535, .tagQuarantineEnd 1 65536, .flr 4098,
    .flrQuiesceDone 4098, .vfEnable 2, .vfDisable 2, .vmodWrite (.pf 2) 1 4294967295, .vmodWrite (.pf 1) 2 4294967295,
    .vmodWrite (.pf 1) 1 4294967296, .vmodTimer 4098 0, .freeze (.pf 2) 3 0, .freeze (.pf 1) 4 0, .freezeWorkDone 4,
    .freezeImageDone 4 .timeout, .thaw (.pf 2) 3 0 .timeout, .thaw (.pf 1) 4 0 .timeout, .thawDone 4,
    .cancel (.pf 2) 3 0, .cancel (.pf 1) 4 0, .harvest (.pf 2) 15, .harvest (.pf 1) 16, .harvestDone 16 .timeout,
    .mbxCommit (.pf 2) 31 0, .mbxCommit (.pf 1) 32 0, .mbxChRxPop (.pf 2) 31, .mbxChRxPop (.pf 1) 32] : List Instr).all (fun i => !i.wf) = true := by decide

/-- Commands, each with one operand out of its range. -/
theorem test_wf_refuses_11 : ([
    .mbxLock (.pf 2) 63, .mbxLock (.pf 1) 64, .mbxUnlock (.pf 2) 63 4294967295, .mbxUnlock (.pf 1) 64 4294967295,
    .mbxUnlock (.pf 1) 63 4294967296, .mbxCfgWrite (.pf 2) 31 true 4294967295,
    .mbxCfgWrite (.pf 1) 32 true 4294967295, .mbxCfgWrite (.pf 1) 31 true 4294967296, .post 16 255 255 [],
    .post 15 256 255 [], .post 15 255 256 [], .pop 16 255 255, .pop 15 256 255, .pop 15 255 256, .lock 16 255,
    .lock 15 256, .unlock 16 255, .unlock 15 256, .upCommit (.pf 2) 4097 0, .upCommit (.pf 1) 4098 0,
    .dnCommit (.pf 2) 4097 0, .dnCommit (.pf 1) 4098 0, .upPop (.pf 2) 4097, .upPop (.pf 1) 4098, .dnPop (.pf 2) 4097,
    .dnPop (.pf 1) 4098, .regRead 4294967296, .regWrite 4294967296 4294967295, .regWrite 4294967295 4294967296,
    .mbxPost 256 [], .setEndpointId 0 256, .getMctpVersionSupport 256, .getVendorDefinedMessageSupport 256,
    .winCfgWrite (.pf 2) 1 15 18446744073709551615, .winCfgWrite (.pf 1) 2 15 18446744073709551615,
    .winCfgWrite (.pf 1) 1 16 18446744073709551615, .winCfgWrite (.pf 1) 1 15 18446744073709551616,
    .winBlockTake 2 15 .timeout [], .winBlockTake 1 16 .timeout [], .winRetry 2 15 .timeout []] : List Instr).all (fun i => !i.wf) = true := by decide

/-- Commands, each with one operand out of its range. -/
theorem test_wf_refuses_12 : ([
    .winRetry 1 16 .timeout [], .pair (.pf 2), .hello 18446744073709551616 true 255 255 true true true,
    .hello 18446744073709551615 true 256 255 true true true, .hello 18446744073709551615 true 255 256 true true true,
    .unpair (.pf 2), .resync (.pf 2), .twinHeartbeat 18446744073709551616 true, .mirror 18446744073709551616 true [],
    .ack 18446744073709551616 true 18446744073709551615, .ack 18446744073709551615 true 18446744073709551616,
    .sync 18446744073709551616 true [] true, .goodbye 18446744073709551616 true true [] [],
    .twinMbx 18446744073709551616 true true 255 [] 255, .twinMbx 18446744073709551615 true true 256 [] 255,
    .twinMbx 18446744073709551615 true true 255 [] 256, .tsync 18446744073709551616 true 0, .twnKeyLoad (.pf 2),
    .twnKeyClear (.pf 2), .faultDetection 512 4294967295 true, .faultDetection 511 4294967296 true,
    .activeClear (.pf 2) 511 true, .activeClear (.pf 1) 512 true, .faultInject (.pf 2) 511 4294967295,
    .faultInject (.pf 1) 512 4294967295, .faultInject (.pf 1) 511 4294967296, .devReset (.pf 2) 0, .logPop (.pf 2),
    .railWarning 7, .railUndervoltage 7, .snapGo (.pf 2), .dumpEnable (.pf 2) 4294967295,
    .dumpEnable (.pf 1) 4294967296, .slotClear (.pf 2) 0, .ready (.pf 2) 0, .clearAlt (.pf 2) 0, .fuseArm (.pf 2) 0 0,
    .debugClose (.pf 2) 0, .revoke (.pf 2) 0, .svn (.pf 2) 0] : List Instr).all (fun i => !i.wf) = true := by decide

/-- Commands, each with one operand out of its range. -/
theorem test_wf_refuses_13 : ([
    .ledgerSelect (.pf 2) 0, .sdsCalibrationDone 9, .gateCfgWrite (.pf 2) 4294967295,
    .gateCfgWrite (.pf 1) 4294967296, .clusterGate 16, .clusterWake 16, .laneGate 32, .laneWake 32,
    .exceptionFrameDispatch 64, .aerErrorDetected 4098 true 0 [], .registerWrite (.fw 64) .bar0 0 4 0,
    .registerWrite (.vf 1) .bar0 0 4 0, .registerWrite (.vf 4098) .bar0 0 4 0] : List Instr).all (fun i => !i.wf) = true := by decide

/-! ## Small steps and external test vectors -/

/-- A field after one step in which the command runs. -/
def after (c : Instr) (s : State) (f : Fld) (i : Nat) : Option Nat :=
  match step { s with pending := [c] } with
  | .next t => some (t.get f i)
  | .fault _ => none
  | .refused _ => none

/-- Thread 1 with G3 and G4 and one instruction word. -/
def two (op mod imm g3 g4 : Nat) : State := thr 1 (enc op 2 3 (if op % 2 = 0 then 4 else 0) mod imm) [(TH_g, 35, g3), (TH_g, 36, g4)]

/-- R144: a sum wraps at 64 bits. -/
theorem test_add_wraps : after (.add 1 false) (two 0x10 0 0 (2 ^ 64 - 1) 2) TH_g 34 = some 1 := by decide +kernel
/-- Table NI-4: a 16-bit sum is zero-extended. -/
theorem test_add_width : after (.add 1 false) (two 0x10 2 0 0xFFFF 1) TH_g 34 = some 0 := by decide +kernel
/-- An immediate is sign-extended from bit 32. -/
theorem test_addi_sign : after (.addi 1 false) (two 0x11 0 (2 ^ 33 - 1) 5 0) TH_g 34 = some 4 := by decide +kernel
/-- A difference below zero wraps. -/
theorem test_sub_wraps : after (.sub 1 false) (two 0x12 0 0 1 2) TH_g 34 = some (2 ^ 64 - 1) := by decide +kernel
/-- An arithmetic shift right keeps the sign. -/
theorem test_sar_sign : after (.sari 1 false) (two 0x1F 0 4 (2 ^ 63) 0) TH_g 34 = some (0xF8 * 2 ^ 56) := by decide +kernel
/-- G0 discards a write and the program counter goes on. -/
theorem test_g0_discards :
    after (.add 1 false) (thr 1 (enc 0x10 0 3 4 0 0) [(TH_g, 35, 5), (TH_g, 36, 7)]) TH_g 32 = some 0 ∧
    after (.add 1 false) (thr 1 (enc 0x10 0 3 4 0 0) [(TH_g, 35, 5), (TH_g, 36, 7)]) TH_pc 1 = some 1 := by decide +kernel
/-- POPC counts the bits that are set. -/
theorem test_popc : after (.popc 1 false) (thr 1 (enc 0x2A 2 3 0 0 0) [(TH_g, 35, 0xF0F)]) TH_g 34 = some 8 := by decide +kernel

/-- R11, Table OV-4: `dp_en` set in DATAPATH_IDLE begins SERVICE. -/
theorem test_dp_en : after (.dpEnSet (.fw 0)) (st [(GLB_STATE_state, 0, dsIdle)]) GLB_STATE_state 0 = some 3 := by decide +kernel
/-- Table OV-4: the loss of the always-on supply ends every state. -/
theorem test_aon_loss : after .vddAonLoss (st [(GLB_STATE_state, 0, dsWhiteout)]) GLB_STATE_state 0 = some 0 := by decide +kernel
/-- R276: an empty queue is one tick of the time counter. -/
theorem test_tick : (match step (st [(GLB_STATE_state, 0, dsService)]) with
    | .next t => some (t.now, t.pending)
    | .fault _ => none
    | .refused _ => none) = some (1, []) := by decide +kernel

/-- FIPS 197, appendix C.1. -/
theorem test_aes : aesEnc ((List.range 16).map (BitVec.ofNat 8)) ((List.range 16).map (fun k => BitVec.ofNat 8 (0x11 * k))) =
    leBytes 16 0x5ac5b47080b7cdd830047b6ad8e0c469 := by decide +kernel
/-- FIPS 197, appendix C.1, the inverse cipher. -/
theorem test_aes_inverse : aesDec ((List.range 16).map (BitVec.ofNat 8)) (leBytes 16 0x5ac5b47080b7cdd830047b6ad8e0c469) =
    (List.range 16).map (fun k => BitVec.ofNat 8 (0x11 * k)) := by decide +kernel
/-- RFC 4493, example 1: the MAC of the empty message. -/
theorem test_cmac : aesCmac (beBytes 16 0x2b7e151628aed2a6abf7158809cf4f3c) [] =
    beBytes 16 0xbb1d6929e95937287fa37d129b756746 := by decide +kernel
/-- The GCM specification, test case 2: the text. -/
theorem test_gcm_text : gcmCrypt (List.replicate 16 0#8) (List.replicate 12 0#8) (List.replicate 16 0#8) =
    beBytes 16 0x0388dace60b6a392f328c2b971b2fe78 := by decide +kernel
/-- The GCM specification, test case 2: the tag. -/
theorem test_gcm_tag : gcmTag (List.replicate 16 0#8) (List.replicate 12 0#8) [] (beBytes 16 0x0388dace60b6a392f328c2b971b2fe78) =
    beBytes 16 0xab6e47d42cec13bdf53a67b21257bddf := by decide +kernel
/-- IEEE 1619, vector 1: the first data unit under zero keys. -/
theorem test_xts : aesXts false (List.replicate 32 0#8) (List.replicate 16 0#8) 0 (List.replicate 32 0#8) =
    beBytes 32 0x917cf69ebd68b2ec9b9fe9a3eadda692cd43d2f59598ed858c02c2652fbf922e := by decide +kernel
/-- RFC 3394, section 4.1. -/
theorem test_key_wrap : kwWrap ((List.range 16).map (BitVec.ofNat 8)) ((List.range 16).map (fun k => BitVec.ofNat 8 (0x11 * k))) =
    beBytes 24 0x1FA68B0A8112B447AEF34BD8FB5A7B829D3E862371D2CFE5 := by decide +kernel
/-- The check value of CRC-32C. -/
theorem test_crc : crcDigest ([0x31, 0x32, 0x33, 0x34, 0x35, 0x36, 0x37, 0x38, 0x39].map (BitVec.ofNat 8)) = 0xE3069283 := by
  decide +kernel
/-- FIPS 180-4, the SHA-384 example of one block. -/
theorem test_sha384 : sha384 [0x61#8, 0x62#8, 0x63#8] = beBytes 48
    0xcb00753f45a35e8bb5a03d699ac65007272c32ab0eded1631a8b605a43ff5bed8086072ba1e7cc2358baeca134c825a7 := by decide +kernel
/-- R285: a target 2^47 ns ahead reads as reached, one tick less does not. -/
theorem test_reached : reached48 0 (2 ^ 47) = true ∧ reached48 0 (2 ^ 47 - 1) = false := by decide

/-! ## The hypotheses of the statements -/

theorem wit_EveryStepKeepsForm : ∃ s : State, ∃ t : State, s.wf = true ∧ step s = .next t :=
  ⟨{ st [(GLB_STATE_state, 0, 2)] with pending := [.vddAonLoss] }, _, by decide +kernel, rfl⟩

theorem wit_StepRunsFrontCommand : ∃ s : State, s.pending = [] :=
  ⟨st [(GLB_STATE_state, 0, dsService)], by decide +kernel⟩

theorem wit_DeviceStateMovesByTable : ∃ s : State, ∃ t : State, s.wf = true ∧ ((∀ c, s.pending.head? = some c → writesRegister c = false)) ∧ step s = .next t :=
  ⟨{ st [(GLB_STATE_state, 0, dsService)] with pending := [.dpEnClear (.fw 0)] }, _, by decide +kernel, (fun c h => by cases h; rfl), rfl⟩

theorem wit_WhiteoutEndsOnlyByReset : ∃ s : State, ∃ t : State, s.wf = true ∧ s.dev = dsWhiteout ∧ ((∀ c, s.pending.head? = some c → resets c = false)) ∧ step s = .next t :=
  ⟨{ st [(GLB_STATE_state, 0, dsWhiteout)] with pending := [.linkUp 0] }, _, by decide +kernel, by decide +kernel, (fun c h => by cases h; rfl), rfl⟩

theorem wit_CommandsKeepMeridianCount : ∃ c : Instr, ∃ s : State, ∃ t : State, s.wf = true ∧ movesTime c = false ∧ exec c s = .next t :=
  ⟨.sysRstNAssert, st [(GLB_STATE_state, 0, dsService), (MT_NOW_NS_ns, 0, 5)], _, by decide +kernel, by decide +kernel, rfl⟩

theorem wit_DebugFuseStaysProgrammed : ∃ s : State, ∃ t : State, s.wf = true ∧ s.flag FZ_debug 0 = true ∧ step s = .next t :=
  ⟨{ st [(GLB_STATE_state, 0, dsService), (FZ_debug, 0, 1)] with pending := [.vddAonLoss] }, _, by decide +kernel, by decide +kernel, rfl⟩

theorem wit_FieldReadsBackWhatWasWritten :
    (∃ s : State, SM.sorted s.fld = true) ∧
    (∃ s : State, ∃ f : Fld, ∃ i : Nat, ∃ g : Fld, ∃ j : Nat, SM.sorted s.fld = true ∧ fkey g j ≠ fkey f i) :=
  ⟨⟨st [(GLB_STATE_state, 0, dsService)], by decide +kernel⟩,
   ⟨st [(GLB_STATE_state, 0, dsService)], GLB_STATE_state, 0, TH_pc, 4095, by decide +kernel⟩⟩

theorem wit_MemoryReadsBackWhatWasWritten :
    (∃ (s : State) (bs : List Byte) (k : Nat) (x : Byte), Memory.wf s.mem = true ∧ bs[k]? = some x) ∧
    (∃ s : State, ∃ a : Nat, ∃ bs : List Byte, ∃ b, Memory.wf s.mem = true ∧ (b < a ∨ a + bs.length ≤ b)) ∧
    (∃ s : State, Memory.wf s.mem = true) :=
  ⟨⟨State.reset, [0x5A#8], 0, 0x5A#8, by decide +kernel⟩,
   ⟨st [(GLB_STATE_state, 0, dsService)], 0, [], 0, by decide +kernel⟩,
   ⟨st [(GLB_STATE_state, 0, dsService)], by decide +kernel⟩⟩

theorem wit_TickAdvancesMeridianTime : ∃ s : State, s.wf = true ∧ s.pending = [] ∧ s.dev ≠ 0 ∧ (s.runDue.starve.cycleEvents).flag MT_STATUS_slewing 0 = false ∧ (s.runDue.starve.cycleEvents).flag MTX_step 0 = false :=
  ⟨st [(GLB_STATE_state, 0, dsService)], by decide +kernel⟩

theorem wit_ResetsMoveTheDevice :
    (∃ s : State, s.wf = true ∧ s.dev = 0) ∧
    (∃ s : State, s.wf = true ∧ s.dev ≠ 0) ∧
    (∃ s : State, s.wf = true ∧ s.dev = dsAonOnly ∧ s.flag RST_low 0 = false ∧ s.flag FLT_RAIL_uv_hold 0 = false) ∧
    (∃ s : State, s.wf = true ∧ s.dev ≠ 0 ∧ (¬(s.dev = dsWhiteout ∧ s.flag FLT_RAIL_uv_hold 0 = true))) ∧
    (∃ s : State, s.wf = true ∧ s.dev = dsAonOnly ∧ s.flag RAIL_out 0 = false ∧ s.flag FLT_RAIL_uv_hold 0 = false) ∧
    (∃ s : State, s.wf = true ∧ s.dev = dsWhiteout ∧ s.flag RST_low 0 = true) ∧
    (∃ s : State, s.wf = true ∧ s.dev = dsAonOnly ∧ s.flag RAIL_out 0 = false ∧ s.flag RST_low 0 = false) ∧
    (∃ s : State, s.wf = true ∧ s.dev = dsWhiteout ∧ s.flag FLT_RAIL_uv_hold 0 = false) :=
  ⟨⟨st [(GLB_STATE_state, 0, 0)], by decide +kernel⟩,
   ⟨st [(GLB_STATE_state, 0, dsService)], by decide +kernel⟩,
   ⟨st [(GLB_STATE_state, 0, dsAonOnly), (RST_low, 0, 0), (FLT_RAIL_uv_hold, 0, 0)], by decide +kernel⟩,
   ⟨st [(GLB_STATE_state, 0, dsService)], by decide +kernel⟩,
   ⟨st [(GLB_STATE_state, 0, dsAonOnly), (RAIL_out, 0, 0), (FLT_RAIL_uv_hold, 0, 0)], by decide +kernel⟩,
   ⟨st [(GLB_STATE_state, 0, dsWhiteout), (RST_low, 0, 1)], by decide +kernel⟩,
   ⟨st [(GLB_STATE_state, 0, dsAonOnly), (RAIL_out, 0, 0), (RST_low, 0, 0)], by decide +kernel⟩,
   ⟨st [(GLB_STATE_state, 0, dsWhiteout), (FLT_RAIL_uv_hold, 0, 0)], by decide +kernel⟩⟩

theorem wit_ProfileWriteOutsideIdleIsRefused :
    (∃ w : Who, ∃ s : State, s.glbOpen w = true ∧ s.dev ≠ dsIdle) ∧
    (∃ w : Who, ∃ s : State, s.bootOpen w = true ∧ s.dev = dsIdle ∧ s.get TWN_STATUS_state 0 = 0) :=
  ⟨⟨.fw 0, st [(GLB_STATE_state, 0, dsService)], by decide +kernel⟩,
   ⟨.fw 0, st [(GLB_STATE_state, 0, dsIdle), (TWN_STATUS_state, 0, 0)], by decide +kernel⟩⟩

theorem wit_ReenableDuringDrainReturnsAtOnce : ∃ w : Who, ∃ s : State, s.wf = true ∧ s.glbOpen w = true ∧ s.dev = dsService ∧ s.flag GLB_STATUS_dp_draining 0 = true ∧ s.flag PW_seal 0 = false :=
  ⟨.fw 0, st [(GLB_STATE_state, 0, dsService), (GLB_STATUS_dp_draining, 0, 1), (PW_seal, 0, 0)], by decide +kernel⟩

theorem wit_DatapathEnableAndDrain :
    (∃ s : State, s.wf = true ∧ s.dev = dsIdle ∧ s.flag GLB_STATUS_profile_busy 0 = true) ∧
    (∃ w : Who, ∃ s : State, s.wf = true ∧ s.bootOpen w = true ∧ s.dev = dsIdle) ∧
    (∃ w : Who, ∃ s : State, s.dev = dsBooting ∧ s.bootOpen w = true) ∧
    (∃ w : Who, ∃ s : State, s.bootOpen w = true ∧ s.dev = dsService) ∧
    (∃ s : State, s.dev = dsService ∧ s.flag GLB_STATUS_dp_draining 0 = true ∧ s.flag PW_seal 0 = false ∧ s.frames = [] ∧ s.excq = [] ∧ ((∀ e ∈ s.ents, e.2 = [] ∨ s.qClass e.1 = qcRx))) :=
  ⟨⟨st [(GLB_STATE_state, 0, dsIdle), (GLB_STATUS_profile_busy, 0, 1)], by decide +kernel⟩,
   ⟨.fw 0, st [(GLB_STATE_state, 0, dsIdle)], by decide +kernel⟩,
   ⟨.fw 0, st [(GLB_STATE_state, 0, dsBooting)], by decide +kernel⟩,
   ⟨.fw 0, st [(GLB_STATE_state, 0, dsService)], by decide +kernel⟩,
   ⟨st [(GLB_STATE_state, 0, dsService), (GLB_STATUS_dp_draining, 0, 1), (PW_seal, 0, 0)], by decide +kernel⟩⟩

theorem wit_PowerWarningSequence :
    (∃ s : State, s.dev ≠ 0) ∧
    (∃ s : State, (s.dev = dsService ∨ s.dev = dsIdle ∨ s.dev = dsBooting) ∧ s.flag PW_warn 0 = false) ∧
    (∃ s : State, s.flag PW_warn 0 = true ∧ s.flag PW_seal 0 = false ∧ s.dev ≠ dsWhiteout ∧ s.dev ≠ dsAonOnly ∧ s.dev ≠ 0) ∧
    (∃ s : State, s.flag FIRN_flush 0 = true ∧ s.dev ≠ dsAonOnly ∧ s.dev ≠ 0 ∧ ((s.dev = dsWhiteout ∨ s.flag PW_warn 0 = false)) ∧ s.flag PW_seal 0 = false ∧ s.wf = true) :=
  ⟨⟨st [(GLB_STATE_state, 0, dsService)], by decide +kernel⟩,
   ⟨st [(GLB_STATE_state, 0, dsService), (PW_warn, 0, 0)], by decide +kernel⟩,
   ⟨st [(GLB_STATE_state, 0, dsService), (PW_warn, 0, 1), (PW_seal, 0, 0)], by decide +kernel⟩,
   ⟨st [(GLB_STATE_state, 0, dsService), (FIRN_flush, 0, 1), (PW_seal, 0, 0)], by decide +kernel⟩⟩

theorem wit_BootStepsAndLedger :
    (∃ s : State, s.dev = dsBooting ∧ s.inLimit = true ∧ (s.bootNow = 1 ∨ s.bootNow = 5 ∨ s.bootNow = 6)) ∧
    (∃ s : State, s.dev = dsBooting ∧ s.inLimit = true ∧ s.bootNow = 2) ∧
    (∃ s : State, s.dev = dsBooting ∧ s.inLimit = true ∧ s.bootNow = 3) ∧
    (∃ s : State, s.dev = dsBooting ∧ s.inLimit = true ∧ s.bootNow = 4) ∧
    (∃ s : State, s.dev = dsBooting ∧ s.inLimit = true ∧ s.bootNow = 7) ∧
    (∃ s : State, s.dev = dsBooting ∧ s.inLimit = true ∧ s.bootNow = 8) ∧
    (∃ s : State, s.dev = dsBooting ∧ s.inLimit = true ∧ s.bootNow = 9 ∧ imageHashed s.bootImg (fun _ => true) = true) ∧
    (∃ n : Nat, ∃ s : State, s.wf = true ∧ 1 ≤ n ∧ n ≤ 10) ∧
    (∃ s : State, s.dev = dsBooting ∧ s.bootNow = 7) ∧
    (∃ s : State, s.dev = dsBooting ∧ s.bootNow = 8) ∧
    (∃ b : Bool, ∃ s : State, s.dev = dsBooting ∧ (s.bootNow = 3 ∨ s.bootNow = 5 ∨ s.bootNow = 6 ∨ (s.bootNow = 8 ∧ b = false)) ∧ s.ledgerEnd.altOf s.bootNow = true) ∧
    (∃ s : State, ∃ n, s.dev = dsBooting ∧ s.bootNow = n ∧ s.ledgerEnd.altOf n = false) ∧
    (∃ s : State, ∃ n, s.dev = dsBooting ∧ s.bootNow = n ∧ s.ledgerEnd.altOf n = false ∧ (n = 9 ∨ n = 10)) ∧
    (∃ s : State, s.dev = dsBooting ∧ s.bootNow = 10 ∧ s.inLimit = true ∧ s.flag PW_seal 0 = false) ∧
    (∃ w : Who, ∃ s : State, s.bootOpen w = true) :=
  ⟨⟨st [(GLB_STATE_state, 0, dsBooting)], by decide +kernel⟩,
   ⟨st [(GLB_STATE_state, 0, dsBooting), (GLB_STATE_boot_step, 0, 1)], by decide +kernel⟩,
   ⟨st [(GLB_STATE_state, 0, dsBooting), (GLB_STATE_boot_step, 0, 2)], by decide +kernel⟩,
   ⟨st [(GLB_STATE_state, 0, dsBooting), (GLB_STATE_boot_step, 0, 3)], by decide +kernel⟩,
   ⟨st [(GLB_STATE_state, 0, dsBooting), (GLB_STATE_boot_step, 0, 6)], by decide +kernel⟩,
   ⟨st [(GLB_STATE_state, 0, dsBooting), (GLB_STATE_boot_step, 0, 7)], by decide +kernel⟩,
   ⟨st [(GLB_STATE_state, 0, dsBooting), (GLB_STATE_boot_step, 0, 8)], by decide +kernel⟩,
   ⟨10, st [(GLB_STATE_state, 0, dsService)], by decide +kernel⟩,
   ⟨st [(GLB_STATE_state, 0, dsBooting), (GLB_STATE_boot_step, 0, 6)], by decide +kernel⟩,
   ⟨st [(GLB_STATE_state, 0, dsBooting), (GLB_STATE_boot_step, 0, 7)], by decide +kernel⟩,
   ⟨false, st [(GLB_STATE_state, 0, dsBooting), (GLB_STATE_boot_step, 0, 7), (BOOT_STATUS_alt, 0, 128)], by decide +kernel⟩,
   ⟨st [(GLB_STATE_state, 0, dsBooting), (GLB_STATE_boot_step, 0, 5)], 6, by decide +kernel⟩,
   ⟨st [(GLB_STATE_state, 0, dsBooting), (GLB_STATE_boot_step, 0, 9)], 10, by decide +kernel⟩,
   ⟨st [(GLB_STATE_state, 0, dsBooting), (PW_seal, 0, 0), (GLB_STATE_boot_step, 0, 9)], by decide +kernel⟩,
   ⟨.fw 0, st [(GLB_STATE_state, 0, dsService), (GLB_STATE_boot_step, 0, 9)], by decide +kernel⟩⟩

theorem wit_FuseOperations :
    (∃ w : Who, ∃ op : Nat, ∃ s : State, s.fuseMay w = true ∧ (op = 1 ∨ op = 2 ∨ op = 3)) ∧
    (∃ w : Who, ∃ arg : Nat, ∃ s : State, s.fuseMay w = true ∧ s.fuseGo 1 arg = true) ∧
    (∃ w : Who, ∃ arg : Nat, ∃ s : State, s.fuseMay w = true ∧ s.fuseGo 2 arg = true ∧ arg < 4 ∧ s.otherKeys arg = true ∧ s.wf = true) ∧
    (∃ w : Who, ∃ arg : Nat, ∃ s : State, s.fuseMay w = true ∧ s.fuseGo 3 arg = true ∧ s.get FZ_svn 0 ≤ arg ∧ arg ≤ 64) ∧
    (∃ w : Who, ∃ s : State, s.bootOpen w = true ∧ s.fuseMay w = false) ∧
    (∃ w : Who, ∃ arg : Nat, ∃ s : State, s.fuseMay w = true ∧ s.fuseGo 1 arg = false) :=
  ⟨⟨.bmc, 1, st [(GLB_STATE_state, 0, dsService)], by decide +kernel⟩,
   ⟨.bmc, 1, st [(GLB_STATE_state, 0, dsService), (BFX_armed, 0, 1), (BFX_op, 0, 1), (BFX_arg, 0, 1)], by decide +kernel⟩,
   ⟨.bmc, 3, st [(GLB_STATE_state, 0, dsService), (BFX_armed, 0, 1), (BFX_op, 0, 2), (BFX_arg, 0, 3)], by decide +kernel⟩,
   ⟨.bmc, 64, st [(GLB_STATE_state, 0, dsService), (BFX_armed, 0, 1), (BFX_op, 0, 3), (BFX_arg, 0, 64)], by decide +kernel⟩,
   ⟨.fw 0, st [(GLB_STATE_state, 0, dsService)], by decide +kernel⟩,
   ⟨.bmc, 0, st [(GLB_STATE_state, 0, dsService)], by decide +kernel⟩⟩

theorem wit_ClocksAndGating :
    (∃ s : State, s.dev ≠ 0 ∧ s.flag CLK_lost 0 = false ∧ s.get MT_CFG_ref_sel 0 ≠ 0 ∧ s.flag MTX_lost 0 = false ∧ s.wf = true) ∧
    (∃ s : State, s.dev ≠ 0) ∧
    (∃ g : Nat, ∃ s : State, s.portsOn = true ∧ s.sdsUsed g = true) ∧
    (∃ w : Who, ∃ v : Nat, ∃ s : State, s.bootOpen w = true ∧ bit v 31 = true ∧ bits v 16 10 ≠ 0 ∧ bits v 0 16 ≠ 0) ∧
    (∃ w : Who, ∃ v : Nat, ∃ s : State, s.bootOpen w = true ∧ bit v 31 = false ∧ bits v 16 10 = 0 ∧ bits v 0 16 = 0) ∧
    (∃ k : Nat, ∃ s : State, s.coresRun = true ∧ s.flag PWR_GATE_CFG_en 0 = true ∧ bit (s.get PWR_GATE_STATUS_clusters 0) k = false ∧ s.dispDeep k = false ∧ s.session k = false ∧ ((∀ t ∈ clusterThreads k, s.restful t = true ∧ s.outstanding t = false))) ∧
    (∃ k : Nat, ∃ s : State, s.coresRun = true ∧ s.wakeCause k = true) ∧
    (∃ l : Nat, ∃ s : State, s.coresRun = true ∧ s.flag PWR_GATE_CFG_en 0 = true ∧ bit (s.get PWR_GATE_STATUS_lanes 0) l = false ∧ s.laneJob l = none) ∧
    (∃ l : Nat, ∃ s : State, s.coresRun = true ∧ s.get PWR_GATE_CFG_wake_depth 0 ≤ s.poolQueue (bit (s.get CPH_LANE_CFG_lookaside 0) l)) :=
  ⟨⟨st [(GLB_STATE_state, 0, dsService), (CLK_lost, 0, 0), (MT_CFG_ref_sel, 0, 1), (MTX_lost, 0, 0)], by decide +kernel⟩,
   ⟨st [(GLB_STATE_state, 0, dsService)], by decide +kernel⟩,
   ⟨0, st [(GLB_STATE_state, 0, dsService), (MAC_NMODE_quad, 0, 1)], by decide +kernel⟩,
   ⟨.fw 0, 0x80640064, st [(GLB_STATE_state, 0, dsService)], by decide +kernel⟩,
   ⟨.fw 0, 0, st [(GLB_STATE_state, 0, dsService)], by decide +kernel⟩,
   ⟨0, st [(GLB_STATE_state, 0, dsService), (PWR_GATE_CFG_en, 0, 1)], by decide +kernel, by decide +kernel, by decide +kernel, by decide +kernel, by decide +kernel, by decide +kernel⟩,
   ⟨0, st [(GLB_STATE_state, 0, dsService), (TH_ev, 0, 1)], by decide +kernel⟩,
   ⟨0, st [(GLB_STATE_state, 0, dsService), (PWR_GATE_CFG_en, 0, 1)], by decide +kernel⟩,
   ⟨0, st [(GLB_STATE_state, 0, dsService), (PWR_GATE_CFG_wake_depth, 0, 0)], by decide +kernel⟩⟩

theorem wit_FieldsTakeWritesByTheirType :
    (∃ s : State, ∃ f : Fld, s.wf = true ∧ (f.acc = .rw ∨ f.acc = .rwl)) ∧
    (∃ s : State, ∃ f : Fld, ∃ b, s.wf = true ∧ f.acc = .w1c ∧ b < f.w) ∧
    (∃ s : State, ∃ f : Fld, ∃ b, s.wf = true ∧ f.acc = .w1s ∧ b < f.w) ∧
    (∃ s : State, ∃ f : Fld, s.wf = true ∧ (f.acc = .ro ∨ f.acc = .rc ∨ f.acc = .wo)) ∧
    (∃ s : State, ∃ f : Fld, ∃ i : Nat, ∃ g : Fld, ∃ j : Nat, s.wf = true ∧ fkey g j ≠ fkey f i) ∧
    (∃ (s : State) (lo : Nat) (f : Fld) (i : Nat) (d : RegDesc) (r n : Nat), s.wf = true ∧ (lo, f) ∈ d.fields ∧ f.acc = .rc ∧ lo < 8 * (r + n) ∧ 8 * r < lo + f.w ∧ (∀ p ∈ d.fields, p.2 = f ∨ fkey p.2 i ≠ fkey f i)) :=
  ⟨⟨st [(GLB_STATE_state, 0, dsService)], QM_QCTX_CTRL_en, by decide +kernel⟩,
   ⟨st [(GLB_STATE_state, 0, dsService)], QM_QCTX_STATUS_cfg_refused, 0, by decide +kernel⟩,
   ⟨st [(GLB_STATE_state, 0, dsService)], FP_CLU_CTRL_sup_restart, 15, by decide +kernel⟩,
   ⟨st [(GLB_STATE_state, 0, dsService)], QM_QCTX_START_done, by decide +kernel⟩,
   ⟨st [(GLB_STATE_state, 0, dsService)], QM_QCTX_CTRL_en, 0, QM_QCTX_CTRL_en, 262143, by decide +kernel⟩,
   ⟨st [(QM_QCTX_STALLS_stalls, 5, 9)], 0, QM_QCTX_STALLS_stalls, 5, ⟨"QM_QCTX_STALLS", 0x200003C, [(262144, 64)], 4, [(0, QM_QCTX_STALLS_stalls)]⟩, 0, 4, by decide +kernel, .head _, rfl, by decide +kernel, by decide +kernel, fun p h => by cases h with | head => exact .inl rfl | tail _ h => cases h⟩⟩

theorem wit_AccessorsReachRegisters :
    (∃ w : Who, ∃ bar : Bar, ∃ off : Nat, ∃ v : Nat, ∃ i : Nat, ∃ d : RegDesc, ∃ s : State, ((∃ m, w = .fw m ∧ bar = .bar0) ∨ (∃ g n, barOf w bar = some (g, n) ∧ off < n ∧ s.dev ≠ 0 ∧ s.dev ≠ dsAonOnly ∧ s.decodes g = true)) ∧ s.busOpen w = true ∧ off % 4 = 0 ∧ d.bytes = 4 ∧ s.winWrite w bar off (v % 2 ^ 32) = none ∧ regAt w bar off true = some (d, i, 0) ∧ regRule w d.base i (s.merged d.fields i 0 4 (v % 2 ^ 32)) s = none) ∧
    (∃ w : Who, ∃ bar : Bar, ∃ off : Nat, ∃ i : Nat, ∃ d : RegDesc, ∃ s : State, ((∃ m, w = .fw m ∧ bar = .bar0) ∨ (∃ g n, barOf w bar = some (g, n) ∧ off < n ∧ s.dev ≠ 0 ∧ s.dev ≠ dsAonOnly ∧ s.decodes g = true)) ∧ s.busOpen w = true ∧ off % 4 = 0 ∧ d.bytes = 4 ∧ s.winRead w bar off = none ∧ regAt w bar off false = some (d, i, 0) ∧ s.unseen w d.base i = false ∧ d.base ∉ [0x700000, 0x700008, 0x510020, 0x540000, 0x590000, 0xA04000, 0xA000A0, 0xD00028]) ∧
    (∃ off : Nat, ∃ s : State, s.bmcHeard = true ∧ s.bmcStatus off false = 0) ∧
    (∃ off : Nat, ∃ s : State, s.bmcHeard = true ∧ s.bmcStatus off true = 0) ∧
    (∃ off : Nat, ∃ s : State, s.bmcHeard = true ∧ s.bmcStatus off true ≠ 0) ∧
    (∃ off : Nat, ∃ s : State, s.bmcHeard = true ∧ s.bmcStatus off false ≠ 0) ∧
    (∃ h : Nat, ∃ off : Nat, ∃ s : State, h < 2 ∧ s.dev = dsWhiteout ∧ s.decodes h = true ∧ off < 2 ^ 26 ∧ off % 4 = 0) :=
  ⟨⟨.pf 0, .bar0, 0x100000, 0, 0, ⟨"QM_CFG", 0x100000, [], 4, [(0, QM_CFG_cq_stall_limit)]⟩, st [(GLB_STATE_state, 0, dsService), (CFG_mse, 0, 1)], .inr ⟨0, 2 ^ 26, rfl, by decide +kernel, by decide +kernel, by decide +kernel, by decide +kernel⟩, by decide +kernel, by decide +kernel, rfl, by decide +kernel, rfl, by decide +kernel⟩,
   ⟨.fw 0, .bar0, 0x100000, 0, ⟨"QM_CFG", 0x100000, [], 4, [(0, QM_CFG_cq_stall_limit)]⟩, st [(GLB_STATE_state, 0, dsService)], .inl ⟨0, rfl, rfl⟩, by decide +kernel, by decide +kernel, rfl, by decide +kernel, rfl, by decide +kernel, by decide +kernel⟩,
   ⟨0, st [(GLB_STATE_state, 0, dsService)], by decide +kernel⟩,
   ⟨0x18, st [(GLB_STATE_state, 0, dsService)], by decide +kernel⟩,
   ⟨2, st [(GLB_STATE_state, 0, dsService)], by decide +kernel⟩,
   ⟨2, st [(GLB_STATE_state, 0, dsService), (GLB_STATE_state, 0, dsIdle)], by decide +kernel⟩,
   ⟨0, 0, st [(GLB_STATE_state, 0, dsWhiteout), (CFG_mse, 0, 1)], by decide +kernel⟩⟩

theorem wit_PollsAndDormancy :
    (∃ qs : List Nat, ∃ s : State, ∃ q : Nat, (((forEach qs (fun q t => if pollTurn t q && !t.flag QX_due q then t.dueAt q t.clk else t) s).having QX_due 1).filter (pollReady (forEach qs (fun q t => if pollTurn t q && !t.flag QX_due q then t.dueAt q t.clk else t) s))) ≠ [] ∧ pollEarliest (forEach qs (fun q t => if pollTurn t q && !t.flag QX_due q then t.dueAt q t.clk else t) s) ((((forEach qs (fun q t => if pollTurn t q && !t.flag QX_due q then t.dueAt q t.clk else t) s).having QX_due 1).filter (pollReady (forEach qs (fun q t => if pollTurn t q && !t.flag QX_due q then t.dueAt q t.clk else t) s))).filter (fun p => (forEach qs (fun q t => if pollTurn t q && !t.flag QX_due q then t.dueAt q t.clk else t) s).qOwner p == (pollNextFn (forEach qs (fun q t => if pollTurn t q && !t.flag QX_due q then t.dueAt q t.clk else t) s) ((((forEach qs (fun q t => if pollTurn t q && !t.flag QX_due q then t.dueAt q t.clk else t) s).having QX_due 1).filter (pollReady (forEach qs (fun q t => if pollTurn t q && !t.flag QX_due q then t.dueAt q t.clk else t) s))).map (forEach qs (fun q t => if pollTurn t q && !t.flag QX_due q then t.dueAt q t.clk else t) s).qOwner)).1)) = some q) ∧
    (∃ (q : Nat) (bs : List Byte) (s : State) (got : List (List Byte)), s.wf = true ∧ s.flag QX_poll q = true ∧ s.masterStop = false ∧ s.fnState (s.qOwner q) = fsActive ∧ s.qState q = qsActive ∧ s.open_ = true ∧ s.flag PW_stopacc 0 = false ∧ got = pollTake (s.get QM_QCTX_CTRL_log2size q) (s.get QX_polln q) (s.qCons q) bs ∧ got ≠ [] ∧ s.flag QX_last q = false) ∧
    (∃ (q : Nat) (bs : List Byte) (s : State) (got : List (List Byte)), s.wf = true ∧ s.flag QX_poll q = true ∧ s.masterStop = false ∧ s.fnState (s.qOwner q) = fsActive ∧ s.qState q = qsActive ∧ s.open_ = true ∧ s.flag PW_stopacc 0 = false ∧ got = pollTake (s.get QM_QCTX_CTRL_log2size q) (s.get QX_polln q) (s.qCons q) bs ∧ got ≠ [] ∧ s.flag QX_last q = true) ∧
    (∃ (q : Nat) (bs : List Byte) (s : State) (got : List (List Byte)), s.wf = true ∧ s.flag QX_poll q = true ∧ s.masterStop = false ∧ s.fnState (s.qOwner q) = fsActive ∧ s.qState q = qsActive ∧ s.open_ = true ∧ s.flag PW_stopacc 0 = false ∧ got = pollTake (s.get QM_QCTX_CTRL_log2size q) (s.get QX_polln q) (s.qCons q) bs ∧ got = [] ∧ s.flag QX_last q = false) ∧
    (∃ (q : Nat) (bs : List Byte) (s : State) (got : List (List Byte)), s.wf = true ∧ s.flag QX_poll q = true ∧ s.masterStop = false ∧ s.fnState (s.qOwner q) = fsActive ∧ s.qState q = qsActive ∧ s.open_ = true ∧ s.flag PW_stopacc 0 = false ∧ got = pollTake (s.get QM_QCTX_CTRL_log2size q) (s.get QX_polln q) (s.qCons q) bs ∧ got = [] ∧ s.flag QX_last q = true) ∧
    (∃ q : Nat, ∃ s : State, s.wf = true ∧ s.flag QX_poll q = true ∧ s.masterStop = false ∧ s.fnState (s.qOwner q) = fsActive ∧ (s.qState q = qsActive ∨ s.qState q = qsDraining)) ∧
    (∃ q : Nat, ∃ s : State, s.mayPoll q = true ∧ s.get QM_QCTX_POLL_poll_idle_n q ≠ 0 ∧ s.get QM_QCTX_POLL_poll_idle_n q ≤ s.get QX_idle q ∧ s.flag QX_dorm q = false) ∧
    (∃ g : Nat, ∃ l : Nat, ∃ q : Nat, ∃ s : State, s.busOpen (if g < 2 then .pf g else .vf g) = true ∧ s.queueAt g l = some q ∧ (s.pmu 0 6 1).qState q = qsDormant ∧ (s.pmu 0 6 1).fnState g ≠ fsFreezing) ∧
    (∃ g : Nat, ∃ l : Nat, ∃ q : Nat, ∃ s : State, s.busOpen (if g < 2 then .pf g else .vf g) = true ∧ s.queueAt g l = some q ∧ (s.pmu 0 6 1).qState q = qsFrozen) ∧
    (∃ g : Nat, ∃ l : Nat, ∃ q : Nat, ∃ s : State, s.busOpen (if g < 2 then .pf g else .vf g) = true ∧ s.queueAt g l = some q ∧ (s.pmu 0 6 1).qState q = qsActive) ∧
    (∃ q : Nat, ∃ s : State, s.flag QX_wbdue q = true ∧ s.get QM_QCTX_POLL_wb_us q ≠ 0 ∧ s.ringMode q = false ∧ s.qState q ≠ qsDisabled ∧ s.masterStop = false) :=
  ⟨⟨[0], qst [(GLB_STATE_state, 0, dsService), (QM_QCTX_STATUS_state, 0, qsActive)], 0, by decide +kernel⟩,
   ⟨0, txEntry, qst [(GLB_STATE_state, 0, dsService), (QM_QCTX_STATUS_state, 0, qsActive), (QX_polln, 0, 1), (QX_poll, 0, 1)], _, by decide +kernel, by decide +kernel, by decide +kernel, by decide +kernel, by decide +kernel, by decide +kernel, by decide +kernel, rfl, by decide +kernel, by decide +kernel⟩,
   ⟨0, txEntry, qst [(GLB_STATE_state, 0, dsService), (QM_QCTX_STATUS_state, 0, qsActive), (QX_polln, 0, 1), (QX_poll, 0, 1), (QX_last, 0, 1)], _, by decide +kernel, by decide +kernel, by decide +kernel, by decide +kernel, by decide +kernel, by decide +kernel, by decide +kernel, rfl, by decide +kernel, by decide +kernel⟩,
   ⟨0, (List.replicate 63 0#8 ++ [0x80#8]), qst [(GLB_STATE_state, 0, dsService), (QM_QCTX_STATUS_state, 0, qsActive), (QX_polln, 0, 1), (QX_poll, 0, 1)], _, by decide +kernel, by decide +kernel, by decide +kernel, by decide +kernel, by decide +kernel, by decide +kernel, by decide +kernel, rfl, by decide +kernel, by decide +kernel⟩,
   ⟨0, (List.replicate 63 0#8 ++ [0x80#8]), qst [(GLB_STATE_state, 0, dsService), (QM_QCTX_STATUS_state, 0, qsActive), (QX_polln, 0, 1), (QX_poll, 0, 1), (QX_last, 0, 1)], _, by decide +kernel, by decide +kernel, by decide +kernel, by decide +kernel, by decide +kernel, by decide +kernel, by decide +kernel, rfl, by decide +kernel, by decide +kernel⟩,
   ⟨0, qst [(GLB_STATE_state, 0, dsService), (QX_poll, 0, 1), (QM_QCTX_STATUS_state, 0, qsActive)], by decide +kernel⟩,
   ⟨0, qst [(GLB_STATE_state, 0, dsService), (QM_QCTX_POLL_poll_idle_n, 0, 1), (QX_dorm, 0, 0), (QM_QCTX_STATUS_state, 0, qsActive), (QX_idle, 0, 1)], by decide +kernel⟩,
   ⟨0, 0, 0, qst [(GLB_STATE_state, 0, dsService), (QM_QCTX_STATUS_state, 0, qsDormant)], by decide +kernel⟩,
   ⟨0, 0, 0, qst [(GLB_STATE_state, 0, dsService), (QM_QCTX_STATUS_state, 0, qsFrozen)], by decide +kernel⟩,
   ⟨0, 0, 0, qst [(GLB_STATE_state, 0, dsService), (QM_QCTX_STATUS_state, 0, qsActive)], by decide +kernel⟩,
   ⟨0, qst [(GLB_STATE_state, 0, dsService), (QX_wbdue, 0, 1), (QM_QCTX_POLL_wb_us, 0, 1), (QM_QCTX_STATUS_state, 0, qsActive)], by decide +kernel⟩⟩

theorem wit_EntriesAreAccepted :
    (∃ q : Nat, ∃ e : List Byte, ∃ l : List (List Byte), ∃ s : State, s.mayFetch q = true ∧ s.qState q = qsActive ∧ s.fetchedOf q = e :: l ∧ s.flag QX_mwait q = false ∧ s.ringFull q = false ∧ s.ringMode q = true ∧ s.flag QX_resv q = false ∧ s.credits (s.qRing q) = 0 ∧ s.flag QM_QCTX_STATUS_cq_stall q = false) ∧
    (∃ q : Nat, ∃ e : List Byte, ∃ l : List (List Byte), ∃ s : State, s.mayFetch q = true ∧ s.qState q = qsActive ∧ s.fetchedOf q = e :: l ∧ s.flag QX_mwait q = false ∧ s.ringFull q = false ∧ (¬(s.ringMode q = true ∧ s.flag QX_resv q = false ∧ s.credits (s.qRing q) = 0)) ∧ ((if ((if s.ringMode q = true ∧ s.flag QX_resv q = false then ((s.takeCredit (s.qRing q)).put QX_resv q true).put QM_QCTX_STATUS_cq_stall q false else s)).flag QX_jrnl q = true then ((if s.ringMode q = true ∧ s.flag QX_resv q = false then ((s.takeCredit (s.qRing q)).put QX_resv q true).put QM_QCTX_STATUS_cq_stall q false else s)) else (((if s.ringMode q = true ∧ s.flag QX_resv q = false then ((s.takeCredit (s.qRing q)).put QX_resv q true).put QM_QCTX_STATUS_cq_stall q false else s)).firnAppend (.accept q { idx := ((if s.ringMode q = true ∧ s.flag QX_resv q = false then ((s.takeCredit (s.qRing q)).put QX_resv q true).put QM_QCTX_STATUS_cq_stall q false else s)).qCons q, seq := ((if s.ringMode q = true ∧ s.flag QX_resv q = false then ((s.takeCredit (s.qRing q)).put QX_resv q true).put QM_QCTX_STATUS_cq_stall q false else s)).get QM_QCTX_SEQ_acc_seq q, tag := weTag e } (((if s.ringMode q = true ∧ s.flag QX_resv q = false then ((s.takeCredit (s.qRing q)).put QX_resv q true).put QM_QCTX_STATUS_cq_stall q false else s)).qOwner q) (((if s.ringMode q = true ∧ s.flag QX_resv q = false then ((s.takeCredit (s.qRing q)).put QX_resv q true).put QM_QCTX_STATUS_cq_stall q false else s)).get QM_QCTX_BASE_base q) (((if s.ringMode q = true ∧ s.flag QX_resv q = false then ((s.takeCredit (s.qRing q)).put QX_resv q true).put QM_QCTX_STATUS_cq_stall q false else s)).get QM_QCTX_CTRL_log2size q) (((if s.ringMode q = true ∧ s.flag QX_resv q = false then ((s.takeCredit (s.qRing q)).put QX_resv q true).put QM_QCTX_STATUS_cq_stall q false else s)).get QM_QCTX_CTRL_cmode q) (((if s.ringMode q = true ∧ s.flag QX_resv q = false then ((s.takeCredit (s.qRing q)).put QX_resv q true).put QM_QCTX_STATUS_cq_stall q false else s)).qRing q) (((if s.ringMode q = true ∧ s.flag QX_resv q = false then ((s.takeCredit (s.qRing q)).put QX_resv q true).put QM_QCTX_STATUS_cq_stall q false else s)).mirrored q))).put QX_jrnl q true)).mirrored q = false ∧ ((if ((if s.ringMode q = true ∧ s.flag QX_resv q = false then ((s.takeCredit (s.qRing q)).put QX_resv q true).put QM_QCTX_STATUS_cq_stall q false else s)).flag QX_jrnl q = true then ((if s.ringMode q = true ∧ s.flag QX_resv q = false then ((s.takeCredit (s.qRing q)).put QX_resv q true).put QM_QCTX_STATUS_cq_stall q false else s)) else (((if s.ringMode q = true ∧ s.flag QX_resv q = false then ((s.takeCredit (s.qRing q)).put QX_resv q true).put QM_QCTX_STATUS_cq_stall q false else s)).firnAppend (.accept q { idx := ((if s.ringMode q = true ∧ s.flag QX_resv q = false then ((s.takeCredit (s.qRing q)).put QX_resv q true).put QM_QCTX_STATUS_cq_stall q false else s)).qCons q, seq := ((if s.ringMode q = true ∧ s.flag QX_resv q = false then ((s.takeCredit (s.qRing q)).put QX_resv q true).put QM_QCTX_STATUS_cq_stall q false else s)).get QM_QCTX_SEQ_acc_seq q, tag := weTag e } (((if s.ringMode q = true ∧ s.flag QX_resv q = false then ((s.takeCredit (s.qRing q)).put QX_resv q true).put QM_QCTX_STATUS_cq_stall q false else s)).qOwner q) (((if s.ringMode q = true ∧ s.flag QX_resv q = false then ((s.takeCredit (s.qRing q)).put QX_resv q true).put QM_QCTX_STATUS_cq_stall q false else s)).get QM_QCTX_BASE_base q) (((if s.ringMode q = true ∧ s.flag QX_resv q = false then ((s.takeCredit (s.qRing q)).put QX_resv q true).put QM_QCTX_STATUS_cq_stall q false else s)).get QM_QCTX_CTRL_log2size q) (((if s.ringMode q = true ∧ s.flag QX_resv q = false then ((s.takeCredit (s.qRing q)).put QX_resv q true).put QM_QCTX_STATUS_cq_stall q false else s)).get QM_QCTX_CTRL_cmode q) (((if s.ringMode q = true ∧ s.flag QX_resv q = false then ((s.takeCredit (s.qRing q)).put QX_resv q true).put QM_QCTX_STATUS_cq_stall q false else s)).qRing q) (((if s.ringMode q = true ∧ s.flag QX_resv q = false then ((s.takeCredit (s.qRing q)).put QX_resv q true).put QM_QCTX_STATUS_cq_stall q false else s)).mirrored q))).put QX_jrnl q true)).syncing = false) ∧
    (∃ q : Nat, ∃ e : List Byte, ∃ l : List (List Byte), ∃ s : State, s.mayFetch q = true ∧ s.qState q = qsActive ∧ s.fetchedOf q = e :: l ∧ s.flag QX_mwait q = false ∧ s.ringFull q = false ∧ (¬(s.ringMode q = true ∧ s.flag QX_resv q = false ∧ s.credits (s.qRing q) = 0)) ∧ ((if ((if s.ringMode q = true ∧ s.flag QX_resv q = false then ((s.takeCredit (s.qRing q)).put QX_resv q true).put QM_QCTX_STATUS_cq_stall q false else s)).flag QX_jrnl q = true then ((if s.ringMode q = true ∧ s.flag QX_resv q = false then ((s.takeCredit (s.qRing q)).put QX_resv q true).put QM_QCTX_STATUS_cq_stall q false else s)) else (((if s.ringMode q = true ∧ s.flag QX_resv q = false then ((s.takeCredit (s.qRing q)).put QX_resv q true).put QM_QCTX_STATUS_cq_stall q false else s)).firnAppend (.accept q { idx := ((if s.ringMode q = true ∧ s.flag QX_resv q = false then ((s.takeCredit (s.qRing q)).put QX_resv q true).put QM_QCTX_STATUS_cq_stall q false else s)).qCons q, seq := ((if s.ringMode q = true ∧ s.flag QX_resv q = false then ((s.takeCredit (s.qRing q)).put QX_resv q true).put QM_QCTX_STATUS_cq_stall q false else s)).get QM_QCTX_SEQ_acc_seq q, tag := weTag e } (((if s.ringMode q = true ∧ s.flag QX_resv q = false then ((s.takeCredit (s.qRing q)).put QX_resv q true).put QM_QCTX_STATUS_cq_stall q false else s)).qOwner q) (((if s.ringMode q = true ∧ s.flag QX_resv q = false then ((s.takeCredit (s.qRing q)).put QX_resv q true).put QM_QCTX_STATUS_cq_stall q false else s)).get QM_QCTX_BASE_base q) (((if s.ringMode q = true ∧ s.flag QX_resv q = false then ((s.takeCredit (s.qRing q)).put QX_resv q true).put QM_QCTX_STATUS_cq_stall q false else s)).get QM_QCTX_CTRL_log2size q) (((if s.ringMode q = true ∧ s.flag QX_resv q = false then ((s.takeCredit (s.qRing q)).put QX_resv q true).put QM_QCTX_STATUS_cq_stall q false else s)).get QM_QCTX_CTRL_cmode q) (((if s.ringMode q = true ∧ s.flag QX_resv q = false then ((s.takeCredit (s.qRing q)).put QX_resv q true).put QM_QCTX_STATUS_cq_stall q false else s)).qRing q) (((if s.ringMode q = true ∧ s.flag QX_resv q = false then ((s.takeCredit (s.qRing q)).put QX_resv q true).put QM_QCTX_STATUS_cq_stall q false else s)).mirrored q))).put QX_jrnl q true)).mirrored q = true ∧ ((if ((if s.ringMode q = true ∧ s.flag QX_resv q = false then ((s.takeCredit (s.qRing q)).put QX_resv q true).put QM_QCTX_STATUS_cq_stall q false else s)).flag QX_jrnl q = true then ((if s.ringMode q = true ∧ s.flag QX_resv q = false then ((s.takeCredit (s.qRing q)).put QX_resv q true).put QM_QCTX_STATUS_cq_stall q false else s)) else (((if s.ringMode q = true ∧ s.flag QX_resv q = false then ((s.takeCredit (s.qRing q)).put QX_resv q true).put QM_QCTX_STATUS_cq_stall q false else s)).firnAppend (.accept q { idx := ((if s.ringMode q = true ∧ s.flag QX_resv q = false then ((s.takeCredit (s.qRing q)).put QX_resv q true).put QM_QCTX_STATUS_cq_stall q false else s)).qCons q, seq := ((if s.ringMode q = true ∧ s.flag QX_resv q = false then ((s.takeCredit (s.qRing q)).put QX_resv q true).put QM_QCTX_STATUS_cq_stall q false else s)).get QM_QCTX_SEQ_acc_seq q, tag := weTag e } (((if s.ringMode q = true ∧ s.flag QX_resv q = false then ((s.takeCredit (s.qRing q)).put QX_resv q true).put QM_QCTX_STATUS_cq_stall q false else s)).qOwner q) (((if s.ringMode q = true ∧ s.flag QX_resv q = false then ((s.takeCredit (s.qRing q)).put QX_resv q true).put QM_QCTX_STATUS_cq_stall q false else s)).get QM_QCTX_BASE_base q) (((if s.ringMode q = true ∧ s.flag QX_resv q = false then ((s.takeCredit (s.qRing q)).put QX_resv q true).put QM_QCTX_STATUS_cq_stall q false else s)).get QM_QCTX_CTRL_log2size q) (((if s.ringMode q = true ∧ s.flag QX_resv q = false then ((s.takeCredit (s.qRing q)).put QX_resv q true).put QM_QCTX_STATUS_cq_stall q false else s)).get QM_QCTX_CTRL_cmode q) (((if s.ringMode q = true ∧ s.flag QX_resv q = false then ((s.takeCredit (s.qRing q)).put QX_resv q true).put QM_QCTX_STATUS_cq_stall q false else s)).qRing q) (((if s.ringMode q = true ∧ s.flag QX_resv q = false then ((s.takeCredit (s.qRing q)).put QX_resv q true).put QM_QCTX_STATUS_cq_stall q false else s)).mirrored q))).put QX_jrnl q true)).flag QX_mack q = false) ∧
    (∃ q : Nat, ∃ e : List Byte, ∃ l : List (List Byte), ∃ s : State, s.wf = true ∧ s.fetchedOf q = e :: l) ∧
    (∃ q : Nat, ∃ e : List Byte, ∃ l : List (List Byte), ∃ s : State, s.wf = true ∧ s.fetchedOf q = e :: l ∧ (entryBad ((((((((((((s.setFetched q l).setEnts q (s.entsOf q ++ [ { idx := s.qCons q, seq := s.get QM_QCTX_SEQ_acc_seq q, bytes := e, frags := [], tab := weIndirect e, way := false, done := none, mirr := false, acc := s.now }])).set QM_QCTX_START_cons q (s.qCons q + 1)).inc QM_QCTX_SEQ_acc_seq q).put QX_resv q false).put QX_jrnl q false).put QX_mwait q false).put QX_mack q false).set QM_QCTX_START_done q (((((((((s.setFetched q l).setEnts q (s.entsOf q ++ [ { idx := s.qCons q, seq := s.get QM_QCTX_SEQ_acc_seq q, bytes := e, frags := [], tab := weIndirect e, way := false, done := none, mirr := false, acc := s.now }])).set QM_QCTX_START_cons q (s.qCons q + 1)).inc QM_QCTX_SEQ_acc_seq q).put QX_resv q false).put QX_jrnl q false).put QX_mwait q false).put QX_mack q false).firstOpen q)).pmu 0 3 1).writeback q false false).qClass q) e = true ∨ (((((((((((s.setFetched q l).setEnts q (s.entsOf q ++ [ { idx := s.qCons q, seq := s.get QM_QCTX_SEQ_acc_seq q, bytes := e, frags := [], tab := weIndirect e, way := false, done := none, mirr := false, acc := s.now }])).set QM_QCTX_START_cons q (s.qCons q + 1)).inc QM_QCTX_SEQ_acc_seq q).put QX_resv q false).put QX_jrnl q false).put QX_mwait q false).put QX_mack q false).set QM_QCTX_START_done q (((((((((s.setFetched q l).setEnts q (s.entsOf q ++ [ { idx := s.qCons q, seq := s.get QM_QCTX_SEQ_acc_seq q, bytes := e, frags := [], tab := weIndirect e, way := false, done := none, mirr := false, acc := s.now }])).set QM_QCTX_START_cons q (s.qCons q + 1)).inc QM_QCTX_SEQ_acc_seq q).put QX_resv q false).put QX_jrnl q false).put QX_mwait q false).put QX_mack q false).firstOpen q)).pmu 0 3 1).writeback q false false).entryStream q e = true)) ∧
    (∃ (q : Nat) (e : List Byte) (l : List (List Byte)) (s u : State), s.wf = true ∧ s.fetchedOf q = e :: l ∧ weIndirect e = false ∧
  entryBad (s.qClass q) e = false ∧ u = (((((((s.setFetched q l).setEnts q (s.entsOf q ++ [
      { idx := s.qCons q, seq := s.get QM_QCTX_SEQ_acc_seq q, bytes := e, frags := [], tab := false, way := false, done := none,
        mirr := false, acc := s.now }])).set QM_QCTX_START_cons q (s.qCons q + 1)).inc QM_QCTX_SEQ_acc_seq q).put QX_resv q false).put
      QX_jrnl q false).put QX_mwait q false).put QX_mack q false ∧
  (((u.set QM_QCTX_START_done q (u.firstOpen q)).pmu 0 3 1).writeback q false false).entryStream q e = false ∧
  (((u.set QM_QCTX_START_done q (u.firstOpen q)).pmu 0 3 1).writeback q false false).entryDenied q e = false ∧
  (((u.set QM_QCTX_START_done q (u.firstOpen q)).pmu 0 3 1).writeback q false false).qClass q = s.qClass q) ∧
    (∃ q : Nat, ∃ e : List Byte, ∃ l : List (List Byte), ∃ s : State, s.wf = true ∧ s.fetchedOf q = e :: l ∧ entryBad ((((((((((((s.setFetched q l).setEnts q (s.entsOf q ++ [ { idx := s.qCons q, seq := s.get QM_QCTX_SEQ_acc_seq q, bytes := e, frags := [], tab := weIndirect e, way := false, done := none, mirr := false, acc := s.now }])).set QM_QCTX_START_cons q (s.qCons q + 1)).inc QM_QCTX_SEQ_acc_seq q).put QX_resv q false).put QX_jrnl q false).put QX_mwait q false).put QX_mack q false).set QM_QCTX_START_done q (((((((((s.setFetched q l).setEnts q (s.entsOf q ++ [ { idx := s.qCons q, seq := s.get QM_QCTX_SEQ_acc_seq q, bytes := e, frags := [], tab := weIndirect e, way := false, done := none, mirr := false, acc := s.now }])).set QM_QCTX_START_cons q (s.qCons q + 1)).inc QM_QCTX_SEQ_acc_seq q).put QX_resv q false).put QX_jrnl q false).put QX_mwait q false).put QX_mack q false).firstOpen q)).pmu 0 3 1).writeback q false false).qClass q) e = false ∧ (((((((((((s.setFetched q l).setEnts q (s.entsOf q ++ [ { idx := s.qCons q, seq := s.get QM_QCTX_SEQ_acc_seq q, bytes := e, frags := [], tab := weIndirect e, way := false, done := none, mirr := false, acc := s.now }])).set QM_QCTX_START_cons q (s.qCons q + 1)).inc QM_QCTX_SEQ_acc_seq q).put QX_resv q false).put QX_jrnl q false).put QX_mwait q false).put QX_mack q false).set QM_QCTX_START_done q (((((((((s.setFetched q l).setEnts q (s.entsOf q ++ [ { idx := s.qCons q, seq := s.get QM_QCTX_SEQ_acc_seq q, bytes := e, frags := [], tab := weIndirect e, way := false, done := none, mirr := false, acc := s.now }])).set QM_QCTX_START_cons q (s.qCons q + 1)).inc QM_QCTX_SEQ_acc_seq q).put QX_resv q false).put QX_jrnl q false).put QX_mwait q false).put QX_mack q false).firstOpen q)).pmu 0 3 1).writeback q false false).entryStream q e = false ∧ (((((((((((s.setFetched q l).setEnts q (s.entsOf q ++ [ { idx := s.qCons q, seq := s.get QM_QCTX_SEQ_acc_seq q, bytes := e, frags := [], tab := weIndirect e, way := false, done := none, mirr := false, acc := s.now }])).set QM_QCTX_START_cons q (s.qCons q + 1)).inc QM_QCTX_SEQ_acc_seq q).put QX_resv q false).put QX_jrnl q false).put QX_mwait q false).put QX_mack q false).set QM_QCTX_START_done q (((((((((s.setFetched q l).setEnts q (s.entsOf q ++ [ { idx := s.qCons q, seq := s.get QM_QCTX_SEQ_acc_seq q, bytes := e, frags := [], tab := weIndirect e, way := false, done := none, mirr := false, acc := s.now }])).set QM_QCTX_START_cons q (s.qCons q + 1)).inc QM_QCTX_SEQ_acc_seq q).put QX_resv q false).put QX_jrnl q false).put QX_mwait q false).put QX_mack q false).firstOpen q)).pmu 0 3 1).writeback q false false).entryDenied q e = false ∧ weIndirect e = false) ∧
    (∃ q : Nat, ∃ e : List Byte, ∃ l : List (List Byte), ∃ s : State, s.wf = true ∧ s.fetchedOf q = e :: l ∧ entryBad ((((((((((((s.setFetched q l).setEnts q (s.entsOf q ++ [ { idx := s.qCons q, seq := s.get QM_QCTX_SEQ_acc_seq q, bytes := e, frags := [], tab := weIndirect e, way := false, done := none, mirr := false, acc := s.now }])).set QM_QCTX_START_cons q (s.qCons q + 1)).inc QM_QCTX_SEQ_acc_seq q).put QX_resv q false).put QX_jrnl q false).put QX_mwait q false).put QX_mack q false).set QM_QCTX_START_done q (((((((((s.setFetched q l).setEnts q (s.entsOf q ++ [ { idx := s.qCons q, seq := s.get QM_QCTX_SEQ_acc_seq q, bytes := e, frags := [], tab := weIndirect e, way := false, done := none, mirr := false, acc := s.now }])).set QM_QCTX_START_cons q (s.qCons q + 1)).inc QM_QCTX_SEQ_acc_seq q).put QX_resv q false).put QX_jrnl q false).put QX_mwait q false).put QX_mack q false).firstOpen q)).pmu 0 3 1).writeback q false false).qClass q) e = false ∧ (((((((((((s.setFetched q l).setEnts q (s.entsOf q ++ [ { idx := s.qCons q, seq := s.get QM_QCTX_SEQ_acc_seq q, bytes := e, frags := [], tab := weIndirect e, way := false, done := none, mirr := false, acc := s.now }])).set QM_QCTX_START_cons q (s.qCons q + 1)).inc QM_QCTX_SEQ_acc_seq q).put QX_resv q false).put QX_jrnl q false).put QX_mwait q false).put QX_mack q false).set QM_QCTX_START_done q (((((((((s.setFetched q l).setEnts q (s.entsOf q ++ [ { idx := s.qCons q, seq := s.get QM_QCTX_SEQ_acc_seq q, bytes := e, frags := [], tab := weIndirect e, way := false, done := none, mirr := false, acc := s.now }])).set QM_QCTX_START_cons q (s.qCons q + 1)).inc QM_QCTX_SEQ_acc_seq q).put QX_resv q false).put QX_jrnl q false).put QX_mwait q false).put QX_mack q false).firstOpen q)).pmu 0 3 1).writeback q false false).entryStream q e = false ∧ (((((((((((s.setFetched q l).setEnts q (s.entsOf q ++ [ { idx := s.qCons q, seq := s.get QM_QCTX_SEQ_acc_seq q, bytes := e, frags := [], tab := weIndirect e, way := false, done := none, mirr := false, acc := s.now }])).set QM_QCTX_START_cons q (s.qCons q + 1)).inc QM_QCTX_SEQ_acc_seq q).put QX_resv q false).put QX_jrnl q false).put QX_mwait q false).put QX_mack q false).set QM_QCTX_START_done q (((((((((s.setFetched q l).setEnts q (s.entsOf q ++ [ { idx := s.qCons q, seq := s.get QM_QCTX_SEQ_acc_seq q, bytes := e, frags := [], tab := weIndirect e, way := false, done := none, mirr := false, acc := s.now }])).set QM_QCTX_START_cons q (s.qCons q + 1)).inc QM_QCTX_SEQ_acc_seq q).put QX_resv q false).put QX_jrnl q false).put QX_mwait q false).put QX_mack q false).firstOpen q)).pmu 0 3 1).writeback q false false).entryDenied q e = false ∧ weIndirect e = true) ∧
    (∃ q : Nat, ∃ idx : Nat, ∃ t : List Byte, ∃ e : Ent, ∃ s : State, s.entAt q idx = some e ∧ e.tab = true ∧ e.done = none ∧ e.mirr = false ∧ fragsOk t (weNfrag e.bytes) (entryLen (s.qClass q) e.bytes) = true) ∧
    (∃ q : Nat, ∃ idx : Nat, ∃ t : List Byte, ∃ e : Ent, ∃ s : State, s.entAt q idx = some e ∧ e.tab = true ∧ e.done = none ∧ e.mirr = false ∧ fragsOk t (weNfrag e.bytes) (entryLen (s.qClass q) e.bytes) = false) :=
  ⟨⟨0, txEntry, [], { (qst [(GLB_STATE_state, 0, dsService), (QM_QCTX_STATUS_state, 0, qsActive), (QX_mwait, 0, 0), (QX_resv, 0, 0), (QM_QCTX_STATUS_cq_stall, 0, 0), (QM_QCTX_STATUS_state, 0, qsActive), (QM_QCTX_CTRL_cmode, 0, 1), (QM_CRCTX_CTRL_log2size, 0, 6), (QM_CRCTX_IDX_resv, 0, 64)]) with fetched := [(0, [txEntry])] }, by decide +kernel⟩,
   ⟨0, txEntry, [], { (qst [(GLB_STATE_state, 0, dsService), (QM_QCTX_STATUS_state, 0, qsActive), (QX_mwait, 0, 0), (QM_QCTX_STATUS_state, 0, qsActive)]) with fetched := [(0, [txEntry])] }, by decide +kernel⟩,
   ⟨0, txEntry, [], { (qst [(GLB_STATE_state, 0, dsService), (QM_QCTX_STATUS_state, 0, qsActive), (QX_mwait, 0, 0), (QM_QCTX_STATUS_state, 0, qsActive), (TWN_STATUS_state, 0, twHealthy), (TWN_QMASK_mir, 0, 1)]) with fetched := [(0, [txEntry])] }, by decide +kernel⟩,
   ⟨0, txEntry, [], { (qst [(GLB_STATE_state, 0, dsService)]) with fetched := [(0, [txEntry])] }, by decide +kernel⟩,
   ⟨0, [0#8] ++ List.replicate 63 0#8, [], { (qst [(GLB_STATE_state, 0, dsService)]) with fetched := [(0, [[0#8] ++ List.replicate 63 0#8])] }, by decide +kernel⟩,
   ⟨0, txEntry, [], { (qst [(GLB_STATE_state, 0, dsService)]) with fetched := [(0, [txEntry])] }, _, by decide +kernel, by decide +kernel, by decide +kernel, by decide +kernel, rfl, by decide +kernel, by decide +kernel, by decide +kernel⟩,
   ⟨0, txEntry, [], { (qst [(GLB_STATE_state, 0, dsService)]) with fetched := [(0, [txEntry])] }, by decide +kernel⟩,
   ⟨0, [0x01#8, 0x01#8, 0x01#8, 0#8] ++ List.replicate 12 0#8 ++ [0x40#8] ++ List.replicate 47 0#8, [], { (qst [(GLB_STATE_state, 0, dsService)]) with fetched := [(0, [[0x01#8, 0x01#8, 0x01#8, 0#8] ++ List.replicate 12 0#8 ++ [0x40#8] ++ List.replicate 47 0#8])] }, by decide +kernel⟩,
   ⟨0, 3, [0#8, 0#8, 0#8, 0#8, 0#8, 0#8, 0#8, 0#8, 0x40#8, 0#8, 0#8, 0#8, 0x01#8, 0#8, 0#8, 0#8], fragEnt, { (qst [(GLB_STATE_state, 0, dsService)]) with ents := [(0, [fragEnt])] }, by decide +kernel⟩,
   ⟨0, 3, [], fragEnt, { (qst [(GLB_STATE_state, 0, dsService)]) with ents := [(0, [fragEnt])] }, by decide +kernel⟩⟩

theorem wit_QueueStates :
    (∃ w : Who, ∃ q : Nat, ∃ s : State, s.busOpen w = true ∧ ownerMay w (s.qOwner q) = true ∧ s.qState q = qsDisabled ∧ s.enableBad q = false) ∧
    (∃ w : Who, ∃ q : Nat, ∃ s : State, s.busOpen w = true ∧ ownerMay w (s.qOwner q) = true ∧ s.qState q = qsDisabled ∧ s.enableBad q = true) ∧
    (∃ w : Who, ∃ q : Nat, ∃ s : State, s.busOpen w = true ∧ ownerMay w (s.qOwner q) = true ∧ (s.qState q = qsActive ∨ s.qState q = qsDormant)) ∧
    (∃ w : Who, ∃ q : Nat, ∃ s : State, s.busOpen w = true ∧ ownerMay w (s.qOwner q) = true ∧ (s.qState q = qsFrozen ∨ s.qState q = qsError) ∧ ((s.put QX_offreq q true).pump q).mayOff q = true) ∧
    (∃ w : Who, ∃ q : Nat, ∃ s : State, s.busOpen w = true ∧ ownerMay w (s.qOwner q) = true ∧ s.qState q = qsDisabled ∧ s.flag QM_QCTX_STATUS_recov_pend q = false) ∧
    (∃ w : Who, ∃ q : Nat, ∃ s : State, s.busOpen w = true ∧ ownerMay w (s.qOwner q) = true ∧ s.qState q ≠ qsDisabled) ∧
    (∃ q : Nat, ∃ s : State, s.entsOf q = [] ∧ s.fnHeld (s.qOwner q) = false ∧ s.masterStop = false ∧ s.qState q = qsDraining) ∧
    (∃ q : Nat, ∃ s : State, s.flag QM_QCTX_STATUS_cq_stall q = true ∧ s.flag QX_stallev q = false ∧ s.get QM_CFG_cq_stall_limit 0 ≠ 0 ∧ s.credits (s.qRing q) = 0) :=
  ⟨⟨.fw 0, 0, qst [(GLB_STATE_state, 0, dsService), (QM_QCTX_STATUS_state, 0, qsDisabled)], by decide +kernel⟩,
   ⟨.fw 0, 0, qst [(GLB_STATE_state, 0, dsService), (QM_QCTX_STATUS_state, 0, qsDisabled), (QM_QCTX_CTRL_log2size, 0, 5)], by decide +kernel⟩,
   ⟨.fw 0, 0, qst [(GLB_STATE_state, 0, dsService), (QM_QCTX_STATUS_state, 0, qsActive)], by decide +kernel⟩,
   ⟨.fw 0, 0, qst [(GLB_STATE_state, 0, dsService), (QM_QCTX_STATUS_state, 0, qsError)], by decide +kernel⟩,
   ⟨.fw 0, 0, qst [(GLB_STATE_state, 0, dsService), (QM_QCTX_STATUS_state, 0, qsDisabled), (QM_QCTX_STATUS_recov_pend, 0, 0)], by decide +kernel⟩,
   ⟨.fw 0, 0, qst [(GLB_STATE_state, 0, dsService), (QM_QCTX_STATUS_state, 0, qsActive)], by decide +kernel⟩,
   ⟨0, qst [(GLB_STATE_state, 0, dsService), (QM_QCTX_STATUS_state, 0, qsDraining)], by decide +kernel⟩,
   ⟨0, qst [(GLB_STATE_state, 0, dsService), (QM_QCTX_STATUS_cq_stall, 0, 1), (QX_stallev, 0, 0), (QM_CFG_cq_stall_limit, 0, 1), (QM_CRCTX_CTRL_log2size, 0, 6), (QM_CRCTX_IDX_resv, 0, 64)], by decide +kernel⟩⟩

theorem wit_CompletionRings :
    (∃ w : Who, ∃ r : Nat, ∃ s : State, s.busOpen w = true ∧ ownerMay w (s.get QM_CRCTX_CTRL_gfn r) = true ∧ s.flag QM_CRCTX_CTRL_en r = false ∧ 6 ≤ s.get QM_CRCTX_CTRL_log2size r ∧ s.get QM_CRCTX_CTRL_log2size r ≤ 15 ∧ s.fnExists (s.get QM_CRCTX_CTRL_gfn r) = true ∧ s.flag FLT_ring r = false) ∧
    (∃ w : Who, ∃ r : Nat, ∃ s : State, s.busOpen w = true ∧ ownerMay w (s.get QM_CRCTX_CTRL_gfn r) = true ∧ s.flag QM_CRCTX_CTRL_en r = true ∧ s.queuesOfRing r = []) ∧
    (∃ w : Who, ∃ r : Nat, ∃ s : State, s.busOpen w = true ∧ ownerMay w (s.get QM_CRCTX_CTRL_gfn r) = true ∧ s.flag QM_CRCTX_CTRL_en r = true ∧ s.queuesOfRing r ≠ []) ∧
    (∃ r : Nat, ∃ bs : List Byte, ∃ s : State, s.flag RX_read r = true ∧ ((s.put RX_read r false).get QM_CRCTX_IDX_prod r + 65536 - leAt bs 0 2) % 65536 ≤ (s.put RX_read r false).ringSize r ∧ ((s.put RX_read r false).set RX_cons r (leAt bs 0 2)).evPfs r = [] ∧ (((s.put RX_read r false).set RX_cons r (leAt bs 0 2)).queuesOfRing r).filter (fun q => !(SM.get [] ((s.put RX_read r false).set RX_cons r (leAt bs 0 2)).recov q).isEmpty) = []) ∧
    (∃ r : Nat, ∃ bs : List Byte, ∃ s : State, s.flag RX_read r = true ∧ (s.put RX_read r false).ringSize r < ((s.put RX_read r false).get QM_CRCTX_IDX_prod r + 65536 - leAt bs 0 2) % 65536) ∧
    (∃ w : Who, ∃ pf : Nat, ∃ v : Nat, ∃ s : State, s.busOpen w = true ∧ evMay w pf = true ∧ s.get QM_CRCTX_CTRL_gfn (v % 2 ^ 16) = pf ∧ v.testBit 31 = true) ∧
    (∃ pf : Nat, ∃ s : State, s.evOpen pf = true ∧ SM.get [] s.backlog pf ≠ []) ∧
    (∃ r : Nat, ∃ s : State, 4 * (s.inc QM_CRCTX_IDX_resv r).credits r < (s.inc QM_CRCTX_IDX_resv r).ringSize r ∧ (s.inc QM_CRCTX_IDX_resv r).flag RX_read r = false) ∧
    (∃ r : Nat, ∃ s : State, ((s.inc QM_CRCTX_IDX_resv r).ringSize r ≤ 4 * (s.inc QM_CRCTX_IDX_resv r).credits r ∨ (s.inc QM_CRCTX_IDX_resv r).flag RX_read r = true)) ∧
    (∃ r : Nat, ∃ rec : List Byte, ∃ s : State, ((s.hostWrite (s.get QM_CRCTX_CTRL_gfn r) (s.get QM_CRCTX_BASE_base r * 4096 + 32 * (s.get QM_CRCTX_IDX_prod r % 2 ^ s.get QM_CRCTX_CTRL_log2size r)) (rec.take 31 ++ [BitVec.ofNat 8 (byteAt rec 31 % 128 + 128 * (s.get QM_CRCTX_IDX_prod r / 2 ^ s.get QM_CRCTX_CTRL_log2size r % 2))]) false false).set QM_CRCTX_IDX_prod r (s.get QM_CRCTX_IDX_prod r + 1)).flag QM_CRCTX_IRQ_irq_en r = false) :=
  ⟨⟨.fw 0, 0, qst [(GLB_STATE_state, 0, dsService), (QM_CRCTX_CTRL_en, 0, 0), (FLT_ring, 0, 0), (QM_CRCTX_CTRL_log2size, 0, 15), (QM_CRCTX_CTRL_gfn, 0, 0)], by decide +kernel⟩,
   ⟨.fw 0, 0, qst [(GLB_STATE_state, 0, dsService), (QM_CRCTX_CTRL_en, 0, 1)], by decide +kernel⟩,
   ⟨.fw 0, 0, qst [(GLB_STATE_state, 0, dsService), (QM_CRCTX_CTRL_en, 0, 1), (QM_QCTX_STATUS_state, 0, qsActive), (QM_QCTX_CTRL_cmode, 0, 1)], by decide +kernel⟩,
   ⟨0, [], qst [(GLB_STATE_state, 0, dsService), (RX_read, 0, 1)], by decide +kernel⟩,
   ⟨0, [], qst [(GLB_STATE_state, 0, dsService), (RX_read, 0, 1), (QM_CRCTX_CTRL_log2size, 0, 6), (QM_CRCTX_IDX_prod, 0, 65)], by decide +kernel⟩,
   ⟨.fw 0, 0, 0x8000FFFF, st [(GLB_STATE_state, 0, dsService), (QM_CRCTX_CTRL_gfn, (0x8000FFFF % 2 ^ 16), 0), (QM_CRCTX_CTRL_gfn, 65535, 0)], by decide +kernel⟩,
   ⟨0, { (qst [(GLB_STATE_state, 0, dsService), (QM_EVRING_en, 0, 1), (QM_CRCTX_CTRL_en, 0, 1), (QM_CRCTX_CTRL_gfn, 0, 0)]) with backlog := [(0, [[1#8]])] }, by decide +kernel⟩,
   ⟨0, qst [(GLB_STATE_state, 0, dsService)], by decide +kernel⟩,
   ⟨0, qst [(GLB_STATE_state, 0, dsService), (QM_CRCTX_CTRL_log2size, 0, 6)], by decide +kernel⟩,
   ⟨0, [], qst [(GLB_STATE_state, 0, dsService)], by decide +kernel⟩⟩

theorem wit_RegisterZeroIsHardwired : ∃ t : Nat, ∃ w : Nat, ∃ s : State, s.flag TH_bad t = false ∧ s.budgetDue t = false ∧ insnOk (isSup t) w = true ∧ s.predOk t w = true ∧ ((∀ r, r ∈ insnRegs w → r ≠ 0 → s.get TH_hz (32 * t + r) = 0)) :=
  ⟨0, (enc 0x10 0 0 0 0 0), st [(GLB_STATE_state, 0, dsService), (TH_bad, 0, 0)], by decide +kernel⟩

theorem wit_AluInstructionsCompute : (([0x10, 0x11, 0x12, 0x13, 0x14, 0x15, 0x16, 0x17, 0x18, 0x19, 0x1A, 0x1B, 0x1C, 0x1D, 0x1E, 0x1F, 0x20, 0x21, 0x22, 0x23].all
    (fun op => (thr 1 (enc op 31 3 (if op % 2 = 0 then 4 else 0) 3 (if op % 2 = 0 then 0 else 2 ^ 33 - 1)) []).runs 1 op)) = true ∧
  (thr 1 (enc 0x10 2 3 4 0 0) []).wf = true ∧ (thr 1 (enc 0x10 0 3 4 0 0) []).runs 1 0x10 = true) :=
  by decide +kernel

theorem wit_BitFieldInstructionsCompute :
    ((([(0x26, 4, 7, 0), (0x27, 0, 7, 2 ^ 33 - 1), (0x28, 0, 1, 64 * 8 + 56), (0x2A, 0, 3, 0), (0x2C, 0, 2, 0)] : List (Nat × Nat × Nat × Nat)).all
    (fun e => (thr 1 (enc e.1 31 3 e.2.1 e.2.2.1 e.2.2.2) []).runs 1 e.1)) = true) ∧
    (∃ t : Nat, ∃ s : State, s.wf = true ∧ s.runs t 0x29 = true) ∧
    (∃ t : Nat, ∃ s : State, s.wf = true ∧ s.runs t 0x2B = true) ∧
    (∃ t : Nat, ∃ s : State, s.wf = true ∧ s.runs t 0x2D = true) :=
  ⟨by decide +kernel,
   ⟨1, thr 1 (enc 0x29 2 3 0 0 (64 * 8 + 56)) [(GLB_STATE_state, 0, dsService), (TH_g, 32 + 3, 5), (TH_g, 32 + 4, 7)], by decide +kernel⟩,
   ⟨1, thr 1 (enc 0x2B 2 3 0 1 0) [(GLB_STATE_state, 0, dsService)], by decide +kernel⟩,
   ⟨1, thr 1 (enc 0x2D 2 3 4 0 0) [(GLB_STATE_state, 0, dsService)], by decide +kernel⟩⟩

theorem wit_ComparesWriteOneFlag : (thr 1 (enc 0x24 7 3 4 2 0) []).runs 1 0x24 = true ∧ (thr 1 (enc 0x25 31 3 0 1 (2 ^ 33 - 1)) []).runs 1 0x25 = true :=
  by decide +kernel

theorem wit_LoadsReadTheirBytes :
    (∃ t : Nat, ∃ s : State, s.wf = true ∧ s.runs t 0x40 = true ∧ (s.ea t (s.insn t)) ≠ 0xFFFF0000 ∧ s.devOff t (s.insn t) = none ∧ accOk (localSpace t) (s.ea t (s.insn t)) (accSize (s.insn t)) = true ∧ s.localDiffers t ((localSpace t).1 + (s.ea t (s.insn t))) (accSize (s.insn t)) = false) ∧
    (∃ t : Nat, ∃ s : State, s.wf = true ∧ s.runs t 0x40 = true ∧ (s.ea t (s.insn t)) ≠ 0xFFFF0000 ∧ s.devOff t (s.insn t) = none ∧ accOk (localSpace t) (s.ea t (s.insn t)) (accSize (s.insn t)) = false) ∧
    (∃ t : Nat, ∃ s : State, s.wf = true ∧ s.runs t 0x40 = true ∧ (s.ea t (s.insn t)) = 0xFFFF0000 ∧ iMod (s.insn t) = 3) ∧
    (∃ t : Nat, ∃ s : State, s.wf = true ∧ s.runs t 0x42 = true ∧ (s.ea t (s.insn t)) % (accSize (s.insn t)) = 0 ∧ (s.ea t (s.insn t)) + (accSize (s.insn t)) ≤ 1024) ∧
    (∃ t : Nat, ∃ s : State, s.wf = true ∧ s.runs t 0x42 = true ∧ (¬((s.ea t (s.insn t)) % (accSize (s.insn t)) = 0 ∧ (s.ea t (s.insn t)) + (accSize (s.insn t)) ≤ 1024))) ∧
    (∃ t : Nat, ∃ s : State, s.wf = true ∧ s.runs t 0x44 = true ∧ accOk (sharedSpace t) (s.ea t (s.insn t)) (accSize (s.insn t)) = true) :=
  ⟨⟨1, thr 1 (enc 0x40 2 3 0 3 16376) [(GLB_STATE_state, 0, dsService)], by decide +kernel⟩,
   ⟨1, thr 1 (enc 0x40 2 3 0 3 16384) [(GLB_STATE_state, 0, dsService)], by decide +kernel⟩,
   ⟨1, thr 1 (enc 0x40 2 3 0 3 0xFFFF0000) [(GLB_STATE_state, 0, dsService)], by decide +kernel⟩,
   ⟨1, thr 1 (enc 0x42 2 3 0 2 1020) [(GLB_STATE_state, 0, dsService)], by decide +kernel⟩,
   ⟨1, thr 1 (enc 0x42 2 3 0 2 1021) [(GLB_STATE_state, 0, dsService)], by decide +kernel⟩,
   ⟨1, thr 1 (enc 0x44 2 3 0 3 (2 ^ 21 - 8)) [(GLB_STATE_state, 0, dsService)], by decide +kernel⟩⟩

theorem wit_StoresWriteTheirBytes :
    (([0x41, 0x43, 0x45].all (fun op => (thr 1 (enc op 0 3 4 2 12) []).runs 1 op &&
    accOk (windowSpace 1) ((thr 1 (enc op 0 3 4 2 12) []).ea 1 (enc op 0 3 4 2 12)) 4)) = true ∧ (thr 1 (enc 0x41 0 3 4 2 12) []).wf = true ∧
  (thr 1 (enc 0x41 0 3 4 2 12) []).devOff 1 (enc 0x41 0 3 4 2 12) = none) ∧
    (([0x46, 0x47].all (fun op => (thr 1 (enc op 2 3 4 3 8) []).runs 1 op &&
    accOk (sharedSpace 1) ((thr 1 (enc op 2 3 4 3 8) []).ea 1 (enc op 2 3 4 3 8)) 8)) = true) :=
  ⟨by decide +kernel,
   by decide +kernel⟩

theorem wit_BranchesGoToTheirTargets :
    (∃ t : Nat, ∃ s : State, s.wf = true ∧ s.runs t 0x60 = true) ∧
    (∃ t : Nat, ∃ s : State, s.wf = true ∧ s.runs t 0x61 = true) ∧
    (∃ t : Nat, ∃ s : State, s.wf = true ∧ s.runs t 0x62 = true ∧ s.get TH_rsd t < 8) ∧
    (∃ t : Nat, ∃ s : State, s.wf = true ∧ s.runs t 0x62 = true ∧ 8 ≤ s.get TH_rsd t) ∧
    (∃ t : Nat, ∃ s : State, ∃ n, s.wf = true ∧ s.runs t 0x63 = true ∧ s.get TH_rsd t = n + 1 ∧ n < 8) ∧
    (∃ t : Nat, ∃ s : State, s.wf = true ∧ s.runs t 0x63 = true ∧ s.get TH_rsd t = 0 ∧ s.flag TH_res t = true ∧ s.tickets t = 0) ∧
    (∃ t : Nat, ∃ s : State, s.wf = true ∧ s.runs t 0x64 = true) :=
  ⟨⟨1, thr 1 (enc 0x60 0 0 0 0 32767) [(GLB_STATE_state, 0, dsService)], by decide +kernel⟩,
   ⟨1, thr 1 (enc 0x61 0 3 0 0 5) [(GLB_STATE_state, 0, dsService)], by decide +kernel⟩,
   ⟨1, thr 1 (enc 0x62 0 0 0 0 5) [(GLB_STATE_state, 0, dsService)], by decide +kernel⟩,
   ⟨1, thr 1 (enc 0x62 0 0 0 0 5) [(GLB_STATE_state, 0, dsService), (TH_rsd, 1, 8)], by decide +kernel⟩,
   ⟨1, thr 1 (enc 0x63 0 0 0 0 0) [(GLB_STATE_state, 0, dsService), (TH_rsd, 1, 7 + 1), (TH_rsd, 1, 8)], 7, by decide +kernel⟩,
   ⟨1, thr 1 (enc 0x63 0 0 0 0 0) [(GLB_STATE_state, 0, dsService), (TH_rsd, 1, 0), (TH_res, 1, 1), (TH_res, 1, 1)], by decide +kernel⟩,
   ⟨1, thr 1 (enc 0x64 0 3 0 0 5) [(GLB_STATE_state, 0, dsService)], by decide +kernel⟩⟩

theorem wit_EventsAndTimeOfThreads :
    (∃ t : Nat, ∃ s : State, s.runs t 0x70 = true ∧ ((s.slotPass t).waitTimer t (s.insn t)).get TH_ev t &&& waitMask (s.insn t) ≠ 0) ∧
    (∃ t : Nat, ∃ s : State, s.runs t 0x70 = true ∧ ((s.slotPass t).waitTimer t (s.insn t)).get TH_ev t &&& waitMask (s.insn t) = 0) ∧
    (∃ t : Nat, ∃ s : State, s.runs t 0x71 = true ∧ t < 4096 ∧ (((s.slotPass t).tg t (iS1 (s.insn t)) + iSx (s.insn t)) % 2 ^ 64) < 256) ∧
    (∃ t : Nat, ∃ s : State, s.runs t 0x71 = true ∧ 4096 ≤ t ∧ (((s.slotPass t).tg t (iS1 (s.insn t)) + iSx (s.insn t)) % 2 ^ 64) < 64) ∧
    (∃ t : Nat, ∃ s : State, s.runs t 0x71 = true ∧ 256 ≤ (((s.slotPass t).tg t (iS1 (s.insn t)) + iSx (s.insn t)) % 2 ^ 64)) ∧
    (∃ t : Nat, ∃ s : State, s.runs t 0x72 = true ∧ reached48 (s.slotPass t).now ((s.slotPass t).tg t (iS1 (s.insn t)) % 2 ^ 48) = true) ∧
    (∃ t : Nat, ∃ s : State, s.runs t 0x72 = true ∧ reached48 (s.slotPass t).now ((s.slotPass t).tg t (iS1 (s.insn t)) % 2 ^ 48) = false) ∧
    (∃ t : Nat, ∃ s : State, s.runs t 0x73 = true) ∧
    (∃ t : Nat, ∃ s : State, s.issues t = true ∧ s.get TH_wait t = 2 ∧ (((s.get TH_left t) ≤ 1 ∨ (s.get TH_ev t &&& waitMask (s.insn t) = 0 ∧ (s.set TH_slots t (s.get TH_slots t + ((s.get TH_left t) - 2))).budgetDue t = false)))) :=
  ⟨⟨1, thr 1 (enc 0x70 2 0 0 0 1) [(GLB_STATE_state, 0, dsService), (TH_ev, 1, 1)], by decide +kernel⟩,
   ⟨1, thr 1 (enc 0x70 2 0 0 0 1) [(GLB_STATE_state, 0, dsService)], by decide +kernel⟩,
   ⟨1, thr 1 (enc 0x71 0 3 0 0 255) [(GLB_STATE_state, 0, dsService)], by decide +kernel⟩,
   ⟨4097, thr 4097 (enc 0x71 0 3 0 0 63) [(GLB_STATE_state, 0, dsService)], by decide +kernel⟩,
   ⟨1, thr 1 (enc 0x71 0 3 0 0 256) [(GLB_STATE_state, 0, dsService)], by decide +kernel⟩,
   ⟨1, thr 1 (enc 0x72 2 3 0 0 0) [(GLB_STATE_state, 0, dsService)], by decide +kernel⟩,
   ⟨1, thr 1 (enc 0x72 2 3 0 0 0) [(GLB_STATE_state, 0, dsService), (TH_g, 32 + 3, 9)], by decide +kernel⟩,
   ⟨1, thr 1 (enc 0x73 2 0 0 0 0) [(GLB_STATE_state, 0, dsService)], by decide +kernel⟩,
   ⟨1, thr 1 (enc 0x70 2 0 0 0 1) [(GLB_STATE_state, 0, dsService), (TH_wait, 1, 2)], by decide +kernel⟩⟩

theorem wit_StagingTicketsAndRelease :
    (∃ t : Nat, ∃ s : State, s.runs t 0x80 = true) ∧
    (∃ t : Nat, ∃ s : State, s.runs t 0x82 = true ∧ (s.slotPass t).flag TH_rok (4 * t + iMod (s.insn t)) = true) ∧
    (∃ t : Nat, ∃ s : State, s.runs t 0x82 = true ∧ (s.slotPass t).flag TH_rok (4 * t + iMod (s.insn t)) = false) ∧
    (∃ t : Nat, ∃ s : State, s.runs t 0x84 = true ∧ (s.slotPass t).tickets t < 2) ∧
    (∃ t : Nat, ∃ s : State, s.runs t 0x84 = true ∧ 2 ≤ (s.slotPass t).tickets t) ∧
    (∃ t : Nat, ∃ s : State, ∃ k : Nat, ∃ bs : List Byte, s.runs t 0x85 = true ∧ (s.slotPass t).holds t ((s.slotPass t).tg t (iS1 (s.insn t))) = some k ∧ (s.slotPass t).get TH_frame t ≠ 0 ∧ (s.slotPass t).tickets t < 2 ∧ iMod (s.insn t) = 0 ∧ bit ((s.slotPass t).tg t (iS2 (s.insn t))) 63 = false ∧ (s.slotPass t).rebuilt t ((s.slotPass t).get TH_frame t - 1) = some bs ∧ (s.slotPass t).atHead ((s.slotPass t).get TH_tktdom k) ((s.slotPass t).get TH_tkt k - 1) = true) ∧
    (∃ t : Nat, ∃ s : State, ∃ k : Nat, s.runs t 0x85 = true ∧ (s.slotPass t).holds t ((s.slotPass t).tg t (iS1 (s.insn t))) = some k ∧ (s.slotPass t).get TH_frame t ≠ 0 ∧ (s.slotPass t).tickets t < 2 ∧ iMod (s.insn t) = 1) ∧
    (∃ t : Nat, ∃ s : State, ∃ k, s.runs t 0x85 = true ∧ iMod (s.insn t) = 2 ∧ (s.slotPass t).holds t ((s.slotPass t).tg t (iS1 (s.insn t))) = some k) ∧
    (∃ t : Nat, ∃ s : State, s.runs t 0x85 = true ∧ iMod (s.insn t) = 2 ∧ (s.slotPass t).holds t ((s.slotPass t).tg t (iS1 (s.insn t))) = none) :=
  ⟨⟨1, thr 1 (enc 0x80 7 3 0 0 0) [(GLB_STATE_state, 0, dsService)], by decide +kernel⟩,
   ⟨1, thr 1 (enc 0x82 2 0 0 3 0) [(GLB_STATE_state, 0, dsService), (TH_rok, 7, 1)], by decide +kernel⟩,
   ⟨1, thr 1 (enc 0x82 2 0 0 3 0) [(GLB_STATE_state, 0, dsService)], by decide +kernel⟩,
   ⟨1, thr 1 (enc 0x84 2 3 0 0 0) [(GLB_STATE_state, 0, dsService)], by decide +kernel⟩,
   ⟨1, thr 1 (enc 0x84 2 3 0 0 0) [(GLB_STATE_state, 0, dsService), (TH_tkt, 2, 1), (TH_tkt, 3, 2)], by decide +kernel⟩,
   ⟨1, { (thr 1 (enc 0x85 0 3 4 0 0) [(GLB_STATE_state, 0, dsService), (TH_tkt, 2, 6), (TH_g, 32 + 3, 5), (TH_frame, 1, 1)]) with
    mem := Memory.writeBytes ((thr 1 (enc 0x85 0 3 4 0 0) [(GLB_STATE_state, 0, dsService), (TH_tkt, 2, 6), (TH_g, 32 + 3, 5), (TH_frame, 1, 1)])).mem (baseW 1 + 0x148) [14#8], frames := [(0, { bytes := List.replicate 64 0#8 })],
    domq := [(0, [{ handle := 5, done := false, frame := 0, leaf := 0 }])] }, 2, List.replicate 78 0#8, by decide +kernel⟩,
   ⟨1, thr 1 (enc 0x85 0 3 4 1 0) [(GLB_STATE_state, 0, dsService), (TH_tkt, 3, 6), (TH_g, 32 + 3, 5), (TH_frame, 1, 1)], 3, by decide +kernel⟩,
   ⟨1, thr 1 (enc 0x85 0 3 0 2 0) [(GLB_STATE_state, 0, dsService), (TH_tkt, 2, 6), (TH_g, 32 + 3, 5)], 2, by decide +kernel⟩,
   ⟨1, thr 1 (enc 0x85 0 3 0 2 0) [(GLB_STATE_state, 0, dsService)], by decide +kernel⟩⟩

theorem wit_SupervisorsAndFaultsOfThreads :
    (∃ t : Nat, ∃ s : State, ∃ x : Nat, (s.slotPass t).supTarget t (s.insn t) = some x ∧ s.runs t 0xF0 = true ∧ (s.slotPass t).startable x = true) ∧
    (∃ t : Nat, ∃ s : State, ∃ x : Nat, (s.slotPass t).supTarget t (s.insn t) = some x ∧ s.runs t 0xF1 = true ∧ (s.slotPass t).flag TH_halt x = false) ∧
    (∃ t : Nat, ∃ s : State, ∃ r : List Byte, ∃ q : List (List Byte), s.runs t 0xF2 = true ∧ SM.get [] (s.slotPass t).faultq (t / 16) = r :: q) ∧
    (∃ t : Nat, ∃ s : State, s.issues t = true ∧ s.flag TH_bad t = false ∧ s.budgetDue t = false ∧ insnOk (isSup t) (s.insn t) = false) ∧
    (∃ t : Nat, ∃ s : State, s.issues t = true ∧ s.flag TH_bad t = false ∧ s.budgetDue t = false ∧ insnOk (isSup t) (s.insn t) = true ∧ iOp (s.insn t) = 0x10 ∧ s.predOk t (s.insn t) = false) ∧
    (∃ t : Nat, ∃ s : State, s.issues t = true ∧ s.flag TH_bad t = false ∧ s.budgetDue t = false ∧ insnOk (isSup t) (s.insn t) = true ∧ iOp (s.insn t) = 0x10 ∧ s.guard = true ∧ t < 4096) ∧
    (∃ k : Nat, ∃ s : State, s.flag LKS_copy k = true) ∧
    (∃ t : Nat, ∃ k : Nat, ∃ s : State, s.coresRun = true ∧ s.get TH_tkt (2 * t + k) ≠ 0 ∧ s.flag TH_texp (2 * t + k) = false ∧ s.session (cluOf t) = false ∧ s.get TH_tktns (2 * t + k) + 1000 * s.get FP_CLU_CFG_order_hold_limit (cluOf t) < s.clk ∧ ((s.issues t = true → s.budgetDue t = false))) ∧
    (∃ t : Nat, ∃ s : State, s.issues t = true ∧ s.get TH_frame t ≠ 0 ∧ (s.get TH_budget t) ≠ 0 ∧ s.get TH_wait t = 0) ∧
    (∃ t : Nat, ∃ s : State, s.issues t = true ∧ s.get TH_frame t ≠ 0 ∧ (s.get TH_budget t) ≠ 0 ∧ s.get TH_wait t ≠ 0) ∧
    (∃ t : Nat, ∃ u : State, u.holdDue t 0 = false ∧ u.holdDue t 1 = false) ∧
    (∃ k : Nat, ∃ s : State, s.coresRun = true ∧ s.flag CLU_dlk k = false ∧ s.deadlocked k = true) :=
  ⟨⟨0, thr 0 (enc 0xF0 2 3 4 0 9) [(GLB_STATE_state, 0, dsService), (TH_g, 3, 15), (TH_mode, 15, 2)], 15, by decide +kernel⟩,
   ⟨0, thr 0 (enc 0xF1 2 3 0 0 0) [(GLB_STATE_state, 0, dsService), (TH_g, 3, 1)], 1, by decide +kernel⟩,
   ⟨0, { (thr 0 (enc 0xF2 4 0 0 0 0) [(GLB_STATE_state, 0, dsService)]) with faultq := [(0, [[1#8]])] }, [1#8], [], by decide +kernel⟩,
   ⟨1, thr 1 (enc 0 0 0 0 0 0) [(GLB_STATE_state, 0, dsService), (TH_bad, 1, 0)], by decide +kernel⟩,
   ⟨1, thr 1 (enc 0x10 2 3 4 0 (2 ^ 37)) [(GLB_STATE_state, 0, dsService), (TH_bad, 1, 0)], by decide +kernel⟩,
   ⟨1, thr 1 (enc 0x10 2 3 4 0 0) [(GLB_STATE_state, 0, dsService), (TH_bad, 1, 0), (GLB_PROFILE_profile, 0, 3)], by decide +kernel⟩,
   ⟨0, st [(GLB_STATE_state, 0, dsService), (LKS_copy, 0, 1)], by decide +kernel⟩,
   ⟨1, 0, thr 1 (enc 0x10 2 3 4 0 0) [(GLB_STATE_state, 0, dsService), (TH_tkt, (2 * 1 + 0), 1), (TH_texp, (2 * 1 + 0), 0), (CLK_ticks, 0, 2000000)], by decide +kernel⟩,
   ⟨1, thr 1 (enc 0x10 2 3 4 0 0) [(GLB_STATE_state, 0, dsService), (TH_frame, 1, 1), (TH_wait, 1, 0), (TH_budget, 1, 1)], by decide +kernel⟩,
   ⟨1, thr 1 (enc 0x10 2 3 4 0 0) [(GLB_STATE_state, 0, dsService), (TH_frame, 1, 1), (TH_wait, 1, 1), (TH_budget, 1, 1)], by decide +kernel⟩,
   ⟨0, st [], by decide +kernel⟩,
   ⟨0, parked, by decide +kernel, by decide +kernel, by
    show ((parked.workersOf 0).all (fun t => parked.blocked t && !parked.outstanding t && !parked.trigThreads.contains t)) = true
    rw [parked_no_trigs]
    decide +kernel⟩⟩

theorem wit_CheckersFollowTheirLeads :
    (∃ t : Nat, ∃ s : State, s.wf = true ∧ (s.guard = false ∨ 4096 ≤ t ∨ s.flag LKS_copy (t / 32) = true)) ∧
    (∃ t : Nat, ∃ s : State, ∃ r, s.wf = true ∧ s.guard = true ∧ t < 4096 ∧ s.flag LKS_copy (t / 32) = false ∧ r < 32) ∧
    (∃ t : Nat, ∃ s : State, ∃ r, s.wf = true ∧ s.guard = true ∧ t < 4096 ∧ s.flag LKS_copy (t / 32) = false ∧ r < 8) ∧
    (∃ t : Nat, ∃ s : State, s.wf = true ∧ s.guard = true ∧ t < 4096 ∧ s.flag LKS_copy (t / 32) = false) ∧
    (∃ t : Nat, ∃ s : State, ∃ k, s.wf = true ∧ s.guard = true ∧ t < 4096 ∧ s.flag LKS_copy (t / 32) = false ∧ k < 1024) ∧
    (∃ t : Nat, ∃ s : State, ∃ f : Fld, ∃ n : Nat, ∃ j : Nat, s.wf = true ∧ s.guard = true ∧ t < 4096 ∧ s.flag LKS_copy (t / 32) = false ∧ (f, n) ∈ [(TH_g, 32), (TH_c, 8), (TH_rs, 8), (TH_rsd, 1), (TH_pc, 1)] ∧ j / n ≠ t + 16) ∧
    (∃ t : Nat, ∃ s : State, ∃ f : Fld, s.wf = true ∧ s.guard = true ∧ t < 4096 ∧ s.flag LKS_copy (t / 32) = false ∧ [TH_g, TH_c, TH_rs, TH_rsd, TH_pc].all (fun g => g.id % 4096 != f.id % 4096) = true) ∧
    (∃ t : Nat, ∃ s : State, ∃ b, s.wf = true ∧ s.guard = true ∧ t < 4096 ∧ s.flag LKS_copy (t / 32) = false ∧ (b < baseW (t + 16) ∨ baseW (t + 16) + 1024 ≤ b)) :=
  ⟨⟨4079, st [(GLB_STATE_state, 0, dsService)], by decide +kernel⟩,
   ⟨4079, st [(GLB_STATE_state, 0, dsService), (LKS_copy, (4079 / 32), 0), (GLB_PROFILE_profile, 0, 3)], 31, by decide +kernel⟩,
   ⟨4079, st [(GLB_STATE_state, 0, dsService), (LKS_copy, (4079 / 32), 0), (GLB_PROFILE_profile, 0, 3)], 7, by decide +kernel⟩,
   ⟨4079, st [(GLB_STATE_state, 0, dsService), (LKS_copy, (4079 / 32), 0), (GLB_PROFILE_profile, 0, 3)], by decide +kernel⟩,
   ⟨4079, st [(GLB_STATE_state, 0, dsService), (LKS_copy, (4079 / 32), 0), (GLB_PROFILE_profile, 0, 3)], 1023, by decide +kernel⟩,
   ⟨4079, st [(GLB_STATE_state, 0, dsService), (GLB_PROFILE_profile, 0, 3)], TH_g, 32, 32, by decide +kernel, by decide +kernel, by decide +kernel, by decide +kernel, .head _, by decide +kernel⟩,
   ⟨4079, st [(GLB_STATE_state, 0, dsService), (LKS_copy, (4079 / 32), 0), (GLB_PROFILE_profile, 0, 3)], TH_tpc, by decide +kernel⟩,
   ⟨4079, st [(GLB_STATE_state, 0, dsService), (LKS_copy, (4079 / 32), 0), (GLB_PROFILE_profile, 0, 3)], 0, by decide +kernel⟩⟩

theorem wit_TableCommandsOfThreads :
    (∃ t : Nat, ∃ s : State, s.wf = true ∧ s.commits t 0 1 = true ∧ (s.committing t).flowBadCmd t = false) ∧
    (∃ t : Nat, ∃ s : State, s.wf = true ∧ s.commits t 0 2 = true ∧ (s.committing t).flowBadCmd t = false) ∧
    (∃ t : Nat, ∃ s : State, s.wf = true ∧ s.commits t 0 3 = true ∧ (s.committing t).flowBadCmd t = false) ∧
    (∃ t : Nat, ∃ s : State, s.wf = true ∧ s.commits t 0 4 = true ∧ (s.committing t).tw t 0 < 2 ^ 24 ∧ (((s.committing t).tblN t) = 2 ∨ (((s.committing t).tblN t) = 1 ∧ leAt ((s.committing t).tblKey t) 4 4 = 0))) ∧
    (∃ t : Nat, ∃ s : State, s.wf = true ∧ s.commits t 0 5 = true ∧ (s.committing t).tw t 0 < 2 ^ 24 ∧ (s.committing t).tblN t = 1 ∧ leAt ((s.committing t).tblKey t) 6 2 = 0) ∧
    (∃ t : Nat, ∃ s : State, s.wf = true ∧ s.commits t 0 1 = true ∧ (s.committing t).flowBadCmd t = true) :=
  ⟨⟨1, thr 1 (enc 0x81 0 0 0 0 0) [(GLB_STATE_state, 0, dsService), (TH_w, 8, 0x51)], by decide +kernel⟩,
   ⟨1, thr 1 (enc 0x81 0 0 0 0 0) [(GLB_STATE_state, 0, dsService), (TH_w, 8, 0x12)], by decide +kernel⟩,
   ⟨1, thr 1 (enc 0x81 0 0 0 0 0) [(GLB_STATE_state, 0, dsService), (TH_w, 8, 0x13)], by decide +kernel⟩,
   ⟨1, thr 1 (enc 0x81 0 0 0 0 0) [(GLB_STATE_state, 0, dsService), (TH_w, 8, 0x14)], by decide +kernel⟩,
   ⟨1, thr 1 (enc 0x81 0 0 0 0 0) [(GLB_STATE_state, 0, dsService), (TH_w, 8, 0x15)], by decide +kernel⟩,
   ⟨1, thr 1 (enc 0x81 0 0 0 0 0) [(GLB_STATE_state, 0, dsService), (TH_w, 8, 0x61)], by decide +kernel⟩⟩

theorem wit_CipherAndDmaCommandsOfThreads :
    (∃ t : Nat, ∃ s : State, s.wf = true ∧ (s.committing t).cphCmdBad t ((s.committing t).cphCmd t (s.cmdTag t)) = false ∧ cphRangeBad t ((s.committing t).cphCmd t (s.cmdTag t)) = false ∧ s.commits t 1 1 = true) ∧
    (∃ t : Nat, ∃ s : State, s.wf = true ∧ (s.committing t).cphCmdBad t ((s.committing t).cphCmd t (s.cmdTag t)) = false ∧ cphRangeBad t ((s.committing t).cphCmd t (s.cmdTag t)) = false ∧ s.commits t 1 2 = true) ∧
    (∃ t : Nat, ∃ s : State, s.wf = true ∧ (s.committing t).cphCmdBad t ((s.committing t).cphCmd t (s.cmdTag t)) = false ∧ cphRangeBad t ((s.committing t).cphCmd t (s.cmdTag t)) = false ∧ s.commits t 1 3 = true) ∧
    (∃ t : Nat, ∃ s : State, s.wf = true ∧ (s.committing t).cphCmdBad t ((s.committing t).cphCmd t (s.cmdTag t)) = false ∧ cphRangeBad t ((s.committing t).cphCmd t (s.cmdTag t)) = false ∧ s.commits t 1 4 = true) ∧
    (∃ t : Nat, ∃ s : State, s.wf = true ∧ s.commits t 2 1 = true ∧ (s.committing t).dmaCmdField t = false ∧ (s.committing t).dmaCmdDenied ((s.committing t).dmaCmdChan t) = false ∧ (s.committing t).dmaCmdBusy ((s.committing t).dmaCmdChan t) = false) ∧
    (∃ t : Nat, ∃ s : State, s.wf = true ∧ s.commits t 2 1 = true ∧ (s.committing t).dmaCmdField t = false ∧ (s.committing t).dmaCmdDenied ((s.committing t).dmaCmdChan t) = false ∧ (s.committing t).dmaCmdBusy ((s.committing t).dmaCmdChan t) = true) ∧
    (∃ t : Nat, ∃ s : State, s.wf = true ∧ s.commits t 2 2 = true ∧ (s.committing t).dmaCmdField t = false ∧ (s.committing t).dmaCmdDenied ((s.committing t).dmaCmdChan t) = false ∧ dmaRangeOk ((s.committing t).tw t 1) ((s.committing t).tw t 3) = true ∧ dmaRangeOk ((s.committing t).tw t 2) ((s.committing t).tw t 3) = true ∧ (threadReq t).may ((s.committing t).tw t 1) = true ∧ (threadReq t).may ((s.committing t).tw t 2) = true ∧ (s.committing t).dmaBad ((s.committing t).dmaCmdChan t) (threadReq t) ((s.committing t).tw t 1) ((s.committing t).tw t 2) ((s.committing t).tw t 3) ((s.committing t).get DMA_CH_CFG_cfg ((s.committing t).dmaCmdChan t)) = false ∧ (s.committing t).dmaCmdBusy ((s.committing t).dmaCmdChan t) = true) ∧
    (∃ t : Nat, ∃ s : State, s.wf = true ∧ s.commits t 2 2 = true ∧ (s.committing t).dmaCmdField t = false ∧ (s.committing t).dmaCmdDenied ((s.committing t).dmaCmdChan t) = false ∧ dmaRangeOk ((s.committing t).tw t 1) ((s.committing t).tw t 3) = true ∧ dmaRangeOk ((s.committing t).tw t 2) ((s.committing t).tw t 3) = true ∧ (threadReq t).may ((s.committing t).tw t 1) = true ∧ (threadReq t).may ((s.committing t).tw t 2) = true ∧ (s.committing t).dmaBad ((s.committing t).dmaCmdChan t) (threadReq t) ((s.committing t).tw t 1) ((s.committing t).tw t 2) ((s.committing t).tw t 3) ((s.committing t).get DMA_CH_CFG_cfg ((s.committing t).dmaCmdChan t)) = false ∧ (s.committing t).dmaCmdBusy ((s.committing t).dmaCmdChan t) = false) ∧
    (∃ t : Nat, ∃ s : State, s.wf = true ∧ s.commits t 2 1 = true ∧ (s.committing t).dmaCmdField t = false ∧ (s.committing t).dmaCmdDenied ((s.committing t).dmaCmdChan t) = true) :=
  ⟨⟨1, thr 1 (enc 0x81 0 0 0 1 0) [(GLB_STATE_state, 0, dsService), (TH_w, 8, 0x01), (TH_w, 11, 0x40)], by decide +kernel⟩,
   ⟨1, thr 1 (enc 0x81 0 0 0 1 0) [(GLB_STATE_state, 0, dsService), (TH_w, 8, 0x02)], by decide +kernel⟩,
   ⟨1, thr 1 (enc 0x81 0 0 0 1 0) [(GLB_STATE_state, 0, dsService), (TH_w, 8, 0x13)], by decide +kernel⟩,
   ⟨1, thr 1 (enc 0x81 0 0 0 1 0) [(GLB_STATE_state, 0, dsService), (TH_w, 8, 0x44)], by decide +kernel⟩,
   ⟨1, thr 1 (enc 0x81 0 0 0 2 0) [(GLB_STATE_state, 0, dsService), (TH_w, 8, 0x31), (DMA_CH_OWNER_owner, 3, 0x1FFE), (DMA_CH_OWNER_fp, 3, 1)], by decide +kernel⟩,
   ⟨1, thr 1 (enc 0x81 0 0 0 2 0) [(GLB_STATE_state, 0, dsService), (TH_w, 8, 0x31), (DMA_CH_OWNER_owner, 3, 0x1FFE), (DMA_CH_OWNER_fp, 3, 1), (DMA_CH_STATUS_state, 3, 3)], by decide +kernel⟩,
   ⟨1, thr 1 (enc 0x81 0 0 0 2 0) [(GLB_STATE_state, 0, dsService), (TH_w, 8, 0x32), (DMA_CH_OWNER_owner, 3, 0x1FFE), (DMA_CH_OWNER_fp, 3, 1), (DMA_CH_STATUS_state, 3, 3), (TH_w, 9, 0x8300000000000000), (TH_w, 10, 0x1000), (TH_w, 11, 1024)], by decide +kernel⟩,
   ⟨1, thr 1 (enc 0x81 0 0 0 2 0) [(GLB_STATE_state, 0, dsService), (TH_w, 8, 0x32), (DMA_CH_OWNER_owner, 3, 0x1FFE), (DMA_CH_OWNER_fp, 3, 1), (TH_w, 9, 0x8300000000000000), (TH_w, 10, 0x1000), (TH_w, 11, 1024)], by decide +kernel⟩,
   ⟨1, thr 1 (enc 0x81 0 0 0 2 0) [(GLB_STATE_state, 0, dsService), (TH_w, 8, 0x31)], by decide +kernel⟩⟩

theorem wit_CounterSendAndTriggerCommands :
    (∃ t : Nat, ∃ s : State, s.wf = true ∧ bits ((s.committing t).tw t 0) 4 4 = 0 ∧ (s.committing t).tw t 0 < 2 ^ 40 ∧ (s.committing t).tw t 1 < 2 ^ 48 ∧ (s.committing t).twZero t 2 = true ∧ (15 < bits ((s.committing t).tw t 0) 8 8 ∨ 1048575 < bits ((s.committing t).tw t 0) 16 24) ∧ s.commits t 3 1 = true) ∧
    (∃ t : Nat, ∃ s : State, s.wf = true ∧ bits ((s.committing t).tw t 0) 4 4 = 0 ∧ (s.committing t).tw t 0 < 2 ^ 40 ∧ (s.committing t).tw t 1 < 2 ^ 48 ∧ (s.committing t).twZero t 2 = true ∧ bits ((s.committing t).tw t 0) 8 8 ≤ 15 ∧ bits ((s.committing t).tw t 0) 16 24 ≤ 1048575 ∧ s.commits t 3 1 = true) ∧
    (∃ t : Nat, ∃ s : State, s.wf = true ∧ bits ((s.committing t).tw t 0) 4 4 = 0 ∧ (s.committing t).tw t 0 < 2 ^ 40 ∧ (s.committing t).tw t 1 < 2 ^ 48 ∧ (s.committing t).twZero t 2 = true ∧ bits ((s.committing t).tw t 0) 8 8 ≤ 15 ∧ bits ((s.committing t).tw t 0) 16 24 ≤ 1048575 ∧ s.commits t 3 2 = true) ∧
    (∃ t : Nat, ∃ s : State, s.wf = true ∧ bits ((s.committing t).tw t 0) 4 4 = 0 ∧ (s.committing t).tw t 0 < 2 ^ 40 ∧ (s.committing t).tw t 1 < 2 ^ 48 ∧ (s.committing t).twZero t 2 = true ∧ bits ((s.committing t).tw t 0) 8 8 ≤ 15 ∧ bits ((s.committing t).tw t 0) 16 24 ≤ 1048575 ∧ s.commits t 3 3 = true) ∧
    (∃ t : Nat, ∃ s : State, s.wf = true ∧ s.commits t 4 1 = true ∧ (s.committing t).tw t 0 < 2 ^ 39 ∧ (s.committing t).tw t 2 < 2 ^ 48 ∧ (s.committing t).twZero t 3 = true ∧ bits ((s.committing t).tw t 0) 36 2 ≠ 3 ∧ 60 ≤ (bits ((s.committing t).tw t 0) 22 14) ∧ (bits ((s.committing t).tw t 0) 22 14) ≤ 16356 ∧ (s.committing t).tw t 1 + (bits ((s.committing t).tw t 0) 22 14) ≤ ((if bits ((s.committing t).tw t 0) 36 2 = 0 then windowSpace t else if bits ((s.committing t).tw t 0) 36 2 = 1 then sharedSpace t else localSpace t)).2) ∧
    (∃ t : Nat, ∃ s : State, s.wf = true ∧ s.commits t 4 2 = true ∧ bits ((s.committing t).tw t 0) 9 7 = 0 ∧ (s.committing t).tw t 0 < 2 ^ 20 ∧ 0 < (bits ((s.committing t).tw t 0) 16 4) ∧ (bits ((s.committing t).tw t 0) 16 4) ≤ 8 ∧ (s.committing t).twZero t 5 = true ∧ 8 ≤ (bits ((s.committing t).tw t 0) 4 5) ∧ ((s.committing t).mbxPost (bits ((s.committing t).tw t 0) 4 5) (threadOwner t) ((s.committing t).msgWords t (bits ((s.committing t).tw t 0) 16 4))).1 ≠ 2) ∧
    (∃ t : Nat, ∃ s : State, s.wf = true ∧ (s.committing t).tw t 0 < 2 ^ 32 ∧ (s.committing t).flag MT_TRIG_CFG_own ((s.committing t).trgComp t) = false ∧ s.commits t 5 1 = true ∧ (s.committing t).tw t 1 < 2 ^ 50 ∧ (s.committing t).tw t 2 < 2 ^ 16 ∧ (s.committing t).twZero t 3 = true ∧ 0 < bits ((s.committing t).tw t 0) 12 4 ∧ bits ((s.committing t).tw t 0) 12 4 ≤ 4 ∧ ((bits ((s.committing t).tw t 0) 12 4 = 3 → (s.committing t).tw t 2 ≠ 0)) ∧ (s.committing t).destOk (bits ((s.committing t).tw t 0) 16 16) = true ∧ (s.committing t).flag MT_TRIG_STATUS_armed ((s.committing t).trgComp t) = true) ∧
    (∃ t : Nat, ∃ s : State, s.wf = true ∧ (s.committing t).tw t 0 < 2 ^ 32 ∧ (s.committing t).flag MT_TRIG_CFG_own ((s.committing t).trgComp t) = false ∧ s.commits t 5 1 = true ∧ (s.committing t).tw t 1 < 2 ^ 50 ∧ (s.committing t).tw t 2 < 2 ^ 16 ∧ (s.committing t).twZero t 3 = true ∧ 0 < bits ((s.committing t).tw t 0) 12 4 ∧ bits ((s.committing t).tw t 0) 12 4 ≤ 4 ∧ ((bits ((s.committing t).tw t 0) 12 4 = 3 → (s.committing t).tw t 2 ≠ 0)) ∧ (s.committing t).destOk (bits ((s.committing t).tw t 0) 16 16) = true ∧ (s.committing t).flag MT_TRIG_STATUS_armed ((s.committing t).trgComp t) = false ∧ reached48 (s.committing t).now (bits ((s.committing t).tw t 1) 2 48) = true) ∧
    (∃ t : Nat, ∃ s : State, s.wf = true ∧ (s.committing t).tw t 0 < 2 ^ 32 ∧ (s.committing t).flag MT_TRIG_CFG_own ((s.committing t).trgComp t) = false ∧ s.commits t 5 1 = true ∧ (s.committing t).tw t 1 < 2 ^ 50 ∧ (s.committing t).tw t 2 < 2 ^ 16 ∧ (s.committing t).twZero t 3 = true ∧ 0 < bits ((s.committing t).tw t 0) 12 4 ∧ bits ((s.committing t).tw t 0) 12 4 ≤ 4 ∧ ((bits ((s.committing t).tw t 0) 12 4 = 3 → (s.committing t).tw t 2 ≠ 0)) ∧ (s.committing t).destOk (bits ((s.committing t).tw t 0) 16 16) = true ∧ (s.committing t).flag MT_TRIG_STATUS_armed ((s.committing t).trgComp t) = false ∧ reached48 (s.committing t).now (bits ((s.committing t).tw t 1) 2 48) = false) ∧
    (∃ t : Nat, ∃ s : State, s.wf = true ∧ (s.committing t).tw t 0 < 2 ^ 32 ∧ (s.committing t).flag MT_TRIG_CFG_own ((s.committing t).trgComp t) = false ∧ s.commits t 5 2 = true ∧ (s.committing t).tw t 1 < 2 ^ 50 ∧ (s.committing t).tw t 2 < 2 ^ 16 ∧ (s.committing t).twZero t 3 = true) ∧
    (∃ k : Nat, ∃ t : Nat, ∃ g : Nat, ∃ q : Nat, ∃ words : List Nat, ∃ s : State, s.flight[k]? = some (t, g, q, words) ∧ ({ s with flight := s.flight.eraseIdx k } : State).get TH_tagseq (4 * t + g) = q ∧ s.flag TH_tag (4 * t + g) = true) :=
  ⟨⟨1, thr 1 (enc 0x81 0 0 0 3 0) [(GLB_STATE_state, 0, dsService), (TH_w, 8, (16 * 2 ^ 8 + 1))], by decide +kernel⟩,
   ⟨1, thr 1 (enc 0x81 0 0 0 3 0) [(GLB_STATE_state, 0, dsService), (TH_w, 8, 0xFFFFF0F01), (TH_w, 9, 0xFFFFFFFFFFFF)], by decide +kernel⟩,
   ⟨1, thr 1 (enc 0x81 0 0 0 3 0) [(GLB_STATE_state, 0, dsService), (TH_w, 8, 0xFFFFF0F02)], by decide +kernel⟩,
   ⟨1, thr 1 (enc 0x81 0 0 0 3 0) [(GLB_STATE_state, 0, dsService), (TH_w, 8, 3)], by decide +kernel⟩,
   ⟨1, thr 1 (enc 0x81 0 0 0 4 0) [(GLB_STATE_state, 0, dsService), (TH_w, 8, (60 * 2 ^ 22 + 1))], by decide +kernel⟩,
   ⟨1, thr 1 (enc 0x81 0 0 0 4 0) [(GLB_STATE_state, 0, dsService), (TH_w, 8, (8 * 2 ^ 16 + 31 * 16 + 2)), (MBX_CH_CFG_rx, 31, 1), (MBX_CH_CFG_tx_mask, 31, 8)], by decide +kernel⟩,
   ⟨1, thr 1 (enc 0x81 0 0 0 5 0) [(GLB_STATE_state, 0, dsService), (TH_w, 8, (0xFFFF0000 + 0x1000 + 1)), (MT_TRIG_STATUS_armed, 0, 1)], by decide +kernel⟩,
   ⟨1, thr 1 (enc 0x81 0 0 0 5 0) [(GLB_STATE_state, 0, dsService), (TH_w, 8, (0xFFFF0000 + 0x4000 + 1))], by decide +kernel⟩,
   ⟨1, thr 1 (enc 0x81 0 0 0 5 0) [(GLB_STATE_state, 0, dsService), (TH_w, 8, (0xFFFF0000 + 0x1000 + 1)), (TH_w, 9, 400000000)], by decide +kernel⟩,
   ⟨1, thr 1 (enc 0x81 0 0 0 5 0) [(GLB_STATE_state, 0, dsService), (TH_w, 8, 0x7F2), (MT_TRIG_STATUS_armed, 127, 1)], by decide +kernel⟩,
   ⟨0, 1, 3, 1, [7], { (st [(GLB_STATE_state, 0, dsService), (TH_tag, (4 * 1 + 3), 1), (TH_tag, 7, 1), (TH_tagseq, 7, 1)]) with flight := [(1, 3, 1, [7])] }, by decide +kernel⟩⟩

theorem wit_DispatchAndDebugger :
    (∃ p : Nat, ∃ f : Nat, ∃ t : Nat, ∃ q : List Nat, ∃ s : State, SM.get [] s.dispq p = f :: q ∧ s.dispatchTo p = some t ∧ s.moving = true) ∧
    (∃ m : Nat, ∃ f : Nat, ∃ q : List Nat, ∃ s : State, s.excq = f :: q ∧ s.issues (4096 + m) = true ∧ s.get TH_frame (4096 + m) = 0) ∧
    (∃ w : Who, ∃ s : State, s.mayWrite w = true) ∧
    (∃ w : Who, ∃ s : State, s.mayWrite w = true ∧ s.flag FP_DBG_SESSION_fuse_closed 0 = false) ∧
    (∃ w : Who, ∃ s : State, s.mayWrite w = true ∧ s.flag FP_DBG_SESSION_open 0 = true) ∧
    (∃ w : Who, ∃ t : Nat, ∃ s : State, s.mayWrite w = true ∧ s.threadNamed t = true ∧ s.session (cluOf t) = true) ∧
    (∃ w : Who, ∃ t : Nat, ∃ s : State, s.mayWrite w = true ∧ s.threadNamed t = true ∧ s.session (cluOf t) = true ∧ ((s.set DBG_thr 0 t).wakeCluster (cluOf t)).flag TH_halt t = true) ∧
    (∃ w : Who, ∃ t : Nat, ∃ s : State, s.mayWrite w = true ∧ s.threadNamed t = true ∧ s.session (cluOf t) = true ∧ ((s.set DBG_thr 0 t).wakeCluster (cluOf t)).flag TH_halt t = true ∧ ((s.set DBG_thr 0 t).wakeCluster (cluOf t)).flag TH_hsess t = false ∧ ((s.set DBG_thr 0 t).wakeCluster (cluOf t)).coreOpen t = true ∧ ((s.set DBG_thr 0 t).wakeCluster (cluOf t)).get TH_mode t = 1) ∧
    (∃ w : Who, ∃ t : Nat, ∃ s : State, s.mayWrite w = true ∧ s.threadNamed t = true ∧ s.session (cluOf t) = false) :=
  ⟨⟨0, 0, 1, [], { (st [(GLB_STATE_state, 0, dsService)]) with dispq := [(0, [0])] }, by decide +kernel⟩,
   ⟨63, 0, [], { (st [(GLB_STATE_state, 0, dsService), (TH_frame, (4096 + 63), 0), (MC_CTRL_running, 0, 1), (TH_mode, 4159, 1)]) with excq := [0] }, by decide +kernel⟩,
   ⟨.fw 0, st [(GLB_STATE_state, 0, dsService)], by decide +kernel⟩,
   ⟨.fw 0, st [(GLB_STATE_state, 0, dsService), (FP_DBG_SESSION_fuse_closed, 0, 0)], by decide +kernel⟩,
   ⟨.fw 0, st [(GLB_STATE_state, 0, dsService), (FP_DBG_SESSION_open, 0, 1)], by decide +kernel⟩,
   ⟨.fw 0, 0, st [(GLB_STATE_state, 0, dsService), (FP_DBG_SESSION_open, 0, 1), (FP_DBG_SESSION_clusters, 0, 1)], by decide +kernel⟩,
   ⟨.fw 0, 0, st [(GLB_STATE_state, 0, dsService), (FP_DBG_SESSION_open, 0, 1), (FP_DBG_SESSION_clusters, 0, 1), (TH_halt, 0, 1), (TH_mode, 0, 1)], by decide +kernel⟩,
   ⟨.fw 0, 0, st [(GLB_STATE_state, 0, dsService), (FP_DBG_SESSION_open, 0, 1), (FP_DBG_SESSION_clusters, 0, 1), (TH_halt, 0, 1), (TH_mode, 0, 1)], by decide +kernel⟩,
   ⟨.fw 0, 0, st [(GLB_STATE_state, 0, dsService)], by decide +kernel⟩⟩

theorem wit_ManagementCoresRestart :
    (∃ w : Who, ∃ v : Nat, ∃ s : State, s.mayWrite w = true ∧ v / 2 ^ 16 % 2 ^ 12 = 0) ∧
    (∃ w : Who, ∃ v : Nat, ∃ s : State, s.mayWrite w = true ∧ v / 2 ^ 16 % 2 ^ 12 ≠ 0) ∧
    (∃ s : State, s.coresRun = true ∧ s.flag MC_HB_stall 0 = false ∧ (s.flag MC_CTRL_running 0 = true ∨ s.dev ≠ dsBooting)) ∧
    (∃ w : Who, ∃ s : State, s.mayWrite w = true) ∧
    (∃ s : State, s.coresRun = true ∧ s.flag MCX_restart 0 = true) :=
  ⟨⟨.fw 0, 0, st [(GLB_STATE_state, 0, dsService)], by decide +kernel⟩,
   ⟨.fw 0, 0x10000, st [(GLB_STATE_state, 0, dsService)], by decide +kernel⟩,
   ⟨st [(GLB_STATE_state, 0, dsService), (MC_HB_stall, 0, 0)], by decide +kernel⟩,
   ⟨.fw 0, st [(GLB_STATE_state, 0, dsService)], by decide +kernel⟩,
   ⟨st [(GLB_STATE_state, 0, dsService), (MCX_restart, 0, 1)], by decide +kernel⟩⟩

theorem wit_FramesArrive :
    (∃ id : Nat, ∃ len : FirstCell, ∃ s : State, isExt id = true ∧ s.portUp id = true ∧ s.portsOn = true ∧ s.get PT_rx (rxUnit id) = 0 ∧ s.open_ = true ∧ s.admits id (cellsOf (len.bytes - 4)) = false) ∧
    (∃ id : Nat, ∃ len : FirstCell, ∃ s : State, isExt id = true ∧ s.portUp id = true ∧ s.portsOn = true ∧ s.get PT_rx (rxUnit id) = 0 ∧ s.open_ = true ∧ s.admits id (cellsOf (len.bytes - 4)) = true) ∧
    (∃ m : Nat, ∃ f : Nat, ∃ s : State, m < 16 ∧ s.get PT_rx m = f + 1 ∧ s.wf = true ∧ (s.set PT_rx m 0).portsOn = true ∧ (s.set PT_rx m 0).portUp ((s.set PT_rx m 0).frame f).src = true) ∧
    (∃ m : Nat, ∃ f : Nat, ∃ bs : List Byte, ∃ s : State, m < 16 ∧ s.get PT_rx m = f + 1 ∧ s.wf = true ∧ (s.set PT_rx m 0).portsOn = true ∧ (s.set PT_rx m 0).portUp ((s.set PT_rx m 0).frame f).src = true ∧ bs.length + 4 < 64) ∧
    (∃ m : Nat, ∃ f : Nat, ∃ bs : List Byte, ∃ s : State, m < 16 ∧ s.get PT_rx m = f + 1 ∧ s.wf = true ∧ (s.set PT_rx m 0).portsOn = true ∧ (s.set PT_rx m 0).portUp ((s.set PT_rx m 0).frame f).src = true ∧ 64 ≤ bs.length + 4 ∧ (s.set PT_rx m 0).maxLen ((s.set PT_rx m 0).frame f).src < bs.length + 4) ∧
    (∃ m : Nat, ∃ f : Nat, ∃ bs : List Byte, ∃ s : State, m < 16 ∧ s.get PT_rx m = f + 1 ∧ s.wf = true ∧ (s.set PT_rx m 0).portsOn = true ∧ (s.set PT_rx m 0).portUp ((s.set PT_rx m 0).frame f).src = true ∧ 64 ≤ bs.length + 4 ∧ bs.length + 4 ≤ (s.set PT_rx m 0).maxLen ((s.set PT_rx m 0).frame f).src ∧ beAt bs 12 2 = 0x8808) ∧
    (∃ m : Nat, ∃ f : Nat, ∃ bs : List Byte, ∃ s : State, m < 16 ∧ s.get PT_rx m = f + 1 ∧ s.wf = true ∧ (s.set PT_rx m 0).portsOn = true ∧ (s.set PT_rx m 0).portUp ((s.set PT_rx m 0).frame f).src = true ∧ 64 ≤ bs.length + 4 ∧ bs.length + 4 ≤ (s.set PT_rx m 0).maxLen ((s.set PT_rx m 0).frame f).src ∧ beAt bs 12 2 ≠ 0x8808) ∧
    (∃ n : Nat, ∃ f : Nat, ∃ s : State, s.get PT_rx (16 + n) = f + 1 ∧ (s.set PT_rx (16 + n) 0).portsOn = true ∧ (s.set PT_rx (16 + n) 0).portUp ((s.set PT_rx (16 + n) 0).frame f).src = true) ∧
    (∃ n : Nat, ∃ f : Nat, ∃ bs : List Byte, ∃ s : State, s.get PT_rx (16 + n) = f + 1 ∧ (s.set PT_rx (16 + n) 0).portsOn = true ∧ (s.set PT_rx (16 + n) 0).portUp ((s.set PT_rx (16 + n) 0).frame f).src = true ∧ (bs.length + 4 - (if ownTag bs = true ∧ byteAt bs 14 / 64 = 1 ∧ byteAt bs 15 / 32 % 4 = 0 ∧ (s.set PT_rx (16 + n) 0).flag TLK_CH_CFG_en (64 * n + byteAt bs 14 % 64) = true then 8 else 0)) < 64) ∧
    (∃ n : Nat, ∃ f : Nat, ∃ bs : List Byte, ∃ s : State, s.get PT_rx (16 + n) = f + 1 ∧ (s.set PT_rx (16 + n) 0).portsOn = true ∧ (s.set PT_rx (16 + n) 0).portUp ((s.set PT_rx (16 + n) 0).frame f).src = true ∧ 64 ≤ (bs.length + 4 - (if ownTag bs = true ∧ byteAt bs 14 / 64 = 1 ∧ byteAt bs 15 / 32 % 4 = 0 ∧ (s.set PT_rx (16 + n) 0).flag TLK_CH_CFG_en (64 * n + byteAt bs 14 % 64) = true then 8 else 0)) ∧ (s.set PT_rx (16 + n) 0).maxLen ((s.set PT_rx (16 + n) 0).frame f).src < (bs.length + 4 - (if ownTag bs = true ∧ byteAt bs 14 / 64 = 1 ∧ byteAt bs 15 / 32 % 4 = 0 ∧ (s.set PT_rx (16 + n) 0).flag TLK_CH_CFG_en (64 * n + byteAt bs 14 % 64) = true then 8 else 0))) ∧
    (∃ n : Nat, ∃ f : Nat, ∃ bs : List Byte, ∃ s : State, s.get PT_rx (16 + n) = f + 1 ∧ (s.set PT_rx (16 + n) 0).portsOn = true ∧ (s.set PT_rx (16 + n) 0).portUp ((s.set PT_rx (16 + n) 0).frame f).src = true ∧ 64 ≤ (bs.length + 4 - (if ownTag bs = true ∧ byteAt bs 14 / 64 = 1 ∧ byteAt bs 15 / 32 % 4 = 0 ∧ (s.set PT_rx (16 + n) 0).flag TLK_CH_CFG_en (64 * n + byteAt bs 14 % 64) = true then 8 else 0)) ∧ (bs.length + 4 - (if ownTag bs = true ∧ byteAt bs 14 / 64 = 1 ∧ byteAt bs 15 / 32 % 4 = 0 ∧ (s.set PT_rx (16 + n) 0).flag TLK_CH_CFG_en (64 * n + byteAt bs 14 % 64) = true then 8 else 0)) ≤ (s.set PT_rx (16 + n) 0).maxLen ((s.set PT_rx (16 + n) 0).frame f).src) ∧
    (∃ (s u t : State) (f q : Nat) (x : Frame) (e : Ent), s.moving = true ∧ s.poolFns ≠ [] ∧
    u = forEach ((s.instances FHX_def).filter (fun g => !s.poolFns.contains g)) (fun g t => t.set FHX_def g 0) s ∧
    poolDwrr s.poolFns (8 * s.poolFns.length) (rotAt s.poolFns (u.get FHX_ptr 0)) u = (some (f, x), t) ∧ q = x.qp1 - 1 ∧
    u.get SCX_host 0 + cellsOf x.need ≤ 4 * u.get SCH_BUF_CFG_host_kib 0 ∧
    (((t.set SCX_host 0 (t.get SCX_host 0 + cellsOf x.need)).set FHX_q 0 q).updFrame f (fun x' => { x' with cells := cellsOf x.need })).entAt
      q x.idx = some e ∧ weIndirect e.bytes = false) ∧
    (∃ q : Nat, ∃ idx : Nat, ∃ f : Nat, ∃ x : Frame, ∃ s : State, s.frames.find? (fun e => e.2.qp1 == q + 1 && e.2.idx == idx && e.2.stage == .arriving && e.2.cells != 0) = some (f, x)) ∧
    (∃ p : Nat, ∃ f : Nat, ∃ src : Nat, ∃ s : State, s.moving = true ∧ s.flag PPL_STATUS_paused p = false ∧ (SM.get [] s.dispq p).length < 8192 ∧ s.candidates p ≠ [] ∧ (s.candidates p).find? (fun e => e.1 == rotAt ((s.candidates p).map (fun e => e.1)) (s.get PRS_last p)) = some (src, f)) :=
  ⟨⟨0x4FF, ⟨64, 0⟩, st [(GLB_STATE_state, 0, dsService), (PT_rx, (rxUnit 0x4FF), 0), (TLK_STATUS_link, 15, 1), (SCH_BUF_STATUS_free, 0, 0), (SCH_BUF_PORT_min, 0x4FF, 0)], by decide +kernel⟩,
   ⟨0, ⟨64, 0⟩, st [(GLB_STATE_state, 0, dsService), (PT_rx, (rxUnit 0), 0), (MAC_NMODE_quad, 0, 1), (MAC_NPORT_STATUS_link, 0, 1)], by decide +kernel⟩,
   ⟨0, 0, { (st [(GLB_STATE_state, 0, dsService), (PT_rx, 0, 0 + 1), (MAC_NMODE_quad, 0, 1), (MAC_NPORT_STATUS_link, 0, 1)]) with frames := [(0, { src := 0 })] }, by decide +kernel⟩,
   ⟨0, 0, [], { (st [(GLB_STATE_state, 0, dsService), (PT_rx, 0, 0 + 1), (MAC_NMODE_quad, 0, 1), (MAC_NPORT_STATUS_link, 0, 1)]) with frames := [(0, { src := 0 })] }, by decide +kernel⟩,
   ⟨0, 0, List.replicate 61 0#8, { (st [(GLB_STATE_state, 0, dsService), (PT_rx, 0, 0 + 1), (MAC_NMODE_quad, 0, 1), (MAC_NPORT_STATUS_link, 0, 1), (MAC_NPORT_CFG_max_len, 0, 64)]) with frames := [(0, { src := 0 })] }, by decide +kernel⟩,
   ⟨0, 0, List.replicate 12 0#8 ++ [0x88#8, 0x08#8] ++ List.replicate 46 0#8, { (st [(GLB_STATE_state, 0, dsService), (PT_rx, 0, 0 + 1), (MAC_NMODE_quad, 0, 1), (MAC_NPORT_STATUS_link, 0, 1)]) with frames := [(0, { src := 0 })] }, by decide +kernel⟩,
   ⟨0, 0, List.replicate 60 0#8, { (st [(GLB_STATE_state, 0, dsService), (PT_rx, 0, 0 + 1), (MAC_NMODE_quad, 0, 1), (MAC_NPORT_STATUS_link, 0, 1)]) with frames := [(0, { src := 0 })] }, by decide +kernel⟩,
   ⟨15, 0, { (st [(GLB_STATE_state, 0, dsService), (PT_rx, (16 + 15), 0 + 1), (TLK_STATUS_link, 15, 1)]) with frames := [(0, { src := 0x4C0 })] }, by decide +kernel⟩,
   ⟨15, 0, List.replicate 59 0#8, { (st [(GLB_STATE_state, 0, dsService), (PT_rx, (16 + 15), 0 + 1), (TLK_STATUS_link, 15, 1)]) with frames := [(0, { src := 0x4C0 })] }, by decide +kernel⟩,
   ⟨15, 0, List.replicate 61 0#8, { (st [(GLB_STATE_state, 0, dsService), (PT_rx, (16 + 15), 0 + 1), (TLK_STATUS_link, 15, 1), (TLK_CFG_max_len, 15, 64)]) with frames := [(0, { src := 0x4C0 })] }, by decide +kernel⟩,
   ⟨15, 0, List.replicate 12 0#8 ++ [0x88#8, 0xB5#8] ++ List.replicate 54 0#8, { (st [(GLB_STATE_state, 0, dsService), (PT_rx, (16 + 15), 0 + 1), (TLK_STATUS_link, 15, 1)]) with frames := [(0, { src := 0x4C0 })] }, by decide +kernel⟩,
   ⟨pooled, _, _, 0, 0, txFrame, txEnt, by decide +kernel, by decide +kernel, rfl, rfl, rfl, by decide +kernel, by decide +kernel, by decide +kernel⟩,
   ⟨0, 3, 0, { txFrame with cells := 1 }, { (st [(GLB_STATE_state, 0, dsService)]) with frames := [(0, { txFrame with cells := 1 })] }, by decide +kernel⟩,
   ⟨0, 0, 0, { (st [(GLB_STATE_state, 0, dsService), (PPL_STATUS_paused, 0, 0)]) with frames := [(0, { src := 0, stage := .parse })] }, by decide +kernel⟩⟩

theorem wit_PipelineUpdates :
    (∃ w : Who, ∃ p : Nat, ∃ i : Nat, ∃ s : State, s.mayWrite w = true ∧ (s.updList p).length < 512 ∧ s.flag PPL_STATUS_upd_busy p = false ∧ i < 32768 ∧ clsBad (s.area PPL_UPD_STAGE_byte (256 * p) 256) = false) ∧
    (∃ w : Who, ∃ p : Nat, ∃ i : Nat, ∃ s : State, s.mayWrite w = true ∧ (s.updList p).length < 512 ∧ s.flag PPL_STATUS_upd_busy p = false ∧ i < 32768 ∧ clsBad (s.area PPL_UPD_STAGE_byte (256 * p) 256) = true) ∧
    (∃ w : Who, ∃ p : Nat, ∃ i : Nat, ∃ s : State, s.mayWrite w = true ∧ (s.updList p).length < 512 ∧ s.flag PPL_STATUS_upd_busy p = false ∧ 32768 ≤ i) ∧
    (∃ w : Who, ∃ p : Nat, ∃ i : Nat, ∃ s : State, s.mayWrite w = true ∧ (s.updList p).length < 512 ∧ s.flag PPL_STATUS_upd_busy p = false ∧ i < 32768) ∧
    (∃ w : Who, ∃ p : Nat, ∃ i : Nat, ∃ s : State, s.mayWrite w = true ∧ (s.updList p).length < 512 ∧ s.flag PPL_STATUS_upd_busy p = false ∧ i < 256) ∧
    (∃ w : Who, ∃ p : Nat, ∃ i : Nat, ∃ s : State, s.mayWrite w = true ∧ (s.updList p).length < 512 ∧ s.flag PPL_STATUS_upd_busy p = false ∧ i < 64 ∧ prfBad (s.area PPL_UPD_STAGE_byte (256 * p) 256) = false) ∧
    (∃ w : Who, ∃ p : Nat, ∃ i : Nat, ∃ s : State, s.mayWrite w = true ∧ (s.updList p).length < 512 ∧ s.flag PPL_STATUS_upd_busy p = false ∧ i < 16 ∧ kselBad (s.area PPL_UPD_STAGE_byte (256 * p) 256) = false) ∧
    (∃ w : Who, ∃ p : Nat, ∃ i : Nat, ∃ s : State, s.mayWrite w = true ∧ (s.updList p).length < 512 ∧ s.flag PPL_STATUS_upd_busy p = false ∧ i < 132) ∧
    (∃ w : Who, ∃ p : Nat, ∃ s : State, s.mayWrite w = true ∧ 512 ≤ (s.updList p).length ∧ s.flag PPL_STATUS_upd_busy p = false) ∧
    (∃ w : Who, ∃ p : Nat, ∃ s : State, s.mayWrite w = true ∧ s.flag PPL_STATUS_upd_busy p = true) ∧
    (∃ w : Who, ∃ p : Nat, ∃ s : State, s.mayWrite w = true ∧ s.flag PPL_STATUS_upd_busy p = false ∧ s.updList p ≠ []) ∧
    (∃ w : Who, ∃ p : Nat, ∃ s : State, s.mayWrite w = true ∧ s.flag PPL_STATUS_upd_busy p = false) ∧
    (∃ (p ns n : Nat) (s u v : State), s.flag PPL_STATUS_upd_busy p = true ∧ s.portsOn = true ∧ n = min ns (160 + 35 * (s.updList p).length) ∧
    u = (((forEach (s.updList p) (fun o t => t.updApply p o) s).setUpd p []).put PPL_STATUS_upd_busy p false).put PPL_STATUS_paused p false ∧
    v = u.put PPL_UPD_CTRL_commit p false ∧ (((v.set PPL_UPD_STATUS_last_pause p n).set PPL_UPD_MAXP_max_pause p
      (max n (v.get PPL_UPD_MAXP_max_pause p))).pmu (1 + p) 6 n).flag CLX_rdp p = false) ∧
    (∃ w : Who, ∃ p : Nat, ∃ i : Nat, ∃ s : State, s.mayWrite w = true ∧ ((s.set PPL_CLS_RD_index p i).put PPL_CLS_RD_done p false).flag PPL_STATUS_upd_busy p = false) :=
  ⟨⟨.fw 0, 7, 32767, st [(GLB_STATE_state, 0, dsService), (PPL_STATUS_upd_busy, 7, 0)], by decide +kernel⟩,
   ⟨.fw 0, 0, 0, st [(GLB_STATE_state, 0, dsService), (PPL_STATUS_upd_busy, 0, 0), (PPL_UPD_STAGE_byte, 0, 1)], by decide +kernel⟩,
   ⟨.fw 0, 0, 32768, st [(GLB_STATE_state, 0, dsService), (PPL_STATUS_upd_busy, 0, 0)], by decide +kernel⟩,
   ⟨.fw 0, 7, 32767, st [(GLB_STATE_state, 0, dsService), (PPL_STATUS_upd_busy, 7, 0)], by decide +kernel⟩,
   ⟨.fw 0, 7, 255, st [(GLB_STATE_state, 0, dsService), (PPL_STATUS_upd_busy, 7, 0)], by decide +kernel⟩,
   ⟨.fw 0, 7, 63, st [(GLB_STATE_state, 0, dsService), (PPL_STATUS_upd_busy, 7, 0)], by decide +kernel⟩,
   ⟨.fw 0, 7, 15, st [(GLB_STATE_state, 0, dsService), (PPL_STATUS_upd_busy, 7, 0)], by decide +kernel⟩,
   ⟨.fw 0, 7, 131, st [(GLB_STATE_state, 0, dsService), (PPL_STATUS_upd_busy, 7, 0)], by decide +kernel⟩,
   ⟨.fw 0, 0, { (st [(GLB_STATE_state, 0, dsService), (PPL_STATUS_upd_busy, 0, 0)]) with updq := [(0, List.replicate 512 (0, 0, []))] }, by decide +kernel⟩,
   ⟨.fw 0, 0, st [(GLB_STATE_state, 0, dsService), (PPL_STATUS_upd_busy, 0, 1)], by decide +kernel⟩,
   ⟨.fw 0, 0, { (st [(GLB_STATE_state, 0, dsService), (PPL_STATUS_upd_busy, 0, 0)]) with updq := [(0, [(0, 0, [])])] }, by decide +kernel⟩,
   ⟨.fw 0, 0, st [(GLB_STATE_state, 0, dsService), (PPL_STATUS_upd_busy, 0, 0)], by decide +kernel⟩,
   ⟨0, 100, _, { st [(GLB_STATE_state, 0, dsService), (PPL_STATUS_upd_busy, 0, 1)] with updq := [(0, [(2, 5, [])])] }, _, _, by decide +kernel, by decide +kernel, rfl, rfl, rfl, by decide +kernel⟩,
   ⟨.fw 0, 0, 0, st [(GLB_STATE_state, 0, dsService)], by decide +kernel⟩⟩

theorem wit_TableCommandsOfRegisters :
    (∃ w : Who, ∃ s : State, s.mayWrite w = true ∧ s.flag TBL_CMD_STATUS_busy 0 = false) ∧
    (∃ w : Who, ∃ pipes : Nat, ∃ i : Nat, ∃ s : State, ∃ c : Instr, ∃ op : Nat, ∃ ix : Nat, ∃ n : Nat, s.mayWrite w = true ∧ s.flag TBL_CMD_STATUS_busy 0 = false ∧ (c, op, ix, n) ∈ ([(.lpmInsert w pipes, 0x10, 0, 32), (.lpmDelete w pipes, 0x11, 0, 32), (.lpmReplace w pipes, 0x12, 0, 32), (.lpmRewrite w pipes i, 0x13, i, 32), (.l2Static w pipes, 0x20, 0, 16), (.l2Delete w pipes, 0x21, 0, 16)] : List (Instr × Nat × Nat × Nat)) ∧ bitsSet pipes 8 = []) ∧
    (∃ w : Who, ∃ pipes : Nat, ∃ i : Nat, ∃ s : State, ∃ c : Instr, ∃ op : Nat, ∃ ix : Nat, ∃ n : Nat, s.mayWrite w = true ∧ s.flag TBL_CMD_STATUS_busy 0 = false ∧ (c, op, ix, n) ∈ ([(.lpmInsert w pipes, 0x10, 0, 32), (.lpmDelete w pipes, 0x11, 0, 32), (.lpmReplace w pipes, 0x12, 0, 32), (.lpmRewrite w pipes i, 0x13, i, 32), (.l2Static w pipes, 0x20, 0, 16), (.l2Delete w pipes, 0x21, 0, 16)] : List (Instr × Nat × Nat × Nat)) ∧ bitsSet pipes 8 ≠ []) ∧
    (∃ w : Who, ∃ pipes : Nat, ∃ s : State, s.mayWrite w = true ∧ s.flag TBL_CMD_STATUS_busy 0 = false ∧ bitsSet pipes 8 ≠ []) ∧
    (∃ w : Who, ∃ pipes : Nat, ∃ i : Nat, ∃ s : State, ∃ p, s.mayWrite w = true ∧ s.flag TBL_CMD_STATUS_busy 0 = false ∧ bitsSet pipes 8 = [p] ∧ i < 131072) ∧
    (∃ w : Who, ∃ pipes : Nat, ∃ s : State, ∃ p, s.mayWrite w = true ∧ s.flag TBL_CMD_STATUS_busy 0 = false ∧ bitsSet pipes 8 = [p]) ∧
    (∃ w : Who, ∃ s : State, s.mayWrite w = true ∧ s.flag TBL_CMD_STATUS_busy 0 = true) ∧
    (∃ s : State, s.flag TBL_CMD_STATUS_busy 0 = true ∧ s.portsOn = true ∧ (((State.tblAll 4096 s).flushTo l2End).set TBX_flush 0 0).wf = true) ∧
    (∃ p : Nat, ∃ op : Nat, ∃ ix : Nat, ∃ r : List Byte, ∃ rest : List TblStep, ∃ s : State, s.tblq = .start p op ix r :: rest ∧ 0x20 ≤ op) ∧
    (∃ p : Nat, ∃ op : Nat, ∃ ix : Nat, ∃ r : List Byte, ∃ rest : List TblStep, ∃ s : State, s.tblq = .start p op ix r :: rest ∧ op < 0x20) ∧
    (∃ x : TblStep, ∃ rest : List TblStep, ∃ s : State, s.tblq = x :: rest ∧ s.portsOn = true ∧ s.get TBX_next 0 ≤ s.clk) :=
  ⟨⟨.fw 0, st [(GLB_STATE_state, 0, dsService), (TBL_CMD_STATUS_busy, 0, 0)], by decide +kernel⟩,
   ⟨.fw 0, 0, 65535, st [(GLB_STATE_state, 0, dsService), (TBL_CMD_STATUS_busy, 0, 0)], .lpmRewrite (.fw 0) 0 65535, 0x13, 65535, 32, by decide +kernel⟩,
   ⟨.fw 0, 255, 65535, st [(GLB_STATE_state, 0, dsService), (TBL_CMD_STATUS_busy, 0, 0)], .lpmRewrite (.fw 0) 255 65535, 0x13, 65535, 32, by decide +kernel⟩,
   ⟨.fw 0, 0xFF, st [(GLB_STATE_state, 0, dsService), (TBL_CMD_STATUS_busy, 0, 0)], by decide +kernel⟩,
   ⟨.fw 0, 0x80, 131071, st [(GLB_STATE_state, 0, dsService), (TBL_CMD_STATUS_busy, 0, 0)], 7, by decide +kernel⟩,
   ⟨.fw 0, 0x80, st [(GLB_STATE_state, 0, dsService), (TBL_CMD_STATUS_busy, 0, 0)], 7, by decide +kernel⟩,
   ⟨.fw 0, st [(GLB_STATE_state, 0, dsService), (TBL_CMD_STATUS_busy, 0, 1)], by decide +kernel⟩,
   ⟨st [(GLB_STATE_state, 0, dsService), (TBL_CMD_STATUS_busy, 0, 1)], by decide +kernel⟩,
   ⟨7, 0x21, 0, [], [], { (st [(GLB_STATE_state, 0, dsService)]) with tblq := [.start 7 0x21 0 []] }, by decide +kernel⟩,
   ⟨7, 0x13, 65535, [], [], { (st [(GLB_STATE_state, 0, dsService)]) with tblq := [.start 7 0x13 65535 []] }, by decide +kernel⟩,
   ⟨.start 7 0x13 65535 [], [], { (st [(GLB_STATE_state, 0, dsService)]) with tblq := [.start 7 0x13 65535 []] }, by decide +kernel⟩⟩

theorem wit_TablesAgeAndLearn :
    (∃ i : Nat, ∃ s : State, s.portsOn = true ∧ s.get TBL_FLOW_AGE_period 0 ≠ 0 ∧ feValid (s.flowRec i) = true ∧ feHit (s.flowRec i) = true) ∧
    (∃ i : Nat, ∃ s : State, s.portsOn = true ∧ s.get TBL_FLOW_AGE_period 0 ≠ 0 ∧ feValid (s.flowRec i) = true ∧ feHit (s.flowRec i) = false ∧ feStatic (s.flowRec i) = false) ∧
    (∃ i : Nat, ∃ s : State, s.portsOn = true ∧ s.get TBL_FLOW_AGE_period 0 ≠ 0 ∧ feValid (s.flowRec i) = true ∧ feHit (s.flowRec i) = false ∧ feStatic (s.flowRec i) = true) ∧
    (∃ s : State, s.portsOn = true ∧ s.get TBL_FLOW_AGE_period 0 ≠ 0) ∧
    (∃ p : Nat, ∃ bd : Nat, ∃ mac : List Byte, ∃ port : Nat, ∃ rest : List (Nat × List Byte × Nat), ∃ s : State, SM.get [] s.learnq p = (bd, mac, port) :: rest ∧ s.portsOn = true) ∧
    (∃ p : Nat, ∃ i : Nat, ∃ s : State, s.portsOn = true ∧ leValid (s.l2Rec p i) = true ∧ leHeld (s.l2Rec p i) = true) ∧
    (∃ p : Nat, ∃ i : Nat, ∃ s : State, s.portsOn = true ∧ leValid (s.l2Rec p i) = true ∧ s.get TBL_L2_CFG_age_ms p ≠ 0 ∧ leHit (s.l2Rec p i) = true) ∧
    (∃ p : Nat, ∃ i : Nat, ∃ s : State, s.portsOn = true ∧ leValid (s.l2Rec p i) = true ∧ s.get TBL_L2_CFG_age_ms p ≠ 0 ∧ leHit (s.l2Rec p i) = false ∧ leStatic (s.l2Rec p i) = false ∧ leHeld (s.l2Rec p i) = false) ∧
    (∃ s : State, s.portsOn = true) ∧
    (∃ w : Who, ∃ s : State, s.mayWrite w = true) :=
  ⟨⟨0, st [(GLB_STATE_state, 0, dsService), (TBL_FLOW_AGE_period, 0, 1), (FLX_ent, 0, 5 * 2 ^ 448)], by decide +kernel⟩,
   ⟨0, st [(GLB_STATE_state, 0, dsService), (TBL_FLOW_AGE_period, 0, 1), (FLX_ent, 0, 1 * 2 ^ 448)], by decide +kernel⟩,
   ⟨0, st [(GLB_STATE_state, 0, dsService), (TBL_FLOW_AGE_period, 0, 1), (FLX_ent, 0, 3 * 2 ^ 448)], by decide +kernel⟩,
   ⟨st [(GLB_STATE_state, 0, dsService), (TBL_FLOW_AGE_period, 0, 1)], by decide +kernel⟩,
   ⟨0, 1, [], 0x4FF, [], { (st [(GLB_STATE_state, 0, dsService)]) with learnq := [(0, [(1, [], 0x4FF)])] }, by decide +kernel⟩,
   ⟨0, 0, st [(GLB_STATE_state, 0, dsService), (L2X_ent, l2ix 0 0, 9 * 2 ^ 104)], by decide +kernel⟩,
   ⟨0, 0, st [(GLB_STATE_state, 0, dsService), (TBL_L2_CFG_age_ms, 0, 1), (L2X_ent, l2ix 0 0, 5 * 2 ^ 104)], by decide +kernel⟩,
   ⟨0, 0, st [(GLB_STATE_state, 0, dsService), (TBL_L2_CFG_age_ms, 0, 1), (L2X_ent, l2ix 0 0, 1 * 2 ^ 104)], by decide +kernel⟩,
   ⟨st [(GLB_STATE_state, 0, dsService)], by decide +kernel⟩,
   ⟨.fw 0, st [(GLB_STATE_state, 0, dsService)], by decide +kernel⟩⟩

theorem wit_LinksAndPauses :
    (∃ w : Who, ∃ v : Nat, ∃ s : State, s.mayWrite w = true ∧ bit v 31 = false ∧ v % 2 ^ 12 ≠ s.get MAC_NMODE_quad 0 ∧ quadBad (v % 2 ^ 12) = false ∧ s.dev = dsIdle) ∧
    (∃ w : Who, ∃ v : Nat, ∃ s : State, s.mayWrite w = true ∧ bit v 31 = false ∧ v % 2 ^ 12 ≠ s.get MAC_NMODE_quad 0 ∧ s.dev ≠ dsIdle) ∧
    (∃ w : Who, ∃ v : Nat, ∃ s : State, s.mayWrite w = true ∧ bit v 31 = false ∧ v % 2 ^ 12 ≠ s.get MAC_NMODE_quad 0 ∧ quadBad (v % 2 ^ 12) = true) ∧
    (∃ m : Nat, ∃ s : State, m < 16 ∧ s.portsOn = true ∧ s.sdsReady m = true ∧ s.netPresent m = true ∧ s.flag MAC_NPORT_CFG_en m = true ∧ s.flag FLT_porth m = false ∧ s.flag MAC_NPORT_STATUS_link m = false) ∧
    (∃ n : Nat, ∃ s : State, n < 16 ∧ s.portsOn = true ∧ s.sdsReady (16 + n) = true ∧ s.flag TLK_CFG_en n = true ∧ (s.flag SB_STATUS_rst_n n = true ∨ s.slotDriven n = false) ∧ s.flag FLT_porth (16 + n) = false ∧ s.flag TLK_STATUS_link n = false) ∧
    (∃ m : Nat, m ≠ 32) ∧
    (∃ n : Nat, ∃ s : State, s.linkHears n = true) ∧
    (∃ n : Nat, ∃ s : State, s.open_ = false ∧ s.portsOn = true ∧ s.flag TLK_STATUS_link n = true) ∧
    (∃ n : Nat, ∃ s : State, s.netHears n = true) ∧
    (∃ n : Nat, ∃ s : State, s.open_ = false ∧ s.portsOn = true ∧ s.portUp n = true) ∧
    (∃ n : Nat, ∃ c : Nat, ∃ s : State, s.flag TLK_CH_CFG_paused (64 * n + c) = true ∧ reached64 s.clk (s.get PT_paused (4096 + (64 * n + c))) = true) ∧
    (∃ n : Nat, ∃ s : State, s.portsOn = true ∧ ((List.range 64).filter (fun c => s.flag PT_xoff (4096 + (64 * n + c)) && s.get TLK_CH_CFG_xoff (64 * n + c) != 0 && decide (s.get TLK_CH_CFG_xon (64 * n + c) ≤ s.storedKib (0x100 + (64 * n + c))))) ≠ []) ∧
    (∃ n : Nat, ∃ p : Nat, ∃ s : State, p ≤ 8 ∧ (if p = 8 then s.flag MAC_NPORT_STATUS_tx_paused n else bit (s.get MAC_NPORT_STATUS_pfc_paused n) p) = true ∧ reached64 s.clk (s.get PT_paused (16 * n + p)) = true) ∧
    (∃ n : Nat, ∃ s : State, s.portsOn = true ∧ s.get MAC_NPORT_FC_xoff n ≠ 0 ∧ s.get MAC_NPORT_FC_fc_mode n = 1 ∧ s.flag PT_xoff (16 * n + 8) = true ∧ s.get MAC_NPORT_FC_xon n ≤ s.storedKib n) ∧
    (∃ n : Nat, ∃ s : State, s.portsOn = true ∧ s.get MAC_NPORT_FC_xoff n ≠ 0 ∧ s.get MAC_NPORT_FC_fc_mode n = 2 ∧ ((List.range 8).filter (fun p => s.flag PT_xoff (16 * n + p) && decide (s.get MAC_NPORT_FC_xon n ≤ s.prioKib n p))) ≠ []) ∧
    (∃ w : Who, ∃ r : Nat, ∃ k : Nat, ∃ s : State, readerOf w = some r ∧ s.busOpen w = true ∧ k ≠ cPausedNs) ∧
    (∃ w : Who, ∃ r : Nat, ∃ id : Nat, ∃ s : State, readerOf w = some r ∧ s.busOpen w = true ∧ isExt id = true) ∧
    (∃ w : Who, ∃ r : Nat, ∃ s : State, readerOf w = some r ∧ s.busOpen w = true) :=
  ⟨⟨.fw 0, 1, st [(GLB_STATE_state, 0, dsIdle)], by decide +kernel⟩,
   ⟨.fw 0, 0xFFF, st [(GLB_STATE_state, 0, dsService)], by decide +kernel⟩,
   ⟨.fw 0, 6, st [(GLB_STATE_state, 0, dsService)], by decide +kernel⟩,
   ⟨15, st [(GLB_STATE_state, 0, dsService), (MAC_NPORT_CFG_en, 15, 1), (FLT_porth, 15, 0), (MAC_NPORT_STATUS_link, 15, 0), (MAC_NMODE_quad, 0, 512), (SDS_cal, 0, 8)], by decide +kernel⟩,
   ⟨15, st [(GLB_STATE_state, 0, dsService), (TLK_CFG_en, 15, 1), (FLT_porth, (16 + 15), 0), (TLK_STATUS_link, 15, 0), (SDS_cal, 0, 128), (SB_STATUS_rst_n, 15, 1)], by decide +kernel⟩,
   ⟨0, by decide +kernel⟩,
   ⟨15, st [(GLB_STATE_state, 0, dsService), (TLK_STATUS_link, 15, 1)], by decide +kernel⟩,
   ⟨15, st [(GLB_STATE_state, 0, dsService), (TLK_STATUS_link, 15, 1), (GLB_STATUS_dp_draining, 0, 1), (TLK_STATUS_link, 15, 1)], by decide +kernel⟩,
   ⟨0, st [(GLB_STATE_state, 0, dsService), (MAC_NMODE_quad, 0, 1), (MAC_NPORT_STATUS_link, 0, 1)], by decide +kernel⟩,
   ⟨0, st [(GLB_STATE_state, 0, dsService), (GLB_STATUS_dp_draining, 0, 1), (MAC_NMODE_quad, 0, 1), (MAC_NPORT_STATUS_link, 0, 1)], by decide +kernel⟩,
   ⟨0, 0, st [(GLB_STATE_state, 0, dsService), (TLK_CH_CFG_paused, (64 * 0 + 0), 1)], by decide +kernel⟩,
   ⟨15, st [(GLB_STATE_state, 0, dsService), (PT_xoff, 5056, 1), (TLK_CH_CFG_xoff, 960, 8)], by decide +kernel⟩,
   ⟨0, 8, st [(GLB_STATE_state, 0, dsService), (MAC_NPORT_STATUS_tx_paused, 0, 1)], by decide +kernel⟩,
   ⟨0, st [(GLB_STATE_state, 0, dsService), (MAC_NPORT_FC_xoff, 0, 1), (MAC_NPORT_FC_fc_mode, 0, 1), (PT_xoff, (16 * 0 + 8), 1), (MAC_NMODE_quad, 0, 1), (MAC_NPORT_STATUS_link, 0, 1)], by decide +kernel⟩,
   ⟨0, st [(GLB_STATE_state, 0, dsService), (MAC_NPORT_FC_xoff, 0, 1), (MAC_NPORT_FC_fc_mode, 0, 2), (PT_xoff, 7, 1)], by decide +kernel⟩,
   ⟨.fw 0, 2, 0, st [(GLB_STATE_state, 0, dsService)], by decide +kernel⟩,
   ⟨.bmc, 3, 0x100, st [(GLB_STATE_state, 0, dsService)], by decide +kernel⟩,
   ⟨.pf 1, 1, st [(GLB_STATE_state, 0, dsService), (CFG_mse, 1, 1)], by decide +kernel⟩⟩

theorem wit_SidebandAndShell :
    (∃ w : Who, ∃ sl : Nat, ∃ s : State, s.sbOpen w = true ∧ s.flag SB_STATUS_busy sl = false ∧ s.get SBX_hit sl ≠ s.clk + 1 ∧ s.slotDriven sl = true ∧ s.flag SB_STATUS_prsnt sl = true ∧ s.flag SB_STATUS_pwren sl = false) ∧
    (∃ w : Who, ∃ sl : Nat, ∃ s : State, s.sbOpen w = true ∧ s.flag SB_STATUS_busy sl = false ∧ s.get SBX_hit sl ≠ s.clk + 1 ∧ s.slotDriven sl = true) ∧
    (∃ w : Who, ∃ sl : Nat, ∃ s : State, s.sbOpen w = true ∧ s.flag SB_STATUS_busy sl = false ∧ s.get SBX_hit sl ≠ s.clk + 1 ∧ s.slotDriven sl = true ∧ s.flag SB_STATUS_pwren sl = true ∧ s.flag SB_STATUS_fault sl = false ∧ s.slotLive = true) ∧
    (∃ w : Who, ∃ sl : Nat, ∃ s : State, s.sbOpen w = true ∧ (s.flag SB_STATUS_busy sl = true ∨ s.get SBX_hit sl = s.clk + 1)) ∧
    (∃ sl : Nat, ∃ s : State, s.get SBX_seq sl = 1) ∧
    (∃ sl : Nat, ∃ s : State, s.get SBX_seq sl = 2 ∧ s.flag SB_CFG_auto_rel sl = true) ∧
    (∃ sl : Nat, ∃ s : State, s.get SBX_seq sl = 2 ∧ s.flag SB_CFG_auto_rel sl = false) ∧
    (∃ sl : Nat, ∃ s : State, s.get SBX_seq sl = 3) ∧
    (∃ sl : Nat, ∃ s : State, s.get SBX_seq sl = 4) ∧
    (∃ sl : Nat, ∃ p : Bool, ∃ s : State, s.dev ≠ 0 ∧ s.flag SB_STATUS_prsnt sl = !p ∧ (p = true ∨ ((if p then (s.put SB_STATUS_prsnt sl p).put SB_STATUS_prsnt_chg sl true else ((s.put SB_STATUS_prsnt sl p).put SB_STATUS_prsnt_chg sl true).slotHit sl)).flag SB_CFG_surprise_off sl = false)) ∧
    (∃ sl : Nat, ∃ s : State, s.dev ≠ 0 ∧ s.flag SB_STATUS_prsnt sl = !false ∧ false = false ∧ ((if false then (s.put SB_STATUS_prsnt sl false).put SB_STATUS_prsnt_chg sl true else ((s.put SB_STATUS_prsnt sl false).put SB_STATUS_prsnt_chg sl true).slotHit sl)).flag SB_CFG_surprise_off sl = true ∧ (((if false then (s.put SB_STATUS_prsnt sl false).put SB_STATUS_prsnt_chg sl true else ((s.put SB_STATUS_prsnt sl false).put SB_STATUS_prsnt_chg sl true).slotHit sl)).flag SB_STATUS_pwren sl = true ∨ ((if false then (s.put SB_STATUS_prsnt sl false).put SB_STATUS_prsnt_chg sl true else ((s.put SB_STATUS_prsnt sl false).put SB_STATUS_prsnt_chg sl true).slotHit sl)).flag SB_STATUS_busy sl = true)) ∧
    (∃ w : Who, ∃ sl : Nat, ∃ v : Nat, ∃ s : State, s.sbOpen w = true ∧ s.flag SB_I2C_CMD_go sl = false ∧ 1 ≤ v / 2 ^ 12 % 2 ^ 4 ∧ v / 2 ^ 12 % 2 ^ 4 ≤ 8 ∧ v / 2 ^ 16 % 2 ^ 4 ≤ 8) ∧
    (∃ (sl status : Nat) (s : State), s.flag SB_I2C_CMD_go sl = true ∧ status ≠ 0) ∧
    (∃ sl : Nat, ∃ s : State, s.flag SB_I2C_CMD_go sl = true ∧ s.i2cReads sl ≠ 0) ∧
    (∃ w : Who, ∃ sl : Nat, ∃ v : Nat, ∃ s : State, s.mayWrite w = true ∧ s.flag SHL_CMD_busy sl = false ∧ (((s.set SHL_CMD_addr sl (v / 2 ^ 32 % 2 ^ 32)).set SHL_CMD_len sl (v / 2 ^ 16 % 2 ^ 3)).put SHL_CMD_wr sl (bit v 8)).flag TLK_STATUS_link sl = true) ∧
    (∃ w : Who, ∃ sl : Nat, ∃ v : Nat, ∃ s : State, s.mayWrite w = true ∧ s.flag SHL_CMD_busy sl = false ∧ (((s.set SHL_CMD_addr sl (v / 2 ^ 32 % 2 ^ 32)).set SHL_CMD_len sl (v / 2 ^ 16 % 2 ^ 3)).put SHL_CMD_wr sl (bit v 8)).flag TLK_STATUS_link sl = false) ∧
    (∃ sl : Nat, ∃ s : State, s.linkHears sl = true) ∧
    (∃ sl : Nat, ∃ s : State, s.open_ = false ∧ s.portsOn = true ∧ s.flag TLK_STATUS_link sl = true) :=
  ⟨⟨.fw 0, 0, st [(GLB_STATE_state, 0, dsService), (SB_STATUS_busy, 0, 0), (SB_STATUS_prsnt, 0, 1), (SB_STATUS_pwren, 0, 0)], by decide +kernel⟩,
   ⟨.fw 0, 0, st [(GLB_STATE_state, 0, dsService), (SB_STATUS_busy, 0, 0)], by decide +kernel⟩,
   ⟨.fw 0, 0, st [(GLB_STATE_state, 0, dsService), (SB_STATUS_busy, 0, 0), (SB_STATUS_pwren, 0, 1), (SB_STATUS_fault, 0, 0)], by decide +kernel⟩,
   ⟨.fw 0, 15, st [(GLB_STATE_state, 0, dsService), (SB_STATUS_busy, 15, 1)], by decide +kernel⟩,
   ⟨0, st [(GLB_STATE_state, 0, dsService), (SBX_seq, 0, 1)], by decide +kernel⟩,
   ⟨0, st [(GLB_STATE_state, 0, dsService), (SBX_seq, 0, 2), (SB_CFG_auto_rel, 0, 1)], by decide +kernel⟩,
   ⟨0, st [(GLB_STATE_state, 0, dsService), (SBX_seq, 0, 2), (SB_CFG_auto_rel, 0, 0)], by decide +kernel⟩,
   ⟨0, st [(GLB_STATE_state, 0, dsService), (SBX_seq, 0, 3)], by decide +kernel⟩,
   ⟨0, st [(GLB_STATE_state, 0, dsService), (SBX_seq, 0, 4)], by decide +kernel⟩,
   ⟨0, true, st [(GLB_STATE_state, 0, dsService)], by decide +kernel⟩,
   ⟨0, st [(GLB_STATE_state, 0, dsService), (SB_STATUS_prsnt, 0, 1), (SB_CFG_surprise_off, 0, 1), (SB_STATUS_pwren, 0, 1)], by decide +kernel⟩,
   ⟨.fw 0, 0, 0x88000, st [(GLB_STATE_state, 0, dsService), (SB_I2C_CMD_go, 0, 0)], by decide +kernel⟩,
   ⟨15, 3, st [(SB_I2C_CMD_go, 15, 1)], by decide +kernel⟩,
   ⟨0, st [(GLB_STATE_state, 0, dsService), (SB_I2C_CMD_go, 0, 1), (SB_I2C_CMD_rlen, 0, 8)], by decide +kernel⟩,
   ⟨.fw 0, 0, 0, st [(GLB_STATE_state, 0, dsService), (SHL_CMD_busy, 0, 0), (TLK_STATUS_link, 0, 1)], by decide +kernel⟩,
   ⟨.fw 0, 0, 0, st [(GLB_STATE_state, 0, dsService), (SHL_CMD_busy, 0, 0)], by decide +kernel⟩,
   ⟨0, st [(GLB_STATE_state, 0, dsService), (TLK_STATUS_link, 0, 1)], by decide +kernel⟩,
   ⟨15, st [(GLB_STATE_state, 0, dsService), (TLK_STATUS_link, 15, 1), (GLB_STATUS_dp_draining, 0, 1), (TLK_STATUS_link, 15, 1)], by decide +kernel⟩⟩

theorem wit_SchedulerAndGates :
    (∃ w : Who, ∃ v : Nat, ∃ s : State, s.mayWrite w = true ∧ bit v 31 = false ∧ v % 2 ^ 17 ≠ s.get SCH_BUF_CFG_host_kib 0 ∧ s.dev = dsIdle ∧ s.bufTooBig (v % 2 ^ 17) none = false) ∧
    (∃ w : Who, ∃ v : Nat, ∃ s : State, s.mayWrite w = true ∧ bit v 31 = false ∧ v % 2 ^ 17 ≠ s.get SCH_BUF_CFG_host_kib 0 ∧ s.dev ≠ dsIdle) ∧
    (∃ w : Who, ∃ id : Nat, ∃ v : Nat, ∃ s : State, s.mayWrite w = true ∧ isExt id = true ∧ v / 2 ^ 16 % 2 ^ 3 ≠ 7 ∧ s.dev = dsIdle ∧ v / 2 ^ 16 % 2 ^ 3 ≠ s.get SCH_BUF_PORT_alpha id ∧ s.bufTooBig (s.get SCH_BUF_CFG_host_kib 0) (some (id, v % 2 ^ 16)) = false) ∧
    (∃ w : Who, ∃ i : Nat, ∃ s : State, s.mayWrite w = true ∧ isExt i = true) ∧
    (∃ w : Who, ∃ i : Nat, ∃ s : State, s.mayWrite w = true ∧ i < 4098 ∧ ownerMay w i = true) ∧
    (∃ w : Who, ∃ lv : Nat, ∃ i : Nat, ∃ s : State, s.mayWrite w = true ∧ s.flag SCH_NODE_STATUS_busy 0 = false ∧ s.nodeCheck w lv i (s.area SCH_NODE_STAGE_byte 0 32) = 0) ∧
    (∃ w : Who, ∃ lv : Nat, ∃ i : Nat, ∃ s : State, s.mayWrite w = true ∧ s.flag SCH_NODE_STATUS_busy 0 = false ∧ s.nodeCheck w lv i (s.area SCH_NODE_STAGE_byte 0 32) ≠ 0) ∧
    (∃ w : Who, ∃ s : State, s.mayWrite w = true ∧ s.flag SCH_NODE_STATUS_busy 0 = true) ∧
    (∃ w : Who, ∃ lv : Nat, ∃ i : Nat, ∃ s : State, s.mayWrite w = true ∧ s.flag SCH_NODE_STATUS_busy 0 = false ∧ nodeExists lv i = true) ∧
    (∃ (m l f : Nat) (s t : State), s.portsOn = true ∧ s.macBusy m = false ∧ s.select m = (some l, t) ∧ t.headOf l = some f) ∧
    (∃ m : Nat, ∃ f : Nat, ∃ port : Nat, ∃ s : State, s.dev ≠ dsAonOnly ∧ s.dev ≠ 0 ∧ m < 32 ∧ s.get PT_tx (macIx m) = f + 1 ∧ (s.frame f).stage = .sending port) ∧
    (∃ w : Who, ∃ id : Nat, ∃ s : State, s.mayWrite w = true ∧ schPort id = true ∧ s.gateReason id = 0 ∧ (((s.get SCH_GATE_BASE_base id + 2 ^ 48 - s.now % 2 ^ 48) % 2 ^ 48) < 200 ∨ 2 ^ 47 ≤ ((s.get SCH_GATE_BASE_base id + 2 ^ 48 - s.now % 2 ^ 48) % 2 ^ 48))) ∧
    (∃ w : Who, ∃ id : Nat, ∃ s : State, s.mayWrite w = true ∧ schPort id = true ∧ s.gateReason id = 0 ∧ 200 ≤ ((s.get SCH_GATE_BASE_base id + 2 ^ 48 - s.now % 2 ^ 48) % 2 ^ 48) ∧ ((s.get SCH_GATE_BASE_base id + 2 ^ 48 - s.now % 2 ^ 48) % 2 ^ 48) < 2 ^ 47) ∧
    (∃ w : Who, ∃ id : Nat, ∃ s : State, s.mayWrite w = true ∧ s.get GTX_tick id ≠ s.get CLK_ticks 0 + 1 ∧ s.flag SCH_GATE_STATUS_pending id = true ∧ reached48 s.now (s.get GTX_base id) = false) ∧
    (∃ w : Who, ∃ id : Nat, ∃ s : State, s.mayWrite w = true ∧ s.get GTX_tick id ≠ s.get CLK_ticks 0 + 1 ∧ s.flag SCH_GATE_STATUS_pending id = true ∧ reached48 s.now (s.get GTX_base id) = true) ∧
    (∃ w : Who, ∃ id : Nat, ∃ s : State, s.mayWrite w = true ∧ s.get GTX_tick id = s.get CLK_ticks 0 + 1) ∧
    (∃ id : Nat, ∃ s : State, s.wf = true ∧ s.flag SCH_GATE_STATUS_pending id = true ∧ reached48 s.now (s.get GTX_base id) = true) ∧
    (∃ w : Who, ∃ s : State, s.mayWrite w = true ∧ schPort (s.get SCH_GATE_SEL_port 0) = true ∧ s.bankLocked (s.get SCH_GATE_SEL_port 0) (s.get SCH_GATE_SEL_bank 0) = false) ∧
    (∃ w : Who, ∃ s : State, s.mayWrite w = true ∧ schPort (s.get SCH_GATE_SEL_port 0) = true ∧ s.bankLocked (s.get SCH_GATE_SEL_port 0) (s.get SCH_GATE_SEL_bank 0) = true) ∧
    (∃ s : State, s.flag SCH_SMP_CFG_en 0 = true ∧ s.portsOn = true) :=
  ⟨⟨.fw 0, 0, st [(GLB_STATE_state, 0, dsIdle)], by decide +kernel⟩,
   ⟨.fw 0, 0, st [(GLB_STATE_state, 0, dsService)], by decide +kernel⟩,
   ⟨.fw 0, 0, 0, st [(GLB_STATE_state, 0, dsIdle)], by decide +kernel⟩,
   ⟨.fw 0, 0, st [(GLB_STATE_state, 0, dsService)], by decide +kernel⟩,
   ⟨.fw 0, 0, st [(GLB_STATE_state, 0, dsService)], by decide +kernel⟩,
   ⟨.fw 0, 3, 262143, st [(GLB_STATE_state, 0, dsService), (SCH_NODE_STATUS_busy, 0, 0), (SCH_NODE_STAGE_byte, 4, 1), (ND_valid, ndix 2 0, 1)], by decide +kernel⟩,
   ⟨.fw 0, 0, 0, st [(GLB_STATE_state, 0, dsService), (SCH_NODE_STATUS_busy, 0, 0)], by decide +kernel⟩,
   ⟨.fw 0, st [(GLB_STATE_state, 0, dsService), (SCH_NODE_STATUS_busy, 0, 1)], by decide +kernel⟩,
   ⟨.fw 0, 0, 0, st [(GLB_STATE_state, 0, dsService), (SCH_NODE_STATUS_busy, 0, 0)], by decide +kernel⟩,
   ⟨0, 0, 0, leafed, (leafed.select 0).2, by decide +kernel, by decide +kernel, by rw [← (by decide +kernel : (leafed.select 0).1 = some 0)], by decide +kernel⟩,
   ⟨0, 0, 0x4FF, { (st [(GLB_STATE_state, 0, dsService), (PT_tx, (macIx 0), 0 + 1)]) with frames := [(0, { stage := .sending 0x4FF })] }, by decide +kernel⟩,
   ⟨.fw 0, 0, st [(GLB_STATE_state, 0, dsService), (SCH_GATE_LIST_len, 0, 1), (SCH_GATE_CYCLE_cycle, 0, 1000), (SCH_GATE_ENTRY_byte, gateIx 0 0 0, 20)], by decide +kernel⟩,
   ⟨.fw 0, 0, st [(GLB_STATE_state, 0, dsService), (SCH_GATE_LIST_len, 0, 1), (SCH_GATE_CYCLE_cycle, 0, 1000), (SCH_GATE_ENTRY_byte, gateIx 0 0 0, 20), (SCH_GATE_BASE_base, 0, 200)], by decide +kernel⟩,
   ⟨.fw 0, 0, st [(GLB_STATE_state, 0, dsService), (SCH_GATE_STATUS_pending, 0, 1), (GTX_base, 0, 1)], by decide +kernel⟩,
   ⟨.fw 0, 0, st [(GLB_STATE_state, 0, dsService), (SCH_GATE_STATUS_pending, 0, 1)], by decide +kernel⟩,
   ⟨.fw 0, 0, st [(GLB_STATE_state, 0, dsService), (GTX_tick, 0, 1)], by decide +kernel⟩,
   ⟨0, st [(GLB_STATE_state, 0, dsService), (SCH_GATE_STATUS_pending, 0, 1)], by decide +kernel⟩,
   ⟨.fw 0, st [(GLB_STATE_state, 0, dsService)], by decide +kernel⟩,
   ⟨.fw 0, st [(GLB_STATE_state, 0, dsService), (SCH_GATE_STATUS_active_valid, 0, 1)], by decide +kernel⟩,
   ⟨st [(GLB_STATE_state, 0, dsService), (SCH_SMP_CFG_en, 0, 1)], by decide +kernel⟩⟩

theorem wit_MeridianTimeIsSteered :
    (∃ w : Who, ∃ s : State, s.busOpen w = true) ∧
    (∃ w : Who, ∃ v : Nat, ∃ s : State, s.mayWrite w = true ∧ s.inDrift = false ∧ 0x00FFBE76C9 ≤ v % 2 ^ 40 ∧ v % 2 ^ 40 ≤ 0x0100418937) ∧
    (∃ w : Who, ∃ v : Nat, ∃ s : State, s.mayWrite w = true ∧ (s.inDrift = true ∨ v % 2 ^ 40 < 0x00FFBE76C9 ∨ 0x0100418937 < v % 2 ^ 40)) ∧
    (∃ w : Who, ∃ n : Nat, ∃ s : State, s.mayWrite w = true ∧ (s.adjCtrl false n).inDrift = false) ∧
    (∃ w : Who, ∃ n : Nat, ∃ s : State, s.mayWrite w = true ∧ (s.adjCtrl true n).inDrift = false) ∧
    (∃ w : Who, ∃ n : Nat, ∃ s : State, s.mayWrite w = true ∧ (s.adjCtrl false n).inDrift = true) ∧
    (∃ s : State, s.flag MT_STATUS_slewing 0 = true) ∧
    (∃ s : State, s.flag MT_STATUS_slewing 0 = true ∧ s.get MT_ADJ_CTRL_slew 0 ≠ 0) ∧
    (∃ s : State, s.dev ≠ 0 ∧ s.get MT_CFG_ref_sel 0 ≠ 0 ∧ s.flag MTX_lost 0 = false) ∧
    (∃ s : State, s.dev ≠ 0 ∧ (s.get MT_CFG_ref_sel 0 ≠ 0 ∨ s.flag CLK_lost 0 = false)) ∧
    (∃ w : Who, ∃ s : State, s.mayWrite w = true) ∧
    (∃ w : Who, ∃ s : State, ∃ e : Bool, s.mayWrite w = true ∧ (s.put MT_CTRL_exit_step 0 e).inDrift = true ∧ (s.put MT_CTRL_exit_step 0 e).driftMayEnd = true ∧ (s.put MT_CTRL_exit_step 0 e).leaveDrift.get MT_ADJ_offset 0 = 0) ∧
    (∃ w : Who, ∃ s : State, ∃ e : Bool, s.mayWrite w = true ∧ (s.put MT_CTRL_exit_step 0 e).inDrift = true ∧ (s.put MT_CTRL_exit_step 0 e).driftMayEnd = true ∧ (s.put MT_CTRL_exit_step 0 e).leaveDrift.get MT_ADJ_offset 0 ≠ 0) ∧
    (∃ w : Who, ∃ s : State, ∃ e : Bool, s.mayWrite w = true ∧ (s.put MT_CTRL_exit_step 0 e).inDrift = true ∧ (s.put MT_CTRL_exit_step 0 e).driftMayEnd = false) ∧
    (∃ w : Who, ∃ s : State, ∃ e : Bool, s.mayWrite w = true ∧ (s.put MT_CTRL_exit_step 0 e).inDrift = false) ∧
    (∃ w : Who, ∃ v : Nat, ∃ s : State, s.mayWrite w = true ∧ v / 2 ^ 63 % 2 = 0) ∧
    (∃ w : Who, ∃ v : Nat, ∃ s : State, s.mayWrite w = true ∧ v / 2 ^ 63 % 2 = 1 ∧ s.flag MT_PPS_en 0 = true) ∧
    (∃ w : Who, ∃ v : Nat, ∃ s : State, s.mayWrite w = true ∧ v / 2 ^ 63 % 2 = 1 ∧ s.flag MT_PPS_en 0 = false) ∧
    (∃ s : State, s.flag MT_PPS_en 0 = true ∧ s.flag MTX_pps 0 = false ∧ s.dev ≠ dsWhiteout ∧ s.get MTX_ppsidx 0 < ppsIdx s.ppsNow s.ppsOff) ∧
    (∃ s : State, s.flag MTX_pps 0 = true ∧ reached64 s.now (((s.get MTX_ppsq 0 + 4000 * s.get MTX_ppsw 0) % 2 ^ 66) / 4) = true) :=
  ⟨⟨.fw 0, st [(GLB_STATE_state, 0, dsService)], by decide +kernel⟩,
   ⟨.fw 0, 0x0100418937, st [(GLB_STATE_state, 0, dsService), (MT_STATUS_drift, 0, 0)], by decide +kernel⟩,
   ⟨.fw 0, 0, st [(GLB_STATE_state, 0, dsService)], by decide +kernel⟩,
   ⟨.fw 0, 0, st [(GLB_STATE_state, 0, dsService), (MT_STATUS_drift, 0, 0)], by decide +kernel⟩,
   ⟨.fw 0, 0, st [(GLB_STATE_state, 0, dsService), (MT_STATUS_drift, 0, 0)], by decide +kernel⟩,
   ⟨.fw 0, 0, st [(GLB_STATE_state, 0, dsService)], by decide +kernel⟩,
   ⟨st [(GLB_STATE_state, 0, dsService), (MT_STATUS_slewing, 0, 1)], by decide +kernel⟩,
   ⟨st [(GLB_STATE_state, 0, dsService), (MT_STATUS_slewing, 0, 1), (MT_ADJ_CTRL_slew, 0, 1)], by decide +kernel⟩,
   ⟨st [(GLB_STATE_state, 0, dsService), (MT_CFG_ref_sel, 0, 1), (MTX_lost, 0, 0)], by decide +kernel⟩,
   ⟨st [(GLB_STATE_state, 0, dsService)], by decide +kernel⟩,
   ⟨.fw 0, st [(GLB_STATE_state, 0, dsService)], by decide +kernel⟩,
   ⟨.fw 0, st [(GLB_STATE_state, 0, dsService), (GLB_STATE_boot_step, 0, 10)], false, by decide +kernel⟩,
   ⟨.fw 0, st [(GLB_STATE_state, 0, dsService), (GLB_STATE_boot_step, 0, 10), (MT_ADJ_offset, 0, 7)], false, by decide +kernel⟩,
   ⟨.fw 0, st [(GLB_STATE_state, 0, dsService)], false, by decide +kernel⟩,
   ⟨.fw 0, st [(GLB_STATE_state, 0, dsService), (MT_STATUS_drift, 0, 0)], false, by decide +kernel⟩,
   ⟨.fw 0, 0, st [(GLB_STATE_state, 0, dsService)], by decide +kernel⟩,
   ⟨.fw 0, 2 ^ 63, st [(GLB_STATE_state, 0, dsService), (MT_PPS_en, 0, 1)], by decide +kernel⟩,
   ⟨.fw 0, 2 ^ 63, st [(GLB_STATE_state, 0, dsService), (MT_PPS_en, 0, 0)], by decide +kernel⟩,
   ⟨st [(GLB_STATE_state, 0, dsService), (MT_PPS_en, 0, 1), (MTX_pps, 0, 0)], by decide +kernel⟩,
   ⟨st [(GLB_STATE_state, 0, dsService), (MTX_pps, 0, 1)], by decide +kernel⟩⟩

theorem wit_TriggersAndCaptures :
    (∃ w : Who, ∃ s : State, s.mayWrite w = true) ∧
    (∃ w : Who, ∃ k : Nat, ∃ v : Nat, ∃ s : State, s.mayWrite w = true ∧ s.trigLocked k = false ∧ v % 2 ^ 16 ≠ 0 ∧ v % 2 ^ 16 ≠ s.get MT_TRIG_WIDTH_width k) ∧
    (∃ w : Who, ∃ k : Nat, ∃ v : Nat, ∃ s : State, s.mayWrite w = true ∧ s.trigLocked k = false ∧ v ≠ s.get MT_TRIG_TGT_target k) ∧
    (∃ w : Who, ∃ k : Nat, ∃ v : Nat, ∃ s : State, s.mayWrite w = true ∧ s.trigLocked k = true ∧ v ≠ s.get MT_TRIG_TGT_target k) ∧
    (∃ w : Who, ∃ k : Nat, ∃ s : State, s.mayWrite w = true ∧ s.flag MT_TRIG_CFG_own k = true ∧ s.trigLive k = false ∧ s.get MT_TRIG_CFG_action k ≠ 0 ∧ s.get MT_TRIG_CFG_action k ≤ 4 ∧ s.destOk (s.get MT_TRIG_CFG_dest k) = true) ∧
    (∃ w : Who, ∃ k : Nat, ∃ s : State, s.mayWrite w = true ∧ s.flag MT_TRIG_CFG_own k = true ∧ s.trigLive k = true) ∧
    (∃ w : Who, ∃ k : Nat, ∃ s : State, s.mayWrite w = true ∧ s.flag MT_TRIG_CFG_own k = true ∧ s.trigLive k = true ∧ s.fireDue k = false) ∧
    (∃ w : Who, ∃ k : Nat, ∃ s : State, s.mayWrite w = true ∧ s.flag MT_TRIG_CFG_own k = true ∧ s.trigLive k = true ∧ s.fireDue k = true) ∧
    (∃ w : Who, ∃ k : Nat, ∃ s : State, s.mayWrite w = true ∧ s.flag MT_TRIG_CFG_own k = true ∧ s.trigLive k = false) ∧
    (∃ k : Nat, ∃ s : State, s.flag MT_TRIG_STATUS_staged k = true ∧ ((s.get MT_TRIG_TGT_target k + 2 ^ 64 - s.now) % 2 ^ 64 < 2 ^ 46 ∨ 2 ^ 63 ≤ (s.get MT_TRIG_TGT_target k + 2 ^ 64 - s.now) % 2 ^ 64)) ∧
    (∃ k : Nat, ∃ s : State, s.flag MT_TRIG_STATUS_armed k = true ∧ s.trgDue k = true ∧ s.dev ≠ dsWhiteout) ∧
    (∃ k : Nat, ∃ s : State, s.fireDue k = true ∧ s.get TRX_late k ≠ 2 ∧ s.flag MT_TRIG_STATUS_thread k = true) ∧
    (∃ k : Nat, ∃ s : State, s.fireDue k = true ∧ s.get TRX_late k = 2 ∧ s.flag MT_TRIG_STATUS_thread k = false) ∧
    (∃ k : Nat, ∃ sl : Nat, ∃ q : Nat, ∃ rest : List (Nat × Nat × Nat), ∃ s : State, s.falls = (k, sl, q) :: rest ∧ reached64 s.now (q / 4) = true ∧ ((∀ p ∈ rest, p.1 = k → reached64 s.now (p.2.2 / 4) = false))) ∧
    (∃ src : Nat, ∃ s : State, s.dev ≠ dsWhiteout ∧ s.dev ≠ dsAonOnly ∧ s.dev ≠ 0 ∧ src ≤ 0x14) :=
  ⟨⟨.fw 0, st [(GLB_STATE_state, 0, dsService)], by decide +kernel⟩,
   ⟨.fw 0, 255, 0xFFFF, st [(GLB_STATE_state, 0, dsService), (MT_TRIG_CFG_own, 255, 1)], by decide +kernel⟩,
   ⟨.fw 0, 255, 1, st [(GLB_STATE_state, 0, dsService), (MT_TRIG_CFG_own, 255, 1)], by decide +kernel⟩,
   ⟨.fw 0, 0, 1, st [(GLB_STATE_state, 0, dsService)], by decide +kernel⟩,
   ⟨.fw 0, 0, st [(GLB_STATE_state, 0, dsService), (MT_TRIG_CFG_own, 0, 1), (MT_TRIG_CFG_action, 0, 1)], by decide +kernel⟩,
   ⟨.fw 0, 0, st [(GLB_STATE_state, 0, dsService), (MT_TRIG_CFG_own, 0, 1), (MT_TRIG_STATUS_staged, 0, 1)], by decide +kernel⟩,
   ⟨.fw 0, 0, st [(GLB_STATE_state, 0, dsService), (MT_TRIG_CFG_own, 0, 1), (MT_TRIG_STATUS_armed, 0, 1), (TRX_late, 0, 1)], by decide +kernel⟩,
   ⟨.fw 0, 0, st [(GLB_STATE_state, 0, dsService), (MT_TRIG_CFG_own, 0, 1), (MT_TRIG_STATUS_armed, 0, 1), (TRX_late, 0, 2)], by decide +kernel⟩,
   ⟨.fw 0, 0, st [(GLB_STATE_state, 0, dsService), (MT_TRIG_CFG_own, 0, 1)], by decide +kernel⟩,
   ⟨0, st [(GLB_STATE_state, 0, dsService), (MT_TRIG_STATUS_staged, 0, 1)], by decide +kernel⟩,
   ⟨0, st [(GLB_STATE_state, 0, dsService), (MT_TRIG_STATUS_armed, 0, 1)], by decide +kernel⟩,
   ⟨0, st [(GLB_STATE_state, 0, dsService), (MT_TRIG_STATUS_thread, 0, 1), (MT_TRIG_STATUS_armed, 0, 1)], by decide +kernel⟩,
   ⟨0, st [(GLB_STATE_state, 0, dsService), (TRX_late, 0, 2), (MT_TRIG_STATUS_thread, 0, 0), (MT_TRIG_STATUS_armed, 0, 1)], by decide +kernel⟩,
   ⟨0, 15, 7, [(0, 3, 80)], { (st [(GLB_STATE_state, 0, dsService), (MT_NOW_NS_ns, 0, 2)]) with falls := [(0, 15, 7), (0, 3, 80)] }, by decide +kernel⟩,
   ⟨0, st [(GLB_STATE_state, 0, dsService)], by decide +kernel⟩⟩

theorem wit_CipherJobs :
    (∃ q : Nat, ∃ i : Nat, ∃ e : Ent, ∃ s : State, s.entAt q i = some e ∧ s.entGo q i = true ∧ s.qClass q = qcCph ∧ weOpcode e.bytes = coEncrypt) ∧
    (∃ q : Nat, ∃ i : Nat, ∃ e : Ent, ∃ s : State, s.entAt q i = some e ∧ s.entGo q i = true ∧ s.qClass q = qcCph ∧ weOpcode e.bytes = coDecrypt) ∧
    (∃ q : Nat, ∃ i : Nat, ∃ e : Ent, ∃ s : State, s.entAt q i = some e ∧ s.entGo q i = true ∧ s.qClass q = qcCph ∧ weOpcode e.bytes = coMacGen) ∧
    (∃ q : Nat, ∃ i : Nat, ∃ e : Ent, ∃ s : State, s.entAt q i = some e ∧ s.entGo q i = true ∧ s.qClass q = qcCph ∧ weOpcode e.bytes = coMacVerify) ∧
    (∃ s : State, ∃ j, ∃ l, s.dev ≠ dsWhiteout ∧ s.urgentJob = some j ∧ s.idleLane true = some l ∧ s.lanesLeft j.owner = true) ∧
    (∃ s : State, ∃ j, ∃ v, s.dev ≠ dsWhiteout ∧ s.urgentJob = some j ∧ (s.idleLane true = none ∨ s.lanesLeft j.owner = false) ∧ s.victim j.owner = some v) ∧
    (∃ s : State, ∃ j, ∃ l, s.dev ≠ dsWhiteout ∧ s.urgentJob = none ∧ s.idleLane true = some l ∧ s.suspendedJob = some j) ∧
    (∃ s : State, ∃ l, s.dev ≠ dsWhiteout ∧ s.urgentJob = none ∧ s.idleLane true = some l) ∧
    (∃ l : Nat, ∃ j : Job, ∃ s : State, s.laneJob l = some j ∧ j.kind = 1) ∧
    (∃ l : Nat, ∃ j : Job, ∃ s : State, s.laneJob l = some j ∧ j.kind = 2) ∧
    (∃ l : Nat, ∃ j : Job, ∃ s : State, s.laneJob l = some j ∧ j.kind = 0) ∧
    (∃ leaf : Nat, ∃ f : Nat, ∃ l : Nat, ∃ s : State, s.inlineFrame leaf = some f ∧ s.idleLane false = some l ∧ s.moving = true ∧ (s.frame f).phase = 6) ∧
    (∃ leaf : Nat, ∃ f : Nat, ∃ l : Nat, ∃ s : State, s.inlineFrame leaf = some f ∧ s.idleLane false = some l ∧ s.moving = true ∧ (s.frame f).phase ≠ 6 ∧ (s.inlineBad (s.frame f) (s.saRec ((s.frame f).sa - 1))) ≠ 0) ∧
    (∃ leaf : Nat, ∃ f : Nat, ∃ l : Nat, ∃ s : State, s.inlineFrame leaf = some f ∧ s.idleLane false = some l ∧ s.moving = true ∧ (s.frame f).phase ≠ 6 ∧ (s.inlineBad (s.frame f) (s.saRec ((s.frame f).sa - 1))) = 0 ∧ saProto (s.saRec ((s.frame f).sa - 1)) = pMACsec ∧ saIngress (s.saRec ((s.frame f).sa - 1)) = false ∧ 16 ≤ (s.leafPath leaf).2.2) ∧
    (∃ leaf : Nat, ∃ f : Nat, ∃ l : Nat, ∃ s : State, s.inlineFrame leaf = some f ∧ s.idleLane false = some l ∧ s.moving = true ∧ (s.frame f).phase ≠ 6 ∧ (s.inlineBad (s.frame f) (s.saRec ((s.frame f).sa - 1))) = 0 ∧ saIngress (s.saRec ((s.frame f).sa - 1)) = true) ∧
    (∃ leaf : Nat, ∃ f : Nat, ∃ l : Nat, ∃ s : State, s.inlineFrame leaf = some f ∧ s.idleLane false = some l ∧ s.moving = true ∧ (s.frame f).phase ≠ 6 ∧ (s.inlineBad (s.frame f) (s.saRec ((s.frame f).sa - 1))) = 0 ∧ saIngress (s.saRec ((s.frame f).sa - 1)) = false ∧ (saProto (s.saRec ((s.frame f).sa - 1)) ≠ pMACsec ∨ (s.leafPath leaf).2.2 < 16) ∧ ((saProto (s.saRec ((s.frame f).sa - 1)) = pESP ∨ saProto (s.saRec ((s.frame f).sa - 1)) = pMACsec) ∧ saExhausted (s.saRec ((s.frame f).sa - 1)) = true)) ∧
    (∃ leaf : Nat, ∃ f : Nat, ∃ l : Nat, ∃ s : State, s.inlineFrame leaf = some f ∧ s.idleLane false = some l ∧ s.moving = true ∧ (s.frame f).phase ≠ 6 ∧ (s.inlineBad (s.frame f) (s.saRec ((s.frame f).sa - 1))) = 0 ∧ saIngress (s.saRec ((s.frame f).sa - 1)) = false ∧ (saProto (s.saRec ((s.frame f).sa - 1)) ≠ pMACsec ∨ (s.leafPath leaf).2.2 < 16) ∧ (saExhausted (s.saRec ((s.frame f).sa - 1)) = false ∨ (saProto (s.saRec ((s.frame f).sa - 1)) ≠ pESP ∧ saProto (s.saRec ((s.frame f).sa - 1)) ≠ pMACsec))) ∧
    (∃ w : Who, ∃ s : State, s.mayWrite w = true ∧ s.dev = dsIdle) ∧
    (∃ w : Who, ∃ s : State, s.mayWrite w = true ∧ s.dev ≠ dsIdle) ∧
    (∃ s : State, s.flag CPH_RNG_STATUS_ready 0 = true) ∧
    (∃ s : State, ∃ n, s.flag CPH_RNG_STATUS_ready 0 = true ∧ 2 ≤ n) :=
  ⟨⟨0, 3, entOf 1 [], entryAt 1 [] (qst [(GLB_STATE_state, 0, dsService), (QM_QCTX_CTRL_qclass, 0, qcCph)]), by decide +kernel⟩,
   ⟨0, 3, entOf 2 [], entryAt 2 [] (qst [(GLB_STATE_state, 0, dsService), (QM_QCTX_CTRL_qclass, 0, qcCph)]), by decide +kernel⟩,
   ⟨0, 3, entOf 3 [], entryAt 3 [] (qst [(GLB_STATE_state, 0, dsService), (QM_QCTX_CTRL_qclass, 0, qcCph)]), by decide +kernel⟩,
   ⟨0, 3, entOf 4 [], entryAt 4 [] (qst [(GLB_STATE_state, 0, dsService), (QM_QCTX_CTRL_qclass, 0, qcCph)]), by decide +kernel⟩,
   ⟨{ (st [(GLB_STATE_state, 0, dsService), (CPH_LANE_CFG_lookaside, 0, 1)]) with jobs := [{ urgent := true }] }, { urgent := true }, 0, by decide +kernel⟩,
   ⟨{ (st [(GLB_STATE_state, 0, dsService), (CPH_LANE_CFG_lookaside, 0, 1)]) with jobs := [{ urgent := true }, { id := 1, lane := 1 }] }, { urgent := true }, { id := 1, lane := 1 }, by decide +kernel⟩,
   ⟨{ (st [(GLB_STATE_state, 0, dsService), (CPH_LANE_CFG_lookaside, 0, 1)]) with jobs := [{ sus := 1 }] }, { sus := 1 }, 0, by decide +kernel⟩,
   ⟨st [(GLB_STATE_state, 0, dsService), (CPH_LANE_CFG_lookaside, 0, 1)], 0, by decide +kernel⟩,
   ⟨31, { kind := 1, lane := 32 }, { (st [(GLB_STATE_state, 0, dsService)]) with jobs := [{ kind := 1, lane := 32 }] }, by decide +kernel⟩,
   ⟨31, { kind := 2, lane := 32 }, { (st [(GLB_STATE_state, 0, dsService)]) with jobs := [{ kind := 2, lane := 32 }] }, by decide +kernel⟩,
   ⟨31, { kind := 0, lane := 32 }, { (st [(GLB_STATE_state, 0, dsService)]) with jobs := [{ kind := 0, lane := 32 }] }, by decide +kernel⟩,
   ⟨0, 0, 0, { (inlined 8 4 0 [(GLB_STATE_state, 0, dsService)]) with frames := [(0, { phase := 6, sa := 1 })] }, by decide +kernel⟩,
   ⟨0, 0, 0, inlined 0 1 0 [(GLB_STATE_state, 0, dsService), (MT_NOW_NS_ns, 0, 0)], by decide +kernel⟩,
   ⟨0, 0, 0, inlined 8 2 0 [(GLB_STATE_state, 0, dsService), (ND_parent, ndix 1 0, 0x100)], by decide +kernel⟩,
   ⟨0, 0, 0, inlined 24 1 0 [(GLB_STATE_state, 0, dsService), (MT_NOW_NS_ns, 0, 0)], by decide +kernel⟩,
   ⟨0, 0, 0, inlined 8 1 (2 ^ 32 - 1) [(GLB_STATE_state, 0, dsService), (MT_NOW_NS_ns, 0, 0)], by decide +kernel⟩,
   ⟨0, 0, 0, inlined 8 1 0 [(GLB_STATE_state, 0, dsService), (MT_NOW_NS_ns, 0, 0)], by decide +kernel⟩,
   ⟨.fw 0, st [(GLB_STATE_state, 0, dsIdle)], by decide +kernel⟩,
   ⟨.fw 0, st [(GLB_STATE_state, 0, dsService)], by decide +kernel⟩,
   ⟨st [(GLB_STATE_state, 0, dsService), (CPH_RNG_STATUS_ready, 0, 1)], by decide +kernel⟩,
   ⟨st [(GLB_STATE_state, 0, dsService), (CPH_RNG_STATUS_ready, 0, 1)], 2, by decide +kernel⟩⟩

theorem wit_KeysPagesAndSas :
    (∃ w : Who, ∃ i : Nat, ∃ s : State, s.keyInst w = some i ∧ s.busOpen w = true ∧ s.flag CPH_KEY_STATUS_busy i = false ∧ s.pageReach w (s.get CPH_KEY_SEL_sel i) = false) ∧
    (∃ w : Who, ∃ i : Nat, ∃ s : State, s.keyInst w = some i ∧ s.busOpen w = true ∧ s.flag CPH_KEY_STATUS_busy i = false ∧ s.pageReach w (s.get CPH_KEY_SEL_sel i) = true ∧ (s.loadWrapped (s.get CPH_KEY_SEL_sel i) (s.keyStage i)).1 = 0) ∧
    (∃ w : Who, ∃ i : Nat, ∃ s : State, s.keyInst w = some i ∧ s.busOpen w = true ∧ s.flag CPH_KEY_STATUS_busy i = false ∧ s.pageReach w (s.get CPH_KEY_SEL_sel i) = true ∧ (s.loadWrapped (s.get CPH_KEY_SEL_sel i) (s.keyStage i)).1 ≠ 0) ∧
    (∃ w : Who, ∃ i : Nat, ∃ s : State, s.keyInst w = some i ∧ s.busOpen w = true ∧ s.flag CPH_KEY_STATUS_busy i = false ∧ s.pageReach w (s.get CPH_KEY_SEL_sel i) = true ∧ (s.loadClear i (s.get CPH_KEY_SEL_sel i) (s.keyStage i)).1 = 0) ∧
    (∃ w : Who, ∃ i : Nat, ∃ s : State, s.keyInst w = some i ∧ s.busOpen w = true ∧ s.flag CPH_KEY_STATUS_busy i = false ∧ s.pageReach w (s.get CPH_KEY_SEL_sel i) = true) ∧
    (∃ w : Who, ∃ pg : Nat, ∃ v : Nat, ∃ s : State, s.mayWrite w = true ∧ ownerValue (v % 2 ^ 13) = true ∧ pageMay w (s.pageOwner pg) (v % 2 ^ 13) = true ∧ v % 2 ^ 13 ≠ 0x1FFF ∧ (((s.set CPH_PAGE_OWNER_owner pg (v % 2 ^ 13)).put CPH_PAGE_OWNER_fp_access pg (bit v 31))).pageMirrored pg = false ∧ (((s.set CPH_PAGE_OWNER_owner pg (v % 2 ^ 13)).put CPH_PAGE_OWNER_fp_access pg (bit v 31))).pageSyncs pg = false) ∧
    (∃ w : Who, ∃ pg : Nat, ∃ v : Nat, ∃ s : State, s.mayWrite w = true ∧ v % 2 ^ 13 = 0x1FFF ∧ s.pageOwner pg ≠ 0x1FFF ∧ pageMay w (s.pageOwner pg) 0x1FFF = true ∧ (((s.zeroPage pg).set CPH_PAGE_OWNER_owner pg 0x1FFF).put CPH_PAGE_OWNER_fp_access pg (bit v 31)).pageMirrored pg = false ∧ (((s.zeroPage pg).set CPH_PAGE_OWNER_owner pg 0x1FFF).put CPH_PAGE_OWNER_fp_access pg (bit v 31)).pageSyncs pg = false) ∧
    (∃ w : Who, ∃ v : Nat, ∃ s : State, s.mayWrite w = true ∧ ownerValue (v % 2 ^ 13) = false) ∧
    (∃ w : Who, ∃ pg : Nat, ∃ v : Nat, ∃ s : State, s.mayWrite w = true ∧ pageMay w (s.pageOwner pg) (v % 2 ^ 13) = false) ∧
    (∃ w : Who, ∃ s : State, s.mayWrite w = true ∧ s.flag CPH_SA_STATUS_busy 0 = true) ∧
    (∃ w : Who, ∃ i : Nat, ∃ s : State, s.mayWrite w = true ∧ s.flag CPH_SA_STATUS_busy 0 = false ∧ (s.put CPH_SA_STATUS_busy 0 true).saMay w (s.area CPH_SA_STAGE_byte 0 128) = true ∧ (s.put CPH_SA_STATUS_busy 0 true).saOver w i = true ∧ saBad (s.area CPH_SA_STAGE_byte 0 128) = false) ∧
    (∃ w : Who, ∃ i : Nat, ∃ s : State, s.mayWrite w = true ∧ s.flag CPH_SA_STATUS_busy 0 = false ∧ (s.put CPH_SA_STATUS_busy 0 true).saMay w (s.area CPH_SA_STAGE_byte 0 128) = true ∧ (s.put CPH_SA_STATUS_busy 0 true).saOver w i = true ∧ saBad (s.area CPH_SA_STAGE_byte 0 128) = true) ∧
    (∃ w : Who, ∃ s : State, s.mayWrite w = true ∧ s.flag CPH_SA_STATUS_busy 0 = false ∧ (s.put CPH_SA_STATUS_busy 0 true).saMay w (s.area CPH_SA_STAGE_byte 0 128) = false) ∧
    (∃ w : Who, ∃ i : Nat, ∃ s : State, s.mayWrite w = true ∧ s.flag CPH_SA_STATUS_busy 0 = false ∧ (s.put CPH_SA_STATUS_busy 0 true).saMay w (s.saRec i) = true) ∧
    (∃ w : Who, ∃ i : Nat, ∃ s : State, s.mayWrite w = true ∧ s.flag CPH_SA_STATUS_busy 0 = false ∧ (s.put CPH_SA_STATUS_busy 0 true).saMay w (s.saRec i) = false) :=
  ⟨⟨.pf 0, 0, st [(GLB_STATE_state, 0, dsService), (CPH_KEY_STATUS_busy, 0, 0), (CFG_mse, 0, 1)], by decide +kernel⟩,
   ⟨.pf 0, 0, wrapped, by decide +kernel⟩,
   ⟨.pf 0, 0, st [(GLB_STATE_state, 0, dsService), (CPH_KEY_STATUS_busy, 0, 0), (CFG_mse, 0, 1), (CPH_PAGE_OWNER_owner, 0, 0)], by decide +kernel⟩,
   ⟨.bmc, 3, st [(GLB_STATE_state, 0, dsService), (CPH_KEY_STATUS_busy, 3, 0), (CPH_KEY_STAGE_byte, 128 * 3 + 1, 4)], by decide +kernel⟩,
   ⟨.pf 0, 0, st [(GLB_STATE_state, 0, dsService), (CPH_KEY_STATUS_busy, 0, 0), (CFG_mse, 0, 1), (CPH_PAGE_OWNER_owner, 0, 0)], by decide +kernel⟩,
   ⟨.fw 0, 0, 0, st [(GLB_STATE_state, 0, dsService)], by decide +kernel⟩,
   ⟨.fw 0, 0, 0x1FFF, st [(GLB_STATE_state, 0, dsService), (CPH_PAGE_OWNER_owner, 0, 0)], by decide +kernel⟩,
   ⟨.fw 0, 5000, st [(GLB_STATE_state, 0, dsService)], by decide +kernel⟩,
   ⟨.pf 0, 0, 0, st [(GLB_STATE_state, 0, dsService), (CFG_mse, 0, 1), (CPH_PAGE_OWNER_owner, 0, 1)], by decide +kernel⟩,
   ⟨.pf 0, st [(GLB_STATE_state, 0, dsService), (CPH_SA_STATUS_busy, 0, 1), (CFG_mse, 0, 1)], by decide +kernel⟩,
   ⟨.fw 0, 1048575, st [(GLB_STATE_state, 0, dsService), (CPH_SA_STATUS_busy, 0, 0), (CPH_PAGE_OWNER_owner, 0, 0), (CPH_SA_STAGE_byte, 4, 4), (CPH_SA_STAGE_byte, 5, 15)], by decide +kernel⟩,
   ⟨.fw 0, 0, st [(GLB_STATE_state, 0, dsService), (CPH_SA_STATUS_busy, 0, 0), (CPH_PAGE_OWNER_owner, 0, 0)], by decide +kernel⟩,
   ⟨.fw 0, st [(GLB_STATE_state, 0, dsService), (CPH_SA_STATUS_busy, 0, 0)], by decide +kernel⟩,
   ⟨.fw 0, 0, st [(GLB_STATE_state, 0, dsService), (CPH_SA_STATUS_busy, 0, 0), (CPH_PAGE_OWNER_owner, 0, 0)], by decide +kernel⟩,
   ⟨.fw 0, 0, st [(GLB_STATE_state, 0, dsService), (CPH_SA_STATUS_busy, 0, 0)], by decide +kernel⟩⟩

theorem wit_OffloadStagesAndTables :
    (∃ q : Nat, ∃ i : Nat, ∃ e : Ent, ∃ s : State, s.entAt q i = some e ∧ s.entGo q i = true ∧ weOpcode e.bytes = 1 ∧ s.qClass q = qcTx ∧ e.sent = false ∧ s.sendTurn q e = true) ∧
    (∃ q : Nat, ∃ i : Nat, ∃ e : Ent, ∃ s : State, s.entAt q i = some e ∧ s.entGo q i = true ∧ weOpcode e.bytes = 1 ∧ s.qClass q = qcRx) ∧
    (∃ l : Nat, ∃ f : Nat, ∃ s : State, s.moving = true ∧ (s.egGroup l).find? (fun f => (s.frame f).phase == 0 || (s.frame f).phase == 2) = some f ∧ (s.frame f).phase = 0) ∧
    (∃ l : Nat, ∃ f : Nat, ∃ s : State, s.moving = true ∧ (s.egGroup l).find? (fun f => (s.frame f).phase == 0 || (s.frame f).phase == 2) = some f ∧ (s.frame f).phase ≠ 0) ∧
    (∃ l : Nat, ∃ s : State, s.moving = true ∧ (s.egGroup l).find? (fun f => (s.frame f).phase == 0 || (s.frame f).phase == 2) = none) ∧
    (∃ h : Nat, ∃ f : Nat, ∃ s : State, s.moving = true ∧ s.get PT_tx (macIx (32 + h)) = f + 1 ∧ (s.frame f).phase = 0) ∧
    (∃ h : Nat, ∃ f : Nat, ∃ s : State, s.moving = true ∧ s.get PT_tx (macIx (32 + h)) = f + 1 ∧ (s.frame f).phase = 2) ∧
    (∃ h : Nat, ∃ f : Nat, ∃ s : State, s.moving = true ∧ s.get PT_tx (macIx (32 + h)) = f + 1 ∧ (s.frame f).phase = 3) ∧
    (∃ h : Nat, ∃ f : Nat, ∃ s : State, s.moving = true ∧ s.get PT_tx (macIx (32 + h)) = f + 1 ∧ (s.frame f).phase = 5) ∧
    (∃ k : Nat, ∃ c : Coal, ∃ s : State, s.coal[k]? = some c ∧ s.moving = true) ∧
    (∃ w : Who, ∃ i : Nat, ∃ s : State, s.mayWrite w = true ∧ s.flag OFL_TMPL_STATUS_busy 0 = false ∧ ownerMove w ((s.put OFL_TMPL_STATUS_busy 0 true).get TPX_owner i) (tmOwner (s.area OFL_TMPL_STAGE_byte 0 128)) = true ∧ tmplBad (s.area OFL_TMPL_STAGE_byte 0 128) = false) ∧
    (∃ w : Who, ∃ i : Nat, ∃ s : State, s.mayWrite w = true ∧ s.flag OFL_TMPL_STATUS_busy 0 = false ∧ ownerMove w ((s.put OFL_TMPL_STATUS_busy 0 true).get TPX_owner i) (tmOwner (s.area OFL_TMPL_STAGE_byte 0 128)) = true ∧ tmplBad (s.area OFL_TMPL_STAGE_byte 0 128) = true) ∧
    (∃ w : Who, ∃ i : Nat, ∃ s : State, s.mayWrite w = true ∧ s.flag OFL_TMPL_STATUS_busy 0 = false ∧ ownerMove w ((s.put OFL_TMPL_STATUS_busy 0 true).get TPX_owner i) (tmOwner (s.area OFL_TMPL_STAGE_byte 0 128)) = false) ∧
    (∃ w : Who, ∃ s : State, s.mayWrite w = true ∧ s.flag OFL_TMPL_STATUS_busy 0 = false) ∧
    (∃ w : Who, ∃ i : Nat, ∃ s : State, s.mayWrite w = true ∧ s.flag OFL_NVC_STATUS_busy 0 = false ∧ ownerMove w ((s.put OFL_NVC_STATUS_busy 0 true).get NVX_owner i) (leAt (padTo 64 ((s.area OFL_NVC_STAGE_byte 0 64).take 12)) 0 2 % 2 ^ 13) = true) ∧
    (∃ w : Who, ∃ i : Nat, ∃ s : State, s.mayWrite w = true ∧ s.flag OFL_NVC_STATUS_busy 0 = false ∧ ownerMove w ((s.put OFL_NVC_STATUS_busy 0 true).get NVX_owner i) (leAt (padTo 64 ((s.area OFL_NVC_STAGE_byte 0 64).take 12)) 0 2 % 2 ^ 13) = false) ∧
    (∃ w : Who, ∃ s : State, s.mayWrite w = true ∧ s.flag OFL_NVC_STATUS_busy 0 = false) ∧
    (∃ w : Who, ∃ s : State, s.mayWrite w = true ∧ s.flag OFL_TMPL_STATUS_busy 0 = true) ∧
    (∃ w : Who, ∃ s : State, s.mayWrite w = true ∧ s.flag OFL_NVC_STATUS_busy 0 = true) ∧
    (∃ w : Who, ∃ s : State, s.mayWrite w = true) ∧
    (∃ q : Nat, ∃ i : Nat, ∃ e : Ent, ∃ s : State, s.nvEntry q i 1 = some e ∧ nvSaEn e.bytes = false ∧ (s.markWay q i).get NVX_owner (nvConn e.bytes) = s.qOwner q ∧ nvcValid ((s.markWay q i).nvContext (nvConn e.bytes)) = true ∧ (s.markWay q i).placeOf (nvConn e.bytes) (nvCid e.bytes) = none ∧ (s.markWay q i).places.length < 65536 ∧ nvLen e.bytes = 0) ∧
    (∃ q : Nat, ∃ i : Nat, ∃ e : Ent, ∃ s : State, s.nvEntry q i 1 = some e ∧ nvSaEn e.bytes = false ∧ (s.markWay q i).get NVX_owner (nvConn e.bytes) = s.qOwner q ∧ nvcValid ((s.markWay q i).nvContext (nvConn e.bytes)) = true ∧ (s.markWay q i).placeOf (nvConn e.bytes) (nvCid e.bytes) = none ∧ (s.markWay q i).places.length < 65536 ∧ nvLen e.bytes ≠ 0) ∧
    (∃ q : Nat, ∃ i : Nat, ∃ e : Ent, ∃ s : State, s.nvEntry q i 1 = some e ∧ nvSaEn e.bytes = false ∧ (s.markWay q i).get NVX_owner (nvConn e.bytes) ≠ s.qOwner q) ∧
    (∃ q : Nat, ∃ i : Nat, ∃ e : Ent, ∃ p : Place, ∃ s : State, s.nvEntry q i 2 = some e ∧ (s.markWay q i).placeOf (nvConn e.bytes) (nvCid e.bytes) = some p ∧ (s.markWay q i).get NVX_owner (nvConn e.bytes) = (s.markWay q i).qOwner q) ∧
    (∃ q : Nat, ∃ i : Nat, ∃ e : Ent, ∃ s : State, s.nvEntry q i 2 = some e ∧ (s.markWay q i).placeOf (nvConn e.bytes) (nvCid e.bytes) = none) :=
  ⟨⟨0, 3, entOf 1 [], entryAt 1 [] (qst [(GLB_STATE_state, 0, dsService)]), by decide +kernel⟩,
   ⟨0, 3, entOf 1 [], entryAt 1 [] (qst [(GLB_STATE_state, 0, dsService), (QM_QCTX_CTRL_qclass, 0, qcRx)]), by decide +kernel⟩,
   ⟨0, 0, { (st [(GLB_STATE_state, 0, dsService)]) with egq := [(0, [0])], frames := [(0, { phase := 0 })] }, by decide +kernel⟩,
   ⟨0, 0, { (st [(GLB_STATE_state, 0, dsService)]) with egq := [(0, [0])], frames := [(0, { phase := 2 })] }, by decide +kernel⟩,
   ⟨0, st [(GLB_STATE_state, 0, dsService)], by decide +kernel⟩,
   ⟨0, 0, st [(GLB_STATE_state, 0, dsService), (PT_tx, (macIx (32 + 0)), 0 + 1)], by decide +kernel⟩,
   ⟨0, 0, { (st [(GLB_STATE_state, 0, dsService), (PT_tx, (macIx (32 + 0)), 0 + 1)]) with frames := [(0, { phase := 2 })] }, by decide +kernel⟩,
   ⟨0, 0, { (st [(GLB_STATE_state, 0, dsService), (PT_tx, (macIx (32 + 0)), 0 + 1)]) with frames := [(0, { phase := 3 })] }, by decide +kernel⟩,
   ⟨0, 0, { (st [(GLB_STATE_state, 0, dsService), (PT_tx, (macIx (32 + 0)), 0 + 1)]) with frames := [(0, { phase := 5 })] }, by decide +kernel⟩,
   ⟨0, { q := 0, leaf := 0, flow := [], frame := 0, next := 0, payload := 0, segs := 1, mss := 0, first := 0 }, { (st [(GLB_STATE_state, 0, dsService)]) with coal := [{ q := 0, leaf := 0, flow := [], frame := 0, next := 0, payload := 0, segs := 1, mss := 0, first := 0 }] }, by decide +kernel⟩,
   ⟨.fw 0, 0, (fun l => st (tmplStage ++ l)) [(GLB_STATE_state, 0, dsService), (OFL_TMPL_STATUS_busy, 0, 0)], by decide +kernel⟩,
   ⟨.fw 0, 0, st [(GLB_STATE_state, 0, dsService), (OFL_TMPL_STATUS_busy, 0, 0)], by decide +kernel⟩,
   ⟨.pf 0, 0, st [(GLB_STATE_state, 0, dsService), (OFL_TMPL_STATUS_busy, 0, 0), (CFG_mse, 0, 1), (TPX_owner, 0, 1)], by decide +kernel⟩,
   ⟨.fw 0, st [(GLB_STATE_state, 0, dsService), (OFL_TMPL_STATUS_busy, 0, 0)], by decide +kernel⟩,
   ⟨.fw 0, 0, st [(GLB_STATE_state, 0, dsService), (OFL_NVC_STATUS_busy, 0, 0)], by decide +kernel⟩,
   ⟨.pf 0, 0, st [(GLB_STATE_state, 0, dsService), (OFL_NVC_STATUS_busy, 0, 0), (CFG_mse, 0, 1), (NVX_owner, 0, 1)], by decide +kernel⟩,
   ⟨.fw 0, st [(GLB_STATE_state, 0, dsService), (OFL_NVC_STATUS_busy, 0, 0)], by decide +kernel⟩,
   ⟨.fw 0, st [(GLB_STATE_state, 0, dsService), (OFL_TMPL_STATUS_busy, 0, 1)], by decide +kernel⟩,
   ⟨.fw 0, st [(GLB_STATE_state, 0, dsService), (OFL_NVC_STATUS_busy, 0, 1)], by decide +kernel⟩,
   ⟨.fw 0, st [(GLB_STATE_state, 0, dsService)], by decide +kernel⟩,
   ⟨0, 3, entOf 1 [], { entryAt 1 [] (qst [(GLB_STATE_state, 0, dsService), (QM_QCTX_CTRL_qclass, 0, qcNvme), (NVX_owner, 0, 0)]) with mem := Memory.writeBytes [] (baseNvc 0) [0#8, 0#8, 1#8] }, by decide +kernel⟩,
   ⟨0, 3, entOf 1 [1#8], { entryAt 1 [1#8] (qst [(GLB_STATE_state, 0, dsService), (QM_QCTX_CTRL_qclass, 0, qcNvme), (NVX_owner, 0, 0)]) with mem := Memory.writeBytes [] (baseNvc 0) [0#8, 0#8, 1#8] }, by decide +kernel⟩,
   ⟨0, 3, entOf 1 [1#8], entryAt 1 [1#8] (qst [(GLB_STATE_state, 0, dsService), (QM_QCTX_CTRL_qclass, 0, qcNvme)]), by decide +kernel⟩,
   ⟨0, 3, entOf 2 [], { conn := 0, cid := 0, q := 0, idx := 9, placed := 0, bad := false }, { entryAt 2 [] (qst [(GLB_STATE_state, 0, dsService), (QM_QCTX_CTRL_qclass, 0, qcNvme), (NVX_owner, 0, 0)]) with places := [{ conn := 0, cid := 0, q := 0, idx := 9, placed := 0, bad := false }] }, by decide +kernel⟩,
   ⟨0, 3, entOf 2 [], entryAt 2 [] (qst [(GLB_STATE_state, 0, dsService), (QM_QCTX_CTRL_qclass, 0, qcNvme)]), by decide +kernel⟩⟩

theorem wit_DmaChannelsRun :
    (∃ q : Nat, ∃ i : Nat, ∃ e : Ent, ∃ s : State, s.entAt q i = some e ∧ s.entGo q i = true ∧ s.qClass q = qcDma ∧ s.chState (dmChan e.bytes) = chIdle ∧ s.dmaWaits (dmChan e.bytes) = [] ∧ weOpcode e.bytes = 1) ∧
    (∃ q : Nat, ∃ i : Nat, ∃ e : Ent, ∃ s : State, s.entAt q i = some e ∧ s.entGo q i = true ∧ s.qClass q = qcDma ∧ s.chState (dmChan e.bytes) = chIdle ∧ s.dmaWaits (dmChan e.bytes) = [] ∧ weOpcode e.bytes = 2) ∧
    (∃ w : Who, ∃ c : Nat, ∃ s : State, s.chWrite w c = true ∧ s.chState c = chIdle ∧ s.dmaWaits c = []) ∧
    (∃ w : Who, ∃ c : Nat, ∃ s : State, s.chWrite w c = true ∧ s.chState c ≠ chIdle) ∧
    (∃ w : Who, ∃ c : Nat, ∃ s : State, s.chWrite w c = true ∧ c % 16 ≤ 3) ∧
    (∃ w : Who, ∃ c : Nat, ∃ s : State, s.chWrite w c = true) ∧
    (∃ m : Nat, ∃ c : Nat, ∃ s : State, s.busOpen (.fw m) = true ∧ chHard c = false ∧ c % 16 ≤ 3 ∧ (s.fifoOf c).length + 4 ≤ 16384) ∧
    (∃ m : Nat, ∃ c : Nat, ∃ s : State, s.busOpen (.fw m) = true ∧ chHard c = false ∧ c % 16 ≤ 3 ∧ 16384 < (s.fifoOf c).length + 4) ∧
    (∃ c : Nat, ∃ s : State, s.dmaOn = true ∧ s.chState c = chWait) ∧
    (∃ c : Nat, ∃ s : State, s.dmaOn = true ∧ s.chState c = chReadback ∧ dmaSpace (s.get DMX_dst c) = .host) ∧
    (∃ c : Nat, ∃ s : State, ∃ g, s.dmaOn = true ∧ s.chState c = chReadback ∧ dmaSpace (s.get DMX_dst c) = .host ∧ s.chFn c = some g) ∧
    (∃ (e c : Nat) (s u : State), s.dmaOn = true ∧ s.engBusy e = false ∧ s.engPick e = (some c, u) ∧ u.dmaHost c = false ∧ bit (u.get DMX_cfg c) 9 = false) ∧
    (∃ (e c : Nat) (s u : State), s.dmaOn = true ∧ s.engBusy e = false ∧ s.engPick e = (some c, u) ∧ u.dmaHost c = false ∧ bit (u.get DMX_cfg c) 9 = true) ∧
    (∃ (e c : Nat) (s u : State), s.dmaOn = true ∧ s.engBusy e = false ∧ s.engPick e = (some c, u) ∧ u.dmaHost c = true ∧ u.chFn c = some 0 ∧ u.fnHeld 0 = true) ∧
    (∃ c : Nat, ∃ g : Nat, ∃ s : State, s.dmaOn = true ∧ s.chState c = chRunning ∧ bit (s.get DMX_cfg c) 9 = true ∧ s.unsent c = false ∧ s.dmaHost c = true ∧ s.chFn c = some g ∧ s.fnHeld g = true) ∧
    (∃ c : Nat, ∃ s : State, s.dmaOn = true ∧ s.chState c = chRunning ∧ bit (s.get DMX_cfg c) 9 = true ∧ s.unsent c = false ∧ s.dmaHost c = false ∧ ((s.dmaPut c (s.get DMA_CH_XFER_bytes c) (swapBytes (bits (s.get DMX_cfg c) 6 3) ((s.fifoOf c).take (s.burstLen c)))).1 ≠ 0 ∨ ((s.dmaPut c (s.get DMA_CH_XFER_bytes c) (swapBytes (bits (s.get DMX_cfg c) 6 3) ((s.fifoOf c).take (s.burstLen c)))).2.setFifo c ((s.fifoOf c).drop (s.burstLen c))).unsent c = true ∨ ((s.dmaPut c (s.get DMA_CH_XFER_bytes c) (swapBytes (bits (s.get DMX_cfg c) 6 3) ((s.fifoOf c).take (s.burstLen c)))).2.setFifo c ((s.fifoOf c).drop (s.burstLen c))).streamMore c = false)) ∧
    (∃ c : Nat, ∃ s : State, s.dmaOn = true ∧ s.chState c = chRunning ∧ bit (s.get DMX_cfg c) 9 = true ∧ s.unsent c = false ∧ s.dmaHost c = false ∧ (s.dmaPut c (s.get DMA_CH_XFER_bytes c) (swapBytes (bits (s.get DMX_cfg c) 6 3) ((s.fifoOf c).take (s.burstLen c)))).1 = 0 ∧ ((s.dmaPut c (s.get DMA_CH_XFER_bytes c) (swapBytes (bits (s.get DMX_cfg c) 6 3) ((s.fifoOf c).take (s.burstLen c)))).2.setFifo c ((s.fifoOf c).drop (s.burstLen c))).unsent c = false ∧ ((s.dmaPut c (s.get DMA_CH_XFER_bytes c) (swapBytes (bits (s.get DMX_cfg c) 6 3) ((s.fifoOf c).take (s.burstLen c)))).2.setFifo c ((s.fifoOf c).drop (s.burstLen c))).streamMore c = true) :=
  ⟨⟨0, 3, entOf 1 [], entryAt 1 [] (qst [(GLB_STATE_state, 0, dsService), (QM_QCTX_CTRL_qclass, 0, qcDma)]), by decide +kernel⟩,
   ⟨0, 3, entOf 2 [], entryAt 2 [] (qst [(GLB_STATE_state, 0, dsService), (QM_QCTX_CTRL_qclass, 0, qcDma)]), by decide +kernel⟩,
   ⟨.fw 0, 0, st [(GLB_STATE_state, 0, dsService)], by decide +kernel⟩,
   ⟨.fw 0, 0, st [(GLB_STATE_state, 0, dsService), (DMA_CH_STATUS_state, 0, chRunning)], by decide +kernel⟩,
   ⟨.fw 0, 0, st [(GLB_STATE_state, 0, dsService)], by decide +kernel⟩,
   ⟨.fw 0, 0, st [(GLB_STATE_state, 0, dsService)], by decide +kernel⟩,
   ⟨0, 0, st [(GLB_STATE_state, 0, dsService)], by decide +kernel⟩,
   ⟨0, 3, { st [(GLB_STATE_state, 0, dsService)] with fifo := [(3, List.replicate 16381 0#8)] }, by decide +kernel, by decide +kernel, by decide +kernel, by
  show 16384 < (List.replicate 16381 (0#8 : Byte)).length + 4
  rw [List.length_replicate]
  decide⟩,
   ⟨0, st [(GLB_STATE_state, 0, dsService), (DMA_CH_STATUS_state, 0, chWait)], by decide +kernel⟩,
   ⟨0, st [(GLB_STATE_state, 0, dsService), (DMA_CH_STATUS_state, 0, chReadback)], by decide +kernel⟩,
   ⟨0, st [(GLB_STATE_state, 0, dsService), (DMA_CH_STATUS_state, 0, chReadback), (DMA_CH_OWNER_owner, 0, 0)], 0, by decide +kernel⟩,
   ⟨0, 0, (readyCh []), ((readyCh []).engPick 0).2, by decide +kernel, by decide +kernel, by rw [← (by decide +kernel : ((readyCh []).engPick 0).1 = some 0)], by decide +kernel⟩,
   ⟨0, 0, (readyCh [(DMX_cfg, 0, 512)]), ((readyCh [(DMX_cfg, 0, 512)]).engPick 0).2, by decide +kernel, by decide +kernel, by rw [← (by decide +kernel : ((readyCh [(DMX_cfg, 0, 512)]).engPick 0).1 = some 0)], by decide +kernel⟩,
   ⟨0, 0, (readyCh [(DMX_dst, 0, 0x1000)]), ((readyCh [(DMX_dst, 0, 0x1000)]).engPick 0).2, by decide +kernel, by decide +kernel, by rw [← (by decide +kernel : ((readyCh [(DMX_dst, 0, 0x1000)]).engPick 0).1 = some 0)], by decide +kernel⟩,
   ⟨0, 0, st [(GLB_STATE_state, 0, dsService), (DMA_CH_STATUS_state, 0, chRunning), (DMX_cfg, 0, 512), (DMA_CH_OWNER_owner, 0, 0)], by decide +kernel⟩,
   ⟨0, st [(GLB_STATE_state, 0, dsService), (DMA_CH_STATUS_state, 0, chRunning), (DMX_cfg, 0, 512), (DMX_dst, 0, 0x82 * 2 ^ 56)], by decide +kernel⟩,
   ⟨0, st [(GLB_STATE_state, 0, dsService), (DMA_CH_STATUS_state, 0, chRunning), (DMX_cfg, 0, 512), (DMX_dst, 0, 0x82 * 2 ^ 56), (DMX_len, 0, 64)], by decide +kernel⟩⟩

theorem wit_HostPortsAndErrors :
    (∃ (h sp wd : Nat) (s : State), s.dev ≠ dsAonOnly ∧ s.dev ≠ 0 ∧ s.flag HEX_perst h = false ∧ sp ≠ 0 ∧ sp ≤ 6 ∧ [1, 2, 4, 8, 16].contains wd = true ∧ s.flag HE_LINK_up h = false) ∧
    (∃ h : Nat, ∃ s : State, s.flag HEX_perst h = false) ∧
    (∃ h : Nat, ∃ s : State, s.flag HEX_perst h = false ∧ s.flag HE_LINK_up h = true ∧ s.hostUp = true) ∧
    (∃ g : Nat, ∃ s : State, s.cfgOpen g = true) ∧
    (∃ g : Nat, ∃ s : State, s.cfgOpen g = true ∧ s.flag FN_STATE_bme g = false) ∧
    (∃ g : Nat, ∃ s : State, s.cfgOpen g = true ∧ s.d3Ok g = true) ∧
    (∃ g : Nat, ∃ off : Nat, ∃ be : Nat, ∃ s : State, s.cfgOpen g = true ∧ (off ≠ 0x118 ∨ bit (beMask be) 6 = false)) ∧
    (∃ g : Nat, ∃ be : Nat, ∃ s : State, s.cfgOpen g = true ∧ bit (beMask be) 6 = true) ∧
    (∃ g : Nat, ∃ s : State, s.flag HE_LINK_up (pfOf g) = true ∧ s.fnExists g = true) ∧
    (∃ (h tag : Nat) (s : State) (r : Rd) (q : Nat), s.readAt h tag = some r ∧ s.timedOut r = true ∧ r.why = .poll q) ∧
    (∃ (h tag : Nat) (s : State) (r : Rd), s.readAt h tag = some r ∧ s.timedOut r = true ∧ ((s.inc HE_CTO_count h).pmu (17 + h) 3 1).get HE_CFG_cto_retry h ≤ r.att) ∧
    (∃ (h tag : Nat) (s : State) (r : Rd) (q idx : Nat), s.readAt h tag = some r ∧ s.timedOut r = true ∧ r.why = .entry q idx ∧ r.att < ((s.inc HE_CTO_count h).pmu (17 + h) 3 1).get HE_CFG_cto_retry h ∧ ((s.inc HE_CTO_count h).pmu (17 + h) 3 1).fnDead r.gfn = false) ∧
    (∃ h : Nat, ∃ tag : Nat, ∃ s : State, ∃ r : Rd, s.flag HE_LINK_up h = true ∧ s.readAt h tag = some r ∧ r.att = 0) ∧
    (∃ h : Nat, ∃ tag : Nat, ∃ s : State, ∃ r : Rd, s.flag HE_LINK_up h = true ∧ s.readAt h tag = some r ∧ r.att ≠ 0) ∧
    (∃ h : Nat, ∃ tag : Nat, ∃ s : State, s.flag HE_LINK_up h = true ∧ s.readAt h tag = none) ∧
    (∃ h : Nat, ∃ tag : Nat, ∃ s : State, s.tagQuar.any (fun p => p.h == h && p.tag == tag && decide (p.until_ ≤ s.clk)) = true) :=
  ⟨⟨1, 6, 16, st [(GLB_STATE_state, 0, dsService)], by decide +kernel⟩,
   ⟨0, st [(GLB_STATE_state, 0, dsService), (HEX_perst, 0, 0)], by decide +kernel⟩,
   ⟨0, st [(GLB_STATE_state, 0, dsService), (HEX_perst, 0, 0), (HE_LINK_up, 0, 1)], by decide +kernel⟩,
   ⟨0, st [(GLB_STATE_state, 0, dsService), (HE_LINK_up, 0, 1), (FN_STATE_state, 0, fsActive)], by decide +kernel⟩,
   ⟨0, st [(GLB_STATE_state, 0, dsService), (FN_STATE_bme, 0, 0), (HE_LINK_up, 0, 1), (FN_STATE_state, 0, fsActive)], by decide +kernel⟩,
   ⟨0, st [(GLB_STATE_state, 0, dsService), (HE_LINK_up, 0, 1), (FN_STATE_state, 0, fsActive)], by decide +kernel⟩,
   ⟨0, 0, 0, st [(GLB_STATE_state, 0, dsService), (HE_LINK_up, 0, 1), (FN_STATE_state, 0, fsActive)], by decide +kernel⟩,
   ⟨0, 1, st [(GLB_STATE_state, 0, dsService), (HE_LINK_up, 0, 1), (FN_STATE_state, 0, fsActive)], by decide +kernel⟩,
   ⟨2, st [(GLB_STATE_state, 0, dsService), (HE_LINK_up, (pfOf 2), 1), (HE_LINK_up, 0, 1), (FN_STATE_state, 2, fsActive)], by decide +kernel⟩,
   ⟨0, 767, { st [(GLB_STATE_state, 0, dsService), (HE_LINK_up, 0, 1), (FN_STATE_state, 0, fsActive), (CLK_ticks, 0, 101)] with reads := [{ h := 0, tag := 767, gfn := 0, addr := 64, len := 64, ro := false, ns := false, att := 0, why := .poll 5, at0 := 0, cto := 100 }] }, { h := 0, tag := 767, gfn := 0, addr := 64, len := 64, ro := false, ns := false, att := 0, why := .poll 5, at0 := 0, cto := 100 }, 5, by decide +kernel, by decide +kernel, rfl⟩,
   ⟨0, 767, { st [(GLB_STATE_state, 0, dsService), (HE_LINK_up, 0, 1), (FN_STATE_state, 0, fsActive), (CLK_ticks, 0, 101), (HE_CFG_cto_retry, 0, 3)] with reads := [{ h := 0, tag := 767, gfn := 0, addr := 64, len := 64, ro := false, ns := false, att := 3, why := .other, at0 := 0, cto := 100 }] }, { h := 0, tag := 767, gfn := 0, addr := 64, len := 64, ro := false, ns := false, att := 3, why := .other, at0 := 0, cto := 100 }, by decide +kernel⟩,
   ⟨0, 767, { st [(GLB_STATE_state, 0, dsService), (HE_LINK_up, 0, 1), (FN_STATE_state, 0, fsActive), (CLK_ticks, 0, 101), (HE_CFG_cto_retry, 0, 3)] with reads := [{ h := 0, tag := 767, gfn := 0, addr := 64, len := 64, ro := false, ns := false, att := 2, why := .entry 5 6, at0 := 0, cto := 100 }] }, { h := 0, tag := 767, gfn := 0, addr := 64, len := 64, ro := false, ns := false, att := 2, why := .entry 5 6, at0 := 0, cto := 100 }, 5, 6, by decide +kernel, by decide +kernel, rfl, by decide +kernel, by decide +kernel⟩,
   ⟨0, 767, { (st [(GLB_STATE_state, 0, dsService), (HE_LINK_up, 0, 1)]) with reads := [{ h := 0, tag := 767, gfn := 0, addr := 64, len := 64, ro := false, ns := false, att := 0, why := .other, at0 := 0, cto := 100 }] }, { h := 0, tag := 767, gfn := 0, addr := 64, len := 64, ro := false, ns := false, att := 0, why := .other, at0 := 0, cto := 100 }, by decide +kernel⟩,
   ⟨0, 767, { (st [(GLB_STATE_state, 0, dsService), (HE_LINK_up, 0, 1)]) with reads := [{ h := 0, tag := 767, gfn := 0, addr := 64, len := 64, ro := false, ns := false, att := 1, why := .other, at0 := 0, cto := 100 }] }, { h := 0, tag := 767, gfn := 0, addr := 64, len := 64, ro := false, ns := false, att := 1, why := .other, at0 := 0, cto := 100 }, by decide +kernel⟩,
   ⟨0, 0, st [(GLB_STATE_state, 0, dsService), (HE_LINK_up, 0, 1)], by decide +kernel⟩,
   ⟨0, 767, { (st [(GLB_STATE_state, 0, dsService)]) with tagQuar := [{ h := 0, tag := 767, gfn := 5, until_ := 0 }] }, by decide +kernel⟩⟩

theorem wit_FunctionsResetAndMigrate :
    (∃ g : Nat, ∃ s : State, s.cfgOpen g = true) ∧
    (∃ g : Nat, ∃ s : State, s.fnState g = fsResetting ∧ (s.queuesOf g).any (fun q => !(s.entsOf q).isEmpty) = false ∧ (g < 2 ∨ (forEach (s.queuesOf g) (fun q t => if t.qState q = qsDisabled then t else (t.put QM_QCTX_STATUS_arm_pending q false).disableNow q false) s).vfPresent g = true)) ∧
    (∃ g : Nat, ∃ s : State, s.fnState g = fsResetting ∧ (s.queuesOf g).any (fun q => !(s.entsOf q).isEmpty) = false ∧ 2 ≤ g ∧ (forEach (s.queuesOf g) (fun q t => if t.qState q = qsDisabled then t else (t.put QM_QCTX_STATUS_arm_pending q false).disableNow q false) s).vfPresent g = false) ∧
    (∃ h : Nat, ∃ s : State, s.cfgOpen h = true ∧ s.flag CFG_vf_en h = false) ∧
    (∃ h : Nat, ∃ s : State, s.cfgOpen h = true ∧ s.flag CFG_vf_en h = true) ∧
    (∃ w : Who, ∃ pf : Nat, ∃ s : State, s.mayWrite w = true ∧ 2 = s.get FN_VMOD_SEL_gfn pf ∧ 31 = s.get FN_VMOD_SEL_vec pf ∧ ownerMay w 2 = true ∧ 2 < 4098 ∧ 31 < s.nvec 2 ∧ s.get VMOD_tally (vix 2 31) = 0) ∧
    (∃ w : Who, ∃ pf : Nat, ∃ v : Nat, ∃ s : State, s.mayWrite w = true ∧ 2 = s.get FN_VMOD_SEL_gfn pf ∧ 31 = s.get FN_VMOD_SEL_vec pf ∧ ownerMay w 2 = true ∧ 2 < 4098 ∧ 31 < s.nvec 2 ∧ s.get VMOD_tally (vix 2 31) ≠ 0 ∧ ((bits v 16 8 ≠ 0 ∧ bits v 16 8 ≤ s.get VMOD_tally (vix 2 31)) ∨ (bits v 16 8 = 0 ∧ bits v 0 10 = 0))) ∧
    (∃ w : Who, ∃ pf : Nat, ∃ v : Nat, ∃ s : State, s.mayWrite w = true ∧ 2 = s.get FN_VMOD_SEL_gfn pf ∧ 31 = s.get FN_VMOD_SEL_vec pf ∧ ownerMay w 2 = true ∧ 2 < 4098 ∧ 31 < s.nvec 2 ∧ s.get VMOD_tally (vix 2 31) ≠ 0 ∧ ((bits v 16 8 = 0 ∨ s.get VMOD_tally (vix 2 31) < bits v 16 8)) ∧ ((bits v 16 8 ≠ 0 ∨ bits v 0 10 ≠ 0))) ∧
    (∃ g : Nat, ∃ k : Nat, ∃ s : State, s.flag VMOD_timer (vix g k) = true ∧ k < 2048 ∧ s.get VMOD_at (vix g k) + 1000 * s.get VMOD_us (vix g k) ≤ s.clk) ∧
    (∃ w : Who, ∃ m : Nat, ∃ g : Nat, ∃ h : Nat, ∃ s : State, migPf w g = some h ∧ s.mayWrite w = true ∧ s.migTakes m h = true ∧ (s.migSeen m g).freezeBad m h g ≠ 0) ∧
    (∃ w : Who, ∃ m : Nat, ∃ g : Nat, ∃ h : Nat, ∃ s : State, migPf w g = some h ∧ s.mayWrite w = true ∧ s.migTakes m h = true ∧ (s.migSeen m g).freezeBad m h g = 0) ∧
    (∃ m : Nat, ∃ s : State, s.get MGX_op m = 1 ∧ s.flag FN_MIG_STATUS_busy m = true ∧ 2 = s.get MGX_gfn m ∧ s.fnHeld 2 = false ∧ s.masterStop = false ∧ s.fnState 2 = fsFreezing ∧ (s.queuesOf 2).any (fun q => !(s.entsOf q).isEmpty) = false ∧ (forEach (s.queuesOf 2) (fun q t => t.freezeDone q) s).migKek (s.get FN_MIG_STATUS_pf m) = none) ∧
    (∃ (m : Nat) (s u : State) (kek : List Byte), s.get MGX_op m = 1 ∧ s.flag FN_MIG_STATUS_busy m = true ∧ s.get MGX_gfn m = 2 ∧ s.fnHeld 2 = false ∧ s.fnState 2 = fsFreezing ∧ (s.queuesOf 2).any (fun q => !(s.entsOf q).isEmpty) = false ∧ u = forEach (s.queuesOf 2) (fun q t => t.freezeDone q) s ∧ u.migKek (s.get FN_MIG_STATUS_pf m) = some kek) ∧
    (∃ m : Nat, ∃ s : State, s.get MGX_op m = 2 ∧ s.flag FN_MIG_STATUS_busy m = true) ∧
    (∃ w : Who, ∃ m : Nat, ∃ g : Nat, ∃ h : Nat, ∃ s : State, migPf w g = some h ∧ s.mayWrite w = true ∧ s.migTakes m h = true ∧ s.flag FN_MIG_STATUS_busy m = true) ∧
    (∃ w : Who, ∃ m : Nat, ∃ g : Nat, ∃ h : Nat, ∃ s : State, migPf w g = some h ∧ s.mayWrite w = true ∧ s.migTakes m h = true ∧ s.flag FN_MIG_STATUS_busy m = false ∧ (s.migSeen m g).thawBad m h g [] ≠ 0x06) ∧
    (∃ (m g h : Nat) (bs : List Byte) (s : State), migPf (.fw 0) g = some h ∧ s.mayWrite (.fw 0) = true ∧ s.migTakes m h = true ∧ s.flag FN_MIG_STATUS_busy m = false ∧ (s.migSeen m g).thawBad m h g [] = 0x06 ∧ ((s.migSeen m g).hostRead h ((s.migSeen m g).migBuf m) (if leAt bs 8 4 ≤ (s.migSeen m g).get FN_MIG_BUFLEN_len m then max 64 (leAt bs 8 4) else 64) false false .other).thawBad m h g bs ≠ 0) ∧
    (∃ (m g h : Nat) (bs : List Byte) (s : State), migPf (.fw 0) g = some h ∧ s.mayWrite (.fw 0) = true ∧ s.migTakes m h = true ∧ s.flag FN_MIG_STATUS_busy m = false ∧ (s.migSeen m g).thawBad m h g [] = 0x06 ∧ ((s.migSeen m g).hostRead h ((s.migSeen m g).migBuf m) (if leAt bs 8 4 ≤ (s.migSeen m g).get FN_MIG_BUFLEN_len m then max 64 (leAt bs 8 4) else 64) false false .other).thawBad m h g bs = 0) ∧
    (∃ m : Nat, ∃ kek : List Byte, ∃ s : State, s.migKek (s.get FN_MIG_STATUS_pf m) = some kek ∧ s.get MGX_op m = 3 ∧ 2 = s.get MGX_gfn m ∧ s.fnState 2 = fsThawing) ∧
    (∃ w : Who, ∃ m : Nat, ∃ g : Nat, ∃ h : Nat, ∃ s : State, migPf w g = some h ∧ s.mayWrite w = true ∧ s.migTakes m h = true ∧ (s.migSeen m g).flag FN_MIG_STATUS_busy m = true ∧ (s.migSeen m g).get MGX_gfn m ≠ g) ∧
    (∃ w : Who, ∃ m : Nat, ∃ g : Nat, ∃ h : Nat, ∃ s : State, migPf w g = some h ∧ s.mayWrite w = true ∧ s.migTakes m h = true ∧ ((s.migSeen m g).flag FN_MIG_STATUS_busy m = false ∨ (s.migSeen m g).get MGX_gfn m = g) ∧ (s.migSeen m g).flrNow g = true) ∧
    (∃ w : Who, ∃ m : Nat, ∃ g : Nat, ∃ h : Nat, ∃ s : State, migPf w g = some h ∧ s.mayWrite w = true ∧ s.migTakes m h = true ∧ ((s.migSeen m g).flag FN_MIG_STATUS_busy m = false ∨ (s.migSeen m g).get MGX_gfn m = g) ∧ (s.migSeen m g).flrNow g = false ∧ (s.migSeen m g).fnState g = fsActive) ∧
    (∃ w : Who, ∃ m : Nat, ∃ g : Nat, ∃ h : Nat, ∃ s : State, migPf w g = some h ∧ s.mayWrite w = true ∧ s.migTakes m h = true ∧ ((s.migSeen m g).flag FN_MIG_STATUS_busy m = false ∨ (s.migSeen m g).get MGX_gfn m = g) ∧ (s.migSeen m g).flrNow g = false ∧ ((s.migSeen m g).fnState g = fsFrozen ∨ (s.migSeen m g).fnState g = fsFreezing) ∧ isVfOf h g = true) ∧
    (∃ w : Who, ∃ k : Nat, ∃ s : State, s.mayWrite w = true ∧ ownerMay w (s.get FN_DLOG_CTRL_gfn k) = true ∧ s.flag FN_DLOG_CTRL_busy k = false) ∧
    (∃ k : Nat, ∃ s : State, s.flag FN_DLOG_CTRL_busy k = true) ∧
    (∃ (k : Nat) (s : State) (e : ReadResult), s.flag FN_DLOG_CTRL_busy k = true ∧ ∀ b, e ≠ .data b) :=
  ⟨⟨0, st [(GLB_STATE_state, 0, dsService), (HE_LINK_up, 0, 1), (FN_STATE_state, 0, fsActive)], by decide +kernel⟩,
   ⟨0, st [(GLB_STATE_state, 0, dsService), (FN_STATE_state, 0, fsResetting)], by decide +kernel⟩,
   ⟨4097, st [(GLB_STATE_state, 0, dsService), (FN_STATE_state, 4097, fsResetting)], by decide +kernel⟩,
   ⟨0, st [(GLB_STATE_state, 0, dsService), (CFG_vf_en, 0, 0), (HE_LINK_up, 0, 1), (FN_STATE_state, 0, fsActive)], by decide +kernel⟩,
   ⟨0, st [(GLB_STATE_state, 0, dsService), (CFG_vf_en, 0, 1), (HE_LINK_up, 0, 1), (FN_STATE_state, 0, fsActive)], by decide +kernel⟩,
   ⟨.fw 0, 0, st [(GLB_STATE_state, 0, dsService), (VMOD_tally, (vix 2 31), 0), (FN_PF_CFG_vf_vectors, 0, 32), (FN_VMOD_SEL_gfn, 0, 2), (FN_VMOD_SEL_vec, 0, 31)], by decide +kernel⟩,
   ⟨.fw 0, 0, 2 * 2 ^ 16, st [(GLB_STATE_state, 0, dsService), (VMOD_tally, (vix 2 31), 1), (FN_PF_CFG_vf_vectors, 0, 32), (FN_VMOD_SEL_gfn, 0, 2), (FN_VMOD_SEL_vec, 0, 31), (VMOD_tally, vix 2 31, 3)], by decide +kernel⟩,
   ⟨.fw 0, 0, 1, st [(GLB_STATE_state, 0, dsService), (VMOD_tally, (vix 2 31), 1), (FN_PF_CFG_vf_vectors, 0, 32), (FN_VMOD_SEL_gfn, 0, 2), (FN_VMOD_SEL_vec, 0, 31), (VMOD_tally, vix 2 31, 3)], by decide +kernel⟩,
   ⟨0, 0, st [(GLB_STATE_state, 0, dsService), (VMOD_timer, (vix 0 0), 1)], by decide +kernel⟩,
   ⟨.fw 0, 0, 0, 0, st [(GLB_STATE_state, 0, dsService)], by decide +kernel⟩,
   ⟨.fw 0, 0, 2, 0, st [(GLB_STATE_state, 0, dsService), (FN_STATE_state, 2, fsActive), (FN_MIG_BUFLEN_len, 0, 2112), (CPH_MIG_en, 0, 1), (CPH_PAGE_OWNER_owner, 0, 0), (KY_valid, kix 0 0, 1), (KY_attr, kix 0 0, 0x20)], by decide +kernel⟩,
   ⟨0, st [(GLB_STATE_state, 0, dsService), (MGX_op, 0, 1), (FN_MIG_STATUS_busy, 0, 1), (FN_STATE_state, 2, fsFreezing), (MGX_gfn, 0, 2), (FN_STATE_bme, 0, 1), (FN_STATE_bme, 2, 1), (FN_STATE_state, 2, fsFreezing)], by decide +kernel⟩,
   ⟨0, st [(MGX_op, 0, 1), (FN_MIG_STATUS_busy, 0, 1), (MGX_gfn, 0, 2), (FN_STATE_bme, 0, 1), (FN_STATE_bme, 2, 1), (FN_STATE_state, 2, fsFreezing), (CPH_MIG_en, 0, 1), (CPH_PAGE_OWNER_owner, 0, 0), (KY_valid, kix 0 0, 1), (KY_attr, kix 0 0, 0x20)], _, List.replicate 16 0#8, by decide +kernel, by decide +kernel, by decide +kernel, by decide +kernel, by decide +kernel, by decide +kernel, rfl, by decide +kernel⟩,
   ⟨0, st [(GLB_STATE_state, 0, dsService), (MGX_op, 0, 2), (FN_MIG_STATUS_busy, 0, 1)], by decide +kernel⟩,
   ⟨.fw 0, 0, 0, 0, st [(GLB_STATE_state, 0, dsService), (FN_MIG_STATUS_busy, 0, 1)], by decide +kernel⟩,
   ⟨.fw 0, 0, 0, 0, st [(GLB_STATE_state, 0, dsService), (FN_MIG_STATUS_busy, 0, 0)], by decide +kernel⟩,
   ⟨0, 2, 0, [], st [(GLB_STATE_state, 0, dsService), (FN_STATE_state, 2, fsActive), (FN_MIG_BUFLEN_len, 0, 64), (CPH_MIG_en, 0, 1), (CPH_PAGE_OWNER_owner, 0, 0), (KY_valid, kix 0 0, 1), (KY_attr, kix 0 0, 0x20)], by decide +kernel⟩,
   ⟨0, 2, 0, smallImage, st [(GLB_STATE_state, 0, dsService), (FN_STATE_state, 2, fsActive), (FN_MIG_BUFLEN_len, 0, 64), (CPH_MIG_en, 0, 1), (CPH_PAGE_OWNER_owner, 0, 0), (KY_valid, kix 0 0, 1), (KY_attr, kix 0 0, 0x20)], by decide +kernel⟩,
   ⟨0, List.replicate 16 0#8, st [(GLB_STATE_state, 0, dsService), (MGX_op, 0, 3), (FN_STATE_state, 2, fsThawing), (MGX_gfn, 0, 2), (FN_STATE_state, 2, fsThawing), (CPH_MIG_en, 0, 1), (CPH_PAGE_OWNER_owner, 0, 0), (KY_valid, kix 0 0, 1), (KY_attr, kix 0 0, 0x20)], by decide +kernel⟩,
   ⟨.fw 0, 0, 2, 0, st [(GLB_STATE_state, 0, dsService), (FN_MIG_STATUS_busy, 0, 1), (MGX_gfn, 0, 3)], by decide +kernel⟩,
   ⟨.fw 0, 0, 2, 0, st [(GLB_STATE_state, 0, dsService), (FN_flr, 2, 1)], by decide +kernel⟩,
   ⟨.fw 0, 0, 0, 0, st [(GLB_STATE_state, 0, dsService)], by decide +kernel⟩,
   ⟨.fw 0, 0, 2, 0, st [(GLB_STATE_state, 0, dsService), (FN_STATE_state, 2, fsFrozen)], by decide +kernel⟩,
   ⟨.fw 0, 0, st [(GLB_STATE_state, 0, dsService), (FN_DLOG_CTRL_busy, 0, 0)], by decide +kernel⟩,
   ⟨0, st [(GLB_STATE_state, 0, dsService), (FN_DLOG_CTRL_busy, 0, 1)], by decide +kernel⟩,
   ⟨0, st [(FN_DLOG_CTRL_busy, 0, 1)], .timeout, by decide +kernel, fun b h => by cases h⟩⟩

theorem wit_MailboxesAndLocks :
    (∃ w : Who, ∃ c : Nat, ∃ n : Nat, ∃ s : State, s.busOpen w = true ∧ s.mbxReach w c = true ∧ s.get MBX_LOCK_owner c = ownerNo w ∧ s.flag MBX_CH_STATUS_full c = false ∧ 1 ≤ n ∧ n ≤ 8 ∧ s.mbxTakes c (ownerNo w) = true) ∧
    (∃ w : Who, ∃ c : Nat, ∃ s : State, s.busOpen w = true ∧ s.mbxReach w c = true ∧ s.get MBX_LOCK_owner c = ownerNo w ∧ s.flag MBX_CH_STATUS_full c = true) ∧
    (∃ w : Who, ∃ c : Nat, ∃ s : State, s.busOpen w = true ∧ s.mbxReach w c = true ∧ s.get MBX_LOCK_owner c ≠ ownerNo w) ∧
    (∃ w : Who, ∃ n : Nat, ∃ v : Nat, ∃ s : State, s.busOpen w = true ∧ s.mbxReach w n = true ∧ s.get MBX_LOCK_owner n = ownerNo w ∧ bits v 0 16 = ownerNo w) ∧
    (∃ m : Nat, ∃ c : Nat, ∃ s : State, s.busOpen (.fw m) = true ∧ s.mbxReach (.fw m) c = true ∧ s.flag MBX_CH_STATUS_full c = false ∧ s.get MBX_LOCK_owner c = 0) ∧
    (∃ m : Nat, ∃ c : Nat, ∃ v : Nat, ∃ s : State, s.busOpen (.fw m) = true ∧ s.mbxReach (.fw m) c = true ∧ s.flag MBX_CH_STATUS_full c = false ∧ s.get MBX_LOCK_owner c = 0 ∧ s.mbxCfgOk c v = true) ∧
    (∃ m : Nat, ∃ c : Nat, ∃ s : State, s.busOpen (.fw m) = true ∧ s.mbxReach (.fw m) c = true ∧ s.flag MBX_CH_STATUS_full c = true) ∧
    (∃ k : Nat, ∃ s : State, s.shellHeard k = true) ∧
    (∃ w : Who, ∃ g : Nat, ∃ n : Nat, ∃ s : State, s.busOpen w = true ∧ s.fnExists g = true ∧ 1 ≤ n ∧ n ≤ 8 ∧ s.flag PVU_full g = false ∧ isGuest w g = true) ∧
    (∃ w : Who, ∃ g : Nat, ∃ n : Nat, ∃ s : State, s.busOpen w = true ∧ s.fnExists g = true ∧ 1 ≤ n ∧ n ≤ 8 ∧ s.flag PVD_full g = false ∧ isPfOf w g = true) ∧
    (∃ w : Who, ∃ g : Nat, ∃ s : State, s.busOpen w = true ∧ s.fnExists g = true ∧ isGuest w g = true ∧ s.flag PVU_full g = true) ∧
    (∃ w : Who, ∃ g : Nat, ∃ s : State, s.busOpen w = true ∧ s.fnExists g = true ∧ isGuest w g = false) ∧
    (∃ w : Who, ∃ g : Nat, ∃ s : State, s.busOpen w = true ∧ s.fnExists g = true ∧ isPfOf w g = true ∧ s.flag PVD_full g = true) :=
  ⟨⟨.fw 0, 8, 8, st [(GLB_STATE_state, 0, dsService), (MBX_CH_STATUS_full, 8, 0), (MBX_LOCK_owner, 8, 0x8000), (MBX_CH_CFG_rx, 8, 1), (MBX_CH_CFG_tx_mask, 8, 4)], by decide +kernel⟩,
   ⟨.fw 0, 31, st [(GLB_STATE_state, 0, dsService), (MBX_CH_STATUS_full, 31, 1), (MBX_LOCK_owner, 31, 0x8000), (MBX_CH_STATUS_full, 31, 1)], by decide +kernel⟩,
   ⟨.fw 0, 8, st [(GLB_STATE_state, 0, dsService)], by decide +kernel⟩,
   ⟨.fw 0, 8, 0x8000, st [(GLB_STATE_state, 0, dsService), (MBX_LOCK_owner, 8, 0x8000)], by decide +kernel⟩,
   ⟨0, 8, st [(GLB_STATE_state, 0, dsService), (MBX_CH_STATUS_full, 8, 0), (MBX_LOCK_owner, 8, 0)], by decide +kernel⟩,
   ⟨0, 8, 0, st [(GLB_STATE_state, 0, dsService), (MBX_CH_STATUS_full, 8, 0), (MBX_LOCK_owner, 8, 0)], by decide +kernel⟩,
   ⟨0, 8, st [(GLB_STATE_state, 0, dsService), (MBX_CH_STATUS_full, 8, 1), (MBX_CH_STATUS_full, 8, 1)], by decide +kernel⟩,
   ⟨0, st [(GLB_STATE_state, 0, dsService), (TLK_STATUS_link, 0, 1)], by decide +kernel⟩,
   ⟨.vf 2, 2, 8, st [(GLB_STATE_state, 0, dsService), (PVU_full, 2, 0), (CFG_vf_mse, 0, 1), (FN_STATE_state, 2, fsActive)], by decide +kernel⟩,
   ⟨.fw 0, 2, 1, st [(GLB_STATE_state, 0, dsService), (PVD_full, 2, 0), (CFG_vf_mse, 0, 1), (FN_STATE_state, 2, fsActive)], by decide +kernel⟩,
   ⟨.vf 2, 2, st [(GLB_STATE_state, 0, dsService), (PVU_full, 2, 1), (CFG_vf_mse, 0, 1), (FN_STATE_state, 2, fsActive), (PVU_full, 2, 1)], by decide +kernel⟩,
   ⟨.fw 0, 0, st [(GLB_STATE_state, 0, dsService), (FN_STATE_state, 0, fsActive)], by decide +kernel⟩,
   ⟨.fw 0, 2, st [(GLB_STATE_state, 0, dsService), (PVD_full, 2, 1), (CFG_vf_mse, 0, 1), (FN_STATE_state, 2, fsActive), (PVD_full, 2, 1)], by decide +kernel⟩⟩

theorem wit_ControllerMessagesAndWindows :
    (∃ s : State, s.bmcHeard = true ∧ s.busOpen .bmc = true) ∧
    (∃ op : Nat, ∃ e : Nat, ∃ s : State, s.bmcHeard = true ∧ op % 4 < 2 ∧ e ≠ 0 ∧ e ≠ 255) ∧
    (∃ s : State, s.bmcHeard = true) ∧
    (∃ w : Who, ∃ pf : Nat, ∃ k : Nat, ∃ v : Nat, ∃ s : State, s.mayWrite w = true ∧ winMay w pf = true ∧ bit v 62 = false ∧ s.flag MBX_WIN_CFG_en (16 * pf + k) = true) ∧
    (∃ w : Who, ∃ pf : Nat, ∃ k : Nat, ∃ v : Nat, ∃ s : State, s.mayWrite w = true ∧ winMay w pf = true ∧ bit v 62 = false ∧ s.flag MBX_WIN_CFG_en (16 * pf + k) = false ∧ winOk (s.get MBX_WIN_BASE_base (16 * pf + k)) (bits v 32 4) (bits v 0 18) (bits v 40 10) (bits v 36 4) = true) ∧
    (∃ w : Who, ∃ pf : Nat, ∃ k : Nat, ∃ v : Nat, ∃ s : State, s.mayWrite w = true ∧ winMay w pf = true ∧ bit v 62 = false ∧ s.flag MBX_WIN_CFG_en (16 * pf + k) = false ∧ winOk (s.get MBX_WIN_BASE_base (16 * pf + k)) (bits v 32 4) (bits v 0 18) (bits v 40 10) (bits v 36 4) = false) ∧
    (∃ pf : Nat, ∃ k : Nat, ∃ s : State, s.flag WNX_wait (16 * pf + k) = false) ∧
    (∃ pf : Nat, ∃ k : Nat, ∃ s : State, s.flag WNX_wait (16 * pf + k) = true ∧ s.get WNX_at (16 * pf + k) + 1000 * s.get MBX_WIN_CFG_retry_us (16 * pf + k) ≤ s.clk) ∧
    (∃ (pf k i : Nat) (h pay bs : List Byte) (s u : State), i = 16 * pf + k ∧ s.flag MBX_WIN_CFG_en i = true ∧ s.portsOn = true ∧ s.masterStop = false ∧ s.fnHeld pf = false ∧ s.fnState pf ≠ fsResetting ∧ s.winPay i pay = some (bs, u) ∧ s.flag WNX_wait i = false ∧ bit (byteAt h 0) 0 = true) ∧
    (∃ (pf k i : Nat) (h pay bs : List Byte) (s u : State), i = 16 * pf + k ∧ s.flag MBX_WIN_CFG_en i = true ∧ s.portsOn = true ∧ s.masterStop = false ∧ s.fnHeld pf = false ∧ s.fnState pf ≠ fsResetting ∧ s.winPay i pay = some (bs, u) ∧ s.flag WNX_wait i = false ∧ bit (byteAt h 0) 0 = false) :=
  ⟨⟨st [(GLB_STATE_state, 0, dsService)], by decide +kernel⟩,
   ⟨1, 8, st [(GLB_STATE_state, 0, dsService)], by decide +kernel⟩,
   ⟨st [(GLB_STATE_state, 0, dsService)], by decide +kernel⟩,
   ⟨.fw 0, 0, 0, 0, st [(GLB_STATE_state, 0, dsService), (MBX_WIN_CFG_en, (16 * 0 + 0), 1)], by decide +kernel⟩,
   ⟨.fw 0, 0, 0, 2 ^ 40 + 12 * 2 ^ 32 + 1, st [(GLB_STATE_state, 0, dsService), (MBX_WIN_CFG_en, (16 * 0 + 0), 0)], by decide +kernel⟩,
   ⟨.fw 0, 0, 0, 0, st [(GLB_STATE_state, 0, dsService), (MBX_WIN_CFG_en, (16 * 0 + 0), 0)], by decide +kernel⟩,
   ⟨0, 0, st [(GLB_STATE_state, 0, dsService), (WNX_wait, (16 * 0 + 0), 0)], by decide +kernel⟩,
   ⟨0, 0, st [(GLB_STATE_state, 0, dsService), (WNX_wait, (16 * 0 + 0), 1), (CLK_ticks, 0, 1000)], by decide +kernel⟩,
   ⟨0, 15, 15, [1#8], [7#8], [7#8], st [(GLB_STATE_state, 0, dsService), (FN_STATE_state, 0, fsActive), (FN_STATE_bme, 0, 1), (MBX_WIN_CFG_en, 15, 1), (MBX_WIN_CFG_user, 15, 2), (MBX_WIN_CFG_blk, 15, 12)], st [(GLB_STATE_state, 0, dsService), (FN_STATE_state, 0, fsActive), (FN_STATE_bme, 0, 1), (MBX_WIN_CFG_en, 15, 1), (MBX_WIN_CFG_user, 15, 2), (MBX_WIN_CFG_blk, 15, 12)], rfl, by decide +kernel, by decide +kernel, by decide +kernel, by decide +kernel, by decide +kernel, rfl, by decide +kernel, by decide +kernel⟩,
   ⟨0, 15, 15, [0#8], [7#8], [7#8], st [(GLB_STATE_state, 0, dsService), (FN_STATE_state, 0, fsActive), (FN_STATE_bme, 0, 1), (MBX_WIN_CFG_en, 15, 1), (MBX_WIN_CFG_user, 15, 2), (MBX_WIN_CFG_blk, 15, 12)], st [(GLB_STATE_state, 0, dsService), (FN_STATE_state, 0, fsActive), (FN_STATE_bme, 0, 1), (MBX_WIN_CFG_en, 15, 1), (MBX_WIN_CFG_user, 15, 2), (MBX_WIN_CFG_blk, 15, 12)], rfl, by decide +kernel, by decide +kernel, by decide +kernel, by decide +kernel, by decide +kernel, rfl, by decide +kernel, by decide +kernel⟩⟩

theorem wit_TwinsPairAndMirror :
    (∃ w : Who, ∃ s : State, s.mayWrite w = true ∧ s.twinRuns = true ∧ (s.twin = twUnpaired ∨ s.twin = twWidowed)) ∧
    (∃ c : Nat, ∃ s : State, s.flag TWN_STATUS_link 0 = true ∧ s.twin = twPairing ∧ c % 2 ^ 64 ≤ s.get TWX_rxctr 0) ∧
    (∃ (c rev pr : Nat) (sp wi idl gm : Bool) (s : State), s.flag TWN_STATUS_link 0 = true ∧ s.twin = twPairing ∧ s.get TWX_rxctr 0 < c % 2 ^ 64 ∧ (s.set TWX_rxctr 0 c).helloBad sp rev pr wi idl gm = 0) ∧
    (∃ (c rev pr : Nat) (sp wi idl gm : Bool) (s : State), s.flag TWN_STATUS_link 0 = true ∧ s.twin = twPairing ∧ s.get TWX_rxctr 0 < c % 2 ^ 64 ∧ (s.set TWX_rxctr 0 c).helloBad sp rev pr wi idl gm ≠ 0) ∧
    (∃ s : State, s.twin = twPairing ∧ s.get TWX_at 0 + 100000000 ≤ s.clk) ∧
    (∃ w : Who, ∃ s : State, s.mayWrite w = true ∧ s.twin ≠ twUnpaired ∧ s.dev = dsIdle ∧ s.flag TWX_unp 0 = false) ∧
    (∃ w : Who, ∃ s : State, s.mayWrite w = true ∧ s.twin ≠ twUnpaired ∧ s.dev ≠ dsIdle) ∧
    (∃ late : Bool, ∃ s : State, s.flag TWX_unp 0 = true ∧ ((late = true → s.get TWX_at 0 + 1000000 ≤ s.clk)) ∧ ((late = false → s.twinWait.isEmpty = true))) ∧
    (∃ w : Who, ∃ s : State, s.twin = twDegraded ∧ s.flag TWN_STATUS_link 0 = true ∧ s.mayWrite w = true ∧ s.heard100 = true) ∧
    (∃ s : State, s.twin = twDegraded ∧ s.flag TWN_STATUS_link 0 = true ∧ s.heard100 = true ∧ s.flag TWN_CTRL_auto_resync 0 = true) ∧
    (∃ al : Bool, ∃ s : State, (s.put TWN_STATUS_alive 0 al) = s.put TWN_STATUS_alive 0 al ∧ (s.put TWN_STATUS_alive 0 al).twinRuns = true ∧ (s.put TWN_STATUS_alive 0 al).paired = true) ∧
    (∃ c : Nat, ∃ s : State, s.twinHears = true ∧ s.get TWX_rxctr 0 < c % 2 ^ 64) ∧
    (∃ s : State, s.twinRuns = true ∧ s.paired = true) ∧
    (∃ s : State, s.syncing = true ∧ s.flag TWX_mine 0 = true ∧ s.flag TWX_theirs 0 = true) ∧
    (∃ w : Who, ∃ s : State, s.linkMay w = true) :=
  ⟨⟨.fw 0, st [(GLB_STATE_state, 0, dsService)], by decide +kernel⟩,
   ⟨0, st [(GLB_STATE_state, 0, dsService), (TWN_STATUS_link, 0, 1), (TWN_STATUS_state, 0, twPairing)], by decide +kernel⟩,
   ⟨1, 0, 0, true, false, true, true, st [(GLB_STATE_state, 0, dsIdle), (TWN_STATUS_link, 0, 1), (TWN_STATUS_state, 0, twPairing), (GLB_PROFILE_profile, 0, 0), (GLB_ID_stepping, 0, 0), (TWN_STATUS_key_ok, 0, 1)], by decide +kernel⟩,
   ⟨1, 0, 0, true, false, true, true, st [(GLB_STATE_state, 0, dsIdle), (TWN_STATUS_link, 0, 1), (TWN_STATUS_state, 0, twPairing), (GLB_PROFILE_profile, 0, 0), (GLB_ID_stepping, 0, 0), (TWN_STATUS_key_ok, 0, 0)], by decide +kernel⟩,
   ⟨st [(GLB_STATE_state, 0, dsService), (TWN_STATUS_state, 0, twPairing), (CLK_ticks, 0, 100000000)], by decide +kernel⟩,
   ⟨.fw 0, st [(GLB_STATE_state, 0, dsIdle), (TWX_unp, 0, 0), (TWN_STATUS_state, 0, twHealthy)], by decide +kernel⟩,
   ⟨.fw 0, st [(GLB_STATE_state, 0, dsService), (TWN_STATUS_state, 0, twHealthy)], by decide +kernel⟩,
   ⟨false, st [(GLB_STATE_state, 0, dsService), (TWX_unp, 0, 1)], by decide +kernel⟩,
   ⟨.fw 0, st [(GLB_STATE_state, 0, dsService), (TWN_STATUS_state, 0, twDegraded), (TWN_STATUS_link, 0, 1), (TWX_hb, 0, 1), (CLK_ticks, 0, 100000)], by decide +kernel⟩,
   ⟨st [(GLB_STATE_state, 0, dsService), (TWN_STATUS_state, 0, twDegraded), (TWN_STATUS_link, 0, 1), (TWN_CTRL_auto_resync, 0, 1), (TWX_hb, 0, 1), (CLK_ticks, 0, 100000)], by decide +kernel⟩,
   ⟨false, st [(GLB_STATE_state, 0, dsService), (TWN_STATUS_state, 0, twHealthy)], by decide +kernel⟩,
   ⟨1, st [(GLB_STATE_state, 0, dsService), (TWN_STATUS_link, 0, 1), (TWN_STATUS_state, 0, twHealthy)], by decide +kernel⟩,
   ⟨st [(GLB_STATE_state, 0, dsService), (TWN_STATUS_state, 0, twHealthy)], by decide +kernel⟩,
   ⟨st [(GLB_STATE_state, 0, dsService), (TWX_mine, 0, 1), (TWX_theirs, 0, 1), (TWN_STATUS_state, 0, twResync)], by decide +kernel⟩,
   ⟨.fw 0, st [(GLB_STATE_state, 0, dsService), (MC_SEC_secure_mask, 0, 1)], by decide +kernel⟩⟩

theorem wit_FaultsAndCounters :
    (∃ k : Nat, ∃ s : State, s.get SBX_seq k = 1) ∧
    (∃ k : Nat, ∃ s : State, s.dev ≠ 0 ∧ s.flag SB_STATUS_fault k = false ∧ (s.put SB_STATUS_fault k true).flag SB_STATUS_pwren k = true ∧ (s.put SB_STATUS_fault k true).get SBX_seq k ≠ 1) ∧
    (∃ s : State, s.dev ≠ 0) ∧
    (∃ c : Nat, ∃ s : State, s.dev ≠ 0 ∧ c ≠ 0x1F0) ∧
    (∃ w : Who, ∃ c : Nat, ∃ s : State, s.fltOpen w = true ∧ s.flag FLT_SRC_STATUS_active c = true ∧ s.get FLT_at c ≠ s.clk + 1) ∧
    (∃ w : Who, ∃ c : Nat, ∃ s : State, s.fltOpen w = true ∧ s.flag FLT_SRC_STATUS_active c = true ∧ s.get FLT_at c = s.clk + 1) ∧
    (∃ w : Who, ∃ c : Nat, ∃ d : Nat, ∃ s : State, s.fltOpen w = true ∧ s.injMay w c d = true) ∧
    (∃ w : Who, ∃ c : Nat, ∃ d : Nat, ∃ s : State, s.fltOpen w = true ∧ s.injMay w c d = false) ∧
    (∃ w : Who, ∃ s : State, s.fltOpen w = true) ∧
    (∃ w : Who, ∃ s : State, s.mayWrite w = true) ∧
    (∃ w : Who, ∃ s : State, s.mayWrite w = true ∧ s.flag PMU_DUMP_CFG_en 0 = true ∧ s.masterStop = false ∧ s.get PMX_tick 0 ≠ s.clk + 1 ∧ s.dump = [] ∧ s.flag MBX_WIN_CFG_en s.dumpWin = true) ∧
    (∃ s : State, s.flag PMU_DUMP_CFG_en 0 = true ∧ s.get PMX_per 0 ≠ 0 ∧ reached64 s.now (s.get PMX_next 0) = true ∧ s.portsOn = true) ∧
    (∃ w : Who, ∃ v : Nat, ∃ s : State, s.mayWrite w = true ∧ s.flag MBX_WIN_CFG_en (16 * bits v 8 1 + bits v 4 4) = true ∧ s.get MBX_WIN_CFG_user (16 * bits v 8 1 + bits v 4 4) = 1 ∧ s.flag PMU_DUMP_CFG_en 0 = false) ∧
    (∃ w : Who, ∃ v : Nat, ∃ s : State, s.mayWrite w = true ∧ s.flag MBX_WIN_CFG_en (16 * bits v 8 1 + bits v 4 4) = false) :=
  ⟨⟨0, st [(GLB_STATE_state, 0, dsService), (SBX_seq, 0, 1)], by decide +kernel⟩,
   ⟨0, st [(GLB_STATE_state, 0, dsService), (SB_STATUS_fault, 0, 0), (SB_STATUS_pwren, 0, 1)], by decide +kernel⟩,
   ⟨st [(GLB_STATE_state, 0, dsService)], by decide +kernel⟩,
   ⟨0, st [(GLB_STATE_state, 0, dsService)], by decide +kernel⟩,
   ⟨.fw 0, 0, st [(GLB_STATE_state, 0, dsService), (FLT_SRC_STATUS_active, 0, 1)], by decide +kernel⟩,
   ⟨.fw 0, 0, st [(GLB_STATE_state, 0, dsService), (FLT_SRC_STATUS_active, 0, 1), (FLT_at, 0, 1)], by decide +kernel⟩,
   ⟨.fw 0, 0, 0, st [(GLB_STATE_state, 0, dsService)], by decide +kernel⟩,
   ⟨.fw 0, 0x1F0, 0, st [(GLB_STATE_state, 0, dsService)], by decide +kernel⟩,
   ⟨.fw 0, st [(GLB_STATE_state, 0, dsService)], by decide +kernel⟩,
   ⟨.fw 0, st [(GLB_STATE_state, 0, dsService)], by decide +kernel⟩,
   ⟨.fw 0, st [(GLB_STATE_state, 0, dsService), (PMU_DUMP_CFG_en, 0, 1), (MBX_WIN_CFG_en, 0, 1)], by decide +kernel⟩,
   ⟨st [(GLB_STATE_state, 0, dsService), (PMU_DUMP_CFG_en, 0, 1), (PMX_per, 0, 1)], by decide +kernel⟩,
   ⟨.fw 0, 0, st [(GLB_STATE_state, 0, dsService), (MBX_WIN_CFG_en, (16 * bits 0 8 1 + bits 0 4 4), 1), (MBX_WIN_CFG_user, (16 * bits 0 8 1 + bits 0 4 4), 1), (PMU_DUMP_CFG_en, 0, 0)], by decide +kernel⟩,
   ⟨.fw 0, 0, st [(GLB_STATE_state, 0, dsService), (MBX_WIN_CFG_en, (16 * bits 0 8 1 + bits 0 4 4), 0)], by decide +kernel⟩⟩

end Sys2Proof.Tests
end

section
/-! PROOFS. The datapath commands of GLB (spec/01_device_overview.md, R22 to R27): what a one-bit field reads after a write, the
cases of `GLB_PROFILE_WRITE` and `DP_EN_SET`, and the statements about them. -/

namespace Sys2Proof.Proofs

open Sys2Proof Sys2Proof.Machine Sys2Proof.Machine.Reg Sys2Proof.Laws

variable {s : State} {w : Who}

/-! ## One-bit fields and the conditions read from them -/

theorem flag_put_same {f : Fld} {i : Nat} {b : Bool} (hs : SM.sorted s.fld = true) (hw : f.w ≠ 0) :
    (s.put f i b).flag f i = b := by
  have hone : 1 % 2 ^ f.w = 1 := Nat.mod_eq_of_lt (Nat.one_lt_two_pow hw)
  unfold State.flag State.put
  rw [get_set_same hs]
  cases b <;> simp [b2n, hone]

theorem flag_put_ne {f g : Fld} {i j : Nat} {b : Bool} (hs : SM.sorted s.fld = true) (hk : g.id % 4096 ≠ f.id % 4096) :
    (s.put f i b).flag g j = s.flag g j :=
  congrArg (· == 1) (get_set_ne hs hk)

/-- When the datapath takes in new work (R26). -/
theorem open_iff : s.open_ = true ↔
    s.dev = dsService ∧ s.flag GLB_STATUS_dp_draining 0 = false ∧ s.flag PW_seal 0 = false := by
  simp [State.open_, and_assoc]

/-- GLB is reached as PWR and BOOT are, but in AON_ONLY (R405). -/
theorem glbOpen_iff : s.glbOpen w = true ↔ s.bootOpen w = true ∧ s.dev ≠ dsAonOnly := by
  simp [State.glbOpen]

/-! ## GLB_PROFILE_WRITE (R22) -/

theorem exec_glbProfileWrite_refused {v : Nat} (hw : s.glbOpen w = true) (hd : s.dev ≠ dsIdle) :
    exec (.glbProfileWrite w v) s = .next (s.put GLB_STATUS_profile_refused 0 true) := by
  show execGlbProfileWrite w v s = _
  simp [execGlbProfileWrite, hw, hd]

theorem exec_glbProfileWrite_accepted {v : Nat} (hw : s.glbOpen w = true) (hd : s.dev = dsIdle)
    (ht : s.get TWN_STATUS_state 0 = 0) : exec (.glbProfileWrite w v) s =
      .next ((s.set GLX_profile 0 (bits v 0 2)).put GLB_STATUS_profile_busy 0 true) := by
  show execGlbProfileWrite w v s = _
  simp [execGlbProfileWrite, hw, hd, ht]

/-- Settles O13: outside DATAPATH_IDLE the write only sets its refusal; in it, an accessor that reaches BOOT reaches GLB
too, and the change begins. -/
theorem profileWriteOutsideIdleIsRefused : Obligations.ProfileWriteOutsideIdleIsRefused := by
  unfold Obligations.ProfileWriteOutsideIdleIsRefused
  refine ⟨fun w v s hw hd => exec_glbProfileWrite_refused hw hd, fun w v s hw hd ht => ?_⟩
  have hg : s.glbOpen w = true := glbOpen_iff.2 ⟨hw, by rw [hd]; decide⟩
  exact exec_glbProfileWrite_accepted hg hd ht

/-! ## DP_EN_SET in SERVICE (R27) -/

/-- The state that a write of 1 to `dp_en` leaves in SERVICE. -/
def reenabled (s : State) : State := (s.put GLB_CTRL_dp_en 0 true).put GLB_STATUS_dp_draining 0 false

theorem exec_dpEnSet_service (hw : s.glbOpen w = true) (hd : s.dev = dsService) :
    exec (.dpEnSet w) s = .next (reenabled s) := by
  have hi : dsService ≠ dsIdle := by decide
  show execDpEnSet w s = _
  simp [execDpEnSet, reenabled, hw, hd, hi]

theorem reenabled_dp_en (hs : SM.sorted s.fld = true) : (reenabled s).flag GLB_CTRL_dp_en 0 = true :=
  (flag_put_ne (set_sorted hs) (by decide)).trans (flag_put_same hs (by decide))

theorem reenabled_draining (hs : SM.sorted s.fld = true) : (reenabled s).flag GLB_STATUS_dp_draining 0 = false :=
  flag_put_same (set_sorted hs) (by decide)

theorem reenabled_seal (hs : SM.sorted s.fld = true) : (reenabled s).flag PW_seal 0 = s.flag PW_seal 0 :=
  (flag_put_ne (set_sorted hs) (by decide)).trans (flag_put_ne hs (by decide))

theorem reenabled_dev (hs : SM.sorted s.fld = true) : (reenabled s).dev = s.dev :=
  (dev_set (set_sorted hs) (by decide)).trans (dev_set hs (by decide))

/-- Settles O14: `dp_draining` is what keeps an unsealed device in SERVICE from taking in work, and the command clears it. -/
theorem reenableDuringDrainReturnsAtOnce : Obligations.ReenableDuringDrainReturnsAtOnce := by
  unfold Obligations.ReenableDuringDrainReturnsAtOnce
  intro w s hwf hw hd _ hseal
  have hs : SM.sorted s.fld = true := wf_sorted hwf
  have hdev : (reenabled s).dev = dsService := (reenabled_dev hs).trans hd
  have hdrain := reenabled_draining hs
  exact ⟨reenabled s, exec_dpEnSet_service hw hd, reenabled_dp_en hs, hdev, hdrain,
    open_iff.2 ⟨hdev, hdrain, (reenabled_seal hs).trans hseal⟩⟩

end Sys2Proof.Proofs
end

section
/-! PROOFS. General register 0 (spec/05_niris_isa.md, R141): what reading and writing it does, and when no operand keeps an
instruction from its slot. -/

namespace Sys2Proof.Proofs

open Sys2Proof Sys2Proof.Machine Sys2Proof.Machine.Reg

variable {s : State} {t w : Nat}

@[simp] theorem tg_zero : s.tg t 0 = 0 := if_pos rfl

@[simp] theorem tput_zero {v : Nat} : s.tput t 0 v = s := if_pos rfl

/-- The hazard rule of a slot (R98, R146) asks only about the registers other than g0. -/
theorem noHazard_iff : (insnRegs w).any (fun r => r != 0 && s.get TH_hz (32 * t + r) != 0) = false ↔
    ∀ r, r ∈ insnRegs w → r ≠ 0 → s.get TH_hz (32 * t + r) = 0 := by
  simp [List.any_eq_false]

/-- A slot that no fault, false predicate, waiting operand or lockstep check takes is the instruction's own effect after the
slot has passed. -/
theorem slotRun_effect {sem : State → State} (hbad : s.flag TH_bad t = false) (hbudget : s.budgetDue t = false)
    (hok : insnOk (isSup t) w = true) (hpred : s.predOk t w = true)
    (hfree : (insnRegs w).any (fun r => r != 0 && s.get TH_hz (32 * t + r) != 0) = false) :
    s.slotRun t w false sem = sem (s.slotPass t) := by
  simp [State.slotRun, hbad, hbudget, hok, hpred, hfree]

/-- Settles O26: register 0 is the case that the read, the write and the hazard rule each leave out. -/
theorem registerZeroIsHardwired : Obligations.RegisterZeroIsHardwired := by
  unfold Obligations.RegisterZeroIsHardwired
  refine ⟨fun _ _ => tg_zero, fun _ _ _ => tput_zero, ?_⟩
  intro t w sem s hbad hbudget hok hpred hwait
  exact slotRun_effect hbad hbudget hok hpred (noHazard_iff.2 hwait)

end Sys2Proof.Proofs
end

section
/-! PROOFS. The commands that move the device (spec/01_device_overview.md, Table OV-4; spec/20_power_and_startup.md, R487 and
R507): which state each of them leaves it in. -/

namespace Sys2Proof.Proofs

open Sys2Proof Sys2Proof.Machine Sys2Proof.Machine.Reg Sys2Proof.Laws

variable {s t u : State}

/-! ## Reading fields through a change of many -/

theorem flag_of_spares {g : Fld} {j : Nat} (h : Spares g j s t) (hs : SM.sorted s.fld = true) : t.flag g j = s.flag g j :=
  congrArg (· == 1) (h hs).2

/-- A field of a chapter that a reset does not keep reads its reset value. -/
theorem get_keepFrom_lt {n : Nat} {g : Fld} {j : Nat} (hs : SM.sorted s.fld = true) (hg : g.id % 4096 < n) :
    (s.keepFrom n).get g j = g.rst j := by
  have hf : SM.find? (s.keepFrom n).fld (fkey g j) = none := by
    show SM.find? (s.fld.filter _) _ = _
    rw [sm_find_filter hs]
    cases SM.find? s.fld (fkey g j) <;> simp [fkey_mod, hg]
  unfold State.get
  rw [hf]

theorem get_keepFrom_le {n : Nat} {g : Fld} {j : Nat} (hs : SM.sorted s.fld = true) (hg : n ≤ g.id % 4096) :
    (s.keepFrom n).get g j = s.get g j :=
  get_filter hs rfl (fun _ => by simp [fkey_mod, hg])

/-! ## Resets of the domains -/

/-- The numbers of the fields of the kept chapters that a reset of the domains changes: the sideband balls and Drift. -/
def resetFields : List Nat :=
  [SB_STATUS_rst_n.id, SB_STATUS_trig.id, FLT_dead.id, MTX_step.id, MT_STATUS_drift_cause.id, MT_STATUS_drift.id,
   MTX_srem.id, MTX_sneg.id, MT_STATUS_slewing.id, MT_DRIFT_AGE_age_ms.id, MTX_dtick.id]

theorem ne_of_mem {g : Fld} {l : List Nat} {n : Nat} (h : l.all (fun n => g.id % 4096 != n % 4096) = true) (hn : n ∈ l) :
    g.id % 4096 ≠ n % 4096 := by
  simpa using List.all_eq_true.1 h n hn

theorem enterDrift_spares {g : Fld} {j c : Nat} (h : Spares g j s t)
    (hg : resetFields.all (fun n => g.id % 4096 != n % 4096) = true) : Spares g j s (t.enterDrift c) := by
  have ne := fun {n} => ne_of_mem (n := n) hg
  unfold State.enterDrift State.dropSlew
  lift_lets -underBinder +implicits
  intro x0 x1 x2
  have h2 : Spares g j s x2 := Spares.ite (h.put (ne (by decide))) h
  clear_value x2
  intro x3
  have h3 : Spares g j s x3 := h2.set (ne (by decide))
  clear_value x3
  intro x4
  have h4 : Spares g j s x4 :=
    (((h3.put (ne (by decide))).set (ne (by decide))).put (ne (by decide))).put (ne (by decide))
  clear_value x4
  exact Spares.ite ((h4.set (ne (by decide))).set (ne (by decide))) h4

/-- A reset of the domains keeps a field of AON or TIME that is none of `resetFields`. -/
theorem get_coreReset {g : Fld} {j : Nat} (hs : SM.sorted s.fld = true) (hn : 3000 ≤ g.id % 4096)
    (hg : resetFields.all (fun n => g.id % 4096 != n % 4096) = true) : s.coreReset.get g j = s.get g j := by
  have ne := fun {n} => ne_of_mem (n := n) hg
  have h : Spares g j (s.keepFrom 3000) s.coreReset := by
    unfold State.coreReset
    dsimp only
    refine enterDrift_spares (Spares.put (Spares.forEach .refl (fun _ _ v hv => ?_)) (ne (by decide))) hg
    exact (hv.put (ne (by decide))).put (ne (by decide))
  exact (h (sorted_keepFrom hs)).2.trans (get_keepFrom_le hs hn)

/-- The numbers of the fields that a fall to AON_ONLY sets besides. -/
def aonFields : List Nat :=
  [GLB_STATE_state.id, BTX_entry.id, PWR_DOMAIN_core.id, PWR_DOMAIN_sram.id, PWR_DOMAIN_hbm.id, PWR_CLK_STATUS_pll_core.id,
   PWR_CLK_STATUS_pll_ppl.id, PWR_CLK_STATUS_pll_dma.id]

theorem get_toAonOnly {g : Fld} {j e : Nat} (hs : SM.sorted s.fld = true) (hn : 3000 ≤ g.id % 4096)
    (hg : (resetFields ++ aonFields).all (fun n => g.id % 4096 != n % 4096) = true) : (s.toAonOnly e).get g j = s.get g j := by
  rw [List.all_append, Bool.and_eq_true] at hg
  have ne := fun {n} => ne_of_mem (n := n) hg.2
  have hd : ∀ f ∈ [PWR_DOMAIN_core, PWR_DOMAIN_sram, PWR_DOMAIN_hbm, PWR_CLK_STATUS_pll_core, PWR_CLK_STATUS_pll_ppl,
      PWR_CLK_STATUS_pll_dma], g.id % 4096 ≠ f.id % 4096 := by
    intro f hf
    refine ne ?_
    simp only [List.mem_cons, List.not_mem_nil, or_false] at hf
    rcases hf with e | e | e | e | e | e <;> subst e <;> decide
  have h : Spares g j s.coreReset (s.toAonOnly e) :=
    (setDomains_spares (Spares.refl.set (ne (by decide))) hd).set (ne (by decide))
  exact (h (coreReset_sorted hs)).2.trans (get_coreReset hs hn hg.1)

theorem flag_toAonOnly {g : Fld} {j e : Nat} (hs : SM.sorted s.fld = true) (hn : 3000 ≤ g.id % 4096)
    (hg : (resetFields ++ aonFields).all (fun n => g.id % 4096 != n % 4096) = true) :
    (s.toAonOnly e).flag g j = s.flag g j :=
  congrArg (· == 1) (get_toAonOnly hs hn hg)

/-- A fall to AON_ONLY keeps the boot ledger and the fault log. -/
theorem toAonOnly_logs {e : Nat} : (s.toAonOnly e).ledger = s.ledger ∧ (s.toAonOnly e).fltLog = s.fltLog := by
  have h : FieldsOnly (s.keepFrom 3000) (s.toAonOnly e) := by
    unfold State.toAonOnly State.setDomains State.coreReset State.enterDrift State.dropSlew
    refine FieldsOnly.set (FieldsOnly.forEach (FieldsOnly.ite ?_ (FieldsOnly.forEach ?_ fun _ _ k => k.put)) fun _ _ k => k.put)
    all_goals
      refine FieldsOnly.set ?_
      refine FieldsOnly.ite (FieldsOnly.set (FieldsOnly.set ?_)) ?_
      all_goals
        refine (((FieldsOnly.put (FieldsOnly.set ?_)).set).put).put
        refine FieldsOnly.ite (FieldsOnly.put ?_) ?_
        all_goals exact FieldsOnly.put (FieldsOnly.forEach .refl fun _ _ k => k.put.put)
  rw [h]
  exact ⟨rfl, rfl⟩

/-! ## The supplies, SYS_RST_N and the device reset -/

theorem exec_aonStart_dev {low rails : Bool} {ms : Nat} (hs : SM.sorted s.fld = true) (hd : s.dev = 0) :
    ∃ t, exec (.aonStart low rails ms) s = .next t ∧ t.dev = if rails = true ∧ low = false then dsBooting else dsAonOnly := by
  refine ⟨_, show execAonStart low rails ms s = _ by unfold execAonStart; rw [if_neg (by simp [hd])], ?_⟩
  generalize hu : ({ s.keepFrom 3900 with fltLog := [] } : State) = u
  have hus : SM.sorted u.fld = true := by subst hu; exact sorted_keepFrom hs
  have huv : u.flag FLT_RAIL_uv_hold 0 = false := by
    subst hu
    exact congrArg (· == 1) (get_keepFrom_lt (s := s) (g := FLT_RAIL_uv_hold) (j := 0) hs (by decide))
  have h1 : SM.sorted (u.put RST_low 0 low).fld = true := set_sorted hus
  have h2 : SM.sorted ((u.put RST_low 0 low).put RAIL_out 0 (!rails)).fld = true := set_sorted h1
  have k : ∀ {g : Fld}, (GLB_STATE_state :: [PWR_DOMAIN_core, PWR_DOMAIN_sram, PWR_DOMAIN_hbm, PWR_CLK_STATUS_pll_core,
      PWR_CLK_STATUS_pll_ppl, PWR_CLK_STATUS_pll_dma]).all (fun f => g.id % 4096 != f.id % 4096) = true →
      Spares g 0 ((u.put RST_low 0 low).put RAIL_out 0 (!rails))
        ((((u.put RST_low 0 low).put RAIL_out 0 (!rails)).set GLB_STATE_state 0 dsAonOnly).setDomains false) := by
    intro g hg
    have ne := fun (f : Fld) hf => bne_iff_ne.1 (List.all_eq_true.1 hg f hf)
    exact setDomains_spares (Spares.refl.set (ne _ (by simp))) (fun f hf => ne f (List.mem_cons_of_mem _ hf))
  have hdev : ((((u.put RST_low 0 low).put RAIL_out 0 (!rails)).set GLB_STATE_state 0 dsAonOnly).setDomains false).dev = dsAonOnly :=
    (Spares.dev (setDomains_spares .refl (by decide)) (set_sorted h2)).trans (dev_of_set h2 (by decide))
  have hsd : SM.sorted ((((u.put RST_low 0 low).put RAIL_out 0 (!rails)).set GLB_STATE_state 0 dsAonOnly).setDomains false).fld = true :=
    (k (g := RST_low) (by decide) h2).1
  rw [tryBoot_dev hsd, hdev, flag_of_spares (k (by decide)) h2, flag_of_spares (k (by decide)) h2,
    flag_of_spares (k (by decide)) h2, flag_put_same h1 (by decide), flag_put_ne h1 (by decide), flag_put_same hus (by decide),
    flag_put_ne h1 (by decide), flag_put_ne hus (by decide), huv]
  cases rails <;> cases low <;> rfl

theorem exec_vddAonLoss_dev (hs : SM.sorted s.fld = true) (hd : s.dev ≠ 0) :
    ∃ t, exec .vddAonLoss s = .next t ∧ t.dev = 0 := by
  refine ⟨_, show execVddAonLoss s = _ by unfold execVddAonLoss; rw [if_neg hd], ?_⟩
  generalize hu : ({ s.keepFrom 3900 with fltLog := [] } : State) = u
  have hus : SM.sorted u.fld = true := by subst hu; exact sorted_keepFrom hs
  have h : SM.sorted (u.setDomains false).fld = true :=
    (setDomains_spares (g := GLB_STATE_state) (j := 0) .refl (by decide) hus).1
  exact dev_of_set h (Nat.zero_le _)

theorem exec_railLeavesRange_dev {r : Nat} (hs : SM.sorted s.fld = true) (hd : s.dev ≠ 0) :
    ∃ t, exec (.railLeavesRange r) s = .next t ∧ t.dev = dsAonOnly ∧ t.flag RAIL_out 0 = true := by
  refine ⟨_, show execRailLeavesRange r s = _ by unfold execRailLeavesRange; rw [if_neg hd], ?_⟩
  obtain ⟨h1, h2⟩ := toAonOnly_dev (entry := 1) (set_sorted (f := FLT_RAIL_below_uv) (i := 0)
    (v := (s.set FLT_RAIL_below_warn 0 (s.get FLT_RAIL_below_warn 0 ||| 2 ^ r)).get FLT_RAIL_below_uv 0 ||| 2 ^ r)
    (set_sorted (f := FLT_RAIL_below_warn) (i := 0) (v := s.get FLT_RAIL_below_warn 0 ||| 2 ^ r) hs))
  exact ⟨(dev_set h2 (by decide)).trans h1, flag_put_same h2 (by decide)⟩

theorem exec_sysRstNAssert_dev (hs : SM.sorted s.fld = true) (hd : s.dev ≠ 0)
    (hh : ¬(s.dev = dsWhiteout ∧ s.flag FLT_RAIL_uv_hold 0 = true)) :
    ∃ t, exec .sysRstNAssert s = .next t ∧ t.dev = dsAonOnly ∧ t.now = s.now ∧ t.ledger = s.ledger ∧ t.fltLog = s.fltLog := by
  have h1 : SM.sorted (s.put RST_low 0 true).fld = true := set_sorted hs
  have hdev : (s.put RST_low 0 true).dev = s.dev := dev_set hs (by decide)
  have hc : ((s.put RST_low 0 true).flag FLT_RAIL_uv_hold 0 && (s.put RST_low 0 true).dev == dsWhiteout) = false := by
    rw [flag_put_ne hs (by decide), hdev, Bool.and_eq_false_iff, beq_eq_false_iff_ne]
    by_cases e : s.dev = dsWhiteout
    · exact .inl (by simpa [e] using hh)
    · exact .inr e
  refine ⟨(s.put RST_low 0 true).toAonOnly 2, ?_, (toAonOnly_dev h1).1, ?_, ?_, ?_⟩
  · show execSysRstNAssert s = _
    unfold execSysRstNAssert
    rw [if_neg hd]
    simp only [hc, Bool.false_eq_true, if_false]
  · exact (get_toAonOnly h1 (by decide) (by decide)).trans (now_set hs (by decide))
  · exact toAonOnly_logs.1.trans state_put_ledger
  · exact toAonOnly_logs.2.trans state_put_fltLog

/-- A start begins before S1 has completed. -/
theorem startBoot_step {e : Nat} (hs : SM.sorted s.fld = true) : (s.startBoot e).get GLB_STATE_boot_step 0 = 0 := by
  have h : Spares GLB_STATE_boot_step 0 ((s.set GLB_STATE_state 0 dsBooting).set GLB_STATE_boot_step 0 0) (s.startBoot e) := by
    unfold State.startBoot
    lift_lets -underBinder +implicits
    intro x0 x1 x2 x3 x4
    have h1 : Spares GLB_STATE_boot_step 0 ((s.set GLB_STATE_state 0 dsBooting).set GLB_STATE_boot_step 0 0) x1 :=
      setDomains_spares .refl (by decide)
    have h2 : Spares GLB_STATE_boot_step 0 _ x2 := Spares.ite (h1.set (by decide)) h1
    have h3 : Spares GLB_STATE_boot_step 0 _ x3 := ((h2.set (by decide)).put (by decide)).set (by decide)
    have h4 : Spares GLB_STATE_boot_step 0 _ x4 := (h3.set (by decide)).set (by decide)
    exact h4.other rfl
  exact (h (set_sorted (set_sorted hs))).2.trans (get_set_same (set_sorted hs))

/-- What the boot waits for in AON_ONLY is there (Table OV-4). -/
def bootReady (s : State) : Prop :=
  s.dev = dsAonOnly ∧ s.flag RAIL_out 0 = false ∧ s.flag RST_low 0 = false ∧ s.flag FLT_RAIL_uv_hold 0 = false

theorem tryBoot_ready (hs : SM.sorted s.fld = true) (h : bootReady s) :
    s.tryBoot.dev = dsBooting ∧ s.tryBoot.get GLB_STATE_boot_step 0 = 0 := by
  refine ⟨(tryBoot_dev hs).trans (if_pos h), ?_⟩
  obtain ⟨h1, h2, h3, h4⟩ := h
  unfold State.tryBoot
  rw [if_pos (by simp [h1, h2, h3, h4])]
  exact startBoot_step (set_sorted hs)

theorem tryBoot_not_ready (h : ¬ bootReady s) : s.tryBoot = s := by
  unfold State.tryBoot
  exact if_neg (fun e => h (by simp only [Bool.and_eq_true, beq_iff_eq, Bool.not_eq_true'] at e; exact ⟨e.1.1.1, e.1.1.2, e.1.2, e.2⟩))

theorem exec_railEntersRange {ms : Nat} (hd : s.dev ≠ 0) : exec (.railEntersRange ms) s =
    .next ((((s.set FLT_RAIL_below_uv 0 0).set FLT_RAIL_below_warn 0 0).put RAIL_out 0 false).tryBoot) := by
  show execRailEntersRange ms s = _
  unfold execRailEntersRange
  rw [if_neg hd]

theorem exec_sysRstNRelease {role : Bool} {ms : Nat} (hd : s.dev ≠ 0) : exec (.sysRstNRelease role ms) s =
    .next (((s.put RST_low 0 false).put TWN_STATUS_strap 0 role).tryBoot) := by
  show execSysRstNRelease role ms s = _
  unfold execSysRstNRelease
  rw [if_neg hd]

/-- The state in which the end of `uv_hold` is judged. -/
def unheld (s : State) : State := ((s.put FLT_RAIL_uv_hold 0 false).set FLT_RAIL_below_uv 0 0).set FLT_RAIL_below_warn 0 0

theorem unheld_sorted (hs : SM.sorted s.fld = true) : SM.sorted (unheld s).fld = true := set_sorted (set_sorted (set_sorted hs))

theorem unheld_flag {g : Fld} (hs : SM.sorted s.fld = true)
    (hg : [FLT_RAIL_uv_hold, FLT_RAIL_below_uv, FLT_RAIL_below_warn].all (fun f => g.id % 4096 != f.id % 4096) = true) :
    (unheld s).flag g 0 = s.flag g 0 := by
  have ne := fun (f : Fld) hf => bne_iff_ne.1 (List.all_eq_true.1 hg f hf)
  exact flag_of_spares (((Spares.refl.put (ne _ (by simp))).set (ne _ (by simp))).set (ne _ (by simp))) hs

theorem unheld_dev (hs : SM.sorted s.fld = true) : (unheld s).dev = s.dev :=
  (((Spares.refl.put (by decide)).set (by decide)).set (by decide) : Spares GLB_STATE_state 0 s (unheld s)).dev hs

theorem unheld_uv (hs : SM.sorted s.fld = true) : (unheld s).flag FLT_RAIL_uv_hold 0 = false :=
  (flag_of_spares (((Spares.refl (s := s.put FLT_RAIL_uv_hold 0 false)).set (by decide)).set (by decide)) (set_sorted hs)).trans
    (flag_put_same hs (by decide))

theorem exec_uvHoldClear {ms : Nat} (hd : s.dev ≠ 0) : exec (.uvHoldClear ms) s =
    if (unheld s).flag RST_low 0 && (unheld s).dev == dsWhiteout then .next ((unheld s).toAonOnly 2) else .next (unheld s).tryBoot := by
  show execUvHoldClear ms s = _
  unfold execUvHoldClear
  rw [if_neg hd]
  rfl

theorem exec_devReset_bmc {ms : Nat} (hd : s.dev = dsWhiteout) (hu : s.flag FLT_RAIL_uv_hold 0 = false) :
    exec (.devReset .bmc ms) s = .next ((s.toAonOnly 3).tryBoot) := by
  show execDevReset .bmc ms s = _
  unfold execDevReset
  rw [if_pos ⟨rfl, hd, hu⟩]

/-- After a fall to AON_ONLY with `uv_hold` clear the device starts but for a rail that is out or `SYS_RST_N`. -/
theorem toAonOnly_tryBoot_dev {e : Nat} (hs : SM.sorted s.fld = true) (hu : s.flag FLT_RAIL_uv_hold 0 = false) :
    ((s.toAonOnly e).tryBoot).dev = if s.flag RAIL_out 0 = true ∨ s.flag RST_low 0 = true then dsAonOnly else dsBooting := by
  obtain ⟨h1, h2⟩ := toAonOnly_dev (entry := e) hs
  rw [tryBoot_dev h2, h1, flag_toAonOnly hs (by decide) (by decide), flag_toAonOnly hs (by decide) (by decide),
    flag_toAonOnly hs (by decide) (by decide), hu]
  cases s.flag RAIL_out 0 <;> cases s.flag RST_low 0 <;> rfl

/-- Settles O12: each command by the state that its reset or its start leaves. -/
theorem resetsMoveTheDevice : Obligations.ResetsMoveTheDevice := by
  unfold Obligations.ResetsMoveTheDevice
  intro s hwf
  have hs := wf_sorted hwf
  refine ⟨fun low rails ms hd => exec_aonStart_dev hs hd, exec_vddAonLoss_dev hs, fun r hd => exec_railLeavesRange_dev hs hd,
    fun ms hd hr hu => ?_, exec_sysRstNAssert_dev hs, fun role ms hd hr hu => ?_, fun ms hd hr => ?_, fun ms hd ho hr => ?_,
    fun ms hd hu => ⟨_, exec_devReset_bmc hd hu, toAonOnly_tryBoot_dev hs hu⟩⟩
  · have h1 : SM.sorted ((s.set FLT_RAIL_below_uv 0 0).set FLT_RAIL_below_warn 0 0).fld = true := set_sorted (set_sorted hs)
    refine ⟨_, exec_railEntersRange (by rw [hd]; decide), tryBoot_ready (set_sorted h1) ⟨?_, flag_put_same h1 (by decide), ?_, ?_⟩⟩
    · exact ((((Spares.refl.set (by decide)).set (by decide)).put (by decide) : Spares GLB_STATE_state 0 s _).dev hs).trans hd
    · exact (flag_of_spares (((Spares.refl.set (by decide)).set (by decide)).put (by decide)) hs).trans hr
    · exact (flag_of_spares (((Spares.refl.set (by decide)).set (by decide)).put (by decide)) hs).trans hu
  · have h1 : SM.sorted (s.put RST_low 0 false).fld = true := set_sorted hs
    refine ⟨_, exec_sysRstNRelease (by rw [hd]; decide), tryBoot_ready (set_sorted h1) ⟨?_, ?_, ?_, ?_⟩⟩
    · exact (((Spares.refl.put (by decide)).put (by decide) : Spares GLB_STATE_state 0 s _).dev hs).trans hd
    · exact (flag_of_spares ((Spares.refl.put (by decide)).put (by decide)) hs).trans hr
    · exact (flag_put_ne h1 (by decide)).trans (flag_put_same hs (by decide))
    · exact (flag_of_spares ((Spares.refl.put (by decide)).put (by decide)) hs).trans hu
  · refine ⟨_, (exec_uvHoldClear (by rw [hd]; decide)).trans (if_pos ?_), (toAonOnly_dev (unheld_sorted hs)).1⟩
    rw [unheld_flag hs (by decide), unheld_dev hs, hr, hd]
    rfl
  · refine ⟨_, (exec_uvHoldClear (by rw [hd]; decide)).trans (if_neg ?_), (tryBoot_ready (unheld_sorted hs) ⟨?_, ?_, ?_, unheld_uv hs⟩).1⟩
    · rw [unheld_flag hs (by decide), hr]
      simp
    · exact (unheld_dev hs).trans hd
    · exact (unheld_flag hs (by decide)).trans ho
    · exact (unheld_flag hs (by decide)).trans hr

end Sys2Proof.Proofs
end

section
/-! PROOFS. What every command keeps, command by command from the laws of its meaning, and that every command answers. -/

namespace Sys2Proof.Proofs

open Sys2Proof Sys2Proof.Machine Sys2Proof.Machine.Reg Sys2Proof.Laws

/-- The commands that move the device from one state to another other than by a fall into WHITEOUT. -/
def movesDevice : Instr → Bool
  | .aonStart .. => true
  | .vddAonLoss => true
  | .railLeavesRange .. => true
  | .railEntersRange .. => true
  | .sysRstNAssert => true
  | .sysRstNRelease .. => true
  | .uvHoldClear .. => true
  | .devReset .. => true
  | .ready .. => true
  | .dpEnSet .. => true
  | .profileChangeDone => true
  | .drainComplete => true
  | c => writesRegister c

/-- Every command keeps what an operation keeps, WHITEOUT, the state of the device and the Meridian count but where it is
one of the commands that move them. -/
theorem exec_keeps {s0 : Base} {s : State} {c : Instr} (h : Keeps s0 s) (hw : resets c = true → s0.white = false)
    (hf : movesDevice c = true → s0.fixed = false) (ht : movesTime c = true → s0.clock = false) : KeepsR s0 (exec c s) := by
  cases c with
  | registerWrite who =>
    have : Shifts s0 := ⟨hf rfl⟩
    have : Rights s0 who := ⟨fun e => ⟨hw (by rw [e]; rfl), hf rfl⟩⟩
    exact execRegisterWrite_ok h
  | rcRead => exact execRcRead_ok h
  | aonStart _ _ ms =>
    have : Leaves s0 := ⟨hw rfl⟩
    have : Shifts s0 := ⟨hf rfl⟩
    have : Moves s0 := ⟨ht rfl⟩
    exact execAonStart_ok (a2 := ms) h
  | vddAonLoss =>
    have : Leaves s0 := ⟨hw rfl⟩
    have : Shifts s0 := ⟨hf rfl⟩
    have : Moves s0 := ⟨ht rfl⟩
    exact execVddAonLoss_ok h
  | railLeavesRange =>
    have : Leaves s0 := ⟨hw rfl⟩
    have : Shifts s0 := ⟨hf rfl⟩
    exact execRailLeavesRange_ok h
  | sysRstNAssert =>
    have : Leaves s0 := ⟨hw rfl⟩
    have : Shifts s0 := ⟨hf rfl⟩
    exact execSysRstNAssert_ok h
  | sysRstNRelease _ ms =>
    have : Shifts s0 := ⟨hf rfl⟩
    exact execSysRstNRelease_ok (a1 := ms) h
  | glbProfileWrite => exact execGlbProfileWrite_ok h
  | profileChangeDone =>
    have : Shifts s0 := ⟨hf rfl⟩
    exact execProfileChangeDone_ok h
  | dpEnSet =>
    have : Shifts s0 := ⟨hf rfl⟩
    exact execDpEnSet_ok h
  | dpEnClear => exact execDpEnClear_ok h
  | drainComplete =>
    have : Shifts s0 := ⟨hf rfl⟩
    exact execDrainComplete_ok h
  | pollDue => exact execPollDue_ok h
  | pollDataReturn => exact execPollDataReturn_ok h
  | entryAccept => exact execEntryAccept_ok h
  | fragmentTableReadReturn => exact execFragmentTableReadReturn_ok h
  | wbTimerExpiry => exact execWbTimerExpiry_ok h
  | dormancyStart => exact execDormancyStart_ok h
  | armWrite => exact execArmWrite_ok h
  | queueEnable => exact execQueueEnable_ok h
  | queueDisable => exact execQueueDisable_ok h
  | queueDrainComplete => exact execQueueDrainComplete_ok h
  | startIndexWrite => exact execStartIndexWrite_ok h
  | cringEnable => exact execCringEnable_ok h
  | cringDisable => exact execCringDisable_ok h
  | consumerWordReadReturn => exact execConsumerWordReadReturn_ok h
  | cqStall => exact execCqStall_ok h
  | evringWrite => exact execEvringWrite_ok h
  | evBacklogConsRead => exact execEvBacklogConsRead_ok h
  | firnFlushDone => exact execFirnFlushDone_ok h
  | pwrWarn => exact execPwrWarn_ok h
  | completionSeal => exact execCompletionSeal_ok h
  | packetDispatch => exact execPacketDispatch_ok h
  | add => exact execAdd_ok h
  | addi => exact execAddi_ok h
  | sub => exact execSub_ok h
  | subi => exact execSubi_ok h
  | and => exact execAnd_ok h
  | andi => exact execAndi_ok h
  | or => exact execOr_ok h
  | ori => exact execOri_ok h
  | xor => exact execXor_ok h
  | xori => exact execXori_ok h
  | shl => exact execShl_ok h
  | shli => exact execShli_ok h
  | shr => exact execShr_ok h
  | shri => exact execShri_ok h
  | sar => exact execSar_ok h
  | sari => exact execSari_ok h
  | rot => exact execRot_ok h
  | roti => exact execRoti_ok h
  | mul => exact execMul_ok h
  | muli => exact execMuli_ok h
  | cmp => exact execCmp_ok h
  | cmpi => exact execCmpi_ok h
  | sel => exact execSel_ok h
  | seli => exact execSeli_ok h
  | ext => exact execExt_ok h
  | ins => exact execIns_ok h
  | popc => exact execPopc_ok h
  | clz => exact execClz_ok h
  | bswap => exact execBswap_ok h
  | csum => exact execCsum_ok h
  | ld => exact execLd_ok h
  | st =>
    have : Shifts s0 := ⟨hf rfl⟩
    exact execSt_ok h
  | pld => exact execPld_ok h
  | pst => exact execPst_ok h
  | sld => exact execSld_ok h
  | sst => exact execSst_ok h
  | sadd => exact execSadd_ok h
  | scas => exact execScas_ok h
  | br => exact execBr_ok h
  | brc => exact execBrc_ok h
  | call => exact execCall_ok h
  | ret => exact execRet_ok h
  | jmpt => exact execJmpt_ok h
  | waite => exact execWaite_ok h
  | evTimeout => exact execEvTimeout_ok h
  | sige => exact execSige_ok h
  | waitt => exact execWaitt_ok h
  | rdt => exact execRdt_ok h
  | cmdw => exact execCmdw_ok h
  | cmdr => exact execCmdr_ok h
  | tkt => exact execTkt_ok h
  | relForward => exact execRelForward_ok h
  | relDrop => exact execRelDrop_ok h
  | relPass => exact execRelPass_ok h
  | thst => exact execThst_ok h
  | thrs => exact execThrs_ok h
  | fltr => exact execFltr_ok h
  | lockstepResyncDone => exact execLockstepResyncDone_ok h
  | flowLookup => exact execFlowLookup_ok h
  | flowInsert => exact execFlowInsert_ok h
  | flowDelete => exact execFlowDelete_ok h
  | lpmLookup => exact execLpmLookup_ok h
  | l2Lookup => exact execL2Lookup_ok h
  | cipherEncrypt => exact execCipherEncrypt_ok h
  | cipherDecrypt => exact execCipherDecrypt_ok h
  | cipherMacGen => exact execCipherMacGen_ok h
  | cipherMacVerify => exact execCipherMacVerify_ok h
  | dmaStart => exact execDmaStart_ok h
  | dmaCopy => exact execDmaCopy_ok h
  | counterAdd => exact execCounterAdd_ok h
  | counterRead => exact execCounterRead_ok h
  | counterReadClear => exact execCounterReadClear_ok h
  | sendFrame => exact execSendFrame_ok h
  | sendMbx => exact execSendMbx_ok h
  | triggerArm => exact execTriggerArm_ok h
  | triggerDisarm => exact execTriggerDisarm_ok h
  | cmdResultArrival => exact execCmdResultArrival_ok h
  | ticketHoldExpiry => exact execTicketHoldExpiry_ok h
  | slotBudgetExpiry => exact execSlotBudgetExpiry_ok h
  | clusterDeadlock => exact execClusterDeadlock_ok h
  | supRestart => exact execSupRestart_ok h
  | sessionOpen => exact execSessionOpen_ok h
  | sessionClose => exact execSessionClose_ok h
  | halt => exact execHalt_ok h
  | resume => exact execResume_ok h
  | step => exact execStep_ok h
  | debugRelease => exact execDebugRelease_ok h
  | heartbeat => exact execHeartbeat_ok h
  | mgmtStall => exact execMgmtStall_ok h
  | mgmtRestart => exact execMgmtRestart_ok h
  | mgmtRestartDone => exact execMgmtRestartDone_ok h
  | frameFirstCell => exact execFrameFirstCell_ok h
  | frameEnd => exact execFrameEnd_ok h
  | hostFrameFetch => exact execHostFrameFetch_ok h
  | hostFrameReady => exact execHostFrameReady_ok h
  | frameParse => exact execFrameParse_ok h
  | clsWrite => exact execClsWrite_ok h
  | clsInval => exact execClsInval_ok h
  | selWrite => exact execSelWrite_ok h
  | prfWrite => exact execPrfWrite_ok h
  | kselWrite => exact execKselWrite_ok h
  | pclassWrite => exact execPclassWrite_ok h
  | updateCommit => exact execUpdateCommit_ok h
  | updateDiscard => exact execUpdateDiscard_ok h
  | updateWindowEnd => exact execUpdateWindowEnd_ok h
  | clsRead => exact execClsRead_ok h
  | tblFlowInsert => exact execTblFlowInsert_ok h
  | flowReplace => exact execFlowReplace_ok h
  | tblFlowDelete => exact execTblFlowDelete_ok h
  | flowRead => exact execFlowRead_ok h
  | tblFlowLookup => exact execTblFlowLookup_ok h
  | lpmInsert => exact execLpmInsert_ok h
  | lpmDelete => exact execLpmDelete_ok h
  | lpmReplace => exact execLpmReplace_ok h
  | lpmRewrite => exact execLpmRewrite_ok h
  | lpmRead => exact execLpmRead_ok h
  | l2Static => exact execL2Static_ok h
  | l2Delete => exact execL2Delete_ok h
  | l2Flush => exact execL2Flush_ok h
  | l2Read => exact execL2Read_ok h
  | flowAgeScan => exact execFlowAgeScan_ok h
  | l2Learn => exact execL2Learn_ok h
  | l2HoldEnd => exact execL2HoldEnd_ok h
  | l2AgeScan => exact execL2AgeScan_ok h
  | scrubVisit => exact execScrubVisit_ok h
  | tblEvqPop => exact execTblEvqPop_ok h
  | nmodeWrite => exact execNmodeWrite_ok h
  | linkUp => exact execLinkUp_ok h
  | linkDown => exact execLinkDown_ok h
  | chpause => exact execChpause_ok h
  | chpauseExpiry => exact execChpauseExpiry_ok h
  | chpauseRefresh => exact execChpauseRefresh_ok h
  | pause => exact execPause_ok h
  | pfc => exact execPfc_ok h
  | pauseExpiry => exact execPauseExpiry_ok h
  | pauseRefresh => exact execPauseRefresh_ok h
  | mgmtRsp => exact execMgmtRsp_ok h
  | mgmtReqTimeout => exact execMgmtReqTimeout_ok h
  | mgmtReq => exact execMgmtReq_ok h
  | credit => exact execCredit_ok h
  | powerOn => exact execPowerOn_ok h
  | powerGood => exact execPowerGood_ok h
  | pgTimeout => exact execPgTimeout_ok h
  | resetDelayExpiry => exact execResetDelayExpiry_ok h
  | powerOff => exact execPowerOff_ok h
  | powerOffDelayExpiry => exact execPowerOffDelayExpiry_ok h
  | reset => exact execReset_ok h
  | hold => exact execHold_ok h
  | release => exact execRelease_ok h
  | slotFault => exact execSlotFault_ok h
  | slotPrsntChange => exact execSlotPrsntChange_ok h
  | i2cGo => exact execI2cGo_ok h
  | i2cDone => exact execI2cDone_ok h
  | portCounterRead => exact execPortCounterRead_ok h
  | bufCfgWrite => exact execBufCfgWrite_ok h
  | policerWrite => exact execPolicerWrite_ok h
  | nodeWrite => exact execNodeWrite_ok h
  | nodeRead => exact execNodeRead_ok h
  | frameSelect => exact execFrameSelect_ok h
  | frameTxEnd => exact execFrameTxEnd_ok h
  | gateCommit => exact execGateCommit_ok h
  | gateCancel => exact execGateCancel_ok h
  | gateTakeover => exact execGateTakeover_ok h
  | gateEntryWrite => exact execGateEntryWrite_ok h
  | samplePeriod => exact execSamplePeriod_ok h
  | nowRead => exact execNowRead_ok h
  | mtIncWrite => exact execMtIncWrite_ok h
  | adjStep => exact execAdjStep_ok h
  | adjSlew => exact execAdjSlew_ok h
  | slewDone =>
    have : Moves s0 := ⟨ht rfl⟩
    exact execSlewDone_ok h
  | refLost => exact execRefLost_ok h
  | refLock => exact execRefLock_ok h
  | driftEnter => exact execDriftEnter_ok h
  | driftExit => exact execDriftExit_ok h
  | trigCfgWrite => exact execTrigCfgWrite_ok h
  | arm => exact execArm_ok h
  | disarm => exact execDisarm_ok h
  | trigStageLoad => exact execTrigStageLoad_ok h
  | trgLead => exact execTrgLead_ok h
  | trigFire => exact execTrigFire_ok h
  | pulseEnd => exact execPulseEnd_ok h
  | captureEdge => exact execCaptureEdge_ok h
  | captureSw => exact execCaptureSw_ok h
  | ppsWrite => exact execPpsWrite_ok h
  | ppsRise => exact execPpsRise_ok h
  | ppsFall => exact execPpsFall_ok h
  | laneCfgWrite => exact execLaneCfgWrite_ok h
  | encrypt => exact execEncrypt_ok h
  | decrypt => exact execDecrypt_ok h
  | macGen => exact execMacGen_ok h
  | macVerify => exact execMacVerify_ok h
  | jobStart => exact execJobStart_ok h
  | jobComplete => exact execJobComplete_ok h
  | inlineJobStart => exact execInlineJobStart_ok h
  | loadWrapped => exact execLoadWrapped_ok h
  | loadClear => exact execLoadClear_ok h
  | clearSlot => exact execClearSlot_ok h
  | zeroisePage => exact execZeroisePage_ok h
  | pageOwnerWrite => exact execPageOwnerWrite_ok h
  | saWrite => exact execSaWrite_ok h
  | saInvalidate => exact execSaInvalidate_ok h
  | saRead => exact execSaRead_ok h
  | drbgReseed => exact execDrbgReseed_ok h
  | maskReseed => exact execMaskReseed_ok h
  | egressStage => exact execEgressStage_ok h
  | receiveStage => exact execReceiveStage_ok h
  | coalTimeout => exact execCoalTimeout_ok h
  | tmplWrite => exact execTmplWrite_ok h
  | tmplRead => exact execTmplRead_ok h
  | nvcWrite => exact execNvcWrite_ok h
  | nvcRead => exact execNvcRead_ok h
  | place => exact execPlace_ok h
  | nvmeCancel => exact execNvmeCancel_ok h
  | oflEvqPop => exact execOflEvqPop_ok h
  | send => exact execSend_ok h
  | buffer => exact execBuffer_ok h
  | copy => exact execCopy_ok h
  | start => exact execStart_ok h
  | channelStart => exact execChannelStart_ok h
  | dmaStop => exact execDmaStop_ok h
  | eos => exact execEos_ok h
  | fifoPush => exact execFifoPush_ok h
  | shadowArm => exact execShadowArm_ok h
  | dmaStimeReached => exact execDmaStimeReached_ok h
  | dmaRunStart => exact execDmaRunStart_ok h
  | dmaReadbackReturn => exact execDmaReadbackReturn_ok h
  | streamBurstEnd => exact execStreamBurstEnd_ok h
  | pcieLinkUp => exact execPcieLinkUp_ok h
  | perstAssert => exact execPerstAssert_ok h
  | perstRelease => exact execPerstRelease_ok h
  | hotReset => exact execHotReset_ok h
  | dlDown => exact execDlDown_ok h
  | configWrite => exact execConfigWrite_ok h
  | bmeClear => exact execBmeClear_ok h
  | bmeSet => exact execBmeSet_ok h
  | d3hotEntry => exact execD3hotEntry_ok h
  | inboundBadAccess => exact execInboundBadAccess_ok h
  | completionTimeout => exact execCompletionTimeout_ok h
  | completionArrival => exact execCompletionArrival_ok h
  | tagQuarantineEnd => exact execTagQuarantineEnd_ok h
  | flr => exact execFlr_ok h
  | flrQuiesceDone => exact execFlrQuiesceDone_ok h
  | vfEnable => exact execVfEnable_ok h
  | vfDisable => exact execVfDisable_ok h
  | vmodWrite => exact execVmodWrite_ok h
  | vmodTimer => exact execVmodTimer_ok h
  | freeze => exact execFreeze_ok h
  | freezeWorkDone => exact execFreezeWorkDone_ok h
  | freezeImageDone => exact execFreezeImageDone_ok h
  | thaw => exact execThaw_ok h
  | thawDone => exact execThawDone_ok h
  | cancel => exact execCancel_ok h
  | harvest => exact execHarvest_ok h
  | harvestDone => exact execHarvestDone_ok h
  | mbxCommit => exact execMbxCommit_ok h
  | mbxChRxPop => exact execMbxChRxPop_ok h
  | mbxLock => exact execMbxLock_ok h
  | mbxUnlock => exact execMbxUnlock_ok h
  | mbxCfgWrite => exact execMbxCfgWrite_ok h
  | post => exact execPost_ok h
  | pop => exact execPop_ok h
  | lock => exact execLock_ok h
  | unlock => exact execUnlock_ok h
  | upCommit => exact execUpCommit_ok h
  | dnCommit => exact execDnCommit_ok h
  | upPop => exact execUpPop_ok h
  | dnPop => exact execDnPop_ok h
  | regRead => exact execRegRead_ok h
  | regWrite =>
    have : Leaves s0 := ⟨hw rfl⟩
    have : Shifts s0 := ⟨hf rfl⟩
    exact execRegWrite_ok h
  | mbxPost => exact execMbxPost_ok h
  | setEndpointId => exact execSetEndpointId_ok h
  | getEndpointId => exact execGetEndpointId_ok h
  | getMctpVersionSupport => exact execGetMctpVersionSupport_ok h
  | getMessageTypeSupport => exact execGetMessageTypeSupport_ok h
  | getVendorDefinedMessageSupport => exact execGetVendorDefinedMessageSupport_ok h
  | winCfgWrite => exact execWinCfgWrite_ok h
  | winBlockTake => exact execWinBlockTake_ok h
  | winRetry => exact execWinRetry_ok h
  | pair => exact execPair_ok h
  | hello => exact execHello_ok h
  | pairTimeout => exact execPairTimeout_ok h
  | unpair => exact execUnpair_ok h
  | unpairGoodbye => exact execUnpairGoodbye_ok h
  | resync => exact execResync_ok h
  | resyncStart => exact execResyncStart_ok h
  | heartbeatSend => exact execHeartbeatSend_ok h
  | twinHeartbeat => exact execTwinHeartbeat_ok h
  | heartbeatMiss => exact execHeartbeatMiss_ok h
  | aliveWireFault => exact execAliveWireFault_ok h
  | mirror => exact execMirror_ok h
  | ack => exact execAck_ok h
  | sync => exact execSync_ok h
  | syncDone => exact execSyncDone_ok h
  | goodbye => exact execGoodbye_ok h
  | twinMbx _ _ _ _ _ code => exact execTwinMbx_ok (a5 := code) h
  | tsync => exact execTsync_ok h
  | twnKeyLoad => exact execTwnKeyLoad_ok h
  | twnKeyClear => exact execTwnKeyClear_ok h
  | faultDetection => exact execFaultDetection_ok h
  | activeClear => exact execActiveClear_ok h
  | faultInject => exact execFaultInject_ok h
  | devReset who ms =>
    have : Rights s0 who := ⟨fun _ => ⟨hw rfl, hf rfl⟩⟩
    exact execDevReset_ok (am := ms) h
  | logPop => exact execLogPop_ok h
  | railWarning => exact execRailWarning_ok h
  | railUndervoltage => exact execRailUndervoltage_ok h
  | uvHoldClear ms =>
    have : Leaves s0 := ⟨hw rfl⟩
    have : Shifts s0 := ⟨hf rfl⟩
    exact execUvHoldClear_ok (a0 := ms) h
  | snapGo => exact execSnapGo_ok h
  | periodicStrobe => exact execPeriodicStrobe_ok h
  | dumpEnable => exact execDumpEnable_ok h
  | slotClear => exact execSlotClear_ok h
  | bootStepComplete ms => exact execBootStepComplete_ok (a0 := ms) h
  | bootStepFail ms => exact execBootStepFail_ok (am := ms) h
  | ready _ ms =>
    have : Shifts s0 := ⟨hf rfl⟩
    exact execReady_ok (am := ms) h
  | clearAlt => exact execClearAlt_ok h
  | fuseArm => exact execFuseArm_ok h
  | debugClose => exact execDebugClose_ok h
  | revoke => exact execRevoke_ok h
  | svn => exact execSvn_ok h
  | ledgerSelect => exact execLedgerSelect_ok h
  | sysRefclkLost => exact execSysRefclkLost_ok h
  | sysRefclkReturn => exact execSysRefclkReturn_ok h
  | sdsCalibrationDone => exact execSdsCalibrationDone_ok h
  | gateCfgWrite => exact execGateCfgWrite_ok h
  | clusterGate => exact execClusterGate_ok h
  | clusterWake => exact execClusterWake_ok h
  | laneGate => exact execLaneGate_ok h
  | laneWake => exact execLaneWake_ok h
  | railEntersRange ms =>
    have : Shifts s0 := ⟨hf rfl⟩
    exact execRailEntersRange_ok (a0 := ms) h
  | exceptionFrameDispatch => exact execExceptionFrameDispatch_ok h
  | tblCmdDone => exact execTblCmdDone_ok h
  | aerErrorDetected => exact execAerErrorDetected_ok h

/-! ## Every command answers -/

/-- The command gives a next state. -/
def Answers (r : Res) : Prop := ∃ t, r = .next t

theorem Answers.next {s : State} : Answers (.next s) := ⟨s, rfl⟩

theorem Answers.ite {c : Prop} [Decidable c] {a b : Res} (ha : Answers a) (hb : Answers b) : Answers (if c then a else b) :=
  ite_of ha hb

section

variable {s : State}

theorem execRegisterWrite_answers {a0} {a1} {a2} {a3} {a4} : Answers (execRegisterWrite a0 a1 a2 a3 a4 s) := by
  unfold execRegisterWrite
  repeat' first | with_reducible exact .next | refine .ite ?_ ?_ | split

theorem execRcRead_answers {a0} {a1} {a2} {a3} : Answers (execRcRead a0 a1 a2 a3 s) := by
  unfold execRcRead
  repeat' first | with_reducible exact .next | refine .ite ?_ ?_ | split

theorem execPollDue_answers {a0} : Answers (execPollDue a0 s) := by
  unfold execPollDue
  repeat' first | with_reducible exact .next | refine .ite ?_ ?_ | split

theorem execPollDataReturn_answers {a0} {a1} : Answers (execPollDataReturn a0 a1 s) := by
  unfold execPollDataReturn
  repeat' first | with_reducible exact .next | refine .ite ?_ ?_ | split

theorem execFragmentTableReadReturn_answers {a0} {a1} {a2} : Answers (execFragmentTableReadReturn a0 a1 a2 s) := by
  unfold execFragmentTableReadReturn
  repeat' first | with_reducible exact .next | refine .ite ?_ ?_ | split

theorem execArmWrite_answers {a0} {a1} : Answers (execArmWrite a0 a1 s) := by
  unfold execArmWrite
  repeat' first | with_reducible exact .next | refine .ite ?_ ?_ | split

theorem execConsumerWordReadReturn_answers {a0} {a1} : Answers (execConsumerWordReadReturn a0 a1 s) := by
  unfold execConsumerWordReadReturn
  repeat' first | with_reducible exact .next | refine .ite ?_ ?_ | split

theorem execPacketDispatch_answers {a0} : Answers (execPacketDispatch a0 s) := by
  unfold execPacketDispatch
  repeat' first | with_reducible exact .next | refine .ite ?_ ?_ | split

theorem execCmdResultArrival_answers {a0} : Answers (execCmdResultArrival a0 s) := by
  unfold execCmdResultArrival
  repeat' first | with_reducible exact .next | refine .ite ?_ ?_ | split

theorem execFrameEnd_answers {a0} {a1} {a2} : Answers (execFrameEnd a0 a1 a2 s) := by
  unfold execFrameEnd
  repeat' first | with_reducible exact .next | refine .ite ?_ ?_ | split

theorem execHostFrameFetch_answers : Answers (execHostFrameFetch s) := by
  unfold execHostFrameFetch
  repeat' first | with_reducible exact .next | refine .ite ?_ ?_ | split | dsimp only

theorem execHostFrameReady_answers {a0} {a1} {a2} : Answers (execHostFrameReady a0 a1 a2 s) := by
  unfold execHostFrameReady
  repeat' first | with_reducible exact .next | refine .ite ?_ ?_ | split

theorem execFrameParse_answers {a0} {a1} : Answers (execFrameParse a0 a1 s) := by
  unfold execFrameParse
  repeat' first | with_reducible exact .next | refine .ite ?_ ?_ | split | dsimp only

theorem execL2Learn_answers {a0} : Answers (execL2Learn a0 s) := by
  unfold execL2Learn
  repeat' first | with_reducible exact .next | refine .ite ?_ ?_ | split

theorem execPortCounterRead_answers {a0} {a1} {a2} {a3} {a4} {a5} : Answers (execPortCounterRead a0 a1 a2 a3 a4 a5 s) := by
  unfold execPortCounterRead
  repeat' first | with_reducible exact .next | refine .ite ?_ ?_ | split

theorem execFrameSelect_answers {a0} : Answers (execFrameSelect a0 s) := by
  unfold execFrameSelect
  repeat' first | with_reducible exact .next | refine .ite ?_ ?_ | split

theorem execFrameTxEnd_answers {a0} : Answers (execFrameTxEnd a0 s) := by
  unfold execFrameTxEnd
  repeat' first | with_reducible exact .next | refine .ite ?_ ?_ | split

theorem execJobStart_answers : Answers (execJobStart s) := by
  unfold execJobStart
  repeat' first | with_reducible exact .next | refine .ite ?_ ?_ | split

theorem execJobComplete_answers {a0} {a1} {a2} : Answers (execJobComplete a0 a1 a2 s) := by
  unfold execJobComplete
  repeat' first | with_reducible exact .next | refine .ite ?_ ?_ | split

theorem execInlineJobStart_answers {a0} : Answers (execInlineJobStart a0 s) := by
  unfold execInlineJobStart
  repeat' first | with_reducible exact .next | refine .ite ?_ ?_ | split

theorem execDrbgReseed_answers {a0} : Answers (execDrbgReseed a0 s) := by
  unfold execDrbgReseed
  repeat' first | with_reducible exact .next | refine .ite ?_ ?_ | split

theorem execEgressStage_answers {a0} : Answers (execEgressStage a0 s) := by
  unfold execEgressStage
  repeat' first | with_reducible exact .next | refine .ite ?_ ?_ | split

theorem execReceiveStage_answers {a0} : Answers (execReceiveStage a0 s) := by
  unfold execReceiveStage
  repeat' first | with_reducible exact .next | refine .ite ?_ ?_ | split

theorem execCoalTimeout_answers {a0} : Answers (execCoalTimeout a0 s) := by
  unfold execCoalTimeout
  repeat' first | with_reducible exact .next | refine .ite ?_ ?_ | split

theorem execPlace_answers {a0} {a1} : Answers (execPlace a0 a1 s) := by
  unfold execPlace
  repeat' first | with_reducible exact .next | refine .ite ?_ ?_ | split

theorem execNvmeCancel_answers {a0} {a1} : Answers (execNvmeCancel a0 a1 s) := by
  unfold execNvmeCancel
  repeat' first | with_reducible exact .next | refine .ite ?_ ?_ | split | dsimp only

theorem execSend_answers {a0} {a1} : Answers (execSend a0 a1 s) := by
  unfold execSend
  repeat' first | with_reducible exact .next | refine .ite ?_ ?_ | split

theorem execBuffer_answers {a0} {a1} : Answers (execBuffer a0 a1 s) := by
  unfold execBuffer
  repeat' first | with_reducible exact .next | refine .ite ?_ ?_ | split

theorem execFifoPush_answers {a0} {a1} {a2} : Answers (execFifoPush a0 a1 a2 s) := by
  unfold execFifoPush
  repeat' first | with_reducible exact .next | refine .ite ?_ ?_ | split

theorem execDmaRunStart_answers {a0} {a1} : Answers (execDmaRunStart a0 a1 s) := by
  unfold execDmaRunStart
  repeat' first | with_reducible exact .next | refine .ite ?_ ?_ | split

theorem execDmaReadbackReturn_answers {a0} {a1} : Answers (execDmaReadbackReturn a0 a1 s) := by
  unfold execDmaReadbackReturn
  repeat' first | with_reducible exact .next | refine .ite ?_ ?_ | split

theorem execCompletionTimeout_answers {a0} {a1} {a2} {a3} : Answers (execCompletionTimeout a0 a1 a2 a3 s) := by
  unfold execCompletionTimeout
  repeat' first | with_reducible exact .next | refine .ite ?_ ?_ | split

theorem execCompletionArrival_answers {a0} {a1} {a2} : Answers (execCompletionArrival a0 a1 a2 s) := by
  unfold execCompletionArrival
  repeat' first | with_reducible exact .next | refine .ite ?_ ?_ | split

theorem execFreeze_answers {a0} {a1} {a2} : Answers (execFreeze a0 a1 a2 s) := by
  unfold execFreeze
  repeat' first | with_reducible exact .next | refine .ite ?_ ?_ | split

theorem execFreezeWorkDone_answers {a0} : Answers (execFreezeWorkDone a0 s) := by
  unfold execFreezeWorkDone
  repeat' first | with_reducible exact .next | refine .ite ?_ ?_ | split | dsimp only

theorem execFreezeImageDone_answers {a0} {a1} : Answers (execFreezeImageDone a0 a1 s) := by
  unfold execFreezeImageDone
  repeat' first | with_reducible exact .next | refine .ite ?_ ?_ | split

theorem execThaw_answers {a0} {a1} {a2} {a3} : Answers (execThaw a0 a1 a2 a3 s) := by
  unfold execThaw
  repeat' first | with_reducible exact .next | refine .ite ?_ ?_ | split

theorem execThawDone_answers {a0} : Answers (execThawDone a0 s) := by
  unfold execThawDone
  repeat' first | with_reducible exact .next | refine .ite ?_ ?_ | split

theorem execCancel_answers {a0} {a1} {a2} : Answers (execCancel a0 a1 a2 s) := by
  unfold execCancel
  repeat' first | with_reducible exact .next | refine .ite ?_ ?_ | split

theorem execHarvestDone_answers {a0} {a1} : Answers (execHarvestDone a0 a1 s) := by
  unfold execHarvestDone
  repeat' first | with_reducible exact .next | refine .ite ?_ ?_ | split

theorem execBootStepComplete_answers {a0} {a1} {a2} {a3} {a4} {a5} : Answers (execBootStepComplete a0 a1 a2 a3 a4 a5 s) := by
  unfold execBootStepComplete
  repeat' first | with_reducible exact .next | refine .ite ?_ ?_ | split

theorem execExceptionFrameDispatch_answers {a0} : Answers (execExceptionFrameDispatch a0 s) := by
  unfold execExceptionFrameDispatch
  repeat' first | with_reducible exact .next | refine .ite ?_ ?_ | split

end

/-- Every command answers: its meaning chooses between next states. -/
theorem exec_answers (c : Instr) (s : State) : Answers (exec c s) := by
  cases c
  case registerWrite => exact execRegisterWrite_answers
  case rcRead => exact execRcRead_answers
  case pollDue => exact execPollDue_answers
  case pollDataReturn => exact execPollDataReturn_answers
  case fragmentTableReadReturn => exact execFragmentTableReadReturn_answers
  case armWrite => exact execArmWrite_answers
  case consumerWordReadReturn => exact execConsumerWordReadReturn_answers
  case packetDispatch => exact execPacketDispatch_answers
  case cmdResultArrival => exact execCmdResultArrival_answers
  case frameEnd => exact execFrameEnd_answers
  case hostFrameFetch => exact execHostFrameFetch_answers
  case hostFrameReady => exact execHostFrameReady_answers
  case frameParse => exact execFrameParse_answers
  case l2Learn => exact execL2Learn_answers
  case portCounterRead => exact execPortCounterRead_answers
  case frameSelect => exact execFrameSelect_answers
  case frameTxEnd => exact execFrameTxEnd_answers
  case jobStart => exact execJobStart_answers
  case jobComplete => exact execJobComplete_answers
  case inlineJobStart => exact execInlineJobStart_answers
  case drbgReseed => exact execDrbgReseed_answers
  case egressStage => exact execEgressStage_answers
  case receiveStage => exact execReceiveStage_answers
  case coalTimeout => exact execCoalTimeout_answers
  case place => exact execPlace_answers
  case nvmeCancel => exact execNvmeCancel_answers
  case send => exact execSend_answers
  case buffer => exact execBuffer_answers
  case fifoPush => exact execFifoPush_answers
  case dmaRunStart => exact execDmaRunStart_answers
  case dmaReadbackReturn => exact execDmaReadbackReturn_answers
  case completionTimeout => exact execCompletionTimeout_answers
  case completionArrival => exact execCompletionArrival_answers
  case freeze => exact execFreeze_answers
  case freezeWorkDone => exact execFreezeWorkDone_answers
  case freezeImageDone => exact execFreezeImageDone_answers
  case thaw => exact execThaw_answers
  case thawDone => exact execThawDone_answers
  case cancel => exact execCancel_answers
  case harvestDone => exact execHarvestDone_answers
  case bootStepComplete ms _ _ _ _ _ => exact execBootStepComplete_answers (a0 := ms)
  case exceptionFrameDispatch => exact execExceptionFrameDispatch_answers
  all_goals
    repeat' refine Answers.ite ?_ ?_
  all_goals exact .next

end Sys2Proof.Proofs
end

section
/-! PROOFS. The whole machine: the form of a state, the register file and the byte memory, what every step keeps, and the
moves of the device (spec/01_device_overview.md, Table OV-4). -/

namespace Sys2Proof.Proofs

open Sys2Proof Sys2Proof.Machine Sys2Proof.Machine.Reg Sys2Proof.Laws

variable {s t : State} {c : Instr}

/-! ## The form, the register file and the byte memory -/

/-- Settles O1: nothing is listed at reset. -/
theorem resetStateHasForm : Obligations.ResetStateHasForm := by
  unfold Obligations.ResetStateHasForm
  rfl

/-- Settles O3: the two cases of `step`. -/
theorem stepRunsFrontCommand : Obligations.StepRunsFrontCommand := by
  unfold Obligations.StepRunsFrontCommand
  refine ⟨fun _ _ _ => rfl, fun s h => ?_⟩
  unfold step
  rw [h]

theorem fieldsOnly_set {f : Fld} {i v : Nat} : s.set f i v = { s with fld := (s.set f i v).fld } :=
  FieldsOnly.set .refl

/-- Settles O9: the laws of `set`. -/
theorem fieldReadsBackWhatWasWritten : Obligations.FieldReadsBackWhatWasWritten := by
  unfold Obligations.FieldReadsBackWhatWasWritten
  intro s f i v hs
  exact ⟨get_set_same hs, fun _ _ hk => get_set_other hs hk, _, fieldsOnly_set, set_sorted hs⟩

/-- Settles O10: the laws of a store of bytes. -/
theorem memoryReadsBackWhatWasWritten : Obligations.MemoryReadsBackWhatWasWritten := by
  unfold Obligations.MemoryReadsBackWhatWasWritten
  intro s a bs hm
  refine ⟨fun k x hk => ?_, fun b hb => mem_read_writeBytes_out hm hb, mem_wf_writeBytes hm, _, rfl⟩
  obtain ⟨hlt, hx⟩ := List.getElem?_eq_some_iff.1 hk
  exact (mem_read_writeBytes_in hm hlt).trans hx

/-! ## What a step keeps -/

/-- The step of the front command, or the tick, keeps what an operation keeps, with the same three exceptions as the command;
the tick moves the Meridian count alone. -/
theorem step_keeps {b : Base} {rest : List Instr} (hb : b.st = { s with pending := rest })
    (hp : s.pending = c :: rest) (hw : resets c = true → b.white = false) (hf : movesDevice c = true → b.fixed = false)
    (ht : movesTime c = true → b.clock = false) : KeepsR b (step s) := by
  have h : step s = exec c b.st := by unfold step; rw [hp, hb]
  rw [h]
  exact exec_keeps .refl hw hf ht

theorem step_tick (hp : s.pending = []) : step s = .next s.tick := by
  unfold step
  rw [hp]

/-- A property that every operation gives the state it makes holds after every step. -/
theorem step_induct {Q : State → Prop} {w f : Bool} (ht : step s = .next t)
    (hw : ∀ c, s.pending.head? = some c → resets c = true → w = false)
    (hf : ∀ c, s.pending.head? = some c → movesDevice c = true → f = false)
    (hq : ∀ u l, u = { s with pending := l } → Keeps ⟨u, w, f, false⟩ t → Q t) : Q t := by
  cases hp : s.pending with
  | nil =>
    have : Moves ⟨s, w, f, false⟩ := ⟨rfl⟩
    have k : Keeps ⟨s, w, f, false⟩ s.tick := tick_ok .refl
    obtain rfl : s.tick = t := Host.Outcome.next.inj ((step_tick hp).symm.trans ht)
    exact hq s s.pending rfl k
  | cons c rest =>
    refine hq _ rest rfl (step_keeps (b := ⟨{ s with pending := rest }, w, f, false⟩) rfl hp ?_ ?_ (fun _ => rfl) t ht)
    · exact hw c (by rw [hp]; rfl)
    · exact hf c (by rw [hp]; rfl)

/-- Settles O2: every operation keeps the form. -/
theorem everyStepKeepsForm : Obligations.EveryStepKeepsForm := by
  unfold Obligations.EveryStepKeepsForm
  intro s t hs ht
  exact step_induct (Q := fun t => t.wf = true) (w := false) (f := false) ht (fun _ _ _ => rfl) (fun _ _ _ => rfl)
    (fun _ _ e h => h.form (by rw [e]; exact hs))

/-- Settles O4: the command answers, and its operations keep the queue and what was driven. -/
theorem everyCommandAnswers : Obligations.EveryCommandAnswers := by
  unfold Obligations.EveryCommandAnswers
  intro c s
  obtain ⟨t, ht⟩ := exec_answers c s
  have h := exec_keeps (s0 := ⟨s, false, false, false⟩) .refl (fun _ => rfl) (fun _ => rfl) (fun _ => rfl) t ht
  obtain ⟨l, hl, -⟩ := h.driven
  exact ⟨t, ht, h.queue, l, hl⟩

/-- Settles O8: every operation keeps a programmed debug fuse. -/
theorem debugFuseStaysProgrammed : Obligations.DebugFuseStaysProgrammed := by
  unfold Obligations.DebugFuseStaysProgrammed
  intro s t hs hz ht
  exact step_induct (Q := fun t => t.flag FZ_debug 0 = true) (w := false) (f := false) ht (fun _ _ _ => rfl) (fun _ _ _ => rfl)
    (fun _ _ e h => h.fuse (by rw [e]; exact hs) (by rw [e]; exact hz))

/-- Settles O7: the operations of the other commands keep the count. -/
theorem commandsKeepMeridianCount : Obligations.CommandsKeepMeridianCount := by
  unfold Obligations.CommandsKeepMeridianCount
  intro c s t hs hm ht
  have h := exec_keeps (s0 := ⟨s, false, false, true⟩) .refl (fun _ => rfl) (fun _ => rfl) (fun e => by rw [hm] at e; cases e) t ht
  exact h.time rfl hs

/-- Settles O6: operations that need not reset the device keep WHITEOUT and drive no bus request in it. -/
theorem whiteoutEndsOnlyByReset : Obligations.WhiteoutEndsOnlyByReset := by
  unfold Obligations.WhiteoutEndsOnlyByReset
  intro s t hs hd hc ht
  refine step_induct (Q := fun t => t.dev = dsWhiteout ∧ ∃ l, t.out = s.out ++ l ∧ ∀ o ∈ l, o.bus = false)
    (w := true) (f := false) ht (fun c h e => ?_) (fun _ _ _ => rfl) (fun u l e h => ?_)
  · rw [hc c h] at e
    cases e
  · subst e
    obtain ⟨a, ha, hb⟩ := h.driven
    exact ⟨h.stays rfl hs hd, a, ha, hb rfl hs hd⟩

/-! ## The moves of the device -/

/-- The state of the device is one of the six codes of Table OV-4. -/
theorem dev_le_five (h : s.wf = true) : s.dev ≤ 5 := by
  have := get_mode (f := GLB_STATE_state) (i := 0) h (by decide)
  show s.get GLB_STATE_state 0 ≤ 5
  simpa [modeOk, show hardWired (GLB_STATE_state.id % 4096) = false from rfl,
    show modeMax (GLB_STATE_state.id % 4096) = some 5 from rfl] using this

/-- Where a command may move the device, it moves it by a row of Table OV-4 or not at all. -/
def byTable (c : Instr) (s : State) : Prop :=
  ∀ t, exec c s = .next t → t.dev = s.dev ∨ tableOV4 c s.dev t.dev = true

theorem byTable_of_eq (h : exec c s = .next s) : byTable c s := fun t ht => .inl (by rw [h] at ht; cases ht; rfl)

theorem byTable_of_next {u : State} (h : exec c s = .next u) (hu : u.dev = s.dev ∨ tableOV4 c s.dev u.dev = true) :
    byTable c s := fun t ht => by rw [h] at ht; cases ht; exact hu

theorem byTable_aonStart {low rails : Bool} {ms : Nat} (hs : SM.sorted s.fld = true) : byTable (.aonStart low rails ms) s := by
  by_cases hd : s.dev = 0
  · obtain ⟨t, ht, he⟩ := exec_aonStart_dev (low := low) (rails := rails) (ms := ms) hs hd
    refine byTable_of_next ht (.inr ?_)
    rw [he, hd]
    cases rails <;> cases low <;> rfl
  · exact byTable_of_eq (if_pos hd)

theorem byTable_vddAonLoss (hs : SM.sorted s.fld = true) : byTable .vddAonLoss s := by
  by_cases hd : s.dev = 0
  · exact byTable_of_eq (if_pos hd)
  · obtain ⟨t, ht, he⟩ := exec_vddAonLoss_dev hs hd
    exact byTable_of_next ht (.inr (by rw [he]; rfl))

theorem byTable_railLeavesRange {r : Nat} (hs : SM.sorted s.fld = true) : byTable (.railLeavesRange r) s := by
  by_cases hd : s.dev = 0
  · exact byTable_of_eq (if_pos hd)
  · obtain ⟨t, ht, he, -⟩ := exec_railLeavesRange_dev (r := r) hs hd
    exact byTable_of_next ht (.inr (by simp [tableOV4, he, hd]))

/-- A try of the boot starts it from AON_ONLY or leaves the state of the device. -/
theorem tryBoot_moves (hs : SM.sorted s.fld = true) : s.tryBoot.dev = s.dev ∨ s.dev = dsAonOnly ∧ s.tryBoot.dev = dsBooting := by
  by_cases h : bootReady s
  · exact .inr ⟨h.1, (tryBoot_ready hs h).1⟩
  · rw [tryBoot_not_ready h]
    exact .inl rfl

theorem byTable_railEntersRange {ms : Nat} (hs : SM.sorted s.fld = true) : byTable (.railEntersRange ms) s := by
  by_cases hd : s.dev = 0
  · exact byTable_of_eq (if_pos hd)
  · have h : Spares GLB_STATE_state 0 s (((s.set FLT_RAIL_below_uv 0 0).set FLT_RAIL_below_warn 0 0).put RAIL_out 0 false) :=
      ((Spares.refl.set (by decide)).set (by decide)).put (by decide)
    refine byTable_of_next (exec_railEntersRange hd) ?_
    have k := tryBoot_moves (h hs).1
    rw [h.dev hs] at k
    simpa [tableOV4] using k

theorem byTable_sysRstNAssert (hs : SM.sorted s.fld = true) : byTable .sysRstNAssert s := by
  by_cases hd : s.dev = 0
  · exact byTable_of_eq (if_pos hd)
  · by_cases hh : s.dev = dsWhiteout ∧ s.flag FLT_RAIL_uv_hold 0 = true
    · have hu : (s.put RST_low 0 true).flag FLT_RAIL_uv_hold 0 = true := (flag_put_ne hs (by decide)).trans hh.2
      have hw : (s.put RST_low 0 true).dev = s.dev := dev_set hs (by decide)
      refine byTable_of_next (u := s.put RST_low 0 true) ?_ (.inl hw)
      show execSysRstNAssert s = _
      unfold execSysRstNAssert
      rw [if_neg hd]
      simp only [hu, hw, hh.1, beq_self_eq_true, Bool.and_self, if_true]
    · obtain ⟨t, ht, he, -⟩ := exec_sysRstNAssert_dev hs hd hh
      exact byTable_of_next ht (.inr (by simp [tableOV4, he, hd]))

theorem byTable_sysRstNRelease {role : Bool} {ms : Nat} (hs : SM.sorted s.fld = true) : byTable (.sysRstNRelease role ms) s := by
  by_cases hd : s.dev = 0
  · exact byTable_of_eq (if_pos hd)
  · have h : Spares GLB_STATE_state 0 s ((s.put RST_low 0 false).put TWN_STATUS_strap 0 role) :=
      (Spares.refl.put (by decide)).put (by decide)
    refine byTable_of_next (exec_sysRstNRelease hd) ?_
    have k := tryBoot_moves (h hs).1
    rw [h.dev hs] at k
    simpa [tableOV4] using k

theorem byTable_uvHoldClear {ms : Nat} (hs : SM.sorted s.fld = true) : byTable (.uvHoldClear ms) s := by
  by_cases hd : s.dev = 0
  · exact byTable_of_eq (if_pos hd)
  · by_cases hc : ((unheld s).flag RST_low 0 && (unheld s).dev == dsWhiteout) = true
    · refine byTable_of_next ((exec_uvHoldClear hd).trans (if_pos hc)) (.inr ?_)
      rw [unheld_dev hs, Bool.and_eq_true, beq_iff_eq] at hc
      simp [tableOV4, hc.2, (toAonOnly_dev (unheld_sorted hs)).1]
    · refine byTable_of_next ((exec_uvHoldClear hd).trans (if_neg hc)) ?_
      have k := tryBoot_moves (unheld_sorted hs)
      rw [unheld_dev hs] at k
      rcases k with k | k
      · exact .inl k
      · exact .inr (by simp [tableOV4, k])

theorem byTable_devReset {w : Who} {ms : Nat} (hs : SM.sorted s.fld = true) : byTable (.devReset w ms) s := by
  by_cases hc : w = .bmc ∧ s.dev = dsWhiteout ∧ s.flag FLT_RAIL_uv_hold 0 = false
  · obtain ⟨rfl, hd, hu⟩ := hc
    refine byTable_of_next (exec_devReset_bmc hd hu) (.inr ?_)
    rw [toAonOnly_tryBoot_dev hs hu, hd]
    split <;> rfl
  · exact byTable_of_eq (if_neg hc)

/-- A choice that gives `x` gives it by one of its branches. -/
theorem cases_of_ite_eq {α : Type} {c : Prop} [Decidable c] {a b x : α} (h : (if c then a else b) = x) :
    (c ∧ a = x) ∨ (¬ c ∧ b = x) := by
  split at h
  · next hc => exact .inl ⟨hc, h⟩
  · next hc => exact .inr ⟨hc, h⟩

theorem byTable_ready {w : Who} {ms : Nat} (hs : s.wf = true) : byTable (.ready w ms) s := by
  have k : Keeps ⟨s, false, false, false⟩ (((s.put FIRN_sealed 0 false).set FIRN_cause 0 0).stepDone 10) :=
    stepDone_ok (set_ok (put_ok .refl rfl) rfl)
  have hn := dev_of_set (v := dsIdle) (wf_sorted (k.form hs)) (by decide)
  intro t ht
  replace ht : execReady w ms s = .next t := ht
  unfold execReady at ht
  obtain ⟨hc, he⟩ | ⟨-, he⟩ := cases_of_ite_eq ht
  · obtain rfl := Host.Outcome.next.inj he
    simp only [Bool.and_eq_true, beq_iff_eq] at hc
    exact .inr (by rw [hc.1.1.1.2, hn]; rfl)
  · obtain rfl := Host.Outcome.next.inj he
    exact .inl rfl

theorem byTable_dpEnSet {w : Who} (hs : SM.sorted s.fld = true) : byTable (.dpEnSet w) s := by
  have h1 : SM.sorted (s.put GLB_CTRL_dp_en 0 true).fld = true := set_sorted hs
  have hp : (s.put GLB_CTRL_dp_en 0 true).dev = s.dev := dev_set hs (by decide)
  intro t ht
  replace ht : execDpEnSet w s = .next t := ht
  unfold execDpEnSet at ht
  dsimp only at ht
  split at ht
  · cases ht
    exact .inl rfl
  · split at ht
    · next hd =>
      cases ht
      split
      · exact .inl ((dev_set h1 (by decide)).trans hp)
      · exact .inr (by rw [hd, dev_of_set h1 (by decide)]; rfl)
    · split at ht
      · cases ht
        exact .inl ((dev_set h1 (by decide)).trans hp)
      · cases ht
        exact .inl hp

theorem byTable_profileChangeDone (hs : SM.sorted s.fld = true) : byTable .profileChangeDone s := by
  have h : Spares GLB_STATE_state 0 s (((s.set GLB_PROFILE_profile 0 (s.get GLX_profile 0)).put GLB_STATUS_profile_busy 0 false).put
      GLX_defer 0 false) := ((Spares.refl.set (by decide)).put (by decide)).put (by decide)
  intro t ht
  replace ht : execProfileChangeDone s = .next t := ht
  unfold execProfileChangeDone at ht
  dsimp only at ht
  split at ht
  · next hc =>
    cases ht
    split
    · rw [Bool.and_eq_true, beq_iff_eq] at hc
      exact .inr (by rw [hc.2, dev_of_set (h hs).1 (by decide)]; rfl)
    · exact .inl (h.dev hs)
  · cases ht
    exact .inl rfl

theorem byTable_drainComplete (hs : SM.sorted s.fld = true) : byTable .drainComplete s := by
  have h1 : SM.sorted (s.put GLB_STATUS_dp_draining 0 false).fld = true := set_sorted hs
  intro t ht
  replace ht : execDrainComplete s = .next t := ht
  unfold execDrainComplete at ht
  split at ht
  · next hc =>
    cases ht
    simp only [Bool.and_eq_true, beq_iff_eq] at hc
    exact .inr (by rw [hc.1.1.1, dev_of_set h1 (by decide)]; rfl)
  · cases ht
    exact .inl rfl

/-- Every command that moves the device, but a register write by its address, moves it by Table OV-4. -/
theorem byTable_of_movesDevice (hwf : s.wf = true) (hm : movesDevice c = true) (hr : writesRegister c = false) :
    byTable c s := by
  have hs := wf_sorted hwf
  unfold movesDevice at hm
  split at hm
  · exact byTable_aonStart hs
  · exact byTable_vddAonLoss hs
  · exact byTable_railLeavesRange hs
  · exact byTable_railEntersRange hs
  · exact byTable_sysRstNAssert hs
  · exact byTable_sysRstNRelease hs
  · exact byTable_uvHoldClear hs
  · exact byTable_devReset hs
  · exact byTable_ready hwf
  · exact byTable_dpEnSet hs
  · exact byTable_profileChangeDone hs
  · exact byTable_drainComplete hs
  · rw [hm] at hr
    cases hr

/-- Settles O5: a command of Table OV-4 moves the device by its row; every other step leaves it or lets it fall into
WHITEOUT. -/
theorem deviceStateMovesByTable : Obligations.DeviceStateMovesByTable := by
  unfold Obligations.DeviceStateMovesByTable
  intro s t hs hc ht
  refine ⟨dev_le_five (everyStepKeepsForm s t hs ht), ?_⟩
  by_cases hm : ∃ c, s.pending.head? = some c ∧ movesDevice c = true
  · obtain ⟨c, hp, hm⟩ := hm
    obtain ⟨rest, hl⟩ : ∃ rest, s.pending = c :: rest := by
      cases h : s.pending with
      | nil => rw [h] at hp; cases hp
      | cons a l => rw [h] at hp; cases hp; exact ⟨l, rfl⟩
    have he : exec c { s with pending := rest } = .next t := by
      unfold step at ht
      rwa [hl] at ht
    rcases byTable_of_movesDevice (s := { s with pending := rest }) hs hm (hc c hp) t he with e | e
    · exact .inl e
    · exact .inr (.inr ⟨c, hp, e⟩)
  · have k : t.dev = s.dev ∨ (t.dev = dsWhiteout ∧ s.dev ≠ dsAonOnly ∧ s.dev ≠ 0) :=
      step_induct (Q := fun t => t.dev = s.dev ∨ (t.dev = dsWhiteout ∧ s.dev ≠ dsAonOnly ∧ s.dev ≠ 0)) (w := false) (f := true)
        ht (fun _ _ _ => rfl) (fun c h e => absurd ⟨c, h, e⟩ hm) (fun u l e h => by subst e; exact h.moves rfl hs)
    rcases k with k | k
    · exact .inl k
    · exact .inr (.inl k)

end Sys2Proof.Proofs
end

section
/-! PROOFS. The tick of the time clock outside a slew and a step (spec/10_meridian_time.md, R276). -/

namespace Sys2Proof.Proofs

open Sys2Proof Sys2Proof.Machine Sys2Proof.Machine.Reg Sys2Proof.Laws

variable {s t u : State} {g : Fld} {j : Nat}

/-- What is due in a tick, and its slot and cycle counts, keep what every operation keeps. -/
theorem tickDue_ok {b : Base} (h : Keeps b s) : Keeps b s.runDue.starve.cycleEvents := cycleEvents_ok (starve_ok (runDue_ok h))

theorem tickDue_dev (hs : s.wf = true) (hd : s.dev ≠ 0) : s.runDue.starve.cycleEvents.dev ≠ 0 := by
  rcases (tickDue_ok (b := ⟨s, false, true, false⟩) .refl).moves rfl hs with e | e
  · exact fun h => hd (e.symm.trans h)
  · exact fun h => absurd (e.1.symm.trans h) (by decide)

theorem tickDue_now (hs : s.wf = true) : s.runDue.starve.cycleEvents.now = s.now :=
  (tickDue_ok (b := ⟨s, false, false, true⟩) .refl).time rfl hs

theorem tickDue_wf (hs : s.wf = true) : s.runDue.starve.cycleEvents.wf = true :=
  (tickDue_ok (b := ⟨s, false, false, false⟩) .refl).form hs

/-! ## The parts of a tick -/

/-- The numbers of the fields that a tick moves beside the count and `CLK_ticks`. -/
def tickFields : List Nat :=
  [PMX_cyc.id, MTX_dtick.id, MT_DRIFT_AGE_age_ms.id, SCH_NODE_STATUS_busy.id, CPH_SA_STATUS_busy.id, OFL_TMPL_STATUS_busy.id,
   OFL_NVC_STATUS_busy.id, BOOT_FUSE_CMD_busy.id, MT_ADJ_CTRL_go.id, MTX_exit.id, MTX_ppsidx.id, TRX_late.id, TRX_fns.id]

/-- A field that is none of them. -/
abbrev offTick (g : Fld) : Prop := tickFields.all (fun n => g.id % 4096 != n % 4096) = true

theorem tickCores_spares (hg : offTick g) : Spares g j s s.tickCores :=
  Spares.ite (Spares.forEach .refl (fun _ _ _ hv => hv.set (ne_of_mem hg (by decide)))) .refl

theorem tickDrift_spares (hg : offTick g) : Spares g j s s.tickDrift := by
  have ne := fun {n} => ne_of_mem (n := n) hg
  exact Spares.ite (Spares.ite ((Spares.refl.set (ne (by decide))).set (ne (by decide))) (Spares.refl.set (ne (by decide)))) .refl

/-- The commands that last one tick have ended. -/
def commandsEnded (s : State) : State :=
  ((forEach [SCH_NODE_STATUS_busy, CPH_SA_STATUS_busy, OFL_TMPL_STATUS_busy, OFL_NVC_STATUS_busy, BOOT_FUSE_CMD_busy]
    (fun f t => t.put f 0 false) s).put MT_ADJ_CTRL_go 0 false).put MTX_exit 0 false

theorem ticked_eq : s.ticked = (commandsEnded s).inc CLK_ticks 0 := rfl

theorem ended_spares (hg : offTick g) : Spares g j s (commandsEnded s) := by
  have ne := fun {n} => ne_of_mem (n := n) hg
  refine ((Spares.forEach .refl (fun f hf _ hv => hv.put ?_)).put (ne (by decide))).put (ne (by decide))
  simp only [List.mem_cons, List.not_mem_nil, or_false] at hf
  rcases hf with e | e | e | e | e <;> subst e <;> exact ne (by decide)

theorem ppsWrap_spares {n : Nat} (hg : offTick g) : Spares g j s (s.ppsWrap n) :=
  Spares.ite (Spares.refl.set (ne_of_mem hg (by decide))) .refl

theorem tickTrigs_spares {n : Nat} {b : Bool} (hg : offTick g) : Spares g j s (s.tickTrigs n b) := by
  have ne := fun {n} => ne_of_mem (n := n) hg
  exact Spares.forEach .refl (fun _ _ _ hv => Spares.ite ((hv.set (ne (by decide))).set (ne (by decide))) hv)

/-- What a tick does after the count has advanced. -/
def tickRest (s : State) (pps : Nat) : State :=
  (s.tickDrift.ticked.ppsWrap pps).tickTrigs (s.tickDrift.ticked.ppsWrap pps).now false

theorem rest_spares {n : Nat} (hg : offTick g) (hc : g.id % 4096 ≠ CLK_ticks.id % 4096) : Spares g j s (tickRest s n) := by
  have h : Spares g j s s.tickDrift.ticked := by
    rw [ticked_eq]
    exact ((tickDrift_spares hg).trans (ended_spares hg)).set hc
  exact (h.trans (ppsWrap_spares hg)).trans (tickTrigs_spares hg)

theorem rest_clk {n : Nat} (hs : SM.sorted s.fld = true) : (tickRest s n).clk = (s.clk + 1) % 2 ^ 64 := by
  have h : Spares CLK_ticks 0 s (commandsEnded s.tickDrift) := (tickDrift_spares (by decide)).trans (ended_spares (by decide))
  have k : Spares CLK_ticks 0 s.tickDrift.ticked (tickRest s n) := (ppsWrap_spares (by decide)).trans (tickTrigs_spares (by decide))
  have hi : s.tickDrift.ticked.get CLK_ticks 0 = ((commandsEnded s.tickDrift).get CLK_ticks 0 + 1) % 2 ^ 64 :=
    get_set_same (h hs).1
  show (tickRest s n).get CLK_ticks 0 = _
  rw [(k (set_sorted (h hs).1)).2, hi, (h hs).2]
  rfl

/-- A slew that adds nothing, in either direction, leaves the increment. -/
theorem addend_quiet (b : Bool) (n : Nat) : (n : Int) + (if b then -((0 : Nat) : Int) else ((0 : Nat) : Int)) = n := by
  cases b <;> exact Int.add_zero _

/-- Outside a slew and a step a tick adds the increment and does the rest. -/
theorem advance_quiet (hs : SM.sorted u.fld = true) (hd : u.dev ≠ 0) (hw : u.flag MT_STATUS_slewing 0 = false)
    (hp : u.flag MTX_step 0 = false) :
    u.advance = tickRest (u.tickCores.addTime (u.get MT_INC_inc 0)) u.tickCores.ppsNow := by
  have hc : ∀ {g : Fld}, offTick g → u.tickCores.get g 0 = u.get g 0 := fun hg => (tickCores_spares hg hs).2
  have hslew : u.tickCores.flag MT_STATUS_slewing 0 = false := (congrArg (· == 1) (hc (by decide))).trans hw
  have hstep : u.tickCores.flag MTX_step 0 = false := (congrArg (· == 1) (hc (by decide))).trans hp
  have hinc : u.tickCores.get MT_INC_inc 0 = u.get MT_INC_inc 0 := hc (by decide)
  have hsc : SM.sorted u.tickCores.fld = true := (tickCores_spares (g := CLK_ticks) (j := 0) (by decide) hs).1
  have hpart : u.tickCores.slewPart = 0 := if_neg (by rw [hslew]; decide)
  have htake : (u.tickCores.addTime (u.get MT_INC_inc 0)).slewTake 0 = u.tickCores.addTime (u.get MT_INC_inc 0) := by
    refine if_neg ?_
    have : (u.tickCores.addTime (u.get MT_INC_inc 0)).flag MT_STATUS_slewing 0 = u.tickCores.flag MT_STATUS_slewing 0 :=
      flag_of_spares ((Spares.refl.set (by decide)).set (by decide)) hsc
    rw [this, hslew]
    decide
  unfold State.advance
  rw [if_neg (by simpa using hd)]
  dsimp only
  rewrite [hpart, hstep, hinc, addend_quiet, htake, if_neg Bool.false_ne_true]
  rfl

/-- The count and its fraction after an advance by a natural number of 2^-32 ns. -/
theorem addTime_count {n : Nat} (hs : SM.sorted s.fld = true) :
    (s.addTime n).now * 2 ^ 32 + (s.addTime n).get MTX_frac 0 = (s.now * 2 ^ 32 + s.get MTX_frac 0 + n) % 2 ^ 96 := by
  have hv : ((((s.now * 2 ^ 32 + s.get MTX_frac 0 : Nat) : Int) + (n : Int)) % 2 ^ 96).toNat =
      (s.now * 2 ^ 32 + s.get MTX_frac 0 + n) % 2 ^ 96 := by omega
  have h1 := get_set_same (s := s) (f := MT_NOW_NS_ns) (i := 0)
    (v := (s.now * 2 ^ 32 + s.get MTX_frac 0 + n) % 2 ^ 96 / 2 ^ 32) hs
  have hs1 : SM.sorted (s.set MT_NOW_NS_ns 0 ((s.now * 2 ^ 32 + s.get MTX_frac 0 + n) % 2 ^ 96 / 2 ^ 32)).fld = true := set_sorted hs
  have h2 := get_set_same (f := MTX_frac) (i := 0) (v := (s.now * 2 ^ 32 + s.get MTX_frac 0 + n) % 2 ^ 96 % 2 ^ 32) hs1
  have h3 := now_set (f := MTX_frac) (i := 0) (v := (s.now * 2 ^ 32 + s.get MTX_frac 0 + n) % 2 ^ 96 % 2 ^ 32) hs1 (by decide)
  unfold State.addTime
  dsimp only
  rw [hv, h2, h3, show (s.set MT_NOW_NS_ns 0 ((s.now * 2 ^ 32 + s.get MTX_frac 0 + n) % 2 ^ 96 / 2 ^ 32)).now = _ from h1,
    show MT_NOW_NS_ns.w = 64 from rfl, show MTX_frac.w = 32 from rfl]
  omega

/-- Settles O11: what was due keeps the count and the state of the device on; the advance adds the increment, and the rest of
the tick touches neither. -/
theorem tickAdvancesMeridianTime : Obligations.TickAdvancesMeridianTime := by
  unfold Obligations.TickAdvancesMeridianTime
  intro s u hs hpend hd hu hslew hstep
  have husort : SM.sorted u.fld = true := wf_sorted (hu ▸ tickDue_wf hs)
  have hudev : u.dev ≠ 0 := hu ▸ tickDue_dev hs hd
  have hunow : u.now = s.now := hu ▸ tickDue_now hs
  have htick : s.tick = tickRest (u.tickCores.addTime (u.get MT_INC_inc 0)) u.tickCores.ppsNow := by
    rw [← advance_quiet husort hudev hslew hstep, hu]
    rfl
  have hsc : SM.sorted u.tickCores.fld = true := (tickCores_spares (g := CLK_ticks) (j := 0) (by decide) husort).1
  have hsa : SM.sorted (u.tickCores.addTime (u.get MT_INC_inc 0)).fld = true := set_sorted (set_sorted hsc)
  have hkeep : ∀ {g : Fld}, offTick g → g.id % 4096 ≠ CLK_ticks.id % 4096 → g.id % 4096 ≠ MT_NOW_NS_ns.id % 4096 →
      g.id % 4096 ≠ MTX_frac.id % 4096 → s.tick.get g 0 = u.get g 0 := fun hg h1 h2 h3 => by
    rw [htick]
    exact (((tickCores_spares hg).trans ((Spares.refl.set h2).set h3)).trans (rest_spares hg h1) husort).2
  refine ⟨s.tick, (step_tick hpend), hunow, ?_, ?_, hkeep (by decide) (by decide) (by decide) (by decide),
    hkeep (by decide) (by decide) (by decide) (by decide), hkeep (by decide) (by decide) (by decide) (by decide)⟩
  · have h := addTime_count (n := u.get MT_INC_inc 0) hsc
    rw [show u.tickCores.now = u.now from (tickCores_spares (by decide) husort).2, (tickCores_spares (g := MTX_frac) (by decide) husort).2,
      hunow] at h
    rw [htick, show (tickRest _ _).now = _ from (rest_spares (by decide) (by decide) hsa).2,
      (rest_spares (g := MTX_frac) (by decide) (by decide) hsa).2]
    exact h
  · show s.tick.get CLK_ticks 0 = _
    rw [htick, show (tickRest _ _).get CLK_ticks 0 = _ from rest_clk hsa]
    have h : Spares CLK_ticks 0 u (u.tickCores.addTime (u.get MT_INC_inc 0)) :=
      (tickCores_spares (by decide)).trans ((Spares.refl.set (by decide)).set (by decide))
    exact congrArg (fun n => (n + 1) % 2 ^ 64) (h husort).2

end Sys2Proof.Proofs
end

section
/-! PROOFS. The arithmetic of the Niris instructions against bit vectors (spec/05_niris_isa.md, Tables NI-4 to NI-7). -/

namespace Sys2Proof.Proofs

open Sys2Proof Sys2Proof.Machine

variable {n k x y : Nat}

/-- The widths of Table NI-4. -/
theorem widthOf_mem (m : Nat) : widthOf m = 8 ∨ widthOf m = 16 ∨ widthOf m = 32 ∨ widthOf m = 64 := by
  unfold widthOf
  split
  · exact .inr (.inr (.inl rfl))
  · split
    · exact .inr (.inl rfl)
    · split
      · exact .inl rfl
      · exact .inr (.inr (.inr rfl))

theorem widthOf_pos (m : Nat) : 0 < widthOf m := by
  rcases widthOf_mem m with e | e | e | e <;> omega

theorem widthOf_le (m : Nat) : widthOf m ≤ 64 := by
  rcases widthOf_mem m with e | e | e | e <;> omega

/-- A value cut to a width of Table NI-4 fits a register. -/
theorem mod_width_mod {m : Nat} : x % 2 ^ widthOf m % 2 ^ 64 = x % 2 ^ widthOf m :=
  Nat.mod_eq_of_lt (Nat.lt_of_lt_of_le (Nat.mod_lt _ (Nat.two_pow_pos _)) (Nat.pow_le_pow_right (by decide) (widthOf_le m)))

theorem bit_eq_testBit {v i : Nat} : bit v i = v.testBit i := by
  rw [Nat.testBit_eq_decide_div_mod_eq]
  rfl

theorem testBit_bits {v lo w b : Nat} : (bits v lo w).testBit b = (decide (b < w) && v.testBit (lo + b)) := by
  rw [bits, Nat.testBit_mod_two_pow, Nat.testBit_div_two_pow, Nat.add_comm]

/-! ## Shifts and rotations -/

theorem msb_ofNat (hx : x < 2 ^ n) (hn : 0 < n) : (BitVec.ofNat n x).msb = decide (2 ^ (n - 1) ≤ x) := by
  have hp : 2 ^ n = 2 * 2 ^ (n - 1) := by rw [← Nat.pow_succ', Nat.succ_eq_add_one, Nat.sub_add_cancel hn]
  rw [BitVec.msb_eq_decide, BitVec.toNat_ofNat, Nat.mod_eq_of_lt hx]

theorem aSar_eq (hx : x < 2 ^ n) (hn : 0 < n) : aSar n x y = ((BitVec.ofNat n x).sshiftRight (y % 64)).toNat := by
  have hm := msb_ofNat hx hn
  unfold aSar
  split
  · next h =>
    rw [BitVec.sshiftRight_eq_of_msb_false (by rw [hm, decide_eq_false]; omega), BitVec.toNat_ushiftRight, BitVec.toNat_ofNat,
      Nat.mod_eq_of_lt hx, Nat.shiftRight_eq_div_pow]
  · next h =>
    rw [BitVec.sshiftRight_eq_of_msb_true (by rw [hm, decide_eq_true]; omega), BitVec.toNat_not, BitVec.toNat_ushiftRight,
      BitVec.toNat_not, BitVec.toNat_ofNat, Nat.mod_eq_of_lt hx, Nat.shiftRight_eq_div_pow]

theorem aRot_eq (hx : x < 2 ^ n) (hn : 0 < n) : aRot n x y % 2 ^ n = ((BitVec.ofNat n x).rotateRight (y % 64)).toNat := by
  have hk : y % 64 % n < n := Nat.mod_lt _ hn
  rw [BitVec.toNat_rotateRight, BitVec.toNat_ofNat, Nat.mod_eq_of_lt hx, Nat.shiftRight_eq_div_pow, Nat.shiftLeft_eq]
  unfold aRot
  generalize y % 64 % n = k at hk
  have hp : 2 ^ n = 2 ^ k * 2 ^ (n - k) := by rw [← Nat.pow_add, Nat.add_sub_cancel' (Nat.le_of_lt hk)]
  have hd : x / 2 ^ k < 2 ^ (n - k) := by
    rw [Nat.div_lt_iff_lt_mul (Nat.two_pow_pos k), Nat.mul_comm, ← hp]
    exact hx
  have hm : x * 2 ^ (n - k) % 2 ^ n = (x % 2 ^ k) * 2 ^ (n - k) := by rw [hp, Nat.mul_mod_mul_right]
  have hs : x / 2 ^ k + (x % 2 ^ k) * 2 ^ (n - k) < 2 ^ n := by
    have h1 : x % 2 ^ k + 1 ≤ 2 ^ k := Nat.mod_lt _ (Nat.two_pow_pos k)
    have h2 := Nat.mul_le_mul_right (2 ^ (n - k)) h1
    rw [Nat.succ_mul, ← hp] at h2
    omega
  have ho := Nat.shiftLeft_add_eq_or_of_lt hd (x % 2 ^ k)
  rw [Nat.shiftLeft_eq] at ho
  rw [hm, Nat.or_comm, ← ho, Nat.add_mod, hm, Nat.mod_eq_of_lt (Nat.lt_of_le_of_lt (Nat.div_le_self _ _) hx), Nat.mod_eq_of_lt hs,
    Nat.add_comm]

/-! ## Sign extension -/

/-- Sign extension of a value of `n` bits, as the register takes it. -/
theorem signExt_eq (hx : x < 2 ^ n) (hn : 0 < n) (h64 : n ≤ 64) :
    signExt n x % 2 ^ 64 = ((BitVec.ofNat n x).signExtend 64).toNat := by
  have hle : 2 ^ n ≤ 2 ^ 64 := Nat.pow_le_pow_right (by decide) h64
  rw [BitVec.toNat_signExtend, BitVec.toNat_setWidth, BitVec.toNat_ofNat, Nat.mod_eq_of_lt hx, msb_ofNat hx hn,
    Nat.mod_eq_of_lt (Nat.lt_of_lt_of_le hx hle)]
  unfold signExt
  by_cases h : x < 2 ^ (n - 1)
  · rw [if_pos h, if_neg (by simpa using h)]
    omega
  · rw [if_neg h, if_pos (by simpa using h)]
    omega

/-! ## Counting bits -/

theorem uPopc_eq : uPopc n x = ((List.range n).filter (fun k => x.testBit k)).length := by
  simp only [uPopc, bit_eq_testBit]

/-- `takeWhile` of a range stops at the first index at which the property fails. -/
theorem takeWhile_range (p : Nat → Bool) : ∀ n, ∃ c, c ≤ n ∧ (List.range n).takeWhile p = List.range c ∧
    (∀ k, k < c → p k = true) ∧ (c < n → p c = false)
  | 0 => ⟨0, Nat.le_refl _, rfl, fun _ h => absurd h (Nat.not_lt_zero _), fun h => absurd h (Nat.not_lt_zero _)⟩
  | n + 1 => by
    obtain ⟨c, hc, he, hp, hn⟩ := takeWhile_range p n
    rcases Nat.lt_or_eq_of_le hc with h | rfl
    · refine ⟨c, by omega, ?_, hp, fun _ => hn h⟩
      rw [List.range_succ, List.takeWhile_append, he, if_neg (by simp; omega)]
    · rw [List.range_succ, List.takeWhile_append, he, if_pos rfl, List.takeWhile_cons, List.takeWhile_nil]
      by_cases hq : p c = true
      · refine ⟨c + 1, Nat.le_refl _, by rw [if_pos hq, List.range_succ], fun k hk => ?_, fun h => absurd h (Nat.lt_irrefl _)⟩
        rcases Nat.lt_succ_iff_lt_or_eq.1 hk with h | rfl
        · exact hp k h
        · exact hq
      · exact ⟨c, Nat.le_succ _, by rw [if_neg hq, List.append_nil], hp, fun _ => by simpa using hq⟩

/-- The leading zeros of a value of `n` bits. -/
theorem uClz_spec (hx : x < 2 ^ n) : uClz n x ≤ n ∧ x < 2 ^ (n - uClz n x) ∧
    if x = 0 then uClz n x = n else 2 ^ (n - uClz n x) ≤ 2 * x := by
  obtain ⟨c, hc, he, hp, hn⟩ := takeWhile_range (fun k => !bit x (n - 1 - k)) n
  have hcl : uClz n x = c := by rw [uClz, he, List.length_range]
  rw [hcl]
  have hlt : x < 2 ^ (n - c) := by
    refine Nat.lt_pow_two_of_testBit _ (fun i hi => ?_)
    by_cases h : i < n
    · have := hp (n - 1 - i) (by omega)
      rw [show n - 1 - (n - 1 - i) = i by omega, bit_eq_testBit] at this
      simpa using this
    · exact Nat.testBit_lt_two_pow (Nat.lt_of_lt_of_le hx (Nat.pow_le_pow_right (by decide) (Nat.le_of_not_lt h)))
  refine ⟨hc, hlt, ?_⟩
  split
  · next h0 =>
    refine Decidable.byContradiction fun hne => ?_
    have := hn (by omega)
    rw [h0] at this
    simp [bit] at this
  · next h0 =>
    rcases Nat.lt_or_eq_of_le hc with h | rfl
    · have := hn h
      rw [Bool.not_eq_false', bit_eq_testBit] at this
      have hge := Nat.ge_two_pow_of_testBit this
      rw [show n - c = n - 1 - c + 1 by omega, Nat.pow_succ]
      omega
    · simp at hlt
      exact absurd hlt h0

/-! ## Bit fields -/

theorem setBits_testBit {v lo w b : Nat} : (setBits v lo w x).testBit b =
    if lo ≤ b ∧ b < lo + w then x.testBit (b - lo) else v.testBit b := by
  have hhigh : 2 ^ lo * (2 ^ w * (v / 2 ^ (lo + w))) = v / 2 ^ (lo + w) * 2 ^ (lo + w) := by
    rw [Nat.pow_add, ← Nat.mul_assoc, Nat.mul_comm]
  have hsplit : v - bits v lo w * 2 ^ lo = v % 2 ^ lo + v / 2 ^ (lo + w) * 2 ^ (lo + w) := by
    have h1 := Nat.div_add_mod v (2 ^ lo)
    have h2 := Nat.div_add_mod (v / 2 ^ lo) (2 ^ w)
    rw [Nat.div_div_eq_div_mul, ← Nat.pow_add] at h2
    unfold bits
    have h3 : v = 2 ^ lo * (2 ^ w * (v / 2 ^ (lo + w)) + v / 2 ^ lo % 2 ^ w) + v % 2 ^ lo := by rw [h2, h1]
    have h4 : v / 2 ^ lo % 2 ^ w * 2 ^ lo = 2 ^ lo * (v / 2 ^ lo % 2 ^ w) := Nat.mul_comm _ _
    rw [Nat.mul_add, hhigh] at h3
    omega
  have hsum : setBits v lo w x = 2 ^ lo * (2 ^ w * (v / 2 ^ (lo + w)) + x % 2 ^ w) + v % 2 ^ lo := by
    unfold setBits
    rw [hsplit, Nat.mul_add, hhigh, Nat.mul_comm (2 ^ lo) (x % 2 ^ w)]
    omega
  rw [hsum, Nat.testBit_two_pow_mul_add _ (Nat.mod_lt _ (Nat.two_pow_pos _)), Nat.testBit_mod_two_pow]
  by_cases h1 : b < lo
  · rw [if_pos h1, if_neg (by omega)]
    simp [h1]
  · rw [if_neg h1, Nat.testBit_two_pow_mul_add _ (Nat.mod_lt _ (Nat.two_pow_pos _)), Nat.testBit_mod_two_pow, Nat.testBit_div_two_pow]
    by_cases h2 : b - lo < w
    · rw [if_pos h2, if_pos (by omega)]
      simp [h2]
    · rw [if_neg h2, if_neg (by omega)]
      congr 1
      omega

/-! ## The ones'-complement sum -/

/-- Folding keeps the value modulo 65,535, keeps a sum from becoming zero, and ends below 2^16 after enough turns. -/
theorem fold16_spec : ∀ f x, fold16 f x % 65535 = x % 65535 ∧ (fold16 f x = 0 ↔ x = 0)
  | 0, _ => ⟨rfl, Iff.rfl⟩
  | f + 1, x => by
    unfold fold16
    split
    · exact ⟨rfl, Iff.rfl⟩
    · obtain ⟨h1, h2⟩ := fold16_spec f (x / 65536 + x % 65536)
      exact ⟨by rw [h1]; omega, by rw [h2]; omega⟩

theorem fold16_lt {f : Nat} (hx : x < 2 ^ 20) : fold16 (f + 2) x < 65536 := by
  unfold fold16
  split
  · assumption
  · unfold fold16
    split
    · assumption
    · cases f with
      | zero => show _ < 65536; unfold fold16; omega
      | succ f => unfold fold16; split <;> omega

/-! ## Compares -/

theorem cmpCond_eq {c : Nat} (X Y : BitVec n) (hn : 0 < n) (hc : c < 8) : cmpCond c n X.toNat Y.toNat =
    [X == Y, X != Y, X.slt Y, Y.sle X, X.ult Y, Y.ule X, (X &&& Y) != 0#n, (X &&& Y) == 0#n].getD c false := by
  have hp : 2 ^ n = 2 * 2 ^ (n - 1) := by rw [← Nat.pow_succ', Nat.succ_eq_add_one, Nat.sub_add_cancel hn]
  have hX := X.isLt
  have hY := Y.isLt
  have hflip : ∀ Z : BitVec n, (flipSign n Z.toNat : Int) = Z.toInt + 2 ^ (n - 1) := by
    intro Z
    have hZ := Z.isLt
    rw [BitVec.toInt_eq_toNat_cond]
    unfold flipSign
    have hc : ((2 : Nat) ^ (n - 1) : Nat) = ((2 : Int) ^ (n - 1)) := by push_cast; rfl
    have hc' : (((2 : Nat) ^ n : Nat) : Int) = 2 * (2 : Int) ^ (n - 1) := by rw [hp]; push_cast; rfl
    split <;> split <;> omega
  have heq : (X == Y) = (X.toNat == Y.toNat) := by
    rw [Bool.eq_iff_iff]
    simp [BitVec.toNat_inj]
  have hand : ((X &&& Y) == 0#n) = ((X.toNat &&& Y.toNat) == 0) := by
    rw [Bool.eq_iff_iff]
    simp [← BitVec.toNat_inj]
  have hx := hflip X
  have hy := hflip Y
  match c, hc with
  | 0, _ => exact heq.symm
  | 1, _ => show (X.toNat != Y.toNat) = (X != Y); rw [bne, bne, heq]
  | 2, _ =>
    show decide (flipSign n X.toNat < flipSign n Y.toNat) = X.slt Y
    rw [BitVec.slt]
    exact decide_eq_decide.2 (by omega)
  | 3, _ =>
    show decide (flipSign n Y.toNat ≤ flipSign n X.toNat) = Y.sle X
    rw [BitVec.sle]
    exact decide_eq_decide.2 (by omega)
  | 4, _ => rfl
  | 5, _ => rfl
  | 6, _ => show ((X.toNat &&& Y.toNat) != 0) = ((X &&& Y) != 0#n); rw [bne, bne, hand]
  | 7, _ => exact hand.symm

/-! ## Bytes -/

theorem leBytes_length : ∀ n v, (leBytes n v).length = n
  | 0, _ => rfl
  | n + 1, v => by rw [leBytes, List.length_cons, leBytes_length n]

theorem leBytes_getElem : ∀ n v k (h : k < (leBytes n v).length), (leBytes n v)[k] = BitVec.ofNat 8 (v / 2 ^ (8 * k))
  | n + 1, v, 0, _ => by simp [leBytes]
  | n + 1, v, k + 1, h => by
    have h' : k < (leBytes n (v / 256)).length := by simpa [leBytes] using h
    have := leBytes_getElem n (v / 256) k h'
    simp only [leBytes, List.getElem_cons_succ]
    rw [this, Nat.div_div_eq_div_mul, show 2 ^ (8 * (k + 1)) = 256 * 2 ^ (8 * k) by rw [Nat.mul_succ, Nat.pow_add]; omega]

theorem leNat_lt : ∀ bs : List Byte, leNat bs < 2 ^ (8 * bs.length)
  | [] => by decide
  | b :: bs => by
    have h1 := b.isLt
    have h2 := leNat_lt bs
    rw [leNat, List.length_cons, Nat.mul_add, Nat.pow_add]
    omega

end Sys2Proof.Proofs
end

section
/-! PROOFS. The arithmetic, bit-field and compare instructions of Niris (spec/05_niris_isa.md, Tables NI-5 and NI-6). -/

namespace Sys2Proof.Proofs

open Sys2Proof Sys2Proof.Machine Sys2Proof.Machine.Reg Sys2Proof.Laws

variable {s v : State} {t d r op : Nat} {c : Instr} {sem : Nat → Nat → State → State}

/-! ## A slot that executes an instruction -/

theorem runs_op (h : s.runs t op = true) : iOp (s.insn t) = op := by
  unfold State.runs at h
  simp only [Bool.and_eq_true, beq_iff_eq] at h
  exact h.1.1.2

/-- The word that a running slot executes is legal. -/
theorem runs_insnOk (h : s.runs t op = true) : insnOk (isSup t) (s.insn t) = true := by
  unfold State.runs State.slotFirst at h
  simp only [Bool.and_eq_true, Bool.not_eq_true', Bool.or_eq_false_iff, Bool.not_eq_false'] at h
  exact h.1.1.1.2.2

/-- A command whose meaning is the slot of an opcode does the instruction's effect where that slot executes it. -/
theorem exec_slot (he : exec c s = .next (s.slot t op false sem)) (hr : s.runs t op = true) :
    exec c s = .next ((sem t (s.insn t) (s.slotPass t)).slotEnd t) := by
  rw [he, slot_effect hr]

/-- An instruction whose effect is a register result. -/
theorem exec_result (hs : SM.sorted s.fld = true) (he : exec c s = .next (s.slot t op false sem)) (hr : s.runs t op = true)
    (hsem : sem t (s.insn t) (s.slotPass t) = ((s.slotPass t).tput t d r).retire t) :
    ∃ v : State, exec c s = .next (v.slotEnd t) ∧ v.tg t d = (if d = 0 then 0 else r % 2 ^ 64) ∧ s.onlyWrites v t d := by
  obtain ⟨h1, h2⟩ := result_onlyWrites (t := t) (d := d) (r := r) hs
  exact ⟨_, by rw [exec_slot he hr, hsem], h1, h2⟩

theorem slotPass_flag (hs : SM.sorted s.fld = true) {g : Fld} {j : Nat} (hg : offSlot g = true) :
    (s.slotPass t).flag g j = s.flag g j :=
  flag_of_spares (slotPass_spares .refl hg) hs

theorem slotPass_get (hs : SM.sorted s.fld = true) {g : Fld} {j : Nat} (hg : offSlot g = true) :
    (s.slotPass t).get g j = s.get g j :=
  (slotPass_spares .refl hg hs).2

/-! ## ADD to MULI -/

/-- A two-operand instruction brings its result, cut to its width. -/
theorem exec_alu {f : Nat → Nat → Nat → Nat} {im : Bool} {y : Nat} (hs : SM.sorted s.fld = true)
    (he : exec c s = .next (s.slot t op false (State.alu f im))) (hr : s.runs t op = true)
    (hy : y = if im then (if iMod (s.insn t) = 4 then iImm (s.insn t) * 2 ^ 32 else iSx (s.insn t)) else s.tg t (iS2 (s.insn t)))
    (hf : f (widthOf (iMod (s.insn t))) (s.tg t (iS1 (s.insn t)) % 2 ^ widthOf (iMod (s.insn t)))
      (y % 2 ^ widthOf (iMod (s.insn t))) % 2 ^ widthOf (iMod (s.insn t)) = r % 2 ^ widthOf (iMod (s.insn t))) :
    ∃ v : State, exec c s = .next (v.slotEnd t) ∧
      v.tg t (iDst (s.insn t)) = (if iDst (s.insn t) = 0 then 0 else r % 2 ^ widthOf (iMod (s.insn t))) ∧
      s.onlyWrites v t (iDst (s.insn t)) := by
  have hsem : State.alu f im t (s.insn t) (s.slotPass t) =
      ((s.slotPass t).tput t (iDst (s.insn t)) (r % 2 ^ widthOf (iMod (s.insn t)))).retire t := by
    unfold State.alu
    dsimp only
    rw [slotPass_tg hs, slotPass_tg hs, ← hy, hf]
  obtain ⟨v, h1, h2, h3⟩ := exec_result hs he hr hsem
  exact ⟨v, h1, by rw [h2, mod_width_mod], h3⟩

/-- Settles O27: each row computes its function of the operands within the width. -/
theorem aluInstructionsCompute : Obligations.AluInstructionsCompute := by
  unfold Obligations.AluInstructionsCompute
  intro t s w n x y z hwf hw hn hx hy hz c op r hmem hr
  subst hw
  have hs := wf_sorted hwf
  have hpos : 0 < n := hn ▸ widthOf_pos _
  have hxn : x < 2 ^ n := hx ▸ Nat.mod_lt _ (Nat.two_pow_pos _)
  subst hn
  simp only [List.mem_cons, List.not_mem_nil, or_false, Prod.mk.injEq] at hmem
  rcases hmem with ⟨rfl, rfl, rfl⟩ | ⟨rfl, rfl, rfl⟩ | ⟨rfl, rfl, rfl⟩ | ⟨rfl, rfl, rfl⟩ | ⟨rfl, rfl, rfl⟩ | ⟨rfl, rfl, rfl⟩ |
    ⟨rfl, rfl, rfl⟩ | ⟨rfl, rfl, rfl⟩ | ⟨rfl, rfl, rfl⟩ | ⟨rfl, rfl, rfl⟩ | ⟨rfl, rfl, rfl⟩ | ⟨rfl, rfl, rfl⟩ |
    ⟨rfl, rfl, rfl⟩ | ⟨rfl, rfl, rfl⟩ | ⟨rfl, rfl, rfl⟩ | ⟨rfl, rfl, rfl⟩ | ⟨rfl, rfl, rfl⟩ | ⟨rfl, rfl, rfl⟩ |
    ⟨rfl, rfl, rfl⟩ | ⟨rfl, rfl, rfl⟩
  · exact exec_alu (f := aAdd) (im := false) (y := s.tg t (iS2 (s.insn t))) hs rfl hr rfl (by rw [← hx, ← hy]; rfl)
  · exact exec_alu (f := aAdd) (im := true) hs rfl hr rfl (by rw [← hx, if_pos rfl, ← hz]; rfl)
  · exact exec_alu (f := aSub) (im := false) (y := s.tg t (iS2 (s.insn t))) hs rfl hr rfl (by rw [← hx, ← hy]; rfl)
  · exact exec_alu (f := aSub) (im := true) hs rfl hr rfl (by rw [← hx, if_pos rfl, ← hz]; rfl)
  · exact exec_alu (f := aAnd) (im := false) (y := s.tg t (iS2 (s.insn t))) hs rfl hr rfl (by rw [← hx, ← hy]; rfl)
  · exact exec_alu (f := aAnd) (im := true) hs rfl hr rfl (by rw [← hx, if_pos rfl, ← hz]; rfl)
  · exact exec_alu (f := aOr) (im := false) (y := s.tg t (iS2 (s.insn t))) hs rfl hr rfl (by rw [← hx, ← hy]; rfl)
  · exact exec_alu (f := aOr) (im := true) hs rfl hr rfl (by rw [← hx, if_pos rfl, ← hz]; rfl)
  · exact exec_alu (f := aXor) (im := false) (y := s.tg t (iS2 (s.insn t))) hs rfl hr rfl (by rw [← hx, ← hy]; rfl)
  · exact exec_alu (f := aXor) (im := true) hs rfl hr rfl (by rw [← hx, if_pos rfl, ← hz]; rfl)
  · exact exec_alu (f := aShl) (im := false) (y := s.tg t (iS2 (s.insn t))) hs rfl hr rfl (by rw [← hx, ← hy]; rfl)
  · exact exec_alu (f := aShl) (im := true) hs rfl hr rfl (by rw [← hx, if_pos rfl, ← hz]; rfl)
  · exact exec_alu (f := aShr) (im := false) (y := s.tg t (iS2 (s.insn t))) hs rfl hr rfl (by rw [← hx, ← hy]; rfl)
  · exact exec_alu (f := aShr) (im := true) hs rfl hr rfl (by rw [← hx, if_pos rfl, ← hz]; rfl)
  · exact exec_alu (f := aSar) (im := false) (y := s.tg t (iS2 (s.insn t))) hs rfl hr rfl (by rw [← hx, ← hy, aSar_eq hxn hpos])
  · exact exec_alu (f := aSar) (im := true) hs rfl hr rfl (by rw [← hx, if_pos rfl, ← hz, aSar_eq hxn hpos])
  · exact exec_alu (f := aRot) (im := false) (y := s.tg t (iS2 (s.insn t))) hs rfl hr rfl
      (by rw [← hx, ← hy, aRot_eq hxn hpos, Nat.mod_eq_of_lt (BitVec.isLt _)])
  · exact exec_alu (f := aRot) (im := true) hs rfl hr rfl
      (by rw [← hx, if_pos rfl, ← hz, aRot_eq hxn hpos, Nat.mod_eq_of_lt (BitVec.isLt _)])
  · exact exec_alu (f := aMul) (im := false) (y := s.tg t (iS2 (s.insn t))) hs rfl hr rfl (by rw [← hx, ← hy]; rfl)
  · exact exec_alu (f := aMul) (im := true) hs rfl hr rfl (by rw [← hx, if_pos rfl, ← hz]; rfl)

/-! ## SEL to CSUM -/

/-- The length of a legal EXT or INS is 1 to 64. -/
theorem fieldLen_of_insnOk {sup : Bool} {w : Nat} (h : insnOk sup w = true) (ho : iOp w = 0x28 ∨ iOp w = 0x29) :
    bits w 6 7 ≠ 0 ∧ bits w 0 6 + bits w 6 7 ≤ 64 := by
  unfold insnOk at h
  split at h
  · cases h
  · simp only [Bool.and_eq_true, if_pos ho, decide_eq_true_eq] at h
    exact h.2

theorem bits_lt {x lo w : Nat} : bits x lo w < 2 ^ w := Nat.mod_lt _ (Nat.two_pow_pos _)

theorem bits_zero {x w : Nat} : bits x 0 w = x % 2 ^ w := by rw [bits, Nat.pow_zero, Nat.div_one]

/-- What EXT brings, as a bit vector of the field. -/
theorem ext_value {x pos len : Nat} (h0 : len ≠ 0) (h64 : pos + len ≤ 64) :
    signExt len (bits x pos len) % 2 ^ 64 = ((BitVec.ofNat len (x / 2 ^ pos)).signExtend 64).toNat := by
  rw [signExt_eq bits_lt (Nat.pos_of_ne_zero h0) (by omega)]
  congr 2
  exact BitVec.eq_of_toNat_eq (by simp [bits])

/-- EXT's result, signed or not. -/
theorem extResult_mod {m x pos len : Nat} (h0 : len ≠ 0) (h64 : pos + len ≤ 64) :
    (if m = 1 then signExt len (bits x pos len) else bits x pos len) % 2 ^ 64 =
      (if m = 1 then ((BitVec.ofNat len (x / 2 ^ pos)).signExtend 64).toNat else x / 2 ^ pos % 2 ^ len) % 2 ^ 64 := by
  split
  · rw [ext_value h0 h64, Nat.mod_eq_of_lt (BitVec.isLt _)]
  · rw [bits]

/-- Each result of the rows SEL to BSWAP. -/
theorem bitField_results (hs : SM.sorted s.fld = true) {n x : Nat} (hn : n = widthOf (iMod (s.insn t)))
    (hx : x = s.tg t (iS1 (s.insn t)) % 2 ^ n)
    (hmem : (c, op, r) ∈
      ([(.sel t false, 0x26, if s.get TH_c (8 * t + iMod (s.insn t)) = 1 then s.tg t (iS1 (s.insn t)) else s.tg t (iS2 (s.insn t))),
        (.seli t false, 0x27, if s.get TH_c (8 * t + iMod (s.insn t)) = 1 then s.tg t (iS1 (s.insn t)) else iSx (s.insn t)),
        (.ext t false, 0x28, if iMod (s.insn t) = 1
          then ((BitVec.ofNat (s.insn t / 2 ^ 6 % 2 ^ 7) (s.tg t (iS1 (s.insn t)) / 2 ^ (s.insn t % 2 ^ 6))).signExtend 64).toNat
          else s.tg t (iS1 (s.insn t)) / 2 ^ (s.insn t % 2 ^ 6) % 2 ^ (s.insn t / 2 ^ 6 % 2 ^ 7)),
        (.popc t false, 0x2A, ((List.range n).filter (fun k => x.testBit k)).length),
        (.bswap t false, 0x2C, leNat (leBytes (n / 8) x).reverse)] : List (Instr × Nat × Nat)))
    (hr : s.runs t op = true) :
    ∃ v : State, exec c s = .next (v.slotEnd t) ∧
      v.tg t (iDst (s.insn t)) = (if iDst (s.insn t) = 0 then 0 else r % 2 ^ 64) ∧ s.onlyWrites v t (iDst (s.insn t)) := by
  have hflag : (s.slotPass t).flag TH_c (8 * t + iMod (s.insn t)) = (s.get TH_c (8 * t + iMod (s.insn t)) == 1) :=
    slotPass_flag hs (by decide)
  simp only [List.mem_cons, List.not_mem_nil, or_false, Prod.mk.injEq] at hmem
  rcases hmem with ⟨rfl, rfl, rfl⟩ | ⟨rfl, rfl, rfl⟩ | ⟨rfl, rfl, rfl⟩ | ⟨rfl, rfl, rfl⟩ | ⟨rfl, rfl, rfl⟩
  · refine exec_result hs (sem := State.selOp false) rfl hr ?_
    unfold State.selOp
    simp only [hflag, slotPass_tg hs, Bool.false_eq_true, if_false, beq_iff_eq]
  · refine exec_result hs (sem := State.selOp true) rfl hr ?_
    unfold State.selOp
    simp only [hflag, slotPass_tg hs, if_true, beq_iff_eq]
  · obtain ⟨h0, h64⟩ := fieldLen_of_insnOk (runs_insnOk hr) (.inl (runs_op hr))
    have hsem : semExt t (s.insn t) (s.slotPass t) = ((s.slotPass t).tput t (iDst (s.insn t)) (if iMod (s.insn t) = 1 then
        signExt (bits (s.insn t) 6 7) (bits (s.tg t (iS1 (s.insn t))) (bits (s.insn t) 0 6) (bits (s.insn t) 6 7)) else
        bits (s.tg t (iS1 (s.insn t))) (bits (s.insn t) 0 6) (bits (s.insn t) 6 7))).retire t := by
      unfold semExt
      rw [slotPass_tg hs]
    obtain ⟨v, h1, h2, h3⟩ := exec_result (c := .ext t false) hs (sem := semExt) rfl hr hsem
    refine ⟨v, h1, ?_, h3⟩
    rw [h2, extResult_mod h0 h64, bits_zero, show bits (s.insn t) 6 7 = s.insn t / 2 ^ 6 % 2 ^ 7 from rfl]
  · refine exec_result hs (sem := State.unary uPopc) rfl hr ?_
    unfold State.unary
    dsimp only
    rw [slotPass_tg hs, ← hn, ← hx, uPopc_eq]
  · refine exec_result hs (sem := State.unary uBswap) rfl hr ?_
    unfold State.unary
    dsimp only
    rw [slotPass_tg hs, ← hn, ← hx]
    rfl

/-- CSUM's sum before folding: below 2^20, and zero only when every halfword is. -/
theorem csumRaw_spec {m x y : Nat} : csumRaw (widthOf m) x y < 2 ^ 20 ∧
    (csumRaw (widthOf m) x y = 0 ↔ x % 2 ^ 16 = 0 ∧ ∀ k, k < widthOf m / 16 → y / 2 ^ (16 * k) % 2 ^ 16 = 0) := by
  have hb : ∀ l : List Nat, (l.map (fun k => bits y (16 * k) 16)).sum ≤ l.length * 65535 := by
    intro l
    induction l with
    | nil => simp
    | cons k l ih =>
      have := bits_lt (x := y) (lo := 16 * k) (w := 16)
      simp only [List.map_cons, List.sum_cons, List.length_cons]
      omega
  have hlen := hb (List.range (widthOf m / 16))
  have hw := widthOf_le m
  rw [List.length_range] at hlen
  unfold csumRaw
  refine ⟨?_, ?_⟩
  · have : widthOf m / 16 * 65535 ≤ 4 * 65535 := Nat.mul_le_mul_right _ (by omega)
    omega
  · rw [Nat.add_eq_zero_iff, List.sum_eq_zero_iff_forall_eq_nat]
    simp only [List.mem_map, List.mem_range, forall_exists_index, and_imp]
    exact and_congr Iff.rfl ⟨fun h k hk => h _ k hk rfl, fun h a k hk e => e ▸ h k hk⟩

/-- A value is zero within a width when all its halfwords are. -/
theorem halfwords_zero {y : Nat} : ∀ n, (∀ k, k < n → y / 2 ^ (16 * k) % 2 ^ 16 = 0) ↔ y % 2 ^ (16 * n) = 0
  | 0 => by simp [Nat.mod_one]
  | n + 1 => by
    have hp : 2 ^ (16 * (n + 1)) = 2 ^ (16 * n) * 2 ^ 16 := by rw [Nat.mul_add, Nat.pow_add]
    have hpos := Nat.two_pow_pos (16 * n)
    rw [hp, Nat.mod_mul, Nat.add_eq_zero_iff, Nat.mul_eq_zero, ← halfwords_zero n]
    refine ⟨fun h => ⟨fun k hk => h k (by omega), .inr (h n (by omega))⟩, fun ⟨h1, h2⟩ k hk => ?_⟩
    rcases Nat.lt_succ_iff_lt_or_eq.1 hk with e | rfl
    · exact h1 k e
    · exact h2.resolve_left (by omega)

/-- A halfword of a value cut to a width that holds it. -/
theorem halfword_mod {y n k : Nat} (hk : 16 * (k + 1) ≤ n) : y % 2 ^ n / 2 ^ (16 * k) % 2 ^ 16 = y / 2 ^ (16 * k) % 2 ^ 16 := by
  apply Nat.eq_of_testBit_eq
  intro i
  simp only [Nat.testBit_mod_two_pow, Nat.testBit_div_two_pow]
  by_cases h : i < 16
  · rw [decide_eq_true (show i + 16 * k < n by omega), Bool.true_and]
  · simp [h]

/-- The widths of CSUM are whole halfwords. -/
theorem csumWidth {sup : Bool} {w : Nat} (h : insnOk sup w = true) (ho : iOp w = 0x2D) : 16 * (widthOf (iMod w) / 16) = widthOf (iMod w) := by
  have hm : iMod w < 3 := by
    refine Decidable.byContradiction fun hc => ?_
    simp [insnOk, insnForm, ho, hc] at h
  unfold widthOf
  split
  · rfl
  · split
    · rfl
    · rw [if_neg (by omega)]

/-- Settles O28: the results of SEL to BSWAP, the field that INS replaces, the leading zeros and the folded sum. -/
theorem bitFieldInstructionsCompute : Obligations.BitFieldInstructionsCompute := by
  unfold Obligations.BitFieldInstructionsCompute
  intro t s w n x hwf hw hn hx
  subst hw
  have hs := wf_sorted hwf
  refine ⟨fun c op r hmem hr => bitField_results hs hn hx hmem hr, fun hr => ?_, fun hr => ?_, fun hr => ?_⟩
  · have hsem : semIns t (s.insn t) (s.slotPass t) = ((s.slotPass t).tput t (iDst (s.insn t)) (setBits (s.tg t (iDst (s.insn t)))
        (bits (s.insn t) 0 6) (bits (s.insn t) 6 7) (s.tg t (iS1 (s.insn t))))).retire t := by
      unfold semIns
      rw [slotPass_tg hs, slotPass_tg hs]
    obtain ⟨v, h1, h2, h3⟩ := exec_result (c := .ins t false) hs (sem := semIns) rfl hr hsem
    refine ⟨v, h1, h3, fun hd b hb => ?_⟩
    rw [h2, if_neg hd, Nat.testBit_mod_two_pow, decide_eq_true hb, Bool.true_and, setBits_testBit, bits_zero]
    rfl
  · have hsem : State.unary uClz t (s.insn t) (s.slotPass t) = ((s.slotPass t).tput t (iDst (s.insn t)) (uClz n x)).retire t := by
      unfold State.unary
      dsimp only
      rw [slotPass_tg hs, ← hn, ← hx]
    obtain ⟨v, h1, h2, h3⟩ := exec_result (c := .clz t false) hs (sem := State.unary uClz) rfl hr hsem
    have hc := uClz_spec (n := n) (x := x) (hx ▸ Nat.mod_lt _ (Nat.two_pow_pos _))
    have hle : n ≤ 64 := hn ▸ widthOf_le _
    refine ⟨v, h1, h3, fun hd => ?_⟩
    rw [h2, if_neg hd, Nat.mod_eq_of_lt (Nat.lt_of_le_of_lt (Nat.le_trans hc.1 hle) (by decide))]
    exact hc
  · have hsem : semCsum t (s.insn t) (s.slotPass t) = ((s.slotPass t).tput t (iDst (s.insn t))
        (fold16 8 (csumRaw n x (s.tg t (iS2 (s.insn t)) % 2 ^ n)))).retire t := by
      unfold semCsum
      dsimp only
      rw [slotPass_tg hs, slotPass_tg hs, ← hn, ← hx]
    obtain ⟨v, h1, h2, h3⟩ := exec_result (c := .csum t false) hs (sem := semCsum) rfl hr hsem
    have h16 : 16 * (n / 16) = n := hn ▸ csumWidth (runs_insnOk hr) (runs_op hr)
    have hx16 : x % 2 ^ 16 = s.tg t (iS1 (s.insn t)) % 2 ^ 16 := by
      have hpos : 16 ≤ n := by
        have := widthOf_pos (iMod (s.insn t))
        omega
      rw [hx, Nat.mod_mod_of_dvd _ (Nat.pow_dvd_pow 2 hpos)]
    have hlt : fold16 8 (csumRaw n x (s.tg t (iS2 (s.insn t)) % 2 ^ n)) < 65536 := fold16_lt (hn ▸ csumRaw_spec.1)
    obtain ⟨hmod, hzero⟩ := fold16_spec 8 (csumRaw n x (s.tg t (iS2 (s.insn t)) % 2 ^ n))
    refine ⟨v, h1, h3, fun hd => ?_⟩
    rw [h2, if_neg hd, Nat.mod_eq_of_lt (Nat.lt_of_lt_of_le hlt (by decide))]
    refine ⟨hlt, ?_, ?_⟩
    · rw [hmod]
      have hsum : csumRaw n x (s.tg t (iS2 (s.insn t)) % 2 ^ n) = s.tg t (iS1 (s.insn t)) % 2 ^ 16 +
          ((List.range (n / 16)).map (fun k => s.tg t (iS2 (s.insn t)) / 2 ^ (16 * k) % 2 ^ 16)).sum := by
        unfold csumRaw
        rw [show x % 65536 = _ from hx16]
        congr 2
        refine List.map_congr_left (fun k hk => halfword_mod ?_)
        have := List.mem_range.1 hk
        omega
      rw [hsum]
    · rw [hzero, show csumRaw n x _ = 0 ↔ _ from hn ▸ csumRaw_spec.2, hx16, halfwords_zero, h16, Nat.mod_mod]

/-! ## CMP and CMPI -/

/-- A compare of `s.tg t s1` with a second operand. -/
theorem exec_compare {im : Bool} {y : Nat} (hs : SM.sorted s.fld = true)
    (he : exec c s = .next (s.slot t op false (State.compare im))) (hr : s.runs t op = true)
    (hy : y = if im then iSx (s.insn t) else s.tg t (iS2 (s.insn t))) :
    ∃ v : State, exec c s = .next (v.slotEnd t) ∧
      v.get TH_pc t = (s.get TH_pc t + 1) % 2 ^ 15 ∧ s.keepsRegs v t 0 ∧ s.keepsRest v ∧ v.mem = s.mem ∧
      (∀ j, j ≠ 8 * t + iDst (s.insn t) % 8 → v.get TH_c j = s.get TH_c j) ∧
      v.flag TH_c (8 * t + iDst (s.insn t) % 8) = cmpCond (iMod (s.insn t)) (widthOf (iDst (s.insn t) / 8))
        (s.tg t (iS1 (s.insn t)) % 2 ^ widthOf (iDst (s.insn t) / 8)) (y % 2 ^ widthOf (iDst (s.insn t) / 8)) := by
  generalize hb : cmpCond (iMod (s.insn t)) (widthOf (iDst (s.insn t) / 8))
    (s.tg t (iS1 (s.insn t)) % 2 ^ widthOf (iDst (s.insn t) / 8)) (y % 2 ^ widthOf (iDst (s.insn t) / 8)) = b
  have hsem : State.compare im t (s.insn t) (s.slotPass t) = ((s.slotPass t).put TH_c (8 * t + iDst (s.insn t) % 8) b).retire t := by
    unfold State.compare
    dsimp only
    rw [slotPass_tg hs, slotPass_tg hs, ← hy, hb]
  have hp := slotPass_sorted (t := t) hs
  have hc : SM.sorted ((s.slotPass t).put TH_c (8 * t + iDst (s.insn t) % 8) b).fld = true := set_sorted hp
  have hkeep : ∀ {g : Fld} {j : Nat}, offSlot g = true → g.id % 4096 ≠ TH_c.id % 4096 →
      (((s.slotPass t).put TH_c (8 * t + iDst (s.insn t) % 8) b).retire t).get g j = s.get g j := fun h1 h2 =>
    ((retire_spares (Spares.put (slotPass_spares .refl h1) h2) h1) hs).2
  have hflag : ∀ j, (((s.slotPass t).put TH_c (8 * t + iDst (s.insn t) % 8) b).retire t).get TH_c j =
      ((s.slotPass t).put TH_c (8 * t + iDst (s.insn t) % 8) b).get TH_c j := fun j => (retire_spares .refl (by decide) hc).2
  have hf : FieldsOnly s (((s.slotPass t).put TH_c (8 * t + iDst (s.insn t) % 8) b).retire t) :=
    retire_fieldsOnly (slotPass_fieldsOnly .refl).put
  refine ⟨_, by rw [exec_slot he hr, hsem], ?_, fun j _ => hkeep (by decide) (by decide), ⟨fun j => hkeep (by decide) (by decide),
    fun j => hkeep (by decide) (by decide), fun j => hkeep (by decide) (by decide), fun j => hkeep (by decide) (by decide), by rw [hf]⟩,
    by rw [hf], fun j hj => ?_, ?_⟩
  · rw [retire_pc hc]
    exact congrArg (fun n => (n + 1) % 2 ^ 15) ((get_set_ne hp (by decide)).trans (slotPass_pc hs))
  · rw [hflag]
    exact (get_set_other hp (by unfold fkey; omega)).trans (slotPass_get hs (by decide))
  · unfold State.flag
    rw [hflag]
    exact flag_put_same hp (by decide)

/-- The flag that a compare sets, on bit vectors of the width. -/
theorem exec_compare_value {n y : Nat} {im : Bool} {X Y : BitVec n} (hs : SM.sorted s.fld = true)
    (he : exec c s = .next (s.slot t op false (State.compare im))) (hr : s.runs t op = true)
    (hy : y = if im then iSx (s.insn t) else s.tg t (iS2 (s.insn t))) (hn : n = widthOf (iDst (s.insn t) / 8))
    (hX : X = BitVec.ofNat n (s.tg t (iS1 (s.insn t)))) (hY : Y = BitVec.ofNat n y) :
    ∃ v : State, exec c s = .next (v.slotEnd t) ∧
      v.get TH_pc t = (s.get TH_pc t + 1) % 2 ^ 15 ∧ s.keepsRegs v t 0 ∧ s.keepsRest v ∧ v.mem = s.mem ∧
      (∀ j, j ≠ 8 * t + iDst (s.insn t) % 8 → v.get TH_c j = s.get TH_c j) ∧
      v.flag TH_c (8 * t + iDst (s.insn t) % 8) = [X == Y, X != Y, X.slt Y, Y.sle X, X.ult Y, Y.ule X, (X &&& Y) != 0#n, (X &&& Y) == 0#n].getD
          (iMod (s.insn t)) false := by
  obtain ⟨v, h1, h2, h3, h4, h5, h6, h7⟩ := exec_compare hs he hr hy
  refine ⟨v, h1, h2, h3, h4, h5, h6, ?_⟩
  rw [h7, ← hn, ← cmpCond_eq X Y (hn ▸ widthOf_pos _) bits_lt, hX, hY, BitVec.toNat_ofNat, BitVec.toNat_ofNat]

/-- Settles O29: the eight conditions on bit vectors of the width. -/
theorem comparesWriteOneFlag : Obligations.ComparesWriteOneFlag := by
  unfold Obligations.ComparesWriteOneFlag
  intro t s w n x y z hwf hw hn hx hy hz c op r hmem hr
  subst hw
  have hs := wf_sorted hwf
  simp only [List.mem_cons, List.not_mem_nil, or_false, Prod.mk.injEq] at hmem
  rcases hmem with ⟨hc, ho, rfl⟩ | ⟨hc, ho, rfl⟩
  · rw [hc]
    exact exec_compare_value (im := false) hs rfl (ho ▸ hr) rfl hn hx hy
  · rw [hc]
    exact exec_compare_value (im := true) hs rfl (ho ▸ hr) (if_pos rfl).symm hn hx hz
end Sys2Proof.Proofs
end

section
/-! PROOFS. The memory instructions of Niris (spec/05_niris_isa.md, Tables NI-7 and NI-8). -/

namespace Sys2Proof.Proofs

open Sys2Proof Sys2Proof.Machine Sys2Proof.Machine.Reg Sys2Proof.Laws

variable {s u : State} {t d w a r v n : Nat} {g : Fld} {j : Nat} {c : Instr}

/-! ## What an instruction does before it retires -/

/-- Between the start of a slot at `s` and the retirement at `u`, no field has changed but general register `d` of thread
`t`, the slot counters and the hazards, and nothing has been driven. -/
structure Effect (s u : State) (t d : Nat) : Prop where
  sorted : SM.sorted u.fld = true
  pc : u.get TH_pc t = s.get TH_pc t
  regs : s.keepsRegs u t d
  rest : ∀ (g : Fld) (j : Nat), offSlot g = true → g.id % 4096 ≠ TH_g.id % 4096 → u.get g j = s.get g j
  out : u.out = s.out

theorem slotPass_effect (hs : SM.sorted s.fld = true) : Effect s (s.slotPass t) t d where
  sorted := slotPass_sorted hs
  pc := slotPass_pc hs
  regs := fun _ _ => slotPass_get hs (by decide)
  rest := fun _ _ hg _ => slotPass_get hs hg
  out := by rw [slotPass_fieldsOnly .refl]

/-- A store changes no field. -/
theorem Effect.wr {bs : List Byte} (h : Effect s u t d) : Effect s (u.wr a bs) t d := ⟨h.sorted, h.pc, h.regs, h.rest, h.out⟩

/-- A register result. -/
theorem Effect.tput (h : Effect s u t d) : Effect s (u.tput t d r) t d where
  sorted := tput_sorted h.sorted
  pc := ((tput_spares .refl (by decide)) h.sorted).2.trans h.pc
  regs := fun j hj => by
    refine Eq.trans ?_ (h.regs j hj)
    unfold State.tput
    split
    · rfl
    · exact get_set_other h.sorted (by unfold fkey; omega)
  rest := fun g j hg hne => ((tput_spares .refl hne) h.sorted).2.trans (h.rest g j hg hne)
  out := by rw [tput_fieldsOnly .refl]; exact h.out

/-- Further changes that only reach slot counters and hazards. -/
theorem Effect.counted {v : State} (h : Effect s u t d) (hpc : Spares TH_pc t u v)
    (hv : ∀ (g : Fld) (j : Nat), offSlot g = true → Spares g j u v) (hout : v.out = u.out) : Effect s v t d where
  sorted := (hpc h.sorted).1
  pc := (hpc h.sorted).2.trans h.pc
  regs := fun j hj => (hv _ _ (by decide) h.sorted).2.trans (h.regs j hj)
  rest := fun g j hg hne => (hv _ _ hg h.sorted).2.trans (h.rest g j hg hne)
  out := hout.trans h.out

/-- A retired instruction of such an effect goes on to the next one and has written register `d` at most. -/
theorem Effect.retired (h : Effect s u t d) :
    (u.retire t).get TH_pc t = (s.get TH_pc t + 1) % 2 ^ 15 ∧ s.keepsRegs (u.retire t) t d ∧ s.keepsFlags (u.retire t) ∧
      s.keepsRest (u.retire t) := by
  have hk : ∀ {g : Fld} {j : Nat}, offSlot g = true → (u.retire t).get g j = u.get g j := fun hg =>
    (retire_spares .refl hg h.sorted).2
  have ho : ∀ (g : Fld), offSlot g = true → g.id % 4096 ≠ TH_g.id % 4096 → ∀ j, (u.retire t).get g j = s.get g j :=
    fun g hg hne j => (hk hg).trans (h.rest g j hg hne)
  refine ⟨by rw [retire_pc h.sorted, h.pc], fun j hj => (hk (by decide)).trans (h.regs j hj), ho _ (by decide) (by decide),
    ho _ (by decide) (by decide), ho _ (by decide) (by decide), ho _ (by decide) (by decide), ho _ (by decide) (by decide), ?_⟩
  rw [retire_fieldsOnly (t := t) (.refl (s := u))]
  exact h.out

theorem retire_mem : (u.retire t).mem = u.mem := by rw [retire_fieldsOnly .refl]

/-- The register that a retired instruction wrote. -/
theorem retire_tg (hs : SM.sorted u.fld = true) : (u.retire t).tg t d = u.tg t d := by
  unfold State.tg
  rw [(retire_spares .refl (by decide) hs).2]

theorem tput_tg (hs : SM.sorted u.fld = true) : (u.tput t d r).tg t d = if d = 0 then 0 else r % 2 ^ 64 := by
  unfold State.tg State.tput
  split
  · rfl
  · exact get_set_same hs

/-! ## Shared results -/

theorem sharedResult_fld (g : Fld) (j : Nat) (hz : g.id % 4096 ≠ TH_hz.id % 4096) (hv : g.id % 4096 ≠ PMU_CORE_CTR_value.id % 4096)
    (ho : g.id % 4096 ≠ PMU_CORE_CFG_ovf.id % 4096) : Spares g j (u.fresh.2.tput t d r) (u.sharedResult t d r) := by
  unfold State.sharedResult
  exact Spares.ite (coreEv_spares (Spares.ite .refl (Spares.set .refl hz)) hv ho) (Spares.ite .refl (Spares.set .refl hz))

theorem sharedResult_others : u.sharedResult t d r = { u.fresh.2 with fld := (u.sharedResult t d r).fld } := by
  have hf : FieldsOnly u.fresh.2 (u.sharedResult t d r) := by
    unfold State.sharedResult
    exact FieldsOnly.ite (coreEv_fieldsOnly (FieldsOnly.ite (tput_fieldsOnly .refl) (tput_fieldsOnly .refl).set))
      (FieldsOnly.ite (tput_fieldsOnly .refl) (tput_fieldsOnly .refl).set)
  exact hf

theorem Effect.fresh (h : Effect s u t d) : Effect s u.fresh.2 t d := ⟨h.sorted, h.pc, h.regs, h.rest, h.out⟩

theorem Effect.sharedResult (h : Effect s u t d) : Effect s (u.sharedResult t d r) t d :=
  (h.fresh.tput (r := r)).counted (sharedResult_fld _ _ (by decide) (by decide) (by decide))
    (fun g j hg => sharedResult_fld g j (offSlot_ne hg (by decide)) (offSlot_ne hg (by decide)) (offSlot_ne hg (by decide)))
    (by rw [sharedResult_others, tput_fieldsOnly (.refl (s := u.fresh.2))])

theorem sharedResult_tg (hs : SM.sorted u.fld = true) : (u.sharedResult t d r).tg t d = if d = 0 then 0 else r % 2 ^ 64 := by
  have hf : SM.sorted u.fresh.2.fld = true := hs
  rw [← tput_tg (u := u.fresh.2) hf]
  unfold State.tg
  rw [(sharedResult_fld _ _ (by decide) (by decide) (by decide) (tput_sorted hf)).2]

theorem sharedResult_mem : (u.sharedResult t d r).mem = u.mem := by
  rw [sharedResult_others]
  rfl

/-! ## The address of an access -/

theorem slotPass_ea (hs : SM.sorted s.fld = true) : (s.slotPass t).ea t w = s.ea t w := by
  unfold State.ea
  rw [slotPass_tg hs]

theorem slotPass_mem : (s.slotPass t).mem = s.mem := by rw [slotPass_fieldsOnly .refl]

theorem slotPass_rd : (s.slotPass t).rd a n = s.rd a n := by
  unfold State.rd
  rw [slotPass_mem]

theorem slotPass_guard (hs : SM.sorted s.fld = true) : (s.slotPass t).guard = s.guard := by
  unfold State.guard
  rw [slotPass_get hs (by decide)]

theorem access_ok {sp : Nat × Nat} {f : Nat → State → State} (h : accOk sp (s.ea t w) (accSize w) = true) :
    s.access t w sp f = f (sp.1 + s.ea t w) s := if_pos h

theorem access_fault {sp : Nat × Nat} {f : Nat → State → State} (h : accOk sp (s.ea t w) (accSize w) = false) :
    s.access t w sp f = s.fault t 2 0 (s.ea t w % 2 ^ 32) := if_neg (by rw [h]; exact Bool.false_ne_true)

theorem accSize_pos : 0 < accSize w := Nat.two_pow_pos _

theorem accSize_le : accSize w ≤ 8 := Nat.pow_le_pow_right (by decide) (show iMod w % 4 ≤ 3 by omega)

/-! ## What a load brings -/

theorem rd_length : (s.rd a n).length = n := by simp [State.rd, Memory.readBytes]

/-- A number of at most eight bytes is a register value. -/
theorem leNat_mod {bs : List Byte} (h : bs.length ≤ 8) : leNat bs % 2 ^ 64 = leNat bs :=
  Nat.mod_eq_of_lt (Nat.lt_of_lt_of_le (leNat_lt bs) (Nat.pow_le_pow_right (by decide) (by omega)))

/-- A little-endian load, sign-extended where `mod`[2] says so. -/
theorem loadExt_mod {bs : List Byte} (h : bs.length = accSize w) : loadExt w (leNat bs) % 2 ^ 64 =
    if iMod w < 4 then leNat bs else ((BitVec.ofNat (8 * accSize w) (leNat bs)).signExtend 64).toNat := by
  have h8 := accSize_le (w := w)
  have h0 := accSize_pos (w := w)
  unfold loadExt
  by_cases hm : iMod w < 4
  · rw [if_neg (by omega), if_pos hm, leNat_mod (h ▸ h8)]
  · rw [if_pos (by omega), if_neg hm, signExt_eq (h ▸ leNat_lt bs) (by omega) (by omega)]

/-- A load of the window: big-endian unless `mod`[2]. -/
theorem winNat_mod {bs : List Byte} (h : bs.length = accSize w) : winNat w bs % 2 ^ 64 =
    if iMod w < 4 then leNat bs.reverse else leNat bs := by
  unfold winNat beNat
  by_cases hm : iMod w < 4
  · rw [if_neg (by omega), if_pos hm, leNat_mod (by rw [List.length_reverse, h]; exact accSize_le)]
  · rw [if_pos (by omega), if_neg hm, leNat_mod (h ▸ accSize_le)]

theorem statusWord_slotPass (hs : SM.sorted s.fld = true) : (s.slotPass t).statusWord t = s.statusWord t := by
  have hk : ∀ {g : Fld} {j : Nat}, offSlot g = true → (s.slotPass t).get g j = s.get g j := fun hg => slotPass_get hs hg
  unfold State.statusWord secure State.tickets
  simp only [slotPass_guard hs, hk (g := TH_tpc) (by decide), hk (g := TH_tcause) (by decide), hk (g := TH_rsd) (by decide),
    hk (g := TH_tag) (by decide), hk (g := TH_frame) (by decide), hk (g := TH_res) (by decide), hk (g := TH_tkt) (by decide),
    hk (g := MC_SEC_secure_mask) (by decide)]

/-! ## LD, PLD and SLD -/

/-- A load that succeeds: its register takes the value, and nothing else changes. -/
theorem exec_load {sem : Nat → Nat → State → State} {op x : Nat} (hs : SM.sorted s.fld = true)
    (he : exec c s = .next (s.slot t op false sem)) (hr : s.runs t op = true)
    (hsem : sem t (s.insn t) (s.slotPass t) = ((s.slotPass t).tput t d r).retire t) (hx : r % 2 ^ 64 = x) :
    ∃ v : State, exec c s = .next (v.slotEnd t) ∧ s.onlyWrites v t d ∧ v.tg t d = if d = 0 then 0 else x := by
  obtain ⟨v, h1, h2, h3⟩ := exec_result hs he hr hsem
  exact ⟨v, h1, h3, by rw [h2, hx]⟩

/-- LD where its address is no device register nor the status word. -/
theorem semLoad_local (hs : SM.sorted s.fld = true) (ha : s.ea t w ≠ 0xFFFF0000) (hd : s.devOff t w = none) :
    semLoad t w (s.slotPass t) = (s.slotPass t).access t w (localSpace t) (fun a u =>
      if u.localDiffers t a (accSize w) then u.mismatch t
      else (u.tput t (iDst w) (loadExt w (leNat (u.rd a (accSize w))))).retire t) := by
  have hd' : (s.slotPass t).devOff t w = none := by
    unfold State.devOff
    rw [slotPass_ea hs]
    exact hd
  unfold semLoad
  rw [hd']
  unfold semLd
  rw [slotPass_ea hs, if_neg ha]

theorem slotPass_localDiffers (hs : SM.sorted s.fld = true) : (s.slotPass t).localDiffers t a n = s.localDiffers t a n := by
  unfold State.localDiffers
  rw [slotPass_guard hs, slotPass_rd, slotPass_rd]

theorem ld_loads (hs : SM.sorted s.fld = true) (hr : s.runs t 0x40 = true) (ha : s.ea t (s.insn t) ≠ 0xFFFF0000)
    (hd : s.devOff t (s.insn t) = none) (hok : accOk (localSpace t) (s.ea t (s.insn t)) (accSize (s.insn t)) = true)
    (hm : s.localDiffers t ((localSpace t).1 + s.ea t (s.insn t)) (accSize (s.insn t)) = false) :
    ∃ v : State, exec (.ld t false) s = .next (v.slotEnd t) ∧ s.onlyWrites v t (iDst (s.insn t)) ∧
      v.tg t (iDst (s.insn t)) = if iDst (s.insn t) = 0 then 0
        else if iMod (s.insn t) < 4 then leNat (s.rd ((localSpace t).1 + s.ea t (s.insn t)) (accSize (s.insn t)))
        else ((BitVec.ofNat (8 * accSize (s.insn t)) (leNat (s.rd ((localSpace t).1 + s.ea t (s.insn t))
          (accSize (s.insn t))))).signExtend 64).toNat := by
  refine exec_load (c := .ld t false) (sem := semLoad) hs rfl hr ?_ (loadExt_mod rd_length)
  rw [semLoad_local hs ha hd, access_ok (by rw [slotPass_ea hs]; exact hok), slotPass_ea hs, slotPass_localDiffers hs, hm,
    if_neg Bool.false_ne_true, slotPass_rd]

theorem ld_bounds (hs : SM.sorted s.fld = true) (hr : s.runs t 0x40 = true) (ha : s.ea t (s.insn t) ≠ 0xFFFF0000)
    (hd : s.devOff t (s.insn t) = none) (hok : accOk (localSpace t) (s.ea t (s.insn t)) (accSize (s.insn t)) = false) :
    exec (.ld t false) s = .next (((s.slotPass t).fault t 2 0 (s.ea t (s.insn t) % 2 ^ 32)).slotEnd t) := by
  rw [exec_slot (c := .ld t false) (sem := semLoad) rfl hr, semLoad_local hs ha hd,
    access_fault (by rw [slotPass_ea hs]; exact hok), slotPass_ea hs]

theorem ld_statusWord (hs : SM.sorted s.fld = true) (hr : s.runs t 0x40 = true) (ha : s.ea t (s.insn t) = 0xFFFF0000)
    (hm : iMod (s.insn t) = 3) :
    ∃ v : State, exec (.ld t false) s = .next (v.slotEnd t) ∧ s.onlyWrites v t (iDst (s.insn t)) ∧
      v.tg t (iDst (s.insn t)) = if iDst (s.insn t) = 0 then 0 else s.statusWord t % 2 ^ 64 := by
  have hd : (s.slotPass t).devOff t (s.insn t) = none := by
    unfold State.devOff
    rw [slotPass_ea hs, ha]
    exact if_neg (by omega)
  refine exec_load (c := .ld t false) (sem := semLoad) hs rfl hr ?_ rfl
  unfold semLoad
  rw [hd]
  unfold semLd
  rw [slotPass_ea hs, if_pos ha, if_pos hm, statusWord_slotPass hs]

theorem pld_loads (hs : SM.sorted s.fld = true) (hr : s.runs t 0x42 = true)
    (hok : accOk (windowSpace t) (s.ea t (s.insn t)) (accSize (s.insn t)) = true) :
    ∃ v : State, exec (.pld t false) s = .next (v.slotEnd t) ∧ s.onlyWrites v t (iDst (s.insn t)) ∧
      v.tg t (iDst (s.insn t)) = if iDst (s.insn t) = 0 then 0
        else if iMod (s.insn t) < 4 then leNat (s.rd (baseW t + s.ea t (s.insn t)) (accSize (s.insn t))).reverse
        else leNat (s.rd (baseW t + s.ea t (s.insn t)) (accSize (s.insn t))) := by
  refine exec_load (c := .pld t false) (sem := semPld) hs rfl hr ?_ (winNat_mod rd_length)
  unfold semPld
  rw [access_ok (by rw [slotPass_ea hs]; exact hok), slotPass_ea hs, slotPass_rd]
  rfl

theorem pld_bounds (hs : SM.sorted s.fld = true) (hr : s.runs t 0x42 = true)
    (hok : accOk (windowSpace t) (s.ea t (s.insn t)) (accSize (s.insn t)) = false) :
    exec (.pld t false) s = .next (((s.slotPass t).fault t 2 0 (s.ea t (s.insn t) % 2 ^ 32)).slotEnd t) := by
  rw [exec_slot (c := .pld t false) (sem := semPld) rfl hr]
  unfold semPld
  rw [access_fault (by rw [slotPass_ea hs]; exact hok), slotPass_ea hs]

theorem sld_loads (hs : SM.sorted s.fld = true) (hr : s.runs t 0x44 = true)
    (hok : accOk (sharedSpace t) (s.ea t (s.insn t)) (accSize (s.insn t)) = true) :
    ∃ v : State, exec (.sld t false) s = .next (v.slotEnd t) ∧ s.onlyWrites v t (iDst (s.insn t)) ∧
      v.tg t (iDst (s.insn t)) = if iDst (s.insn t) = 0 then 0
        else if iMod (s.insn t) < 4 then leNat (s.rd ((sharedSpace t).1 + s.ea t (s.insn t)) (accSize (s.insn t)))
        else ((BitVec.ofNat (8 * accSize (s.insn t)) (leNat (s.rd ((sharedSpace t).1 + s.ea t (s.insn t))
          (accSize (s.insn t))))).signExtend 64).toNat := by
  have hp := slotPass_effect (t := t) (d := iDst (s.insn t)) hs
  have hsem : semSld t (s.insn t) (s.slotPass t) = ((s.slotPass t).sharedResult t (iDst (s.insn t)) (loadExt (s.insn t)
      (leNat (s.rd ((sharedSpace t).1 + s.ea t (s.insn t)) (accSize (s.insn t)))))).retire t := by
    unfold semSld
    rw [access_ok (by rw [slotPass_ea hs]; exact hok), slotPass_ea hs, slotPass_rd]
  refine ⟨_, by rw [exec_slot (c := .sld t false) (sem := semSld) rfl hr, hsem], ?_, ?_⟩
  · obtain ⟨h1, h2, h3, h4⟩ := hp.sharedResult.retired
    exact ⟨h1, h2, h3, h4, by rw [retire_mem, sharedResult_mem, slotPass_mem]⟩
  · rw [retire_tg hp.sharedResult.sorted, sharedResult_tg hp.sorted, loadExt_mod rd_length]

/-- Settles O30: loads of each space, their bounds faults and the status word. -/
theorem loadsReadTheirBytes : Obligations.LoadsReadTheirBytes := by
  unfold Obligations.LoadsReadTheirBytes
  intro t s w n a hwf hw hn ha
  subst hw hn ha
  have hs := wf_sorted hwf
  refine ⟨fun hr h1 h2 => ⟨ld_loads hs hr h1 h2, ld_bounds hs hr h1 h2⟩, ld_statusWord hs,
    fun hr => ⟨fun h => pld_loads hs hr (decide_eq_true h), fun h => pld_bounds hs hr (decide_eq_false h)⟩, sld_loads hs⟩

/-! ## ST, PST, SST, SADD and SCAS -/

/-- The bytes of a store of a number. -/
theorem read_store {m : Mem} {a n v : Nat} (hm : Memory.wf m = true) : ∀ k, k < n →
    Memory.read (Memory.writeBytes m a (leBytes n v)) (a + k) = BitVec.ofNat 8 (v / 2 ^ (8 * k)) := fun k hk => by
  have hl : k < (leBytes n v).length := by rw [leBytes_length]; exact hk
  rw [mem_read_writeBytes_in hm hl, leBytes_getElem]

theorem read_store_big {m : Mem} {a n v : Nat} (hm : Memory.wf m = true) : ∀ k, k < n →
    Memory.read (Memory.writeBytes m a (beBytes n v)) (a + k) = BitVec.ofNat 8 (v / 2 ^ (8 * (n - 1 - k))) := fun k hk => by
  have hl : k < (beBytes n v).length := by rw [beBytes, List.length_reverse, leBytes_length]; exact hk
  rw [mem_read_writeBytes_in hm hl]
  simp only [beBytes, List.getElem_reverse, leBytes_getElem, leBytes_length]

/-- Bytes outside a store of `n` bytes. -/
theorem read_outside {m : Mem} {a b n : Nat} {bs : List Byte} (hm : Memory.wf m = true) (hl : bs.length = n) (hb : b < a ∨ a + n ≤ b) :
    Memory.read (Memory.writeBytes m a bs) b = Memory.read m b := mem_read_writeBytes_out hm (hl ▸ hb)

theorem beBytes_length : (beBytes n v).length = n := by rw [beBytes, List.length_reverse, leBytes_length]

/-- A store that succeeds leaves registers, flags and the rest as they are. -/
theorem exec_store {sem : Nat → Nat → State → State} {op : Nat} (he : exec c s = .next (s.slot t op false sem)) (hr : s.runs t op = true)
    (hsem : sem t (s.insn t) (s.slotPass t) = u.retire t) (hu : Effect s u t d) :
    ∃ v : State, exec c s = .next (v.slotEnd t) ∧ v.get TH_pc t = (s.get TH_pc t + 1) % 2 ^ 15 ∧ s.keepsRegs v t d ∧
      s.keepsFlags v ∧ s.keepsRest v ∧ v.mem = u.mem ∧ v.tg t d = u.tg t d := by
  obtain ⟨h1, h2, h3, h4⟩ := hu.retired
  exact ⟨_, by rw [exec_slot he hr, hsem], h1, h2, h3, h4, retire_mem, retire_tg hu.sorted⟩

theorem Effect.localStore {bs : List Byte} (h : Effect s u t d) : Effect s (u.localStore t a bs) t d := by
  unfold State.localStore
  dsimp only
  split
  · exact h.wr.wr
  · exact h.wr

theorem localStore_mem {bs : List Byte} : (u.localStore t a bs).mem = if u.guard = true ∧ t < 4096
    then Memory.writeBytes (Memory.writeBytes u.mem a bs) (a + 2 ^ 14) bs else Memory.writeBytes u.mem a bs := by
  have hc : ((u.wr a bs).guard && decide (t < 4096)) = true ↔ u.guard = true ∧ t < 4096 := by
    rw [Bool.and_eq_true, decide_eq_true_eq]
    exact Iff.rfl
  unfold State.localStore
  dsimp only
  by_cases h : u.guard = true ∧ t < 4096
  · rw [if_pos (hc.2 h), if_pos h, state_wr_mem, state_wr_mem]
  · rw [if_neg (fun k => h (hc.1 k)), if_neg h, state_wr_mem]

theorem wf_mem (h : s.wf = true) : Memory.wf s.mem = true := by
  simp only [State.wf, Bool.and_eq_true] at h
  exact h.2

theorem st_stores (hwf : s.wf = true) (hr : s.runs t 0x41 = true) (hd : s.devOff t (s.insn t) = none)
    (hok : accOk (localSpace t) (s.ea t (s.insn t)) (accSize (s.insn t)) = true) (ha : a = (localSpace t).1 + s.ea t (s.insn t)) :
    ∃ v : State, exec (.st t false) s = .next (v.slotEnd t) ∧ v.get TH_pc t = (s.get TH_pc t + 1) % 2 ^ 15 ∧
      s.keepsRegs v t 0 ∧ s.keepsFlags v ∧ s.keepsRest v ∧
      (∀ k, k < accSize (s.insn t) → Memory.read v.mem (a + k) = BitVec.ofNat 8 (s.tg t (iS2 (s.insn t)) / 2 ^ (8 * k))) ∧
      (∀ b, b < a ∨ a + accSize (s.insn t) ≤ b →
        ¬(s.guard = true ∧ t < 4096 ∧ a + 2 ^ 14 ≤ b ∧ b < a + 2 ^ 14 + accSize (s.insn t)) →
        Memory.read v.mem b = Memory.read s.mem b) := by
  have hs := wf_sorted hwf
  have hm := wf_mem hwf
  have hd' : (s.slotPass t).devOff t (s.insn t) = none := by
    unfold State.devOff
    rw [slotPass_ea hs]
    exact hd
  have hsem : semStore t (s.insn t) (s.slotPass t) = ((s.slotPass t).localStore t a
      (leBytes (accSize (s.insn t)) (s.tg t (iS2 (s.insn t))))).retire t := by
    unfold semStore
    rw [hd']
    unfold semSt
    rw [access_ok (by rw [slotPass_ea hs]; exact hok), slotPass_ea hs, slotPass_tg hs, ← ha]
  obtain ⟨v, h1, h2, h3, h4, h5, h6, -⟩ := exec_store (c := .st t false) (sem := semStore) rfl hr hsem
    (slotPass_effect (d := 0) hs).localStore
  rw [localStore_mem, slotPass_guard hs, slotPass_mem] at h6
  have h8 := accSize_le (w := s.insn t)
  have hlen := leBytes_length (accSize (s.insn t)) (s.tg t (iS2 (s.insn t)))
  refine ⟨v, h1, h2, h3, h4, h5, fun k hk => ?_, fun b hb hng => ?_⟩
  · rw [h6]
    split
    · rw [read_outside (mem_wf_writeBytes hm) hlen (.inl (by omega)), read_store hm k hk]
    · exact read_store hm k hk
  · rw [h6]
    split
    · next hg =>
      have hb' : b < a + 2 ^ 14 ∨ a + 2 ^ 14 + accSize (s.insn t) ≤ b := by
        refine Decidable.byContradiction fun hc => ?_
        exact hng ⟨hg.1, hg.2, by omega, by omega⟩
      rw [read_outside (mem_wf_writeBytes hm) hlen hb', read_outside hm hlen hb]
    · exact read_outside hm hlen hb

theorem pst_stores (hwf : s.wf = true) (hr : s.runs t 0x43 = true)
    (hok : accOk (windowSpace t) (s.ea t (s.insn t)) (accSize (s.insn t)) = true) (ha : a = baseW t + s.ea t (s.insn t)) :
    ∃ v : State, exec (.pst t false) s = .next (v.slotEnd t) ∧ v.get TH_pc t = (s.get TH_pc t + 1) % 2 ^ 15 ∧
      s.keepsRegs v t 0 ∧ s.keepsFlags v ∧ s.keepsRest v ∧
      (∀ k, k < accSize (s.insn t) → Memory.read v.mem (a + k) = BitVec.ofNat 8 (s.tg t (iS2 (s.insn t)) /
        2 ^ (8 * (if 4 ≤ iMod (s.insn t) then k else accSize (s.insn t) - 1 - k)))) ∧
      (∀ b, b < a ∨ a + accSize (s.insn t) ≤ b → Memory.read v.mem b = Memory.read s.mem b) := by
  have hs := wf_sorted hwf
  have hm := wf_mem hwf
  have hsem : semPst t (s.insn t) (s.slotPass t) = ((s.slotPass t).wr a (if 4 ≤ iMod (s.insn t)
      then leBytes (accSize (s.insn t)) (s.tg t (iS2 (s.insn t)))
      else beBytes (accSize (s.insn t)) (s.tg t (iS2 (s.insn t))))).retire t := by
    unfold semPst
    rw [access_ok (by rw [slotPass_ea hs]; exact hok), slotPass_ea hs, slotPass_tg hs, ha]
    rfl
  obtain ⟨v, h1, h2, h3, h4, h5, h6, -⟩ := exec_store (c := .pst t false) (sem := semPst) rfl hr hsem
    (slotPass_effect (d := 0) hs).wr
  rw [state_wr_mem, slotPass_mem] at h6
  refine ⟨v, h1, h2, h3, h4, h5, fun k hk => ?_, fun b hb => ?_⟩
  · rw [h6]
    split
    · exact read_store hm k hk
    · exact read_store_big hm k hk
  · rw [h6]
    split
    · exact read_outside hm (leBytes_length _ _) hb
    · exact read_outside hm beBytes_length hb

theorem sst_stores (hwf : s.wf = true) (hr : s.runs t 0x45 = true)
    (hok : accOk (sharedSpace t) (s.ea t (s.insn t)) (accSize (s.insn t)) = true) (ha : a = (sharedSpace t).1 + s.ea t (s.insn t)) :
    ∃ v : State, exec (.sst t false) s = .next (v.slotEnd t) ∧ v.get TH_pc t = (s.get TH_pc t + 1) % 2 ^ 15 ∧
      s.keepsRegs v t 0 ∧ s.keepsFlags v ∧ s.keepsRest v ∧
      (∀ k, k < accSize (s.insn t) → Memory.read v.mem (a + k) = BitVec.ofNat 8 (s.tg t (iS2 (s.insn t)) / 2 ^ (8 * k))) ∧
      (∀ b, b < a ∨ a + accSize (s.insn t) ≤ b → Memory.read v.mem b = Memory.read s.mem b) := by
  have hs := wf_sorted hwf
  have hm := wf_mem hwf
  have hsem : semSst t (s.insn t) (s.slotPass t) = ((s.slotPass t).wr a
      (leBytes (accSize (s.insn t)) (s.tg t (iS2 (s.insn t))))).retire t := by
    unfold semSst
    rw [access_ok (by rw [slotPass_ea hs]; exact hok), slotPass_ea hs, slotPass_tg hs, ← ha]
  obtain ⟨v, h1, h2, h3, h4, h5, h6, -⟩ := exec_store (c := .sst t false) (sem := semSst) rfl hr hsem
    (slotPass_effect (d := 0) hs).wr
  rw [state_wr_mem, slotPass_mem] at h6
  exact ⟨v, h1, h2, h3, h4, h5, by rw [h6]; exact read_store hm, fun b hb => by rw [h6]; exact read_outside hm (leBytes_length _ _) hb⟩

/-- An atomic access: its register takes the old value, and memory takes `new`. -/
theorem exec_atomic {sem : Nat → Nat → State → State} {op new : Nat} (he : exec c s = .next (s.slot t op false sem))
    (hr : s.runs t op = true) (hn : n ≤ 8)
    (hsem : sem t (s.insn t) (s.slotPass t) = (u.sharedResult t d (leNat (s.rd a n))).retire t) (hu : Effect s u t d)
    (hin : ∀ k, k < n → Memory.read u.mem (a + k) = BitVec.ofNat 8 (new / 2 ^ (8 * k)))
    (hout : ∀ b, b < a ∨ a + n ≤ b → Memory.read u.mem b = Memory.read s.mem b) :
    ∃ v : State, exec c s = .next (v.slotEnd t) ∧ v.get TH_pc t = (s.get TH_pc t + 1) % 2 ^ 15 ∧ s.keepsRegs v t d ∧
      s.keepsFlags v ∧ s.keepsRest v ∧ v.tg t d = (if d = 0 then 0 else leNat (s.rd a n)) ∧
      (∀ k, k < n → Memory.read v.mem (a + k) = BitVec.ofNat 8 (new / 2 ^ (8 * k))) ∧
      (∀ b, b < a ∨ a + n ≤ b → Memory.read v.mem b = Memory.read s.mem b) := by
  obtain ⟨v, h1, h2, h3, h4, h5, h6, h7⟩ := exec_store he hr hsem hu.sharedResult
  rw [sharedResult_mem] at h6
  refine ⟨v, h1, h2, h3, h4, h5, ?_, by rw [h6]; exact hin, by rw [h6]; exact hout⟩
  rw [h7, sharedResult_tg hu.sorted, leNat_mod (by rw [rd_length]; exact hn)]

/-- Little-endian bytes make up their number again. -/
theorem byte_leNat : ∀ (bs : List Byte) (k : Nat) (h : k < bs.length), BitVec.ofNat 8 (leNat bs / 2 ^ (8 * k)) = bs[k]
  | b :: bs, 0, _ => by
    refine BitVec.eq_of_toNat_eq ?_
    have := b.isLt
    simp only [leNat, Nat.mul_zero, Nat.pow_zero, Nat.div_one, BitVec.toNat_ofNat, List.getElem_cons_zero]
    omega
  | b :: bs, k + 1, h => by
    have hb := b.isLt
    have hd : leNat (b :: bs) / 2 ^ (8 * (k + 1)) = leNat bs / 2 ^ (8 * k) := by
      rw [Nat.mul_add, Nat.add_comm, Nat.pow_add, ← Nat.div_div_eq_div_mul]
      congr 1
      simp only [leNat]
      omega
    rw [hd, byte_leNat bs k (by simpa using h)]
    rfl

theorem byte_rd {k : Nat} (hk : k < n) : BitVec.ofNat 8 (leNat (s.rd a n) / 2 ^ (8 * k)) = Memory.read s.mem (a + k) := by
  rw [byte_leNat _ _ (by rw [rd_length]; exact hk)]
  simp [State.rd, Memory.readBytes]

theorem sadd_stores (hwf : s.wf = true) (hok : accOk (sharedSpace t) (s.ea t (s.insn t)) (accSize (s.insn t)) = true) (ha : a = (sharedSpace t).1 + s.ea t (s.insn t)) :
    semSadd t (s.insn t) (s.slotPass t) = (((s.slotPass t).wr a (leBytes (accSize (s.insn t)) (leNat (s.rd a (accSize (s.insn t))) +
      s.tg t (iS2 (s.insn t))))).sharedResult t (iDst (s.insn t)) (leNat (s.rd a (accSize (s.insn t))))).retire t := by
  have hs := wf_sorted hwf
  unfold semSadd
  rw [access_ok (by rw [slotPass_ea hs]; exact hok), slotPass_ea hs, slotPass_tg hs, ← ha, slotPass_rd]

theorem scas_stores (hwf : s.wf = true) (hok : accOk (sharedSpace t) (s.ea t (s.insn t)) (accSize (s.insn t)) = true) (ha : a = (sharedSpace t).1 + s.ea t (s.insn t)) :
    semScas t (s.insn t) (s.slotPass t) = ((if leNat (s.rd a (accSize (s.insn t))) = s.tg t (iDst (s.insn t)) %
        2 ^ (8 * accSize (s.insn t)) then (s.slotPass t).wr a (leBytes (accSize (s.insn t)) (s.tg t (iS2 (s.insn t))))
      else s.slotPass t).sharedResult t (iDst (s.insn t)) (leNat (s.rd a (accSize (s.insn t))))).retire t := by
  have hs := wf_sorted hwf
  unfold semScas
  rw [access_ok (by rw [slotPass_ea hs]; exact hok), slotPass_ea hs, slotPass_tg hs, ← ha, slotPass_rd, slotPass_tg hs]

/-- Settles O31: the stored bytes and the frame of each store. -/
theorem storesWriteTheirBytes : Obligations.StoresWriteTheirBytes := by
  unfold Obligations.StoresWriteTheirBytes
  intro t s w n a hwf hw hn
  subst hw hn
  have hs := wf_sorted hwf
  have hm := wf_mem hwf
  refine ⟨fun c op le ha hok hmem hr hd => ?_, fun c op new ha hok hmem hr => ?_⟩
  · simp only [List.mem_cons, List.not_mem_nil, or_false, Prod.mk.injEq] at hmem
    rcases hmem with ⟨rfl, rfl, rfl⟩ | ⟨rfl, rfl, rfl⟩ | ⟨rfl, rfl, rfl⟩
    · obtain ⟨v, h1, h2, h3, h4, h5, h6, h7⟩ := st_stores hwf hr (hd rfl) hok ha
      exact ⟨v, h1, h2, h3, h4, h5, h6, fun b hb hn => h7 b hb (fun h => hn ⟨rfl, h⟩)⟩
    · obtain ⟨v, h1, h2, h3, h4, h5, h6, h7⟩ := pst_stores hwf hr hok ha
      refine ⟨v, h1, h2, h3, h4, h5, ?_, fun b hb _ => h7 b hb⟩
      simpa only [decide_eq_true_eq] using h6
    · obtain ⟨v, h1, h2, h3, h4, h5, h6, h7⟩ := sst_stores hwf hr hok ha
      exact ⟨v, h1, h2, h3, h4, h5, h6, fun b hb _ => h7 b hb⟩
  · simp only [List.mem_cons, List.not_mem_nil, or_false, Prod.mk.injEq] at hmem
    have hp := slotPass_effect (t := t) (d := iDst (s.insn t)) hs
    rcases hmem with ⟨rfl, rfl, rfl⟩ | ⟨rfl, rfl, rfl⟩
    · refine exec_atomic (sem := semSadd) rfl hr accSize_le (sadd_stores hwf hok ha) hp.wr ?_ ?_
      · rw [state_wr_mem, slotPass_mem]
        exact read_store hm
      · rw [state_wr_mem, slotPass_mem]
        exact fun b hb => read_outside hm (leBytes_length _ _) hb
    · refine exec_atomic (sem := semScas) rfl hr accSize_le (scas_stores hwf hok ha) ?_ ?_ ?_
      · split
        · exact hp.wr
        · exact hp
      · split
        · rw [state_wr_mem, slotPass_mem]
          exact read_store hm
        · rw [slotPass_mem]
          exact fun k hk => (byte_rd hk).symm
      · split
        · rw [state_wr_mem, slotPass_mem]
          exact fun b hb => read_outside hm (leBytes_length _ _) hb
        · rw [slotPass_mem]
          exact fun _ _ => rfl

end Sys2Proof.Proofs
end

section
/-! PROOFS. The branches of Niris (spec/05_niris_isa.md, Table NI-9) and the end of a slot in GUARD (R101). -/

namespace Sys2Proof.Proofs

open Sys2Proof Sys2Proof.Machine Sys2Proof.Machine.Reg Sys2Proof.Laws

variable {s u : State} {t d pc n : Nat} {c : Instr}

/-! ## Taken and not taken -/

theorem jump_pc (h : SM.sorted u.fld = true) : (u.jump t pc).get TH_pc t = pc % 2 ^ 15 := by
  have h1 : SM.sorted (u.slotIs t .retired).fld = true := (slotIs_spares (g := TH_g) (j := 0) .refl (by decide) h).1
  have h2 := get_set_same (f := TH_pc) (i := t) (v := pc) h1
  unfold State.jump State.rearm
  split
  · exact (get_set_ne (set_sorted h1) (by decide)).trans h2
  · exact h2

theorem jump_get {g : Fld} {j : Nat} (h : SM.sorted u.fld = true) (hg : offSlot g = true) : (u.jump t pc).get g j = u.get g j :=
  (jump_spares .refl hg h).2

theorem jump_out : (u.jump t pc).out = u.out := by rw [jump_fieldsOnly .refl]
theorem jump_mem : (u.jump t pc).mem = u.mem := by rw [jump_fieldsOnly .refl]

/-- After a jump out of such an effect the registers, the flags and the rest are as before. -/
theorem Effect.jumped (h : Effect s u t d) : s.keepsRegs (u.jump t pc) t d ∧ s.keepsFlags (u.jump t pc) ∧ s.keepsRest (u.jump t pc) := by
  have ho : ∀ (g : Fld), offSlot g = true → g.id % 4096 ≠ TH_g.id % 4096 → ∀ j, (u.jump t pc).get g j = s.get g j :=
    fun g hg hne j => (jump_get h.sorted hg).trans (h.rest g j hg hne)
  exact ⟨fun j hj => (jump_get h.sorted (by decide)).trans (h.regs j hj), ho _ (by decide) (by decide), ho _ (by decide) (by decide),
    ho _ (by decide) (by decide), ho _ (by decide) (by decide), ho _ (by decide) (by decide), jump_out.trans h.out⟩

/-- An instruction that jumps where its condition holds, and otherwise goes on. -/
theorem exec_branch {sem : Nat → Nat → State → State} {op : Nat} {p : Prop} [Decidable p] (hs : SM.sorted s.fld = true)
    (he : exec c s = .next (s.slot t op false sem)) (hr : s.runs t op = true)
    (hsem : sem t (s.insn t) (s.slotPass t) = if p then (s.slotPass t).jump t pc else (s.slotPass t).retire t) :
    ∃ v : State, exec c s = .next (v.slotEnd t) ∧ s.keepsRegs v t 0 ∧ s.keepsFlags v ∧ s.keepsRest v ∧ v.mem = s.mem ∧
      v.get TH_pc t = if p then pc % 2 ^ 15 else (s.get TH_pc t + 1) % 2 ^ 15 := by
  have hp := slotPass_effect (t := t) (d := 0) hs
  refine ⟨_, by rw [exec_slot he hr, hsem], ?_⟩
  split
  · obtain ⟨h1, h2, h3⟩ := hp.jumped (pc := pc)
    exact ⟨h1, h2, h3, by rw [jump_mem, slotPass_mem], jump_pc hp.sorted⟩
  · have hret := hp.retired
    obtain ⟨h1, h2, h3, h4⟩ := hret
    exact ⟨h2, h3, h4, by rw [retire_mem, slotPass_mem], h1⟩

/-- BR. -/
theorem br_jumps (hs : SM.sorted s.fld = true) (hr : s.runs t 0x60 = true) :
    ∃ v : State, exec (.br t false) s = .next (v.slotEnd t) ∧ v.get TH_pc t = s.target t (s.insn t) ∧ s.keepsRegs v t 0 ∧
      s.keepsFlags v ∧ s.keepsRest v ∧ v.mem = s.mem := by
  obtain ⟨v, h1, h2, h3, h4, h5, h6⟩ := exec_branch (c := .br t false) (sem := semBr) (p := True) (pc := s.target t (s.insn t)) hs rfl hr
    (by
      rw [if_pos trivial]
      unfold semBr State.target
      rw [slotPass_tg hs])
  refine ⟨v, h1, ?_, h2, h3, h4, h5⟩
  rw [h6, if_pos trivial, State.target, Nat.mod_mod]

/-- The condition of BRC. -/
theorem brc_jumps (hs : SM.sorted s.fld = true) (hr : s.runs t 0x61 = true) {x : Nat} (hx : x = s.tg t (iS1 (s.insn t))) :
    ∃ v : State, exec (.brc t false) s = .next (v.slotEnd t) ∧ s.keepsRegs v t 0 ∧ s.keepsFlags v ∧ s.keepsRest v ∧ v.mem = s.mem ∧
      v.get TH_pc t = if (iMod (s.insn t) = 0 ∧ x = 0) ∨ (iMod (s.insn t) = 1 ∧ x ≠ 0) ∨ (iMod (s.insn t) = 2 ∧ x.testBit 63 = true) ∨
          (iMod (s.insn t) = 3 ∧ x.testBit 63 = false)
        then iImm (s.insn t) % 2 ^ 15 else (s.get TH_pc t + 1) % 2 ^ 15 := by
  have hm : iMod (s.insn t) < 4 := by
    have h := runs_insnOk hr
    refine Decidable.byContradiction fun hc => ?_
    simp [insnOk, insnForm, runs_op hr, hc] at h
  refine exec_branch (c := .brc t false) (sem := semBrc) hs rfl hr ?_
  unfold semBrc
  rw [slotPass_tg hs, ← hx]
  dsimp only
  rcases (by omega : iMod (s.insn t) = 0 ∨ iMod (s.insn t) = 1 ∨ iMod (s.insn t) = 2 ∨ iMod (s.insn t) = 3) with e | e | e | e
  · simp [e]
  · simp [e]
  · simp [e, bit_eq_testBit]
  · simp [e, bit_eq_testBit]

/-- JMPT. -/
theorem jmpt_jumps (hs : SM.sorted s.fld = true) (hr : s.runs t 0x64 = true) {x : Nat} (hx : x = s.tg t (iS1 (s.insn t))) :
    ∃ v : State, exec (.jmpt t false) s = .next (v.slotEnd t) ∧ s.keepsRegs v t 0 ∧ s.keepsFlags v ∧ s.keepsRest v ∧ v.mem = s.mem ∧
      v.get TH_pc t = if x < s.insn t / 2 ^ 15 % 2 ^ 15 then (s.insn t % 2 ^ 15 + x) % 2 ^ 15 else (s.get TH_pc t + 1) % 2 ^ 15 := by
  refine exec_branch (c := .jmpt t false) (sem := semJmpt) hs rfl hr ?_
  unfold semJmpt
  rw [slotPass_tg hs, ← hx, bits_zero]
  rfl

/-! ## CALL and RET -/

theorem call_pushes (hs : SM.sorted s.fld = true) (hr : s.runs t 0x62 = true) (hn : n = s.get TH_rsd t) (h8 : n < 8) :
    ∃ v : State, exec (.call t false) s = .next (v.slotEnd t) ∧ v.get TH_pc t = s.target t (s.insn t) ∧ v.get TH_rsd t = n + 1 ∧
      v.get TH_rs (8 * t + n) = (s.get TH_pc t + 1) % 2 ^ 15 ∧ (∀ j, j ≠ 8 * t + n → v.get TH_rs j = s.get TH_rs j) ∧
      s.keepsRegs v t 0 ∧ s.keepsFlags v ∧ v.mem = s.mem := by
  have hp := slotPass_sorted (t := t) hs
  have hg : ∀ {g : Fld} {j : Nat}, offSlot g = true → (s.slotPass t).get g j = s.get g j := fun h => slotPass_get hs h
  have hsem : semCall t (s.insn t) (s.slotPass t) = (((s.slotPass t).set TH_rs (8 * t + n) (s.get TH_pc t + 1)).set TH_rsd t (n + 1)).jump t
      (s.target t (s.insn t)) := by
    unfold semCall State.target
    dsimp only
    rw [hg (by decide), ← hn, if_neg (by omega), slotPass_pc hs, slotPass_tg hs]
  generalize hu : (s.slotPass t).set TH_rs (8 * t + n) (s.get TH_pc t + 1) = u at hsem
  have hus : SM.sorted u.fld = true := hu ▸ set_sorted hp
  have hv := set_sorted (f := TH_rsd) (i := t) (v := n + 1) hus
  have hk : ∀ {g : Fld} {j : Nat}, offSlot g = true → g.id % 4096 ≠ TH_rsd.id % 4096 →
      ((u.set TH_rsd t (n + 1)).jump t (s.target t (s.insn t))).get g j = u.get g j := fun h h' => by
    rw [jump_get hv h, get_set_ne hus h']
  have hku : ∀ {g : Fld} {j : Nat}, offSlot g = true → g.id % 4096 ≠ TH_rs.id % 4096 → u.get g j = s.get g j := fun h h' => by
    rw [← hu, get_set_ne hp h', hg h]
  refine ⟨_, by rw [exec_slot (c := .call t false) (sem := semCall) rfl hr, hsem], ?_, ?_, ?_, fun j hj => ?_, fun j _ => ?_, fun j => ?_, ?_⟩
  · rw [jump_pc hv, State.target, Nat.mod_mod]
  · rw [jump_get hv (by decide), get_set_same hus]
    exact Nat.mod_eq_of_lt (show n + 1 < 2 ^ 4 by omega)
  · rw [hk (by decide) (by decide), ← hu, get_set_same hp]
    rfl
  · rw [hk (by decide) (by decide), ← hu, get_set_other hp (by unfold fkey; omega), hg (by decide)]
  · rw [hk (by decide) (by decide), hku (by decide) (by decide)]
  · rw [hk (by decide) (by decide), hku (by decide) (by decide)]
  · rw [jump_mem, state_set_mem, ← hu, state_set_mem, slotPass_mem]

theorem call_faults (hs : SM.sorted s.fld = true) (hr : s.runs t 0x62 = true) (h8 : 8 ≤ s.get TH_rsd t) :
    exec (.call t false) s = .next (((s.slotPass t).fault t 2 0 0xFFFFFFFF).slotEnd t) := by
  rw [exec_slot (c := .call t false) (sem := semCall) rfl hr]
  unfold semCall
  dsimp only
  rw [slotPass_get hs (by decide), if_pos h8]

theorem ret_pops (hs : SM.sorted s.fld = true) (hr : s.runs t 0x63 = true) (hn : s.get TH_rsd t = n + 1) (h8 : n < 8) :
    ∃ v : State, exec (.ret t false) s = .next (v.slotEnd t) ∧ v.get TH_rsd t = n ∧
      v.get TH_pc t = s.get TH_rs (8 * t + n) % 2 ^ 15 ∧ s.keepsRegs v t 0 ∧ s.keepsFlags v ∧ v.mem = s.mem := by
  have hp := slotPass_sorted (t := t) hs
  have hg : ∀ {g : Fld} {j : Nat}, offSlot g = true → (s.slotPass t).get g j = s.get g j := fun h => slotPass_get hs h
  have hsem : semRet t (s.insn t) (s.slotPass t) = ((s.slotPass t).set TH_rsd t n).jump t (s.get TH_rs (8 * t + n)) := by
    unfold semRet
    rw [hg (by decide), hn]
    dsimp only
    rw [hg (by decide)]
  have hv := set_sorted (f := TH_rsd) (i := t) (v := n) hp
  refine ⟨_, by rw [exec_slot (c := .ret t false) (sem := semRet) rfl hr, hsem], ?_, jump_pc hv, fun j _ => ?_, fun j => ?_, ?_⟩
  · rw [jump_get hv (by decide), get_set_same hp]
    exact Nat.mod_eq_of_lt (show n < 2 ^ 4 by omega)
  · rw [jump_get hv (by decide), get_set_ne hp (by decide), hg (by decide)]
  · rw [jump_get hv (by decide), get_set_ne hp (by decide), hg (by decide)]
  · rw [jump_mem, state_set_mem, slotPass_mem]

/-- The end of a program leaves its thread idle and without a frame. -/
theorem endThread_idle (h : SM.sorted u.fld = true) : (u.endThread t).get TH_mode t = 0 ∧ (u.endThread t).get TH_frame t = 0 := by
  have h1 := set_sorted (f := TH_mode) (i := t) (v := 0) h
  have h2 : SM.sorted ((u.set TH_mode t 0).put TH_res t false).fld = true := set_sorted h1
  have h3 := set_sorted (f := TH_frame) (i := t) (v := 0) h2
  unfold State.endThread
  dsimp only
  generalize hv : ((u.set TH_mode t 0).put TH_res t false).set TH_frame t 0 = v at h3
  have hk : ∀ {g : Fld}, [TH_trap, TH_budget, TH_wait, CLU_dlk].all (fun f => g.id % 4096 != f.id % 4096) = true →
      ((((v.put TH_trap t false).set TH_budget t 0).set TH_wait t 0).rearm t).get g t = v.get g t := fun {g} hg => by
    simp only [List.all_cons, List.all_nil, Bool.and_true, Bool.and_eq_true, bne_iff_ne] at hg
    have hs : Spares g t v (((v.put TH_trap t false).set TH_budget t 0).set TH_wait t 0) := ((Spares.refl.put hg.1).set hg.2.1).set hg.2.2.1
    exact ((Spares.ite (hs.put hg.2.2.2) hs) h3).2
  refine ⟨?_, ?_⟩
  · rw [hk (by decide), ← hv, get_set_ne h2 (by decide)]
    exact (get_set_ne h1 (by decide)).trans (get_set_same h)
  · rw [hk (by decide), ← hv, get_set_same h2]
    rfl

theorem ret_ends (hs : SM.sorted s.fld = true) (hr : s.runs t 0x63 = true) (hn : s.get TH_rsd t = 0) (hres : s.flag TH_res t = true)
    (ht : s.tickets t = 0) :
    ∃ v : State, exec (.ret t false) s = .next (v.slotEnd t) ∧ v.get TH_mode t = 0 ∧ v.get TH_frame t = 0 := by
  have hg : ∀ {g : Fld} {j : Nat}, offSlot g = true → (s.slotPass t).get g j = s.get g j := fun h => slotPass_get hs h
  have hsem : semRet t (s.insn t) (s.slotPass t) = ((s.slotPass t).slotIs t .retired).endThread t := by
    have ht' : (s.slotPass t).tickets t = 0 := by
      unfold State.tickets
      rw [hg (by decide), hg (by decide)]
      exact ht
    unfold semRet
    rw [hg (by decide), hn]
    dsimp only
    rw [slotPass_flag hs (by decide), hres, if_neg (by decide), if_neg (by rw [ht']; decide)]
  exact ⟨_, by rw [exec_slot (c := .ret t false) (sem := semRet) rfl hr, hsem],
    endThread_idle (slotIs_spares (g := TH_g) (j := 0) .refl (by decide) (slotPass_sorted hs)).1⟩

/-- Settles O32: the target of each branch and the return stack. -/
theorem branchesGoToTheirTargets : Obligations.BranchesGoToTheirTargets := by
  unfold Obligations.BranchesGoToTheirTargets
  intro t s w x tgt hwf hw hx ht
  subst hw ht
  have hs := wf_sorted hwf
  refine ⟨fun hr => ?_, fun hr => brc_jumps hs hr hx, fun hr h8 => ?_, call_faults hs, fun hr n hn h8 => ret_pops hs hr hn h8,
    ret_ends hs, fun hr => jmpt_jumps hs hr hx⟩
  · rw [hx]
    exact br_jumps hs hr
  · rw [hx]
    exact call_pushes hs hr rfl h8


/-! ## The end of a slot in GUARD -/

/-- The copy of `n` instances of a field of thread `t` to its checker. -/
def copyField (t : Nat) (f : Fld) (n : Nat) (u : State) : State :=
  forEach (List.range n) (fun r v => v.set f (n * (t + 16) + r) (v.get f (n * t + r))) u

/-- The copies of several fields, the last of the list first. -/
def copyFields (t : Nat) (l : List (Fld × Nat)) (u : State) : State := l.foldr (fun e v => copyField t e.1 e.2 v) u

/-- The fields that a checker shares with its lead, with their number in a thread. -/
def mirrored : List (Fld × Nat) := [(TH_g, 32), (TH_c, 8), (TH_rs, 8), (TH_rsd, 1), (TH_pc, 1)]

theorem mirrored_nodup : (mirrored.map (fun e => e.1.id % 4096)).Nodup := by
  simp [mirrored, TH_g, TH_c, TH_rs, TH_rsd, TH_pc]

/-- In GUARD the end of a slot copies the lead's fields and its window (R101). -/
theorem mirror_copies (hg : s.guard = true) (ht : t < 4096) : s.mirror t =
    (copyFields t mirrored s).wr (baseW (t + 16)) ((copyFields t mirrored s).rd (baseW t) 1024) := by
  unfold State.mirror
  rw [if_pos (by rw [hg, decide_eq_true ht]; rfl)]
  simp only [copyFields, mirrored, List.foldr_cons, List.foldr_nil, copyField]

theorem forEach_range_succ {f : Nat → State → State} : forEach (List.range (n + 1)) f u = f n (forEach (List.range n) f u) := by
  unfold Machine.forEach
  rw [List.range_succ, List.foldl_append]
  rfl

/-- After the first `m` copies. -/
theorem copy_prefix {f : Fld} (h : SM.sorted u.fld = true) : ∀ m, m ≤ n →
    let v := forEach (List.range m) (fun r v => v.set f (n * (t + 16) + r) (v.get f (n * t + r))) u
    SM.sorted v.fld = true ∧ (∀ r, r < m → v.get f (n * (t + 16) + r) = u.get f (n * t + r) % 2 ^ f.w) ∧
      (∀ j, (j < n * (t + 16) ∨ n * (t + 16) + m ≤ j) → v.get f j = u.get f j)
  | 0, _ => ⟨h, fun r hr => absurd hr (Nat.not_lt_zero r), fun _ _ => rfl⟩
  | m + 1, hm => by
    obtain ⟨h1, h2, h3⟩ := copy_prefix h m (Nat.le_of_succ_le hm)
    have hlt : n * t + m < n * (t + 16) := by rw [Nat.mul_add]; omega
    have hkey : ∀ {j}, j ≠ n * (t + 16) + m → fkey f j ≠ fkey f (n * (t + 16) + m) := fun hj => by unfold fkey; omega
    dsimp only
    rw [forEach_range_succ]
    refine ⟨set_sorted h1, fun r hr => ?_, fun j hj => ?_⟩
    · rcases Nat.lt_succ_iff_lt_or_eq.1 hr with e | rfl
      · rw [get_set_other h1 (hkey (by omega)), h2 r e]
      · rw [get_set_same h1, h3 _ (.inl hlt)]
    · rw [get_set_other h1 (hkey (by omega)), h3 j (by omega)]

theorem copyField_get {f : Fld} (h : SM.sorted u.fld = true) : SM.sorted (copyField t f n u).fld = true ∧
    (∀ r, r < n → (copyField t f n u).get f (n * (t + 16) + r) = u.get f (n * t + r) % 2 ^ f.w) ∧
    (∀ j, j / n ≠ t + 16 → (copyField t f n u).get f j = u.get f j) := by
  obtain ⟨h1, h2, h3⟩ := copy_prefix (t := t) (f := f) h n (Nat.le_refl n)
  refine ⟨h1, h2, fun j hj => ?_⟩
  rcases Nat.eq_zero_or_pos n with rfl | hn
  · rfl
  · refine h3 j ?_
    refine Decidable.byContradiction fun hc => ?_
    refine hj (Nat.div_eq_of_lt_le ?_ ?_)
    · rw [Nat.mul_comm]
      omega
    · rw [Nat.mul_comm, Nat.mul_add n]
      omega

theorem copyField_ne {f g : Fld} {j : Nat} (h : SM.sorted u.fld = true) (hne : g.id % 4096 ≠ f.id % 4096) :
    (copyField t f n u).get g j = u.get g j :=
  ((Spares.refl.forEach (fun _ _ _ k => k.set hne)) h).2

/-- Copies of fields with different numbers: each is copied, and no other field changes. -/
theorem copyFields_get (h : SM.sorted u.fld = true) : ∀ l : List (Fld × Nat), (l.map (fun e => e.1.id % 4096)).Nodup →
    SM.sorted (copyFields t l u).fld = true ∧
    (∀ e ∈ l, (∀ r, r < e.2 → (copyFields t l u).get e.1 (e.2 * (t + 16) + r) = u.get e.1 (e.2 * t + r) % 2 ^ e.1.w) ∧
      (∀ j, j / e.2 ≠ t + 16 → (copyFields t l u).get e.1 j = u.get e.1 j)) ∧
    (∀ (g : Fld) (j : Nat), g.id % 4096 ∉ l.map (fun e => e.1.id % 4096) → (copyFields t l u).get g j = u.get g j)
  | [], _ => ⟨h, fun e he => absurd he (List.not_mem_nil), fun _ _ _ => rfl⟩
  | e :: l, hl => by
    rw [List.map_cons, List.nodup_cons] at hl
    obtain ⟨h1, h2, h3⟩ := copyFields_get h l hl.2
    obtain ⟨k1, k2, k3⟩ := copyField_get (t := t) (f := e.1) (n := e.2) h1
    refine ⟨k1, fun e' he => ?_, fun g j hg => ?_⟩
    · rcases List.mem_cons.1 he with rfl | he
      · exact ⟨fun r hr => (k2 r hr).trans (by rw [h3 _ _ hl.1]), fun j hj => (k3 j hj).trans (h3 _ _ hl.1)⟩
      · have hne : e'.1.id % 4096 ≠ e.1.id % 4096 := fun hc => hl.1 (hc ▸ List.mem_map_of_mem he)
        obtain ⟨m1, m2⟩ := h2 e' he
        exact ⟨fun r hr => (copyField_ne h1 hne).trans (m1 r hr), fun j hj => (copyField_ne h1 hne).trans (m2 j hj)⟩
    · rw [List.map_cons, List.mem_cons, not_or] at hg
      exact (copyField_ne h1 hg.1).trans (h3 g j hg.2)

theorem copyFields_fieldsOnly : ∀ l : List (Fld × Nat), FieldsOnly u (copyFields t l u)
  | [] => .refl
  | _ :: l => (copyFields_fieldsOnly l).forEach (fun _ _ k => k.set)

theorem fieldsOnly_mem (h : FieldsOnly s u) : u.mem = s.mem := by
  have h' : u = { s with fld := u.fld } := h
  have hm := congrArg State.mem h'
  exact hm

/-- A store after changes of fields changes fields and memory alone. -/
theorem fieldsOnly_wr {a : Nat} {bs : List Byte} (h : FieldsOnly s u) :
    u.wr a bs = { s with fld := (u.wr a bs).fld, mem := (u.wr a bs).mem } := by
  have hk : u.wr a bs = { s with fld := u.fld, mem := Memory.writeBytes u.mem a bs } := congrArg (fun x : State => { x with mem := Memory.writeBytes u.mem a bs }) h
  exact hk

/-- Settles O36: the end of a slot is nothing, or the copies of `mirrored` and of the window. -/
theorem checkersFollowTheirLeads : Obligations.CheckersFollowTheirLeads := by
  unfold Obligations.CheckersFollowTheirLeads
  intro t s v hwf hv
  refine ⟨fun hc => ?_, fun hg ht hl => ?_⟩
  · rw [hv]
    unfold State.slotEnd State.mirror
    by_cases hl : s.flag LKS_copy (t / 32) = true
    · rw [if_pos hl]
    · rw [if_neg hl, if_neg]
      rw [Bool.and_eq_true, decide_eq_true_eq]
      rintro ⟨h1, h2⟩
      rcases hc with e | e | e
      · exact absurd h1 (by rw [e]; exact Bool.false_ne_true)
      · omega
      · exact hl e
  · obtain ⟨-, hin, hout⟩ := copyFields_get (t := t) (wf_sorted hwf) mirrored mirrored_nodup
    have hfo : FieldsOnly s (copyFields t mirrored s) := copyFields_fieldsOnly mirrored
    have hm := wf_mem hwf
    have hlen : ((copyFields t mirrored s).rd (baseW t) 1024).length = 1024 := rd_length
    have hend : v = (copyFields t mirrored s).wr (baseW (t + 16)) ((copyFields t mirrored s).rd (baseW t) 1024) := by
      rw [hv, State.slotEnd, hl, if_neg Bool.false_ne_true, mirror_copies hg ht]
    have hmem : (copyFields t mirrored s).mem = s.mem := fieldsOnly_mem hfo
    have hget : ∀ (f : Fld) (j : Nat), v.get f j = (copyFields t mirrored s).get f j := fun f j => by rw [hend, state_wr_get]
    have hvm : v.mem = Memory.writeBytes s.mem (baseW (t + 16)) ((copyFields t mirrored s).rd (baseW t) 1024) := by
      rw [hend, state_wr_mem, hmem]
    obtain ⟨hgr, -⟩ := hin (TH_g, 32) (by simp [mirrored])
    obtain ⟨hcr, -⟩ := hin (TH_c, 8) (by simp [mirrored])
    obtain ⟨hrs, -⟩ := hin (TH_rs, 8) (by simp [mirrored])
    obtain ⟨hrd, -⟩ := hin (TH_rsd, 1) (by simp [mirrored])
    obtain ⟨hpc, -⟩ := hin (TH_pc, 1) (by simp [mirrored])
    refine ⟨fun r hr => (hget _ _).trans (hgr r hr), fun r hr => ⟨(hget _ _).trans (hcr r hr), (hget _ _).trans (hrs r hr)⟩, ?_, ?_,
      fun k hk => ?_, fun f n j he hj => (hget _ _).trans ((hin _ he).2 j hj), fun f j hf => (hget _ _).trans (hout f j ?_),
      fun b hb => ?_, ?_⟩
    · have h := hrd 0 Nat.zero_lt_one
      rw [Nat.one_mul, Nat.one_mul] at h
      exact (hget _ _).trans h
    · have h := hpc 0 Nat.zero_lt_one
      rw [Nat.one_mul, Nat.one_mul] at h
      exact (hget _ _).trans h
    · rw [hvm, mem_read_writeBytes_in hm (by rw [hlen]; exact hk)]
      simp [State.rd, Memory.readBytes, hmem]
    · intro hc
      obtain ⟨e, he, hid⟩ := List.mem_map.1 hc
      have hne := List.all_eq_true.1 hf e.1 (List.mem_map_of_mem (f := Prod.fst) he)
      rw [hid] at hne
      simp at hne
    · rw [hvm, mem_read_writeBytes_out hm (by rw [hlen]; exact hb)]
    · rw [hend]
      exact fieldsOnly_wr hfo

end Sys2Proof.Proofs
end

section
/-! PROOFS. The access types of register fields (spec/00_scope.md, Table SC-4). -/

namespace Sys2Proof.Proofs

open Sys2Proof Sys2Proof.Machine Sys2Proof.Laws

variable {s u : State} {f g : Fld} {lo i j v : Nat}

/-- A number without the bits of a mask. -/
theorem testBit_sub_and {n x : Nat} (b : Nat) : (n - (n &&& x)).testBit b = (n.testBit b && !x.testBit b) := by
  have hle : n &&& x ≤ n := Nat.and_le_left
  have hmod : (n &&& x) % 2 = 1 ↔ n % 2 = 1 ∧ x % 2 = 1 := Nat.and_mod_two_eq_one
  induction b generalizing n x with
  | zero =>
    rw [Nat.testBit_zero, Nat.testBit_zero, Nat.testBit_zero, ← decide_not, ← Bool.decide_and, decide_eq_decide]
    omega
  | succ b ih =>
    have hdiv : (n - (n &&& x)) / 2 = n / 2 - (n / 2 &&& x / 2) := by
      rw [← Nat.and_div_two]
      omega
    rw [Nat.testBit_succ, Nat.testBit_succ, Nat.testBit_succ, hdiv]
    exact ih Nat.and_le_left Nat.and_mod_two_eq_one

/-- RW and RWL fields take the written bits. -/
theorem genField_rw (h : f.acc = .rw ∨ f.acc = .rwl) : s.genField (lo, f) i v = s.set f i (bits v lo f.w) := by
  unfold State.genField
  rcases h with h | h <;> rw [h]

theorem genField_w1c (h : f.acc = .w1c) : s.genField (lo, f) i v = s.set f i (s.get f i - (s.get f i &&& bits v lo f.w)) := by
  unfold State.genField
  rw [h]

theorem genField_w1s (h : f.acc = .w1s) : s.genField (lo, f) i v = s.set f i (s.get f i ||| bits v lo f.w) := by
  unfold State.genField
  rw [h]

theorem genField_ignored (h : f.acc = .ro ∨ f.acc = .rc ∨ f.acc = .wo) : s.genField (lo, f) i v = s := by
  unfold State.genField
  rcases h with h | h | h <;> rw [h]

/-- A write of a field is a store of that field, or nothing. -/
theorem genField_set : (∃ x, s.genField (lo, f) i v = s.set f i x) ∨ s.genField (lo, f) i v = s := by
  cases h : f.acc with
  | rw => exact .inl ⟨_, genField_rw (.inl h)⟩
  | rwl => exact .inl ⟨_, genField_rw (.inr h)⟩
  | w1c => exact .inl ⟨_, genField_w1c h⟩
  | w1s => exact .inl ⟨_, genField_w1s h⟩
  | ro => exact .inr (genField_ignored (.inl h))
  | rc => exact .inr (genField_ignored (.inr (.inl h)))
  | wo => exact .inr (genField_ignored (.inr (.inr h)))

theorem genField_other (hs : SM.sorted s.fld = true) (hk : fkey g j ≠ fkey f i) : (s.genField (lo, f) i v).get g j = s.get g j := by
  rcases genField_set (s := s) (f := f) (lo := lo) (i := i) (v := v) with ⟨x, h⟩ | h
  · rw [h, get_set_other hs hk]
  · rw [h]

/-- A bit of a stored field. -/
theorem testBit_set {x b : Nat} (hs : SM.sorted s.fld = true) (hb : b < f.w) : ((s.set f i x).get f i).testBit b = x.testBit b := by
  rw [get_set_same hs, Nat.testBit_mod_two_pow, decide_eq_true hb, Bool.true_and]

theorem testBit_written {b : Nat} (hb : b < f.w) : (bits v lo f.w).testBit b = v.testBit (lo + b) := by
  rw [testBit_bits, decide_eq_true hb, Bool.true_and]

/-- Reading RC fields keeps the order of the fields, and clears a field that is among them and shares its key with no other. -/
theorem clearRead_fold (p : Nat × Fld → Prop) [DecidablePred p] : ∀ (l : List (Nat × Fld)) (u : State), SM.sorted u.fld = true →
    (∀ q ∈ l, q.2 = f ∨ fkey q.2 i ≠ fkey f i) → (u.get f i = 0 ∨ ∃ q ∈ l, p q ∧ q.2 = f) →
    (l.foldl (fun t q => if p q then t.set q.2 i 0 else t) u).get f i = 0
  | [], _, _, _, h => h.resolve_right (fun ⟨_, hq, _⟩ => absurd hq List.not_mem_nil)
  | q :: l, u, hu, hl, h => by
    have hl' := fun q' (hq' : q' ∈ l) => hl q' (List.mem_cons_of_mem q hq')
    have hz : (u.set f i 0).get f i = 0 := (get_set_same hu).trans (Nat.zero_mod _)
    rw [List.foldl_cons]
    by_cases hp : p q
    · rw [if_pos hp]
      refine clearRead_fold p l _ (set_sorted hu) hl' ?_
      rcases hl q List.mem_cons_self with e | hk
      · exact .inl (e ▸ hz)
      · rcases h with h0 | ⟨q', hq', hpq, he⟩
        · exact .inl ((get_set_other hu hk.symm).trans h0)
        · rcases List.mem_cons.1 hq' with rfl | hm
          · exact absurd (by rw [he]) hk
          · exact .inr ⟨q', hm, hpq, he⟩
    · rw [if_neg hp]
      refine clearRead_fold p l u hu hl' (h.imp_right ?_)
      rintro ⟨q', hq', hpq, he⟩
      rcases List.mem_cons.1 hq' with rfl | hm
      · exact absurd hpq hp
      · exact ⟨q', hm, hpq, he⟩

/-- Settles O20: each access type, the frame, and the clearing read. -/
theorem fieldsTakeWritesByTheirType : Obligations.FieldsTakeWritesByTheirType := by
  unfold Obligations.FieldsTakeWritesByTheirType
  intro s lo f i v hwf
  have hs := wf_sorted hwf
  refine ⟨fun h => ?_, fun h b hb => ?_, fun h b hb => ?_, genField_ignored, fun g j => genField_other hs, fun d r n hm hacc h1 h2 hd => ?_⟩
  · rw [genField_rw h, get_set_same hs, bits, Nat.mod_mod]
  · rw [genField_w1c h, testBit_set hs hb, testBit_sub_and, testBit_written hb]
  · rw [genField_w1s h, testBit_set hs hb, Nat.testBit_or, testBit_written hb]
  · exact clearRead_fold _ d.fields s hs hd (.inr ⟨_, hm, ⟨hacc, h1, h2⟩, rfl⟩)

end Sys2Proof.Proofs
end

section
/-! PROOFS. The datapath's enable, the loss of power, the boot, the fuses, the clocks and the gates
(spec/01_device_overview.md, spec/02_accepted_work.md, spec/20_power_and_startup.md). -/

namespace Sys2Proof.Proofs

open Sys2Proof Sys2Proof.Machine Sys2Proof.Machine.Reg Sys2Proof.Laws

variable {s u : State} {w : Who} {n k l g arg op ms : Nat} {b : Bool}

/-! ## The datapath's enable (R22 to R27) -/

theorem glbOpen_of_dev (hw : s.bootOpen w = true) (hd : s.dev ≠ dsAonOnly) : s.glbOpen w = true := glbOpen_iff.2 ⟨hw, hd⟩

theorem exec_profileChangeDone_done (hd : s.dev = dsIdle) (hb : s.flag GLB_STATUS_profile_busy 0 = true) :
    exec .profileChangeDone s =
      .next (let t := ((s.set GLB_PROFILE_profile 0 (s.get GLX_profile 0)).put GLB_STATUS_profile_busy 0 false).put GLX_defer 0 false
        if s.flag GLX_defer 0 then t.set GLB_STATE_state 0 dsService else t) := by
  show execProfileChangeDone s = _
  unfold execProfileChangeDone
  rw [hb, hd]
  rfl

theorem exec_dpEnSet_idle (hw : s.bootOpen w = true) (hd : s.dev = dsIdle) :
    exec (.dpEnSet w) s = .next (if s.flag GLB_STATUS_profile_busy 0 then (s.put GLB_CTRL_dp_en 0 true).put GLX_defer 0 true
      else (s.put GLB_CTRL_dp_en 0 true).set GLB_STATE_state 0 dsService) := by
  show execDpEnSet w s = _
  unfold execDpEnSet
  rw [glbOpen_of_dev hw (by rw [hd]; decide), if_neg (by decide)]
  exact if_pos hd

theorem exec_dpEnSet_booting (hw : s.bootOpen w = true) (hd : s.dev = dsBooting) :
    exec (.dpEnSet w) s = .next (s.put GLB_CTRL_dp_en 0 true) := by
  show execDpEnSet w s = _
  unfold execDpEnSet
  rw [glbOpen_of_dev hw (by rw [hd]; decide), if_neg (by decide), hd]
  rfl

theorem exec_dpEnClear_service (hw : s.bootOpen w = true) (hd : s.dev = dsService) :
    exec (.dpEnClear w) s = .next (((s.put GLB_CTRL_dp_en 0 false).put GLB_STATUS_dp_draining 0 true).discardAll) := by
  show execDpEnClear w s = _
  unfold execDpEnClear
  rw [glbOpen_of_dev hw (by rw [hd]; decide), if_neg (by decide), hd]
  rfl

/-- A drain is done where no frame, no exception and no entry but RX buffers is left (R26). -/
theorem drained_of_empty (hf : s.frames = []) (he : s.excq = []) (hq : ∀ e ∈ s.ents, e.2 = [] ∨ s.qClass e.1 = qcRx) :
    s.drained = true := by
  unfold State.drained
  rw [hf, he]
  simpa [List.all_eq_true] using hq

theorem exec_drainComplete_idle (hd : s.dev = dsService) (hr : s.flag GLB_STATUS_dp_draining 0 = true) (hp : s.flag PW_seal 0 = false)
    (hz : s.drained = true) :
    exec .drainComplete s = .next ((s.put GLB_STATUS_dp_draining 0 false).set GLB_STATE_state 0 dsIdle) := by
  show execDrainComplete s = _
  unfold execDrainComplete
  rw [hd, hr, hp, hz]
  rfl

/-- Settles O15: the end of a profile change, `dp_en` in each state, and the end of a drain. -/
theorem datapathEnableAndDrain : Obligations.DatapathEnableAndDrain := by
  unfold Obligations.DatapathEnableAndDrain
  exact ⟨fun s _ => exec_profileChangeDone_done, fun w s _ => exec_dpEnSet_idle, fun w s hd hw => exec_dpEnSet_booting hw hd,
    fun w s hw hd => exec_dpEnSet_service (glbOpen_of_dev hw (by rw [hd]; decide)) hd, fun w s => exec_dpEnClear_service,
    fun s hd hr hp hf he hq => exec_drainComplete_idle hd hr hp (drained_of_empty hf he hq)⟩

/-! ## Loss of power (R51 to R55) -/

theorem exec_pwrWarn_detects (hd : s.dev ≠ 0) : exec .pwrWarn s = .next (s.detect 0x1D0 0 false) := if_neg hd

theorem powerWarn_latches {src : Nat} (hd : s.dev = dsService ∨ s.dev = dsIdle ∨ s.dev = dsBooting) (hw : s.flag PW_warn 0 = false) :
    s.powerWarn src =
      ((((((s.put PW_warn 0 true).put PW_stopacc 0 true).beginFlush 0x10).set PW_src 0 src).set PW_ns 0
        (((s.put PW_warn 0 true).put PW_stopacc 0 true).beginFlush 0x10).now)).discardAll := by
  have hne : ∀ n, n ≠ dsService → n ≠ dsIdle → n ≠ dsBooting → (s.dev == n) = false := fun n h1 h2 h3 =>
    beq_false_of_ne (fun h => by rcases hd with e | e | e <;> omega)
  unfold State.powerWarn
  rw [hne dsWhiteout (by decide) (by decide) (by decide), hne dsAonOnly (by decide) (by decide) (by decide),
    hne 0 (by decide) (by decide) (by decide), hw]
  rfl

theorem exec_completionSeal_seals (hw : s.flag PW_warn 0 = true) (hp : s.flag PW_seal 0 = false) (h1 : s.dev ≠ dsWhiteout)
    (h2 : s.dev ≠ dsAonOnly) (h3 : s.dev ≠ 0) :
    exec .completionSeal s =
      let t := ((s.woRecord (s.get PW_src 0) 4 (s.get PW_ns 0)).whiteoutOutputs).put PW_seal 0 true
      .next (if t.flag FIRN_flush 0 then t else t.set GLB_STATE_state 0 dsWhiteout) := by
  show execCompletionSeal s = _
  unfold execCompletionSeal
  rw [if_pos (by simp [hw, hp, h1, h2, h3])]

/-- The end of a flush without a completion seal. -/
theorem exec_firnFlushDone_seals (hf : s.flag FIRN_flush 0 = true) (h1 : s.dev ≠ dsAonOnly) (h2 : s.dev ≠ 0)
    (hw : s.dev = dsWhiteout ∨ s.flag PW_warn 0 = false) (hp : s.flag PW_seal 0 = false) (hs : SM.sorted s.fld = true) :
    exec .firnFlushDone s = .next (((s.firnDrain.put FIRN_flush 0 false).put FIRN_sealed 0 true).set FIRN_sealns 0 s.now) := by
  have hu : SM.sorted s.firnDrain.fld = true := hs
  have hseal : (((s.firnDrain.put FIRN_flush 0 false).put FIRN_sealed 0 true).set FIRN_sealns 0 s.now).flag PW_seal 0 = false := by
    rw [← hp]
    exact flag_of_spares (s := s.firnDrain) (((Spares.refl.put (by decide)).put (by decide)).set (by decide)) hu
  show execFirnFlushDone s = _
  unfold execFirnFlushDone
  dsimp only
  have hfin : ¬(!s.flag FIRN_flush 0 || s.dev == dsAonOnly || s.dev == 0 ||
      (s.flag PW_warn 0 && !s.flag PW_seal 0 && s.dev != dsWhiteout)) = true := by
    rcases hw with h | h
    · simp only [hf, h, bne_self_eq_false, Bool.and_false, Bool.not_true]
      decide
    · simp only [hf, beq_false_of_ne h1, beq_false_of_ne h2, h, Bool.false_and, Bool.not_true, Bool.or_self]
      exact Bool.false_ne_true
  rw [if_neg hfin, show s.firnDrain.now = s.now from rfl, hseal, if_neg Bool.false_ne_true]

/-- Settles O16: the warning, the completion seal and the end of the flush. -/
theorem powerWarningSequence : Obligations.PowerWarningSequence := by
  unfold Obligations.PowerWarningSequence
  exact ⟨fun s => exec_pwrWarn_detects, fun s src => powerWarn_latches, fun s => exec_completionSeal_seals,
    fun s hf h1 h2 hw hp hwf => exec_firnFlushDone_seals hf h1 h2 hw hp (wf_sorted hwf)⟩

/-! ## Boot steps (Tables PS-4 and PS-5) -/

section
variable {p a : List Byte} {pOk aOk : Bool} {fail : Nat} (hd : s.dev = dsBooting) (hl : s.inLimit = true)
include hd hl

theorem exec_bootStepComplete_plain (h : s.bootNow = 1 ∨ s.bootNow = 5 ∨ s.bootNow = 6) :
    exec (.bootStepComplete ms p pOk a aOk fail) s = .next (s.stepDone s.bootNow) := by
  show execBootStepComplete ms p pOk a aOk fail s = _
  unfold execBootStepComplete
  rw [if_neg (by simp [hd, hl])]
  rcases h with h | h | h
  · rw [h]
    rfl
  · rw [h]
    rfl
  · rw [h]
    rfl

theorem exec_bootStepComplete_fuses (h : s.bootNow = 2) :
    exec (.bootStepComplete ms p pOk a aOk fail) s = .next (s.bootFuses.stepDone 2) := by
  show execBootStepComplete ms p pOk a aOk fail s = _
  unfold execBootStepComplete
  rw [if_neg (by simp [hd, hl]), h]
  rfl

theorem exec_bootStepComplete_plls (h : s.bootNow = 3) : exec (.bootStepComplete ms p pOk a aOk fail) s =
    .next ((((s.put PWR_CLK_STATUS_pll_core 0 true).put PWR_CLK_STATUS_pll_ppl 0 true).put PWR_CLK_STATUS_pll_dma 0 true).stepDone 3) := by
  show execBootStepComplete ms p pOk a aOk fail s = _
  unfold execBootStepComplete
  rw [if_neg (by simp [hd, hl]), h]
  rfl

theorem exec_bootStepComplete_noImage (h : s.bootNow = 4) (hi : s.chooseImage (readImage p pOk) (readImage a aOk) = none) :
    exec (.bootStepComplete ms p pOk a aOk fail) s = .next s := by
  show execBootStepComplete ms p pOk a aOk fail s = _
  unfold execBootStepComplete
  rw [if_neg (by simp [hd, hl]), h]
  simp only [hi]

theorem exec_bootStepComplete_image {img : List Byte} {alt : Bool} (h : s.bootNow = 4)
    (hi : s.chooseImage (readImage p pOk) (readImage a aOk) = some (img, alt)) :
    exec (.bootStepComplete ms p pOk a aOk fail) s = .next ((s.takeImage img alt).stepDone 4) := by
  show execBootStepComplete ms p pOk a aOk fail s = _
  unfold execBootStepComplete
  rw [if_neg (by simp [hd, hl]), h]
  simp only [hi]

theorem exec_bootStepComplete_firn (h : s.bootNow = 7) :
    exec (.bootStepComplete ms p pOk a aOk fail) s = .next (s.firnCheck.stepDone 7) := by
  show execBootStepComplete ms p pOk a aOk fail s = _
  unfold execBootStepComplete
  rw [if_neg (by simp [hd, hl]), h]
  rfl

theorem exec_bootStepComplete_serdes (h : s.bootNow = 8) :
    exec (.bootStepComplete ms p pOk a aOk fail) s = .next ((s.bootSerdes fail).stepDone 8) := by
  show execBootStepComplete ms p pOk a aOk fail s = _
  unfold execBootStepComplete
  rw [if_neg (by simp [hd, hl]), h]
  rfl

theorem exec_bootStepComplete_segments (h : s.bootNow = 9) (hi : imageHashed s.bootImg (fun _ => true) = true) :
    exec (.bootStepComplete ms p pOk a aOk fail) s =
      .next (({ forEach (imageSegs s.bootImg) (fun g t => t.loadSeg g) s with bootImg := [] }.startMgmt).stepDone 9) := by
  show execBootStepComplete ms p pOk a aOk fail s = _
  unfold execBootStepComplete
  rw [if_neg (by simp [hd, hl]), h]
  exact if_pos hi

end

theorem ledgerPut_fld {at_ : Nat} {bs : List Byte} : (s.ledgerPut at_ bs).fld = s.fld := by
  unfold State.ledgerPut
  split <;> rfl

/-- A step that completes is the last one completed. -/
theorem stepDone_bootStep (hs : SM.sorted s.fld = true) (h : n ≤ 10) : (s.stepDone n).get GLB_STATE_boot_step 0 = n := by
  have hset : (s.set GLB_STATE_boot_step 0 n).get GLB_STATE_boot_step 0 = n :=
    (get_set_same hs).trans (Nat.mod_eq_of_lt (Nat.lt_of_le_of_lt h (by decide)))
  have hend : Spares GLB_STATE_boot_step 0 (s.set GLB_STATE_boot_step 0 n)
      (((s.set GLB_STATE_boot_step 0 n).outcome n (s.doneCode n)).ledgerEnd).stepStart :=
    Spares.set ((Spares.refl.other ledgerPut_fld).other ledgerPut_fld) (by decide)
  unfold State.stepDone
  refine Eq.trans ?_ hset
  dsimp only
  split
  · exact ((hend.other ledgerPut_fld) (set_sorted hs)).2
  · exact (hend (set_sorted hs)).2

/-- Storing a value other than the reset value leaves the other fields as they are, whatever the order of the list. -/
theorem get_set_listed {f g : Fld} {i j v : Nat} (hv : v % 2 ^ f.w ≠ f.rst i) (hk : fkey g j ≠ fkey f i) : (s.set f i v).get g j = s.get g j := by
  unfold State.get
  rw [set_fld, if_neg hv, sm_find_ins, if_neg hk]

/-- Setting an alternative of a step leaves those of later starts as they are. -/
theorem get_setAlternative {x : Nat} (hn : 1 ≤ n) (h10 : n ≤ 10) :
    (s.set BOOT_STATUS_alt 0 (x ||| 2 ^ (n - 1))).get MRX_alt 0 = s.get MRX_alt 0 := by
  refine get_set_listed (fun h => ?_) (by decide)
  have hb : ((x ||| 2 ^ (n - 1)) % 2 ^ 10).testBit (n - 1) = true := by
    rw [Nat.testBit_mod_two_pow, Nat.testBit_or, Nat.testBit_two_pow_self, Bool.or_true, decide_eq_true (by omega)]
    rfl
  rw [show (x ||| 2 ^ (n - 1)) % 2 ^ 10 = 0 from h, Nat.zero_testBit] at hb
  exact Bool.false_ne_true hb

theorem exec_bootStepFail_runs (hd : s.dev = dsBooting) : exec (.bootStepFail ms b) s =
    if s.bootNow = 7 then .next (s.ledgerEnd.detect 0x160 0 false)
    else if s.bootNow = 8 ∧ b = true then .next (s.ledgerEnd.detect 0x0C0 0 false)
    else if altStep s.bootNow && !b && !s.ledgerEnd.altOf s.bootNow then
      let u := (((s.ledgerEnd.set BOOT_STATUS_alt 0 (s.ledgerEnd.get BOOT_STATUS_alt 0 ||| 2 ^ (s.bootNow - 1))).set MRX_alt 0
        (s.ledgerEnd.get MRX_alt 0 ||| 2 ^ (s.bootNow - 1))).outcome s.bootNow 5).stepStart
      .next (if 9 ≤ s.bootNow then u.ledgerRestart else u)
    else .next (s.ledgerEnd.bootDead s.bootNow) := by
  show execBootStepFail ms b s = _
  unfold execBootStepFail
  dsimp only
  rw [if_neg (by simp [hd])]

theorem exec_ready_idle {m : Nat} (hd : s.dev = dsBooting) (hn : s.bootNow = 10) (hl : s.inLimit = true) (hp : s.flag PW_seal 0 = false) :
    exec (.ready (.fw m) ms) s = .next ((((s.put FIRN_sealed 0 false).set FIRN_cause 0 0).stepDone 10).set GLB_STATE_state 0 dsIdle) := by
  show execReady (.fw m) ms s = _
  unfold execReady
  rw [hd, hn, hl, hp]
  rfl

/-- A number built of the powers of two that a test picks. -/
theorem picked_testBit (p : Nat → Bool) : ∀ m, (List.range m).foldl (fun a n => if p n then a + 2 ^ n else a) 0 < 2 ^ m ∧
    ∀ n, ((List.range m).foldl (fun a n => if p n then a + 2 ^ n else a) 0).testBit n = (decide (n < m) && p n)
  | 0 => ⟨Nat.one_pos, fun n => by simp⟩
  | m + 1 => by
    obtain ⟨h1, h2⟩ := picked_testBit p m
    rw [List.range_succ, List.foldl_append, List.foldl_cons, List.foldl_nil]
    generalize (List.range m).foldl (fun a n => if p n then a + 2 ^ n else a) 0 = v at h1 h2
    have hp : 2 ^ (m + 1) = 2 ^ m + 2 ^ m := by rw [Nat.pow_succ, Nat.mul_two]
    by_cases hm : p m = true
    · rw [if_pos hm]
      refine ⟨by omega, fun n => ?_⟩
      rw [show v + 2 ^ m = 2 ^ m * 1 + v by omega, Nat.testBit_two_pow_mul_add _ h1, h2]
      rcases Nat.lt_trichotomy n m with h | rfl | h
      · simp [h, Nat.lt_succ_of_lt h]
      · simp [hm]
      · rw [if_neg (by omega), Nat.testBit_lt_two_pow (Nat.one_lt_two_pow (by omega)), decide_eq_false (by omega), Bool.false_and]
    · rw [if_neg hm]
      refine ⟨by omega, fun n => ?_⟩
      rw [h2]
      rcases Nat.lt_trichotomy n m with h | rfl | h
      · simp [h, Nat.lt_succ_of_lt h]
      · simp [hm]
      · rw [decide_eq_false (by omega), decide_eq_false (by omega)]

theorem exec_clearAlt_clears {mask : Nat} (hw : s.bootOpen w = true) : ∃ v, exec (.clearAlt w mask) s = .next (s.set MRX_alt 0 v) ∧
    ∀ n < 10, bit v n = (bit (s.get MRX_alt 0) n && !bit mask n) := by
  refine ⟨_, if_pos hw, fun n hn => ?_⟩
  rw [bit_eq_testBit, (picked_testBit (fun n => bit (s.get MRX_alt 0) n && !bit mask n) 10).2, decide_eq_true hn, Bool.true_and]

theorem exec_ledgerSelect_stores {i : Nat} (hw : s.bootOpen w = true) :
    exec (.ledgerSelect w i) s = .next (s.set BOOT_LEDGER_SEL_index 0 (i % 64)) := by
  show execLedgerSelect w i s = _
  unfold execLedgerSelect
  rewrite [if_pos hw, bits_zero]
  rfl

/-- Settles O17: each boot step, its failure, READY, and the ledger's registers. -/
theorem bootStepsAndLedger : Obligations.BootStepsAndLedger := by
  unfold Obligations.BootStepsAndLedger
  refine ⟨fun ms p a pOk aOk fail s hd hl => ?_, fun n s hwf _ h => stepDone_bootStep (wf_sorted hwf) h, fun ms b s hd => ?_,
    fun m ms s => exec_ready_idle, fun w mask s => exec_clearAlt_clears, fun w i s => exec_ledgerSelect_stores⟩
  · refine ⟨exec_bootStepComplete_plain hd hl, exec_bootStepComplete_fuses hd hl, exec_bootStepComplete_plls hd hl, fun h => ?_,
      exec_bootStepComplete_firn hd hl, exec_bootStepComplete_serdes hd hl, exec_bootStepComplete_segments hd hl⟩
    split
    · next hi => exact exec_bootStepComplete_noImage hd hl h hi
    · next hi => exact exec_bootStepComplete_image hd hl h hi
  · rw [exec_bootStepFail_runs hd]
    refine ⟨fun h => if_pos h, fun h hb => ?_, fun h ha => ?_, fun n h hb ha => ?_⟩
    · rw [if_neg (by omega), if_pos ⟨h, hb⟩]
    · rw [if_neg (by omega), if_neg (by rintro ⟨h8, hb⟩; simp [h8, hb] at h), ha, if_neg (by simp)]
    · subst h
      have hb' : ¬(s.bootNow = 8 ∧ b = true) := by simp [hb]
      refine ⟨fun h => ?_, fun h => ?_⟩
      · rw [if_neg (by omega), if_neg hb', if_pos (by rcases h with h | h | h <;> simp [altStep, h, hb, h ▸ ha])]
        dsimp only
        rw [if_neg (by omega), get_setAlternative (by omega) (by omega)]
      · rw [if_neg (by omega), if_neg hb', if_pos (by rcases h with h | h <;> simp [altStep, h, hb, h ▸ ha])]
        dsimp only
        rw [if_pos (by omega), get_setAlternative (by omega) (by omega)]

/-! ## Fuses (R519) -/

theorem fuseMay_open (h : s.fuseMay w = true) : s.bootOpen w = true := by
  unfold State.fuseMay at h
  exact (Bool.and_eq_true_iff.1 h).1

theorem exec_fuseArm_arms (h : s.fuseMay w = true) (ho : op = 1 ∨ op = 2 ∨ op = 3) : exec (.fuseArm w op arg) s =
    .next ((((s.put BFX_armed 0 true).set BFX_op 0 op).set BFX_arg 0 arg).set BFX_ns 0 s.clk) := by
  show execFuseArm w op arg s = _
  unfold execFuseArm
  rw [fuseMay_open h, h, if_neg (by decide), if_neg (by decide), if_pos ho]

theorem fuseRun_programs {f : State → State} {ok : Bool} (h : s.fuseMay w = true) (hg : s.fuseGo op arg = true) (hok : ok = true) :
    s.fuseRun w op arg ok f = f ((s.put BFX_armed 0 false).put BOOT_FUSE_CMD_busy 0 true) := by
  unfold State.fuseRun
  rw [fuseMay_open h, h, hg, hok]
  rfl

theorem fuseRun_refused {f : State → State} {ok : Bool} (h : s.fuseMay w = true) (hg : s.fuseGo op arg = false) :
    s.fuseRun w op arg ok f = (s.put BOOT_FUSE_CMD_refused 0 true).put BFX_armed 0 false := by
  unfold State.fuseRun
  rw [fuseMay_open h, h, hg]
  rfl

theorem fuseRun_forbidden {f : State → State} {ok : Bool} (hw : s.bootOpen w = true) (h : s.fuseMay w = false) :
    s.fuseRun w op arg ok f = s.put BOOT_FUSE_CMD_refused 0 true := by
  unfold State.fuseRun
  rw [hw, h]
  rfl

theorem exec_fuseArm_forbidden (hw : s.bootOpen w = true) (h : s.fuseMay w = false) :
    exec (.fuseArm w op arg) s = .next (s.put BOOT_FUSE_CMD_refused 0 true) := by
  show execFuseArm w op arg s = _
  unfold execFuseArm
  rw [hw, h]
  rfl

theorem exec_revoke_programs (h : s.fuseMay w = true) (hg : s.fuseGo 2 arg = true) (ha : arg < 4) (ho : s.otherKeys arg = true)
    (hs : SM.sorted s.fld = true) : exec (.revoke w arg) s =
      .next (((s.put BFX_armed 0 false).put BOOT_FUSE_CMD_busy 0 true).set FZ_revoked 0 (s.get FZ_revoked 0 ||| 2 ^ arg)) := by
  show Host.Outcome.next (s.fuseRun w 2 arg _ _) = _
  have hk : ((s.put BFX_armed 0 false).put BOOT_FUSE_CMD_busy 0 true).get FZ_revoked 0 = s.get FZ_revoked 0 :=
    ((Spares.refl.put (by decide)).put (by decide) hs).2
  rw [fuseRun_programs h hg (by simp [ha, ho]), hk]

/-- Settles O18: arming, the three programs, and the refusals. -/
theorem fuseOperations : Obligations.FuseOperations := by
  unfold Obligations.FuseOperations
  refine ⟨fun w op arg s => exec_fuseArm_arms, fun w arg s h hg => ?_, fun w arg s h hg ha ho hwf => exec_revoke_programs h hg ha ho (wf_sorted hwf),
    fun w arg s h hg h1 h2 => ?_, fun w op arg s hw h => ⟨exec_fuseArm_forbidden hw h, ?_⟩, fun w arg s h hg => ?_⟩
  · exact congrArg Host.Outcome.next (fuseRun_programs h hg rfl)
  · exact congrArg Host.Outcome.next (fuseRun_programs h hg (decide_eq_true ⟨h1, h2⟩))
  · exact congrArg Host.Outcome.next (fuseRun_forbidden hw h)
  · exact congrArg Host.Outcome.next (fuseRun_refused h hg)

/-! ## Clocks and gates (R502 to R506) -/

theorem exec_sysRefclkLost_latches (hd : s.dev ≠ 0) (hc : s.flag CLK_lost 0 = false) (hr : s.get MT_CFG_ref_sel 0 ≠ 0)
    (hl : s.flag MTX_lost 0 = false) (hs : SM.sorted s.fld = true) :
    exec .sysRefclkLost s = .next ((s.put CLK_lost 0 true).put PWR_CLK_STATUS_sys_ref_lost 0 true) := by
  have hk : ∀ {g : Fld}, g.id % 4096 ≠ CLK_lost.id % 4096 → g.id % 4096 ≠ PWR_CLK_STATUS_sys_ref_lost.id % 4096 →
      Spares g 0 s ((s.put CLK_lost 0 true).put PWR_CLK_STATUS_sys_ref_lost 0 true) := fun h1 h2 => (Spares.refl.put h1).put h2
  show execSysRefclkLost s = _
  unfold execSysRefclkLost
  rw [if_neg (by simp [hd, hc])]
  dsimp only
  rw [(hk (by decide) (by decide) hs).2, flag_of_spares (hk (by decide) (by decide)) hs, if_neg (by simp [hr, hl])]

theorem exec_gateCfgWrite_on {v : Nat} (hw : s.bootOpen w = true) (h31 : bit v 31 = true) (hd : bits v 16 10 ≠ 0) (hu : bits v 0 16 ≠ 0) :
    exec (.gateCfgWrite w v) s =
      .next (((s.put PWR_GATE_CFG_en 0 true).set PWR_GATE_CFG_wake_depth 0 (bits v 16 10)).set PWR_GATE_CFG_gate_us 0 (bits v 0 16)) := by
  show execGateCfgWrite w v s = _
  unfold execGateCfgWrite
  dsimp only
  rw [if_pos hw, h31, if_neg hd, if_neg hu]
  rfl

theorem exec_gateCfgWrite_off {v : Nat} (hw : s.bootOpen w = true) (h31 : bit v 31 = false) (hd : bits v 16 10 = 0) (hu : bits v 0 16 = 0) :
    exec (.gateCfgWrite w v) s =
      .next (forEach (List.range 32) (fun l u => u.wakeLane l)
        (forEach (List.range 16) (fun k u => u.wakeCluster k) (s.put PWR_GATE_CFG_en 0 false))) := by
  show execGateCfgWrite w v s = _
  unfold execGateCfgWrite
  dsimp only
  rw [if_pos hw, h31, if_pos hd, if_pos hu]
  rfl

theorem exec_clusterGate_gates (hr : s.coresRun = true) (he : s.flag PWR_GATE_CFG_en 0 = true)
    (hb : bit (s.get PWR_GATE_STATUS_clusters 0) k = false) (hd : s.dispDeep k = false) (hn : s.session k = false)
    (ht : ∀ t ∈ clusterThreads k, s.restful t = true ∧ s.outstanding t = false) :
    exec (.clusterGate k) s = .next (s.set PWR_GATE_STATUS_clusters 0 (s.get PWR_GATE_STATUS_clusters 0 + 2 ^ k)) := by
  have hall : (clusterThreads k).all (fun t => s.restful t && !s.outstanding t) = true :=
    List.all_eq_true.2 (fun t h => by rw [(ht t h).1, (ht t h).2]; rfl)
  show execClusterGate k s = _
  unfold execClusterGate
  dsimp only
  rw [hr, he, hb, hd, hn, hall]
  rfl

theorem exec_laneGate_gates (hr : s.coresRun = true) (he : s.flag PWR_GATE_CFG_en 0 = true)
    (hb : bit (s.get PWR_GATE_STATUS_lanes 0) l = false) (hj : s.laneJob l = none) :
    exec (.laneGate l) s = .next (s.set PWR_GATE_STATUS_lanes 0 (s.get PWR_GATE_STATUS_lanes 0 + 2 ^ l)) := by
  show execLaneGate l s = _
  unfold execLaneGate
  dsimp only
  rw [hr, he, hb, hj]
  rfl

/-- Settles O19: the reference clock, the calibration, and the gates of clusters and lanes. -/
theorem clocksAndGating : Obligations.ClocksAndGating := by
  unfold Obligations.ClocksAndGating
  refine ⟨fun s hd hc hr hl hwf => exec_sysRefclkLost_latches hd hc hr hl (wf_sorted hwf), fun s hd => ?_, fun g s hp hu => ?_,
    fun w v s => exec_gateCfgWrite_on, fun w v s => exec_gateCfgWrite_off, fun k s => exec_clusterGate_gates, fun k s hr hw => ?_,
    fun l s => exec_laneGate_gates, fun l s hr hd => ?_⟩
  · exact if_neg (by simp [hd])
  · exact if_pos (by rw [hp, hu]; rfl)
  · exact if_pos (by rw [hr, hw]; rfl)
  · exact if_pos (by rw [hr, decide_eq_true hd]; rfl)

end Sys2Proof.Proofs
end

section
/-! PROOFS. Polls, dormancy and acceptance of work queues (spec/03_work_queues.md, R33 to R37 and R66 to R93). -/

namespace Sys2Proof.Proofs

open Sys2Proof Sys2Proof.Machine Sys2Proof.Machine.Reg Sys2Proof.Laws

variable {s u : State} {w : Who} {q g l : Nat}

/-! ## Polls -/

theorem exec_pollDue_serves {qs due : List Nat}
    (hu : u = forEach qs (fun q t => if pollTurn t q && !t.flag QX_due q then t.dueAt q t.clk else t) s)
    (hd : due = (u.having QX_due 1).filter (pollReady u)) (hne : due ≠ [])
    (hq : pollEarliest u (due.filter (fun p => u.qOwner p == (pollNextFn u (due.map u.qOwner)).1)) = some q) :
    exec (.pollDue qs) s = .next (((pollServe u q).set QM_pollfn 0 (pollNextFn u (due.map u.qOwner)).1).set QM_polldef 0
      ((pollNextFn u (due.map u.qOwner)).2 - 1)) := by
  show execPollDue qs s = _
  unfold execPollDue
  dsimp only
  rw [← hu, ← hd, if_neg (by simpa using hne), hq]

/-- The state in which the data of a poll is judged: the read is over, and it was or was not the last one. -/
def polled (s : State) (q : Nat) : State := (s.put QX_poll q false).put QX_last q false

theorem polled_get {f : Fld} {j : Nat} (hs : SM.sorted s.fld = true) (h1 : f.id % 4096 ≠ QX_poll.id % 4096)
    (h2 : f.id % 4096 ≠ QX_last.id % 4096) : (polled s q).get f j = s.get f j := ((Spares.refl.put h1).put h2 hs).2

/-- What the data of a poll is judged by is as it was before. -/
theorem polled_same (hs : SM.sorted s.fld = true) : (polled s q).qState q = s.qState q ∧ (polled s q).masterStop = s.masterStop ∧
    (polled s q).fnState ((polled s q).qOwner q) = s.fnState (s.qOwner q) ∧ (polled s q).open_ = s.open_ ∧
    (polled s q).flag PW_stopacc 0 = s.flag PW_stopacc 0 ∧ (polled s q).clk = s.clk ∧
    pollTake ((polled s q).get QM_QCTX_CTRL_log2size q) ((polled s q).get QX_polln q) ((polled s q).qCons q) =
      pollTake (s.get QM_QCTX_CTRL_log2size q) (s.get QX_polln q) (s.qCons q) := by
  have hk : ∀ {f : Fld} {j : Nat}, f.id % 4096 ≠ QX_poll.id % 4096 → f.id % 4096 ≠ QX_last.id % 4096 →
      (polled s q).get f j = s.get f j := polled_get hs
  simp (disch := decide) only [State.qState, State.masterStop, State.fnState, State.qOwner, State.open_, State.dev, State.flag, State.clk,
    State.qCons, hk, and_self]

section
variable (hs : SM.sorted s.fld = true) (hp : s.flag QX_poll q = true) (hm : s.masterStop = false) (hf : s.fnState (s.qOwner q) = fsActive)
include hs hp hm hf

/-- The return of a poll's data of a queue that is ACTIVE while the datapath takes in work. -/
theorem pollDataReturn_active {bs : List Byte} {got : List (List Byte)} (ha : s.qState q = qsActive) (ho : s.open_ = true)
    (hw : s.flag PW_stopacc 0 = false)
    (hg : got = pollTake (s.get QM_QCTX_CTRL_log2size q) (s.get QX_polln q) (s.qCons q) bs) :
    exec (.pollDataReturn q (.data bs)) s = if got.isEmpty then
        (if s.flag QX_last q then .next ((((polled s q).inc QX_idle q).pmu 0 2 1).setQ q qsDormant)
         else .next ((((polled s q).inc QX_idle q).pmu 0 2 1).dueAt q ((((polled s q).inc QX_idle q).pmu 0 2 1).get QX_duens q +
          pollInterval ((((polled s q).inc QX_idle q).pmu 0 2 1).get QM_QCTX_CTRL_poll_class q))))
      else if s.flag QX_last q then
        .next ((((((polled s q).setFetched q got).set QX_idle q 0).dueAt q s.clk).put QX_dorm q false).writeback q false false)
      else .next ((((polled s q).setFetched q got).set QX_idle q 0).dueAt q s.clk) := by
  obtain ⟨h1, h2, h3, h4, h5, h6, h7⟩ := polled_same (q := q) hs
  show execPollDataReturn q (.data bs) s = _
  unfold execPollDataReturn
  rw [hp, if_neg (by decide)]
  dsimp only
  rw [show (s.put QX_poll q false).put QX_last q false = polled s q from rfl, h1, h2, h3, hm, hf, ha, if_neg (by decide), if_neg (by decide),
    h4, h5, ho, hw, if_neg (by decide), h7, ← hg, h6]

theorem exec_pollDataReturn_timeout (ha : s.qState q = qsActive ∨ s.qState q = qsDraining) :
    exec (.pollDataReturn q .timeout) s =
      .next (((polled s q).aer (s.qOwner q) (ReadResult.aerBit .timeout) false []).queueError q 1) := by
  obtain ⟨h1, h2, h3, h4, h5, h6, h7⟩ := polled_same (q := q) hs
  have ho : (polled s q).qOwner q = s.qOwner q := polled_get hs (by decide) (by decide)
  show execPollDataReturn q .timeout s = _
  unfold execPollDataReturn
  rw [hp, if_neg (by decide)]
  dsimp only
  rw [show (s.put QX_poll q false).put QX_last q false = polled s q from rfl, h1, h2, h3, hm, hf, if_neg, ho]
  rcases ha with e | e <;> rw [e] <;> decide

end

/-! ## Dormancy and the writeback timer -/

theorem exec_dormancyStart_starts (hm : s.mayPoll q = true) (h0 : s.get QM_QCTX_POLL_poll_idle_n q ≠ 0)
    (hn : s.get QM_QCTX_POLL_poll_idle_n q ≤ s.get QX_idle q) (hd : s.flag QX_dorm q = false) :
    exec (.dormancyStart q) s = .next ((((s.put QX_dorm q true).writeback q false false).put QX_last q true).pollIssue q) := by
  have hdn : s.dormNext q = true := by simp [State.dormNext, h0, hn, hd]
  exact if_pos (by rw [hm, hdn]; rfl)

section
variable (hb : s.busOpen (if g < 2 then .pf g else .vf g) = true) (hq : s.queueAt g l = some q)
include hb hq

theorem exec_armWrite_dormant (hd : (s.pmu 0 6 1).qState q = qsDormant) (hf : (s.pmu 0 6 1).fnState g ≠ fsFreezing) :
    exec (.armWrite g l) s = .next ((s.pmu 0 6 1).armNow q) := by
  show execArmWrite g l s = _
  unfold execArmWrite
  rw [hb, if_neg (by decide), hq]
  exact (if_pos hd).trans (if_neg hf)

theorem exec_armWrite_frozen (hd : (s.pmu 0 6 1).qState q = qsFrozen) :
    exec (.armWrite g l) s = .next ((s.pmu 0 6 1).put QM_QCTX_STATUS_arm_pending q true) := by
  show execArmWrite g l s = _
  unfold execArmWrite
  rw [hb, if_neg (by decide), hq]
  exact (if_neg (by rw [hd]; decide)).trans (if_pos hd)

theorem exec_armWrite_active (hd : (s.pmu 0 6 1).qState q = qsActive) : exec (.armWrite g l) s = .next (s.pmu 0 6 1) := by
  show execArmWrite g l s = _
  unfold execArmWrite
  rw [hb, if_neg (by decide), hq]
  exact (if_neg (by rw [hd]; decide)).trans (if_neg (by rw [hd]; decide))

end

theorem exec_wbTimerExpiry_writes (hw : s.flag QX_wbdue q = true) (h0 : s.get QM_QCTX_POLL_wb_us q ≠ 0) (hr : s.ringMode q = false)
    (hd : s.qState q ≠ qsDisabled) (hm : s.masterStop = false) : exec (.wbTimerExpiry q) s = .next (s.writeback q false false) :=
  if_pos (by simp [hw, h0, hr, hd, hm])

/-- Settles O22: the turn of the poll engine, the data of a poll, dormancy, arm words and the writeback timer. -/
theorem pollsAndDormancy : Obligations.PollsAndDormancy := by
  unfold Obligations.PollsAndDormancy
  refine ⟨fun qs s u due q => exec_pollDue_serves, fun q bs s u hwf hp hm hf hu => ?_, fun q s => exec_dormancyStart_starts,
    fun g l q s hb hq => ⟨exec_armWrite_dormant hb hq, exec_armWrite_frozen hb hq, exec_armWrite_active hb hq⟩,
    fun q s => exec_wbTimerExpiry_writes⟩
  have hs := wf_sorted hwf
  have hu' : u = polled s q := hu
  subst hu'
  refine ⟨fun ha ho hw got hg => ?_, exec_pollDataReturn_timeout hs hp hm hf⟩
  rw [pollDataReturn_active hs hp hm hf ha ho hw hg]
  refine ⟨fun h hl => ?_, fun h hl => ?_, fun h hl => ?_, fun h hl => ?_⟩
  · rw [if_neg (by simpa using h), hl, if_neg Bool.false_ne_true]
  · rw [if_neg (by simpa using h), if_pos hl]
  · rw [h, hl]
    rfl
  · rw [h, hl]
    rfl

/-! ## Acceptance -/

theorem entryAccept_steps (hf : s.mayFetch q = true) (ha : s.qState q = qsActive) :
    exec (.entryAccept q) s = .next (s.acceptSteps q) := if_pos (by rw [hf, ha]; rfl)

section
variable {e : List Byte} {l : List (List Byte)} (hf : s.mayFetch q = true) (ha : s.qState q = qsActive) (he : s.fetchedOf q = e :: l)
  (hw : s.flag QX_mwait q = false) (hr : s.ringFull q = false)
include hf ha he hw hr

/-- A ring-mode queue without a credit stalls. -/
theorem exec_entryAccept_stalls (hm : s.ringMode q = true) (hv : s.flag QX_resv q = false) (hc : s.credits (s.qRing q) = 0)
    (hs : s.flag QM_QCTX_STATUS_cq_stall q = false) :
    exec (.entryAccept q) s = .next (((((s.put QM_QCTX_STATUS_cq_stall q true).inc QM_QCTX_STALLS_stalls q).set
      QX_stallns q s.clk).put QX_stallev q false).pmu 0 5 1) := by
  rw [entryAccept_steps hf ha]
  unfold State.acceptSteps
  rw [he]
  dsimp only
  rw [hw, hr, hm, hv, hc, hs]
  rfl

section
variable {a b : State} (hc : ¬(s.ringMode q = true ∧ s.flag QX_resv q = false ∧ s.credits (s.qRing q) = 0))
  (hA : a = if s.ringMode q = true ∧ s.flag QX_resv q = false then
    ((s.takeCredit (s.qRing q)).put QX_resv q true).put QM_QCTX_STATUS_cq_stall q false else s)
  (hB : b = if a.flag QX_jrnl q = true then a else (a.firnAppend (.accept q { idx := a.qCons q, seq := a.get QM_QCTX_SEQ_acc_seq q, tag := weTag e }
    (a.qOwner q) (a.get QM_QCTX_BASE_base q) (a.get QM_QCTX_CTRL_log2size q) (a.get QM_QCTX_CTRL_cmode q) (a.qRing q)
    (a.mirrored q))).put QX_jrnl q true)
include hc hA hB

/-- The last of the steps of R33, once the credit is taken and the ACCEPT record is in Firn. -/
theorem entryAccept_journaled : exec (.entryAccept q) s = .next (
    if b.mirrored q && !b.flag QX_mack q then
      (b.put QX_mwait q true).twinAwait (.mirror [.accept q (b.qCons q) 1 (a.get QM_QCTX_SEQ_acc_seq q)]) (.accept q)
    else if b.syncing && b.qmask q then
      (b.twinSend (.mirror [.accept q (b.qCons q) 1 (a.get QM_QCTX_SEQ_acc_seq q)])).acceptNow q
    else b.acceptNow q) := by
  have hA' : a = if (s.ringMode q && !s.flag QX_resv q) = true then
      ((s.takeCredit (s.qRing q)).put QX_resv q true).put QM_QCTX_STATUS_cq_stall q false else s := by
    rw [hA]
    exact ite_congr (by rw [Bool.and_eq_true, Bool.not_eq_true']) (fun _ => rfl) (fun _ => rfl)
  rw [entryAccept_steps hf ha]
  unfold State.acceptSteps
  rw [he]
  dsimp only
  rw [hw, hr, if_neg (by decide), if_neg, ← hA', ← hB]
  rw [Bool.and_eq_true, Bool.and_eq_true, Bool.not_eq_true', beq_iff_eq]
  rintro ⟨⟨h1, h2⟩, h3⟩
  exact hc ⟨h1, h2, h3⟩

theorem exec_entryAccept_accepts (hm : b.mirrored q = false) (hy : b.syncing = false) : exec (.entryAccept q) s = .next (b.acceptNow q) := by
  rw [entryAccept_journaled hf ha he hw hr hc hA hB, hm, hy]
  rfl

theorem exec_entryAccept_awaits (hm : b.mirrored q = true) (hk : b.flag QX_mack q = false) : exec (.entryAccept q) s =
    .next ((b.put QX_mwait q true).twinAwait (.mirror [.accept q (b.qCons q) 1 (a.get QM_QCTX_SEQ_acc_seq q)]) (.accept q)) := by
  rw [entryAccept_journaled hf ha he hw hr hc hA hB, hm, hk]
  rfl

end
end

/-- The entry joins the accepted ones: the first steps of `State.acceptNow`. -/
def entered (s : State) (q : Nat) (e : List Byte) (l : List (List Byte)) : State :=
  (((((((s.setFetched q l).setEnts q (s.entsOf q ++ [
    { idx := s.qCons q, seq := s.get QM_QCTX_SEQ_acc_seq q, bytes := e, frags := [], tab := weIndirect e, way := false,
      done := none, mirr := false, acc := s.now }])).set QM_QCTX_START_cons q
    (s.qCons q + 1)).inc QM_QCTX_SEQ_acc_seq q).put QX_resv q false).put QX_jrnl q false).put QX_mwait q false).put QX_mack q false

theorem entered_indices {e : List Byte} {l : List (List Byte)} (hs : SM.sorted s.fld = true) :
    (entered s q e l).get QM_QCTX_START_cons q = (s.qCons q + 1) % 2 ^ 16 ∧
    (entered s q e l).get QM_QCTX_SEQ_acc_seq q = (s.get QM_QCTX_SEQ_acc_seq q + 1) % 2 ^ 48 := by
  unfold entered
  generalize hu : (s.setFetched q l).setEnts q _ = u
  have hus : SM.sorted u.fld = true := by rw [← hu]; exact hs
  have hug : u.get QM_QCTX_SEQ_acc_seq q = s.get QM_QCTX_SEQ_acc_seq q := by rw [← hu]; rfl
  have hks : ∀ {g : Fld} {v : State}, [QX_resv, QX_jrnl, QX_mwait, QX_mack].all (fun f => g.id % 4096 != f.id % 4096) = true →
      Spares g q v ((((v.put QX_resv q false).put QX_jrnl q false).put QX_mwait q false).put QX_mack q false) := fun {g v} h => by
    simp only [List.all_cons, List.all_nil, Bool.and_true, Bool.and_eq_true, bne_iff_ne] at h
    exact (((Spares.refl.put h.1).put h.2.1).put h.2.2.1).put h.2.2.2
  have h1 := set_sorted (f := QM_QCTX_START_cons) (i := q) (v := s.qCons q + 1) hus
  have h2 : SM.sorted ((u.set QM_QCTX_START_cons q (s.qCons q + 1)).inc QM_QCTX_SEQ_acc_seq q).fld = true := set_sorted h1
  refine ⟨?_, ?_⟩
  · rw [(hks (by decide) h2).2]
    exact (get_set_ne h1 (by decide)).trans (get_set_same hus)
  · rw [(hks (by decide) h2).2]
    refine (get_set_same h1).trans ?_
    rw [get_set_ne hus (by decide), hug]
    rfl

/-- Acceptance of the oldest fetched entry: it joins the accepted ones, the published head is written, and then the entry is
judged (R34, R37, R69). -/
theorem acceptNow_judges {e : List Byte} {l : List (List Byte)} {w : State} (he : s.fetchedOf q = e :: l)
    (hw : w = (((entered s q e l).set QM_QCTX_START_done q ((entered s q e l).firstOpen q)).pmu 0 3 1).writeback q false false) :
    s.acceptNow q = if entryBad (w.qClass q) e || w.entryStream q e then w.finish q (s.qCons q) 0x20 0 0
      else if w.entryDenied q e then w.finish q (s.qCons q) 0x22 0 0
      else if weIndirect e then w.hostRead (w.qOwner q) (weAddr e) (16 * weNfrag e) false false (.entry q (s.qCons q)) else w := by
  unfold State.acceptNow
  rw [he]
  dsimp only
  rw [hw]
  rfl

/-- The return of a fragment table that an entry waits for. -/
theorem exec_fragmentTableReadReturn_data {idx : Nat} {t : List Byte} {e : Ent} (he : s.entAt q idx = some e) (ht : e.tab = true)
    (hd : e.done = none) (hm : e.mirr = false) :
    exec (.fragmentTableReadReturn q idx (.data t)) s = if fragsOk t (weNfrag e.bytes) (entryLen (s.qClass q) e.bytes) then
      .next (s.updEnt q idx (fun x => { x with tab := false, frags := fragList t (weNfrag e.bytes) }))
      else .next (s.finish q idx 0x21 0 0) := by
  show execFragmentTableReadReturn q idx (.data t) s = _
  unfold execFragmentTableReadReturn
  rw [he]
  dsimp only
  rw [ht, hd, hm]
  rfl

/-- Settles O23: the stall, the steps up to acceptance, the judgement of an entry, and its fragment table. -/
theorem entriesAreAccepted : Obligations.EntriesAreAccepted := by
  unfold Obligations.EntriesAreAccepted
  refine ⟨fun q e l s hf ha he hw hr => ⟨exec_entryAccept_stalls hf ha he hw hr, fun hc a b hA hB =>
    ⟨exec_entryAccept_accepts hf ha he hw hr hc hA hB, exec_entryAccept_awaits hf ha he hw hr hc hA hB⟩⟩,
    fun q e l s u w hwf he hu hw => ?_, fun q idx t e s he ht hd hm => ?_⟩
  · have hu' : u = entered s q e l := hu
    subst hu'
    obtain ⟨h1, h2⟩ := entered_indices (q := q) (e := e) (l := l) (wf_sorted hwf)
    refine ⟨h1, h2, fun hb => ?_, fun hb hst => ⟨fun hd => ?_, fun hd hi => ?_, fun hd hi => ?_⟩⟩
    · rw [acceptNow_judges he hw, if_pos (by rcases hb with h | h <;> rw [h] <;> simp)]
    · rw [acceptNow_judges he hw, hb, hst, if_neg (by decide), if_pos hd]
    · rw [acceptNow_judges he hw, hb, hst, if_neg (by decide), hd, if_neg (by decide), hi, if_neg (by decide)]
    · rw [acceptNow_judges he hw, hb, hst, if_neg (by decide), hd, if_neg (by decide), if_pos hi]
  · rw [exec_fragmentTableReadReturn_data he ht hd hm]
    exact ⟨fun h => if_pos h, fun h => if_neg (by rw [h]; exact Bool.false_ne_true)⟩

end Sys2Proof.Proofs
end

section
/-! PROOFS. The states of queues, completion rings and event rings (spec/03_work_queues.md, R83 to R95). -/

namespace Sys2Proof.Proofs

open Sys2Proof Sys2Proof.Machine Sys2Proof.Machine.Reg Sys2Proof.Laws

variable {s u v : State} {w : Who} {q r pf : Nat}

/-! ## Queue states (Table WQ-10) -/

section
variable (hb : s.busOpen w = true) (ho : ownerMay w (s.qOwner q) = true)
include hb ho

theorem exec_queueEnable_enables (hd : s.qState q = qsDisabled) (hx : s.enableBad q = false)
    (hu : u = ((s.set QX_idle q 0).put QX_dorm q false).put QX_last q false)
    (hv : v = if u.flag QM_QCTX_STATUS_recov_pend q = true then u.recovStart q else u) :
    exec (.queueEnable w q) s = .next ((v.setQ q qsActive).dueAt q v.clk) := by
  show execQueueEnable w q s = _
  unfold execQueueEnable
  rw [hb, ho, if_neg (by decide), hd, if_neg (by decide), if_neg (by decide), hx, if_neg (by decide)]
  dsimp only
  rw [← hu, ← hv]

theorem exec_queueEnable_refused (hd : s.qState q = qsDisabled) (hx : s.enableBad q = true) :
    exec (.queueEnable w q) s = .next (s.put QM_QCTX_STATUS_cfg_refused q true) := by
  show execQueueEnable w q s = _
  unfold execQueueEnable
  rw [hb, ho, if_neg (by decide), hd, if_neg (by decide), if_neg (by decide), if_pos hx]
  rfl

theorem exec_queueDisable_drains (ha : s.qState q = qsActive ∨ s.qState q = qsDormant) : exec (.queueDisable w q) s =
    .next ((((((((s.flushCoalQ q).discardFetched q).put QX_due q false).put QX_dorm q false).setQ q qsDraining).pump q).cancelPlaces q)) := by
  show execQueueDisable w q s = _
  unfold execQueueDisable
  rw [hb, ho, if_neg (by decide), if_pos ha]

theorem exec_queueDisable_off (ha : s.qState q = qsFrozen ∨ s.qState q = qsError) (hu : u = (s.put QX_offreq q true).pump q)
    (hm : u.mayOff q = true) : exec (.queueDisable w q) s = .next (u.disableNow q true) := by
  show execQueueDisable w q s = _
  unfold execQueueDisable
  rw [hb, ho, if_neg (by decide), if_neg (by rcases ha with h | h <;> rw [h] <;> decide), if_pos ha, ← hu]
  exact if_pos hm

theorem exec_startIndexWrite_sets {cons : Nat} (hd : s.qState q = qsDisabled) (hr : s.flag QM_QCTX_STATUS_recov_pend q = false) :
    exec (.startIndexWrite w q cons) s =
      .next (((s.set QM_QCTX_START_cons q cons).set QX_pub q cons).set QM_QCTX_START_done q cons) := by
  show execStartIndexWrite w q cons s = _
  unfold execStartIndexWrite
  rw [hb, ho, if_neg (by decide), if_neg (by rw [hd]; decide), hr]
  rfl

theorem exec_startIndexWrite_refused {cons : Nat} (hd : s.qState q ≠ qsDisabled) :
    exec (.startIndexWrite w q cons) s = .next (s.put QM_QCTX_STATUS_cfg_refused q true) := by
  show execStartIndexWrite w q cons s = _
  unfold execStartIndexWrite
  rw [hb, ho, if_neg (by decide), if_pos hd]
  rfl

end

theorem exec_queueDrainComplete_disables (he : s.entsOf q = []) (hf : s.fnHeld (s.qOwner q) = false) (hm : s.masterStop = false)
    (hd : s.qState q = qsDraining) : exec (.queueDrainComplete q) s = .next (s.disableNow q true) := by
  have hoff : s.mayOff q = true := by simp [State.mayOff, he, hf, hm]
  exact if_pos (by rw [hoff, hd]; rfl)

theorem exec_cqStall_records (hc : s.flag QM_QCTX_STATUS_cq_stall q = true) (he : s.flag QX_stallev q = false)
    (h0 : s.get QM_CFG_cq_stall_limit 0 ≠ 0) (hz : s.credits (s.qRing q) = 0) :
    exec (.cqStall q) s = .next ((s.put QX_stallev q true).evRecord (pfOf (s.qOwner q))
      (cqStallRec q (s.qRing q) (max (s.get QM_CFG_cq_stall_limit 0) ((s.clk - s.get QX_stallns q) / 1000)))) :=
  if_pos (by simp [hc, he, h0, hz])

/-! ### Why the statement of O24 fails

Its first clause reads the clock for the due time after the state of the queue has moved, the model before. In every state of
the form both read the same (`setQ_clk`), and the statement holds (`queueStatesOfForm`); but it does not ask for the form. -/

theorem pmu_clk {b e n : Nat} : Spares CLK_ticks 0 s (s.pmu b e n) :=
  Spares.refl.forEach (fun j _ t k => by
    dsimp only
    exact Spares.ite (Spares.ite ((k.set (by decide)).put (by decide)) (k.set (by decide))) k)

theorem emit_clk {o : Out} (h : Spares CLK_ticks 0 s u) : Spares CLK_ticks 0 s (u.emit o) := h.other rfl

theorem twinSend_clk {m : TwinMsg} : Spares CLK_ticks 0 s (s.twinSend m) := by
  have h1 : Spares CLK_ticks 0 s (s.set TWX_txctr 0 (s.get TWX_txctr 0 + 1)) := Spares.refl.set (by decide)
  unfold State.twinSend
  dsimp only
  generalize s.set TWX_txctr 0 (s.get TWX_txctr 0 + 1) = u at h1
  cases m
  case mirror recs => exact Spares.ite (emit_clk (h1.trans pmu_clk)) (h1.trans pmu_clk)
  all_goals exact Spares.ite (emit_clk h1) h1

theorem twinAwait_clk {m : TwinMsg} {x : TwinWait} : Spares CLK_ticks 0 s (s.twinAwait m x) := by
  have h := twinSend_clk (s := s) (m := m)
  unfold State.twinAwait
  generalize s.twinSend m = u at h
  exact (h.set (by decide)).other rfl

/-- Moving a queue to a state leaves the clock as it is. -/
theorem setQ_clk {st : Nat} (hs : SM.sorted s.fld = true) : (s.setQ q st).clk = s.clk := by
  have h1 : Spares CLK_ticks 0 s ((s.set QM_QCTX_STATUS_state q st).put QM_QCTX_CTRL_en q
      (st == qsActive || st == qsDormant || st == qsFrozen || st == qsError)) := (Spares.refl.set (by decide)).put (by decide)
  unfold State.setQ State.mirrorCtx
  dsimp only
  generalize (s.set QM_QCTX_STATUS_state q st).put QM_QCTX_CTRL_en q _ = u at h1
  split
  · exact (h1.trans twinAwait_clk hs).2
  · split
    · exact (h1.trans twinSend_clk hs).2
    · exact (h1 hs).2

/-- What O24 states, with the form as one more hypothesis of its first clause. -/
def QueueStatesOfForm : Prop :=
  (∀ (w : Who) (q : Nat) (s : State), s.wf = true → s.busOpen w = true → ownerMay w (s.qOwner q) = true →
    (∀ u v, s.qState q = qsDisabled → s.enableBad q = false → u = ((s.set QX_idle q 0).put QX_dorm q false).put QX_last q false →
      v = (if u.flag QM_QCTX_STATUS_recov_pend q = true then u.recovStart q else u) →
      exec (.queueEnable w q) s = .next ((v.setQ q qsActive).dueAt q (v.setQ q qsActive).clk)) ∧
    (s.qState q = qsDisabled → s.enableBad q = true →
      exec (.queueEnable w q) s = .next (s.put QM_QCTX_STATUS_cfg_refused q true)) ∧
    (s.qState q = qsActive ∨ s.qState q = qsDormant → exec (.queueDisable w q) s =
      .next ((((((((s.flushCoalQ q).discardFetched q).put QX_due q false).put QX_dorm q false).setQ q qsDraining).pump q).cancelPlaces q))) ∧
    (s.qState q = qsFrozen ∨ s.qState q = qsError → ∀ u, u = (s.put QX_offreq q true).pump q → u.mayOff q = true →
      exec (.queueDisable w q) s = .next (u.disableNow q true)) ∧
    (∀ cons, s.qState q = qsDisabled → s.flag QM_QCTX_STATUS_recov_pend q = false →
      exec (.startIndexWrite w q cons) s =
        .next (((s.set QM_QCTX_START_cons q cons).set QX_pub q cons).set QM_QCTX_START_done q cons)) ∧
    (∀ cons, s.qState q ≠ qsDisabled →
      exec (.startIndexWrite w q cons) s = .next (s.put QM_QCTX_STATUS_cfg_refused q true))) ∧
  (∀ (q : Nat) (s : State), s.entsOf q = [] → s.fnHeld (s.qOwner q) = false → s.masterStop = false → s.qState q = qsDraining →
    exec (.queueDrainComplete q) s = .next (s.disableNow q true)) ∧
  ∀ (q : Nat) (s : State), s.flag QM_QCTX_STATUS_cq_stall q = true → s.flag QX_stallev q = false →
    s.get QM_CFG_cq_stall_limit 0 ≠ 0 → s.credits (s.qRing q) = 0 →
    exec (.cqStall q) s = .next ((s.put QX_stallev q true).evRecord (pfOf (s.qOwner q))
      (cqStallRec q (s.qRing q) (max (s.get QM_CFG_cq_stall_limit 0) ((s.clk - s.get QX_stallns q) / 1000))))

/-- The state in which an enabled queue becomes ACTIVE meets the form. -/
theorem enabled_wf (hwf : s.wf = true) (hu : u = ((s.set QX_idle q 0).put QX_dorm q false).put QX_last q false)
    (hv : v = if u.flag QM_QCTX_STATUS_recov_pend q = true then u.recovStart q else u) : v.wf = true := by
  have hk : Keeps ⟨s, false, false, false⟩ u := hu ▸ put_ok (put_ok (set_ok Keeps.refl rfl) rfl) rfl
  exact (hv ▸ Keeps.ite (recovStart_ok hk) hk : Keeps ⟨s, false, false, false⟩ v).form hwf

/-- In states of the form the statement of O24 holds. -/
theorem queueStatesOfForm : QueueStatesOfForm := by
  unfold QueueStatesOfForm
  refine ⟨fun w q s hwf hb ho => ⟨fun u v hd hx hu hv => ?_, exec_queueEnable_refused hb ho, exec_queueDisable_drains hb ho,
    fun ha u hu hm => exec_queueDisable_off hb ho ha hu hm, fun cons hd hr => exec_startIndexWrite_sets hb ho hd hr,
    fun cons hd => exec_startIndexWrite_refused hb ho hd⟩, fun q s he hf hm hd => exec_queueDrainComplete_disables he hf hm hd,
    fun q s hc he h0 hz => exec_cqStall_records hc he h0 hz⟩
  rw [exec_queueEnable_enables hb ho hd hx hu hv, setQ_clk (wf_sorted (enabled_wf hwf hu hv))]

/-- A state whose field list is not in order: the ticks of the clock stand behind an entry with a higher number. -/
def disordered : State :=
  { State.reset with fld := [(fkey GLB_STATE_state 0, dsService), (fkey QM_QCTX_CTRL_log2size 0, 6), (fkey QM_QCTX_OWNER_gfn 0, 0),
    (fkey TWN_STATUS_state 0, 3), (fkey TWN_QMASK_mir 0, 1), (fkey TWX_sent 1, 5), (fkey CLK_ticks 0, 77)] }

/-- Refutes O24: in `disordered` the clock reads 0 before queue 0 becomes ACTIVE and 77 afterwards, since the mirrored context
takes the entry in front of it off the list; the model makes the queue due at 0, the statement at 77. -/
theorem not_queueStates : ¬ Obligations.QueueStates := by
  unfold Obligations.QueueStates
  rintro ⟨h, -⟩
  obtain ⟨henable, -⟩ := h (.fw 0) 0 disordered (by decide) (by decide)
  have hx := henable _ _ (by decide) (by decide) rfl rfl
  have hdue := congrArg (fun r => (ran disordered r).get QX_duens 0) hx
  exact absurd hdue (by decide)

/-! ## Completion rings -/

theorem exec_cringEnable_enables (hb : s.busOpen w = true) (ho : ownerMay w (s.get QM_CRCTX_CTRL_gfn r) = true)
    (he : s.flag QM_CRCTX_CTRL_en r = false) (h6 : 6 ≤ s.get QM_CRCTX_CTRL_log2size r) (h15 : s.get QM_CRCTX_CTRL_log2size r ≤ 15)
    (hf : s.fnExists (s.get QM_CRCTX_CTRL_gfn r) = true) (hr : s.flag FLT_ring r = false) :
    exec (.cringEnable w r) s =
      let u := ((s.set QM_CRCTX_IDX_resv r 0).set QM_CRCTX_IDX_prod r 0).set RX_cons r 0
      .next (forEach (u.evPfs r) (fun pf t => t.evReady pf) (u.put QM_CRCTX_CTRL_en r true)) := by
  show execCringEnable w r s = _
  unfold execCringEnable
  dsimp only
  rw [hb, ho, he, hf, hr, if_neg (by simp), if_neg (by decide), if_neg (by simp; omega)]

section
variable (hb : s.busOpen w = true) (ho : ownerMay w (s.get QM_CRCTX_CTRL_gfn r) = true) (he : s.flag QM_CRCTX_CTRL_en r = true)
include hb ho he

theorem exec_cringDisable_disables (hq : s.queuesOfRing r = []) :
    exec (.cringDisable w r) s = .next ((s.put QM_CRCTX_CTRL_en r false).put RX_read r false) := by
  show execCringDisable w r s = _
  unfold execCringDisable
  rw [hb, ho, he, hq]
  rfl

theorem exec_cringDisable_refused (hq : s.queuesOfRing r ≠ []) : exec (.cringDisable w r) s =
    .next (forEach (s.queuesOfRing r) (fun q t => t.put QM_QCTX_STATUS_cfg_refused q true) s) := by
  show execCringDisable w r s = _
  unfold execCringDisable
  dsimp only
  rw [hb, ho, he, if_neg (by decide), if_neg (by decide), if_neg (by simpa using hq)]
  rfl

end

section
variable {bs : List Byte} (hr : s.flag RX_read r = true) (hu : u = s.put RX_read r false)
include hr hu

theorem exec_consumerWordReadReturn_takes (hle : (u.get QM_CRCTX_IDX_prod r + 65536 - leAt bs 0 2) % 65536 ≤ u.ringSize r)
    (hev : (u.set RX_cons r (leAt bs 0 2)).evPfs r = [])
    (hq : ((u.set RX_cons r (leAt bs 0 2)).queuesOfRing r).filter (fun q => !(SM.get [] (u.set RX_cons r (leAt bs 0 2)).recov q).isEmpty) = []) :
    exec (.consumerWordReadReturn r (.data bs)) s = .next (u.set RX_cons r (leAt bs 0 2)) := by
  show execConsumerWordReadReturn r (.data bs) s = _
  unfold execConsumerWordReadReturn
  rw [hr, if_neg (by decide), ← hu]
  dsimp only
  rw [if_pos hle, hq]
  exact congrArg (fun l => Host.Outcome.next (forEach l (fun pf t => evDrain (SM.get [] t.backlog pf) pf t) (u.set RX_cons r (leAt bs 0 2)))) hev

theorem exec_consumerWordReadReturn_bad (hlt : u.ringSize r < (u.get QM_CRCTX_IDX_prod r + 65536 - leAt bs 0 2) % 65536) :
    exec (.consumerWordReadReturn r (.data bs)) s = .next (u.put QM_CRCTX_IRQ_cons_bad r true) := by
  show execConsumerWordReadReturn r (.data bs) s = _
  unfold execConsumerWordReadReturn
  rw [hr, if_neg (by decide), ← hu]
  dsimp only
  rw [if_neg (Nat.not_le.2 hlt)]

end

theorem exec_evringWrite_names {x : Nat} (hb : s.busOpen w = true) (hm : evMay w pf = true) (hg : s.get QM_CRCTX_CTRL_gfn (x % 2 ^ 16) = pf)
    (h31 : x.testBit 31 = true)
    (hu : u = s.put QM_CRCTX_CTRL_evring (s.get QM_EVRING_ring pf)
      (s.flag QM_EVRING_en (1 - pf) && s.get QM_EVRING_ring (1 - pf) == s.get QM_EVRING_ring pf)) :
    exec (.evringWrite w pf x) s = .next ((((u.set QM_EVRING_ring pf (x % 2 ^ 16)).put QM_EVRING_en pf true).put
      QM_CRCTX_CTRL_evring (x % 2 ^ 16) true).evReady pf) := by
  show execEvringWrite w pf x s = _
  unfold execEvringWrite
  dsimp only
  rw [bits_zero, hb, hm, hg, bit_eq_testBit, h31, ← hu, if_neg (by simp), if_pos rfl]

theorem exec_evBacklogConsRead_reads (ho : s.evOpen pf = true) (hb : SM.get [] s.backlog pf ≠ []) :
    exec (.evBacklogConsRead pf) s = .next (s.readCons (s.get QM_EVRING_ring pf)) :=
  if_pos (by simp [ho, hb])

theorem takeCredit_reads (hu : u = s.inc QM_CRCTX_IDX_resv r) (h4 : 4 * u.credits r < u.ringSize r) (hr : u.flag RX_read r = false) :
    s.takeCredit r = u.readCons r := by
  unfold State.takeCredit
  rw [← hu]
  exact if_pos ⟨h4, hr⟩

theorem takeCredit_quiet (hu : u = s.inc QM_CRCTX_IDX_resv r) (h : u.ringSize r ≤ 4 * u.credits r ∨ u.flag RX_read r = true) :
    s.takeCredit r = u := by
  unfold State.takeCredit
  rw [← hu]
  refine if_neg ?_
  rintro ⟨h4, hr⟩
  rcases h with h | h
  · omega
  · rw [h] at hr
    cases hr

theorem ringWrite_writes {rec : List Byte}
    (hu : u = s.hostWrite (s.get QM_CRCTX_CTRL_gfn r)
      (s.get QM_CRCTX_BASE_base r * 4096 + 32 * (s.get QM_CRCTX_IDX_prod r % 2 ^ s.get QM_CRCTX_CTRL_log2size r))
      (rec.take 31 ++ [BitVec.ofNat 8 (byteAt rec 31 % 128 +
        128 * (s.get QM_CRCTX_IDX_prod r / 2 ^ s.get QM_CRCTX_CTRL_log2size r % 2))]) false false)
    (hi : (u.set QM_CRCTX_IDX_prod r (s.get QM_CRCTX_IDX_prod r + 1)).flag QM_CRCTX_IRQ_irq_en r = false) :
    s.ringWrite r rec = u.set QM_CRCTX_IDX_prod r (s.get QM_CRCTX_IDX_prod r + 1) := by
  have hu' : u = s.hostWrite (s.get QM_CRCTX_CTRL_gfn r) (s.get QM_CRCTX_BASE_base r * 4096 + 32 * (s.get QM_CRCTX_IDX_prod r % s.ringSize r))
      (rec.take 31 ++ [BitVec.ofNat 8 (byteAt rec 31 % 128 + 128 * bits (s.get QM_CRCTX_IDX_prod r) (s.get QM_CRCTX_CTRL_log2size r) 1)])
      false false := hu
  unfold State.ringWrite
  dsimp only
  rw [← hu', hi]
  rfl

/-- Settles O25: rings, consumer words, event rings, credits and records. -/
theorem completionRings : Obligations.CompletionRings := by
  unfold Obligations.CompletionRings
  exact ⟨fun w r s hb ho => ⟨exec_cringEnable_enables hb ho, exec_cringDisable_disables hb ho, exec_cringDisable_refused hb ho⟩,
    fun r bs s u hr hu => ⟨exec_consumerWordReadReturn_takes hr hu, exec_consumerWordReadReturn_bad hr hu⟩,
    fun w pf x s hb hm hg h31 u hu => exec_evringWrite_names hb hm hg h31 hu, fun pf s => exec_evBacklogConsRead_reads,
    fun r s u hu => ⟨takeCredit_reads hu, takeCredit_quiet hu⟩, fun r rec s u => ringWrite_writes⟩

end Sys2Proof.Proofs
end

section
/-! PROOFS. Accesses to registers by firmware, functions and the BMC (spec/00_scope.md, spec/14_host_endpoints.md, R389,
R443, R483). -/

namespace Sys2Proof.Proofs

open Sys2Proof Sys2Proof.Machine Sys2Proof.Machine.Reg Sys2Proof.Laws

variable {s : State} {w : Who} {bar : Bar} {off v i h : Nat} {d : RegDesc}

/-! ## One register of four bytes -/

/-- A write where no window lies does not reach an arm word. -/
theorem devWrite_accWrite {x : Nat} (hw : s.winWrite w bar off x = none) : s.devWrite w bar off 4 v = s.accWrite w bar 8 off 4 v := by
  unfold State.devWrite
  unfold State.winWrite at hw
  split
  · cases hw
  · split
    · next hlt => exact absurd ((if_pos hlt).symm.trans hw) (Option.some_ne_none _)
    · rfl
  · rfl

theorem accWrite_register (ha : off % 4 = 0) (hb : d.bytes = 4) (hw : s.winWrite w bar off (v % 2 ^ 32) = none)
    (hr : regAt w bar off true = some (d, i, 0)) : s.accWrite w bar 8 off 4 v = s.regWrite w d i 0 4 (v % 2 ^ 32) := by
  simp only [State.accWrite, ha, if_true, hw, hr, hb]
  rfl

theorem regWrite_generic {x : Nat} (hn : regRule w d.base i (s.merged d.fields i 0 4 x) s = none) :
    s.regWrite w d i 0 4 x = s.genWrite d.fields i (s.merged d.fields i 0 4 x) := by
  unfold State.regWrite
  dsimp only
  rw [hn]

theorem accRead_register (ha : off % 4 = 0) (hb : d.bytes = 4) (hw : s.winRead w bar off = none)
    (hr : regAt w bar off false = some (d, i, 0)) : s.accRead w bar 8 off 4 = s.regRead w d i 0 4 := by
  have hz : ∀ (t : State) (o : Nat), t.accRead w bar 7 o 0 = (t, 0) := fun _ _ => rfl
  simp only [State.accRead, ha, if_true, hw, hr, hb, Nat.sub_zero, Nat.min_self, Nat.sub_self, hz, Nat.zero_mul, Nat.add_zero]

theorem regRead_generic (hu : s.unseen w d.base i = false)
    (hb : d.base ∉ [0x700000, 0x700008, 0x510020, 0x540000, 0x590000, 0xA04000, 0xA000A0, 0xD00028]) :
    s.regRead w d i 0 4 = (s.clearRead d i 0 4, s.regVal w d i % 2 ^ 32) := by
  simp only [List.mem_cons, List.not_mem_nil, or_false, not_or] at hb
  obtain ⟨h1, h2, h3, h4, h5, h6, h7, h8⟩ := hb
  unfold State.regRead
  rw [hu, if_neg Bool.false_ne_true]
  split
  · exact absurd ‹_› h1
  · exact absurd ‹_› h2
  · exact absurd ‹_› h3
  · exact absurd ‹_› h4
  · exact absurd ‹_› h5
  · exact absurd ‹_› h6
  · exact absurd ‹_› h7
  · exact absurd ‹_› h8
  · unfold State.fieldRead
    rw [Nat.mul_zero, Nat.pow_zero, Nat.div_one]

/-! ## The accessors -/

/-- The accessor is firmware in BAR0, or a function in its own BAR that decodes in a device that is powered. -/
def reaches (s : State) (w : Who) (bar : Bar) (off : Nat) : Prop :=
  (∃ m, w = .fw m ∧ bar = .bar0) ∨ (∃ g n, barOf w bar = some (g, n) ∧ off < n ∧ s.dev ≠ 0 ∧ s.dev ≠ dsAonOnly ∧ s.decodes g = true)

theorem sizeOk_word {rd : Bool} (ha : off % 4 = 0) : sizeOk off 4 rd = true := by simp [sizeOk, ha]

theorem exec_registerWrite_reaches (hw : reaches s w bar off) (hb : s.busOpen w = true) (ha : off % 4 = 0) :
    exec (.registerWrite w bar off 4 v) s = .next (s.devWrite w bar off 4 v) := by
  show execRegisterWrite w bar off 4 v s = _
  unfold execRegisterWrite
  rcases hw with ⟨m, rfl, rfl⟩ | ⟨g, n, hg, hlt, h0, h1, hd⟩
  · dsimp only
    rw [if_pos ⟨rfl, hb, sizeOk_word ha⟩]
  · cases w with
    | bmc => cases bar <;> cases hg
    | fw m => cases bar <;> cases hg
    | pf k =>
      dsimp only
      rw [hg]
      dsimp only
      rw [if_neg (by simp [hlt, h0, h1]), if_neg (by simp [hd, sizeOk_word ha]), if_pos (by simp [hb])]
    | vf k =>
      dsimp only
      rw [hg]
      dsimp only
      rw [if_neg (by simp [hlt, h0, h1]), if_neg (by simp [hd, sizeOk_word ha]), if_pos (by simp [hb])]

theorem exec_rcRead_reaches (hw : reaches s w bar off) (hb : s.busOpen w = true) (ha : off % 4 = 0) :
    exec (.rcRead w bar off 4) s = .next ((s.devRead w bar off 4).1.emit (.regData w 4 (s.devRead w bar off 4).2)) := by
  show execRcRead w bar off 4 s = _
  unfold execRcRead
  rcases hw with ⟨m, rfl, rfl⟩ | ⟨g, n, hg, hlt, h0, h1, hd⟩
  · dsimp only
    rw [if_pos ⟨rfl, sizeOk_word ha⟩, if_pos hb]
  · cases w with
    | bmc => cases bar <;> cases hg
    | fw m => cases bar <;> cases hg
    | pf k =>
      dsimp only
      rw [hg]
      dsimp only
      rw [if_neg (by simp [hlt, h0, h1]), if_neg (by simp [hd, sizeOk_word ha]), if_pos (by simp [hb])]
    | vf k =>
      dsimp only
      rw [hg]
      dsimp only
      rw [if_neg (by simp [hlt, h0, h1]), if_neg (by simp [hd, sizeOk_word ha]), if_pos (by simp [hb])]

theorem devRead_word : s.devRead w bar off 4 = s.accRead w bar 8 off 4 := if_neg (by decide)

/-! ## The BMC's messages -/

theorem exec_regRead_answers (hh : s.bmcHeard = true) (hs : s.bmcStatus off false = 0) :
    exec (.regRead off) s = .next ((s.devRead .bmc .bar0 off 4).1.emit
      (.mctp (vdmRsp 1 0 (beBytes 4 (s.devRead .bmc .bar0 off 4).2)))) := by
  show execRegRead off s = _
  unfold execRegRead
  rw [hh, hs]
  rfl

theorem exec_regRead_refused (hh : s.bmcHeard = true) (hs : s.bmcStatus off false ≠ 0) :
    exec (.regRead off) s = .next (s.emit (.mctp (vdmRsp 1 (s.bmcStatus off false) []))) := by
  show execRegRead off s = _
  unfold execRegRead
  rw [hh, if_neg (by decide)]
  exact if_pos hs

theorem exec_regWrite_answers (hh : s.bmcHeard = true) (hs : s.bmcStatus off true = 0) :
    exec (.regWrite off v) s = .next ((s.bmcWrite off v).emit (.mctp (vdmRsp 2 0 []))) := by
  show execRegWrite off v s = _
  unfold execRegWrite
  rw [hh, hs]
  rfl

theorem exec_regWrite_refused (hh : s.bmcHeard = true) (hs : s.bmcStatus off true ≠ 0) :
    exec (.regWrite off v) s = .next (s.emit (.mctp (vdmRsp 2 (s.bmcStatus off true) []))) := by
  show execRegWrite off v s = _
  unfold execRegWrite
  rw [hh, if_neg (by decide)]
  exact if_pos hs

/-! ## A PF in WHITEOUT (R483) -/

section
variable (hh : h < 2) (hw : s.dev = dsWhiteout) (hd : s.decodes h = true) (ho : off < 2 ^ 26) (ha : off % 4 = 0)
include hw

theorem busOpen_whiteout : s.busOpen (.pf h) = false := by simp [State.busOpen, hw, dsWhiteout, dsService, dsIdle]

theorem bootOpen_whiteout : s.bootOpen (.pf h) = false := by
  simp [State.bootOpen, State.mayWrite, busOpen_whiteout hw, hw, dsWhiteout, dsBooting]

include hd ho ha

theorem exec_registerWrite_whiteout : exec (.registerWrite (.pf h) .bar0 off 4 v) s = .next s := by
  show execRegisterWrite (.pf h) .bar0 off 4 v s = _
  unfold execRegisterWrite barOf
  dsimp only
  rw [if_neg (by simpa [hw, dsWhiteout, dsAonOnly] using ho), if_neg (by simp [hd, sizeOk_word ha]), busOpen_whiteout hw, bootOpen_whiteout hw,
    if_neg (by simp)]

include hh

theorem exec_rcRead_whiteout : exec (.rcRead (.pf h) .bar0 off 4) s = .next (s.emit (.regData (.pf h) 4 0xDEAD5AFE)) := by
  have hdec : (s.flag CFG_mse h && !s.flag FN_STATE_d3 h) = true := by
    unfold State.decodes at hd
    rwa [if_pos hh] at hd
  have hans : s.answer (.pf h) 4 (s, 0) = s.emit (.regData (.pf h) 4 (deadWords 4)) := by
    unfold State.answer
    rw [busOpen_whiteout hw, if_neg Bool.false_ne_true]
    dsimp only
    rw [if_pos hdec, hw]
    rfl
  show execRcRead (.pf h) .bar0 off 4 s = _
  unfold execRcRead barOf
  dsimp only
  rw [if_neg (by simpa [hw, dsWhiteout, dsAonOnly] using ho), if_neg (by simp [hd, sizeOk_word ha]), busOpen_whiteout hw, bootOpen_whiteout hw,
    if_neg (by simp), hans]
  rfl

end

/-- Settles O21: generic accesses, the BMC's messages, and the accesses of a PF in WHITEOUT. -/
theorem accessorsReachRegisters : Obligations.AccessorsReachRegisters := by
  unfold Obligations.AccessorsReachRegisters
  refine ⟨fun w bar off v i d s hw hb ha h4 => ⟨fun hwin hr hn => ?_, fun hwin hr hu hd => ?_⟩, fun off s => exec_regRead_answers,
    fun off v s => exec_regWrite_answers, fun off v s hh => ⟨exec_regWrite_refused hh, exec_regRead_refused hh⟩,
    fun h off v s hh hw hd ho ha => ⟨exec_rcRead_whiteout hh hw hd ho ha, exec_registerWrite_whiteout hw hd ho ha⟩⟩
  · rw [exec_registerWrite_reaches hw hb ha, devWrite_accWrite hwin, accWrite_register ha h4 hwin hr, regWrite_generic hn]
  · rw [exec_rcRead_reaches hw hb ha, devRead_word, accRead_register ha h4 hwin hr, regRead_generic hu hd]

end Sys2Proof.Proofs
end

section
/-! PROOFS. Events, time, staging, tickets, release, and the faults of threads (spec/04_flow_processors.md and
spec/05_niris_isa.md). -/

namespace Sys2Proof.Proofs

open Sys2Proof Sys2Proof.Machine Sys2Proof.Machine.Reg Sys2Proof.Laws

variable {s u v : State} {t op w : Nat} {c : Instr} {sem : Nat → Nat → State → State} {mis : Bool}

/-- A slot that executes an instruction leaves what the effect leaves, on the named word and state after the slot's start. -/
theorem exec_slot_eq {v : State} (hw : w = s.insn t) (hu : u = s.slotPass t)
    (he : exec c s = .next (s.slot t op false sem)) (hr : s.runs t op = true) (hv : sem t w u = v) :
    exec c s = .next (v.slotEnd t) := by
  subst hw hu
  rw [exec_slot he hr, hv]

/-- Settles O33: the effects of WAITE, SIGE, WAITT and RDT by their branches, and the slots that EV_TIMEOUT passes. -/
theorem eventsAndTimeOfThreads : Obligations.EventsAndTimeOfThreads := by
  unfold Obligations.EventsAndTimeOfThreads
  refine ⟨fun t s u v w hw hu hv hr => ⟨fun hit => ?_, fun hit => ?_⟩, fun t s u w v hw hu hv hr => ⟨fun ht hlt => ?_, fun ht hlt => ?_, fun hge => ?_⟩,
    fun t s u w hw hu hr => ⟨fun hd => ?_, fun hd => ?_⟩, fun t s u w hw hu hr => exec_slot_eq (sem := semRdt) hw hu rfl hr rfl,
    fun t n s hi h2 hn hdue => ?_⟩
  · refine exec_slot_eq (sem := semWaite) hw hu rfl hr ?_
    rw [semWaite, ← hv]
    exact if_neg hit
  · refine exec_slot_eq (sem := semWaite) hw hu rfl hr ?_
    rw [semWaite, ← hv]
    exact if_pos hit
  · refine exec_slot_eq (sem := semSige) hw hu rfl hr ?_
    rw [semSige, ← hv]
    exact (if_pos ht).trans (if_pos hlt)
  · refine exec_slot_eq (sem := semSige) hw hu rfl hr ?_
    rw [semSige, ← hv]
    exact (if_neg (by omega)).trans (if_pos hlt)
  · refine exec_slot_eq (sem := semSige) hw hu rfl hr ?_
    rw [semSige, ← hv]
    rw [if_neg (show ¬ v < 256 by omega), if_neg (show ¬ v < 64 by omega), ite_self]
  · refine exec_slot_eq (sem := semWaitt) hw hu rfl hr ?_
    exact if_pos hd
  · refine exec_slot_eq (sem := semWaitt) hw hu rfl hr ?_
    exact if_neg (by rw [hd]; decide)
  · subst hn
    refine if_pos ?_
    rw [hi, h2]
    rcases hdue with h | ⟨h, hb⟩
    · simp [h]
    · simp [h, hb]

/-- A slot that executes one of the instructions of an opcode. -/
theorem exec_slotIf_eq {may : Nat → Bool} {v : State} (hw : w = s.insn t) (hu : u = s.slotPass t)
    (he : exec c s = .next (s.slotIf t op false may sem)) (hr : s.runs t op = true) (hm : may w = true) (hv : sem t w u = v) :
    exec c s = .next (v.slotEnd t) := by
  subst hw hu
  unfold State.runs at hr
  simp only [Bool.and_eq_true, Bool.not_eq_true', beq_iff_eq] at hr
  obtain ⟨⟨⟨⟨hi, hf⟩, ho⟩, hp⟩, hz⟩ := hr
  rw [he, slotIf_effect hi hf ho hm hp hz, hv]

/-- A thread that holds the handle, a packet and no second ticket misuses nothing. -/
theorem relMisuse_zero {k : Nat} (hh : u.holds t (u.tg t (iS1 w)) = some k) (hf : u.get TH_frame t ≠ 0) (hk : u.tickets t < 2) :
    u.relTicket t w = some (some k) ∧ u.relMisuse t w = 0 := by
  have hr : u.relTicket t w = some (some k) := by
    unfold State.relTicket
    dsimp only
    rw [hh]
  refine ⟨hr, ?_⟩
  unfold State.relMisuse
  rw [hr]
  exact (if_neg hf).trans (if_neg (by omega))

/-- Settles O34: the effects of CMDW, CMDR, TKT and REL by their branches. -/
theorem stagingTicketsAndRelease : Obligations.StagingTicketsAndRelease := by
  unfold Obligations.StagingTicketsAndRelease
  refine ⟨fun t s u w hw hu => ⟨fun hr => exec_slot_eq (sem := semCmdw) hw hu rfl hr rfl, fun hr hk => ?_, fun hr hk => ?_, fun hr hk => ?_,
    fun hr hk => ?_⟩, fun t s u w k bs hw hu hr hh hf hk => ⟨fun hm hp hb ha => ?_, fun hm => ?_⟩,
    fun t s u w hw hu hr hm => ⟨fun k hk => ?_, fun hk => ?_⟩⟩
  · exact exec_slot_eq (sem := semCmdr) hw hu rfl hr (if_pos hk)
  · exact exec_slot_eq (sem := semCmdr) hw hu rfl hr (if_neg (by rw [hk]; decide))
  · exact exec_slot_eq (sem := semTkt) hw hu rfl hr (if_neg (by omega))
  · exact exec_slot_eq (sem := semTkt) hw hu rfl hr (if_pos hk)
  · obtain ⟨htk, hz⟩ := relMisuse_zero hh hf hk
    refine exec_slotIf_eq (sem := semRelForward) hw hu rfl hr (by rw [hm]; rfl) ?_
    unfold semRelForward
    dsimp only
    rw [if_neg (not_not_intro hz), hp, Bool.false_and, if_neg Bool.false_ne_true, hb, htk]
    exact if_pos ha
  · obtain ⟨htk, hz⟩ := relMisuse_zero hh hf hk
    refine exec_slotIf_eq (sem := semRelDrop) hw hu rfl hr (by rw [hm]; rfl) ?_
    unfold semRelDrop
    dsimp only
    rw [if_neg (not_not_intro hz), htk]
    rfl
  · refine exec_slotIf_eq (sem := semRelPass) hw hu rfl hr (by rw [hm]; rfl) ?_
    unfold semRelPass
    rw [hk]
  · refine exec_slotIf_eq (sem := semRelPass) hw hu rfl hr (by rw [hm]; rfl) ?_
    unfold semRelPass
    rw [hk]

/-! ## Supervisors and faults -/

/-- A slot in which the budget is not due and the thread is not stopped goes to the word it has reached. -/
theorem slot_reached (hi : s.issues t = true) (hb : s.flag TH_bad t = false) (hd : s.budgetDue t = false) (hok : insnOk (isSup t) (s.insn t) = true)
    (ho : iOp (s.insn t) = op) :
    s.slot t op mis sem = (if mis && s.guard && decide (t < 4096) then (s.slotPass t).mismatch t
      else if !s.predOk t (s.insn t) then (((s.slotPass t).slotIs t .wasted).set TH_pc t (s.get TH_pc t + 1)).set TH_wait t 0
      else if (insnRegs (s.insn t)).any (fun r => r != 0 && s.get TH_hz (32 * t + r) != 0) then (s.slotPass t).slotIs t .wasted
      else sem t (s.insn t) (s.slotPass t) : State).slotEnd t := by
  unfold State.slot State.slotIf State.slotDo State.slotRun
  simp only [hi, hb, hd, hok, ho, beq_self_eq_true, Bool.and_self, Bool.or_true, if_true, Bool.false_eq_true, if_false, Bool.not_true]

/-- A slot in which the thread reaches no legal word is its fault. -/
theorem slot_illegal (hi : s.issues t = true) (hb : s.flag TH_bad t = false) (hd : s.budgetDue t = false)
    (hok : insnOk (isSup t) (s.insn t) = false) : s.slot t op mis sem = ((s.slotPass t).fault t 1 0 0).slotEnd t := by
  unfold State.slot State.slotIf State.slotFirst State.slotDo State.slotRun
  simp only [hi, hb, hd, hok, Bool.not_false, Bool.or_true, Bool.true_or, Bool.and_self, if_true, Bool.false_eq_true, if_false]

/-- A held ticket whose limit has passed outside a session is due. -/
theorem holdDue_of {k : Nat} (hk : s.get TH_tkt (2 * t + k) ≠ 0) (he : s.flag TH_texp (2 * t + k) = false) (hs : s.session (cluOf t) = false)
    (hl : s.get TH_tktns (2 * t + k) + 1000 * s.get FP_CLU_CFG_order_hold_limit (cluOf t) < s.clk) : s.holdDue t k = true := by
  unfold State.holdDue
  dsimp only
  rw [decide_eq_true hl, he, hs, bne_iff_ne.2 hk]
  rfl

/-- Settles O35: the supervisor instructions by their branches, the order of what a slot meets, and the four fault commands. -/
theorem supervisorsAndFaultsOfThreads : Obligations.SupervisorsAndFaultsOfThreads := by
  unfold Obligations.SupervisorsAndFaultsOfThreads
  refine ⟨fun t s u w x hw hu hx => ⟨fun hr hst => ?_, fun hr hh => ?_⟩, fun t s u w r q hw hu hr hq => ?_,
    fun t s hi hb hd => ⟨fun hok => ?_, fun hok ho hp => ?_, fun hok ho hg ht => ?_⟩, fun k s hk => if_pos hk,
    fun t k s hc hk he hs hl hb => ?_, fun t b s hi hf hb hb0 => ⟨fun hw => ?_, fun hw => ?_⟩, fun t u h0 h1 => ?_,
    fun k s hc hk hd => if_pos (by rw [hc, hk, hd]; rfl)⟩
  · refine exec_slot_eq (sem := semThst) hw hu rfl hr ?_
    rw [semThst, hx]
    exact if_pos hst
  · refine exec_slot_eq (sem := semThrs) hw hu rfl hr ?_
    rw [semThrs, hx]
    exact if_neg (by rw [hh]; decide)
  · refine exec_slot_eq (sem := semFltr) hw hu rfl hr ?_
    unfold semFltr
    dsimp only
    rw [hq]
  · exact congrArg Host.Outcome.next (slot_illegal hi hb hd hok)
  · refine congrArg Host.Outcome.next ((slot_reached hi hb hd hok ho).trans ?_)
    rw [hp]
    rfl
  · refine congrArg Host.Outcome.next ((slot_reached hi hb hd hok ho).trans ?_)
    rw [hg, decide_eq_true ht]
    rfl
  · show execTicketHoldExpiry t k s = _
    unfold execTicketHoldExpiry
    rw [hc, holdDue_of hk he hs hl, Bool.and_self, if_pos rfl, if_neg (by
      rw [Bool.and_eq_true]
      exact fun h => absurd (hb h.1) (by rw [h.2]; decide))]
  · subst hb
    show execSlotBudgetExpiry t s = _
    unfold execSlotBudgetExpiry
    dsimp only
    rw [hi, bne_iff_ne.2 hf, bne_iff_ne.2 hb0, if_pos hw]
    rfl
  · subst hb
    show execSlotBudgetExpiry t s = _
    unfold execSlotBudgetExpiry
    dsimp only
    rw [hi, bne_iff_ne.2 hf, bne_iff_ne.2 hb0, if_neg hw]
    rfl
  · unfold State.budgetFault
    rw [List.filter_cons_of_neg (by rw [h0]; decide), List.filter_cons_of_neg (by rw [h1]; decide)]
    rfl

/-! ## Dispatch, the debugger and the management cores -/

/-- A debug command for a named thread in a session acts. -/
theorem dbgCmd_session {who : Who} {must : Bool} {f : State → State} (hm : s.mayWrite who = true) (hn : s.threadNamed t = true)
    (hs : s.session (cluOf t) = true) (hu : u = (s.set DBG_thr 0 t).wakeCluster (cluOf t)) : s.dbgCmd who t must f = f u := by
  unfold State.dbgCmd
  rw [hm, hn, hs, hu]
  rfl

/-- A debug command that needs a session is refused outside one. -/
theorem dbgCmd_refused {who : Who} {f : State → State} (hm : s.mayWrite who = true) (hn : s.threadNamed t = true)
    (hs : s.session (cluOf t) = false) : s.dbgCmd who t true f = s.put FP_DBG_STATUS_refused 0 true := by
  unfold State.dbgCmd
  rw [hm, hn, hs]
  rfl

/-- Settles O40: each command in its guarded branch. -/
theorem dispatchAndDebugger : Obligations.DispatchAndDebugger := by
  unfold Obligations.DispatchAndDebugger
  refine ⟨fun p f t q s hq ht hm => ?_, fun m f q s u hq hi hf hu => ?_, fun w k v s hw => ?_,
    fun w m s hw hf => if_pos (by rw [hw, hf]; rfl), fun w s hw ho => if_pos (by rw [hw, ho]; rfl),
    fun w t s u hw hn hs hu => ⟨congrArg Host.Outcome.next (dbgCmd_session hw hn hs hu), fun hh => ?_, fun hh hz hc hm => ?_, fun hh => ?_⟩,
    fun w t s hw hn hs => ⟨congrArg Host.Outcome.next (dbgCmd_refused hw hn hs), congrArg Host.Outcome.next (dbgCmd_refused hw hn hs)⟩⟩
  · show execPacketDispatch p s = _
    unfold execPacketDispatch
    rw [hq, ht]
    exact if_pos hm
  · show execExceptionFrameDispatch m s = _
    unfold execExceptionFrameDispatch
    dsimp only
    rw [hq]
    subst hu
    exact if_pos (by rw [hi, hf]; rfl)
  · show execSupRestart w k v s = _
    unfold execSupRestart
    rw [if_pos hw, bits_zero]
  · exact congrArg Host.Outcome.next ((dbgCmd_session hw hn hs hu).trans (if_pos hh))
  · exact congrArg Host.Outcome.next ((dbgCmd_session hw hn hs hu).trans (if_pos (by rw [hh, hz, hc, hm]; rfl)))
  · exact congrArg Host.Outcome.next ((dbgCmd_session hw hn hs hu).trans (if_pos hh))

/-- Settles O41: the heartbeat, the stall, the restart and its end in their guarded branches. -/
theorem managementCoresRestart : Obligations.ManagementCoresRestart := by
  unfold Obligations.ManagementCoresRestart
  refine ⟨fun w v s hw => ⟨fun hv => ?_, fun hv => ?_⟩, fun s hc hs hr => if_pos ?_, fun w s hw => if_pos hw,
    fun nor s hc hr => ⟨?_, ?_⟩⟩
  · show execHeartbeat w v s = _
    unfold execHeartbeat
    dsimp only
    rw [if_pos hw, if_pos (show bits v 16 12 = 0 from hv)]
  · show execHeartbeat w v s = _
    unfold execHeartbeat
    dsimp only
    rw [if_pos hw, if_neg (show ¬ bits v 16 12 = 0 from hv)]
    rfl
  · rw [hc, hs]
    rcases hr with h | h
    · rw [h]; rfl
    · rw [bne_iff_ne.2 h, Bool.or_true]; rfl
  · show execMgmtRestartDone [] s = _
    unfold execMgmtRestartDone
    rw [hc, hr]
    rfl
  · show execMgmtRestartDone nor s = _
    unfold execMgmtRestartDone
    rw [hc, hr]
    cases nor.isEmpty || (s.imageAuth nor && imageHashed nor (fun ty => ty == 0x10)) <;> rfl

end Sys2Proof.Proofs
end

section
/-! PROOFS. The engine commands that threads commit (spec/05_niris_isa.md, Tables NI-14 to NI-19). -/

namespace Sys2Proof.Proofs

open Sys2Proof Sys2Proof.Machine Sys2Proof.Machine.Reg Sys2Proof.Laws

variable {s u v : State} {t g e op r : Nat} {c : Instr} {f : Nat → Nat → State → Commit}

/-- A committed command whose engine takes it. -/
theorem exec_cmd_ok (hwf : s.wf = true) (hv : v = s.committing t) (hg : g = s.cmdTag t)
    (he : exec c s = .next (s.slotCmd t e op false false f)) (hc : s.commits t e op = true) (hf : f t g v = .ok u) :
    exec c s = .next (u.taken t) := by
  subst hv hg
  rw [he, slotCmd_effect (wf_sorted hwf) hc, hf]

/-- A committed command whose check fails with a reason. -/
theorem exec_cmd_error (hwf : s.wf = true) (hv : v = s.committing t) (hg : g = s.cmdTag t)
    (he : exec c s = .next (s.slotCmd t e op false false f)) (hc : s.commits t e op = true) (hf : f t g v = .error r) :
    exec c s = .next (((s.slotPass t).fault t 3 (16 * e + r) 0).slotEnd t) := by
  subst hv hg
  rw [he, slotCmd_effect (wf_sorted hwf) hc, hf]

/-- Settles O37: what each TABLE command makes of good fields, and the reason of bad ones. -/
theorem tableCommandsOfThreads : Obligations.TableCommandsOfThreads := by
  unfold Obligations.TableCommandsOfThreads
  refine fun t g s v hwf hv hg => ⟨fun bad r hc hb hr => ?_, fun r hc hb hr => ?_, fun r e hc hb hr he => ?_,
    fun bad n r hc hn h24 hk hr => ?_, fun bad r hc h24 hn hk hr => ?_, fun bad hc hb => ?_⟩
  · subst hr
    exact exec_cmd_ok (f := cmdFlowLookup bad) hwf hv hg rfl hc (if_neg (by rw [hb]; decide))
  · subst hr
    exact exec_cmd_ok (f := cmdFlowInsert) hwf hv hg rfl hc (if_neg (by rw [hb]; decide))
  · subst hr he
    exact exec_cmd_ok (f := cmdFlowDelete) hwf hv hg rfl hc (if_neg (by rw [hb]; decide))
  · subst hn hr
    refine exec_cmd_ok (f := cmdLpmLookup bad) hwf hv hg rfl hc (if_neg ?_)
    rintro (h | h | h | ⟨h, h'⟩)
    · omega
    · omega
    · omega
    · rcases hk with k | ⟨-, k⟩
      · omega
      · exact h' k
  · subst hr
    refine exec_cmd_ok (f := cmdL2Lookup bad) hwf hv hg rfl hc (if_neg ?_)
    rintro (h | h | h)
    · omega
    · exact h hn
    · exact h hk
  · exact exec_cmd_error (e := 0) (op := 1) (r := 1) (f := cmdFlowLookup bad) hwf hv hg rfl hc (if_pos hb)

/-- A thread may use the channel and the fields are good: a busy channel answers, an idle one starts. -/
theorem cmdDmaStart_eq (hf : v.dmaCmdField t = false) (hd : v.dmaCmdDenied (v.dmaCmdChan t) = false) :
    cmdDmaStart t g v = if v.dmaCmdBusy (v.dmaCmdChan t) then .ok (v.cmdResult 2 t g [0x64])
      else .ok (v.dmaStart (v.dmaCmdChan t) (threadReq t) (.cmd t g (v.cmdSeq t g))) := by
  unfold cmdDmaStart
  dsimp only
  rw [hf, hd, if_neg Bool.false_ne_true, if_neg Bool.false_ne_true]

/-- Settles O38: the branch of each command that the hypotheses leave. -/
theorem cipherAndDmaCommandsOfThreads : Obligations.CipherAndDmaCommandsOfThreads := by
  unfold Obligations.CipherAndDmaCommandsOfThreads
  refine fun t g s v hwf hv hg => ⟨fun hb hr => ?_, fun c hc hch hf hd => ?_, fun c hc hch hf hd h1 h2 m1 m2 hb => ?_, fun hc hf hd => ?_⟩
  · have hok : cmdCipher t g v = .ok (v.addJob (v.cphCmd t g)) := by
      unfold cmdCipher
      dsimp only
      rw [hb, hr, if_neg Bool.false_ne_true, if_neg Bool.false_ne_true]
    exact ⟨fun hc => exec_cmd_ok hwf hv hg rfl hc hok, fun hc => exec_cmd_ok hwf hv hg rfl hc hok,
      fun hc => exec_cmd_ok hwf hv hg rfl hc hok, fun hc => exec_cmd_ok hwf hv hg rfl hc hok⟩
  · subst hch
    exact ⟨fun hb => exec_cmd_ok hwf hv hg rfl hc ((cmdDmaStart_eq hf hd).trans (if_neg (by rw [hb]; decide))),
      fun hb => exec_cmd_ok hwf hv hg rfl hc ((cmdDmaStart_eq hf hd).trans (if_pos hb))⟩
  · subst hch
    have hgood : cmdDmaCopy t g v = if v.dmaCmdBusy (v.dmaCmdChan t) then .ok (v.cmdResult 2 t g [0x64])
        else .ok ((v.handOver (v.dmaCmdChan t)).dmaBegin (v.dmaCmdChan t) (.cmd t g (v.cmdSeq t g)) (v.tw t 1) (v.tw t 2) (v.tw t 3)
          ((v.handOver (v.dmaCmdChan t)).get DMA_CH_CFG_cfg (v.dmaCmdChan t)) (v.tw t 4)) := by
      unfold cmdDmaCopy
      dsimp only
      rw [hf, hd, h1, h2, m1, m2, hb, if_neg Bool.false_ne_true, if_neg Bool.false_ne_true, if_neg (by decide), if_neg (by decide),
        if_neg Bool.false_ne_true]
    exact ⟨fun hb => exec_cmd_ok hwf hv hg rfl hc (hgood.trans (if_pos hb)),
      fun hb => exec_cmd_ok hwf hv hg rfl hc (hgood.trans (if_neg (by rw [hb]; decide)))⟩
  · refine exec_cmd_error (e := 2) (op := 1) (r := 4) (f := cmdDmaStart) hwf hv hg rfl hc ?_
    unfold cmdDmaStart
    dsimp only
    rw [hf, hd]
    rfl

/-- A COUNTER command with good fields: out of range it is counted or refused, in range it acts on its pair. -/
theorem ctrCmd_eq {k : Nat → State → State × List Nat} (h1 : bits (v.tw t 0) 4 4 = 0) (h2 : v.tw t 0 < 2 ^ 40) (h3 : v.tw t 1 < 2 ^ 48)
    (h4 : v.twZero t 2 = true) :
    ctrCmd k t g v = if 15 < bits (v.tw t 0) 8 8 ∨ 1048575 < bits (v.tw t 0) 16 24 then
        (if g = 0 then .ok (v.inc ENG_err 3) else .error 3)
      else .ok ((k (2 ^ 20 * bits (v.tw t 0) 8 8 + bits (v.tw t 0) 16 24) v).1.cmdResult 3 t g
        ([0] ++ (k (2 ^ 20 * bits (v.tw t 0) 8 8 + bits (v.tw t 0) 16 24) v).2)) := by
  unfold ctrCmd
  dsimp only
  refine if_neg ?_
  rintro (h | h | h | h)
  · exact h h1
  · omega
  · omega
  · rw [h4] at h
    cases h

/-- A SEND FRAME of good fields and range. -/
theorem cmdSendFrame_eq {n : Nat} {sp : Nat × Nat} (hn : n = bits (v.tw t 0) 22 14)
    (hsp : sp = (if bits (v.tw t 0) 36 2 = 0 then windowSpace t else if bits (v.tw t 0) 36 2 = 1 then sharedSpace t else localSpace t))
    (h1 : v.tw t 0 < 2 ^ 39) (h2 : v.tw t 2 < 2 ^ 48) (h3 : v.twZero t 3 = true) (h4 : bits (v.tw t 0) 36 2 ≠ 3) (h5 : 60 ≤ n)
    (h6 : n ≤ 16356) (h7 : v.tw t 1 + n ≤ sp.2) :
    cmdSendFrame t g v = .ok (((v.newFrame
      { bytes := v.rd (sp.1 + v.tw t 1) n, pipe := v.threadPipe t, arrq := 4 * v.now, launch := v.tw t 2, ts := bit (v.tw t 0) 38 }).toStage v.nextFrame (bits (v.tw t 0) 4 18)).cmdResult 4 t g [0]) := by
  subst hn hsp
  unfold cmdSendFrame
  dsimp only
  rw [if_neg, if_neg (Nat.not_lt.2 h7)]
  rintro (h | h | h | h | h | h)
  · omega
  · omega
  · rw [h3] at h
    cases h
  · exact h4 h
  · omega
  · omega

/-- A SEND MBX to a channel that is open to every thread and answers other than 2. -/
theorem cmdSendMbx_eq {k n : Nat} (hk : k = bits (v.tw t 0) 4 5) (hn : n = bits (v.tw t 0) 16 4) (h1 : bits (v.tw t 0) 9 7 = 0)
    (h2 : v.tw t 0 < 2 ^ 20) (h3 : 0 < n) (h4 : n ≤ 8) (h5 : v.twZero t 5 = true) (h6 : 8 ≤ k)
    (h7 : (v.mbxPost k (threadOwner t) (v.msgWords t n)).1 ≠ 2) :
    cmdSendMbx t g v = .ok ((v.mbxPost k (threadOwner t) (v.msgWords t n)).2.cmdResult 4 t g
      [(v.mbxPost k (threadOwner t) (v.msgWords t n)).1]) := by
  subst hk hn
  unfold cmdSendMbx
  dsimp only
  rw [if_neg, if_neg (fun h => absurd h.1 (by omega))]
  · split
    · rename_i heq
      rw [heq] at h7
      exact absurd rfl h7
    · rename_i heq
      rw [heq]
  · rintro (h | h | h | h | h | h)
    · exact h h1
    · omega
    · omega
    · omega
    · rw [h5] at h
      cases h
    · omega

/-- A TRIGGER_ARM of good fields on a comparator that is not locked: armed, late, or loaded. -/
theorem cmdTriggerArm_eq {k : Nat} (hk : k = v.trgComp t) (h1 : v.tw t 0 < 2 ^ 32) (h2 : v.tw t 1 < 2 ^ 50) (h3 : v.tw t 2 < 2 ^ 16)
    (h4 : v.twZero t 3 = true) (h5 : 0 < bits (v.tw t 0) 12 4) (h6 : bits (v.tw t 0) 12 4 ≤ 4)
    (h7 : bits (v.tw t 0) 12 4 = 3 → v.tw t 2 ≠ 0) (h8 : v.destOk (bits (v.tw t 0) 16 16) = true)
    (h9 : v.flag MT_TRIG_CFG_own k = false)
    (hu : u = ((((v.trigLoad k (bits (v.tw t 1) 2 48) (bits (v.tw t 1) 0 2) (bits (v.tw t 0) 12 4) (bits (v.tw t 0) 16 16) (v.tw t 2)).put
      MT_TRIG_STATUS_thread k true).set TRX_thr k t).set TRX_tag k g).set TRX_tseq k (v.cmdSeq t g)) :
    cmdTriggerArm t g v = if v.flag MT_TRIG_STATUS_armed k then .ok (v.cmdResult 5 t g [1])
      else if reached48 v.now (bits (v.tw t 1) 2 48) then .ok (v.cmdResult 5 t g [2])
      else .ok (if u.trgDue k then u.sendTrg k else u) := by
  subst hk hu
  unfold cmdTriggerArm
  dsimp only
  rw [h8, h9, if_neg, if_neg (by decide), if_neg Bool.false_ne_true]
  rintro (h | h | h | h | h | h | h)
  · omega
  · omega
  · omega
  · rw [h4] at h
    cases h
  · omega
  · omega
  · exact h7 h.1 h.2

/-- A TRIGGER_DISARM of good fields on a comparator that is not locked. -/
theorem cmdTriggerDisarm_eq {k : Nat} (hk : k = v.trgComp t) (h1 : v.tw t 0 < 2 ^ 32) (h2 : v.tw t 1 < 2 ^ 50) (h3 : v.tw t 2 < 2 ^ 16)
    (h4 : v.twZero t 3 = true) (h9 : v.flag MT_TRIG_CFG_own k = false) :
    cmdTriggerDisarm t g v = .ok ((if v.flag MT_TRIG_STATUS_armed k = true ∧ v.fireDue k = false then v.trigEnd k 3 0 else v).cmdResult
      5 t g [0]) := by
  subst hk
  unfold cmdTriggerDisarm
  dsimp only
  rw [if_neg, h9, if_neg Bool.false_ne_true]
  · unfold State.disarm
    cases v.flag MT_TRIG_STATUS_armed (v.trgComp t) <;> cases v.fireDue (v.trgComp t) <;> rfl
  · rintro (h | h | h | h)
    · omega
    · omega
    · omega
    · rw [h4] at h
      cases h

/-- Settles O39: the commands' equations for good fields, and the arrival of a result whose tag still waits. -/
theorem counterSendAndTriggerCommands : Obligations.CounterSendAndTriggerCommands := by
  unfold Obligations.CounterSendAndTriggerCommands
  refine ⟨fun t g i s v hwf hv hg hi h1 h2 h3 h4 => ⟨fun hout hc => ?_, fun hb hx => ?_⟩,
    fun t g n sp s v hwf hv hg hn hsp hc h1 h2 h3 h4 h5 h6 h7 => exec_cmd_ok hwf hv hg rfl hc (cmdSendFrame_eq hn hsp h1 h2 h3 h4 h5 h6 h7),
    fun t g c n s v hwf hv hg hk hn hc h1 h2 h3 h4 h5 h6 h7 => exec_cmd_ok hwf hv hg rfl hc (cmdSendMbx_eq hk hn h1 h2 h3 h4 h5 h6 h7),
    fun t g k s v hwf hv hg hk h1 h9 => ⟨fun hc h2 h3 h4 h5 h6 h7 h8 => ⟨fun ha => ?_, fun ha hr => ?_, fun u ha hr hu => ?_⟩,
      fun hc h2 h3 h4 => exec_cmd_ok hwf hv hg rfl hc (cmdTriggerDisarm_eq hk h1 h2 h3 h4 h9)⟩,
    fun k t g q words s hk hseq htag => ?_⟩
  · have h := ctrCmd_eq (g := g) (k := fun i s => ((s.add CTR_pkts i (bits (s.tw t 1) 0 16)).add CTR_bytes i (bits (s.tw t 1) 16 32), [])) h1 h2 h3 h4
    rw [if_pos hout] at h
    split
    · rename_i hg0
      exact exec_cmd_ok (f := cmdCounterAdd) hwf hv hg rfl hc (h.trans (if_pos hg0))
    · rename_i hg0
      exact exec_cmd_error (e := 3) (op := 1) (r := 3) (f := cmdCounterAdd) hwf hv hg rfl hc (h.trans (if_neg hg0))
  · subst hi
    have hin : ¬ (15 < bits (v.tw t 0) 8 8 ∨ 1048575 < bits (v.tw t 0) 16 24) := by omega
    exact ⟨fun hc => exec_cmd_ok (f := cmdCounterAdd) hwf hv hg rfl hc ((ctrCmd_eq h1 h2 h3 h4).trans (if_neg hin)),
      fun hc => exec_cmd_ok (f := cmdCounterRead) hwf hv hg rfl hc ((ctrCmd_eq h1 h2 h3 h4).trans (if_neg hin)),
      fun hc => exec_cmd_ok (f := cmdCounterReadClear) hwf hv hg rfl hc ((ctrCmd_eq h1 h2 h3 h4).trans (if_neg hin))⟩
  · exact exec_cmd_ok hwf hv hg rfl hc ((cmdTriggerArm_eq hk h1 h2 h3 h4 h5 h6 h7 h8 h9 rfl).trans (if_pos ha))
  · exact exec_cmd_ok hwf hv hg rfl hc ((cmdTriggerArm_eq hk h1 h2 h3 h4 h5 h6 h7 h8 h9 rfl).trans
      ((if_neg (by rw [ha]; decide)).trans (if_pos hr)))
  · exact exec_cmd_ok hwf hv hg rfl hc ((cmdTriggerArm_eq hk h1 h2 h3 h4 h5 h6 h7 h8 h9 hu).trans
      ((if_neg (by rw [ha]; decide)).trans (if_neg (by rw [hr]; decide))))
  · show execCmdResultArrival k s = _
    unfold execCmdResultArrival
    rw [hk]
    exact if_pos ⟨hseq, htag⟩

end Sys2Proof.Proofs
end

section
/-! PROOFS. Frames that arrive and the update lists of the pipelines (spec/06_pipelines.md and spec/08_ports.md). -/

namespace Sys2Proof.Proofs

open Sys2Proof Sys2Proof.Machine Sys2Proof.Machine.Reg Sys2Proof.Laws

variable {s u t : State}

/-! ## Frames -/

/-- The first cell of a frame on an idle, open port with the device open: its branches by the room that is left. -/
theorem frameFirstCell_open {id ago : Nat} {len : FirstCell} (hid : isExt id = true) (hup : s.portUp id = true) (hon : s.portsOn = true)
    (hrx : s.get PT_rx (rxUnit id) = 0) (hopen : s.open_ = true)
    (hu : u = s.newFrame { src := id, pipe := pipeOfPort id, arrq := ((((4 * s.now : Nat) : Int) - ago - s.rxComp id) % 2 ^ 66).toNat,
                           stage := .arriving, cells := cellsOf (len.bytes - 4), iprio := if 16 ≤ id then 0 else s.prioOf id len.pcp }) :
    exec (.frameFirstCell id len ago) s = if s.admits id (cellsOf (len.bytes - 4))
      then .next ((((u.setCharge id (u.get SCH_BUF_PORT_charge id + cellsOf (len.bytes - 4))).set PT_rx
        (rxUnit id) (s.nextFrame + 1)).pmu 19 1 (cellsOf (len.bytes - 4))).judgePort id)
      else .next ((s.cnt id cRxDropBuf 1).pmu 19 2 1) := by
  subst hu
  show execFrameFirstCell id len ago s = _
  unfold execFrameFirstCell
  dsimp only
  rw [hid, hup, hon, hrx, hopen]
  cases s.admits id (cellsOf (len.bytes - 4)) <;> rfl

/-- The end of a frame whose MAC still receives on an open port: its checks in order. `count` counts a cause. -/
theorem frameEnd_eq {m f : Nat} {ok : Bool} {bs : List Byte} (hf : s.get PT_rx m = f + 1) (hu : u = s.set PT_rx m 0)
    (hon : u.portsOn = true) (hup : u.portUp (u.frame f).src = true) {ln : Nat}
    (hln : ln = bs.length + 4 - (if decide (16 ≤ m) && u.tagGoes (m - 16) bs then 8 else 0)) {count : Nat → Nat → State}
    (hc : count = fun l p => if decide (16 ≤ m) then u.lcnt (m - 16) l else u.cnt m p 1) :
    exec (.frameEnd m ok bs) s =
      if !ok then .next ((count lRxFcs cRxFcs).rxDiscard f)
      else if ln < 64 then .next ((count lRxRunt cRxRunt).rxDiscard f)
      else if u.maxLen (u.frame f).src < ln then .next ((count lRxOversize cRxOversize).rxDiscard f)
      else if decide (16 ≤ m) then .next (u.tagIn (m - 16) f ln bs)
      else if beAt bs 12 2 = 0x8808 then .next ((u.rxDiscard f).macControl m bs)
      else .next (u.rxStore f ln bs) := by
  show execFrameEnd m ok bs s = _
  unfold execFrameEnd
  dsimp only
  rw [hf]
  dsimp only
  rw [← hu, hon, hup, hln, hc]
  rfl

/-- The frame that the pool serves is fetched where the pool has room and its entry is read as one piece. -/
theorem hostFrameFetch_eq {f q : Nat} {x : Frame} {e : Ent} {v : State} (hm : s.moving = true) (hp : s.poolFns ≠ [])
    (hu : u = forEach ((s.instances FHX_def).filter (fun g => !s.poolFns.contains g)) (fun g t => t.set FHX_def g 0) s)
    (hd : poolDwrr s.poolFns (8 * s.poolFns.length) (rotAt s.poolFns (u.get FHX_ptr 0)) u = (some (f, x), t)) (hq : q = x.qp1 - 1)
    (hroom : u.get SCX_host 0 + cellsOf x.need ≤ 4 * u.get SCH_BUF_CFG_host_kib 0)
    (hv : v = ((t.set SCX_host 0 (t.get SCX_host 0 + cellsOf x.need)).set FHX_q 0 q).updFrame f (fun y => { y with cells := cellsOf x.need }))
    (he : v.entAt q x.idx = some e) (hi : weIndirect e.bytes = false) :
    exec .hostFrameFetch s = .next (v.hostRead (v.qOwner q) (weAddr e.bytes) x.need (weRo e.bytes) (weNs e.bytes) (.entry q x.idx)) := by
  subst hq hv
  show execHostFrameFetch s = _
  unfold execHostFrameFetch
  dsimp only
  have hp' : s.poolFns.isEmpty = false := by
    cases h : s.poolFns
    · exact absurd h hp
    · rfl
  rw [hm, hp', if_neg (by decide), ← hu, hd]
  dsimp only
  rw [if_neg (Nat.not_lt.2 hroom), he]
  exact if_neg (by rw [hi]; decide)

/-- Settles O42: the checks of an arriving frame in order, the pool's next frame, its bytes, and the parser's choice. -/
theorem framesArrive : Obligations.FramesArrive := by
  unfold Obligations.FramesArrive
  refine ⟨fun id len ago s hid hup hon hrx hopen => ⟨fun ha => ?_, fun u ha hu => ?_⟩, fun m f bs s u hm hf hu _ hon hup => ?_,
    fun n f ln bs s u hf hu hon hup hln => ?_,
    fun s u t f q x e hm hp hu hd hq hroom he hi => hostFrameFetch_eq hm hp hu hd hq hroom rfl he hi,
    fun q idx f x bs s hf => ⟨?_, ?_⟩, fun p bad f src s hm hp hl hne hfind => ?_⟩
  · exact (frameFirstCell_open hid hup hon hrx hopen rfl).trans (if_neg (by rw [ha]; decide))
  · exact (frameFirstCell_open hid hup hon hrx hopen hu).trans (if_pos ha)
  · have hten : decide (16 ≤ m) = false := decide_eq_false (by omega)
    have key := fun ok => frameEnd_eq (ok := ok) (bs := bs) hf hu hon hup rfl rfl
    simp only [hten, Bool.false_and, Bool.false_eq_true, if_false, Nat.sub_zero] at key
    refine ⟨key false, fun h => ?_, fun h1 h2 => ?_, fun h1 h2 h3 => ?_, fun h1 h2 h3 => ?_⟩
    · rw [key true, if_neg (by decide), if_pos h]
    · rw [key true, if_neg (by decide), if_neg (by omega), if_pos h2]
    · rw [key true, if_neg (by decide), if_neg (by omega), if_neg (by omega), if_pos h3]
    · rw [key true, if_neg (by decide), if_neg (by omega), if_neg (by omega), if_neg h3]
  · have hten : decide (16 ≤ 16 + n) = true := decide_eq_true (by omega)
    have hln' : ln = bs.length + 4 - (if u.tagGoes n bs then 8 else 0) := by
      rw [hln]
      unfold State.tagGoes
      simp only [Bool.and_eq_true, beq_iff_eq, and_assoc]
    have key := fun ok => frameEnd_eq (ok := ok) (bs := bs) hf hu hon hup rfl rfl
    simp only [hten, Bool.true_and, if_true, Nat.add_sub_cancel_left, ← hln'] at key
    refine ⟨key false, fun h => ?_, fun h1 h2 => ?_, fun h1 h2 => ?_⟩
    · rw [key true, if_neg (by decide), if_pos h]
    · rw [key true, if_neg (by decide), if_neg (by omega), if_pos h2]
    · rw [key true, if_neg (by decide), if_neg (by omega), if_neg (by omega)]
  · show execHostFrameReady q idx (.data bs) s = _
    unfold execHostFrameReady
    rw [hf]
  · show execHostFrameReady q idx .timeout s = _
    unfold execHostFrameReady
    rw [hf]
  · show execFrameParse p bad s = _
    unfold execFrameParse
    dsimp only
    have hne' : (s.candidates p).isEmpty = false := by
      cases h : s.candidates p
      · exact absurd h hne
      · rfl
    rw [hm, hp, hne', decide_eq_false (by omega), if_neg (by decide), hfind]

/-! ## The update list -/

/-- A push by a writer outside the window of a list that is not full: the index is judged, then the record. -/
theorem push_eq {w : Who} {p op i limit : Nat} {bad : List Byte → Bool} (hw : s.mayWrite w = true) (hl : (s.updList p).length < 512)
    (hb : s.flag PPL_STATUS_upd_busy p = false) :
    s.push w p op i limit bad = if limit ≤ i then s.updRefuse p 3 else if bad (s.area PPL_UPD_STAGE_byte (256 * p) 256) then s.updRefuse p 4
      else s.setUpd p (s.updList p ++ [(op, i, s.area PPL_UPD_STAGE_byte (256 * p) 256)]) := by
  unfold State.push
  dsimp only
  rw [hw, hb, if_neg (by decide), if_neg (by decide), if_neg (by omega)]

/-- A push of a valid record at an index in range is staged. -/
theorem push_staged {w : Who} {p op i limit : Nat} {bad : List Byte → Bool} {r : List Byte} (hw : s.mayWrite w = true)
    (hl : (s.updList p).length < 512) (hb : s.flag PPL_STATUS_upd_busy p = false) (hr : r = s.area PPL_UPD_STAGE_byte (256 * p) 256)
    (hi : i < limit) (hg : bad r = false) : s.push w p op i limit bad = s.setUpd p (s.updList p ++ [(op, i, r)]) := by
  subst hr
  rw [push_eq hw hl hb, if_neg (by omega), hg]
  rfl

/-- Settles O43: the order in which a push is judged, and the branches of the other commands of the list. -/
theorem pipelineUpdates : Obligations.PipelineUpdates := by
  unfold Obligations.PipelineUpdates
  refine ⟨fun w p i r s hw hl hb hr => ⟨fun hi hg => ?_, fun hi hg => ?_, fun hi => ?_, fun hi => ?_, fun hi => ?_, fun hi hg => ?_,
    fun hi hg => ?_, fun hi => ?_⟩, fun w p i s hw hl hb => ?_, fun w p i s hw hb => ?_, fun w p s hw hb => ⟨fun hne => ?_, ?_⟩,
    fun w p s hw hb => ⟨?_, ?_⟩, fun p ns t s u v hb hon ht hu hv hr => ?_, fun w p i s u hw hu hb => ?_⟩
  · exact congrArg Host.Outcome.next (push_staged hw hl hb hr hi hg)
  · refine congrArg Host.Outcome.next ((push_eq hw hl hb).trans ?_)
    rw [if_neg (by omega), ← hr, hg]
    rfl
  · exact congrArg Host.Outcome.next ((push_eq hw hl hb).trans (if_pos hi))
  · exact congrArg Host.Outcome.next (push_staged hw hl hb hr hi rfl)
  · exact congrArg Host.Outcome.next (push_staged hw hl hb hr hi rfl)
  · exact congrArg Host.Outcome.next (push_staged hw hl hb hr hi hg)
  · exact congrArg Host.Outcome.next (push_staged hw hl hb hr hi hg)
  · exact congrArg Host.Outcome.next (push_staged hw hl hb hr hi rfl)
  · refine congrArg Host.Outcome.next ?_
    unfold State.push
    dsimp only
    rw [hw, hb, if_neg (by decide), if_neg (by decide), if_pos hl]
  · refine congrArg Host.Outcome.next ?_
    unfold State.push
    dsimp only
    rw [hw, hb, if_neg (by decide), if_pos rfl]
  · show execUpdateCommit w p s = _
    unfold execUpdateCommit
    have hne' : (s.updList p).isEmpty = false := by
      cases h : s.updList p
      · exact absurd h hne
      · rfl
    rw [hw, hb, hne']
    rfl
  · show execUpdateDiscard w p s = _
    unfold execUpdateDiscard
    rw [hw, hb]
    rfl
  · show execUpdateCommit w p s = _
    unfold execUpdateCommit
    rw [hw, hb]
    rfl
  · show execUpdateDiscard w p s = _
    unfold execUpdateDiscard
    rw [hw, hb]
    rfl
  · subst ht hv hu
    have hopen : (s.portsOn || s.dev == dsBooting) = true := by
      rcases hon with h | h
      · rw [h]; rfl
      · rw [h, Bool.or_comm]; rfl
    show execUpdateWindowEnd p ns s = _
    unfold execUpdateWindowEnd
    dsimp only
    rw [hb, hopen, if_neg (by decide), hr]
    rfl
  · subst hu
    show execClsRead w p i s = _
    unfold execClsRead
    dsimp only
    rw [hw, hb]
    rfl

end Sys2Proof.Proofs
end

section
/-! PROOFS. The forwarding tables and their commands (spec/07_forwarding_tables.md). -/

namespace Sys2Proof.Proofs

open Sys2Proof Sys2Proof.Machine Sys2Proof.Machine.Reg Sys2Proof.Laws

variable {s t u : State} {w : Who} {f : State → State} {pipes op ix : Nat} {rec_ : List Byte}

/-- A table command is taken while no operation runs. -/
theorem tblCmd_taken (hw : s.mayWrite w = true) (hb : s.flag TBL_CMD_STATUS_busy 0 = false) (ht : t = s.put TBL_CMD_STATUS_busy 0 true) :
    s.tblCmd w f = f t := by
  subst ht
  unfold State.tblCmd
  rw [hw, hb]
  rfl

/-- A table command is refused while an operation runs. -/
theorem tblCmd_refused (hw : s.mayWrite w = true) (hb : s.flag TBL_CMD_STATUS_busy 0 = true) :
    s.tblCmd w f = s.put TBL_CMD_STATUS_refused 0 true := by
  unfold State.tblCmd
  rw [hw, hb]
  rfl

/-- A flow entry is replaced, or inserted, by one command. -/
theorem tblPipes_eq (hu : u = if op < 0x20 then t.set TBX_moves 0 0 else t) :
    t.tblPipes pipes op ix rec_ = if bitsSet pipes 8 = [] then u.tblOut 5 0
      else State.tblBegin 9 { (u.tblOut 0 0).set TBX_next 0 (u.clk + 5) with
        tblq := (bitsSet pipes 8).map (fun p => .start p op ix rec_) } := by
  subst hu
  rfl

/-- Each command that works on the pipelines of a mask hands its staged record to `tblPipes`. -/
theorem exec_pipes {c : Instr} {i n : Nat} {b : List Byte} (hw : s.mayWrite w = true) (hb : s.flag TBL_CMD_STATUS_busy 0 = false)
    (ht : t = s.put TBL_CMD_STATUS_busy 0 true) (hs : b = t.tblStage)
    (hc : (c, op, ix, n) ∈
        ([(.lpmInsert w pipes, 0x10, 0, 32), (.lpmDelete w pipes, 0x11, 0, 32), (.lpmReplace w pipes, 0x12, 0, 32),
          (.lpmRewrite w pipes i, 0x13, i, 32), (.l2Static w pipes, 0x20, 0, 16), (.l2Delete w pipes, 0x21, 0, 16)] :
          List (Instr × Nat × Nat × Nat))) :
    exec c s = .next (t.tblPipes pipes op ix (slice b 0 n)) := by
  subst hs
  simp only [List.mem_cons, List.not_mem_nil, or_false, Prod.mk.injEq] at hc
  rcases hc with ⟨rfl, rfl, rfl, rfl⟩ | ⟨rfl, rfl, rfl, rfl⟩ | ⟨rfl, rfl, rfl, rfl⟩ | ⟨rfl, rfl, rfl, rfl⟩ | ⟨rfl, rfl, rfl, rfl⟩ |
    ⟨rfl, rfl, rfl, rfl⟩
  all_goals exact congrArg Host.Outcome.next (tblCmd_taken hw hb ht)

/-- A read of one pipeline shows its record. -/
theorem tblRead_one {p : Nat} {g : Nat → List Byte} (hp : bitsSet pipes 8 = [p]) :
    t.tblRead pipes g = (t.putArea TBL_CMD_RESULT_byte 0 (g p)).tblOut 0 0 := by
  unfold State.tblRead
  rw [hp]

/-- The end of the operation in progress: what it shows is read from the state after its last step. -/
theorem tblCmdDone_eq (hb : s.flag TBL_CMD_STATUS_busy 0 = true) (hon : s.portsOn = true)
    (hu : u = ((State.tblAll 4096 s).flushTo l2End).set TBX_flush 0 0) (hwf : u.wf = true) :
    exec .tblCmdDone s = .next ((((u.set TBL_CMD_STATUS_result 0 (u.get TBX_result 0)).set TBL_CMD_STATUS_moves 0 (u.get TBX_moves 0)).set
      TBL_CMD_STATUS_fail_pipes 0 (u.get TBX_fail 0)).put TBL_CMD_STATUS_busy 0 false) := by
  have hs := wf_sorted hwf
  show execTblCmdDone s = _
  unfold execTblCmdDone
  dsimp only
  rw [hb, hon, if_neg (by decide), ← hu, get_set_ne (set_sorted hs) (by decide), get_set_ne hs (by decide)]

/-- Settles O44: each command of Table FT-7 is taken with the staged record, begins in its pipelines in turn, steps 5 ns apart and ends
with its outcome. -/
theorem tableCommandsOfRegisters : Obligations.TableCommandsOfRegisters := by
  unfold Obligations.TableCommandsOfRegisters
  refine ⟨fun w pipes i b s t hw hb ht hs => ⟨?_, ?_, ?_, ?_, fun bad r hr => ?_, fun c op ix n a hc ha => ⟨fun hp => ?_, fun hp => ?_⟩,
    fun hp => ?_, fun p u hp hu => ⟨fun hi => ?_, ?_⟩⟩, fun w s hw hb => congrArg Host.Outcome.next (tblCmd_refused hw hb),
    fun s u hb hon hu hwf => tblCmdDone_eq hb hon hu hwf, fun n p op ix r rest s u hq hu => ⟨fun ho => ?_, fun ho => ?_⟩,
    fun p r s => rfl, fun x rest s hq hon hd => ?_⟩
  · subst hs
    exact congrArg Host.Outcome.next (tblCmd_taken hw hb ht)
  · subst hs
    exact congrArg Host.Outcome.next (tblCmd_taken hw hb ht)
  · subst hs
    exact congrArg Host.Outcome.next (tblCmd_taken hw hb ht)
  · subst hs
    refine congrArg Host.Outcome.next ((tblCmd_taken hw hb ht).trans ?_)
    rw [bits_zero]
  · subst hs hr
    exact congrArg Host.Outcome.next (tblCmd_taken hw hb ht)
  · exact (exec_pipes hw hb ht hs hc).trans (congrArg Host.Outcome.next ((tblPipes_eq ha).trans (if_pos hp)))
  · exact (exec_pipes hw hb ht hs hc).trans (congrArg Host.Outcome.next ((tblPipes_eq ha).trans (if_neg hp)))
  · subst hs
    exact congrArg Host.Outcome.next ((tblCmd_taken hw hb ht).trans (if_neg hp))
  · subst hu
    exact congrArg Host.Outcome.next ((tblCmd_taken hw hb ht).trans ((if_neg (by omega)).trans (tblRead_one hp)))
  · exact congrArg Host.Outcome.next ((tblCmd_taken hw hb ht).trans (tblRead_one hp))
  · subst hu
    rw [State.tblBegin, hq]
    exact congrArg _ (if_neg (by omega))
  · subst hu
    rw [State.tblBegin, hq]
    exact congrArg _ (if_pos ho)
  · unfold State.tblDue State.tblNext
    rw [hq, hon, decide_eq_true hd]
    rfl

/-- Settles O45: the scans, the learn engine, the hold, the scrubber and the event queue in their guarded branches. -/
theorem tablesAgeAndLearn : Obligations.TablesAgeAndLearn := by
  unfold Obligations.TablesAgeAndLearn
  refine ⟨fun i r s hr hon hp => ?_, fun p bd mac port rest s hq hon => ?_, fun p i r s hr hon hv => ⟨fun hh => ?_, fun ha hh => ?_, fun ha hh hs hl => ?_⟩,
    fun k p i s hon => if_pos (by rw [hon]; rfl), fun w s hw => if_pos hw⟩
  · subst hr
    have hon' : ¬ (!s.portsOn || decide (s.get TBL_FLOW_AGE_period 0 = 0)) = true := by
      rw [hon, decide_eq_false hp]
      decide
    refine ⟨fun hv hh => ?_, fun hv hh hs => ?_, fun hv hh hs => ?_, ?_⟩
    · show execFlowAgeScan i false s = _
      unfold execFlowAgeScan
      dsimp only
      rw [if_neg hon', hv, hh]
      rfl
    · show execFlowAgeScan i false s = _
      unfold execFlowAgeScan
      dsimp only
      rw [if_neg hon', hv, hh, hs]
      rfl
    · show execFlowAgeScan i false s = _
      unfold execFlowAgeScan
      dsimp only
      rw [if_neg hon', hv, hh, hs]
      rfl
    · exact (if_neg hon').trans (if_pos rfl)
  · show execL2Learn p s = _
    unfold execL2Learn
    rw [hq]
    exact if_neg (by rw [hon]; decide)
  · subst hr
    exact if_pos (by rw [hon, hv, hh]; rfl)
  · subst hr
    show execL2AgeScan p i s = _
    unfold execL2AgeScan
    dsimp only
    rw [hon, hv, hh, if_neg (by simp [ha])]
    rfl
  · subst hr
    show execL2AgeScan p i s = _
    unfold execL2AgeScan
    dsimp only
    rw [hon, hv, hh, hs, hl, if_neg (by simp [ha])]
    rfl

end Sys2Proof.Proofs
end

section
/-! PROOFS. Ports, links and pauses (spec/08_ports.md). -/

namespace Sys2Proof.Proofs

open Sys2Proof Sys2Proof.Machine Sys2Proof.Machine.Reg Sys2Proof.Laws

variable {s u : State} {n : Nat}

/-- What an up link that admits nothing hears is counted. -/
theorem linkDrop_counted (hon : s.portsOn = true) (hup : s.flag TLK_STATUS_link n = true) :
    s.linkDrop n = (s.cnt (0x100 + 64 * n) cRxDropBuf 1).pmu 19 2 1 := if_pos (by rw [hon, hup]; rfl)

theorem netDrop_counted (hon : s.portsOn = true) (hup : s.portUp n = true) :
    s.netDrop n = (s.cnt n cRxDropBuf 1).pmu 19 2 1 := if_pos (by rw [hon, hup]; rfl)

theorem linkHears_of_closed (h : s.open_ = false) : s.linkHears n = false := by
  unfold State.linkHears
  rw [h, Bool.false_and]

theorem netHears_of_closed (h : s.open_ = false) : s.netHears n = false := by
  unfold State.netHears
  rw [h, Bool.false_and]

/-- An accessor that the bus answers gets the read's value. -/
theorem answer_open {w : Who} {size : Nat} {r : State × Nat} (h : s.busOpen w = true) : s.answer w size r = r.1.emit (.regData w size r.2) :=
  if_pos h

/-- A counter read of a reader whose bus is open. -/
theorem portCounterRead_eq {w : Who} {r id k size : Nat} {lnk hi : Bool} (hr : readerOf w = some r) (hb : s.busOpen w = true) :
    exec (.portCounterRead w lnk id k hi size) s =
      .next ((s.cntRead r lnk id k hi size).1.emit (.regData w (if hi then 4 else size) (s.cntRead r lnk id k hi size).2)) := by
  show execPortCounterRead w lnk id k hi size s = _
  unfold execPortCounterRead
  rw [hr]
  exact congrArg Host.Outcome.next (answer_open hb)

/-- A link of a tenant locks where the shell's reset is released or the partner drives it. -/
theorem linkUp_tenant (hn : n < 16) (hon : s.portsOn = true) (hsds : s.sdsReady (16 + n) = true) (hen : s.flag TLK_CFG_en n = true)
    (hrst : s.flag SB_STATUS_rst_n n = true ∨ s.slotDriven n = false) (hflt : s.flag FLT_porth (16 + n) = false)
    (hl : s.flag TLK_STATUS_link n = false)
    (hu : u = ((s.put TLK_STATUS_link n true).put TLK_STATUS_link_chg n true).set TLK_STATUS_credit n 0) :
    exec (.linkUp (16 + n)) s = .next ((u.put TLK_STATUS_split n (u.flag GLB_STATUS_twin_mode 0)).mbxLinkUp n) := by
  subst hu
  have hr : (s.flag SB_STATUS_rst_n n || !s.slotDriven n) = true := by
    rcases hrst with h | h
    · rw [h, Bool.true_or]
    · rw [h, Bool.not_false, Bool.or_true]
  show execLinkUp (16 + n) s = _
  unfold execLinkUp
  dsimp only
  rw [hon, hsds, if_neg (by decide), if_neg (by omega), if_neg (by omega), Nat.add_sub_cancel_left, hen, hr, hflt, hl]
  rfl

/-- Settles O46: each command of a port or link in its guarded branch. -/
theorem linksAndPauses : Obligations.LinksAndPauses := by
  unfold Obligations.LinksAndPauses
  refine ⟨fun w v s hw hv hne => ?_, fun m s hm hon hsds hp hen hflt hl => ?_,
    fun n s u hn hon hsds hen hrst hflt hl hu => linkUp_tenant hn hon hsds hen hrst hflt hl hu, fun m s hm => if_neg hm, fun s => (if_pos rfl : execLinkDown 32 s = _),
    fun n mask time kib s => ⟨fun hh => ⟨if_pos hh, if_pos hh⟩, fun ho hon hup => ⟨?_, ?_⟩⟩,
    fun n time vec times s => ⟨fun hh => ⟨if_pos hh, if_pos hh⟩, fun ho hon hup => ⟨?_, ?_⟩⟩,
    fun n c s hp hr => ?_, fun n cs s hon hne hcs => ?_, fun n p s hp hh hr => ?_, fun n ps s hon hx => ⟨fun hm hp hk => ?_, fun hm hne hps => ?_⟩,
    fun w r id k v s hr hb => ⟨fun hv hk => ?_, fun hv hid => ?_, fun hv => ?_, portCounterRead_eq hr hb⟩⟩
  · have key : exec (.nmodeWrite w v) s = if quadBad (v % 2 ^ 12) || s.dev != dsIdle then .next (s.put MAC_NMODE_refused 0 true)
        else .next (s.quadChange (v % 2 ^ 12)) := by
      show execNmodeWrite w v s = _
      unfold execNmodeWrite
      dsimp only
      rw [hw, if_neg (by decide), hv, if_neg Bool.false_ne_true, bits_zero, if_neg hne]
    refine ⟨fun hq hd => ?_, fun hd => ?_, fun hq => ?_⟩
    · rw [key, hq, hd]
      rfl
    · rw [key, bne_iff_ne.2 hd, Bool.or_true]
      rfl
    · rw [key, hq]
      rfl
  · show execLinkUp m s = _
    unfold execLinkUp
    dsimp only
    rw [hon, hsds, if_neg (by decide), if_pos hm, hp, hen, hflt, hl]
    rfl
  · exact (if_neg (by rw [linkHears_of_closed ho]; decide)).trans (congrArg Host.Outcome.next (linkDrop_counted hon hup))
  · exact (if_neg (by rw [linkHears_of_closed ho]; decide)).trans (congrArg Host.Outcome.next (linkDrop_counted hon hup))
  · exact (if_neg (by rw [netHears_of_closed ho]; decide)).trans (congrArg Host.Outcome.next (netDrop_counted hon hup))
  · exact (if_neg (by rw [netHears_of_closed ho]; decide)).trans (congrArg Host.Outcome.next (netDrop_counted hon hup))
  · show execChpauseExpiry n c s = _
    unfold execChpauseExpiry
    dsimp only
    rw [show 0x100 + 64 * n + c - 0x100 = 64 * n + c by omega, hp, hr]
    rfl
  · show execChpauseRefresh n s = _
    unfold execChpauseRefresh
    dsimp only
    rw [← hcs, hon, if_neg (by cases cs <;> simp_all)]
  · show execPauseExpiry n p s = _
    unfold execPauseExpiry
    dsimp only
    rw [hr]
    by_cases h8 : p = 8
    · rw [if_pos h8] at hh ⊢
      rw [hh]
      rfl
    · rw [if_neg h8] at hh ⊢
      rw [hh, decide_eq_true (show p < 8 by omega)]
      rfl
  · show execPauseRefresh n s = _
    unfold execPauseRefresh
    dsimp only
    rw [hon, if_neg (by simp [hx]), if_pos hm, hp, decide_eq_true hk]
    rfl
  · show execPauseRefresh n s = _
    unfold execPauseRefresh
    dsimp only
    rw [hon, if_neg (by simp [hx]), if_neg (by omega), if_pos hm, ← hps, if_neg (by cases ps <;> simp_all)]
  · rw [portCounterRead_eq hr hb, hv]
    unfold State.cntRead
    dsimp only
    rw [if_neg (fun h : false = false ∧ k = cPausedNs ∧ isExt id = true => hk h.2.1)]
    rfl
  · rw [portCounterRead_eq hr hb, hv]
    unfold State.cntRead
    dsimp only
    rw [if_neg Bool.false_ne_true, if_pos ⟨rfl, rfl, hid⟩]
    rfl
  · rw [portCounterRead_eq hr hb, hv]
    rfl

end Sys2Proof.Proofs
end

section
/-! PROOFS. Slots and shells, the scheduler and its gates (spec/08_ports.md and spec/09_scheduling.md). -/

namespace Sys2Proof.Proofs

open Sys2Proof Sys2Proof.Machine Sys2Proof.Machine.Reg Sys2Proof.Laws

variable {s u v : State} {w : Who} {sl id : Nat}

/-! ## Slots -/

theorem slotBusy_false (hb : s.flag SB_STATUS_busy sl = false) (hh : s.get SBX_hit sl ≠ s.clk + 1) : s.slotBusy sl = false := by
  unfold State.slotBusy
  rw [hb, beq_false_of_ne hh]
  rfl

theorem slotBusy_true (h : s.flag SB_STATUS_busy sl = true ∨ s.get SBX_hit sl = s.clk + 1) : s.slotBusy sl = true := by
  unfold State.slotBusy
  rcases h with h | h
  · rw [h, Bool.true_or]
  · rw [h, beq_self_eq_true, Bool.or_true]

/-- RESET and RELEASE of a powered, driven slot without a fault in a live device. -/
theorem slotNoRel_false (hb : s.slotBusy sl = false) (hd : s.slotDriven sl = true) (hp : s.flag SB_STATUS_pwren sl = true)
    (hf : s.flag SB_STATUS_fault sl = false) (hl : s.slotLive = true) : s.slotNoRel sl = false := by
  unfold State.slotNoRel
  rw [hb, hd, hp, hf, hl]
  rfl

/-- A removal or insertion is taken: what the new state of the slot is, and when it powers off. -/
theorem slotPrsntChange_eq {p : Bool} (hd : s.dev ≠ 0) (hp : s.flag SB_STATUS_prsnt sl = !p)
    (hu : u = (if p then (s.put SB_STATUS_prsnt sl p).put SB_STATUS_prsnt_chg sl true
      else ((s.put SB_STATUS_prsnt sl p).put SB_STATUS_prsnt_chg sl true).slotHit sl)) :
    exec (.slotPrsntChange sl p) s =
      if !p && u.flag SB_CFG_surprise_off sl && (u.flag SB_STATUS_pwren sl || u.flag SB_STATUS_busy sl) then .next (u.slotOff sl)
      else .next u := by
  subst hu
  show execSlotPrsntChange sl p s = _
  unfold execSlotPrsntChange
  dsimp only
  rw [beq_false_of_ne hd, hp, if_neg (by cases p <;> decide)]

/-- The end of an I2C transfer in progress. -/
theorem i2cDone_eq {st : Nat} {d : List Byte} (hg : s.flag SB_I2C_CMD_go sl = true)
    (hu : u = if st = 0 ∧ s.i2cReads sl ≠ 0 then s.set SB_I2C_DATA_data sl
      (leNat (splice (leBytes 8 (s.get SB_I2C_DATA_data sl)) 0 (padTo (s.i2cReads sl) d))) else s) :
    exec (.i2cDone sl st d) s =
      .next ((((if st = 3 then u.emit (.i2cClear sl) else u).put SB_I2C_CMD_go sl false).put SB_I2C_CMD_done sl true).set
        SB_I2C_CMD_status sl st) := by
  subst hu
  show execI2cDone sl st d s = _
  unfold execI2cDone
  rw [hg]
  rfl

/-- A management request with a free position: it goes out over an up link and fails at once over one that is down. -/
theorem mgmtReq_eq {x : Nat} (hw : s.mayWrite w = true) (hb : s.flag SHL_CMD_busy sl = false)
    (hu : u = ((s.set SHL_CMD_addr sl (bits x 32 32)).set SHL_CMD_len sl (bits x 16 3)).put SHL_CMD_wr sl (bit x 8)) :
    exec (.mgmtReq w sl x) s =
      if !u.flag TLK_STATUS_link sl then .next (((u.set CTL_seq sl (u.get CTL_seq sl + 1)).set SHL_CMD_seq sl
        (u.get CTL_seq sl + 1)).set SHL_CMD_result sl 2)
      else .next (((u.sendMgmt sl (bit x 8) (bits x 32 32) (bits x 16 3 + 1) (padTo 8 (beBytes (bits x 16 3 + 1)
        (u.get SHL_DATA_data sl)))).put SHL_CMD_go sl true).set SHL_CMD_seq sl (u.get CTL_seq sl + 1)) := by
  subst hu
  show execMgmtReq w sl x s = _
  unfold execMgmtReq
  rw [hw, hb]
  rfl

/-- Settles O47: the branch of each slot, I2C and shell command that its hypotheses leave. -/
theorem sidebandAndShell : Obligations.SidebandAndShell := by
  unfold Obligations.SidebandAndShell
  refine ⟨fun w sl s ho hb hh hd => ?_, fun w sl s ho hb => ?_, fun sl s => ⟨fun hq => if_pos hq, fun hq ha => ?_, fun hq ha => ?_, fun hq => ?_, fun hq => if_pos hq⟩,
    fun sl p s u hd hp hu => ⟨fun hx => ?_, fun hx hoff hon => ?_⟩, fun w sl v s u ho hg h1 h8 hr hu => ?_,
    fun sl st d s hg => ⟨fun hst => ?_, fun hn => ?_⟩, fun w sl v s u hw hb hu => ⟨fun hl => ?_, fun hl => ?_⟩,
    fun sl seq st d s hh => if_pos hh, fun sl seq st d s ho hon hup => ?_, fun sl s => rfl⟩
  · have hbusy := slotBusy_false hb hh
    refine ⟨fun hp he => ?_, ?_, ?_, fun hp hf hl => ⟨?_, ?_⟩⟩
    · show execPowerOn w sl s = _
      unfold execPowerOn
      rw [ho, hbusy, hd, hp, he]
      rfl
    · show execPowerOff w sl s = _
      unfold execPowerOff
      rw [ho, hbusy, hd]
      rfl
    · show execHold w sl s = _
      unfold execHold
      rw [ho, hbusy, hd]
      rfl
    · show execReset w sl s = _
      unfold execReset
      rw [ho, slotNoRel_false hbusy hd hp hf hl]
      rfl
    · show execRelease w sl s = _
      unfold execRelease
      rw [ho, slotNoRel_false hbusy hd hp hf hl]
      rfl
  · have hbusy := slotBusy_true hb
    have hno : s.slotNoRel sl = true := by
      unfold State.slotNoRel
      rw [hbusy]
      rfl
    refine ⟨?_, ?_, ?_, ?_, ?_⟩
    · show execPowerOn w sl s = _
      unfold execPowerOn
      rw [ho, hbusy]
      rfl
    · show execPowerOff w sl s = _
      unfold execPowerOff
      rw [ho, hbusy]
      rfl
    · show execReset w sl s = _
      unfold execReset
      rw [ho, hno]
      rfl
    · show execHold w sl s = _
      unfold execHold
      rw [ho, hbusy]
      rfl
    · show execRelease w sl s = _
      unfold execRelease
      rw [ho, hno]
      rfl
  · show execResetDelayExpiry sl s = _
    unfold execResetDelayExpiry
    dsimp only
    rw [if_pos hq, if_pos ha]
  · show execResetDelayExpiry sl s = _
    unfold execResetDelayExpiry
    dsimp only
    rw [if_pos hq, if_neg (by rw [ha]; decide)]
  · show execResetDelayExpiry sl s = _
    unfold execResetDelayExpiry
    dsimp only
    rw [if_neg (by omega), if_pos hq]
  · refine (slotPrsntChange_eq hd hp hu).trans (if_neg ?_)
    rcases hx with rfl | h
    · simp
    · simp [h]
  · refine (slotPrsntChange_eq hd hp hu).trans (if_pos ?_)
    rw [hx, hoff]
    rcases hon with h | h <;> simp [h]
  · subst hu
    show execI2cGo w sl v s = _
    unfold execI2cGo
    dsimp only
    rw [ho, hg, if_neg (by decide), if_pos (show 1 ≤ bits v 12 4 ∧ bits v 12 4 ≤ 8 from ⟨h1, h8⟩), if_pos (show bits v 16 4 ≤ 8 from hr)]
    rfl
  · refine i2cDone_eq hg ?_
    exact (if_neg (fun h => hst h.1)).symm
  · exact i2cDone_eq hg (if_pos ⟨rfl, hn⟩).symm
  · exact (mgmtReq_eq hw hb hu).trans (if_neg (by rw [hl]; decide))
  · exact (mgmtReq_eq hw hb hu).trans (if_pos (by rw [hl]; rfl))
  · exact (if_neg (by unfold State.linkHears; rw [ho, Bool.false_and]; decide)).trans (congrArg Host.Outcome.next (if_pos (by rw [hon, hup]; rfl)))

/-! ## The scheduler -/

/-- What a port shows after a list has come into force, with the values it took. -/
theorem takeover_reads {b o x y n k : Nat} (hs : SM.sorted s.fld = true)
    (hv : v = ((((((((s.put SCH_GATE_STATUS_pending id false).put SCH_GATE_STATUS_active_valid id true).set SCH_GATE_STATUS_active_bank id b).set
      GTX_opl id o).set SCH_GATE_OPER_BASE_base id x).set SCH_GATE_OPER_CYCLE_cycle id y).set GTX_now id n).set GTX_tick id k)) :
    v.flag SCH_GATE_STATUS_pending id = false ∧ v.flag SCH_GATE_STATUS_active_valid id = true ∧ v.get SCH_GATE_STATUS_active_bank id = b % 2 ∧
      v.get SCH_GATE_OPER_BASE_base id = x % 2 ^ 48 ∧ v.get SCH_GATE_OPER_CYCLE_cycle id = y % 2 ^ 32 := by
  subst hv
  have h1 : SM.sorted (s.put SCH_GATE_STATUS_pending id false).fld = true := set_sorted hs
  have h2 := set_sorted (f := SCH_GATE_STATUS_active_valid) (i := id) (v := b2n true) h1
  have h3 := set_sorted (f := SCH_GATE_STATUS_active_bank) (i := id) (v := b) h2
  have h4 := set_sorted (f := GTX_opl) (i := id) (v := o) h3
  have h5 := set_sorted (f := SCH_GATE_OPER_BASE_base) (i := id) (v := x) h4
  have h6 := set_sorted (f := SCH_GATE_OPER_CYCLE_cycle) (i := id) (v := y) h5
  refine ⟨?_, ?_, ?_, ?_, ?_⟩
  · exact (flag_of_spares ((((((Spares.refl.put (by decide)).set (by decide)).set (by decide)).set (by decide)).set (by decide)).set (by decide) |>.set
      (by decide)) h1).trans (flag_put_same hs (by decide))
  · exact (flag_of_spares (((((Spares.refl.set (by decide)).set (by decide)).set (by decide)).set (by decide)).set (by decide) |>.set
      (by decide)) h2).trans (flag_put_same h1 (by decide))
  · exact (((((Spares.refl.set (by decide)).set (by decide)).set (by decide)).set (by decide)).set (by decide) h3).2.trans (get_set_same h2)
  · exact (((Spares.refl.set (by decide)).set (by decide)).set (by decide) h5).2.trans (get_set_same h4)
  · exact ((Spares.refl.set (by decide)).set (by decide) h6).2.trans (get_set_same h5)

/-- A pending list whose time has come is in force after the take-over. -/
theorem takeover_due (hs : SM.sorted s.fld = true) (hp : s.flag SCH_GATE_STATUS_pending id = true)
    (hr : reached48 s.now (s.get GTX_base id) = true) (hv : v = s.takeover id) :
    v.flag SCH_GATE_STATUS_pending id = false ∧ v.flag SCH_GATE_STATUS_active_valid id = true ∧
      v.get SCH_GATE_STATUS_active_bank id = s.get GTX_bank id % 2 ∧
      v.get SCH_GATE_OPER_BASE_base id = s.get GTX_base id % 2 ^ 48 ∧ v.get SCH_GATE_OPER_CYCLE_cycle id = s.get GTX_cycle id % 2 ^ 32 := by
  unfold State.takeover at hv
  rw [hp, hr, Bool.and_self, if_pos rfl] at hv
  obtain ⟨h1, h2, h3, h4, h5⟩ := takeover_reads hs hv
  refine ⟨h1, h2, h3, ?_, ?_⟩
  · rw [h4]
    exact congrArg (· % 2 ^ 48) ((((Spares.refl.put (by decide)).put (by decide)).set (by decide)).set (by decide) hs).2
  · rw [h5]
    exact congrArg (· % 2 ^ 32) ((((Spares.refl.put (by decide)).put (by decide)).set (by decide)).set (by decide) hs).2

/-- A write of the host pool's size that differs from it. -/
theorem bufCfgWrite_host {x : Nat} (hw : s.mayWrite w = true) (hx : bit x 31 = false) (hne : x % 2 ^ 17 ≠ s.get SCH_BUF_CFG_host_kib 0) :
    exec (.bufCfgWrite w false 0 x) s = if s.dev != dsIdle || s.bufTooBig (x % 2 ^ 17) none then .next (s.put SCH_BUF_CFG_refused 0 true)
      else .next (s.bufSet (x % 2 ^ 17) none) := by
  show execBufCfgWrite w false 0 x s = _
  unfold execBufCfgWrite
  dsimp only
  rw [hw, if_neg (by decide), if_pos (by decide), hx, if_neg Bool.false_ne_true, bits_zero, if_neg hne]

/-- A gate list that no rule refuses is late, or becomes pending. -/
theorem gateCommit_eq {b d : Nat} (hw : s.mayWrite w = true) (hp : schPort id = true) (hr : s.gateReason id = 0)
    (hb : b = s.get SCH_GATE_LIST_bank id) (hd : d = (s.get SCH_GATE_BASE_base id + 2 ^ 48 - s.now % 2 ^ 48) % 2 ^ 48)
    (hu : u = ((s.set GTX_base id (s.get SCH_GATE_BASE_base id)).set GTX_cycle id (s.get SCH_GATE_CYCLE_cycle id)).set GTX_bank id b) :
    exec (.gateCommit w id) s = if d < 200 ∨ 2 ^ 47 ≤ d then .next (s.put SCH_GATE_STATUS_late id true)
      else .next ((u.set GTX_len (2 * id + b) (u.get SCH_GATE_LIST_len id)).put SCH_GATE_STATUS_pending id true) := by
  subst hu hb hd
  show execGateCommit w id s = _
  unfold execGateCommit
  dsimp only
  rw [hw, hp, if_neg (by decide), hr, if_neg (by decide)]

/-- Settles O48: the branch of each command that its hypotheses leave, and what a take-over puts in force. -/
theorem schedulerAndGates : Obligations.SchedulerAndGates := by
  unfold Obligations.SchedulerAndGates
  refine ⟨fun w v s hw hv hne => ⟨fun hd hb => ?_, fun hd => ?_⟩, fun w id v s hw hid h7 hd hne hb => ?_, fun w i v s hw => ⟨fun hi => ?_, fun hi ho => ?_⟩,
    fun w lv i r s hw hb hr => ⟨fun hc => ?_, fun hc => ?_⟩, fun w lv i s hw hb => ⟨?_, ?_⟩, fun w lv i s u hw hb he hu => ?_,
    fun m l f s t hon hb hsel hh => ?_, fun m f port s u hd1 hd0 hm hk hst hu => ?_,
    fun w id d b s u hw hp hr hb hd => ⟨fun hl => ?_, fun h2 h47 hu => ?_⟩, fun w id s hw ht hp => ⟨fun hr => ?_, fun hr => ?_⟩,
    fun w id s hw ht => ?_, fun id s hwf hp hr => ⟨_, rfl, takeover_due (wf_sorted hwf) hp hr rfl⟩,
    fun w e v id b s hw hid hb hp => ⟨fun hl => ?_, fun hl => ?_⟩, fun en s he hon hen => ?_⟩
  · exact (bufCfgWrite_host hw hv hne).trans (if_neg (by rw [hd, hb]; decide))
  · exact (bufCfgWrite_host hw hv hne).trans (if_pos (by rw [bne_iff_ne.2 hd]; rfl))
  · show execBufCfgWrite w true id v s = _
    unfold execBufCfgWrite
    dsimp only
    rw [hw, if_neg (by decide), if_neg (by decide), hid, if_neg (by decide), if_neg (show ¬ bits v 16 3 = 7 from h7),
      if_neg (fun h => hne h.1), hd, bits_zero, hb]
    rfl
  · show execPolicerWrite w false i v s = _
    unfold execPolicerWrite
    dsimp only
    rw [hw, if_neg (by decide), if_neg (by decide), hi, if_neg (by decide), bits_zero]
    rfl
  · show execPolicerWrite w true i v s = _
    unfold execPolicerWrite
    dsimp only
    rw [hw, if_neg (by decide), if_pos rfl, ho, decide_eq_false (Nat.not_le.2 hi), if_neg (by decide), bits_zero]
    rfl
  · subst hr
    show execNodeWrite w lv i s = _
    unfold execNodeWrite
    dsimp only
    rw [hw, hb, if_neg (by decide), if_neg (by decide), if_pos hc]
  · subst hr
    show execNodeWrite w lv i s = _
    unfold execNodeWrite
    dsimp only
    rw [hw, hb, if_neg (by decide), if_neg (by decide), if_neg hc]
  · show execNodeWrite w lv i s = _
    unfold execNodeWrite
    rw [hw, hb]
    rfl
  · show execNodeRead w lv i s = _
    unfold execNodeRead
    rw [hw, hb]
    rfl
  · subst hu
    show execNodeRead w lv i s = _
    unfold execNodeRead
    dsimp only
    rw [hw, hb, if_neg (by decide), if_neg (by decide), he, if_neg (by decide)]
  · show execFrameSelect m s = _
    unfold execFrameSelect
    rw [hon, hb, if_neg (by decide), hsel]
    dsimp only
    rw [hh]
  · subst hu
    show execFrameTxEnd m s = _
    unfold execFrameTxEnd
    dsimp only
    rw [beq_false_of_ne hd1, beq_false_of_ne hd0, hk, decide_eq_false (Nat.not_le.2 hm), if_neg (by simp), Nat.add_sub_cancel, hst]
  · exact (gateCommit_eq hw hp hr hb hd rfl).trans (if_pos hl)
  · exact (gateCommit_eq hw hp hr hb hd hu).trans (if_neg (by omega))
  · show execGateCancel w id s = _
    unfold execGateCancel
    rw [hw, hp, hr, if_neg (by decide), if_neg ht]
    rfl
  · show execGateCancel w id s = _
    unfold execGateCancel
    rw [hw, hp, hr, if_neg (by decide), if_neg ht]
    rfl
  · show execGateCancel w id s = _
    unfold execGateCancel
    rw [hw, if_neg (by decide), if_pos ht]
  · subst hid hb
    show execGateEntryWrite w e v s = _
    unfold execGateEntryWrite
    dsimp only
    rw [hw, hp, hl]
    rfl
  · subst hid hb
    show execGateEntryWrite w e v s = _
    unfold execGateEntryWrite
    dsimp only
    rw [hw, hp, hl]
    rfl
  · subst hen
    show execSamplePeriod s = _
    unfold execSamplePeriod
    rw [he, hon]
    rfl

end Sys2Proof.Proofs
end

section
/-! PROOFS. Meridian time, triggers and captures (spec/10_meridian_time.md). -/

namespace Sys2Proof.Proofs

open Sys2Proof Sys2Proof.Machine Sys2Proof.Machine.Reg Sys2Proof.Laws

variable {s u : State} {w : Who} {k : Nat}

/-- The whole ticks that take up a remainder at a rate: enough, and not one more. -/
theorem ceilDiv_bounds {r n : Nat} (hn : n ≠ 0) : r ≤ (r + n - 1) / n * n ∧ (r + n - 1) / n * n < r + n := by
  have hpos := Nat.pos_of_ne_zero hn
  have hdiv := Nat.div_add_mod (r + n - 1) n
  have hlt := Nat.mod_lt (r + n - 1) hpos
  rw [Nat.mul_comm] at hdiv
  omega

/-- An exit from Drift, by whether the clock is in Drift and a cause holds it there. -/
theorem driftExit_eq {e : Bool} (hw : s.mayWrite w = true) (hu : u = s.put MT_CTRL_exit_step 0 e) :
    exec (.driftExit w e) s = if !u.inDrift then .next u else if !u.driftMayEnd then .next u.mtRefuse
      else if u.leaveDrift.get MT_ADJ_offset 0 = 0 then .next u.leaveDrift
      else .next (if e then u.leaveDrift.startStep else u.leaveDrift.startSlew) := by
  subst hu
  show execDriftExit w e s = _
  unfold execDriftExit
  rw [hw]
  rfl

/-- A write of the PPS register: off, moved, or switched on. -/
theorem ppsWrite_eq {x : Nat} (hw : s.mayWrite w = true) (hu : u = s.ppsFields x) :
    exec (.ppsWrite w x) s =
      if bits x 63 1 = 0 then .next (((u.put MT_PPS_en 0 false).set MTX_ppsoff 0 0).drivePps false (4 * u.now))
      else if s.flag MT_PPS_en 0 then .next (u.set MTX_ppsoff 0 (s.ppsOff + 1))
      else .next (((u.put MT_PPS_en 0 true).set MTX_ppsoff 0 0).set MTX_ppsidx 0 (ppsIdx ((u.put MT_PPS_en 0 true).set MTX_ppsoff 0 0).ppsNow
        ((u.put MT_PPS_en 0 true).set MTX_ppsoff 0 0).ppsOff)) := by
  subst hu
  show execPpsWrite w x s = _
  unfold execPpsWrite
  rw [hw]
  rfl

/-- Settles O49: each command in its guarded branch, and the ticks of a slew as a division rounded up. -/
theorem meridianTimeIsSteered : Obligations.MeridianTimeIsSteered := by
  unfold Obligations.MeridianTimeIsSteered
  refine ⟨fun w n s hb => congrArg Host.Outcome.next (if_pos hb), fun w v s hw => ⟨fun hd h1 h2 => ?_, fun hx => ?_⟩,
    fun w n s hw => ⟨fun hd => ?_, fun hd => ?_, fun hd => ?_⟩, fun s hs => ⟨?_, fun hn => ceilDiv_bounds hn, if_pos hs⟩,
    fun s hd => ⟨fun hr hl => ?_, fun hr => ?_⟩, fun w s u e hw => ⟨?_, fun hu hd hm ho => ?_, fun hu hd hm ho => ?_, fun hu hd hm => ?_, fun hu hd => ?_⟩,
    fun w v s u hw hu => ⟨fun hv => ?_, fun hv he => ?_, fun hv he => ?_⟩, fun s u he hp hd hi hu => ?_, fun q s hp hq hr => ?_⟩
  · show execMtIncWrite w v s = _
    unfold execMtIncWrite
    dsimp only
    rw [hw, if_neg (by decide), hd, decide_eq_false (Nat.not_lt.2 h1), decide_eq_false (Nat.not_lt.2 h2)]
    rfl
  · show execMtIncWrite w v s = _
    unfold execMtIncWrite
    dsimp only
    rw [hw, if_neg (by decide), if_pos]
    rcases hx with h | h | h
    · rw [h, Bool.true_or, Bool.true_or]
    · rw [decide_eq_true h, Bool.or_true, Bool.true_or]
    · rw [decide_eq_true h, Bool.or_true]
  · show execAdjStep w n s = _
    unfold execAdjStep
    dsimp only
    rw [hw, hd]
    rfl
  · show execAdjSlew w n s = _
    unfold execAdjSlew
    dsimp only
    rw [hw, hd]
    rfl
  · show execAdjStep w n s = _
    unfold execAdjStep
    dsimp only
    rw [hw, hd]
    rfl
  · show execSlewDone s = _
    unfold execSlewDone
    rw [hs]
    rfl
  · show execRefLost s = _
    unfold execRefLost
    rw [beq_false_of_ne hd, beq_false_of_ne hr, hl]
    rfl
  · show execRefLock s = _
    unfold execRefLock
    rw [beq_false_of_ne hd, if_neg]
    rcases hr with h | h <;> simp [h]
  · show execDriftEnter w s = _
    unfold execDriftEnter
    rw [hw]
    rfl
  · rw [driftExit_eq hw hu, hd, hm, if_neg (by decide), if_neg (by decide), if_pos ho]
  · rw [driftExit_eq hw hu, hd, hm, if_neg (by decide), if_neg (by decide), if_neg ho]
  · rw [driftExit_eq hw hu, hd, hm]
    rfl
  · rw [driftExit_eq hw hu, hd]
    rfl
  · rw [ppsWrite_eq hw hu, bits, Nat.pow_one, if_pos hv]
  · have hv1 : bits v 63 1 = 1 := by rw [bits, Nat.pow_one, hv]
    rw [ppsWrite_eq hw hu, hv1, he]
    rfl
  · have hv1 : bits v 63 1 = 1 := by rw [bits, Nat.pow_one, hv]
    rw [ppsWrite_eq hw hu, hv1, he]
    rfl
  · subst hu
    refine congrArg Host.Outcome.next (if_pos ?_)
    rw [he, hp, bne_iff_ne.2 hd, decide_eq_true hi]
    rfl
  · rw [← State.ppsEnd] at hq
    subst hq
    exact congrArg Host.Outcome.next (if_pos (by rw [hp, hr]; rfl))

/-! ## Triggers -/

/-- A write of the arm bit to a comparator of the registers that is at rest, with a defined action and destination. -/
theorem arm_free {dis : Bool} (hw : s.mayWrite w = true) (ho : s.flag MT_TRIG_CFG_own k = true) (hl : s.trigLive k = false)
    (ha : s.get MT_TRIG_CFG_action k ≠ 0) (ha4 : s.get MT_TRIG_CFG_action k ≤ 4) (hd : s.destOk (s.get MT_TRIG_CFG_dest k) = true) :
    exec (.arm w k dis) s = if dis then .next (s.trigEnd k 3 0) else .next (s.armReg k) := by
  show execArm w k dis s = _
  unfold execArm
  dsimp only
  rw [hw, ho, hl, if_neg (by decide), if_neg (by decide), if_neg Bool.false_ne_true, if_neg]
  rintro (h | h | h)
  · exact ha h
  · omega
  · rw [hd] at h
    cases h

/-- A disarm of a comparator of the registers. -/
theorem disarm_eq (hw : s.mayWrite w = true) (ho : s.flag MT_TRIG_CFG_own k = true) :
    exec (.disarm w k) s = if s.trigLive k then .next (if s.fireDue k then s else s.trigEnd k 3 0) else .next s := by
  show execDisarm w k s = _
  unfold execDisarm
  rw [hw, ho]
  rfl

/-- The falls of a comparator that are due, where only the first of them is. -/
theorem falls_due {sl q : Nat} {rest : List (Nat × Nat × Nat)} {due : Nat × Nat × Nat → Bool} (hd : due (k, sl, q) = true)
    (hr : ∀ p ∈ rest, p.1 = k → due p = false) :
    ((k, sl, q) :: rest).filter (fun p => p.1 == k && due p) = [(k, sl, q)] ∧
      ((k, sl, q) :: rest).filter (fun p => !(p.1 == k && due p)) = rest := by
  have hno : ∀ p ∈ rest, (p.1 == k && due p) = false := fun p hp => by
    by_cases h : p.1 = k
    · rw [hr p hp h, Bool.and_false]
    · rw [beq_false_of_ne h, Bool.false_and]
  constructor
  · rw [List.filter_cons_of_pos (by simp [hd]), List.filter_eq_nil_iff.2 fun p hp => by rw [hno p hp]; decide]
  · rw [List.filter_cons_of_neg (by simp [hd]), List.filter_eq_self.2 fun p hp => by rw [hno p hp]; rfl]

/-- Settles O50: each command in its guarded branch; of the pulses that have ended only the first is due. -/
theorem triggersAndCaptures : Obligations.TriggersAndCaptures := by
  unfold Obligations.TriggersAndCaptures
  refine ⟨fun w k v s hw => ⟨?_, fun hl h0 hne => ?_, fun hl hne => ?_, fun hl hne => ?_⟩,
    fun w k s hw ho => ⟨fun hl ha ha4 hd => (arm_free hw ho hl ha ha4 hd).trans (if_neg (by decide)), fun hl => ?_,
      fun hl ha ha4 hd => (arm_free hw ho hl ha ha4 hd).trans (if_pos rfl), fun hl hf => ?_, fun hl hf => ?_, fun hl => ?_⟩,
    fun k s hs ht => ?_, fun k s ha hd hw => ?_, fun k s hf hl ht => ?_, fun k s hf hl ht => ?_, fun k sl q rest s hq hr hrest => ?_,
    fun src q rise s hw ha h0 hsrc => ?_, fun w j s hw => ?_⟩
  · show execTrigCfgWrite w k 0 v s = _
    unfold execTrigCfgWrite
    rw [hw]
    rfl
  · show execTrigCfgWrite w k 1 v s = _
    unfold execTrigCfgWrite
    rw [hw, hl, bits_zero, if_neg (by decide), if_neg (by decide), if_pos rfl, if_neg (by omega)]
    rfl
  · show execTrigCfgWrite w k 2 v s = _
    unfold execTrigCfgWrite
    rw [hw, hl, if_neg (by decide), if_neg (by decide), if_neg (by decide), if_pos rfl, if_neg hne]
    rfl
  · show execTrigCfgWrite w k 2 v s = _
    unfold execTrigCfgWrite
    rw [hw, hl, if_neg (by decide), if_neg (by decide), if_neg (by decide), if_pos rfl, if_neg hne]
    rfl
  · show execArm w k false s = _
    unfold execArm
    rw [hw, ho, hl]
    rfl
  · rw [disarm_eq hw ho, hl, hf]
    rfl
  · rw [disarm_eq hw ho, hl, hf]
    rfl
  · rw [disarm_eq hw ho, hl]
    rfl
  · refine congrArg Host.Outcome.next (if_pos ?_)
    rw [hs, Bool.true_and]
    rcases ht with h | h
    · rw [decide_eq_true h, Bool.true_or]
    · rw [decide_eq_true h, Bool.or_true]
  · refine congrArg Host.Outcome.next (if_pos ?_)
    rw [ha, hd, bne_iff_ne.2 hw]
    rfl
  · refine congrArg Host.Outcome.next ?_
    unfold State.fire
    dsimp only
    rw [hf, if_neg (by decide), beq_false_of_ne hl, ht]
    rfl
  · refine congrArg Host.Outcome.next ?_
    unfold State.fire
    dsimp only
    rw [hf, if_neg (by decide), hl, ht]
    rfl
  · obtain ⟨h1, h2⟩ := falls_due (sl := sl) (q := q) (due := s.fallDue) hr hrest
    refine congrArg Host.Outcome.next ?_
    unfold State.pulseEnd
    rw [hq, h1, h2]
    rfl
  · show execCaptureEdge src q rise s = _
    unfold execCaptureEdge
    rw [beq_false_of_ne hw, beq_false_of_ne ha, beq_false_of_ne h0, decide_eq_false (Nat.not_lt.2 hsrc)]
    rfl
  · show execCaptureSw w j s = _
    unfold execCaptureSw
    rw [hw]
    rfl

end Sys2Proof.Proofs
end

section
/-! PROOFS. Cipher jobs, the key interfaces, the pages and the SA store (spec/11_cipher.md). -/

namespace Sys2Proof.Proofs

open Sys2Proof Sys2Proof.Machine Sys2Proof.Machine.Reg Sys2Proof.Laws

variable {s u : State} {w : Who} {i pg : Nat}

/-! ## Jobs -/

/-- An accepted entry of a cipher queue becomes the job of its operation. -/
theorem cphQueue_entry {q op : Nat} {e : Ent} (he : s.entAt q i = some e) (hg : s.entGo q i = true) (hc : s.qClass q = qcCph)
    (ho : weOpcode e.bytes = op) : s.cphQueue q i op = (s.markWay q i).addJob (s.cphJob q i e.bytes) := by
  unfold State.cphQueue
  rw [he]
  exact if_pos (by rw [hg, hc, ho, beq_self_eq_true, beq_self_eq_true]; rfl)

/-- An urgent job without a lane of its own takes its victim's. -/
theorem jobStart_preempt {j v : Job} (hd : s.dev ≠ dsWhiteout) (hj : s.urgentJob = some j)
    (hl : s.idleLane true = none ∨ s.lanesLeft j.owner = false) (hv : s.victim j.owner = some v) :
    exec .jobStart s = .next ((s.jobSuspend v).jobBegin j (v.lane - 1)) := by
  have hp : s.jobPreempt j = (s.jobSuspend v).jobBegin j (v.lane - 1) := by
    unfold State.jobPreempt
    rw [hv]
  show execJobStart s = _
  unfold execJobStart
  rw [beq_false_of_ne hd, if_neg Bool.false_ne_true, hj, ← hp]
  rcases hl with h | h
  · rw [h]
  · cases s.idleLane true with
    | none => rfl
    | some l => exact congrArg Host.Outcome.next (if_neg (by rw [h]; decide))

/-- What a lane's free time goes to: an urgent job that may hold it, or else the work that waits. -/
theorem jobStart_lane {l : Nat} (hd : s.dev ≠ dsWhiteout) (hl : s.idleLane true = some l) :
    (∀ j, s.urgentJob = some j → s.lanesLeft j.owner = true → exec .jobStart s = .next (s.jobBegin j l)) ∧
      (s.urgentJob = none → exec .jobStart s = .next (s.jobNormal l)) := by
  have key : exec .jobStart s = match s.urgentJob, s.idleLane true with
      | some j, some l => .next (if s.lanesLeft j.owner then s.jobBegin j l else s.jobPreempt j)
      | some j, none => .next (s.jobPreempt j)
      | none, some l => .next (s.jobNormal l)
      | none, none => .next s := if_neg (by rw [beq_false_of_ne hd]; decide)
  refine ⟨fun j hj hleft => ?_, fun hj => ?_⟩
  · rw [key, hj, hl]
    exact congrArg Host.Outcome.next (if_pos hleft)
  · rw [key, hj, hl]

/-- The frame of a leaf that an inline lane may take: its branches in order. -/
theorem inlineJobStart_eq {leaf f l c : Nat} {r : List Byte} (hf : s.inlineFrame leaf = some f) (hl : s.idleLane false = some l)
    (hm : s.moving = true) (hi : i = (s.frame f).sa - 1) (hr : r = s.saRec i) (hc : c = s.inlineBad (s.frame f) r) :
    exec (.inlineJobStart leaf) s = if (s.frame f).phase = 6 then .next (s.placeTake f l)
      else if c ≠ 0 then .next ((s.inc CPH_INLINE_DROP_count 0).stageEnd f c)
      else if saProto r = pMACsec ∧ saIngress r = false ∧ 16 ≤ (s.leafPath leaf).2.2 then .next (s.stageEnd f 0x42)
      else if saIngress r = false ∧ (saProto r = pESP ∨ saProto r = pMACsec) ∧ saExhausted r = true then .next (s.saExhaust i f)
      else .next (s.inlineTake l f i r) := by
  subst hi hr hc
  show execInlineJobStart leaf s = _
  unfold execInlineJobStart
  rw [hf, hl, hm]
  rfl

/-- A mask reseed of a device whose random generator is ready. -/
theorem maskReseed_of_ready (hr : s.flag CPH_RNG_STATUS_ready 0 = true) :
    exec .maskReseed s =
      .next (if 65536 ≤ (forEach (List.range 64) (fun g t => t.maskSeed g) s).get RNG_req 0 then
          (forEach (List.range 64) (fun g t => t.maskSeed g) s).drbgEntropy
        else forEach (List.range 64) (fun g t => t.maskSeed g) s) :=
  if_pos hr

/-- Settles O51: entries, starts, ends, inline starts and reseeds in their branches. -/
theorem cipherJobs : Obligations.CipherJobs := by
  unfold Obligations.CipherJobs
  refine ⟨fun q i e s he hg hc => ⟨fun ho => congrArg Host.Outcome.next (cphQueue_entry he hg hc ho), fun ho => congrArg Host.Outcome.next (cphQueue_entry he hg hc ho),
      fun ho => congrArg Host.Outcome.next (cphQueue_entry he hg hc ho), fun ho => congrArg Host.Outcome.next (cphQueue_entry he hg hc ho)⟩,
    fun s hd => ⟨fun j l hj hl hleft => (jobStart_lane hd hl).1 j hj hleft, fun j v hj hl hv => jobStart_preempt hd hj hl hv,
      fun j l hj hl hs => ?_, fun l hj hl => (jobStart_lane hd hl).2 hj⟩,
    fun l j s hj => ⟨fun hk a b => ?_, fun hk a b => ?_, fun hk a b => ?_, fun hk b => ?_⟩,
    fun leaf f l i c r s hf hl hm hi hr hc => ?_, fun w v s hw => ⟨fun hd => ?_, fun hd => ?_⟩, fun s hr => ⟨?_, ?_, fun n hn => ?_, fun u hu => ?_⟩⟩
  · rw [(jobStart_lane hd hl).2 hj]
    unfold State.jobNormal
    rw [hs]
  · show execJobComplete l a b s = _
    unfold execJobComplete
    rw [hj]
    dsimp only
    rw [if_neg (by omega), if_pos hk]
  · show execJobComplete l a b s = _
    unfold execJobComplete
    rw [hj]
    exact if_pos hk
  · show execJobComplete l (.data a) (.data b) s = _
    unfold execJobComplete
    rw [hj]
    dsimp only
    rw [if_neg (by omega), if_neg (by omega)]
  · show execJobComplete l .timeout b s = _
    unfold execJobComplete
    rw [hj]
    dsimp only
    rw [if_neg (by omega), if_neg (by omega)]
  · have key := inlineJobStart_eq hf hl hm hi hr hc
    refine ⟨fun h6 => key.trans (if_pos h6), fun h6 h0 => ?_, fun h6 h0 hp hg hx => ?_, fun h6 h0 hg => ?_, fun h6 h0 hg hx => ⟨fun hs => ?_, fun hs => ?_⟩⟩
    · rw [key, if_neg h6, if_pos h0]
    · rw [key, if_neg h6, if_neg (not_not_intro h0), if_pos ⟨hp, hg, hx⟩]
    · rw [key, if_neg h6, if_neg (not_not_intro h0), if_neg (fun h => absurd h.2.1 (by rw [hg]; decide)),
        if_neg (fun h => absurd h.1 (by rw [hg]; decide))]
    · rw [key, if_neg h6, if_neg (not_not_intro h0), if_neg (fun h => hx.elim (fun k => k h.1) (by have := h.2.2; omega)), if_pos ⟨hg, hs⟩]
    · rw [key, if_neg h6, if_neg (not_not_intro h0), if_neg (fun h => hx.elim (fun k => k h.1) (by have := h.2.2; omega)), if_neg]
      rintro ⟨-, hp, he⟩
      rcases hs with h | ⟨h1, h2⟩
      · rw [h] at he
        cases he
      · exact hp.elim h1 h2
  · show execLaneCfgWrite w v s = _
    unfold execLaneCfgWrite
    rw [hw, hd]
    rfl
  · show execLaneCfgWrite w v s = _
    unfold execLaneCfgWrite
    rw [hw, beq_false_of_ne hd]
    rfl
  · exact if_neg (by rw [hr]; decide)
  · exact if_neg (by rw [hr]; decide)
  · show execDrbgReseed n s = _
    unfold execDrbgReseed
    rw [hr, if_neg (by decide)]
    match n, hn with
    | n + 2, _ => rfl
  · rw [hu]
    exact maskReseed_of_ready hr

/-! ## The key interfaces -/

/-- A key command of an accessor whose own interface is idle. -/
theorem keyCmd_eq {f : Nat → Nat → List Byte → State → Nat × State} (hk : s.keyInst w = some i) (hb : s.busOpen w = true)
    (hi : s.flag CPH_KEY_STATUS_busy i = false) (hpg : pg = s.get CPH_KEY_SEL_sel i) :
    s.keyCmd w f = if !s.pageReach w pg then s.set CPH_KEY_STATUS_status i 1
      else if (f i pg (s.keyStage i) s).1 = 0 then ((f i pg (s.keyStage i) s).2.set CPH_KEY_STATUS_status i (f i pg (s.keyStage i) s).1).mirrorPage pg i
      else (f i pg (s.keyStage i) s).2.set CPH_KEY_STATUS_status i (f i pg (s.keyStage i) s).1 := by
  subst hpg
  unfold State.keyCmd
  rw [hk]
  exact if_neg (by rw [hb, hi]; decide)

/-- A key command on a page out of reach. -/
theorem keyCmd_unreached {f : Nat → Nat → List Byte → State → Nat × State} (hk : s.keyInst w = some i) (hb : s.busOpen w = true)
    (hi : s.flag CPH_KEY_STATUS_busy i = false) (hpg : pg = s.get CPH_KEY_SEL_sel i) (hr : s.pageReach w pg = false) :
    s.keyCmd w f = s.set CPH_KEY_STATUS_status i 1 := (keyCmd_eq hk hb hi hpg).trans (if_pos (by rw [hr]; rfl))

/-- A key command that is done: its status is 0, and the page's change is mirrored. -/
theorem keyCmd_done {f : Nat → Nat → List Byte → State → Nat × State} (hk : s.keyInst w = some i) (hb : s.busOpen w = true)
    (hi : s.flag CPH_KEY_STATUS_busy i = false) (hpg : pg = s.get CPH_KEY_SEL_sel i) (hr : s.pageReach w pg = true)
    (h0 : (f i pg (s.keyStage i) s).1 = 0) :
    s.keyCmd w f = ((f i pg (s.keyStage i) s).2.set CPH_KEY_STATUS_status i 0).mirrorPage pg i := by
  rw [keyCmd_eq hk hb hi hpg, hr, if_neg (by decide), if_pos h0, h0]

/-- A key command that is always done. -/
theorem keyCmd_always {g : Nat → State → State} (hk : s.keyInst w = some i) (hb : s.busOpen w = true)
    (hi : s.flag CPH_KEY_STATUS_busy i = false) (hpg : pg = s.get CPH_KEY_SEL_sel i) (hr : s.pageReach w pg = true) :
    s.keyCmd w (fun _ p _ t => (ksDone, g p t)) = ((g pg s).set CPH_KEY_STATUS_status i 0).mirrorPage pg i :=
  keyCmd_done hk hb hi hpg hr rfl

/-! ## Pages -/

/-- The owner of a page that is neither mirrored nor synchronised is written. -/
theorem pageWrite_eq {x : Nat} (hu : u = ((if x % 2 ^ 13 = 0x1FFF ∧ s.pageOwner pg ≠ x % 2 ^ 13 then s.zeroPage pg else s).set
      CPH_PAGE_OWNER_owner pg (x % 2 ^ 13)).put CPH_PAGE_OWNER_fp_access pg (bit x 31))
    (hm : u.pageMirrored pg = false) (hs : u.pageSyncs pg = false) : s.pageWrite pg x = u := by
  unfold State.pageWrite
  dsimp only
  rw [bits_zero, ← hu, hm, hs, Bool.and_false, if_neg Bool.false_ne_true, if_neg Bool.false_ne_true]

/-- A write of a page's owner that the accessor may make. -/
theorem pageOwnerWrite_may {x : Nat} (hw : s.mayWrite w = true) (ho : ownerValue (x % 2 ^ 13) = true)
    (hp : pageMay w (s.pageOwner pg) (x % 2 ^ 13) = true) : exec (.pageOwnerWrite w pg x) s = .next (s.pageWrite pg x) := by
  show execPageOwnerWrite w pg x s = _
  unfold execPageOwnerWrite
  rw [hw, bits_zero, ho, hp]
  rfl

/-- A write of a page's owner that R314 does not allow. -/
theorem pageOwnerWrite_refused {x : Nat} (hw : s.mayWrite w = true)
    (h : ownerValue (x % 2 ^ 13) = false ∨ pageMay w (s.pageOwner pg) (x % 2 ^ 13) = false) :
    exec (.pageOwnerWrite w pg x) s = .next (s.put CPH_LANE_STATUS_refused 0 true) := by
  show execPageOwnerWrite w pg x s = _
  unfold execPageOwnerWrite
  rw [hw, bits_zero, if_neg (by decide), if_pos]
  · rfl
  · rcases h with h | h
    · rw [h, Bool.not_false, Bool.true_or]
    · rw [h, Bool.not_false, Bool.or_true]

/-! ## The SA store -/

/-- An SA command while none is in progress. -/
theorem saCmd_taken {f : State → State} (hw : s.mayWrite w = true) (hb : s.flag CPH_SA_STATUS_busy 0 = false)
    (hu : u = s.put CPH_SA_STATUS_busy 0 true) : s.saCmd w f = f u := by
  subst hu
  unfold State.saCmd
  rw [hw, hb]
  rfl

/-- An SA command beside one in progress. -/
theorem saCmd_busy {f : State → State} (hw : s.mayWrite w = true) (hb : s.flag CPH_SA_STATUS_busy 0 = true) :
    s.saCmd w f = s.set CPH_SA_STATUS_result 0 6 := by
  unfold State.saCmd
  rw [hw, hb]
  rfl

/-- Settles O52: the key commands, the page owners and the SA commands in their branches. -/
theorem keysPagesAndSas : Obligations.KeysPagesAndSas := by
  unfold Obligations.KeysPagesAndSas
  refine ⟨fun w i pg s hk hb hi hpg => ⟨fun hr => ?_, fun hr => ⟨fun h => ?_, fun h => ?_, fun h => ?_, fun k => ?_, ?_⟩⟩,
    fun w pg v s hw => ⟨fun ho hp hne hm hs => ?_, fun u hv hne hp hu hm hs => ?_, fun h => pageOwnerWrite_refused hw (.inl h),
      fun h => pageOwnerWrite_refused hw (.inr h)⟩,
    fun w i s hw hb => ⟨congrArg Host.Outcome.next (saCmd_busy hw hb), congrArg Host.Outcome.next (saCmd_busy hw hb),
      congrArg Host.Outcome.next (saCmd_busy hw hb)⟩,
    fun w i r k s u hw hb hr hk hu => ⟨fun hm ho hg => ?_, fun hm ho hg => ?_, fun hm => ?_, fun hm => ?_, fun hm => ?_, fun hm => ⟨?_, ?_⟩⟩⟩
  · exact ⟨congrArg Host.Outcome.next (keyCmd_unreached hk hb hi hpg hr), congrArg Host.Outcome.next (keyCmd_unreached hk hb hi hpg hr),
      congrArg Host.Outcome.next (keyCmd_unreached hk hb hi hpg hr)⟩
  · exact congrArg Host.Outcome.next (keyCmd_done hk hb hi hpg hr h)
  · exact congrArg Host.Outcome.next ((keyCmd_eq hk hb hi hpg).trans ((if_neg (by rw [hr]; decide)).trans (if_neg h)))
  · exact congrArg Host.Outcome.next (keyCmd_done hk hb hi hpg hr h)
  · exact congrArg Host.Outcome.next (keyCmd_always (g := fun p t => t.zeroSlot p k) hk hb hi hpg hr)
  · exact congrArg Host.Outcome.next (keyCmd_always (g := fun p t => t.zeroPage p) hk hb hi hpg hr)
  · have hno : ¬ (v % 2 ^ 13 = 0x1FFF ∧ s.pageOwner pg ≠ v % 2 ^ 13) := fun h => hne h.1
    rw [pageOwnerWrite_may hw ho hp, pageWrite_eq (by rw [if_neg hno]) hm hs]
  · rw [pageOwnerWrite_may hw (by rw [hv]; decide) (by rw [hv]; exact hp), pageWrite_eq (u := u) ?_ hm hs]
    rw [hv, if_pos ⟨rfl, hne⟩, hu]
  · subst hr
    refine congrArg Host.Outcome.next ((saCmd_taken hw hb hu).trans ?_)
    rw [hm, ho, hg]
    rfl
  · subst hr
    refine congrArg Host.Outcome.next ((saCmd_taken hw hb hu).trans ?_)
    rw [hm, ho, hg]
    rfl
  · subst hr
    refine congrArg Host.Outcome.next ((saCmd_taken hw hb hu).trans ?_)
    rw [hm]
    rfl
  · subst hk
    refine congrArg Host.Outcome.next ((saCmd_taken hw hb hu).trans ?_)
    rw [hm]
    rfl
  · subst hk
    refine congrArg Host.Outcome.next ((saCmd_taken hw hb hu).trans ?_)
    rw [hm]
    rfl
  · subst hk
    refine congrArg Host.Outcome.next ((saCmd_taken hw hb hu).trans ?_)
    rw [hm]
    rfl
  · subst hk
    refine congrArg Host.Outcome.next ((saCmd_taken hw hb hu).trans ?_)
    rw [hm]
    rfl

end Sys2Proof.Proofs
end

section
/-! PROOFS. Offload stages and tables, and the DMA channels (spec/12_offloads.md and spec/13_dma.md). -/

namespace Sys2Proof.Proofs

open Sys2Proof Sys2Proof.Machine Sys2Proof.Machine.Reg Sys2Proof.Laws

variable {s u : State} {w : Who} {i c : Nat}

/-! ## Offloads -/

/-- A template or context command while none is in progress. -/
theorem oflCmd_taken {busy result : Fld} {f : State → State} (hw : s.mayWrite w = true) (hb : s.flag busy 0 = false)
    (hu : u = s.put busy 0 true) : s.oflCmd w busy result f = f u := by
  subst hu
  unfold State.oflCmd
  rw [hw, hb]
  rfl

/-- A template or context command beside one in progress. -/
theorem oflCmd_busy {busy result : Fld} {f : State → State} (hw : s.mayWrite w = true) (hb : s.flag busy 0 = true) :
    s.oflCmd w busy result f = s.set result 0 6 := by
  unfold State.oflCmd
  rw [hw, hb]
  rfl

/-- A registration by an NVME entry that names no SA. -/
theorem place_eq {q : Nat} {e : Ent} (he : s.nvEntry q i 1 = some e) (hu : u = s.markWay q i) (hs : nvSaEn e.bytes = false) :
    exec (.place q i) s = if u.get NVX_owner (nvConn e.bytes) ≠ s.qOwner q ∨ nvcValid (u.nvContext (nvConn e.bytes)) = false ∨
        (u.placeOf (nvConn e.bytes) (nvCid e.bytes)).isSome ∨ 65536 ≤ u.places.length then .next (u.finish q i 0x59 0 0)
      else if nvLen e.bytes = 0 then .next (u.finish q i 0 0 (nvCid e.bytes))
      else .next { u with places := u.places ++
        [{ conn := nvConn e.bytes, cid := nvCid e.bytes, q := q, idx := i, placed := 0, bad := false }] } := by
  subst hu
  show execPlace q i s = _
  unfold execPlace
  rw [he]
  dsimp only
  rw [if_neg (fun h => absurd h.1 (by rw [hs]; decide))]

/-- Settles O53: entries, stages, records and placements in their branches. -/
theorem offloadStagesAndTables : Obligations.OffloadStagesAndTables := by
  unfold Obligations.OffloadStagesAndTables
  refine ⟨fun q i e s he hg ho => ⟨fun hc hs ht => ?_, fun hc => ?_⟩, fun l f s hm hf => ⟨fun hp => ?_, fun hp => ?_⟩, fun l s hm hf => ?_,
    fun h f s hm hf => ?_, fun k c s hc hm => ?_, fun w i r s u hw hb hr hu => ⟨fun hm hg => ?_, fun hm hg => ?_, fun hm => ?_, ?_⟩,
    fun w i o r s u v hw hb hr ho hu hv => ⟨fun hm => ?_, fun hm => ?_, ?_⟩,
    fun w i s hw => ⟨fun hb => congrArg Host.Outcome.next (oflCmd_busy hw hb), fun hb => congrArg Host.Outcome.next (oflCmd_busy hw hb), if_pos hw⟩,
    fun q i e s u he hu hs => ⟨fun ho hv hp hl => ?_, fun ho => ?_⟩, fun q i e p s u he hu => ⟨fun hp ho => ?_, fun hp => ?_⟩⟩
  · show execSend q i s = _
    unfold execSend
    rw [he]
    exact if_pos (by rw [hg, hs, ht, hc, ho]; rfl)
  · show execBuffer q i s = _
    unfold execBuffer
    rw [he]
    exact if_pos (by rw [hg, hc, ho]; rfl)
  · show execEgressStage l s = _
    unfold execEgressStage
    rw [hm, if_neg (by decide), hf]
    dsimp only
    rw [if_pos hp]
  · show execEgressStage l s = _
    unfold execEgressStage
    rw [hm, if_neg (by decide), hf]
    dsimp only
    rw [if_neg hp]
  · show execEgressStage l s = _
    unfold execEgressStage
    rw [hm, if_neg (by decide), hf]
  · have key : exec (.receiveStage h) s = if (s.frame f).phase = 0 then .next (s.rxPrep h f) else if (s.frame f).phase = 2 then .next (s.rxMiddle h f)
        else if (s.frame f).phase = 3 then .next (s.rxTrack h f) else if (s.frame f).phase = 5 then .next (s.rxFinish h f) else .next s := by
      show execReceiveStage h s = _
      unfold execReceiveStage
      rw [hf]
      exact if_neg (by rw [hm]; decide)
    refine ⟨fun hp => ?_, fun hp => ?_, fun hp => ?_, fun hp => ?_⟩ <;> rw [key, hp] <;> rfl
  · show execCoalTimeout k s = _
    unfold execCoalTimeout
    rw [hc]
    exact if_pos hm
  · subst hr
    refine congrArg Host.Outcome.next ((oflCmd_taken hw hb hu).trans ?_)
    rw [hm, hg]
    rfl
  · subst hr
    refine congrArg Host.Outcome.next ((oflCmd_taken hw hb hu).trans ?_)
    rw [hm, hg]
    rfl
  · subst hr
    refine congrArg Host.Outcome.next ((oflCmd_taken hw hb hu).trans ?_)
    rw [hm]
    rfl
  · exact congrArg Host.Outcome.next (oflCmd_taken hw hb hu)
  · subst hv ho hr
    refine congrArg Host.Outcome.next ((oflCmd_taken hw hb hu).trans ?_)
    dsimp only
    rw [bits_zero, hm]
    rfl
  · subst hv ho hr
    refine congrArg Host.Outcome.next ((oflCmd_taken hw hb hu).trans ?_)
    dsimp only
    rw [bits_zero, hm]
    rfl
  · exact congrArg Host.Outcome.next (oflCmd_taken hw hb hu)
  · have hgood : ¬ (u.get NVX_owner (nvConn e.bytes) ≠ s.qOwner q ∨ nvcValid (u.nvContext (nvConn e.bytes)) = false ∨
        (u.placeOf (nvConn e.bytes) (nvCid e.bytes)).isSome ∨ 65536 ≤ u.places.length) := by
      rw [hv, hp]
      simp only [ho, ne_eq, not_true_eq_false, Bool.true_eq_false, Option.isSome_none, Bool.false_eq_true, false_or]
      omega
    refine ⟨fun h0 => ?_, fun h0 => ?_⟩
    · rw [place_eq he hu hs, if_neg hgood, if_pos h0]
    · rw [place_eq he hu hs, if_neg hgood, if_neg h0]
  · rw [place_eq he hu hs, if_pos (.inl ho)]
  · subst hu
    show execNvmeCancel q i s = _
    unfold execNvmeCancel
    rw [he]
    dsimp only
    rw [hp]
    exact if_pos ho
  · subst hu
    show execNvmeCancel q i s = _
    unfold execNvmeCancel
    rw [he]
    dsimp only
    rw [hp]

/-! ## DMA -/

/-- An entry of an opcode is handed to its idle channel, for which no entry waits. -/
theorem dmaHand_idle {q op : Nat} {e : Ent} (he : s.entAt q i = some e) (hg : s.entGo q i = true) (hq : s.qClass q = qcDma)
    (hc : c = dmChan e.bytes) (hs : s.chState c = chIdle) (hw : s.dmaWaits c = []) (ho : weOpcode e.bytes = op) :
    s.dmaHand q i op = s.dmaEntry c q i := by
  subst hc
  unfold State.dmaHand
  rw [he]
  dsimp only
  rw [hg, hq, ho, beq_self_eq_true, beq_self_eq_true, Bool.and_self, Bool.and_self, if_pos rfl, if_pos ⟨hs, .inl hw⟩]

/-- The engine's next channel, by whether its function may master and whether it streams. -/
theorem dmaRunStart_eq {e : Nat} {src : ReadResult} (hon : s.dmaOn = true) (hb : s.engBusy e = false) (hp : s.engPick e = (some c, u)) :
    exec (.dmaRunStart e src) s = if u.dmaHost c && (match u.chFn c with | some g => u.fnHeld g | none => false) then
        .next ((u.pmu 14 3 1).setCh c chHeld)
      else if bit (u.get DMX_cfg c) 9 then .next (u.runBegin c) else .next ((u.runBegin c).runMove c src) := by
  show execDmaRunStart e src s = _
  unfold execDmaRunStart
  rewrite [hon, hb, if_neg (by decide), hp]
  rfl

/-- The end of a burst of a running stream. -/
theorem streamBurstEnd_eq (hon : s.dmaOn = true) (hr : s.chState c = chRunning) (hst : bit (s.get DMX_cfg c) 9 = true) (hun : s.unsent c = false) :
    exec (.streamBurstEnd c) s = if s.dmaHost c && (match s.chFn c with | some g => s.fnHeld g | none => false) then
        .next ((s.pmu 14 3 1).setCh c chHeld)
      else
        let r := s.dmaPut c (s.get DMA_CH_XFER_bytes c) (swapBytes (bits (s.get DMX_cfg c) 6 3) ((s.fifoOf c).take (s.burstLen c)))
        let t := r.2.setFifo c ((s.fifoOf c).drop (s.burstLen c))
        if r.1 ≠ 0 ∨ t.unsent c = true ∨ t.streamMore c = false then .next (t.dmaBack c r.1)
        else .next ((t.setCh c chReady).chSettle c) := by
  show execStreamBurstEnd c s = _
  unfold execStreamBurstEnd
  rewrite [hon, hr, hst, hun, if_neg (by decide)]
  rfl

/-- Settles O54: the branch of each DMA command that its hypotheses leave. -/
theorem dmaChannelsRun : Obligations.DmaChannelsRun := by
  unfold Obligations.DmaChannelsRun
  refine ⟨fun q i c e s he hg hq hc hs hw => ⟨fun ho => congrArg Host.Outcome.next (dmaHand_idle he hg hq hc hs hw ho),
      fun ho => congrArg Host.Outcome.next (dmaHand_idle he hg hq hc hs hw ho)⟩,
    fun w c s hw => ⟨fun hs hd => ?_, fun hs => ?_, fun hs => ?_, fun hc => ?_, ?_⟩, fun m c x s hb hh hc => ⟨fun hl => ?_, fun hl => ?_⟩,
    fun c s hon => ⟨fun hs => ?_, fun hs hd bs => ?_, fun hs hd g hg => ?_⟩,
    fun e c src s u hon hb hp => ⟨fun hd hst => ?_, fun hd hst => ?_, fun g hd hg hh => ?_⟩, fun c g s hon hr hst hun hd hg hh => ?_,
    fun c s t r hon hr hst hun hd hput ht => ⟨fun hx => ?_, fun h0 hu hm => ?_⟩⟩
  · show execChannelStart w c s = _
    unfold execChannelStart
    rw [hw, if_neg (by decide), if_neg (by simp [hs, hd])]
  · show execChannelStart w c s = _
    unfold execChannelStart
    rw [hw, if_neg (by decide), if_pos (.inl hs)]
  · show execDmaStop w c s = _
    unfold execDmaStop
    rw [hw, beq_false_of_ne hs]
    rfl
  · show execEos w c s = _
    unfold execEos
    rw [hw, decide_eq_false (Nat.not_lt.2 hc)]
    rfl
  · show execShadowArm w c s = _
    unfold execShadowArm
    rw [hw]
    rfl
  · show execFifoPush (.fw m) c x s = _
    unfold execFifoPush State.fifoPush
    dsimp only
    rw [hb, hh, decide_eq_false (Nat.not_lt.2 hc), leBytes_length, if_neg (by decide), if_neg (Nat.not_lt.2 hl)]
  · show execFifoPush (.fw m) c x s = _
    unfold execFifoPush State.fifoPush
    dsimp only
    rw [hb, hh, decide_eq_false (Nat.not_lt.2 hc), leBytes_length, if_neg (by decide), if_pos hl]
  · exact congrArg Host.Outcome.next (if_pos (by rw [hon, hs]; rfl))
  · show execDmaReadbackReturn c (.data bs) s = _
    unfold execDmaReadbackReturn
    dsimp only
    rw [hon, hs, if_neg (by decide), hd]
  · show execDmaReadbackReturn c .timeout s = _
    unfold execDmaReadbackReturn
    dsimp only
    rw [hon, hs, if_neg (by decide), hd]
    dsimp only
    rw [hg]
  · rw [dmaRunStart_eq hon hb hp, hd, hst]
    rfl
  · rw [dmaRunStart_eq hon hb hp, hd, hst]
    rfl
  · rw [dmaRunStart_eq hon hb hp, hd, hg]
    exact if_pos hh
  · rw [streamBurstEnd_eq hon hr hst hun, hd, hg]
    exact if_pos hh
  · rw [streamBurstEnd_eq hon hr hst hun, hd, ← hput]
    dsimp only
    rw [← ht, Bool.false_and, if_neg Bool.false_ne_true, if_pos hx]
  · rw [streamBurstEnd_eq hon hr hst hun, hd, ← hput]
    dsimp only
    rw [← ht, Bool.false_and, if_neg Bool.false_ne_true, if_neg (by simp [h0, hu, hm])]

end Sys2Proof.Proofs
end

section
/-! PROOFS. The host endpoints and their error records, and the reset and the migration of a function. -/

namespace Sys2Proof.Proofs
open Sys2Proof Sys2Proof.Machine Sys2Proof.Machine.Reg Sys2Proof.Laws

variable {s u : State}

/-- A link that trains from down. -/
theorem pcieLinkUp_trains {h sp wd : Nat} {fl : Bool} (hd : s.dev ≠ dsAonOnly) (h0 : s.dev ≠ 0) (hp : s.flag HEX_perst h = false)
    (hs : sp ≠ 0) (hs6 : sp ≤ 6) (hw : [1, 2, 4, 8, 16].contains wd = true) (hu : s.flag HE_LINK_up h = false) :
    exec (.pcieLinkUp h sp wd fl) s = .next ((((((s.put HE_LINK_up h true).set HE_LINK_speed h sp).set HE_LINK_width h wd).put
      HE_LINK_flit h (sp == 6 || (fl && decide (4 ≤ sp)))).put HE_LINK_degraded h (decide (sp < 4 ∨ wd < 16))).inc
      HE_LINK_CHG_count h) := by
  have hgo : ¬ (s.dev = dsAonOnly ∨ s.dev = 0 ∨ s.flag HEX_perst h = true ∨ sp = 0 ∨ 6 < sp ∨ [1, 2, 4, 8, 16].contains wd = false) := by
    rw [hp, hw]
    rintro (h | h | h | h | h | h)
    · exact hd h
    · exact h0 h
    · exact Bool.false_ne_true h
    · exact hs h
    · exact absurd hs6 (Nat.not_le.2 h)
    · exact Bool.false_ne_true h.symm
  show execPcieLinkUp h sp wd fl s = _
  unfold execPcieLinkUp
  rw [if_neg hgo, hu]
  rfl

/-- A write of configuration space: the fields of its doubleword, ECRC's check enable, and what the write does beside. -/
theorem configWrite_eq {g off be v : Nat} (ho : s.cfgOpen g = true)
    (hu : u = (cfgFields off).foldl (fun t p => t.setMasked p.2 g p.1 v (beMask be)) s) :
    exec (.configWrite g off be v) s = .next ((if off = 0x118 ∧ bit (beMask be) 6 = true then
      u.set CFG_ecrc_en g (bits v 6 1 + 2 * bits (u.get CFG_ecrc_en g) 1 1) else u).cfgSpecial g off v (beMask be)) := by
  show execConfigWrite g off be v s = _
  unfold execConfigWrite
  dsimp only
  rw [ho, if_neg (by decide), ← hu]

/-- An inbound access that the function does not take, or an error it detects, on a link that is up. -/
theorem linkTakes {g : Nat} (hl : s.flag HE_LINK_up (pfOf g) = true) (he : s.fnExists g = true) :
    ¬ (!s.flag HE_LINK_up (pfOf g) || !s.fnExists g) = true := by
  rw [hl, he]
  decide

/-- An inbound bad access. -/
theorem inboundBadAccess_eq {g : Nat} {hdr : List Byte} {m rd : Bool} (hl : s.flag HE_LINK_up (pfOf g) = true)
    (he : s.fnExists g = true) (hm : m = (if g < 2 then s.flag CFG_mse g && !s.flag FN_STATE_d3 g else s.vfMem g)) :
    exec (.inboundBadAccess g rd hdr) s = .next (if rd then
      ((s.inc HE_IN_ERR_count (pfOf g)).aer g (if m then 15 else 20) rd hdr).emit (.badCpl g (!m))
      else (s.inc HE_IN_ERR_count (pfOf g)).aer g (if m then 15 else 20) rd hdr) := by
  show execInboundBadAccess g rd hdr s = _
  unfold execInboundBadAccess
  dsimp only
  rw [if_neg (linkTakes hl he), ← hm]

/-- The timeout of a host read: a poll and a read out of retries fail, another read of a function that lives is issued again. -/
theorem completionTimeout_eq {h tag : Nat} {hdr : List Byte} {r : Rd} (hr : s.readAt h tag = some r) (ht : s.timedOut r = true)
    (hu : u = { ((s.inc HE_CTO_count h).pmu (17 + h) 3 1) with
      reads := s.reads.filter (fun x => x != r)
      tagQuar := s.tagQuar ++ [({ h := h, tag := tag, gfn := r.gfn, until_ := s.clk + 4 * r.cto } : TagQuar)] }) :
    exec (.completionTimeout h tag r.why hdr) s =
      if (match r.why with | .poll _ => true | _ => false) = false ∧ r.att < u.get HE_CFG_cto_retry h ∧ u.fnDead r.gfn = false then
        .next ((u.aerMark r.gfn).reissue { r with att := r.att + 1 })
      else .next ((u.aer r.gfn 14 false hdr).readFail r.why) := by
  show execCompletionTimeout h tag r.why hdr s = _
  unfold execCompletionTimeout
  rw [hr]
  dsimp only
  rewrite [if_neg (by rw [ht]; exact fun h => h.elim (fun k => k rfl) Bool.noConfusion), ← hu]
  rfl

/-- Settles O55: each event of a host port, by the branches of its operation. -/
theorem hostPortsAndErrors : Obligations.HostPortsAndErrors := by
  unfold Obligations.HostPortsAndErrors
  refine ⟨fun h sp wd fl s u hd h0 hp hs hs6 hw hl hu => ?_, fun h s u hp hu => ?_, fun h s => rfl, fun h s hp hl hh => ⟨?_, ?_⟩,
    fun g s ho => ⟨if_pos ho, fun hb => if_pos (by rw [ho, hb]; rfl), fun hd => if_pos (by rw [ho, hd]; rfl)⟩,
    fun g off be v s u ho hu => ⟨fun hn => ?_, fun h1 h2 => ?_⟩, fun g hdr m s hl he hm => ⟨?_, ?_⟩,
    fun g hdr s hl he => ⟨if_neg (linkTakes hl he), if_neg (linkTakes hl he), if_neg (linkTakes hl he)⟩,
    fun h tag hdr s u r hr ht hu => ⟨fun q hq => ?_, fun hle => ?_, fun q idx hq hlt hd => ?_⟩,
    fun h tag hdr s u r hl hr hu => ⟨fun h0 => ?_, fun h0 => ?_⟩, fun h tag hdr s hl hr => ?_, fun h tag s ha => if_pos ha⟩
  · rw [hu]
    exact pcieLinkUp_trains hd h0 hp hs hs6 hw hl
  · subst hu
    exact if_neg (by rw [hp]; decide)
  · exact if_neg (by rw [hp, hl, hh]; decide)
  · show execDlDown h s = _
    unfold execDlDown
    rw [hp, hl, if_neg (by decide), if_pos hh]
  · rw [configWrite_eq ho hu, if_neg]
    rintro ⟨h1, h2⟩
    exact hn.elim (fun k => k h1) (fun k => by rw [h2] at k; cases k)
  · rw [configWrite_eq ho hu, if_pos ⟨h1, h2⟩]
  · exact inboundBadAccess_eq hl he hm
  · exact inboundBadAccess_eq hl he hm
  · have key := completionTimeout_eq (hdr := hdr) hr ht hu
    rw [hq] at key
    exact key.trans (if_neg (fun h => Bool.noConfusion h.1))
  · exact (completionTimeout_eq hr ht hu).trans (if_neg (fun h => absurd hle (Nat.not_le.2 h.2.1)))
  · have key := completionTimeout_eq (hdr := hdr) hr ht hu
    rw [← hq]
    refine key.trans (if_pos ?_)
    exact ⟨by rw [hq], hlt, hd⟩
  · show execCompletionArrival h tag hdr s = _
    unfold execCompletionArrival
    rw [hl, if_neg (by decide), hr]
    exact congrArg Host.Outcome.next ((if_pos h0).trans (by rw [hu]))
  · show execCompletionArrival h tag hdr s = _
    unfold execCompletionArrival
    rw [hl, if_neg (by decide), hr]
    exact congrArg Host.Outcome.next ((if_neg h0).trans (by rw [hu]))
  · show execCompletionArrival h tag hdr s = _
    unfold execCompletionArrival
    rw [hl, if_neg (by decide), hr]

/-! ## Functions -/

/-- The work that a function reset waits for is over: its queues are disabled, and it leaves RESETTING. -/
theorem flrQuiesceDone_eq {g : Nat} (hs : s.fnState g = fsResetting) (hq : (s.queuesOf g).any (fun q => !(s.entsOf q).isEmpty) = false)
    (hu : u = forEach (s.queuesOf g) (fun q t => if t.qState q = qsDisabled then t
      else (t.put QM_QCTX_STATUS_arm_pending q false).disableNow q false) s) :
    exec (.flrQuiesceDone g) s = if 2 ≤ g ∧ u.vfPresent g = false then .next (u.vfsLeave (pfOf g)) else .next (u.fnLeave g) := by
  show execFlrQuiesceDone g s = _
  unfold execFlrQuiesceDone
  dsimp only
  rw [if_neg (by rw [hq]; exact fun h => h.elim (fun k => k hs) Bool.false_ne_true), ← hu]

/-- A moderation write of an accessor that may make it. -/
theorem vmodWrite_eq {w : Who} {pf v g k : Nat} (hw : s.mayWrite w = true) (hg : g = s.get FN_VMOD_SEL_gfn pf)
    (hk : k = s.get FN_VMOD_SEL_vec pf) (ho : ownerMay w g = true) (hg' : g < 4098) (hk' : k < s.nvec g)
    (hu : u = (s.set VMOD_cnt (vix g k) (bits v 16 8)).set VMOD_us (vix g k) (bits v 0 10)) :
    exec (.vmodWrite w pf v) s = if s.get VMOD_tally (vix g k) = 0 then .next u
      else if (bits v 16 8 ≠ 0 ∧ bits v 16 8 ≤ s.get VMOD_tally (vix g k)) ∨ (bits v 16 8 = 0 ∧ bits v 0 10 = 0) then
        .next (((u.set VMOD_tally (vix g k) 0).put VMOD_timer (vix g k) false).sendVec g k)
      else .next (u.vmodStart (vix g k)) := by
  show execVmodWrite w pf v s = _
  unfold execVmodWrite
  dsimp only
  rw [← hg, ← hk, hw, ho, decide_eq_true hg', decide_eq_true hk', if_neg (by decide), ← hu]

/-- The vector's tally meets neither the count nor the time of the moderation, so the timer starts. -/
theorem not_vmodMeets {cnt us n : Nat} (hn : cnt = 0 ∨ n < cnt) (hz : cnt ≠ 0 ∨ us ≠ 0) :
    ¬ ((cnt ≠ 0 ∧ cnt ≤ n) ∨ (cnt = 0 ∧ us = 0)) := by
  omega

/-! ## Migration -/

/-- FREEZE of a port that takes it. -/
theorem freeze_eq {w : Who} {m g h : Nat} (hp : migPf w g = some h) (hw : s.mayWrite w = true) (ht : s.migTakes m h = true)
    (hu : u = s.migSeen m g) :
    exec (.freeze w m g) s =
      if u.freezeBad m h g ≠ 0 then .next ((u.set FN_MIG_STATUS_result m (u.freezeBad m h g)).set FN_MIG_STATUS_pf m h)
      else .next (forEach (((u.migBegin m h g 1).set FN_STATE_state g fsFreezing).queuesOf g) (fun q t => t.freezeQueue q)
        ((u.migBegin m h g 1).set FN_STATE_state g fsFreezing)) := by
  show execFreeze w m g s = _
  unfold execFreeze
  rw [hp]
  dsimp only
  rw [hw, ht, if_neg (by decide), ← hu]

/-- The end of the work of a function that freezes. -/
theorem freezeWorkDone_eq {m g : Nat} (ho : s.get MGX_op m = 1) (hb : s.flag FN_MIG_STATUS_busy m = true) (hg : g = s.get MGX_gfn m)
    (hh : s.fnHeld g = false) (hm : s.masterStop = false) (hs : s.fnState g = fsFreezing)
    (hq : (s.queuesOf g).any (fun q => !(s.entsOf q).isEmpty) = false)
    (hu : u = forEach (s.queuesOf g) (fun q t => t.freezeDone q) s) :
    exec (.freezeWorkDone m) s = match u.migKek (s.get FN_MIG_STATUS_pf m) with
      | none => .next (u.migEnd m 0x03)
      | some kek => .next (((((u.hostWrite (s.get FN_MIG_STATUS_pf m) (u.migBuf m) (u.image g kek) false false).set MGX_op m 2).hostRead
          (s.get FN_MIG_STATUS_pf m)
          (((u.hostWrite (s.get FN_MIG_STATUS_pf m) (u.migBuf m) (u.image g kek) false false).set MGX_op m 2).migBuf m +
            (u.image g kek).length - 8) 8 false false .other).set FN_MIG_ILEN_len m (u.image g kek).length).set
          DMA_CH_XFER_bytes (1012 + m) (u.image g kek).length) := by
  have hgo : ¬ (s.get MGX_op m ≠ 1 ∨ s.flag FN_MIG_STATUS_busy m = false ∨ s.fnHeld g = true ∨ s.masterStop = true ∨
      s.fnState g ≠ fsFreezing ∨ (s.queuesOf g).any (fun q => !(s.entsOf q).isEmpty) = true) := by
    rw [ho, hb, hh, hm, hs, hq]
    decide
  show execFreezeWorkDone m s = _
  unfold execFreezeWorkDone
  dsimp only
  rewrite [← hg, if_neg hgo, ← hu]
  rfl

/-- THAW of a port that takes it and is not busy, whose header is not refused before it is read. -/
theorem thaw_data_eq {w : Who} {m g h : Nat} {bs : List Byte} {v : State} (hp : migPf w g = some h) (hw : s.mayWrite w = true)
    (ht : s.migTakes m h = true) (hb : s.flag FN_MIG_STATUS_busy m = false) (hu : u = s.migSeen m g) (he : u.thawBad m h g [] = 0x06)
    (hv : v = u.hostRead h (u.migBuf m) (if leAt bs 8 4 ≤ u.get FN_MIG_BUFLEN_len m then max 64 (leAt bs 8 4) else 64) false false .other) :
    exec (.thaw w m g (.data bs)) s =
      if v.thawBad m h g bs ≠ 0 then .next ((v.set FN_MIG_STATUS_result m (v.thawBad m h g bs)).set FN_MIG_STATUS_pf m h)
      else .next { (((v.migBegin m h g 3).set FN_STATE_state g fsThawing).set DMA_CH_XFER_bytes (1012 + m) (leAt bs 8 4)) with
        migImg := SM.put [] v.migImg m bs } := by
  show execThaw w m g (.data bs) s = _
  unfold execThaw
  rw [hp]
  dsimp only
  rw [hw, ht, if_neg (by decide), hb, if_neg (by decide), ← hu, he, if_neg (by decide), ← hv]

/-- CANCEL of a port that takes it: refused beside another command, while the function resets, and where nothing is frozen. -/
theorem cancel_eq {w : Who} {m g h : Nat} (hp : migPf w g = some h) (hw : s.mayWrite w = true) (ht : s.migTakes m h = true)
    (hu : u = s.migSeen m g) :
    exec (.cancel w m g) s =
      if u.flag FN_MIG_STATUS_busy m && u.get MGX_gfn m != g then .next (u.set FN_MIG_STATUS_result m 0x01)
      else if u.flrNow g then .next ((u.set FN_MIG_STATUS_result m 0x08).set FN_MIG_STATUS_pf m h)
      else if !isVfOf h g || !(u.fnState g == fsFreezing || u.fnState g == fsFrozen) then
        .next ((u.set FN_MIG_STATUS_result m 0x02).set FN_MIG_STATUS_pf m h)
      else .next ((forEach ((((u.migCancel g).set FN_STATE_state g fsActive).set FN_MIG_STATUS_result m 0x00).queuesOf g) (fun q t =>
          if t.qState q = qsFrozen then t.thawQueue q (t.get QX_frz q)
          else if t.qState q = qsActive then t.dueAt q t.clk else t)
          (((u.migCancel g).set FN_STATE_state g fsActive).set FN_MIG_STATUS_result m 0x00)).releaseVecs g) := by
  show execCancel w m g s = _
  unfold execCancel
  rw [hp]
  dsimp only
  rw [hw, ht, if_neg (by decide), ← hu]

/-- The refusals of CANCEL beside another command do not hold where no command runs, or it is of the same function. -/
theorem cancelBusy_false {m g : Nat} (h : u.flag FN_MIG_STATUS_busy m = false ∨ u.get MGX_gfn m = g) :
    ¬ (u.flag FN_MIG_STATUS_busy m && u.get MGX_gfn m != g) = true := by
  rcases h with h | h
  · rw [h, Bool.false_and]
    exact Bool.false_ne_true
  · rw [h, bne_self_eq_false, Bool.and_false]
    exact Bool.false_ne_true

/-- Settles O56: each operation of a function's reset and migration, by its branches. -/
theorem functionsResetAndMigrate : Obligations.FunctionsResetAndMigrate := by
  unfold Obligations.FunctionsResetAndMigrate
  refine ⟨fun g s ho => if_pos ho, fun g s u hs hq hu => ⟨fun h => ?_, fun h2 hp => ?_⟩,
    fun h s ho => ⟨fun hv => if_pos (by rw [ho, hv]; rfl), fun hv => if_pos (by rw [ho, hv]; rfl)⟩,
    fun w pf v g k s u hw hg hk ho hg' hk' hu => ⟨fun h0 => ?_, fun h0 hm => ?_, fun h0 hn hz => ?_⟩,
    fun g k s ht hk hd => ?_, fun w m g h s u v hp hw ht hu => ⟨fun hb => ?_, fun hb hv => ?_⟩,
    fun m g s u ho hb hg hh hm hs hq hu => ⟨fun hk => ?_, fun kek img v hk hi hv => ?_⟩, fun m bs s ho hb => ?_,
    fun w m g h rb s u hp hw ht hu => ⟨fun hb => ?_, fun hb he => ?_⟩,
    fun w m g h bs s u v hp hw ht hb hu he hv => ⟨fun hn => ?_, fun h0 => ?_⟩,
    fun m g kek s u hk ho hg hs hu => ?_,
    fun w m g h s u hp hw ht hu => ⟨fun hb hn => ?_, fun hb => ⟨fun hf => ?_, fun hf ha => ?_, fun v hf hz hv hvv => ?_⟩⟩,
    fun w k s hw ho hb => if_pos (by rw [hw, ho, hb]; rfl), fun k bs s hb => ⟨if_pos hb, fun e u he hu => ?_⟩⟩
  · refine (flrQuiesceDone_eq hs hq hu).trans (if_neg fun k => ?_)
    exact h.elim (fun h => absurd k.1 (Nat.not_le.2 h)) (fun h => Bool.noConfusion (h.symm.trans k.2))
  · exact (flrQuiesceDone_eq hs hq hu).trans (if_pos ⟨h2, hp⟩)
  · exact (vmodWrite_eq hw hg hk ho hg' hk' hu).trans (if_pos h0)
  · exact (vmodWrite_eq hw hg hk ho hg' hk' hu).trans ((if_neg h0).trans (if_pos hm))
  · exact (vmodWrite_eq hw hg hk ho hg' hk' hu).trans ((if_neg h0).trans (if_neg (not_vmodMeets hn hz)))
  · exact if_pos (by rw [ht, decide_eq_true hk, decide_eq_true hd]; rfl)
  · exact (freeze_eq hp hw ht hu).trans (if_pos hb)
  · rw [freeze_eq hp hw ht hu, if_neg (not_not_intro hb), ← hv]
  · rw [freezeWorkDone_eq ho hb hg hh hm hs hq hu, hk]
  · rw [freezeWorkDone_eq ho hb hg hh hm hs hq hu, hk]
    dsimp only
    rw [← hi, ← hv]
  · show execFreezeImageDone m (.data bs) s = _
    unfold execFreezeImageDone
    rw [ho, hb]
    rfl
  · show execThaw w m g rb s = _
    unfold execThaw
    rw [hp]
    dsimp only
    rw [hw, ht, if_neg (by decide), if_pos hb]
  · show execThaw w m g rb s = _
    unfold execThaw
    rw [hp]
    dsimp only
    rw [hw, ht, if_neg (by decide), hb, if_neg (by decide), ← hu, if_pos he]
  · exact (thaw_data_eq hp hw ht hb hu he hv).trans (if_pos hn)
  · exact (thaw_data_eq hp hw ht hb hu he hv).trans (if_neg (not_not_intro h0))
  · show execThawDone m s = _
    unfold execThawDone
    rw [hk]
    dsimp only
    rw [ho, ← hg, hs, if_neg (by decide), ← hu]
  · exact (cancel_eq hp hw ht hu).trans (if_pos (by rw [hb, bne_iff_ne.2 hn]; rfl))
  · rw [cancel_eq hp hw ht hu, if_neg (cancelBusy_false hb), if_pos hf]
  · rw [cancel_eq hp hw ht hu, if_neg (cancelBusy_false hb), hf, if_neg (by decide), ha,
      if_pos (by rw [show (fsActive == fsFreezing || fsActive == fsFrozen) = false from rfl, Bool.not_false, Bool.or_true])]
  · rw [cancel_eq hp hw ht hu, if_neg (cancelBusy_false hb), hf, if_neg (by decide), hv, if_neg ?_, ← hvv]
    rcases hz with h | h <;> rw [h] <;> decide
  · show execHarvestDone k e s = _
    unfold execHarvestDone
    rw [if_pos hb, ← hu]
    cases e with
    | data b => exact absurd rfl (he b)
    | _ => rfl

end Sys2Proof.Proofs
end

section
/-! PROOFS. The mailboxes and their locks, the messages of the board controller and the streaming windows. -/

namespace Sys2Proof.Proofs
open Sys2Proof Sys2Proof.Machine Sys2Proof.Machine.Reg Sys2Proof.Laws

variable {s u : State} {w : Who} {c g n : Nat}

/-! ## Channels -/

/-- COMMIT of the owner of the channel's lock. -/
theorem mbxCommit_eq (hb : s.busOpen w = true) (hr : s.mbxReach w c = true) (ho : s.get MBX_LOCK_owner c = ownerNo w) :
    exec (.mbxCommit w c n) s =
      if s.flag MBX_CH_STATUS_full c then .next ((s.pmu 15 3 1).put MBX_CH_STATUS_tx_full c true)
      else if n % 16 = 0 ∨ 8 < n % 16 ∨ s.mbxTakes c (ownerNo w) = false then .next ((s.pmu 15 3 1).put MBX_CH_STATUS_refused c true)
      else .next (s.mbxTake c (ownerNo w) ((List.range (n % 16)).map (fun k => s.get MBX_CH_TX_word (8 * c + k)))) := by
  show execMbxCommit w c n s = _
  unfold execMbxCommit
  rw [hb, hr, if_neg (by decide), if_neg (not_not_intro ho)]

/-- COMMIT of one to eight words takes them all. -/
theorem commitWords (h1 : 1 ≤ n) (h8 : n ≤ 8) : n % 16 = n ∧ ¬ (n = 0 ∨ 8 < n) :=
  ⟨Nat.mod_eq_of_lt (by omega), by omega⟩

/-- A write of firmware to the configuration of a channel that it reaches. -/
theorem mbxCfgWrite_fw_eq {m v : Nat} {irq : Bool} (hb : s.busOpen (.fw m) = true) (hr : s.mbxReach (.fw m) c = true) :
    exec (.mbxCfgWrite (.fw m) c irq v) s =
      if !true || s.flag MBX_CH_STATUS_full c || s.get MBX_LOCK_owner c != 0 || (!irq && !s.mbxCfgOk c v) then
        .next (s.put MBX_CH_STATUS_refused c true)
      else if irq then .next ((s.put MBX_CH_IRQ_en c (bit v 31)).set MBX_CH_IRQ_vec c (bits v 0 11))
      else .next (((s.set MBX_CH_CFG_rx c (bits v 16 16)).put MBX_CH_CFG_purge c (bit v 15)).set MBX_CH_CFG_tx_mask c (bits v 8 7)) :=
  if_neg (by rw [hb, hr]; decide)

/-- The doorbell of a guest that is not full takes the guest's words. -/
theorem upCommit_eq (hb : s.busOpen w = true) (hf : s.fnExists g = true) (hg : isGuest w g = true) :
    exec (.upCommit w g n) s =
      if s.flag PVU_full g then .next ((s.pmu 15 3 1).put PVU_txfull g true)
      else if n % 16 = 0 ∨ 8 < n % 16 then .next (s.pmu 15 3 1)
      else .next (((((((s.copyWords PVU_tx PVU_data g (n % 16)).set PVU_hdr g (msgHdr (g + 1) (s.get PVU_epoch g) (n % 16))).pmu
        15 1 1).put PVU_full g true).put PVU_rec g true).pvPend g true).pvUpRing g) := by
  show execUpCommit w g n s = _
  unfold execUpCommit
  rw [hb, hf, if_neg (by decide), hg, if_neg (by decide)]

/-- The doorbell of a PF toward its guest. -/
theorem dnCommit_eq (hb : s.busOpen w = true) (hf : s.fnExists g = true) (hg : isPfOf w g = true) :
    exec (.dnCommit w g n) s =
      if s.flag PVD_full g then .next ((s.pmu 15 3 1).put PVD_txfull g true)
      else if n % 16 = 0 ∨ 8 < n % 16 then .next (s.pmu 15 3 1)
      else .next ((((((s.copyWords PVD_tx PVD_data g (n % 16)).set PVD_hdr g (msgHdr (pfOf g + 1) (s.get PVD_epoch g) (n % 16))).pmu
        15 1 1).put PVD_full g true).put PVD_rec g true).pvDnRing g) := by
  show execDnCommit w g n s = _
  unfold execDnCommit
  rw [hb, hf, if_neg (by decide), hg, if_neg (by decide)]

/-- Settles O57: each mailbox operation, by its branches. -/
theorem mailboxesAndLocks : Obligations.MailboxesAndLocks := by
  unfold Obligations.MailboxesAndLocks
  refine ⟨fun w c n s hb hr ho => ⟨fun hf h1 h8 ht => ?_, fun hf => ?_⟩, fun w c n s hb hr ho => ?_,
    fun w c s => ⟨rfl, rfl, rfl, rfl⟩, fun w n v s hb hr ho hv => ?_,
    fun m c v s hb hr => ⟨fun hf ho => ?_, fun hf ho hk => ?_, fun hf => ?_⟩,
    fun k s hh => ⟨fun q c ws => if_pos hh, fun c e => if_pos hh, fun n => if_pos hh, fun n => if_pos hh⟩,
    fun w g n s u hb he h1 h8 => ⟨fun hf hg hu => ?_, fun hf hg hu => ?_⟩,
    fun w g n s hb he => ⟨fun hg hf => ?_, fun hg => ?_, fun hg hf => ?_⟩⟩
  · obtain ⟨hn, hz⟩ := commitWords h1 h8
    rw [mbxCommit_eq hb hr ho, hf, if_neg (by decide), hn, if_neg]
    rintro (h | h | h)
    · exact hz (Or.inl h)
    · exact hz (Or.inr h)
    · exact Bool.false_ne_true (h.symm.trans ht)
  · exact (mbxCommit_eq hb hr ho).trans (if_pos hf)
  · show execMbxCommit w c n s = _
    unfold execMbxCommit
    rw [hb, hr, if_neg (by decide), if_pos ho]
  · show execMbxUnlock w n v s = _
    unfold execMbxUnlock
    dsimp only
    rw [hb, hr, if_neg (by decide), hv, ho, beq_self_eq_true, Bool.and_self, Bool.or_true, if_pos rfl]
  · rw [mbxCfgWrite_fw_eq hb hr, hf, ho]
    rfl
  · rw [mbxCfgWrite_fw_eq hb hr, hf, ho, hk]
    rfl
  · rw [mbxCfgWrite_fw_eq hb hr, hf]
    rfl
  · obtain ⟨hn, hz⟩ := commitWords h1 h8
    rw [upCommit_eq hb he hg, hf, if_neg (by decide), hn, if_neg hz, hu]
  · obtain ⟨hn, hz⟩ := commitWords h1 h8
    rw [dnCommit_eq hb he hg, hf, if_neg (by decide), hn, if_neg hz, hu]
  · exact (upCommit_eq hb he hg).trans (if_pos hf)
  · show execUpCommit w g n s = _
    unfold execUpCommit
    rw [hb, he, if_neg (by decide), hg]
    rfl
  · exact (dnCommit_eq hb he hg).trans (if_pos hf)

/-! ## Board-controller messages and windows -/

/-- A write of the configuration of a window that asks for no clear of its refusal. -/
theorem winCfgWrite_eq {pf k v i : Nat} (hw : s.mayWrite w = true) (hm : winMay w pf = true) (hb : bit v 62 = false) (hi : i = 16 * pf + k) :
    exec (.winCfgWrite w pf k v) s =
      if s.flag MBX_WIN_CFG_en i then
        if !bit v 63 then .next ((s.put MBX_WIN_CFG_en i false).put WNX_wait i false) else .next (s.put MBX_WIN_CFG_refused i true)
      else if !winOk (s.get MBX_WIN_BASE_base i) (bits v 32 4) (bits v 0 18) (bits v 40 10) (bits v 36 4) then
        .next (s.put MBX_WIN_CFG_refused i true)
      else .next (if bit v 63 then
          (((((s.set MBX_WIN_CFG_retry_us i (bits v 40 10)).set MBX_WIN_CFG_user i (bits v 36 4)).set MBX_WIN_CFG_blk i (bits v 32 4)).set
            MBX_WIN_CFG_nblk i (bits v 0 18)).put MBX_WIN_CFG_en i true).set WNX_seq i 0
        else (((s.set MBX_WIN_CFG_retry_us i (bits v 40 10)).set MBX_WIN_CFG_user i (bits v 36 4)).set MBX_WIN_CFG_blk i (bits v 32 4)).set
            MBX_WIN_CFG_nblk i (bits v 0 18)) := by
  subst hi
  show execWinCfgWrite w pf k v s = _
  unfold execWinCfgWrite
  dsimp only
  rw [hw, hm, if_neg (by decide), hb, if_neg Bool.false_ne_true]

/-- A block of a window that is on, where the device masters and has a payload for it. -/
theorem winTake_data_eq {pf i : Nat} {h pay bs : List Byte} (he : s.flag MBX_WIN_CFG_en i = true) (hp : s.portsOn = true)
    (hm : s.masterStop = false) (hh : s.fnHeld pf = false) (hr : s.fnState pf ≠ fsResetting) (hy : s.winPay i pay = some (bs, u)) :
    s.winTake pf i (.data h) pay =
      if bit (byteAt h 0) 0 then ((u.hostRead pf (u.winBlock i) 64 false false .other).put WNX_wait i false).winHand pf i bs
      else (((s.hostRead pf (s.winBlock i) 64 false false .other).inc MBX_WIN_STATUS_stalls i).put WNX_wait i true).set WNX_at i s.clk := by
  unfold State.winTake
  rw [he, hp, hm, hh, beq_false_of_ne hr, if_neg (by decide), hy]

/-- Settles O58: each message of the board controller and each step of a window, by its branches. -/
theorem controllerMessagesAndWindows : Obligations.ControllerMessagesAndWindows := by
  unfold Obligations.ControllerMessagesAndWindows
  refine ⟨fun c ws s hh hb => ?_, fun op e s hh => ?_,
    fun w pf k v i s u hw hm hb hi => ⟨fun he => ?_, fun he hk hu => ?_, fun he hk => ?_⟩,
    fun pf k hdr pay s => ⟨fun hf => ?_, fun hf ht => ?_⟩,
    fun pf k i h pay bs s u hi he hp hm hh hr hy hw => ⟨fun hb => ?_, fun hb => ?_⟩⟩
  · show execMbxPost c ws s = _
    unfold execMbxPost
    rw [hh, if_neg (by decide), hb]
    rfl
  · have hgo : ¬ (!s.bmcHeard) = true := by rw [hh]; decide
    refine ⟨fun hop h0 h255 => ?_, (if_neg hgo).trans (if_pos (Or.inr (Or.inl rfl))), if_neg hgo, (if_neg hgo).trans (if_pos (Or.inl rfl)),
      (if_neg hgo).trans (if_neg (by decide)), if_neg hgo, (if_neg hgo).trans (if_pos rfl), (if_neg hgo).trans (if_neg (by decide))⟩
    refine (if_neg hgo).trans (if_neg ?_)
    rintro (h | h | h)
    · exact absurd hop (Nat.not_lt.2 h)
    · exact h0 h
    · exact h255 h
  · rw [winCfgWrite_eq hw hm hb hi, if_pos he]
    cases bit v 63 <;> rfl
  · rw [winCfgWrite_eq hw hm hb hi, he, if_neg (by decide), hk, if_neg (by decide), hu]
  · rw [winCfgWrite_eq hw hm hb hi, he, if_neg (by decide), hk]
    rfl
  · exact if_neg (by rw [hf]; decide)
  · exact if_pos (by rw [hf, decide_eq_true ht]; rfl)
  · subst hi
    refine (if_neg (by rw [hw]; decide)).trans (congrArg Host.Outcome.next ?_)
    exact (winTake_data_eq he hp hm hh hr hy).trans (if_pos hb)
  · subst hi
    refine (if_neg (by rw [hw]; decide)).trans (congrArg Host.Outcome.next ?_)
    exact (winTake_data_eq he hp hm hh hr hy).trans (if_neg (by rw [hb]; decide))

end Sys2Proof.Proofs
end

section
/-! PROOFS. The pairing and mirroring of twins, and the faults and counters. -/

namespace Sys2Proof.Proofs
open Sys2Proof Sys2Proof.Machine Sys2Proof.Machine.Reg Sys2Proof.Laws

variable {s t u : State} {w : Who} {c k : Nat}

/-! ## Twins -/

/-- HELLO in the exchange of a pairing. -/
theorem hello_eq {rev pr : Nat} {st wi idl gm : Bool} (hl : s.flag TWN_STATUS_link 0 = true) (ht : s.twin = twPairing) :
    exec (.hello c st rev pr wi idl gm) s =
      if c % 2 ^ 64 ≤ s.get TWX_rxctr 0 then .next (s.inc TWN_AUTH_FAIL_count 0)
      else if (s.set TWX_rxctr 0 c).helloBad st rev pr wi idl gm = 0 then .next ((s.set TWX_rxctr 0 c).helloTake wi)
      else .next ((s.set TWX_rxctr 0 c).pairRefuse ((s.set TWX_rxctr 0 c).helloBad st rev pr wi idl gm)) := by
  show execHello c st rev pr wi idl gm s = _
  unfold execHello
  rw [hl, ht, if_neg (by decide)]

/-- A missed heartbeat of a pair: the eighth in a row degrades the pair, or loses the partner. -/
theorem heartbeatMiss_eq {al : Bool} {wb co : List Nat} (ht : t = s.put TWN_STATUS_alive 0 al) (hr : t.twinRuns = true)
    (hp : t.paired = true)
    (hu : u = (((t.pmu 16 3 1).inc TWN_HB_MISS_count 0).set TWX_miss 0 (min 8 (t.get TWX_miss 0 + 1))).set TWX_hb 0 0) :
    exec (.heartbeatMiss al wb co) s = .next (if t.get TWX_miss 0 < 7 then u else if al then u.degrade else u.twinLost wb co) := by
  show execHeartbeatMiss al wb co s = _
  unfold execHeartbeatMiss
  dsimp only
  rw [← ht, hr, hp, if_neg (by decide), ← hu]
  by_cases hm : t.get TWX_miss 0 < 7
  · rw [if_pos hm, if_pos (by omega)]
  · rw [if_neg hm, if_neg (by omega)]
    exact (apply_ite Host.Outcome.next _ _ _).symm

/-- A protected message that is heard, authentic and newer than the last one. -/
theorem twinRx_newer {f : State → State} (hh : s.twinHears = true) (hc : s.get TWX_rxctr 0 < c % 2 ^ 64) :
    s.twinRx c true f = f ((s.set TWX_rxctr 0 c).set TWX_miss 0 0) := by
  unfold State.twinRx
  rw [hh, if_neg (by decide), decide_eq_false (Nat.not_le.2 hc), if_neg (by decide)]

/-- Settles O59: each operation of the twin, by its branches; a message acts through `State.twinRx`. -/
theorem twinsPairAndMirror : Obligations.TwinsPairAndMirror := by
  unfold Obligations.TwinsPairAndMirror
  refine ⟨fun w s u hw hr ht hu => ?_, fun c rev pr st wi idl gm s hl ht => ⟨fun hc => ?_, fun hc hb => ?_, fun hc hb => ?_⟩,
    fun s ht ha => if_pos ⟨ht, ha⟩, fun w s hw ht => ⟨fun hd hf => ?_, fun hd => ?_⟩, fun late s hf h1 h0 => if_pos ?_,
    fun w s ht hl => ⟨fun hw hh => if_pos (by rw [hw, ht, hl, hh]; rfl), fun hh ha => if_pos (by rw [ht, hl, hh, ha]; rfl)⟩,
    fun al wb co s t u ht hr hp => ⟨?_, heartbeatMiss_eq ht hr hp⟩, fun c au s => rfl, fun c f s => twinRx_newer,
    fun s u hr hp hu => ?_, fun c n au fi rs s => ⟨rfl, rfl, rfl, rfl⟩, fun s hs hm ht => if_pos (by rw [hs, hm, ht]; rfl),
    fun c au wb co s => ⟨rfl, ?_⟩, fun c ch k au ws s => ⟨rfl, rfl⟩, fun w s hm => ⟨if_pos hm, if_pos hm⟩⟩
  · rw [hu]
    exact if_neg (by rw [hw, hr]; rcases ht with h | h <;> rw [h] <;> decide)
  · exact (hello_eq hl ht).trans (if_pos hc)
  · exact (hello_eq hl ht).trans ((if_neg (Nat.not_le.2 hc)).trans (if_pos hb))
  · exact (hello_eq hl ht).trans ((if_neg (Nat.not_le.2 hc)).trans (if_neg hb))
  · show execUnpair w s = _
    unfold execUnpair
    rw [hw, beq_false_of_ne ht, if_neg (by decide), if_neg (not_not_intro hd), hf]
    rfl
  · show execUnpair w s = _
    unfold execUnpair
    rw [hw, beq_false_of_ne ht, if_neg (by decide), if_pos hd]
  · cases late with
    | true => rw [hf, if_pos rfl, decide_eq_true (h1 rfl)]; rfl
    | false => rw [hf, if_neg Bool.false_ne_true, h0 rfl]; rfl
  · subst ht
    exact if_pos (by rw [hr, hp]; rfl)
  · show execAliveWireFault s = _
    unfold execAliveWireFault
    rw [hr, hp, if_pos (by decide), ← hu]
    by_cases hd : u.dev = dsWhiteout
    · rw [if_pos hd, if_pos hd]
    · rw [if_neg hd, if_neg hd]
  · refine congrArg (fun f => Host.Outcome.next (s.twinRx c au f)) (funext fun t => ?_)
    exact if_neg Bool.false_ne_true

/-! ## Faults -/

/-- A slot fault raised in a powered slot whose sequence is past its power-good wait. -/
theorem slotFault_raised {v : State} (hd : s.dev ≠ 0) (hu : u = s.put SB_STATUS_fault k true)
    (hv : v = ((u.put SB_STATUS_fault_lat k true).slotHit k).detect (0x080 + k) k false) (hf : s.flag SB_STATUS_fault k = false)
    (hp : u.flag SB_STATUS_pwren k = true) (hq : u.get SBX_seq k ≠ 1) :
    exec (.slotFault k true) s = .next (if u.dev = dsWhiteout ∧ u.get SBX_seq k ≠ 4 then v.slotFaulted k else v) := by
  show execSlotFault k true s = _
  unfold execSlotFault
  dsimp only
  rw [beq_false_of_ne hd, if_neg Bool.false_ne_true, ← hu, hf, hp, bne_iff_ne.2 hq, if_pos (by decide), ← hv]
  by_cases h : u.dev = dsWhiteout ∧ u.get SBX_seq k ≠ 4
  · rw [if_pos h, if_pos (by rw [h.1, bne_iff_ne.2 h.2]; rfl)]
  · rw [if_neg h, if_neg]
    rw [Bool.and_eq_true, beq_iff_eq, bne_iff_ne]
    exact h

/-- The clear of a source that is active. -/
theorem activeClear_eq {lv : Bool} (ho : s.fltOpen w = true) (ha : s.flag FLT_SRC_STATUS_active c = true) (hu : u = s.lift c) :
    exec (.activeClear w c lv) s =
      if s.get FLT_at c = s.clk + 1 then .next (s.set FLT_SRC_STATUS_count c 1)
      else .next (((u.put FLT_SRC_STATUS_active c (u.causeNow c lv)).put FLT_SRC_STATUS_cause c (u.causeNow c lv)).set
        FLT_SRC_STATUS_count c (b2n (u.causeNow c lv))) := by
  subst hu
  show execActiveClear w c lv s = _
  unfold execActiveClear
  rw [ho, ha, if_neg (by decide)]

/-! ## Strobes and dumps -/

/-- A strobe that begins a dump. -/
theorem strobe_dumps (he : s.flag PMU_DUMP_CFG_en 0 = true) (hm : s.masterStop = false) (ht : s.get PMX_tick 0 ≠ s.clk + 1)
    (hd : s.dump = []) (hw : s.flag MBX_WIN_CFG_en s.dumpWin = true)
    (hu : u = (((s.set PMU_SNAP_TS_ts 0 s.now).inc PMX_seq 0).put PMX_gap 0 (s.get PMX_skips 0 != 0)).set PMX_tick 0 (s.clk + 1)) :
    s.strobe k = { ((u.set PMX_skips 0 0).put PMU_DUMP_CFG_busy 0 true) with dump := u.dumpSecs k } := by
  unfold State.strobe
  dsimp only
  rw [he, hm, if_neg (by decide), beq_false_of_ne ht, if_neg Bool.false_ne_true, hd, hw, if_neg (by decide), ← hu]

/-- Settles O60: each detection, clear, injection and strobe, by the branches of its operation. -/
theorem faultsAndCounters : Obligations.FaultsAndCounters := by
  unfold Obligations.FaultsAndCounters
  refine ⟨fun k s hq => if_pos hq, fun k s u v hd hu hv => ⟨slotFault_raised hd hu hv, ?_⟩, fun c d dead s hd => ⟨fun hc => ?_, ?_⟩,
    fun w c lv s u ho ha hu => ⟨fun ht => ?_, fun ht => ?_⟩,
    fun w c d s ho => ⟨fun hi => ?_, fun hi => ?_, if_pos ho⟩, fun r s u hd hu => ⟨?_, ?_⟩, fun w s hw => if_pos hw,
    fun w s u hw he hm ht hd hn hu => ?_, fun s u v he hp hr ho hu hv => ?_,
    fun w v i s u hw hi => ⟨fun he hr hf hu => ?_, fun he => ?_⟩, fun w m s hw => if_neg (by rw [hw]; decide)⟩
  · show execSlotFault k false s = _
    unfold execSlotFault
    dsimp only
    rw [beq_false_of_ne hd, if_neg Bool.false_ne_true]
    rfl
  · show execFaultDetection c d dead s = _
    unfold execFaultDetection
    rw [beq_false_of_ne hd, if_neg Bool.false_ne_true, beq_false_of_ne hc, Bool.and_false]
    rfl
  · exact if_neg (by rw [beq_false_of_ne hd]; decide)
  · exact (activeClear_eq ho ha hu).trans (if_neg ht)
  · exact (activeClear_eq ho ha hu).trans (if_pos ht)
  · show execFaultInject w c d s = _
    unfold execFaultInject
    rw [ho, if_neg (by decide), if_pos hi]
  · show execFaultInject w c d s = _
    unfold execFaultInject
    rw [ho, if_neg (by decide), hi, if_neg (by decide)]
  · rw [hu]
    exact if_neg (by rw [beq_false_of_ne hd]; decide)
  · rw [hu]
    exact if_neg (by rw [beq_false_of_ne hd]; decide)
  · exact (if_pos hw).trans (congrArg Host.Outcome.next (strobe_dumps he hm ht hd hn hu))
  · refine congrArg Host.Outcome.next ?_
    unfold State.periodic
    dsimp only
    rw [he, bne_iff_ne.2 hp, hr, ho, if_pos (by decide), ← hu, ← hv]
  · subst hi
    show execDumpEnable w v s = _
    unfold execDumpEnable
    dsimp only
    rw [hw, if_neg (by decide), he, hr, if_pos (by decide), hf, if_neg (by decide), ← hu]
  · subst hi
    show execDumpEnable w v s = _
    unfold execDumpEnable
    dsimp only
    rw [hw, if_neg (by decide), he, Bool.false_and, if_neg Bool.false_ne_true]

end Sys2Proof.Proofs
end
